-- ==== Sys2Proof/Word.lean ====
section
/-! DEFINITION. The word types of the FLD-E9512 and the plainest facts of its number forms. -/

namespace Sys2Proof

/-- A register of the register interface (R558). -/
abbrev Word := BitVec 32

/-- A host address, a log mark as software sees it, a fence value. -/
abbrev DWord := BitVec 64

/-- One byte of DRAM, of flash or of a host buffer. -/
abbrev Byte := BitVec 8

/-- A 16-bit reason code; 0 means success (R573). -/
abbrev Code := BitVec 16

/-- The 10-bit requester ID of R7. -/
abbrev ReqId := BitVec 10

/-- A binary32 image of R229: the model never looks inside one. -/
abbrev F32 := BitVec 32

end Sys2Proof
end

