-- ==== Sys2Proof/Syntax.lean ====
section
/-! DEFINITION. The commands of the block: one constructor of Instr per row of opcode_table.json, with the
operands that the spec gives the row. Numbers that the spec bounds (a function, a Quarter, a channel) are Nat,
bounded by WellFormed; values that software writes as words are BitVec. What an engine, a DIMM, the host's memory, the
network or the partner delivers with an event is an operand of that event. -/

namespace Sys2Proof

/-- Sparse contents by number: the keys strictly rising; a key that is not listed reads as the default its reader names. -/
abbrev NMap (α : Type) := List (Nat × α)

/-- The header of a command entry (R381) with the ring it came from: function 0 is the PF, 1 to 255 the VFs (R372). -/
structure Hdr where
  fn    : Nat
  ring  : Nat
  cid   : BitVec 16
  token : Word
  deriving DecidableEq, Repr

/-- Bytes 0x11 to 0x1F of OPEN_SESSION, shared with CONFIGURE group 0 (R79). -/
structure StreamOps where
  codec     : Nat
  profile   : Nat
  depth     : Nat
  width     : Nat
  height    : Nat
  fps       : Nat
  content   : Nat
  effortMin : Nat
  effortMax : Nat
  idleLimit : Nat
  ltrSlots  : Nat
  flags     : Nat
  deriving DecidableEq, Repr

/-- The operands of OPEN_SESSION (R79); pad is the value of the bytes that must be 0. -/
structure OpenOps where
  kind      : Nat
  stream    : StreamOps
  fenceHint : Nat
  userTag   : Word
  pad       : Nat
  deriving DecidableEq, Repr

/-- CONFIGURE group 1 (R225). -/
structure RateOps where
  mode       : Nat
  latFrames  : Nat
  flags      : Nat
  bucketBits : Nat
  peak       : Nat
  initFull   : Nat
  qpMin      : Nat
  qpMax      : Nat
  forkDq     : Nat
  uThresh    : Nat
  keyMult    : Nat
  dqBand     : Nat
  incPct     : Nat
  lossLo     : Nat
  lossHi     : Nat
  pad        : Nat
  deriving DecidableEq, Repr

/-- CONFIGURE group 2 (R252). -/
structure ResOps where
  ltrPeriod         : Nat
  refreshFrames     : Nat
  keyHold           : Nat
  spectKeyInterval  : Nat
  flags             : Nat
  pad               : Nat
  deriving DecidableEq, Repr

/-- CONFIGURE group 3 (R387). -/
structure HtOps where
  cq       : Nat
  ringSize : Nat
  ringAddr : DWord
  pad      : Nat
  deriving DecidableEq, Repr

/-- SUBMIT_FRAME (R125) after SOURCE; flags bit 0 RID_CHECK, bit 1 RESUBMIT. -/
structure SubmitOps where
  format    : Nat
  colour    : Nat
  orient    : Nat
  srcWidth  : Nat
  srcHeight : Nat
  hints     : Nat
  surfaces  : Nat
  writerRid : Nat
  flags     : Nat
  roiTable  : Word
  compToken : Word
  compX     : Nat
  compY     : Nat
  compMode  : Nat
  hostAddr  : DWord
  hostPitch : Nat
  frame     : Nat
  pad       : Nat
  deriving DecidableEq, Repr

/-- SET_RATE_BOUNDS (R226). -/
structure BoundsOps where
  rateMin   : Nat
  rateMax   : Nat
  rateStart : Nat
  flags     : Nat
  pad       : Nat
  deriving DecidableEq, Repr

/-- KEY_LOAD (R550); slot is used by ERASE only; blob is what a LOAD reads from host memory at ADDR (R551). -/
structure KeyOps where
  kind    : Nat
  ownerFn : Nat
  slot    : Nat
  addr    : DWord
  blob    : List Byte
  pad     : Nat
  deriving DecidableEq, Repr

/-- ATTACH_RECEIVER of KIND 0 (R406). -/
structure AttachOps where
  port         : Nat
  flags        : Nat
  cls          : Nat
  rxq          : Nat
  rxqEn        : Bool
  vlan         : Nat
  localPort    : Nat
  remoteIp     : BitVec 128
  remotePort   : Nat
  nextHop      : BitVec 48
  keySlot      : Nat
  suite        : Nat
  pt           : Nat
  mtu          : Nat
  weight       : Nat
  deadline     : Nat
  paceMax      : Nat
  paceMin      : Nat
  burst        : Nat
  pacePct      : Nat
  policeRate   : Nat
  policeBurst  : Nat
  pad          : Nat
  deriving DecidableEq, Repr

/-- ATTACH_RECEIVER of KIND 1 (R406); POLICE_RATE in b/s, POLICE_BURST in bytes. -/
structure IngressOps where
  port        : Nat
  flags       : Nat
  rxq         : Nat
  rxqEn       : Bool
  vlan        : Nat
  localPort   : Nat
  remoteIp    : BitVec 128
  remotePort  : Nat
  keySlot     : Nat
  suite       : Nat
  policeRate  : Nat
  policeBurst : Nat
  pad         : Nat
  deriving DecidableEq, Repr

/-- ATTACH_RECEIVER of KIND 2 (R406). -/
structure RxqOps where
  queue    : Nat
  entry    : Nat
  entries  : Nat
  ringAddr : DWord
  pad      : Nat
  deriving DecidableEq, Repr

/-- DECODE_SUBMIT OP 0 (R255). -/
structure BindOps where
  use          : Nat
  flags        : Nat
  outCount     : Nat
  flow         : Nat
  outAddr      : DWord
  outPitch     : Nat
  outStride    : Nat
  reorderBells : Nat
  crypt        : Nat
  keySlot      : Nat
  iv           : BitVec 128
  pad          : Nat
  deriving DecidableEq, Repr

/-- DECODE_SUBMIT OP 1 (R257); subs holds the bytes of the subsample table that SUBS_ADDR names. -/
structure DataOps where
  flags     : Nat
  tag       : Word
  addr      : DWord
  len       : Nat
  subsCount : Nat
  subsAddr  : DWord
  subs      : List Byte
  pad       : Nat
  deriving DecidableEq, Repr

/-- A command entry as it is read from the ring, for the checks of R381: the selector byte 0x10 is included because each
chapter refuses a selector outside its values. -/
structure RawEntry where
  fn      : Nat
  ring    : Nat
  cid     : BitVec 16
  opcode  : Nat
  flags   : Nat
  token   : Word
  resv    : Nat
  sel     : Nat
  keyKind : Nat
  keyFn   : Nat
  deriving DecidableEq, Repr

/-- The ECC result of a DRAM line read (R323): what the stored symbols and the code give. -/
inductive Ecc where
  | clean
  | corrected (device : Nat)
  | uncorrectable
  deriving DecidableEq, Repr

/-- What a Boulevard request asks for (R7, R8, R63). activates: the access opens its row; early: the tracker flags the
row before the threshold (R333); raa: the DIMM's own threshold asks for a refresh management command (R332). -/
inductive BlvdOp where
  | dramRead (addr : Nat) (ecc : Ecc) (activates early raa : Bool)
  | dramWrite (addr : Nat) (bytes : List Byte) (ecc : Ecc) (activates early raa : Bool)
  | session   (quarter handle : Nat) (newWork changes : Bool)
  deriving DecidableEq, Repr

/-- A Boulevard request: requester ID, log mark as a 64-bit value, and the operation. -/
structure BlvdReq where
  req  : ReqId
  mark : DWord
  op   : BlvdOp
  deriving DecidableEq, Repr

/-- What the board and the sensors present at a Bell start: Tj inputs in 1/16 degree per sensor (no entry: no new
reading), the THROTTLE_N level, LA's scene cuts, the window of a watch whose parity check fails (R490), and ASPM L1 Enable of the
PF's Link Control register, which configuration space holds (R522). -/
structure BellEnv where
  temps      : List (Nat × BitVec 16)
  throttleN  : Bool
  sceneCuts  : List (Nat × Nat)
  parityFail : Option Nat
  aspmL1     : Bool
  deriving DecidableEq, Repr

/-- A PIX work unit (R101): session, band, branch, tile column, block and stage, on engine e of Quarter q. -/
structure UnitRef where
  quarter : Nat
  engine  : Nat
  handle  : Nat
  frame   : Nat
  band    : Nat
  branch  : Nat
  col     : Nat
  block   : Nat
  stage   : Nat
  deriving DecidableEq, Repr

/-- A tile row of a branch of a band (R100, R170). -/
structure TileRef where
  handle : Nat
  frame  : Nat
  band   : Nat
  branch : Nat
  col    : Nat
  deriving DecidableEq, Repr

/-- What ENT delivers with a coded tile row: its bytes before start codes, OBU headers and emulation prevention (R185), the blocks coded in fallback
mode (R192), and the coder's state that its successors take: the CDFs at its end, or the WPP store (R189, R191). -/
structure TileResult where
  bytes    : List Byte
  fbBlocks : Nat
  state    : List Byte
  deriving DecidableEq, Repr

/-- A 16×16 luma block of a decode band as the parse leaves it (R276, R280): missing, its vector in eighths of a pixel where it was decoded by inter
prediction, and the references, by their place in the picture's list, from which it predicts. -/
structure DecBlock where
  missing : Bool
  vec     : Option (Int × Int)
  refs    : List Nat
  deriving DecidableEq, Repr

/-- What the units deliver with a band's check or commit: the bytes of the frame-level units (band 1) and, for a band coded wholly in fallback mode,
of its tile rows, with their coder states; the band's samples before the in-loop filters and the samples that the commit makes final, in the order of
R169; the compressed form of each LRC unit that is complete, where the compressor found one (R182, R184); and a decode band's blocks in raster
order. -/
structure BandResult where
  frame  : List (List Byte)
  rows   : List (List Byte)
  states : List (List Byte)
  pre    : List Nat
  fin    : List Nat
  lrc    : List (Option (List Byte))
  blocks : List DecBlock
  deriving DecidableEq, Repr

/-- A write through BAR2 (R121). -/
structure AptWrite where
  page  : Nat
  off   : Nat
  rid   : Nat
  bytes : List Byte
  deriving DecidableEq, Repr

/-- A fence doorbell write (R127, R128): ok8 says that it is one naturally aligned 8-byte write. -/
structure Fence where
  fn    : Nat
  index : Nat
  value : DWord
  ok8   : Bool
  rid   : Nat
  deriving DecidableEq, Repr

/-- What a sequence header, SPS or VPS says of its sequence (R268, R269): profile; chroma format (0 monochrome, 1 4:2:0, 2 4:2:2, 3 4:4:4); bit depth
(8, 10, ...); ten times its level (or level_idc) and its tier; the largest picture; the DPB capacity; the side of its superblocks, CTUs or macroblocks;
and whether it uses large-scale tiles, more than one layer, or frame_mbs_only_flag 0. -/
structure SeqInfo where
  profile    : Nat
  chroma     : Nat
  depth      : Nat
  level      : Nat
  high       : Bool
  width      : Nat
  height     : Nat
  dpb        : Nat
  block      : Nat
  largeScale : Bool
  layers     : Nat
  fields     : Bool
  deriving DecidableEq, Repr

/-- A reference that a picture's headers name: the descriptor of the picture that the stream's DPB or slot holds (none: never filled), and the
picture's order where the stream tells it (R277). -/
structure RefInfo where
  desc  : Option Nat
  order : Option Int
  deriving DecidableEq, Repr

/-- The copy of a DATA chunk or the completion of an access unit, with what the unit's headers say: whether the read failed; the kind of its picture
(0 another, 1 an AV1 KEY_FRAME with show_frame 1 or an IDR picture, 2 CRA, 3 BLA, 4 RASL; R267); the sequence it carries (R269); the coded picture's
size and order; its references and which of them primary_ref_frame names (R277, R279); the order of the recovery picture of a recovery point SEI
(R281); whether the output process will output the picture (R270), and the descriptors whose pictures leave the reference set when it has been
decoded. -/
structure AuInfo where
  readFailed : Bool
  unit       : Nat
  seq        : Option SeqInfo
  width      : Nat
  height     : Nat
  order      : Int
  refs       : List RefInfo
  primary    : Option Nat
  recovery   : Option Int
  shows      : Bool
  drops      : List Nat
  deriving DecidableEq, Repr

/-- A decoded picture that the codec's output process outputs (R270, R284): its descriptor, and where a later access unit shows it again, that unit's
tag. -/
structure OutPic where
  desc  : Nat
  tag   : Option Word
  deriving DecidableEq, Repr

/-- What a micro-word meets as it issues: the entropy-assist status and that of the Boulevard loads (R294, condition groups 4 and 6), the stall
cycles before it (R292), and whether local memory or a Boulevard load meets an uncorrectable error (R289, R313). The word itself is in the engine's
store. -/
structure MicroIn where
  eaStatus : BitVec 4
  loadStat : BitVec 2
  stall    : Nat
  lmemUe   : Bool
  blvdErr  : Bool
  deriving DecidableEq, Repr

/-- A pool requester (R347): kind 0 session, 1 VF, 2 role group, 3 NET, 4 TANDEM. -/
structure PoolReq where
  kind  : Nat
  index : Nat
  deriving DecidableEq, Repr

/-- An operation on the pool carries its Boulevard identity for R358. -/
structure PoolId where
  req  : ReqId
  mark : DWord
  deriving DecidableEq, Repr

/-- A DMA descriptor (R389), with what its data movement meets: the bytes read from the source when that is host memory,
and the first differing offset of a COMPARE. -/
structure Desc where
  src      : DWord
  dst      : DWord
  len      : Nat
  lenHigh  : Nat
  flags    : Word
  next     : DWord
  deriving DecidableEq, Repr

/-- The bus errors of R394, numbered as DMA_CH_STATUS.ERR_KIND. -/
inductive BusErr where
  | completerAbort
  | unsupportedRequest
  | completionTimeout
  | poisonedCompletion
  | devicePoison
  deriving DecidableEq, Repr

/-- The RTCP feedback items of one compound packet (R237, R238). -/
inductive Rtcp where
  | report (loss : Nat) (elre : Option Nat)
  | nack (seqs : List Nat)
  | pli
  | fir (seq : Nat)
  | rpsi (ptMatches : Bool) (bits : Nat) (timestamp : Word)
  | other
  deriving DecidableEq, Repr

/-- The payload of a received UDP datagram, as the classifier sees it. -/
inductive RxBody where
  | rtcp (items : List Rtcp)
  | rtp (timestamp : Word) (seq : Nat) (marker : Bool) (formatOk : Bool) (info : AuInfo)
  | data
  deriving DecidableEq, Repr

/-- What a received frame is, step by step of R422. -/
inductive RxKind where
  | macControl
  | foreign
  | arpNdp
  | ptp
  | altHeartbeat (pairBell : BitVec 40) (skew : Int)
  | nonUdp
  | udp (vlan localPort : Nat) (remoteIp : BitVec 128) (remotePort : Nat) (authOk : Bool) (index : Nat) (body : RxBody)
  deriving DecidableEq, Repr

/-- A received Ethernet frame (R422): bytes is the frame with its FCS, and a packet under SRTP or SRTCP as it reads when it has been opened; len is its
length on the wire. -/
structure RxFrame where
  port   : Nat
  fcsOk  : Bool
  len    : Nat
  kind   : RxKind
  bytes  : List Byte
  deriving DecidableEq, Repr

/-- A Tandem message's outcome at the link level: whether format, tag and pair sequence number hold (R456). -/
structure LinkMeta where
  seq       : Word
  wellForm  : Bool
  authOk    : Bool
  seqOk     : Bool
  deriving DecidableEq, Repr

/-- The bucket-model and rate-model state (R202 to R229). full and drain are in 1/256 bit. -/
structure Rate where
  mode     : Nat
  lat      : Nat
  bucket   : Nat
  peak     : Nat
  initFull : Nat
  full     : Nat
  drain    : Nat
  size     : Nat
  restart  : Bool
  rateMin  : Nat
  rateMax  : Nat
  rate     : Nat
  rateNext : Nat
  wKey     : F32
  wInter   : F32
  u        : F32
  m        : F32
  qpMin    : Nat
  qpMax    : Nat
  forkDq   : Nat
  uThresh  : Nat
  keyMult  : Nat
  dqBand   : Nat
  incPct   : Nat
  lossLo   : Nat
  lossHi   : Nat
  laFrames : Nat
  adapt    : Bool
  forkOff  : Bool
  hold     : Option (BitVec 40)
  lastDec  : Option (BitVec 40)
  fbLast   : Option (BitVec 40)
  lastLoss : Nat
  lastE    : Option Nat
  h        : NMap F32
  chi      : NMap F32
  qPrev    : Nat
  target   : Nat
  pq       : Bool
  pqNext   : Bool
  deriving DecidableEq, Repr

/-- The LTR region (R253). slots maps a slot to its descriptor. -/
structure Ltr where
  slots    : NMap Nat
  acked    : List Nat
  pendAck  : List Nat
  loss     : Option Nat
  key      : Bool
  stale    : Bool
  spect    : Bool
  wave     : Bool
  wavePos  : Nat
  waveLen  : Nat
  recover  : Nat
  lastMark : Nat
  lastKey  : Nat
  period   : Nat
  refresh  : Nat
  keyHold  : Nat
  waveOff  : Bool
  spectInt : Nat
  firSeq   : Option Nat
  last     : Option Nat
  rewave   : Bool
  deriving DecidableEq, Repr

/-- The RTP sender of a session (R409, R427). drawn counts nothing else than that the values are those of the session's own draws. -/
structure Rtp where
  ssrc    : Word
  roc     : Word
  seq     : BitVec 16
  tsLast  : Word
  tsNext  : Word
  packets : Nat
  payMax  : Nat
  deriving DecidableEq, Repr

/-- A MIRROR message (R440): the record's identity and the mirrored regions: bucket and rate model (R229), LTR (R253) and SRTP sender (R427), as they
stand after the band. desc is the descriptor of the frame's picture, 16 where it is not retained; main its main reference; slot the slot that it is
marked for. -/
structure MirrorMsg where
  link    : LinkMeta
  handle  : Nat
  frame   : Nat
  band    : Nat
  last    : Bool
  desc    : Nat
  main    : Option Nat
  slot    : Option Nat
  rate    : Rate
  ltr     : Ltr
  rtp     : Rtp
  deriving DecidableEq, Repr

/-- The verdict of a shadow or self-shadow decode against the record (R309, R311, R445). -/
inductive Verdict where
  | agree
  | differ
  | lost
  deriving DecidableEq, Repr

/-- What a second decode agrees with (R311, R445). -/
inductive Second where
  | firstShadow
  | record
  | neither
  deriving DecidableEq, Repr

/-- An ACK's content (R443). -/
inductive AckKind where
  | good
  | lost
  | mismatch
  deriving DecidableEq, Repr

/-- A command forwarded in a CONFIG message (R437). -/
inductive FwdCmd where
  | openShadow (fn : Nat) (token : Word) (stream : StreamOps) (userTag : Word)
  | stream (o : StreamOps)
  | rate (o : RateOps)
  | resilience (o : ResOps)
  | host (h : Hdr) (o : HtOps)
  | bounds (o : BoundsOps)
  | state (target : Nat)
  | phase (p : Nat)
  | close
  | attach (flow : Nat) (o : AttachOps)
  | detach (flow : Nat)
  | key (slot : Nat) (kind : Nat) (len : Nat) (material : BitVec 256) (salt : BitVec 96)
  deriving DecidableEq, Repr

/-- A heartbeat as it arrives (R434, R446). -/
structure HbMsg where
  link     : LinkMeta
  pairBell : BitVec 40
  side     : Nat
  skew     : Int
  deriving DecidableEq, Repr

/-- The notices of R449 and R456. -/
inductive NoticeKind where
  | fault
  | reset
  | unsound
  deriving DecidableEq, Repr

/-- A BIST target's end (R500, R501): its 64-bit result, and for an engine target the Quarter. -/
structure BistRes where
  target  : Nat
  quarter : Nat
  variant : Nat
  result  : BitVec 64
  limit   : Option (BitVec 64)
  skipped : Bool
  deriving DecidableEq, Repr

/-- A Sextant measurement (R511, R512, R514): the two reference checks and the raw result; temp is T of R514 in whole degrees. -/
structure SextMeas where
  clkOk  : Bool
  voltOk : Bool
  gain   : BitVec 16
  offset : BitVec 16
  raw    : Word
  temp   : Int
  deriving DecidableEq, Repr

/-- What stage TRAIN finds (R316 to R318, R335): the population and each channel's result (0 full train passed, 1 restored,
2 failed, 3 restore rejected and full train passed). -/
structure TrainIn where
  uniform    : Bool
  ratedMts   : Nat
  dpc        : Nat
  ranks      : Nat
  dens32     : Bool
  results    : List Nat
  retired    : List (Nat × Nat × Nat × Nat)
  deriving DecidableEq, Repr

/-- The space of a register access (R570): PF BAR0, a VF's BAR0, or a Helm core. -/
inductive Space where
  | pf
  | vf (f : Nat)
  | helm (core : Nat)
  deriving DecidableEq, Repr

/-- A register access. -/
structure Access where
  space  : Space
  write  : Bool
  offset : Nat
  value  : Word
  deriving DecidableEq, Repr

/-- The requester of a guarded write (R567): 0 the PF, 1 to 4 Helm cores 0 to 3. -/
abbrev GuardReq := Nat

/-- The transport of an SPDM request (R547). -/
inductive Spdm where
  | doe
  | i3c
  deriving DecidableEq, Repr

/-- What a receiver of work at R420 needs of the port: how many bytes the MAC takes is not modelled. -/
abbrev Port := Nat

/-- The commands (opcode_table.json, one constructor per row in its order). Each docstring cites the row's rule. -/
inductive Instr where
  /-- The Bell timebase reaches the next Bell start, the Bell number rises, and Bell-start work is done (R11). -/
  | bellStart (env : BellEnv)
  /-- The fence cut 30 µs after the Bell start closes the set of fences eligible for the Bell (R24). -/
  | fenceCut
  /-- The Guard window opens; no task starts and unfinished tasks receive DEADLINE (R22). -/
  | guardOpen
  /-- A channel takes its retraining pause on one rank in the Guard window of its Bell (R337). -/
  | retrainPause (ch : Nat) (drift : Int) (vref : Int)
  /-- The context pager moves up to 512 page-ins and 512 page-outs in the Guard window (R87). -/
  | pagingBurst (bad : List Nat)
  /-- The Tandem heartbeat leaves on the link and, if enabled, on the alternate path (R446). -/
  | heartbeatSend
  /-- Accepted Sextant results and staged coefficient pairs take effect in one step (R511). -/
  | sextantApply
  /-- A rising edge of BELL_IN marks a Bell start or is rejected (R15). -/
  | bellInEdge (offset : Int)
  /-- No edge arrives for an expected Bell start and the device enters holdover (R17). -/
  | bellEdgeMissing
  /-- A write changes the Bell source at the next Bell start or sets a rate change pending (R18). -/
  | schedBellCfgWrite (value : Word)
  /-- A Helm core misses its heartbeat for 16 Bells; units keep the last bounds and a severe event is recorded
  (R10). -/
  | helmHeartbeatTimeout (core : Nat)
  /-- A Boulevard request reaches its target, such as the Square, which routes it to a memory channel (R8). -/
  | boulevardRequest (r : BlvdReq)
  /-- A requester reissues a request whose reply has not arrived within 10 µs, with the same log mark (R64). -/
  | requestRetryTimeout (r : BlvdReq)
  /-- On a Detour reply the requester resolves the placement again and reissues with the retry log mark (R63). -/
  | detourReissue (r : BlvdReq)
  /-- A reply with a log mark below QTR_DRAIN_MARK arrives at a drained Quarter's stop and is absorbed (R65). -/
  | drainedReplySink (quarter : Nat) (mark : DWord)
  /-- The PLAN_LOAD command stages a Street Plan image from host memory (R52). -/
  | planLoad (h : Hdr) (addr : DWord) (len : Nat) (pad : Nat)
  /-- A write of PLAN_CTRL.STAGE copies and checks an image from PLAN_STAGE_ADDR (R52). -/
  | planStage
  /-- A write of PLAN_CTRL.DISCARD empties the staging buffer unless busy (R68). -/
  | planDiscard
  /-- The staging copy ends and the image moves to CHECKING, or fails with 0x0102 (R52). -/
  | planCopyDone (bytes : Option (List Byte))
  /-- The staged image's consistency checks end at READY or FAILED with their code (R51). -/
  | planCheckDone (line : Nat) (ecc : Ecc)
  /-- A guarded write of PLAN_APPLY.APPLY starts applying the staged full plan after a capacity check (R54). -/
  | planApply
  /-- At the Bell start after an accepted apply, the global plan sections take effect (R55). -/
  | planApplyTakeEffect
  /-- When a spare release or rezone of the apply ends, the next Quarter is drained or rezoned, or the apply
  completes (R55). -/
  | applyStepAdvance
  /-- Setting QTR_CTRL.ENABLE brings an OFF Quarter into LOADING (R57). -/
  | qtrEnable (quarter : Nat)
  /-- Clearing QTR_CTRL.ENABLE drains a SERVICE Quarter to OFF or takes a SPARE Quarter to OFF (R58). -/
  | qtrDisable (quarter : Nat)
  /-- A guarded write of QTR_REZONE.GO requests a rezone with the staged partial plan (R58). -/
  | qtrRezoneGo (quarter : Nat)
  /-- A guarded write of QTR_REZONE.RETIRE retires the Quarter (R57). -/
  | qtrRezoneRetire (quarter : Nat)
  /-- The REZONE command with OP 0 acts as QTR_REZONE.GO for the named Quarter (R381). -/
  | rezoneGo (h : Hdr) (quarter : Nat) (pad : Nat)
  /-- The REZONE command with OP 1 acts as QTR_REZONE.RETIRE for the named Quarter (R381). -/
  | rezoneRetire (h : Hdr) (quarter : Nat) (pad : Nat)
  /-- At the Guard window after an accepted drain trigger, the Quarter enters CLOSING (R60). -/
  | quarterClosingEdge (quarter : Nat)
  /-- A CLOSING Quarter with no placed session and no uncommitted task becomes DRAINED and records
  QTR_DRAIN_MARK (R62). -/
  | quarterDrained (quarter : Nat)
  /-- At the Bell start after DRAINED, the Quarter enters its drain target (R57). -/
  | quarterEnterTarget (quarter : Nat)
  /-- A LOADING Quarter's stores are loaded and checked, and it enters TESTING or RETIRED (R307). -/
  | quarterLoadDone (quarter : Nat) (ok : Bool)
  /-- A TESTING Quarter's BIST ends and it enters SPARE, SERVICE or RETIRED (R67). -/
  | quarterBistDone (quarter : Nat) (ok : Bool)
  /-- The OPEN_SESSION command opens an encode or decode session and returns its token, fence index and Quarter
  (R79). -/
  | openSession (h : Hdr) (o : OpenOps)
  /-- CONFIGURE with GROUP 0 changes the session's stream parameters (R80). -/
  | configureStream (h : Hdr) (o : StreamOps) (pad : Nat)
  /-- CONFIGURE with GROUP 1 sets the buffer model and rate tuning for the next boundary (R225). -/
  | configureRate (h : Hdr) (o : RateOps)
  /-- CONFIGURE with GROUP 2 sets the LTR period, refresh and key-frame limits (R252). -/
  | configureResilience (h : Hdr) (o : ResOps)
  /-- CONFIGURE with GROUP 3 sets the payload ring and completion ring of a host-transported session (R387). -/
  | configureHostTransport (h : Hdr) (o : HtOps)
  /-- SUBMIT_FRAME with SOURCE 0 binds the session to surface sets in the Ingest aperture (R123). -/
  | submitFrameAperture (h : Hdr) (o : SubmitOps)
  /-- SUBMIT_FRAME with SOURCE 1 starts a frame read from host memory (R136). -/
  | submitFrameHost (h : Hdr) (o : SubmitOps)
  /-- The PARK command stops new frames and finishes the frame in progress in fallback mode (R75). -/
  | park (h : Hdr) (pad : Nat)
  /-- PARK with COLD set parks the session and frees its references, ending in COLD (R599). -/
  | parkCold (h : Hdr) (pad : Nat)
  /-- The RESUME command schedules a PARKED or COLD session to become ACTIVE (R95). -/
  | resume (h : Hdr) (pad : Nat)
  /-- The CLOSE command stops dispatch of the session from the next Bell (R76). -/
  | close (h : Hdr) (pad : Nat)
  /-- The SET_RATE_BOUNDS command sets RATE_MIN, RATE_MAX, RATE_START and ADAPT (R226). -/
  | setRateBounds (h : Hdr) (o : BoundsOps)
  /-- FEEDBACK of KIND 0 acknowledges a frame (R241). -/
  | feedbackAck (h : Hdr) (frame : Nat) (pad : Nat)
  /-- FEEDBACK of KIND 1 reports a lost frame (R241). -/
  | feedbackLoss (h : Hdr) (frame : Nat) (pad : Nat)
  /-- FEEDBACK of KIND 2 requests a key frame (R241). -/
  | feedbackKeyRequest (h : Hdr) (pad : Nat)
  /-- FEEDBACK of KIND 3 delivers a loss fraction and rate estimate (R241). -/
  | feedbackRateReport (h : Hdr) (loss : Nat) (est : Nat) (pad : Nat)
  /-- KEY_LOAD with OP 0 unwraps a key blob into a key store slot (R550). -/
  | keyLoad (h : Hdr) (o : KeyOps)
  /-- KEY_LOAD with OP 1 frees a key store slot (R552). -/
  | keyErase (h : Hdr) (o : KeyOps)
  /-- ATTACH_RECEIVER of KIND 0 attaches a RECEIVER flow to an encode session (R406). -/
  | attachReceiver (h : Hdr) (o : AttachOps)
  /-- ATTACH_RECEIVER of KIND 1 creates an INGRESS flow with its policer (R406). -/
  | attachIngress (h : Hdr) (o : IngressOps)
  /-- ATTACH_RECEIVER of KIND 2 binds a host receive queue ring (R406). -/
  | bindRxQueue (h : Hdr) (o : RxqOps)
  /-- DETACH_RECEIVER detaches a flow and flushes its packet queue (R408). -/
  | detachReceiver (h : Hdr) (flow : Nat) (pad : Nat)
  /-- DETACH_RECEIVER with FLOW 0xFFFF_FFFF unbinds a host receive queue (R408). -/
  | unbindRxQueue (h : Hdr) (queue : Nat) (pad : Nat)
  /-- DECODE_SUBMIT with OP 0 binds a decode session to its use, outputs and keys (R255). -/
  | decodeBind (h : Hdr) (o : BindOps)
  /-- DECODE_SUBMIT with OP 1 submits a chunk of an access unit for copying (R257). -/
  | decodeData (h : Hdr) (o : DataOps)
  /-- DECODE_SUBMIT with OP 2 returns an output buffer to the device (R259). -/
  | decodeRelease (h : Hdr) (index : Nat) (pad : Nat)
  /-- DECODE_SUBMIT with OP 3 decodes and outputs everything held and empties the DPB (R259). -/
  | decodeFlush (h : Hdr) (pad : Nat)
  /-- SNAPSHOT with SCOPE 0 copies a session's counters to host memory (R399). -/
  | snapshotSession (h : Hdr) (addr : DWord) (pad : Nat)
  /-- SNAPSHOT with SCOPE 1 copies the function's counters to host memory (R399). -/
  | snapshotFunction (h : Hdr) (addr : DWord) (pad : Nat)
  /-- A command entry with an unknown opcode, bad header or missing authority is refused (R381). -/
  | commandEntryInvalid (e : RawEntry)
  /-- At the Bell start after the parked frame commits, the session enters PARKED or COLD and the completion is
  posted (R75). -/
  | parkComplete (handle : Nat)
  /-- At the next Bell start the session's receivers, buffers and fence index are released and it enters CLOSED
  (R76). -/
  | closeComplete (handle : Nat)
  /-- The session becomes ACTIVE at the Bell start after its page-in, rebinds its fence index and posts the
  completion (R95). -/
  | resumeComplete (handle : Nat)
  /-- IDLE_LIMIT frame intervals pass without a new frame and the session becomes IDLE (R77). -/
  | idleLimitReached (handle : Nat)
  /-- A write of SESS_CTRL.ENABLE is checked and applied or refused (R97). -/
  | sessCtrlWrite (value : Word)
  /-- A watermark write is checked against its pair and the class count (R97). -/
  | sessDepotWmWrite (which : Nat) (value : Word)
  /-- A write to SESS_CTX_SEL clears DONE and starts copying the selected record (R98). -/
  | sessCtxSelWrite (value : Word)
  /-- The record copy completes and DONE reads 1 (R98). -/
  | sessCtxCopyDone
  /-- Helm lowers a session's effort when its in-cadence fallback rate reaches FALLBACK_PERMIL (R117). -/
  | effortLower (handle : Nat)
  /-- After RAISE_BELLS Bells without in-cadence fallback, Helm tries to raise the effort (R117). -/
  | effortRaise (handle : Nat)
  /-- Once a frame has started and the previous frame's last band has committed, the boundary applies changes
  and drains the bucket (R203). -/
  | bucketBoundary (handle : Nat)
  /-- A PIX work unit starts on a free engine once its wavefront dependencies have committed (R101). -/
  | workUnitStart (u : UnitRef)
  /-- ENT starts a tile row once its PIX units and coder predecessor are done and no input is speculative (R190). -/
  | tileRowEntropyStart (t : TileRef) (engine : Nat)
  /-- ENT finishes coding a tile row branch (R102). -/
  | tileRowCoded (t : TileRef) (res : TileResult)
  /-- Once every branch is coded and the previous band has committed, the bucket-model unit checks the band (R209). -/
  | bandCheck (handle : Nat) (res : BandResult)
  /-- A band recoded in fallback mode commits without a further check (R210). -/
  | fallbackBandCommit (handle : Nat) (res : BandResult)
  /-- The packetizer builds RTP packets from a committed-band record and queues them per receiver (R411). -/
  | packetizeBand (handle : Nat) (pkts : List Nat)
  /-- After the payload is written to the payload ring and read back, a BAND_DONE notice is posted (R387). -/
  | bandDone (handle : Nat)
  /-- After the frame's last band has committed and, if paired, been acknowledged, FRAME_DONE is posted (R386). -/
  | frameDone (handle : Nat)
  /-- A posted write through BAR2 lands in a mapped surface buffer (R121). -/
  | apertureWrite (w : AptWrite)
  /-- A read through BAR2 returns zeros and is counted (R122). -/
  | apertureRead (page : Nat)
  /-- A fence write lands at a fence doorbell and is checked and accepted or rejected (R128). -/
  | rowFence (f : Fence)
  /-- At the cut of the stall limit or next frame's first fence, an ingesting frame is truncated (R134). -/
  | frameTruncate (handle : Nat)
  /-- A host-memory frame read reaches a band's required rows, making the band eligible (R136). -/
  | hostRowsRead (handle : Nat) (rows : Nat) (ok : Bool) (pieces : List (DWord × List Byte))
  /-- A write of INGEST_CTRL.ENABLE is checked for 0x0D0F (R147). -/
  | ingestCtrlWrite (value : Word) (barOk : Bool)
  /-- A write of RC_CTRL.ENABLE is checked for 0x0308 and 0x0309 (R231). -/
  | rcCtrlWrite (value : Word)
  /-- A write to RC_FORK_CFG, RC_ADAPT_CFG or RC_MODEL_CFG is checked whole (R231). -/
  | rcDefaultsWrite (which : Nat) (value : Word)
  /-- REORDER_BELLS pass and a peer access unit is completed with its gaps lost (R261). -/
  | auReorderTimeout (handle : Nat) (info : AuInfo)
  /-- A DATA chunk's copy ends and its completion is posted (R258). -/
  | dataCopyDone (handle : Nat) (info : AuInfo) (bytes : List Byte)
  /-- A decoded picture is written to an output buffer, read back and its record posted (R284). -/
  | decodeOutput (handle : Nat) (pic : OutPic)
  /-- The zero fill of a protected extent ends and the extent returns to its pool (R266). -/
  | protectedFillDone (buf : Nat)
  /-- A write of DEC_CTRL.ENABLE is checked for 0x0C12 and 0x0C0F (R287). -/
  | decCtrlWrite (value : Word)
  /-- An engine issues a micro-word and its nano-word operations (R291). -/
  | microwordIssue (engine : Nat) (mw : MicroIn)
  /-- A mark word completes; the engine publishes its staging or takes a pending event (R297). -/
  | markWordComplete (engine : Nat)
  /-- The mark watchdog reaches 8,192 cycles and the engine faults (R298). -/
  | markWatchdog (engine : Nat)
  /-- A self-shadow decode ends and its values are compared, with a second decode on mismatch (R311). -/
  | selfShadowCheck (handle : Nat) (first : Verdict) (second : Second)
  /-- A sample not finished 2 × F Bells after the last commit is abandoned (R310). -/
  | selfShadowAbandon (handle : Nat)
  /-- A DIMM signals a CA parity error and the controller retries the commands (R326). -/
  | caParityError (ch : Nat) (failed : Nat)
  /-- The spare copy ends, the spare takes the rank's place and 0x0E0C is reported (R330). -/
  | rankSpareCopyDone (ch : Nat)
  /-- A refresh interval elapses and same-bank refreshes are issued (R331). -/
  | refreshInterval (ch : Nat)
  /-- Every 1 ms the controller reads the DIMM temperature sensors (R331). -/
  | dimmTempPoll (ch : Nat) (hot : Bool)
  /-- A 32 ms activation tracker window ends and every tracker clears (R333). -/
  | trackerWindowReset (ch : Nat)
  /-- 64 refresh intervals pass after a flag and the requester's throttle ends (R333). -/
  | throttleExpiry (ch : Nat) (req : ReqId)
  /-- Zero initialisation of usable capacity ends (R336). -/
  | dramInitDone
  /-- The patrol scrubber reads the next line and reacts to its ECC status (R340). -/
  | scrubRead (ecc : Ecc)
  /-- A guarded write sets the address-map order, refused once ENABLE is 1 (R321). -/
  | memcMapWrite (value : Word)
  /-- A write of MEMC_CTRL.ENABLE is checked for 0x0E0E and 0x0E06 (R343). -/
  | memcCtrlWrite (value : Word)
  /-- An allocation request takes the longest-free buffer of a class within quotas (R349). -/
  | allocate (id : PoolId) (who : PoolReq) (size : Nat) (promote : Bool)
  /-- A claim adds a hold on a current buffer and returns a token (R354). -/
  | claim (id : PoolId) (who : PoolReq) (buf : Word)
  /-- A release drops a hold or claim, or is ignored or refused (R355). -/
  | release (id : PoolId) (who : PoolReq) (buf : Word) (token : Nat)
  /-- At the first Bell start with no buffer allocated, a lowered pool is laid out again (R351). -/
  | poolRelayout
  /-- A producer writes a beat; the item becomes visible at its last beat (R360). -/
  | queueBeatWrite (queue : Nat) (producer : PoolReq) (start : Bool) (beat : BitVec 256)
  /-- The reader takes beats of the earliest visible highest-priority item (R362). -/
  | queueRead (queue : Nat)
  /-- Room appears and a stalled producer's write completes (R363). -/
  | queueStallRelease (queue : Nat)
  /-- A producer reserves beats, granted whole or refused (R363). -/
  | queueReserve (queue : Nat) (producer : PoolReq) (beats : Nat)
  /-- A write of QUEUE_FLUSH.GO cuts the selected queue in its flush mode (R364). -/
  | queueFlush (value : Word)
  /-- A flush ends and discarded items' claims are released (R365). -/
  | flushEnd (queue : Nat)
  /-- A write of POOL_CTRL.ENABLE is checked for 0x050B and 0x050D (R369). -/
  | poolCtrlWrite (value : Word)
  /-- A function quota write above COUNT is refused (R369). -/
  | poolFnQuotaWrite (fn : Nat) (cls : Nat) (value : Word)
  /-- A write of QUEUE_CTRL.ENABLE is checked for 0x0607 (R370). -/
  | queueCtrlWrite (value : Word)
  /-- A write of QUEUE_SEL outside R359 is refused (R370). -/
  | queueSelWrite (value : Word)
  /-- VF Enable is set and the VFs start with reset routing, free lists and zero statistics (R464). -/
  | vfEnable (count : Nat)
  /-- VF Enable is cleared; VF sessions close and rings, channels and interrupts are reset (R375). -/
  | vfDisable
  /-- A write of CMDQ_CTRL.ENABLE is checked and resets the ring indices (R378). -/
  | cmdqCtrlWrite (fn : Nat) (ring : Nat) (value : Word)
  /-- A write of CQ_CTRL.ENABLE is checked and resets the ring indices (R378). -/
  | cqCtrlWrite (fn : Nat) (ring : Nat) (value : Word)
  /-- A command ring tail doorbell is accepted or refused (R379). -/
  | cmdqTailDb (fn : Nat) (ring : Nat) (value : Word)
  /-- The device reads command entries of an enabled ring and raises CMDQ_HEAD (R380). -/
  | commandFetch (fn : Nat) (ring : Nat) (count : Nat) (fence : Bool)
  /-- A waiting completion or notice is written when the completion ring has room (R385). -/
  | completionPost (fn : Nat) (ring : Nat) (ok : Bool)
  /-- A completion ring consumer doorbell is accepted or refused (R384). -/
  | cqHeadDb (fn : Nat) (ring : Nat) (value : Word)
  /-- Setting DMA_CH_CTRL.ENABLE checks the chain and fetches the first descriptor (R391). -/
  | dmaChEnable (ch : Nat)
  /-- Clearing DMA_CH_CTRL.ENABLE stops the channel at once (R395). -/
  | dmaChDisable (ch : Nat)
  /-- A doorbell makes a waiting channel re-read its tail descriptor's NEXT (R392). -/
  | dmaChDb (ch : Nat)
  /-- A fetched descriptor is checked and started, or the channel halts (R390). -/
  | descriptorFetched (ch : Nat) (d : Desc)
  /-- A descriptor's data and read-back complete and DONE_COUNT rises (R393). -/
  | descriptorComplete (ch : Nat) (data : List Byte) (diff : Option Nat)
  /-- After a bus error the retry delay expires and the transfer is retried or the channel halts (R394). -/
  | dmaRetry (ch : Nat)
  /-- A write of DMA_CH_OWNER is checked for 0x040F and 0x0416 (R403). -/
  | dmaChOwnerWrite (fn : Nat) (ch : Nat) (value : Word)
  /-- An Ethernet port's link goes up or down (R404). -/
  | linkStateChange (port : Nat) (up : Bool)
  /-- A received Ethernet frame is classified, policed and dispatched (R422). -/
  | rxFrame (f : RxFrame)
  /-- Every 8 µs each flow's shaper credit is refilled up to BURST (R416). -/
  | shaperRefill
  /-- Every 8 µs each policer's credit is refilled (R423). -/
  | policerRefill
  /-- A port's MAC can take a frame and the scheduler sends the chosen packet (R420). -/
  | portTxSelect (port : Nat)
  /-- Every SR_INTERVAL an SRTCP sender report goes to each active RECEIVER flow (R415). -/
  | senderReportTimer
  /-- 20 µs after a raise, a host receive queue raises again for entries written meanwhile (R425). -/
  | rxqRaiseHoldoff (fn : Nat) (queue : Nat)
  /-- At the Bell start after the flow's flush ends, the index is freed and the completion posted (R408). -/
  | detachComplete (flow : Nat)
  /-- A write of NET_CTRL.ENABLE is checked for 0x070D and 0x070C (R429). -/
  | netCtrlWrite (value : Word)
  /-- A port MODE or address change is refused while flows are attached (R429). -/
  | netPortCfgWrite (port : Nat) (value : Word)
  /-- A write of NET_PTP_LATCH.LATCH copies both PTP clocks into their latch registers (R587). -/
  | netPtpLatch (value : Word)
  /-- A PPS_IN rising edge latches both ports' PTP clocks (R587). -/
  | ppsInEdge (port : Nat)
  /-- PPS_OUT rises at each whole second of the selected PTP clock (R587). -/
  | ppsOutSecond (port : Nat)
  /-- A write of TANDEM_CTRL.ENABLE is checked and starts or stops pairing (R432). -/
  | tandemCtrlWrite (value : Word)
  /-- A guarded write of TANDEM_ROLE.SIDE, refused while ENABLE is 1 (R431). -/
  | tandemRoleWrite (value : Word)
  /-- The link trains and HELLO is exchanged, moving the pair to AUTH (R432). -/
  | tandemHello (lanes : Nat)
  /-- Mutual authentication and link-key agreement ends, entering PAIRED or failing (R433). -/
  | tandemAuth (ok : Bool) (partnerBell : BitVec 40)
  /-- 720 Bells after a failed AUTH, pairing is retried (R432). -/
  | authRetry
  /-- A message unconfirmed within 10 µs is sent again, up to 4 times (R433). -/
  | linkRetransmit (seq : Word)
  /-- A MIRROR lands on the partner and its shadow decode band is scheduled (R442). -/
  | mirror (m : MirrorMsg)
  /-- The shadow decode of a band ends and an ACK with GOOD, LOST or MISMATCH is sent (R443). -/
  | shadowDecodeDone (handle : Nat) (v : Verdict)
  /-- The second shadow decode after a mismatch settles which Quarter retires (R445). -/
  | shadowRecheckDone (handle : Nat) (v : Second)
  /-- An ACK arrives at the primary, releasing the TANDEM claim on the payload (R443). -/
  | tandemAck (link : LinkMeta) (handle : Nat) (frame : Nat) (kind : AckKind)
  /-- No ACK by the second Bell after the commit Bell and the shadow is lost (R443). -/
  | ackTimeout (handle : Nat)
  /-- A forwarded command arrives in a CONFIG message and the partner checks and applies it (R437). -/
  | tandemConfig (link : LinkMeta) (handle : Nat) (cmd : FwdCmd)
  /-- The partner's reply arrives and the primary applies or refuses the command (R437). -/
  | tandemConfigReply (link : LinkMeta) (handle : Nat) (code : Code)
  /-- A NAK from the partner arrives and is counted (R456). -/
  | tandemNak (link : LinkMeta) (code : Code)
  /-- A partner heartbeat arrives by the link and its Bell number and skew are checked (R434). -/
  | heartbeat (m : HbMsg)
  /-- A heartbeat is missed by the next Bell start; two in a row lose the partner or the link (R448). -/
  | heartbeatMissed
  /-- A FAULT, RESET or UNSOUND notice arrives from the partner (R449). -/
  | tandemNotice (kind : NoticeKind)
  /-- At the takeover Bell start the device makes every shadow primary (R451). -/
  | takeover
  /-- At a frame start the primary starts copying a session's record and pictures to re-establish a shadow (R457). -/
  | shadowSync (handle : Nat)
  /-- The shadow copy lands and the shadow starts decoding mirrored frames (R457). -/
  | syncDone
  /-- Helm hands the primary role of a PARKED paired session to the partner (R458). -/
  | handover (handle : Nat)
  /-- An armed target with a claimable source gets one MSI-X write or core interrupt (R467). -/
  | irqMessage (target : Nat)
  /-- A read of IRQ_CLAIM claims the highest-priority pending source and arms the target (R468). -/
  | irqClaim (target : Nat)
  /-- A write of IRQ_COMPLETE clears the source's in-service bit (R470). -/
  | irqComplete (target : Nat) (value : Word)
  /-- A write of IRQ_PEND_SET sets a source pending (R472). -/
  | irqPendSet (value : Word)
  /-- A write of a source's EN, PRIO and TARGET is checked for authority (R465). -/
  | irqSrcCfgWrite (id : Nat) (value : Word)
  /-- A read of FN_IRQ_CLAIM claims for the VF's vector (R482). -/
  | fnIrqClaim (fn : Nat) (vec : Nat)
  /-- A write of FN_IRQ_COMPLETE completes for the VF's vector (R482). -/
  | fnIrqComplete (fn : Nat) (vec : Nat) (value : Word)
  /-- A write of FN_IRQ_PEND_SET sets a function source pending (R482). -/
  | fnIrqPendSet (fn : Nat) (value : Word)
  /-- A write of a function source's routing through the function window (R482). -/
  | fnIrqSrcCfgWrite (fn : Nat) (src : Nat) (value : Word)
  /-- A write of an owned DMA channel's routing through the function window (R482). -/
  | fnIrqDmaCfgWrite (fn : Nat) (src : Nat) (value : Word)
  /-- A change of a vector's Mask or Function Mask holds or releases its messages (R473). -/
  | msixMaskWrite (fn : Nat) (vec : Nat) (mask : Bool)
  /-- A write of EVQ_CTRL.ENABLE is checked, or clearing discards waiting records (R475). -/
  | evqCtrlWrite (fn : Nat) (value : Word)
  /-- An event queue consumer doorbell is accepted or refused (R475). -/
  | evqHeadDb (fn : Nat) (value : Word)
  /-- A waiting event record is written when the queue has room (R479). -/
  | eventRecordPost (fn : Nat) (ok : Bool)
  /-- A fault event reaches a watch and is counted, classified and recorded (R484). -/
  | watchEvent (watch : Nat) (kind : Nat) (code : Code) (inj : Bool) (place : Nat)
  /-- The ERR_N pulse time elapses and the pin follows DRIVE (R494). -/
  | errPulseEnd
  /-- A W1C write to WATCH_STATUS clears SEVERE or SEEN bits (R485). -/
  | watchStatusWrite (watch : Nat) (value : Word)
  /-- A write of WINDOW or LIMIT applies at the next event of each kind (R487). -/
  | watchCfgWrite (watch : Nat) (value : Word)
  /-- A guarded write of WATCH_INJECT arms or disarms fault injection (R496). -/
  | watchInject (watch : Nat) (value : Word)
  /-- A write of DEV_ERR_PIN.DRIVE drives ERR_N outside pulses when paired (R494). -/
  | devErrPinWrite (value : Word)
  /-- A BIST target ends and passes or fails against its stored value (R501). -/
  | bistTargetDone (r : BistRes)
  /-- Every EVERY Bells Sextant checks references and measures one entry (R511). -/
  | sextantMeasure (m : SextMeas)
  /-- A write of SEXT_COEF_GAIN holds a GAIN for a later OFFSET write (R513). -/
  | sextCoefGainWrite (value : Word)
  /-- A write of SEXT_COEF_OFFSET stages the pair against the absolute limits (R513). -/
  | sextCoefOffsetWrite (value : Word)
  /-- A write of SEXT_CTRL, with MODE refused while ENABLE is 1 (R514). -/
  | sextCtrlWrite (value : Word)
  /-- A write of BIST_CTRL.ENABLE is checked for 0x0B30 (R516). -/
  | bistCtrlWrite (value : Word)
  /-- A gating group idle for IDLE_US with no ready unit is power-gated (R520). -/
  | engineGate (engine : Nat)
  /-- A gated group is ungated when work needs it and returns after 1 µs (R519). -/
  | engineUngate (engine : Nat)
  /-- The device enters or leaves Hove-to within a Bell as its condition holds or ends (R524). -/
  | hoveToEnter (enter : Bool)
  /-- An exit to Underway completes within the state's exit latency (R525). -/
  | powerExitDone
  /-- A write of DEV_LATENCY_TOL below the current exit latency starts an exit (R526). -/
  | devLatencyTolWrite (value : Word)
  /-- A sensor reaches 115 °C; THERMTRIP_N falls and clocks stop (R531). -/
  | thermtrip (sensor : Nat)
  /-- PERST_N low for 1 µs starts a full device reset (R578). -/
  | perstFall
  /-- PERST_N rises; straps are sampled and the boot ROM starts (R540). -/
  | perstRise (straps : Nat)
  /-- Stage ROM ends with the boot firmware verified, or boot fails (R541). -/
  | bootRomDone (misread : List (Nat × Byte))
  /-- Stage LOAD ends with the microcode library, Helm firmware and default plan verified (R541). -/
  | bootLoadDone (misread : List (Nat × Byte))
  /-- Stage TRAIN ends with the DRAM trained or restored (R541). -/
  | bootTrainDone (env : TrainIn)
  /-- Stage INIT ends and the first plan's Quarters pass LOADING and TESTING to readiness (R543). -/
  | bootInitDone (misread : List (Nat × Byte))
  /-- A guarded write of DEV_RESET.GO starts a full device reset (R554). -/
  | devReset
  /-- The I3C TELEMETRY message returns Tj, power state, DEV_STATE and watch maps (R553). -/
  | i3cTelemetry
  /-- The I3C RESET_ARM message returns a nonce (R553). -/
  | i3cResetArm
  /-- The I3C RESET_GO message with the nonce within 1 s resets the device (R553). -/
  | i3cResetGo (nonce : DWord)
  /-- The SPDM GET_VERSION request is answered (R547). -/
  | getVersion (via : Spdm)
  /-- The SPDM GET_CAPABILITIES request is answered (R547). -/
  | getCapabilities (via : Spdm)
  /-- The SPDM NEGOTIATE_ALGORITHMS request is answered (R547). -/
  | negotiateAlgorithms (via : Spdm)
  /-- The SPDM GET_DIGESTS request is answered (R547). -/
  | getDigests (via : Spdm)
  /-- The SPDM GET_CERTIFICATE request returns the slot 0 chain (R547). -/
  | getCertificate (via : Spdm)
  /-- The SPDM CHALLENGE request is answered with a signature (R547). -/
  | challenge (via : Spdm)
  /-- The SPDM GET_MEASUREMENTS request returns the measurement blocks (R547). -/
  | getMeasurements (via : Spdm)
  /-- A guarded write of SEC_FUSE_SVN raises an SVN counter (R536). -/
  | secFuseSvn (value : Word)
  /-- SEC_FUSE_OWNER with OP 1 burns an owner key hash into a slot (R537). -/
  | fuseOwnerProgram (slot : Nat)
  /-- SEC_FUSE_OWNER with OP 2 revokes an owner key slot (R537). -/
  | fuseOwnerRevoke (slot : Nat)
  /-- A fuse burn ends and FUSE_BUSY clears (R537). -/
  | fuseBurnDone
  /-- SEC_FLASH_CTRL with OP 1 erases a 64 KiB sector (R555). -/
  | flashErase
  /-- SEC_FLASH_CTRL with OP 2 programs flash from host memory (R555). -/
  | flashProgram (data : Option (List Byte))
  /-- A flash operation ends and is verified (R555). -/
  | flashOpDone (ok : Bool)
  /-- A write to a guarded register becomes the requester's pending write (R567). -/
  | guardedFirstWrite (req : Nat) (off : Nat) (value : Word)
  /-- A Guard-window write completes or rejects the pending guarded write (R567). -/
  | guardWindowWrite (req : Nat) (off : Nat) (value : Word)
  /-- 64 register-clock cycles pass without a Guard-window write and the pending write is rejected (R568). -/
  | guardTimeout (req : Nat)
  /-- An access of wrong size or alignment reads 0 or is ignored and logged (R558). -/
  | accessSizeError (a : Access)
  /-- An access to an unimplemented address reads 0 or is ignored and logged (R563). -/
  | unimplementedAccess (a : Access)
  /-- A write to a register with no row of its own takes effect under its field's access type and range (R560). -/
  | registerWrite (a : Access)
  /-- In STANDALONE the Tandem link trains again and the pair state returns to LINKING (R432). -/
  | tandemLinkTrainsAgain
  /-- A DMA or device-initiated host read returns Completer Abort, Unsupported Request or poison, or meets
  Completion Timeout, counting a retry and starting its backoff delay (R394). -/
  | dmaBusError (ch : Nat) (err : BusErr)
  /-- VDD_IO and VAA are removed, clearing the THERMTRIP_N latch, the only way out of the thermal-trip state
  (R531). -/
  | powerCycle (straps : Nat)
  deriving DecidableEq, Repr

end Sys2Proof
end

