-- ==== Sys2Proof/WellFormed.lean ====
section
/-! DEFINITION. The checks that an operand lies in the range that the spec gives its number or field. A command with an operand outside
them is no command of the part; the meanings are total and answer such a command too. -/

namespace Sys2Proof

/-- A function number (R372). -/
def fnOk (f : Nat) : Bool := decide (f ≤ 255)

/-- A command or completion ring of a function (R377). -/
def ringOk (r : Nat) : Bool := decide (r < 8)

/-- A session handle (R71). -/
def handleOk (h : Nat) : Bool := decide (h < 200000)

/-- A Quarter (R1). -/
def quarterOk (q : Nat) : Bool := decide (q < 16)

/-- A global engine number (chapter 0). -/
def engineOk (e : Nat) : Bool := decide (e < 512)

/-- A memory channel (R1). -/
def chanOk (c : Nat) : Bool := decide (c < 12)

/-- A DMA channel (R388). -/
def dmaOk (c : Nat) : Bool := decide (c < 64)

/-- An Ethernet port (R1). -/
def portOk (p : Nat) : Bool := decide (p < 2)

/-- A watch (R483). -/
def watchOk (w : Nat) : Bool := decide (w < 48)

/-- A fault kind (R484). -/
def kindOk (k : Nat) : Bool := decide (k < 16)

/-- A Helm core. -/
def coreOk (c : Nat) : Bool := decide (c < 4)

/-- A thermal sensor (R528). -/
def sensorOk (n : Nat) : Bool := decide (n < 32)

/-- An interrupt target (R464). -/
def targetOk (t : Nat) : Bool := decide (t ≤ 0x803) || (decide (0x1040 ≤ t) && decide (t ≤ 0x4FFF))

/-- A vector of a function (R1). -/
def vecOk (f v : Nat) : Bool := decide (v < (if f = 0 then 2048 else 64))

/-- A pool class (R345). -/
def clsOk (c : Nat) : Bool := decide (c ≤ 4)

/-- A requester of guarded writes (R567). -/
def reqOk (r : Nat) : Bool := decide (r ≤ 4)

/-- The levels of the strap pins (R577). -/
def strapsOk (s : Nat) : Bool := decide (s < 2 ^ 16)

/-- A queue ID (R359). -/
def queueOk (q : Nat) : Bool := decide (q ≤ 0x11FFF)

/-- A number fits its field. -/
def fits (n width : Nat) : Bool := decide (n < 2 ^ width)

/-- A pool requester (R347). -/
def PoolReq.wf (p : PoolReq) : Bool :=
  match p.kind with
  | 0 => handleOk p.index
  | 1 => fnOk p.index
  | 2 => fits p.index 8
  | 3 => decide (p.index = 0)
  | 4 => decide (p.index = 0)
  | _ => false

/-- A header of a command entry. -/
def Hdr.wf (h : Hdr) : Bool := fnOk h.fn && ringOk h.ring

/-- The stream parameters (R79). -/
def StreamOps.wf (o : StreamOps) : Bool :=
  fits o.codec 8 && fits o.profile 8 && fits o.depth 8 && fits o.width 16 && fits o.height 16 && fits o.fps 8 && fits o.content 8 &&
  fits o.effortMin 8 && fits o.effortMax 8 && fits o.idleLimit 16 && fits o.ltrSlots 8 && fits o.flags 8

/-- The operands of OPEN_SESSION (R79). -/
def OpenOps.wf (o : OpenOps) : Bool := fits o.kind 8 && o.stream.wf && fits o.fenceHint 16

/-- The operands of SET_RATE_BOUNDS (R226). -/
def BoundsOps.wf (o : BoundsOps) : Bool := fits o.rateMin 32 && fits o.rateMax 32 && fits o.rateStart 32 && fits o.flags 8

/-- CONFIGURE group 1 (R225). -/
def RateOps.wf (o : RateOps) : Bool :=
  fits o.mode 8 && fits o.latFrames 8 && fits o.flags 8 && fits o.bucketBits 32 && fits o.peak 32 && fits o.initFull 32 && fits o.qpMin 8 &&
  fits o.qpMax 8 && fits o.forkDq 8 && fits o.uThresh 8 && fits o.keyMult 8 && fits o.dqBand 8 && fits o.incPct 8 && fits o.lossLo 8 &&
  fits o.lossHi 8

/-- CONFIGURE group 2 (R252). -/
def ResOps.wf (o : ResOps) : Bool :=
  fits o.ltrPeriod 8 && fits o.refreshFrames 8 && fits o.keyHold 8 && fits o.spectKeyInterval 16 && fits o.flags 8

/-- CONFIGURE group 3 (R387). -/
def HtOps.wf (o : HtOps) : Bool := fits o.cq 8 && fits o.ringSize 32

/-- SUBMIT_FRAME (R125). -/
def SubmitOps.wf (o : SubmitOps) : Bool :=
  fits o.format 8 && fits o.colour 8 && fits o.orient 8 && fits o.srcWidth 16 && fits o.srcHeight 16 && fits o.hints 8 && fits o.surfaces 8 &&
  fits o.writerRid 16 && fits o.flags 8 && fits o.compX 16 && fits o.compY 16 && fits o.compMode 8 && fits o.hostPitch 32 && fits o.frame 32

/-- A work unit (R101): its engine is one of its Quarter's. -/
def UnitRef.wf (u : UnitRef) : Bool :=
  quarterOk u.quarter && decide (u.engine / 32 = u.quarter) && handleOk u.handle && decide (u.branch < 2)

/-- A tile row (R100). -/
def TileRef.wf (t : TileRef) : Bool := handleOk t.handle && decide (t.branch < 2)

/-- A write through BAR2 (R121). -/
def AptWrite.wf (w : AptWrite) : Bool := fits w.rid 16 && decide (w.off + w.bytes.length ≤ 4096)

/-- A fence write (R127). -/
def Fence.wf (f : Fence) : Bool := fnOk f.fn && decide (f.index < 4096) && fits f.rid 16

/-- A register access (R558, R570). -/
def Access.wf (a : Access) : Bool :=
  match a.space with
  | .pf => fits a.offset 25
  | .vf f => decide (1 ≤ f) && fnOk f && fits a.offset 25
  | .helm c => coreOk c && fits a.offset 25

/-- A requester ID that is not a reserved one (R7). -/
def requesterOk (r : ReqId) : Bool := decide (r.toNat ≤ 0x21A) || (decide (0x240 ≤ r.toNat) && decide (r.toNat ≤ 0x27F))

/-- A Boulevard request: its requester ID is not a reserved one (R7). -/
def BlvdReq.wf (r : BlvdReq) : Bool := requesterOk r.req

/-- The Boulevard identity of a pool operation (R7, R358). -/
def PoolId.wf (p : PoolId) : Bool := requesterOk p.req

/-- A command that is one: its operands lie in the ranges that their fields and numbers have. -/
def Instr.wf (i : Instr) : Bool :=
  match i with
  | .bellStart _ => true
  | .fenceCut => true
  | .guardOpen => true
  | .retrainPause ch _ _ => chanOk ch
  | .pagingBurst _ => true
  | .heartbeatSend => true
  | .sextantApply => true
  | .bellInEdge _ => true
  | .bellEdgeMissing => true
  | .schedBellCfgWrite _ => true
  | .helmHeartbeatTimeout core => coreOk core
  | .boulevardRequest r => r.wf
  | .requestRetryTimeout r => r.wf
  | .detourReissue r => r.wf
  | .drainedReplySink quarter _ => quarterOk quarter
  | .planLoad h _ _ _ => h.wf
  | .planStage => true
  | .planDiscard => true
  | .planCopyDone _ => true
  | .planCheckDone line _ => fits line 16
  | .planApply => true
  | .planApplyTakeEffect => true
  | .applyStepAdvance => true
  | .qtrEnable quarter => quarterOk quarter
  | .qtrDisable quarter => quarterOk quarter
  | .qtrRezoneGo quarter => quarterOk quarter
  | .qtrRezoneRetire quarter => quarterOk quarter
  | .rezoneGo h _ _ => h.wf
  | .rezoneRetire h _ _ => h.wf
  | .quarterClosingEdge quarter => quarterOk quarter
  | .quarterDrained quarter => quarterOk quarter
  | .quarterEnterTarget quarter => quarterOk quarter
  | .quarterLoadDone quarter _ => quarterOk quarter
  | .quarterBistDone quarter _ => quarterOk quarter
  | .openSession h o => h.wf && o.wf
  | .configureStream h o _ => h.wf && o.wf
  | .configureRate h o => h.wf && o.wf
  | .configureResilience h o => h.wf && o.wf
  | .configureHostTransport h o => h.wf && o.wf
  | .submitFrameAperture h o => h.wf && o.wf
  | .submitFrameHost h o => h.wf && o.wf
  | .park h _ => h.wf
  | .parkCold h _ => h.wf
  | .resume h _ => h.wf
  | .close h _ => h.wf
  | .setRateBounds h o => h.wf && o.wf
  | .feedbackAck h _ _ => h.wf
  | .feedbackLoss h _ _ => h.wf
  | .feedbackKeyRequest h _ => h.wf
  | .feedbackRateReport h _ _ _ => h.wf
  | .keyLoad h _ => h.wf
  | .keyErase h _ => h.wf
  | .attachReceiver h _ => h.wf
  | .attachIngress h _ => h.wf
  | .bindRxQueue h _ => h.wf
  | .detachReceiver h _ _ => h.wf
  | .unbindRxQueue h _ _ => h.wf
  | .decodeBind h _ => h.wf
  | .decodeData h _ => h.wf
  | .decodeRelease h _ _ => h.wf
  | .decodeFlush h _ => h.wf
  | .snapshotSession h _ _ => h.wf
  | .snapshotFunction h _ _ => h.wf
  | .commandEntryInvalid _ => true
  | .parkComplete handle => handleOk handle
  | .closeComplete handle => handleOk handle
  | .resumeComplete handle => handleOk handle
  | .idleLimitReached handle => handleOk handle
  | .sessCtrlWrite _ => true
  | .sessDepotWmWrite _ _ => true
  | .sessCtxSelWrite _ => true
  | .sessCtxCopyDone => true
  | .effortLower handle => handleOk handle
  | .effortRaise handle => handleOk handle
  | .bucketBoundary handle => handleOk handle
  | .workUnitStart u => u.wf
  | .tileRowEntropyStart t engine => t.wf && engineOk engine
  | .tileRowCoded t _ => t.wf
  | .bandCheck handle _ => handleOk handle
  | .fallbackBandCommit handle _ => handleOk handle
  | .packetizeBand handle _ => handleOk handle
  | .bandDone handle => handleOk handle
  | .frameDone handle => handleOk handle
  | .apertureWrite w => w.wf
  | .apertureRead _ => true
  | .rowFence f => f.wf
  | .frameTruncate handle => handleOk handle
  | .hostRowsRead handle _ _ _ => handleOk handle
  | .ingestCtrlWrite _ _ => true
  | .rcCtrlWrite _ => true
  | .rcDefaultsWrite _ _ => true
  | .auReorderTimeout handle _ => handleOk handle
  | .dataCopyDone handle _ _ => handleOk handle
  | .decodeOutput handle _ => handleOk handle
  | .protectedFillDone _ => true
  | .decCtrlWrite _ => true
  | .microwordIssue engine _ => engineOk engine
  | .markWordComplete engine => engineOk engine
  | .markWatchdog engine => engineOk engine
  | .selfShadowCheck handle _ _ => handleOk handle
  | .selfShadowAbandon handle => handleOk handle
  | .caParityError ch _ => chanOk ch
  | .rankSpareCopyDone ch => chanOk ch
  | .refreshInterval ch => chanOk ch
  | .dimmTempPoll ch _ => chanOk ch
  | .trackerWindowReset ch => chanOk ch
  | .throttleExpiry ch req => chanOk ch && requesterOk req
  | .dramInitDone => true
  | .scrubRead _ => true
  | .memcMapWrite _ => true
  | .memcCtrlWrite _ => true
  | .allocate id who _ _ => id.wf && who.wf
  | .claim id who _ => id.wf && who.wf
  | .release id who _ _ => id.wf && who.wf
  | .poolRelayout => true
  | .queueBeatWrite queue producer _ _ => queueOk queue && producer.wf
  | .queueRead queue => queueOk queue
  | .queueStallRelease queue => queueOk queue
  | .queueReserve queue producer _ => queueOk queue && producer.wf
  | .queueFlush _ => true
  | .flushEnd queue => queueOk queue
  | .poolCtrlWrite _ => true
  | .poolFnQuotaWrite fn cls _ => fnOk fn && clsOk cls
  | .queueCtrlWrite _ => true
  | .queueSelWrite _ => true
  | .vfEnable _ => true
  | .vfDisable => true
  | .cmdqCtrlWrite fn ring _ => fnOk fn && ringOk ring
  | .cqCtrlWrite fn ring _ => fnOk fn && ringOk ring
  | .cmdqTailDb fn ring _ => fnOk fn && ringOk ring
  | .commandFetch fn ring _ _ => fnOk fn && ringOk ring
  | .completionPost fn ring _ => fnOk fn && ringOk ring
  | .cqHeadDb fn ring _ => fnOk fn && ringOk ring
  | .dmaChEnable ch => dmaOk ch
  | .dmaChDisable ch => dmaOk ch
  | .dmaChDb ch => dmaOk ch
  | .descriptorFetched ch _ => dmaOk ch
  | .descriptorComplete ch _ _ => dmaOk ch
  | .dmaRetry ch => dmaOk ch
  | .dmaChOwnerWrite fn ch _ => fnOk fn && dmaOk ch
  | .linkStateChange port _ => portOk port
  | .rxFrame f => portOk f.port && decide (f.bytes.length ≤ f.len)
  | .shaperRefill => true
  | .policerRefill => true
  | .portTxSelect port => portOk port
  | .senderReportTimer => true
  | .rxqRaiseHoldoff fn _ => fnOk fn
  | .detachComplete _ => true
  | .netCtrlWrite _ => true
  | .netPortCfgWrite port _ => portOk port
  | .netPtpLatch _ => true
  | .ppsInEdge port => portOk port
  | .ppsOutSecond port => portOk port
  | .tandemCtrlWrite _ => true
  | .tandemRoleWrite _ => true
  | .tandemHello _ => true
  | .tandemAuth _ _ => true
  | .authRetry => true
  | .linkRetransmit _ => true
  | .mirror _ => true
  | .shadowDecodeDone handle _ => handleOk handle
  | .shadowRecheckDone handle _ => handleOk handle
  | .tandemAck _ handle _ _ => handleOk handle
  | .ackTimeout handle => handleOk handle
  | .tandemConfig _ handle _ => handleOk handle
  | .tandemConfigReply _ handle _ => handleOk handle
  | .tandemNak _ _ => true
  | .heartbeat _ => true
  | .heartbeatMissed => true
  | .tandemNotice _ => true
  | .takeover => true
  | .shadowSync handle => handleOk handle
  | .syncDone => true
  | .handover handle => handleOk handle
  | .irqMessage target => targetOk target
  | .irqClaim target => targetOk target
  | .irqComplete target _ => targetOk target
  | .irqPendSet _ => true
  | .irqSrcCfgWrite _ _ => true
  | .fnIrqClaim fn vec => fnOk fn && vecOk fn vec
  | .fnIrqComplete fn vec _ => fnOk fn && vecOk fn vec
  | .fnIrqPendSet fn _ => fnOk fn
  | .fnIrqSrcCfgWrite fn _ _ => fnOk fn
  | .fnIrqDmaCfgWrite fn _ _ => fnOk fn
  | .msixMaskWrite fn vec _ => fnOk fn && vecOk fn vec
  | .evqCtrlWrite fn _ => fnOk fn
  | .evqHeadDb fn _ => fnOk fn
  | .eventRecordPost fn _ => fnOk fn
  | .watchEvent watch kind _ _ _ => watchOk watch && kindOk kind
  | .errPulseEnd => true
  | .watchStatusWrite watch _ => watchOk watch
  | .watchCfgWrite watch _ => watchOk watch
  | .watchInject watch _ => watchOk watch
  | .devErrPinWrite _ => true
  | .bistTargetDone _ => true
  | .sextantMeasure _ => true
  | .sextCoefGainWrite _ => true
  | .sextCoefOffsetWrite _ => true
  | .sextCtrlWrite _ => true
  | .bistCtrlWrite _ => true
  | .engineGate engine => engineOk engine
  | .engineUngate engine => engineOk engine
  | .hoveToEnter _ => true
  | .powerExitDone => true
  | .devLatencyTolWrite _ => true
  | .thermtrip sensor => sensorOk sensor
  | .perstFall => true
  | .perstRise straps => strapsOk straps
  | .bootRomDone misread => misread.all (fun e => fits e.1 26)
  | .bootLoadDone misread => misread.all (fun e => fits e.1 26)
  | .bootTrainDone _ => true
  | .bootInitDone misread => misread.all (fun e => fits e.1 26)
  | .devReset => true
  | .i3cTelemetry => true
  | .i3cResetArm => true
  | .i3cResetGo _ => true
  | .getVersion _ => true
  | .getCapabilities _ => true
  | .negotiateAlgorithms _ => true
  | .getDigests _ => true
  | .getCertificate _ => true
  | .challenge _ => true
  | .getMeasurements _ => true
  | .secFuseSvn _ => true
  | .fuseOwnerProgram _ => true
  | .fuseOwnerRevoke _ => true
  | .fuseBurnDone => true
  | .flashErase => true
  | .flashProgram _ => true
  | .flashOpDone _ => true
  | .guardedFirstWrite req _ _ => reqOk req
  | .guardWindowWrite req _ _ => reqOk req
  | .guardTimeout req => reqOk req
  | .accessSizeError a => a.wf
  | .unimplementedAccess a => a.wf
  | .registerWrite a => a.wf
  | .tandemLinkTrainsAgain => true
  | .dmaBusError ch _ => dmaOk ch
  | .powerCycle straps => strapsOk straps

end Sys2Proof
end

