-- ==== Sys2Proof/Config.lean ====
section
/-! DEFINITION. What the spec leaves open: constants with no body. Nothing in Lean can evaluate one, so a claim about one holds whatever it
is. Each is named by an entry of the assumption log. -/

namespace Sys2Proof.Config

/-- How long the k-th log mark of a Bell waits after its Bell start, in issue slots of a Boulevard cycle (R29: a cycle count that no rule fixes). -/
opaque markTime : BitVec 40 → Nat → Nat

/-- What a port's PTP clock reads at the k-th reading, in ns since the PTP epoch (R16, R426: the clock follows its master). -/
opaque ptpClock : Nat → Nat → Nat

/-- Does the ECDSA P-384 check of a signature (r, s) over a digest pass with a public key of 96 bytes (R36, R304, R539)? -/
opaque ecdsaP384 : List Byte → BitVec 384 → Nat → Nat → Bool

/-- The k-th free word: a value that the spec calls undefined (R395). -/
opaque freeWord : Nat → Word

/-- The k-th free 64-bit value. -/
opaque freeDWord : Nat → DWord

/-- SHA-384 of a byte string (R36, R545). -/
opaque sha384 : List Byte → BitVec 384

/-- M := SHA-384(M ‖ d) of R545. -/
opaque extend : BitVec 384 → BitVec 384 → BitVec 384

/-- M := SHA-384(M ‖ record) of R545 and R546, for the 64-byte record. -/
opaque extendRecord : BitVec 384 → List Byte → BitVec 384

/-- The fused serial number (R534). -/
opaque serial : DWord

/-- The fused DEVICE_SECRET and PRODUCT_SECRET (R534): no path exposes them. -/
opaque deviceSecret : BitVec 256

/-- See deviceSecret. -/
opaque productSecret : BitVec 256

/-- The KDF in counter mode of NIST SP 800-108 with HMAC-SHA-384: secret, label and context to 384 bits (R548). -/
opaque kdf : BitVec 256 → List Byte → BitVec 384

/-- The P-384 public key of a private key, X then Y, byte 0 in bits 7:0 (R548, R557). -/
opaque publicKey : BitVec 384 → BitVec 768

/-- The ECDSA P-384 signature of a digest by a private key (R547, R548). -/
opaque ecdsaSign : BitVec 384 → BitVec 384 → Nat × Nat

/-- The certificates of slot 0 (R548): Mbowin's root; the identity certificate that the key manifest's region of flash holds, at a place that the spec
does not give; and the key-agreement certificate, of a public key and the key that signs it (log entry 17). -/
opaque rootCertificate : List Byte
/-- See rootCertificate. -/
opaque identityCertificate : List Byte → List Byte
/-- See rootCertificate. -/
opaque agreementCertificate : BitVec 768 → BitVec 384 → List Byte

/-- What an SPDM answer's signature covers (R547): the messages exchanged, a free value (log entry 17). -/
opaque transcript : Nat → BitVec 384

/-- AES-256-GCM opening (R304, R305): key, IV, additional data, ciphertext, tag; none where the tag fails. -/
opaque gcmOpen : BitVec 256 → List Byte → List Byte → List Byte → List Byte → Option (List Byte)

/-- The X coordinate of the ECDH shared secret of a private key and a P-384 public key of 96 bytes; none where the key is not on the curve
(R551). -/
opaque ecdhX : BitVec 384 → List Byte → Option (List Byte)

/-- HKDF-SHA-384 (RFC 5869): input key material, salt and info to 256 bits (R551). -/
opaque hkdf : List Byte → List Byte → List Byte → BitVec 256

/-- AES key unwrap with padding (RFC 5649): the unwrapped bytes, none where it fails (R551). -/
opaque keyUnwrap : BitVec 256 → List Byte → Option (List Byte)

/-- AES-128 decryption of one block (R262). -/
opaque aesDecrypt : BitVec 128 → BitVec 128 → BitVec 128

/-- The fused VENDOR_KEY_HASH (R534). -/
opaque vendorKeyHash : BitVec 384

/-- The JTAG_OFF fuse (R534). -/
opaque jtagOff : Bool

/-- The nonce that the k-th RESET_ARM returns (R553). -/
opaque nonce : Nat → DWord

/-- The random draws of R413: the k-th initial SSRC, sequence number and timestamp offset. -/
opaque draw : Nat → Word


/-- The role working state of a context record (R84): byte k of it for a handle; laid out by the role microcode. -/
opaque roleByte : Nat → Nat → Byte

/-- binary32 of a whole number of 1/64 (U_INIT of R218). -/
opaque f32OfSixtyFourths : Nat → F32

/-- binary32 one (m of R215 at a boundary). -/
opaque f32One : F32

/-- W := K × Qstep(q) of R218: codec, K in 4.12 fixed point, q. -/
opaque weightOf : Nat → Nat → Nat → F32

/-- b̂_k(q) of R215 in whole bits: m, κ̂, P_k, codec, q. -/
opaque predict : F32 → F32 → Nat → Nat → Nat → Nat

/-- κ̂_k with lookahead of R215: h_k, χ_k, χ′_k. -/
opaque kappa : F32 → F32 → F32 → F32

/-- LA's complexity of a band (R215): handle, frame, band. -/
opaque chi : Nat → Nat → Nat → F32

/-- Did the LA unit of a band run to its end, and was not abandoned (R301): handle, frame, band. -/
opaque laDone : Nat → Nat → Nat → Bool

/-- m := m × √ρ of R217: m, b, b̂. -/
opaque fixM : F32 → Nat → Nat → F32

/-- h_k := b × Qstep(q) / P_k of R217: b, codec, q, P_k. -/
opaque fixH : Nat → Nat → Nat → Nat → F32

/-- W := W × ρ^ETA of R217: W, b, b̂, ETA in 1/256. -/
opaque fixW : F32 → Nat → Nat → Nat → F32

/-- U := (1 − ETA_U) × U + ETA_U × |ln ρ| of R217: U, b, b̂, ETA_U in 1/256. -/
opaque fixU : F32 → Nat → Nat → Nat → F32

/-- U ≥ t/64 of R221. -/
opaque uAtLeast : F32 → Nat → Bool

/-- b̂ × e^U in whole bits, rounded up (R221). -/
opaque timesExpU : Nat → F32 → Nat

/-- U in 1/64, saturating at 0xFFFF (RC_SESS_U of R231). -/
opaque u64ths : F32 → BitVec 16

/-- RATE_NEXT × (1 + INC_PCT/100)^(1/FPS) of R223, in whole b/s: rate, INC_PCT, FPS. -/
opaque grow : Nat → Nat → Nat → Nat

/-- The binary16 image of h_k in the context record (R229). -/
opaque half : F32 → BitVec 16

/-- The fused factory GAIN and OFFSET of a Sextant entry and set (R512). -/
opaque factory : Nat → BitVec 16 × BitVec 16

/-- A free vector register value: operations that no interface fixes (R295). -/
opaque freeVec : Nat → BitVec 1024

/-- A byte of local memory whose value is free: by the count of its origin and its address (R295). -/
opaque freeByte : Nat → Nat → BitVec 8

/-- The rounded linear interpolation of R514 between two sets at T whole degrees, the first set's temperature first. -/
opaque interpolate : BitVec 16 → BitVec 16 → Int → Int → BitVec 16

/-- The samples of an LRC unit from its compressed form (R182); the compressor is the device's own. -/
opaque lrcUnpack : Nat → List Byte → List Nat

/-- PRE's polyphase filter (R141): the sample at a phase of 64 from the source samples under its taps; the coefficients are the device's own. -/
opaque scaleTap : Nat → List Nat → Nat

/-- A codec's inter-prediction sample (R156): by codec and the vector's fractions in eighths, from the samples under the interpolation filter. -/
opaque interSample : Nat → Nat → Nat → List Nat → Nat

/-- A codec's inter-prediction sample of chroma (R276): by codec and the vector's fractions in sixteenths, from the samples under the filter. -/
opaque interChroma : Nat → Nat → Nat → List Nat → Nat

/-- The cost of a vector in motion search (R155): by hierarchical level (0 full pel), the block's source samples, its prediction and the vector. -/
opaque searchCost : Nat → List Nat → List Nat → Int × Int → Nat

/-- LA's vector for the block at x, y of a frame, in pixels of the 1/4-scale picture (R154). -/
opaque laVector : Nat → Nat → Nat → Nat → Int × Int

/-- How the role microcode divides a block unit of a frame into blocks (R151, R152): by handle, frame, band, branch, and the unit's x and y. -/
opaque partition : Nat → Nat → Nat → Nat → Nat → Nat → List (Nat × Nat × Nat × Nat)

/-- The distortion of coding a block by a mode with a reference and vector (R153, R162): by whether SATD stands in, handle, frame, block, mode. -/
opaque distortion : Bool → Nat → Nat → Nat × Nat × Nat × Nat → String → Option Nat → Int × Int → Nat

/-- The estimated or counted bits of coding a block so (R153, R162): by whether the entropy-assist unit counts, and as before. -/
opaque rateBits : Bool → Nat → Nat → Nat × Nat × Nat × Nat → String → Option Nat → Int × Int → Nat

/-- The AV1 DC quantiser lookup dc_q (R162): by bit depth 10 and base_q_idx. -/
opaque dcQ : Bool → Nat → Nat

/-- Frame-level filter parameters of an AV1 frame that the role microcode decides (R152, R166): deblocking levels, CDEF damping, the CDEF strengths and
the restoration type of each plane. -/
opaque filterParams : Nat → Nat → List (String × Int)

end Sys2Proof.Config
end

