-- ==== Sys2Proof/Machine/State.lean ====
section
/-! DEFINITION. The state of the FLD-E9512: every register, queue, counter and piece of hidden state that the spec gives it, as
plain data, with the fault and refusal reasons and the state right after reset. -/

namespace Sys2Proof.Machine

open Sys2Proof

/-- A log mark (R29). The Bell number is bits 63:24. The sub-sequence is a cycle count that no rule fixes; the model keeps
the ordinal of the mark within its Bell, and subSequence gives the 24 bits of it (log entry 3). -/
structure Mark where
  bell : BitVec 40
  seq  : Nat
  deriving DecidableEq, Repr

/-- The three windows of a Bell (R12). -/
inductive Window where
  | dispatch
  | work
  | guard
  deriving DecidableEq, Repr

/-- The Bell generator (R11 to R20, SCHED_BELL_*). slew is what is left to move under R14, in ns; rejRun the offsets of the
consecutive rejected edges, newest first; missed that the edge of the next Bell start is missing; cut says that this Bell's fence cut has passed;
markSeq counts the log marks of this Bell. -/
structure Bell where
  cfg      : Word
  rateAct  : Bool
  srcAct   : Nat
  num      : BitVec 40
  window   : Window
  cut      : Bool
  holdover : Bool
  lost     : Bool
  locked   : Bool
  phase    : Word
  missing  : Nat
  rejected : Nat
  missRun  : Nat
  missed   : Bool
  rejRun   : List Int
  slew     : Int
  markSeq  : Nat
  deriving DecidableEq, Repr

/-- A completion entry (R382) that waits or has been posted. cmdRing is the ring of bits 26:24; mark is none until the posting of a completion, whose mark is that of the posting; bytes is set for a BAND_DONE:
the session and the payload bytes whose consumption R387 counts. -/
structure Cqe where
  r0      : Word
  r1      : Word
  r2      : Word
  r3      : Word
  mark    : Option Mark
  cid     : BitVec 16
  status  : Code
  opcode  : Nat
  cmdRing : Nat
  counts  : Bool
  bytes   : Option (Nat × Nat)
  deriving DecidableEq, Repr

/-- A command ring (R378 to R380, R402). -/
structure CmdRing where
  base        : DWord
  cfg         : Word
  en          : Bool
  reason      : Code
  tail        : Word
  head        : Word
  outstanding : Nat
  waiting     : Bool
  deriving DecidableEq, Repr

/-- A completion ring (R378, R382 to R385, R402). front holds what waits; unread the posted BAND_DONEs by entry index. -/
structure CqRing where
  base   : DWord
  cfg    : Word
  en     : Bool
  reason : Code
  head   : Word
  tail   : Word
  fault  : Bool
  front  : List Cqe
  unread : List (Word × Nat × Nat)
  deriving DecidableEq, Repr

/-- An event record (R476, R477); pay is the payload as four words. -/
structure EvRec where
  typ   : Nat
  code  : Code
  token : Word
  pay   : List Word
  mark  : Mark
  deriving DecidableEq, Repr

/-- A function's event queue (R475, R479, R482). dropped counts since the last OVERFLOW record. -/
structure EvQ where
  base     : DWord
  cfg      : Word
  en       : Bool
  reason   : Code
  head     : Word
  tail     : Word
  fault    : Bool
  overflow : Bool
  lost     : Nat
  dropped  : Nat
  front    : List EvRec
  deriving DecidableEq, Repr

/-- A function's window (R377): rings, event queue, statistics (R400) and the SNAPSHOT sequence. -/
structure Fn where
  cmd   : NMap CmdRing
  cq    : NMap CqRing
  ev    : EvQ
  stats : NMap Nat
  seq   : Nat
  deriving DecidableEq, Repr

/-- A DMA channel (R388 to R395, R403). desc is the descriptor in progress; db says that a doorbell arrived since the fetch of
a held END descriptor was issued; errPend the bus error whose retry is due; refetch that the next fetch re-reads NEXT. -/
structure DmaCh where
  en      : Bool
  owner   : Word
  chain   : DWord
  state   : Nat
  errKind : Nat
  errPend : Option Nat
  reason  : Code
  cur     : DWord
  done    : Word
  cmpOff  : Nat
  retries : Nat
  dbCount : Nat
  tries   : Nat
  busy    : Bool
  db      : Bool
  refetch : Bool
  desc    : Option Desc
  deriving DecidableEq, Repr

/-- The DMA block (R403). -/
structure Dma where
  retryLimit : Word
  hostFail   : Nat
  chans      : NMap DmaCh
  deriving DecidableEq, Repr

/-- The routing of a source (R464). -/
structure Route where
  en     : Bool
  prio   : Nat
  target : Nat
  deriving DecidableEq, Repr

/-- An MSI-X table entry (R373, R473). -/
structure MsixEntry where
  addrLo : Word
  addrHi : Word
  data   : Word
  mask   : Bool
  deriving DecidableEq, Repr

/-- The interrupt controller (R462 to R473, R481). forced holds the level sources set by IRQ_PEND_SET; cond the level sources
whose condition holds; insvc maps a source in service to the target that claimed it; disarmed the targets with ARMED 0;
msgLevel the level sources that were pending at a target's last message, withdrawn the targets where one has withdrawn
since with no claim. -/
structure Irq where
  reason      : Code
  spurious    : Nat
  badComplete : Nat
  route       : NMap Route
  pend        : List Nat
  forced      : List Nat
  cond        : List Nat
  insvc       : NMap Nat
  disarmed    : List Nat
  msgLevel    : NMap (List Nat)
  withdrawn   : List Nat
  msix        : NMap MsixEntry
  pba         : List Nat
  deriving DecidableEq, Repr

/-- A history entry of a watch (R491). -/
structure Hist where
  mark   : Mark
  kind   : Nat
  severe : Bool
  inj    : Bool
  code   : Code
  deriving DecidableEq, Repr

/-- The counts of one fault kind (R484, R498). -/
structure KindCount where
  start : BitVec 40
  count : Nat
  total : Nat
  deriving DecidableEq, Repr

/-- A fault watch (R483 to R498). -/
structure Watch where
  severe  : BitVec 16
  seen    : BitVec 16
  cfg     : Word
  ie      : Word
  last    : Nat
  histSel : Word
  hist    : List Hist
  inject  : Word
  kinds   : NMap KindCount
  deriving DecidableEq, Repr

/-- The DEV block and the pins that it reports (R489, R490, R494, R499, R531, R569). noDispatch takes effect at the Bell start
after the device safe state is entered. stopped: the clocks are stopped by THERMTRIP; perstN: the level of PERST_N. -/
structure Dev where
  safe        : Bool
  safeWindow  : BitVec 8
  noDispatch  : Bool
  errDrive    : Bool
  errPulse    : Bool
  parityCount : Nat
  parityWin   : BitVec 8
  latencyTol  : Word
  stopped     : Bool
  perstN      : Bool
  straps      : Nat
  deriving DecidableEq, Repr

/-- The power controller (R518 to R533). held k counts the Bells throughout which the entry conditions of state k have held;
cool the Bells of R528; gated the engines whose domain is off. -/
structure Pwr where
  reason    : Code
  cfg       : Word
  state     : Nat
  target    : Nat
  exiting   : Bool
  exitTo    : Nat
  ext       : Bool
  level     : Nat
  therm     : Word
  therm2    : Word
  tj        : BitVec 16
  tjSensor  : Nat
  sel       : Word
  temps     : NMap (BitVec 16)
  ignored   : List Nat
  wakeCount : Nat
  entries   : NMap Nat
  levelChg  : Nat
  held      : NMap Nat
  cool      : Nat
  gated     : List Nat
  aspmL1    : Bool
  deriving DecidableEq, Repr

/-- The register interface (R563 to R568, R570). pending maps a requester to the offset and value of its pending guarded write. -/
structure RegIf where
  reason     : Code
  errLog     : Word
  errAddr    : Word
  errCount   : Nat
  guardLast  : Word
  guardCount : Nat
  guardRej   : Nat
  pending    : NMap (Nat × Word)
  deriving DecidableEq, Repr

/-- A key of the key store (R549, R551); handle is none once its session is CLOSED (R552). -/
structure Key where
  kind     : Nat
  ownerFn  : Nat
  handle   : Option Nat
  len      : Nat
  material : BitVec 256
  salt     : BitVec 96
  deriving DecidableEq, Repr

/-- A flash operation in progress (R555): erase or program. -/
inductive FlashOp where
  | erase (sector : Nat)
  | program (addr : Nat) (bytes : List Byte)
  deriving DecidableEq, Repr

/-- A fuse burn in progress (R536, R537). -/
inductive Burn where
  | svn (counter value : Nat)
  | program (slot : Nat) (hash : BitVec 384)
  | revoke (slot : Nat)
  deriving DecidableEq, Repr

/-- The security block (R534 to R557). svn and ownerBits are fuses; flash lists the bytes that differ from 0xFF; meas the six
measurement registers; helmFirst the HELM_ACTIVE of the directory; spdm the connection state of each transport; accepted the owner slots that R535
accepted, with vendorKey and ownerKeys the public keys that the block then holds. -/
structure Sec where
  stage      : Nat
  bootReason : Code
  cause      : Nat
  reason     : Code
  dirInvalid : Bool
  bootSlot   : Nat
  helmFirst  : Nat
  helmSlot   : Nat
  bootSvn    : Nat
  helmSvn    : Nat
  accepted   : List Nat
  vendorKey  : List Byte
  ownerKeys  : NMap (List Byte)
  svn        : NMap Nat
  ownerBits  : BitVec 8
  ownerHash  : NMap (BitVec 384)
  burning    : Option Burn
  ready      : Bool
  svnSel     : Nat
  measSel    : Nat
  pubSel     : Nat
  fuseSvnReg : Word
  ownerReg   : Word
  hashRegs   : NMap Word
  meas       : NMap (BitVec 384)
  pubs       : NMap (BitVec 768)
  keys       : NMap Key
  flash      : List Host.Cell
  flashAddr  : Word
  flashHost  : DWord
  flashLen   : Word
  flashOp    : Option FlashOp
  flashErr   : Bool
  spdmDoe    : Nat
  spdmI3c    : Nat
  nonce      : Option (DWord × BitVec 40)
  deriving DecidableEq, Repr

/-- A channel of the memory controller (R331 to R344). throttled maps a requester ID to the refresh intervals left; acts the
activation counts of the tracked rows; vref and rowOf hold per rank the Vref step and the row of the last retirement by UE; paused says that the
retraining pause of this Guard window has been taken (R22). -/
structure Chan where
  state     : Nat
  spared    : Nat
  pauseRank : Nat
  x2        : Bool
  ce        : Nat
  ue        : Nat
  rfm       : Nat
  throttle  : Nat
  retrain   : Nat
  caRetry   : Nat
  rankCe    : NMap Nat
  lastErr   : Word
  lastThr   : Word
  drift     : Word
  throttled : NMap Nat
  acts      : NMap Nat
  vref      : NMap Int
  ueRows    : NMap Nat
  copying   : Option Nat
  paused    : Bool
  deriving DecidableEq, Repr

/-- An entry of the retired-page table (R327, R343). -/
structure Retired where
  page  : Nat
  ch    : Nat
  rank  : Nat
  cause : Nat
  deriving DecidableEq, Repr

/-- The memory controller's global state (R316 to R343). pageCe counts a page's corrected errors since the start; poison lists
the poisoned lines by number; scrubPos is the next line of the patrol. -/
structure Memc where
  en         : Bool
  reason     : Code
  order      : Nat
  dens32     : Bool
  dpc        : Nat
  ranks      : Nat
  speed      : Nat
  trainState : Nat
  trainSrc   : Nat
  failMask   : Nat
  initDone   : Bool
  initGib    : Nat
  scrubCfg   : Word
  passes     : Nat
  scrubPos   : Nat
  rhCfg      : Word
  retireCfg  : Word
  table      : List Retired
  retireSel  : Word
  pageCe     : NMap Nat
  poison     : List Nat
  chans      : NMap Chan
  deriving DecidableEq, Repr

/-- An allocated pool buffer (R346, R353, R354). recs maps a claim record to its claimant and count; fn is the function that the
buffer is charged to; secret marks protected data (R266); charged says that the buffer still counts against its owner session's quota (R353). -/
structure Buf where
  gen    : Nat
  owner  : PoolReq
  fn     : Nat
  hold   : Bool
  refs   : Nat
  recs   : NMap (PoolReq × Nat)
  secret : Bool
  charged : Bool
  deriving DecidableEq, Repr

/-- The pool manager's replies (R349, R354, R355, R358). -/
inductive PoolReply where
  | handle (h : Word)
  | token (t : Nat)
  | done
  | ignored
  | refused (code : Code)
  deriving DecidableEq, Repr

/-- The pool manager (R345 to R358, R369). count holds COUNT of each class; free the free list of each class as runs (first
index, length), the longest free first; bufs the allocated buffers by class and index; gens the generations of free buffers that are
not 0; waiting the buffers whose fill of R266 runs or whose page is retired; lay the runs of R351 (class, first index, length,
device address); held the holdings by requester and class; applied the operations of the last 2 Bells with their replies. -/
structure Pool where
  en         : Bool
  reason     : Code
  count      : NMap Nat
  nextCount  : Option (NMap Nat)
  free       : NMap (List (Nat × Nat))
  bufs       : NMap Buf
  gens       : NMap Nat
  filling    : List Nat
  gone       : List Nat
  lay        : List (Nat × Nat × Nat × Nat)
  claimFree  : Nat
  allocCnt   : Nat
  emptyCnt   : Nat
  quotaCnt   : Nat
  promoteCnt : Nat
  notOwner   : Nat
  double     : Nat
  lastReq    : PoolReq
  lastCode   : Code
  lastHandle : Word
  quota      : NMap Nat
  fnQuota    : NMap Nat
  fnUse      : NMap Nat
  fnMisuse   : NMap Nat
  held       : NMap Nat
  applied    : List (ReqId × DWord × BitVec 40 × PoolReply)
  deriving DecidableEq, Repr

/-- An item of a queue (R360): beats written so far, and how many the reader has taken; vis is its place in the order of R362
once its last beat is written. -/
structure Item where
  producer : PoolReq
  prio     : Nat
  size     : Nat
  hold     : Option (Word × Nat)
  beats    : List (BitVec 256)
  written  : Nat
  vis      : Option Nat
  taken    : Nat
  cut      : Bool
  deriving DecidableEq, Repr

/-- One queue (R359 to R365). mode: none is the default of R364. flushing holds
the mode of a flush that has not ended (true: AT_BOUNDARY); stalled the beats whose write handshake waits; rel the claims that the
end of the flush releases. -/
structure Queue where
  items    : List Item
  mode     : Option Bool
  flushing : Option Bool
  reserved : NMap Nat
  slot     : Bool
  blocks   : Nat
  stalled  : List (PoolReq × Bool × BitVec 256)
  rel      : List (PoolReq × Word × Nat)
  aborted  : Bool
  visSeq   : Nat
  deriving DecidableEq, Repr

/-- The queue manager (R359 to R366, R370). bad counts the items discarded under 0x0604. -/
structure QueueMgr where
  en        : Bool
  reason    : Code
  sel       : Word
  spillFree : Nat
  slotsFree : Nat
  queues    : NMap Queue
  bp        : Nat
  flushCnt  : Nat
  abortCnt  : Nat
  rejCnt    : Nat
  spillBell : Option (BitVec 40)
  bad       : Nat
  deriving DecidableEq, Repr

/-- A DISTRICT section (R39, R40). -/
structure District where
  mcSet    : Nat
  weight   : Nat
  ctxSlots : Nat
  roles    : List Nat
  deriving DecidableEq, Repr

/-- An image of the microcode library (R305, R306): words are the first WORDS words of its store; the words beyond them are all ones. -/
structure McImage where
  role    : Nat
  imageId : Nat
  svn     : Nat
  digest  : BitVec 384
  words   : List Nat
  deriving DecidableEq, Repr

/-- A MICROCODE entry (R42). -/
structure McEntry where
  set     : Nat
  role    : Nat
  imageId : Nat
  svn     : Nat
  digest  : BitVec 384
  deriving DecidableEq, Repr

/-- A BIST entry (R49). -/
structure BistEntry where
  target  : Nat
  variant : Nat
  sig     : BitVec 64
  deriving DecidableEq, Repr

/-- An IRQROUTE entry (R50). -/
structure RouteEntry where
  first  : Nat
  last   : Nat
  target : Nat
  prio   : Nat
  en     : Nat
  deriving DecidableEq, Repr

/-- A PRIORS entry (R47). -/
structure Prior where
  qpKey   : Nat
  qpInter : Nat
  kKey    : Nat
  kInter  : Nat
  deriving DecidableEq, Repr

/-- The sections of a plan that a full plan gives the device (R44 to R46); what is in force after an apply. -/
structure PlanCfg where
  weights   : List Nat
  counts    : List Nat
  quotas    : List Nat
  taskq     : Nat
  flowq     : Nat
  order     : Nat
  gating    : Nat
  gang      : Nat
  moored    : Nat
  spares    : Nat
  sample    : Nat
  headroom  : Nat
  permil    : Nat
  deriving DecidableEq, Repr

/-- A staged image that parsed (R33 to R50). -/
structure PlanImage where
  partPlan  : Bool
  planId    : Word
  svn       : Nat
  signer    : Nat
  districts : NMap District
  setCount  : Nat
  mc        : List McEntry
  cfg       : PlanCfg
  priors    : List Prior
  bist      : List BistEntry
  routes    : List RouteEntry
  digest    : BitVec 384
  deriving DecidableEq, Repr

/-- The PLAN block (R52 to R56, R68). stage is STAGE_STATE, applySt APPLY_STATE; srcAddr and srcLen say where in host memory the staging reads;
cmd is the PLAN_LOAD that waits for its completion; accepted says that an apply waits for its Bell start, acceptedAt the Bell of its acceptance;
releasing the spare releases still to make, rezoning the Quarters still to rezone, applyCur the Quarter on its way and applyRel that its step is
a spare release. The staging buffer itself is in DRAM (R319). -/
structure Plan where
  addr      : DWord
  len       : Word
  stage     : Nat
  reason    : Code
  srcAddr   : DWord
  srcLen    : Nat
  image     : Option PlanImage
  stagedId  : Word
  cmd       : Option Hdr
  applySt   : Nat
  applyQ    : Nat
  accepted  : Bool
  acceptedAt : BitVec 40
  releasing : List Nat
  rezoning  : List Nat
  applyCur  : Option Nat
  applyRel  : Bool
  applying  : Option PlanImage
  activeId  : Word
  activeSvn : Nat
  digest    : BitVec 384
  first     : Bool
  cfg       : PlanCfg
  districts : NMap District
  mc        : List McEntry
  priors    : List Prior
  bist      : List BistEntry
  digest1   : BitVec 384
  deriving DecidableEq, Repr

/-- A Quarter (R57 to R67, R69, R120). drain is the drain target while a drain is pending (pend) or running, edge that a Guard window has opened
since its acceptance (R60); isRezone that a REZONE drains, loads or tests it; passed the Bell in which its BIST passed (R67); lastLoad the PIX cost
dispatched in the last completed Bell, curLoad in this one (eighths of a cycle); nano the words of the nano-store, all ones beyond its end (R306);
sram its memory of 4 MiB (R1, R295): the bytes that are not 0; work the reconstruction work buffers in use, each with its tag and tile column (R170). -/
structure Quarter where
  en       : Bool
  state    : Nat
  drain    : Option Nat
  pend     : Bool
  edge     : Bool
  isRezone : Bool
  passed   : Option (BitVec 40)
  reason   : Code
  detours  : Nat
  sinks    : Nat
  mark     : Option Mark
  planId   : Word
  mcSet    : Nat
  weight   : Nat
  lastLoad : Nat
  curLoad  : Nat
  fbCount  : Nat
  overcad  : Nat
  shFrames : Nat
  shAband  : Nat
  shMism   : Nat
  credit   : Nat
  shadow   : Option Nat
  nano     : List (BitVec 288)
  sram     : List Host.Cell
  work     : NMap TileRef
  deriving DecidableEq, Repr

/-- The state from which ENT starts the coded part of a tile row (R189, R191): the default CDFs of a base_q_idx; what the tile row of the band
before left in the same tile; contexts initialised with cabac_init_flag or cabac_init_idc 0; those stored after the second CTU of the row above, or
its last; or none, in CAVLC. -/
inductive CoderStart where
  | cdfs    (q : Nat)
  | carried (state : List Byte)
  | init
  | wpp     (state : List Byte)
  | none
  deriving DecidableEq, Repr

/-- A block as mode decision leaves it (R151, R154, R162): the branch, its luma rectangle, the descriptor from which it predicts (none: intra) and its
vector in quarter or eighth pixels. -/
structure BlockDec where
  branch : Nat
  x      : Nat
  y      : Nat
  w      : Nat
  h      : Nat
  ref    : Option Nat
  mx     : Int
  my     : Int
  deriving DecidableEq, Repr

/-- The protected picture that a compositing frame takes (R144, R145, R265): its extents (none: the rectangle is black) and its size. -/
structure CompPic where
  exts   : List Word
  width  : Nat
  height : Nat
  depth  : Nat
  deriving DecidableEq, Repr

/-- A header that the device writes (R188): the unit, and the settings that the spec names for it, by the codec's syntax element. -/
structure Header where
  unit : String
  set  : List (String × Int)
  deriving DecidableEq, Repr

/-- A band of a frame in progress (R99, R101, R102, R207). st: 0 waiting, 1 dispatched, 2 every branch coded, 3 committed. q1 is the
second branch's quantiser; fb says that it is coded wholly in fallback mode (R75, R134, R210, R212) and nocheck that it commits without a
check; units lists the work units run, rows the coded tile rows by branch and column with their bytes and fallback blocks, starts and ends the coder
states from which they start and which they leave, blocks what mode decision has decided, and fbRows the tile rows that ENT began after DEADLINE, all
of whose blocks are coded in fallback mode (R115). -/
structure Band where
  st       : Nat
  elig     : Bool
  eligNext : Bool
  mark     : Mark
  cadence  : Bool
  q        : Nat
  q1       : Option Nat
  fb       : Bool
  nocheck  : Bool
  deadline : Bool
  quarter  : Nat
  bell     : BitVec 40
  units    : List (Nat × Nat × Nat × Nat)
  ent      : List (Nat × Nat)
  rows     : NMap (List Byte × Nat)
  starts   : NMap CoderStart
  ends     : NMap (List Byte)
  blocks   : List BlockDec
  fbRows   : List (Nat × Nat)
  deriving DecidableEq, Repr

/-- A frame in progress (R133, R134, R243). source 0 aperture, 1 host; set the surface set; ref the main reference's descriptor;
slot0 the Bell of its slot 0 and bells its F (R106); slot the LTR slot of its marking; desc the descriptor being built; ibc that it sets allow_intrabc (R161); headers what the headers written so far say (R188); compPic the protected picture taken and surface the buffers of the protected device surface that
its composited bands are written to (R144, R145). -/
structure Frame where
  ops      : SubmitOps
  bindId   : Nat
  ts       : Word
  cands    : List Nat
  comp     : List (Word × Nat)
  num      : Nat
  key      : Bool
  source   : Nat
  set      : Nat
  rows     : Nat
  ingest   : Bool
  trunc    : Bool
  truncAt  : Option (BitVec 40)
  parked   : Bool
  slot0    : BitVec 40
  bells    : Nat
  stall    : Nat
  ref      : Option Nat
  slot     : Option Nat
  wave     : Nat
  desc     : Nat
  width    : Nat
  height   : Nat
  next     : Nat
  bounded  : Bool
  bits     : Nat
  off      : Nat
  anyFb    : Bool
  dropped  : Bool
  mirrored : Bool
  failed   : Bool
  sampled  : Bool
  ibc      : Bool
  headers  : List Header
  compPic  : Option CompPic
  surface  : List Word
  bands    : NMap Band
  deriving DecidableEq, Repr

/-- A retained picture or one under construction (R177, R181): its descriptor's frame, its extents, and whether every band is in. For a decoded
picture (R270 to R284): refd that it is still a reference, shows that it waits for output, its tag, CONCEAL_FRAC, whether pictures were substituted
for it, and whether it is a random access point; order is its order hint or POC, width and height its size (R182, R277). -/
structure Pic where
  frame   : Nat
  key     : Bool
  extents : List Word
  whole   : Bool
  taint   : Bool
  wave    : Bool
  refd    : Bool
  shows   : Bool
  tag     : Word
  area    : Nat
  frac    : Nat
  subst   : Bool
  rap     : Bool
  q       : Nat
  sectors : Nat
  order   : Int
  width   : Nat
  height  : Nat
  deriving DecidableEq, Repr

/-- An aperture binding (R123, R124, R133): its SUBMIT_FRAME, its sets as (first page, buffers), the set counter and the frames
that use it; valid false: the mapping failed (R124). -/
structure Binding where
  id     : Nat
  ops    : SubmitOps
  source : Nat
  valid  : Bool
  sets   : List (Nat × List Word)
  count  : Nat
  deriving DecidableEq, Repr

/-- A pending PARK, RESUME or CLOSE (R600), its issuing command, and the Bell of its acceptance. kind: 0 PARK, 1 PARK COLD, 2 RESUME,
3 CLOSE, 4 the parking of R66. prior is the opcode and header of the PARK or RESUME that a CLOSE displaced. -/
structure PendCmd where
  kind  : Nat
  hdr   : Option Hdr
  bell  : BitVec 40
  prior : Option (Nat × Hdr)
  deriving DecidableEq, Repr

/-- A part of a payload that waits for room in the payload ring (R387): band, record FLAGS, bytes, the part's length bound. -/
structure HtPart where
  frame   : Nat
  band    : Nat
  flags   : Nat
  bytes   : Nat
  mark    : Mark
  lastPart : Bool
  payload : Option (Word × Nat)
  deriving DecidableEq, Repr

/-- Host transport (R387): ring, size, W, the bytes consumed, and the parts that wait for room (band, flags, bytes, more parts). -/
structure Ht where
  cq       : Nat
  cmdRing  : Nat
  fn       : Nat
  size     : Nat
  addr     : DWord
  w        : Nat
  consumed : Nat
  waiting  : List HtPart
  deriving DecidableEq, Repr

/-- A committed band whose packets are not built yet (R201, R411), or that waits for the partner's acknowledgement (R27). -/
structure BandRec where
  ts       : Word
  frame    : Nat
  band     : Nat
  flags    : Nat
  branch   : Nat
  q        : Nat
  fbBlocks : Nat
  bits     : Nat
  payload  : Option Word
  bytes    : Nat
  off      : Nat
  pre      : Word
  final    : Word
  mark     : Mark
  stripe   : Nat
  units    : Nat
  userTag  : Word
  deriving DecidableEq, Repr

/-- A decode band that has been dispatched and has not committed (R271, R274): its number, Quarter and Bell; in cadence, and reached by DEADLINE;
whether ENT parses it (1) or has parsed it (2), and the PIX units committed, by block and stage. -/
structure DecBand where
  k        : Nat
  quarter  : Nat
  bell     : BitVec 40
  cadence  : Bool
  deadline : Bool
  parse    : Nat
  units    : List (Nat × Nat)
  deriving DecidableEq, Repr

/-- A reference of the picture being decoded (R277, R278): the descriptor it is read from (none: the mid-grey picture), and whether it stands in for
one never received. -/
structure DecRef where
  desc  : Option Nat
  subst : Bool
  deriving DecidableEq, Repr

/-- An access unit of a decode session (R257, R261, R271, R272): its tag, its chunks' buffers, what its headers say, its sequence, the mark and Bell of
its completion, its slot 0, the descriptor of its picture (16: none) and its references, the bands dispatched so far, the Bell of the newest in-cadence
one with how many went in it, the bands that have not committed, and of the blocks committed those decoded by inter prediction and those missing, with
their vectors (R276). -/
structure Au where
  tag     : Word
  bufs    : List Word
  info    : AuInfo
  seq     : SeqInfo
  mark    : Mark
  elig    : BitVec 40
  slot0   : BitVec 40
  desc    : Nat
  refs    : List DecRef
  sent    : Nat
  cadBell : BitVec 40
  cadNow  : Nat
  run     : List DecBand
  vecs    : NMap (Int × Int)
  missing : NMap (Int × Int)
  deriving DecidableEq, Repr

/-- A peer access unit that is not complete (R260, R261): its RTP timestamp, the sequence numbers that have landed, that of its marker,
whether a packet was dropped, the Bell of its first packet, and the Bell in which a packet of a later timestamp landed. -/
structure PeerAu where
  ts    : Word
  seqs  : List Nat
  mark  : Option Nat
  gap   : Bool
  first : BitVec 40
  later : Option (BitVec 40)
  deriving DecidableEq, Repr

/-- A DATA chunk whose copy runs (R258), with the BIND in force when it was accepted (R255); dead says that its access unit has been discarded. -/
structure Chunk where
  hdr  : Hdr
  ops  : DataOps
  bind : Option BindOps
  bufs : List Word
  dead : Bool
  deriving DecidableEq, Repr

/-- A decode session's own state (R254 to R285). held lists the output buffers that the host holds; chunks the copies that run, oldest first;
part the tag and buffers of the access unit in progress that have been copied, nChunks and nBytes what has been accepted of the newest one; peer
the peer access units that are not complete, doneTs the newest complete one's timestamp and nextSeq the sequence number after its marker; queue
the complete ones, oldest first; synced says that decoding has started, seq the sequence in force, seqBad that it is unsupported (R269), rasl that
decoding started at a CRA or BLA picture whose RASL pictures are not decoded (R267), recover the order of the recovery picture while no block has
been concealed since its SEI (R281); latest the most recently output picture of R265; taint and frac those of the last output. -/
structure Dec where
  bind    : Option BindOps
  held    : List Nat
  nextOut : Nat
  chunks  : List Chunk
  part    : Option (Word × List Word)
  nChunks : Nat
  nBytes  : Nat
  peer    : List PeerAu
  doneTs  : Option Word
  nextSeq : Option Nat
  queue   : List Au
  flush   : Option Hdr
  synced  : Bool
  seq     : Option SeqInfo
  seqBad  : Bool
  rasl    : Bool
  recover : Option Int
  outputs : Nat
  taint   : Bool
  frac    : Nat
  latest  : Option Nat
  picNum  : Nat
  deriving DecidableEq, Repr

/-- A message that leaves on the Tandem link, and on the alternate path where the spec says both. A MIRROR carries the record, the descriptor, main
reference and slot of its frame's picture, and the mirrored regions (R440). -/
inductive LinkOut where
  | hello
  | authMsg
  | heartbeat (pairBell : BitVec 40) (side state viols : Nat)
  | mirror (handle : Nat) (rec : BandRec) (desc : Nat) (main slot : Option Nat) (rate : Rate) (ltr : Ltr) (rtp : Rtp)
  | ack (handle frame band : Nat) (kind : AckKind)
  | config (handle : Nat) (cmd : FwdCmd)
  | reply (handle : Nat) (code : Code)
  | nak (code : Code) (seq : Word)
  | faultNotice
  | resetNotice
  | unsoundNotice
  | sync (handle frame : Nat)
  | handover (handle : Nat)
  | again (seq : Word)
  deriving DecidableEq, Repr

/-- A session's Tandem state (R436 to R457). role: 0 not paired, 1 primary, 2 shadow. acks lists the bands without an ACK: frame, band and
commit Bell; shFrame and shBands say what the shadow holds; shLast that the last band of shFrame is among them; due the shadow decodes: frame,
band and the Bell of R24; sync the frame from which the shadow is copied; good the frame whose bands have all been acknowledged GOOD so far; gap
that a message of the session never arrived; recheck the Quarter of a first shadow decode that differs; run the shadow decode bands that run, by frame, in
the order of due (R439). -/
structure TanSess where
  role    : Nat
  live    : Bool
  acks    : List (Nat × Nat × BitVec 40)
  held    : List (Nat × Nat × Word × Nat)
  sync    : Option Nat
  landed  : Bool
  good    : Option Nat
  bad     : Bool
  shFrame : Nat
  shBands : Nat
  shLast  : Bool
  due     : List (Nat × Nat × BitVec 40)
  gap     : Bool
  recheck : Option Nat
  run     : List (Nat × DecBand)
  handTo  : Bool
  slot0   : Option (BitVec 40)
  shDesc  : Nat
  shMain  : Option Nat
  shSlot  : Option Nat
  unsent  : List LinkOut
  deriving DecidableEq, Repr

/-- An entry of the violation ring (R456). -/
structure Viol where
  mark : Mark
  typ  : Nat
  code : Code
  seq  : Word
  deriving DecidableEq, Repr

/-- A command that waits for the partner's reply (R437): its session, and for ATTACH_RECEIVER and KEY_LOAD the index that both devices are to take. -/
structure FwdWait where
  handle : Nat
  cmd    : Instr
  index  : Nat
  deriving DecidableEq, Repr

/-- The Tandem port (R430 to R461). cnt holds the counters by register offset; waiting the commands that wait for the partner's reply, oldest
first, with the session; sent the messages without link-level confirmation and their resends; gotLink and gotAlt the heartbeats of this
Bell, missLink and missBoth the consecutive misses; takeover the CAUSE of a takeover that is due, takeGo that its Bell start has come; mismatch the sessions that a takeover of CAUSE 4 takes; dead
that the link is no longer used; hbDue that the heartbeats of the Bell before are still to be judged; hbSent that the heartbeat of this Guard
window has left (R22); violBells the Bells of the newest 255 violations (log entry 63 names the model's own fields). -/
structure Tandem where
  ctrl     : Word
  reason   : Code
  side     : Nat
  state    : Nat
  lanes    : Nat
  altOk    : Bool
  linkOk   : Bool
  offset   : BitVec 40
  skew     : Int
  hbCfg    : Word
  altIp    : NMap Word
  violCfg  : Word
  syncCfg  : Word
  cnt      : NMap Nat
  viol     : List Viol
  violTot  : Nat
  violSel  : Word
  retryAt  : Option (BitVec 40)
  waiting  : List FwdWait
  seqOut   : Word
  sent     : List (Word × Nat)
  gotLink  : Bool
  gotAlt   : Bool
  missLink : Nat
  missBoth : Nat
  takeover : Option Nat
  mismatch : List Nat
  dead     : Bool
  stopped  : Bool
  hbDue    : Bool
  hbSent   : Bool
  takeGo   : Bool
  violBells : List (BitVec 40)
  deriving DecidableEq, Repr

/-- A packet in a flow's queue (R411 to R414): band commit Bell, payload claim and whether it is the last of its payload. -/
structure Pkt where
  seq     : BitVec 16
  roc     : Word
  ts      : Word
  frame   : Nat
  bytes   : Nat
  marker  : Bool
  commit  : BitVec 40
  claim   : Option (Word × Nat)
  last    : Bool
  deriving DecidableEq, Repr

/-- A flow (R406 to R425). KIND 1 leaves the sender's fields 0; rate in b/s, credit in 1/1024 byte, polCredit in 1/1,000,000 byte; start and fin are the
tags of R421; eRate the last non-zero E of its own reports with its Bell; top and seen the replay window of R424; hist the send history. -/
structure Flow where
  kind      : Nat
  fn        : Nat
  session   : Option Nat
  port      : Nat
  ipv6      : Bool
  vlanEn    : Bool
  rateSrc   : Bool
  resSrc    : Bool
  adapt     : Bool
  srtp      : Bool
  cls       : Nat
  rxq       : Nat
  rxqEn     : Bool
  vlan      : Nat
  localPort : Nat
  remoteIp  : BitVec 128
  remotePort : Nat
  nextHop   : BitVec 48
  keySlot   : Nat
  suite     : Nat
  pt        : Nat
  mtu       : Nat
  weight    : Nat
  deadline  : Nat
  paceMax   : Nat
  paceMin   : Nat
  burst     : Nat
  pct       : Nat
  polRate   : Nat
  polBurst  : Nat
  rate      : Nat
  rateNext  : Option Nat
  credit    : Nat
  polCredit : Nat
  start     : Option Rat
  fin       : Rat
  pkts      : List Pkt
  joined    : Nat
  hist      : List (BitVec 16 × Word × Nat)
  srtcp     : Nat
  sent      : Bool
  eRate     : Option (Nat × BitVec 40)
  top       : Nat
  seen      : List Nat
  tx        : Nat
  drops     : Nat
  detach    : Option (Option Hdr)
  flushed   : Bool
  deriving DecidableEq, Repr

/-- A frame of class 7 that waits (R420). -/
inductive Ctl where
  | arp
  | ptp
  | report (flow index : Nat)
  | altHb (pairBell : BitVec 40)
  deriving DecidableEq, Repr

/-- An Ethernet port (R404, R405, R426, R429). The latch holds what NET_PTP_LATCH or PPS_IN copied; v the virtual time of each class. -/
structure NetPort where
  cfg     : Word
  link    : Nat
  macLo   : Word
  macHi   : Word
  ipv4    : Word
  ipv6    : NMap Word
  secLo   : Word
  secHi   : Word
  ns      : Word
  offset  : Word
  locked  : Bool
  v       : NMap Rat
  ctl     : List Ctl
  deriving DecidableEq, Repr

/-- A host receive queue (R425): entry size, entries, ring, packets delivered; held says that the 20 µs of a raise run, more that an entry was
written in them. -/
structure RxQ where
  entry   : Nat
  entries : Nat
  addr    : DWord
  n       : Nat
  held    : Bool
  more    : Bool
  deriving DecidableEq, Repr

/-- The network engine (R404 to R429). cnt holds the counters by register offset; waiting the frames that arrived in Laid-up (R527). -/
structure Net where
  ctrl    : Word
  reason  : Code
  cnt     : NMap Nat
  ports   : NMap NetPort
  sel     : Word
  flows   : NMap Flow
  rxqs    : NMap RxQ
  waiting : List RxFrame
  deriving DecidableEq, Repr

/-- The DEC block (R287). cnt holds the counters by register offset. -/
structure DecBlk where
  en     : Bool
  reason : Code
  cfg    : Word
  cnt    : NMap Nat
  sel    : Word
  deriving DecidableEq, Repr

/-- What follows a mark word (R291, R297). -/
inductive MarkNext where
  | goto (pc : Nat)
  | dispatch
  deriving DecidableEq, Repr

/-- A visible write in a staging buffer (R296): operation, space, address, bytes and tag; out is entropy-assist output. -/
inductive Staged where
  | store (space : Nat) (addr : Nat) (bytes : List Byte) (tag : Nat)
  | qstore (addr : Nat) (bytes : List Byte) (tag : Nat)
  | add (space : Nat) (addr : Nat) (value : Word) (tag : Nat)
  | out
  deriving DecidableEq, Repr

/-- A stream engine (R288 to R302, R313). lmem lists the local-memory bytes written; seed 0 makes the others 0, any other seed free values (log
entry 4). micro holds the words of the micro-store, all ones beyond its end (R306). cmp is the last vector compare; inMark says that a mark word runs; cancel and deadline are the events that are pending; abandoned that
the unit ends without its effect. -/
structure Engine where
  state      : Nat
  role       : Nat
  mcSet      : Nat
  micro      : List (BitVec 40)
  pc         : Nat
  saved      : Nat
  sregs      : NMap Word
  savedS     : NMap Word
  vregs      : NMap (BitVec 1024)
  z          : Bool
  n          : Bool
  c          : Bool
  v          : Bool
  lc         : BitVec 16
  stack      : List Nat
  cl         : BitVec 128
  cmp        : BitVec 4
  lmem       : List Host.Cell
  seed       : Nat
  staging    : List Staged
  inMark     : Option MarkNext
  gap        : Nat
  gapMax     : Nat
  hwm        : Nat
  marks      : Nat
  busy       : Nat
  busyNow    : Nat
  faultKind  : Nat
  faultCount : Nat
  evFault    : Nat
  evRezone   : Nat
  evDeadline : Nat
  evCancel   : Nat
  unit       : Option UnitRef
  cancel     : Bool
  deadline   : Bool
  abandoned  : Bool
  deriving DecidableEq, Repr

/-- BIST (R500 to R509, R516). cnt holds the counters by register offset; kept the targets left at the head by a retraining pause; slice says
that a slice runs in this Guard window; used the µs of its slot that the analogue stream has taken; out the engines out of service; failed those that failed; standIn the engine for which the SPARE of a
Quarter stands in; rot the next engine of each Quarter; scanOk that the scan target of the engine under test passed. -/
structure Bist where
  en       : Bool
  reason   : Code
  cfg      : Word
  head     : Nat
  kept     : List Nat
  lastFail : Word
  cnt      : NMap Nat
  slice    : Bool
  used     : Nat
  out      : List Nat
  failed   : List Nat
  standIn  : NMap Nat
  rot      : NMap Nat
  scanOk   : List Nat
  deriving DecidableEq, Repr

/-- Sextant (R510 to R517). values holds the pairs in force or the sets (key 4 × index + set; native mode uses set 1) as GAIN and OFFSET; held
the GAIN that waits for its OFFSET; staged the pairs that software restores; result the accepted result that is due. -/
structure Sext where
  ctrl    : Word
  reason  : Code
  cfg     : Word
  clkOk   : Bool
  voltOk  : Bool
  next    : Nat
  rounds  : Nat
  sel     : Word
  values  : NMap (BitVec 16 × BitVec 16)
  held    : Option (Nat × BitVec 16)
  staged  : NMap (BitVec 16 × BitVec 16)
  result  : Option (Nat × BitVec 16 × BitVec 16)
  raw     : NMap Word
  stale   : List Nat
  rejects : NMap Nat
  temps   : NMap Int
  accept  : Nat
  reject  : Nat
  deriving DecidableEq, Repr

/-- The microcode library (R305, R315). -/
structure McLib where
  images  : List McImage
  rejects : Nat
  sel     : Word
  lastRej : Code
  deriving DecidableEq, Repr

/-- A session (R70 to R98) that is not CLOSED. state: 1 OPEN, 2 ACTIVE, 3 IDLE, 4 PARKED, 5 COLD (R84). hdr is its OPEN_SESSION, hint its FENCE_HINT and openCq the completion
ring of its notices; quarter 0xFF is no placement. lru is the order of last use in the context cache; cause the mark and requester of
a waiting page-in. newOk says that the configuration that waits was admitted at a frame start (R111); metaLast is the HDR metadata block last emitted
(R140), late the newest truncated or parked frame with its ROWS and SRC_HEIGHT (R128, R134). idleFrom is the Bell of the last frame's commit (R77, R84);
woken the Bell of a RESUME that no frame start has followed yet, and cfgDue that the next frame start applies the configuration that waits (R73). -/
structure Session where
  gen      : Nat
  state    : Nat
  fn       : Nat
  hdr      : Hdr
  openCq   : Nat
  hint     : Nat
  kind     : Nat
  stream   : StreamOps
  newStream : Option StreamOps
  newOk    : Bool
  sizeNext : Option (Nat × Nat)
  newRate  : Option RateOps
  newRes   : Option ResOps
  newBounds : Option BoundsOps
  userTag  : Word
  quarter  : Nat
  moveTo   : Option Nat
  moved    : Option (BitVec 40)
  fence    : Option Nat
  oldFence : Option Nat
  effort   : Nat
  effortTo : Option Nat
  phase    : Option Nat
  pinned   : Bool
  resident : Bool
  lru      : Nat
  cause    : Option (Mark × Nat)
  parkMark : Option Mark
  frameMark : Option Mark
  frameNum : Nat
  idleFrom : Option (BitVec 40)
  woken    : Option (BitVec 40)
  cfgDue   : Bool
  recent   : List Bool
  lastFb   : BitVec 40
  zeroLast : Option (BitVec 40)
  frames   : List Frame
  pend     : Option PendCmd
  applied  : List (ReqId × DWord)
  stats    : NMap Nat
  binding  : Option Binding
  nextBind : Option Binding
  oldBinds : List Binding
  hostSet  : List (Nat × List Word)
  pics     : NMap Pic
  metaLast : List Byte
  late     : Option (Nat × Nat × Nat)
  rate     : Rate
  rateCfg  : RateOps
  ltr      : Ltr
  ht       : Option Ht
  recs     : List BandRec
  doneWait : List (Nat × Nat × Nat)
  flows    : List Nat
  rtp      : Rtp
  dec      : Dec
  tan      : TanSess
  deriving DecidableEq, Repr

/-- The SESS and SCHED configuration and counters (R97, R119). free holds the free handles as runs, the longest free first; gens the
generations that are not 0; fences the free fence indices of each function; ctxBusy
that a record copy of R98 runs; clock orders the last uses of records; burst that the paging burst of this Guard window has run. -/
structure Sess where
  en        : Bool
  reason    : Code
  wm        : NMap Nat
  migrate   : Word
  demote    : Nat
  pageIn    : Nat
  pageOut   : Nat
  migrated  : Nat
  wakeDefer : Nat
  ctxSel    : Word
  ctxBusy   : Bool
  ctxDone   : Bool
  ctxValid  : Bool
  ctxCopy   : List Word
  fnLimit   : NMap Nat
  free      : List (Nat × Nat)
  gens      : NMap Nat
  fences    : NMap (List (Nat × Nat))
  clock     : Nat
  burst     : Bool
  deriving DecidableEq, Repr

/-- SCHED_ADMIT_CFG to SCHED_PHASE_SEL (R119). -/
structure Sched where
  burst    : Word
  effort   : Word
  active   : Nat
  ran      : List Nat
  cuts     : List (Nat × Nat)
  tasks    : Nat
  fb       : Nat
  overCad  : Nat
  overFb   : Nat
  defer    : Nat
  forkDeny : Nat
  phaseSel : Word
  deriving DecidableEq, Repr

/-- The INGEST block (R121 to R147). pages maps a first page to its run's length; doors the last accepted fence value by function × 4096 +
index. -/
structure Ingest where
  en      : Bool
  reason  : Code
  stall   : Word
  pages   : NMap (Nat × Nat)
  fenceOk : Nat
  fenceRej : Nat
  stray   : Nat
  trunc   : Nat
  lastRej : Word
  lastFn  : Word
  doors   : NMap DWord
  rejs    : NMap (BitVec 40)
  deriving DecidableEq, Repr

/-- The RC block (R231). -/
structure RcBlk where
  en      : Bool
  reason  : Code
  fork    : Word
  adapt   : Word
  model   : Word
  forks   : Nat
  b1      : Nat
  replay  : Nat
  reject  : Nat
  direct  : Nat
  filler  : Nat
  down    : Nat
  sel     : Word
  deriving DecidableEq, Repr

/-- What an SPDM answer says (R547, R548): SPDM 1.2; the capabilities; ECDSA P-384 with SHA-384 as the only algorithms; certificate slot 0 as a digest
of its chain and as the chain; signatures of the identity key; the measurement blocks by number, with their mutable mark; or an error. -/
inductive SpdmBody where
  | version (major minor : Nat)
  | capabilities (cert chal measSigned : Bool) (ctExponent : Nat)
  | ecdsaP384Sha384
  | digest (slot : Nat) (d : BitVec 384)
  | certificates (slot : Nat) (chain : List (List Byte))
  | challenge (slot : Nat) (d : BitVec 384) (sig : Nat × Nat)
  | measurements (blocks : List (Nat × Bool × BitVec 384)) (sig : Nat × Nat)
  | error
  deriving DecidableEq, Repr

/-- What leaves the device, newest last in State.out: the model's own record of it (log entry 2). -/
inductive Out where
  | msi (target : Nat)
  | helmIrq (core : Nat)
  | helmNotice (window kind : Nat) (code : Code)
  | helmFallback (handle : Nat)
  | completion (fn ring : Nat) (index : Word) (phase : Bool) (cmdHead : Word) (e : Cqe)
  | event (fn : Nat) (index : Word) (phase : Bool) (e : EvRec)
  | hostBytes (fn : Nat) (addr : DWord) (bytes : List Byte)
  | hostPayload (handle ringOff bytes : Nat)
  | picture (handle index : Nat)
  | hostFlush (fn : Nat) (addr : DWord)
  | hostRead (fn : Nat) (addr : DWord) (snoop : Bool)
  | snapshot (fn : Nat) (addr : DWord) (seq : Nat) (mark : Mark) (scope : Nat) (token : Word) (counters : List Nat)
  | bellOut
  | ppsOut (port : Nat)
  | thermtrip
  | line (req : ReqId) (mark : DWord) (bytes : List Byte) (poison : Bool)
  | ack (req : ReqId) (mark : DWord)
  | detour (req : ReqId) (mark : DWord)
  | poolReply (req : ReqId) (mark : DWord) (r : PoolReply)
  | queueBeats (queue : Nat) (beats : List (BitVec 256))
  | queueAbort (queue : Nat)
  | reserve (queue : Nat) (producer : PoolReq) (granted : Bool)
  | readData (value : Word)
  | apertureZeros (page : Nat)
  | rfm (channel bank : Nat)
  | refresh (channel : Nat) (dueTwice : Bool)
  | packet (port flow handle pt : Nat) (ssrc ts : Word) (index : Nat) (marker : Bool) (bytes : Nat)
  | senderReport (flow : Nat) (ssrc : Word) (index : Nat)
  | arpReply (port : Nat)
  | ptp (port : Nat)
  | link (msg : LinkOut)
  | altLink (msg : LinkOut)
  | altHeartbeat (pairBell : BitVec 40)
  | spdm (via : Spdm) (code : Nat) (body : SpdmBody)
  | i3cTelemetry (tj : BitVec 16) (pwr devState mapLo mapHi : Word)
  | i3cNonce (nonce : DWord)
  | i3cRefused
  | flashSaved
  deriving DecidableEq, Repr

/-- Why the machine stops. -/
inductive Fault where
  /-- Raised by a register write that changes a reserved bit (R562 calls the effect undefined within R3 and gives none): safe, since the
  model stops where the hardware goes on. -/
  | reservedBitWritten
  deriving DecidableEq, Repr

/-- Why the model has no answer. -/
inductive Refusal where
  /-- Raised by the dispatch for a command that has no meaning yet: safe. -/
  | notModelled (mnemonic : String)
  deriving DecidableEq, Repr

/-- The device (one line per block). pending is the queue of the commands that wait; deferred the session commands read in a Guard window
(R74); out what has left the device; freeCtr counts the free values drawn; ctxCache lists the bytes of the context cache (R295) that are not 0. -/
structure State where
  pending  : List Instr
  deferred : List Instr
  out      : List Out
  freeCtr  : Nat
  bell     : Bell
  dev      : Dev
  regif    : RegIf
  plan     : Plan
  quarters : NMap Quarter
  sess     : Sess
  sessions : NMap Session
  sched    : Sched
  ingest   : Ingest
  rc       : RcBlk
  memc     : Memc
  mem      : List Host.Cell
  ctxCache : List Host.Cell
  pool     : Pool
  queue    : QueueMgr
  vfCount  : Nat
  fns      : NMap Fn
  dma      : Dma
  irq      : Irq
  watches  : NMap Watch
  stalled  : List Nat
  tandem   : Tandem
  net      : Net
  dec      : DecBlk
  engines  : NMap Engine
  bist     : Bist
  sext     : Sext
  mclib    : McLib
  pwr      : Pwr
  sec      : Sec
  deriving DecidableEq, Repr

/-- A watch at reset (R498). -/
def Watch.reset : Watch :=
  { severe := 0, seen := 0, cfg := 0x02D00010, ie := 0x0000FFFF, last := 0, histSel := 0, hist := [], inject := 0, kinds := [] }

/-- An event queue at reset (R482). -/
def EvQ.reset : EvQ :=
  { base := 0, cfg := 4, en := false, reason := 0, head := 0, tail := 0, fault := false, overflow := false, lost := 0, dropped := 0,
    front := [] }

/-- A function window at reset (R377, R400, R402). -/
def Fn.reset : Fn := { cmd := [], cq := [], ev := EvQ.reset, stats := [], seq := 0 }

/-- A command ring at reset (R402). -/
def CmdRing.reset : CmdRing :=
  { base := 0, cfg := 4, en := false, reason := 0, tail := 0, head := 0, outstanding := 0, waiting := false }

/-- A completion ring at reset (R402). -/
def CqRing.reset : CqRing :=
  { base := 0, cfg := 4, en := false, reason := 0, head := 0, tail := 0, fault := false, front := [], unread := [] }

/-- A DMA channel at reset (R403). -/
def DmaCh.reset : DmaCh :=
  { en := false, owner := 0, chain := 0, state := 0, errKind := 0, errPend := none, reason := 0, cur := 0, done := 0, cmpOff := 0, retries := 0,
    dbCount := 0, tries := 0, busy := false, db := false, refetch := false, desc := none }

/-- A memory channel at reset (R344). -/
def Chan.reset : Chan :=
  { state := 0, spared := 0xF, pauseRank := 0, x2 := false, ce := 0, ue := 0, rfm := 0, throttle := 0, retrain := 0, caRetry := 0,
    rankCe := [], lastErr := 0, lastThr := 0, drift := 0, throttled := [], acts := [], vref := [], ueRows := [], copying := none, paused := false }

/-- A Quarter at reset (R69, R120). -/
def Quarter.reset : Quarter :=
  { en := false, state := 0, drain := none, pend := false, edge := false, isRezone := false, passed := none, reason := 0, detours := 0, sinks := 0,
    mark := none, planId := 0, mcSet := 0, weight := 0, lastLoad := 0, curLoad := 0, fbCount := 0, overcad := 0, shFrames := 0,
    shAband := 0, shMism := 0, credit := 0, shadow := none, nano := [], sram := [], work := [] }

/-- Nothing of a plan in force. -/
def PlanCfg.reset : PlanCfg :=
  { weights := [], counts := [], quotas := [], taskq := 0, flowq := 0, order := 0, gating := 0, gang := 1, moored := 0, spares := 0,
    sample := 0, headroom := 0, permil := 0 }

/-- The Bell generator at reset (R20, the SCHED_BELL registers). -/
def Bell.reset : Bell :=
  { cfg := 0, rateAct := false, srcAct := 0, num := 0, window := .dispatch, cut := false, holdover := false, lost := false, locked := true,
    phase := 0, missing := 0, rejected := 0, missRun := 0, missed := false, rejRun := [], slew := 0, markSeq := 0 }

/-- The DEV block at reset (R499, R533, R569): the device safe state is not entered and ERR_N is high. -/
def Dev.reset : Dev :=
  { safe := false, safeWindow := 0xFF, noDispatch := false, errDrive := false, errPulse := false, parityCount := 0, parityWin := 0xFF,
    latencyTol := 0, stopped := false, perstN := true, straps := 0 }

/-- The power controller at reset (R533). -/
def Pwr.reset : Pwr :=
  { reason := 0, cfg := 0x00081404, state := 0, target := 0, exiting := false, exitTo := 0, ext := false, level := 0,
    therm := 0x306C665F, therm2 := 0x000202D0, tj := 0, tjSensor := 0, sel := 0, temps := [], ignored := [], wakeCount := 0, entries := [],
    levelChg := 0, held := [], cool := 0, gated := [], aspmL1 := false }

/-- The PLAN block at reset (R68). -/
def Plan.reset : Plan :=
  { addr := 0, len := 0, stage := 0, reason := 0, srcAddr := 0, srcLen := 0, image := none, stagedId := 0, cmd := none, applySt := 0,
    applyQ := 0, accepted := false, acceptedAt := 0, releasing := [], rezoning := [], applyCur := none, applyRel := false, applying := none, activeId := 0, activeSvn := 0,
    digest := 0, first := false, cfg := PlanCfg.reset, districts := [], mc := [], priors := [], bist := [], digest1 := 0 }

/-- The SESS block at reset (R71, R81, R97): handles free in ascending order, the PF's fence indices free in ascending order. -/
def Sess.reset : Sess :=
  { en := false, reason := 0, wm := [(0, 0x2000), (1, 0x4000), (2, 0x40), (3, 0x80)], migrate := 0x02D00A01, demote := 0, pageIn := 0,
    pageOut := 0, migrated := 0, wakeDefer := 0, ctxSel := 0, ctxBusy := false, ctxDone := false, ctxValid := false, ctxCopy := [], fnLimit := [],
    free := [(0, 200000)], gens := [], fences := [(0, [(0, 4096)])], clock := 0, burst := false }

/-- The memory controller at reset (R343). -/
def Memc.reset : Memc :=
  { en := false, reason := 0, order := 0, dens32 := false, dpc := 0, ranks := 0, speed := 0, trainState := 0, trainSrc := 0, failMask := 0,
    initDone := false, initGib := 0, scrubCfg := 0x00001801, passes := 0, scrubPos := 0, rhCfg := 0x80000800, retireCfg := 4, table := [],
    retireSel := 0, pageCe := [], poison := [], chans := [] }

/-- The pool manager at reset (R369). -/
def Pool.reset : Pool :=
  { en := false, reason := 0, count := [], nextCount := none, free := [], bufs := [], gens := [], filling := [], gone := [], lay := [],
    claimFree := 1048576, allocCnt := 0, emptyCnt := 0, quotaCnt := 0, promoteCnt := 0, notOwner := 0, double := 0,
    lastReq := { kind := 0, index := 0 }, lastCode := 0, lastHandle := 0, quota := [], fnQuota := [], fnUse := [], fnMisuse := [],
    held := [], applied := [] }

/-- The queue manager at reset (R361, R370). -/
def QueueMgr.reset : QueueMgr :=
  { en := false, reason := 0, sel := 0, spillFree := 262144, slotsFree := 1280, queues := [], bp := 0, flushCnt := 0, abortCnt := 0,
    rejCnt := 0, spillBell := none, bad := 0 }

/-- The interrupt controller at reset (R464, R467, R481); the Mask bits read 1, as PCIe resets them (log entry 12). -/
def Irq.reset : Irq :=
  { reason := 0, spurious := 0, badComplete := 0, route := [], pend := [], forced := [], cond := [], insvc := [], disarmed := [],
    msgLevel := [], withdrawn := [], msix := [], pba := [] }

/-- The security block at reset (R545, R549, R557), with the fuses and the flash as log entry 6 names them. -/
def Sec.reset : Sec :=
  { stage := 0, bootReason := 0, cause := 0, reason := 0, dirInvalid := false, bootSlot := 0, helmFirst := 0, helmSlot := 0, bootSvn := 0, helmSvn := 0,
    accepted := [], vendorKey := [], ownerKeys := [], svn := [], ownerBits := 0, ownerHash := [], burning := none, ready := false, svnSel := 0, measSel := 0, pubSel := 0,
    fuseSvnReg := 0, ownerReg := 0, hashRegs := [], meas := [], pubs := [], keys := [], flash := [], flashAddr := 0, flashHost := 0,
    flashLen := 0, flashOp := none, flashErr := false, spdmDoe := 0, spdmI3c := 0, nonce := none }

/-- The Tandem port at reset (R461). -/
def Tandem.reset : Tandem :=
  { ctrl := 2, reason := 0, side := 0, state := 0, lanes := 0, altOk := false, linkOk := false, offset := 0, skew := 0, hbCfg := 0, altIp := [],
    violCfg := 0x02D00010, syncCfg := 25, cnt := [], viol := [], violTot := 0, violSel := 0, retryAt := none, waiting := [], seqOut := 0,
    sent := [], gotLink := false, gotAlt := false, missLink := 0, missBoth := 0, takeover := none, mismatch := [], dead := false,
    stopped := false, hbDue := false, hbSent := false, takeGo := false, violBells := [] }

/-- An Ethernet port at reset (R429). -/
def NetPort.reset : NetPort :=
  { cfg := 0x00001400, link := 0, macLo := 0, macHi := 0, ipv4 := 0, ipv6 := [], secLo := 0, secHi := 0, ns := 0, offset := 0, locked := false,
    v := [], ctl := [] }

/-- The network engine at reset (R429). -/
def Net.reset : Net :=
  { ctrl := 0x00000A00, reason := 0, cnt := [], ports := [], sel := 0, flows := [], rxqs := [], waiting := [] }

/-- An engine at reset (R313). -/
def Engine.reset : Engine :=
  { state := 0, role := 0, mcSet := 0, micro := [], pc := 0, saved := 0, sregs := [], savedS := [], vregs := [], z := false, n := false, c := false, v := false,
    lc := 0, stack := [], cl := 0, cmp := 0, lmem := [], seed := 0, staging := [], inMark := none, gap := 0, gapMax := 0, hwm := 0, marks := 0,
    busy := 0, busyNow := 0, faultKind := 0, faultCount := 0, evFault := 0, evRezone := 0, evDeadline := 0, evCancel := 0, unit := none,
    cancel := false, deadline := false, abandoned := false }

/-- BIST at reset (R516). -/
def Bist.reset : Bist :=
  { en := false, reason := 0, cfg := 0x00000301, head := 0, kept := [], lastFail := 0, cnt := [], slice := false, used := 0, out := [], failed := [],
    standIn := [], rot := [], scanOk := [] }

/-- Sextant at reset (R512, R517): a pair that values does not list is the fused factory value. -/
def Sext.reset : Sext :=
  { ctrl := 0, reason := 0, cfg := 1, clkOk := false, voltOk := false, next := 0, rounds := 0, sel := 0, values := [], held := none, staged := [],
    result := none, raw := [], stale := [], rejects := [], temps := [], accept := 0, reject := 0 }

/-- A decode session's state at OPEN_SESSION. -/
def Dec.reset : Dec :=
  { bind := none, held := [], nextOut := 0, chunks := [], part := none, nChunks := 0, nBytes := 0, peer := [], doneTs := none, nextSeq := none, queue := [],
    flush := none, synced := false, seq := none, seqBad := false, rasl := false, recover := none, outputs := 0, taint := false, frac := 0, latest := none, picNum := 0 }

/-- A session's Tandem state at OPEN_SESSION, for a role. -/
def TanSess.reset (role : Nat) : TanSess :=
  { role := role, live := false, acks := [], held := [], sync := none, landed := false, good := none, bad := false, shFrame := 0, shBands := 0,
    shLast := false, due := [], gap := false, recheck := none, run := [], handTo := false, slot0 := none, shDesc := 16, shMain := none, shSlot := none,
    unsent := [] }

/-- The machine right after reset (R554): PERST_N is high and stage ROM begins. -/
def State.reset : State :=
  { pending := [], deferred := [], out := [], freeCtr := 0, bell := Bell.reset, dev := Dev.reset,
    regif := { reason := 0, errLog := 0, errAddr := 0, errCount := 0, guardLast := 0, guardCount := 0, guardRej := 0, pending := [] },
    plan := Plan.reset, quarters := [], sess := Sess.reset, sessions := [],
    sched := { burst := 0x5E, effort := 0x1C200001, active := 0, ran := [], cuts := [], tasks := 0, fb := 0, overCad := 0, overFb := 0, defer := 0,
               forkDeny := 0, phaseSel := 0 },
    ingest := { en := false, reason := 0, stall := 1, pages := [], fenceOk := 0, fenceRej := 0, stray := 0, trunc := 0, lastRej := 0,
                lastFn := 0, doors := [], rejs := [] },
    rc := { en := false, reason := 0, fork := 0x10031301, adapt := 0x081A0564, model := 0x00204020, forks := 0, b1 := 0, replay := 0,
            reject := 0, direct := 0, filler := 0, down := 0, sel := 0 },
    memc := Memc.reset, mem := [], ctxCache := [], pool := Pool.reset, queue := QueueMgr.reset, vfCount := 0, fns := [],
    dma := { retryLimit := 3, hostFail := 0, chans := [] }, irq := Irq.reset, watches := [], stalled := [], tandem := Tandem.reset,
    net := Net.reset, dec := { en := false, reason := 0, cfg := 8, cnt := [], sel := 0 }, engines := [], bist := Bist.reset,
    sext := Sext.reset, mclib := { images := [], rejects := 0, sel := 0, lastRej := 0 }, pwr := Pwr.reset,
    sec := Sec.reset }

end Sys2Proof.Machine
end

