-- ==== Sys2Proof/Machine/Flags.lean ====
section
/-! DEFINITION. Bit fields of register words, saturating counters, the sparse maps, sorted sets and free lists that the meanings use. -/

namespace Sys2Proof.Machine

open Sys2Proof

/-- Field [hi:lo] of a word as a number. -/
def fld (w : Word) (hi lo : Nat) : Nat := w.toNat / 2 ^ lo % 2 ^ (hi - lo + 1)

/-- Bit i of a word. -/
def bit (w : Word) (i : Nat) : Bool := w.getLsbD i

/-- A word whose field at lo of the given width holds v, the rest 0. -/
def fldW (lo width v : Nat) : Word := BitVec.ofNat 32 (v % 2 ^ width * 2 ^ lo)

/-- A bit as a word at position i. -/
def bitW (i : Nat) (b : Bool) : Word := if b then BitVec.ofNat 32 (2 ^ i) else 0

/-- A number as a register word, saturating at 0xFFFF_FFFF (R570). -/
def satW (n : Nat) : Word := BitVec.ofNat 32 (min n 0xFFFFFFFF)

/-- A counter that saturates at 0xFFFF_FFFF rises by k. -/
def up (n k : Nat) : Nat := min (n + k) 0xFFFFFFFF

/-- A counter that saturates at 0xFFFF rises by 1. -/
def up16 (n : Nat) : Nat := min (n + 1) 0xFFFF

/-- A word with the bits of mask taken from v and the others kept. -/
def merge (old mask v : Word) : Word := (old &&& ~~~mask) ||| (v &&& mask)

/-- What a key reads as. -/
def look {α : Type} (m : NMap α) (k : Nat) : Option α :=
  match m with
  | [] => none
  | (i, a) :: t => if i = k then some a else look t k

/-- What a key reads as, with a default. -/
def lookD {α : Type} (m : NMap α) (k : Nat) (d : α) : α := (look m k).getD d

/-- The map with a key set: the keys stay strictly rising. -/
def put {α : Type} (m : NMap α) (k : Nat) (a : α) : NMap α :=
  match m with
  | [] => [(k, a)]
  | (i, b) :: t => if k < i then (k, a) :: (i, b) :: t else if i = k then (k, a) :: t else (i, b) :: put t k a

/-- The map without a key. -/
def del {α : Type} (m : NMap α) (k : Nat) : NMap α :=
  match m with
  | [] => []
  | (i, b) :: t => if i = k then t else (i, b) :: del t k

/-- The map with a listed key changed; an unlisted key stays unlisted. -/
def alter {α : Type} (m : NMap α) (k : Nat) (f : α → α) : NMap α :=
  match m with
  | [] => []
  | (i, b) :: t => if i = k then (i, f b) :: t else (i, b) :: alter t k f

/-- The map with a number counted up by j, saturating. -/
def bump (m : NMap Nat) (k j : Nat) : NMap Nat := put m k (up (lookD m k 0) j)

/-- Is n in a sorted set. -/
def has (l : List Nat) (n : Nat) : Bool := l.contains n

/-- A sorted set with n. -/
def addS (l : List Nat) (n : Nat) : List Nat :=
  match l with
  | [] => [n]
  | a :: t => if n < a then n :: a :: t else if a = n then a :: t else a :: addS t n

/-- A sorted set without n. -/
def remS (l : List Nat) (n : Nat) : List Nat := l.filter (fun a => a != n)

/-- The front of a free list of runs, and the list without it. -/
def popRun (l : List (Nat × Nat)) : Option (Nat × List (Nat × Nat)) :=
  match l with
  | [] => none
  | (a, n) :: t =>
    if n = 0 then popRun t else if n = 1 then some (a, t) else some (a, (a + 1, n - 1) :: t)

/-- A free list of runs with n at its back. -/
def pushRun (l : List (Nat × Nat)) (n : Nat) : List (Nat × Nat) :=
  match l with
  | [] => [(n, 1)]
  | [(a, k)] => if a + k = n ∧ 0 < k then [(a, k + 1)] else [(a, k), (n, 1)]
  | r :: t => r :: pushRun t n

/-- Does a free list hold n. -/
def inRuns (l : List (Nat × Nat)) (n : Nat) : Bool := l.any (fun r => decide (r.1 ≤ n) && decide (n < r.1 + r.2))

/-- A free list without n. -/
def cutRun (l : List (Nat × Nat)) (n : Nat) : List (Nat × Nat) :=
  match l with
  | [] => []
  | (a, k) :: t =>
    if a ≤ n ∧ n < a + k then
      (if n = a then [] else [(a, n - a)]) ++ (if n + 1 = a + k then [] else [(n + 1, a + k - (n + 1))]) ++ t
    else (a, k) :: cutRun t n

/-- How many a free list holds. -/
def runsLen (l : List (Nat × Nat)) : Nat := (l.map (fun r => r.2)).sum

/-- Ceiling division. -/
def cdiv (a b : Nat) : Nat := if a % b = 0 then a / b else a / b + 1

/-- a is older than b as serial numbers modulo 2^32 (chapter 9). -/
def older (a b : Nat) : Bool :=
  let d := (b + 2 ^ 32 - a % 2 ^ 32) % 2 ^ 32
  decide (1 ≤ d) && decide (d ≤ 2 ^ 31 - 1)

/-- The distance b − a modulo 2^32. -/
def since (a b : Nat) : Nat := (b + 2 ^ 32 - a % 2 ^ 32) % 2 ^ 32

/-- Bell distance modulo 2^40 from a to b. -/
def bellsFrom (a b : BitVec 40) : Nat := (b - a).toNat

/-- The issue slots of a Bell's Boulevard cycles at 600 Hz (R29): 4 × 3,333,334. -/
def markSlots : Nat := 13333336

/-- The idle issue slots before the k-th log mark of a Bell: a free count that never falls (R29, R30; log entry 3). -/
def markIdle (bell : BitVec 40) (k : Nat) : Nat :=
  match k with
  | 0 => Config.markTime bell 0 % markSlots
  | k + 1 => max (markIdle bell k) (Config.markTime bell (k + 1) % markSlots)

/-- The sub-sequence of the k-th log mark of a Bell (R29): its cycle and issue slot as one number, higher for each later mark (R30, R31). -/
def subSequence (bell : BitVec 40) (k : Nat) : BitVec 24 := BitVec.ofNat 24 (markIdle bell k + k)

/-- The 64-bit image of a log mark (R29). -/
def Mark.image (m : Mark) : DWord := m.bell ++ subSequence m.bell m.seq

/-- The two halves of a 64-bit value. -/
def loW (d : DWord) : Word := d.truncate 32

/-- See loW. -/
def hiW (d : DWord) : Word := (d >>> 32).truncate 32

/-- The earlier of two marks by Bell and then sub-sequence order. -/
def Mark.before (a b : Mark) : Bool :=
  decide (a.bell.toNat < b.bell.toNat) || (decide (a.bell = b.bell) && decide (a.seq < b.seq))

end Sys2Proof.Machine
end

