-- ==== Sys2Proof/Machine/Ops.lean ====
section
/-! DEFINITION. The named operations that every family uses: commands of a stopped device, log marks, free values, the output record,
interrupt sources, event records, completions, watch events, device memory. -/

namespace Sys2Proof.Machine

open Sys2Proof

/-- The answer of every command: a device whose clocks are stopped (R531) or that is held in reset by PERST_N (R554) does not act on it; any
other device takes the state f gives (log entry 1). -/
def live (s : State) (f : State → State) : Host.Outcome State Fault Refusal :=
  if s.dev.stopped || !s.dev.perstN then .next s else .next (f s)

/-- A command of a pin or of the board, which acts whatever the clocks do. -/
def always (s : State) (f : State → State) : Host.Outcome State Fault Refusal := .next (f s)

/-- s when a condition does not hold. -/
def when (c : Bool) (f : State → State) (s : State) : State := if c then f s else s

/-- A log mark is issued (R29, R32). -/
def takeMark (s : State) : Mark × State :=
  ({ bell := s.bell.num, seq := s.bell.markSeq }, { s with bell := { s.bell with markSeq := s.bell.markSeq + 1 } })

/-- The mark that takeMark issues next. -/
def nowMark (s : State) : Mark := { bell := s.bell.num, seq := s.bell.markSeq }

/-- The next mark, with the count moved past it. -/
def stamp (s : State) : State := (takeMark s).2

/-- A free value is drawn (log entry 4). -/
def takeFree (s : State) : Word × State := (Config.freeWord s.freeCtr, { s with freeCtr := s.freeCtr + 1 })

/-- Something leaves the device. -/
def emit (o : Out) (s : State) : State := { s with out := s.out ++ [o] }

/-- A function's window. -/
def fnOf (s : State) (f : Nat) : Fn := lookD s.fns f Fn.reset

/-- A function's window changed. -/
def setFn (s : State) (f : Nat) (g : Fn → Fn) : State := { s with fns := put s.fns f (g (fnOf s f)) }

/-- A watch. -/
def watchOf (s : State) (w : Nat) : Watch := lookD s.watches w Watch.reset

/-- A watch changed. -/
def setWatch (s : State) (w : Nat) (g : Watch → Watch) : State := { s with watches := put s.watches w (g (watchOf s w)) }

/-- A Quarter. -/
def qtrOf (s : State) (q : Nat) : Quarter := lookD s.quarters q Quarter.reset

/-- A Quarter changed. -/
def setQtr (s : State) (q : Nat) (g : Quarter → Quarter) : State := { s with quarters := put s.quarters q (g (qtrOf s q)) }

/-- A session changed, if it is not CLOSED. -/
def setSess (s : State) (h : Nat) (g : Session → Session) : State := { s with sessions := alter s.sessions h g }

/-- The sessions in a state of R84. -/
def inState (s : State) (st : Nat) : List (Nat × Session) := s.sessions.filter (fun p => p.2.state = st)

/-- A function that answers: the PF, or a VF while VF Enable is set (R372, R375). -/
def fnOn (s : State) (f : Nat) : Bool := decide (f = 0) || (decide (f ≤ s.vfCount) && decide (f ≤ 255))

/-- Is the device paired for ERR_N (R494): the TANDEM_EN strap, straps bit 2, is high and TANDEM_CTRL.ENABLE is 1. -/
def pairedPin (s : State) : Bool := s.dev.straps.testBit 2 && bit s.tandem.ctrl 0

/-! ### Interrupt sources (R462 to R474) -/

/-- The first source of a function (R462). -/
def fnSource (f k : Nat) : Nat := 0x0FE + 15 * f + k

/-- The function of a per-function source and its k. -/
def sourceFn (id : Nat) : Nat × Nat := ((id - 0x0FE) / 15, (id - 0x0FE) % 15)

/-- The kinds of source (R462). -/
inductive SrcKind where
  | pulse
  | level
  | reserved
  deriving DecidableEq, Repr

/-- The kind of a source ID (R462). -/
def srcKind (id : Nat) : SrcKind :=
  if id < 0x40 then .pulse
  else if id < 0x70 then .level
  else if id < 0x73 then .pulse
  else if id < 0xFE then .reserved
  else if id ≤ 0xFFD then
    (let k := (sourceFn id).2
     if k ≤ 8 then .level else if k ≤ 12 then .pulse else .reserved)
  else .reserved

/-- The routing of a source: what has been written, else the reset routing of R464. -/
def routeOf (s : State) (id : Nat) : Route :=
  match look s.irq.route id with
  | some r => r
  | none =>
    let f := (sourceFn id).1
    if 0xFE ≤ id ∧ 1 ≤ f ∧ f ≤ s.vfCount then { en := false, prio := 0, target := 0x1000 + 64 * f + (sourceFn id).2 }
    else { en := false, prio := 0, target := 0 }

/-- Pending, enabled, not in service, routed to t (R467, R468). -/
def claimable (s : State) (t id : Nat) : Bool :=
  has s.irq.pend id && (routeOf s id).en && decide ((routeOf s id).target = t) && (look s.irq.insvc id).isNone

/-- The source that a claim on t returns: the highest PRIO, the lower ID on a tie (R468). -/
def bestSource (s : State) (t : Nat) : Option Nat :=
  s.irq.pend.foldl (fun best id =>
    if claimable s t id then
      match best with
      | none => some id
      | some b => if (routeOf s b).prio < (routeOf s id).prio then some id else best
    else best) none

/-- The exit latencies of R522 in µs. -/
def exitLatency (st : Nat) : Nat := match st with | 0 => 0 | 1 => 2 | 2 => 50 | 3 => 2000 | _ => 40000

/-- A wake event (R525): an exit to Underway starts. From Hove-to the exit is within the Bell (R524). -/
def wake (s : State) : State :=
  if s.pwr.state = 0 then s
  else { s with pwr := { s.pwr with exiting := true, exitTo := 0, wakeCount := if s.pwr.exiting then s.pwr.wakeCount else up s.pwr.wakeCount 1 } }

/-- A source is set pending (R463, R471); an enabled one wakes the device (R474). -/
def setPend (id : Nat) (s : State) : State :=
  let s1 := { s with irq := { s.irq with pend := addS s.irq.pend id } }
  if (routeOf s id).en then wake s1 else s1

/-- A pulse source is asserted (R463). -/
def pulse (id : Nat) (s : State) : State := setPend id s

/-- A level source's condition is now c (R463): it becomes pending when the condition becomes true; when it becomes false before a claim it
withdraws, unless IRQ_PEND_SET set it (R472). A withdrawal is noted at every target whose last message found it pending (R469). -/
def setLevel (id : Nat) (c : Bool) (s : State) : State :=
  let was := has s.irq.cond id
  if c then
    if was then s else setPend id { s with irq := { s.irq with cond := addS s.irq.cond id } }
  else if was then
    let i1 := { s.irq with cond := remS s.irq.cond id }
    if has s.irq.pend id && !has s.irq.forced id then
      { s with irq := { i1 with pend := remS i1.pend id,
                                withdrawn := s.irq.msgLevel.foldl (fun l p => if has p.2 id then addS l p.1 else l) i1.withdrawn } }
    else { s with irq := i1 }
  else s

/-! ### Watches (R484 to R497) -/

/-- The interrupt condition of a watch (R492). -/
def watchCond (w : Watch) : Bool :=
  decide ((w.severe &&& w.ie.truncate 16) ≠ 0) || decide ((w.seen &&& (w.ie >>> 16).truncate 16) ≠ 0)

/-- The source of a watch follows its condition (R492). -/
def watchLevel (win : Nat) (s : State) : State := setLevel (0x40 + win) (watchCond (watchOf s win)) s

/-- The block windows by name (R572). -/
def winDev : Nat := 0
/-- See winDev. -/
def winSched : Nat := 3
/-- See winDev. -/
def winSess : Nat := 4
/-- See winDev. -/
def winPool : Nat := 8
/-- See winDev. -/
def winQueue : Nat := 9
/-- See winDev. -/
def winTandem : Nat := 12
/-- See winDev. -/
def winHelm : Nat := 14
/-- See winDev. -/
def winBist : Nat := 15
/-- See winDev. -/
def winSext : Nat := 16
/-- See winDev. -/
def winPwr : Nat := 17
/-- See winDev. -/
def winSec : Nat := 18
/-- See winDev. -/
def winMemc : Nat := 19
/-- The window of memory channel c. -/
def winChan (c : Nat) : Nat := 20 + c
/-- The window of Quarter q. -/
def winQtr (q : Nat) : Nat := 32 + q

/-- Is a kind of a watch direct (the tables of R487 and of the block chapters)? Kinds that no table names are counted. -/
def directKind (win kind : Nat) : Bool :=
  if kind = 15 then true
  else if kind = 14 then false
  else if 32 ≤ win then decide (kind = 1 ∨ kind = 2)
  else if winMemc ≤ win then decide (kind = 4 ∨ kind = 5)
  else if win = winPool then decide (kind = 1)
  else if win = winTandem then decide (kind ≤ 1)
  else if win = winBist then decide (kind = 3)
  else decide ((win = winDev ∨ win = winSched ∨ win = winHelm ∨ win = winSec ∨ win = winPwr) ∧ kind = 0)

/-- The kind's counts after an event at Bell b (R484). -/
def countEvent (k : KindCount) (b : BitVec 40) (window : Nat) : KindCount :=
  let tot := min (k.total + 1) 0xFFFFFF
  if k.count = 0 then { start := b, count := 1, total := tot }
  else if bellsFrom k.start b ≤ window - 1 then { k with count := min (k.count + 1) 255, total := tot }
  else { start := b, count := 1, total := tot }

/-- An event is counted, classified and recorded (R484 to R487, R491); the flag says that it starts the severe reaction, the second that it
is classified severe. -/
def recordEvent (win kind : Nat) (code : Code) (inj : Bool) (s : State) : (Bool × Bool) × State :=
  let w := watchOf s win
  let k0 := lookD w.kinds kind { start := 0, count := 0, total := 0 }
  let direct := directKind win kind
  let already := w.severe.getLsbD kind
  let k1 := if direct then { k0 with total := min (k0.total + 1) 0xFFFFFF } else countEvent k0 s.bell.num (fld w.cfg 31 16)
  let sev := direct || already || decide (fld w.cfg 7 0 ≤ k1.count)
  let (m, s1) := takeMark s
  let w1 := { w with
    seen := w.seen ||| (1#16 <<< kind), severe := if sev then w.severe ||| (1#16 <<< kind) else w.severe, last := kind,
    hist := ({ mark := m, kind := kind, severe := sev, inj := inj, code := code } :: w.hist).take 8, kinds := put w.kinds kind k1 }
  let s2 := watchLevel win { s1 with watches := put s1.watches win w1 }
  ((sev && !already, sev), s2)

/-- The device safe state is entered (R489): the FAULT notice leaves when paired, dispatch stops at the next Bell start. -/
def safeState (win : Nat) (s : State) : State :=
  if s.dev.safe then s
  else
    let s1 := { s with dev := { s.dev with safe := true, safeWindow := BitVec.ofNat 8 win } }
    if s.tandem.state = 3 then
      emit (.altLink .faultNotice) (emit (.link .faultNotice) { s1 with tandem := { s1.tandem with stopped := true } })
    else s1

/-- RETIRE of a Quarter (R57, R60): the drain target becomes RETIRED, or the Quarter is retired at once. -/
def retireQuarter (q : Nat) (s : State) : State :=
  let t := qtrOf s q
  if t.state = 1 ∨ t.state = 3 then setQtr s q (fun t => { t with drain := some 7, pend := decide (t.state = 1) || t.pend, isRezone := false })
  else if t.state = 2 ∨ t.state = 5 ∨ t.state = 6 then setQtr s q (fun t => { t with state := 7, drain := none, pend := false, isRezone := false })
  else s

/-- A fault event (R484): recorded; a severe classification posts a notice to Helm (R493) and, paired, starts an ERR_N pulse (R494); the
classification that makes the kind severe starts the reaction (R485). -/
def raise (win kind : Nat) (code : Code) (inj : Bool) (react : State → State) (s : State) : State :=
  let ((start, sev), s1) := recordEvent win kind code inj s
  let s2 := if sev then
      (let s2 := if s1.dev.safe then s1 else emit (.helmNotice win kind code) s1
       if pairedPin s2 then { s2 with dev := { s2.dev with errPulse := true } } else s2)
    else s1
  if start then react s2 else s2

/-! ### Statistics (R400) -/

/-- A statistic of a function's window rises. -/
def fnStat (f i n : Nat) (s : State) : State :=
  setFn s f (fun x => { x with stats := put x.stats i (min (lookD x.stats i 0 + n) (2 ^ 64 - 1)) })

/-- Statistic i of a session, and of its function, rises by n (R400). -/
def stat (h i n : Nat) (s : State) : State :=
  match look s.sessions h with
  | none => s
  | some x => fnStat x.fn i n (setSess s h (fun x => { x with stats := put x.stats i (min (lookD x.stats i 0 + n) (2 ^ 64 - 1)) }))

/-! ### Event records (R475 to R479) -/

/-- The ring's size. -/
def EvQ.size (e : EvQ) : Nat := 2 ^ fld e.cfg 4 0

/-- Has the event queue room (R479)? -/
def EvQ.room (e : EvQ) : Bool := e.en && !e.fault && decide ((e.tail - e.head).toNat < e.size)

/-- An event record is posted to a function: it waits in the queue's front, or is dropped and counted when 32 wait and the ring has no room
(R479). In the device safe state nothing is posted (R489). -/
def postRec (f : Nat) (r : EvRec) (s : State) : State :=
  if s.dev.safe then s
  else
    let e := (fnOf s f).ev
    if 32 ≤ e.front.length ∧ e.room = false then
      setFn s f (fun x => { x with ev := { e with lost := up e.lost 1, dropped := e.dropped + 1, overflow := true } })
    else setFn s f (fun x => { x with ev := { e with front := e.front ++ [r] } })

/-- An event record of a type with a payload, stamped now (R476, R477). -/
def post (f typ : Nat) (code : Code) (token : Word) (pay : List Word) (s : State) : State :=
  postRec f { typ := typ, code := code, token := token, pay := pay, mark := nowMark s } (stamp s)

/-- The session token (R70). -/
def tokenOf (h gen : Nat) : Word := BitVec.ofNat 32 (gen % 16384 * 2 ^ 18 + h % 2 ^ 18)

/-- A NOTICE record of a session (R477). -/
def notice (h : Nat) (code : Code) (s : State) : State :=
  match look s.sessions h with
  | none => s
  | some x => post x.fn 0 code (tokenOf h x.gen) [0, 0, 0, 0] s

/-! ### Completions (R381 to R386) -/

/-- A command ring. -/
def cmdOf (s : State) (f r : Nat) : CmdRing := lookD (fnOf s f).cmd r CmdRing.reset

/-- A completion ring. -/
def cqOf (s : State) (f r : Nat) : CqRing := lookD (fnOf s f).cq r CqRing.reset

/-- A command ring changed. -/
def setCmd (s : State) (f r : Nat) (g : CmdRing → CmdRing) : State := setFn s f (fun x => { x with cmd := put x.cmd r (g (lookD x.cmd r CmdRing.reset)) })

/-- A completion ring changed. -/
def setCq (s : State) (f r : Nat) (g : CqRing → CqRing) : State := setFn s f (fun x => { x with cq := put x.cq r (g (lookD x.cq r CqRing.reset)) })

/-- The completion ring of a command ring (CMDQ_CFG.CQ). -/
def cqNum (s : State) (f r : Nat) : Nat := fld (cmdOf s f r).cfg 10 8

/-- An entry joins the front of a completion ring (R385); nothing is posted in the device safe state (R489). -/
def enqueueCqe (f ring : Nat) (e : Cqe) (s : State) : State :=
  if s.dev.safe then s else setCq s f ring (fun q => { q with front := q.front ++ [e] })

/-- A command's completion: results r, status code, opcode (R381, R382). It waits for COMPLETION_POST. -/
def complete (h : Hdr) (opcode : Nat) (code : Code) (r : List Word) (s : State) : State :=
  enqueueCqe h.fn (cqNum s h.fn h.ring)
    { r0 := r.getD 0 0, r1 := r.getD 1 0, r2 := r.getD 2 0, r3 := r.getD 3 0, mark := none, cid := h.cid, status := code, opcode := opcode,
      cmdRing := h.ring, counts := true, bytes := none } s

/-- A refused command: the code, every RESULT 0 (R381). -/
def refuse (h : Hdr) (opcode : Nat) (code : Code) (s : State) : State := complete h opcode code [] s

/-! ### Device memory (R319, R336) -/

/-- What an unlisted byte of device memory reads as: initialisation writes zeros over the whole of usable capacity (R336). -/
def memDefault : Byte := 0

/-- A byte of a cell list in canonical form, d where no cell lists the address. -/
def rdCell (d : Byte) (m : List Host.Cell) (a : Nat) : Byte :=
  match m with
  | [] => d
  | (i, b) :: t => if i = a then b else rdCell d t a

/-- A cell list with a byte written: addresses stay strictly rising, and a byte equal to d is not listed. -/
def wrCell (d : Byte) (m : List Host.Cell) (a : Nat) (v : Byte) : List Host.Cell :=
  match m with
  | [] => if v = d then [] else [(a, v)]
  | (i, b) :: t =>
    if a < i then (if v = d then (i, b) :: t else (a, v) :: (i, b) :: t)
    else if i = a then (if v = d then t else (a, v) :: t)
    else (i, b) :: wrCell d t a v

/-- Bytes written from an address up. -/
def wrCells (d : Byte) (m : List Host.Cell) (a : Nat) (bs : List Byte) : List Host.Cell :=
  match bs with
  | [] => m
  | b :: t => wrCells d (wrCell d m a b) (a + 1) t

/-- n bytes read from an address up. -/
def rdCells (d : Byte) (m : List Host.Cell) (a n : Nat) : List Byte := (List.range n).map (fun k => rdCell d m (a + k))

/-- The canonical form of a cell list whose unlisted bytes read d. -/
def cellsWf (d : Byte) (m : List Host.Cell) : Bool :=
  match m with
  | [] => true
  | [(_, v)] => v != d
  | (a, v) :: (b, w) :: t => decide (a < b) && (v != d) && cellsWf d ((b, w) :: t)

/-- The canonical form of device memory. -/
def Memory.wf (m : List Host.Cell) : Bool := cellsWf memDefault m

/-- A byte of device memory. -/
def readMem (s : State) (a : Nat) : Byte := rdCell memDefault s.mem a

/-- Bytes written to device memory. -/
def writeMem (a : Nat) (bs : List Byte) (s : State) : State := { s with mem := wrCells memDefault s.mem a bs }

/-- The capacity of a rank in bytes (R318); GB is 10^9 bytes, as the parked-capacity example counts it (log entry 9). -/
def rankCap (s : State) : Nat := (if s.memc.dens32 then 64 else 32) * 10 ^ 9

/-- Usable ranks per channel: one is left out while a spare is held (R318, R329). -/
def usableRanks (s : State) : Nat := s.memc.dpc * s.memc.ranks - (if bit s.memc.retireCfg 8 then 1 else 0)

/-- Usable capacity in bytes (R318). -/
def capacity (s : State) : Nat := 12 * usableRanks s * rankCap s

/-- The reserved base: the top 4 GiB of usable capacity (R319). -/
def reservedBase (s : State) : Nat := capacity s - 4 * 2 ^ 30

/-- The Depot record of a handle (R84, R319). -/
def recordAt (s : State) (h : Nat) : Nat := reservedBase s + 4096 * h

/-- Reconstruction work buffer i of Quarter q (R170, R319). -/
def workAt (s : State) (q i : Nat) : Nat := reservedBase s + (784 + 64 * q + i) * 2 ^ 20

/-- ENT output buffer i of Quarter q (R198, R319). -/
def outBufAt (s : State) (q i : Nat) : Nat := reservedBase s + 1808 * 2 ^ 20 + (512 * q + i) * 2 ^ 17

/-- The Street Plan staging buffer (R52, R319). -/
def stageAt (s : State) : Nat := reservedBase s + 2832 * 2 ^ 20

/-- The microcode image library (R305, R319). -/
def libraryAt (s : State) : Nat := reservedBase s + 2836 * 2 ^ 20

/-- n bytes of device memory from an address up. -/
def memBytes (s : State) (a n : Nat) : List Byte := rdCells memDefault s.mem a n

end Sys2Proof.Machine
end

