-- ==== Sys2Proof/Machine/Operands.lean ====
section
/-! DEFINITION. The forms in which commands bring their operands: register writes with their reserved bits (R562) and access
ports (R376), and the checks of a session command's header and token (R70, R72, R73, R74). -/

namespace Sys2Proof.Machine

open Sys2Proof

/-- A register write whose reserved bits are those of resv (every reserved bit of the manual reads 0): a write that changes one has no effect
that the spec gives (R562); any other write does f. -/
def regWrite (resv v : Word) (s : State) (f : State → State) : Host.Outcome State Fault Refusal :=
  if s.dev.stopped || !s.dev.perstN then .next s
  else if v &&& resv ≠ 0 then .fault .reservedBitWritten
  else .next (f s)

/-- In stage ROM and after a failed boot only the DEV and SEC windows answer (R543, R544): a write to any other block has no effect. -/
def answers (s : State) : Bool := decide (1 ≤ s.sec.stage) && decide (s.sec.stage ≤ 4)

/-- A register write of a block that answers from stage LOAD on. Every PCIe request that reaches a BAR is a wake event (R525). -/
def blockWrite (resv v : Word) (s : State) (f : State → State) : Host.Outcome State Fault Refusal :=
  regWrite resv v s (fun s => if answers s then f (wake s) else s)

/-- A register write of the DEV or SEC block, which answers in every stage (R543, R544). -/
def devWrite (resv v : Word) (s : State) (f : State → State) : Host.Outcome State Fault Refusal :=
  regWrite resv v s (fun s => f (wake s))

/-- A register write in the window of function fn (R375, R376). -/
def fnWrite (fn : Nat) (resv v : Word) (s : State) (f : State → State) : Host.Outcome State Fault Refusal :=
  blockWrite resv v s (fun s => if fnOn s fn then f s else s)

/-- The session that a token names for a command of function fn (R70): handle and session. -/
def tokenSession (s : State) (fn : Nat) (token : Word) : Option (Nat × Session) :=
  let h := fld token 17 0
  match look s.sessions h with
  | none => none
  | some x => if x.gen % 16384 = fld token 31 18 ∧ x.fn = fn then some (h, x) else none

/-- The same for PARK, RESUME and CLOSE, which the PF may issue for any session (R72). -/
def tokenSessionPf (s : State) (fn : Nat) (token : Word) : Option (Nat × Session) :=
  let h := fld token 17 0
  match look s.sessions h with
  | none => none
  | some x => if x.gen % 16384 = fld token 31 18 ∧ (x.fn = fn ∨ fn = 0) then some (h, x) else none

/-- A session command (R74): in a Guard window it waits for the next Bell start; else it does f, after the checks of the port (R375, R376) and
of SESS_CTRL.ENABLE (0x020D). -/
def sessionCmd (i : Instr) (h : Hdr) (opcode : Nat) (s : State) (f : State → State) : Host.Outcome State Fault Refusal :=
  live s (fun s =>
    if !fnOn s h.fn then s
    else if s.bell.window = .guard then { s with deferred := s.deferred ++ [i] }
    else if !s.sess.en then refuse h opcode 0x020D s
    else f s)

/-- A command that is no session command (R74): it takes effect when it is read. -/
def plainCmd (h : Hdr) (s : State) (f : State → State) : Host.Outcome State Fault Refusal :=
  live s (fun s => if fnOn s h.fn then f s else s)

/-- A session command on the session its TOKEN names; any other token is refused with 0x0201 (R70). -/
def onToken (h : Hdr) (opcode : Nat) (s : State) (f : Nat → Session → State → State) : State :=
  match tokenSession s h.fn h.token with
  | none => refuse h opcode 0x0201 s
  | some (n, x) => f n x s

/-- An event of a session that is not CLOSED; for any other handle it does not come about. -/
def onSession (n : Nat) (s : State) (f : Session → State → State) : Host.Outcome State Fault Refusal :=
  live s (fun s => match look s.sessions n with | none => s | some x => f x s)

/-- The index of the first list position where p holds. -/
def findIdx? {α : Type} (p : α → Bool) (l : List α) : Option Nat := (l.findIdx? p)

end Sys2Proof.Machine
end

