-- ==== Sys2Proof/Machine/Irq.lean ====
section
/-! DEFINITION. Interrupts (R462 to R474, R481, R482). -/

namespace Sys2Proof.Machine

open Sys2Proof

/-- The target of a vector of a function (R464). -/
def vectorTarget (f v : Nat) : Nat := if f = 0 then v else 0x1000 + 64 * f + v

/-- Is t the vector of a VF, and whose? -/
def targetVf (t : Nat) : Option Nat := if 0x1040 ≤ t ∧ t ≤ 0x4FFF then some ((t - 0x1000) / 64) else none

/-- Is t a PF vector or a Helm core (R464)? -/
def targetPf (t : Nat) : Bool := decide (t ≤ 0x803)

/-- The VF whose source this is, or that owns the TENANT channel whose source it is (R465). -/
def sourceVf (s : State) (id : Nat) : Option Nat :=
  if id < 48 then
    (let o := (lookD s.dma.chans id DmaCh.reset).owner
     if bit o 8 ∧ fld o 7 0 ≠ 0 then some (fld o 7 0) else none)
  else if 0xFE ≤ id then (let f := (sourceFn id).1; if f = 0 then none else some f)
  else none

/-- May a PF write route source id to t (R465)? -/
def routeOk (s : State) (id t : Nat) : Bool :=
  targetPf t || (match targetVf t with | none => false | some f => decide (sourceVf s id = some f))

/-- An MSI-X table entry; its Mask bit resets to 1 (log entry 12). -/
def msixOf (s : State) (t : Nat) : MsixEntry := lookD s.irq.msix t { addrLo := 0, addrHi := 0, data := 0, mask := true }

/-- The message of a target leaves: the MSI-X write of its vector, or the core's interrupt line (R467). -/
def message (t : Nat) (s : State) : State :=
  if 0x800 ≤ t ∧ t ≤ 0x803 then emit (.helmIrq (t - 0x800)) s else emit (.msi t) s

/-- A target's message is issued when it is armed and a claimable source stands (R467). While its vector is masked the PBA bit is set instead
(R473). None is issued while an exit is in progress (R474). -/
def issueMessage (t : Nat) (s : State) : State :=
  if has s.irq.disarmed t || (bestSource s t).isNone || s.pwr.exiting then s
  else
    let lv := s.irq.pend.filter (fun id => claimable s t id && decide (srcKind id = .level))
    let s1 := { s with irq := { s.irq with disarmed := addS s.irq.disarmed t, msgLevel := put s.irq.msgLevel t lv,
                                           withdrawn := remS s.irq.withdrawn t } }
    if !(decide (0x800 ≤ t) && decide (t ≤ 0x803)) && (msixOf s t).mask then
      { s1 with irq := { s1.irq with pba := addS s1.irq.pba t } }
    else message t s1

/-- IRQ_MESSAGE (R467). -/
def execIrqMessage (target : Nat) (s : State) : Host.Outcome State Fault Refusal := live s (issueMessage target)

/-- A claim on a target (R467 to R469): the ID that the read returns, and the state after it. -/
def claimAt (t : Nat) (s : State) : Nat × State :=
  let i0 := { s.irq with disarmed := remS s.irq.disarmed t, msgLevel := del s.irq.msgLevel t, withdrawn := remS s.irq.withdrawn t }
  match bestSource s t with
  | some id =>
    (id, { s with irq := { i0 with pend := remS i0.pend id, forced := remS i0.forced id, insvc := put i0.insvc id t } })
  | none =>
    if has s.irq.withdrawn t then (0xFFE, { s with irq := { i0 with spurious := up i0.spurious 1 } })
    else (0xFFF, { s with irq := i0 })

/-- A read of a claim register. -/
def readClaim (t : Nat) (s : State) : State :=
  let (id, s1) := claimAt t s
  emit (.readData (BitVec.ofNat 32 id)) s1

/-- IRQ_CLAIM: a read of the claim register of a target 0x000 to 0x803 (R468, R481). -/
def execIrqClaim (target : Nat) (s : State) : Host.Outcome State Fault Refusal :=
  live s (fun s => if target ≤ 0x803 ∧ answers s then readClaim target (wake s) else s)

/-- A complete on a target (R470). -/
def completeAt (t id : Nat) (s : State) : State :=
  if look s.irq.insvc id = some t then
    let s1 := { s with irq := { s.irq with insvc := del s.irq.insvc id } }
    if has s.irq.cond id then setPend id s1 else s1
  else { s with irq := { s.irq with badComplete := up s.irq.badComplete 1 } }

/-- IRQ_COMPLETE (R470). -/
def execIrqComplete (target : Nat) (value : Word) (s : State) : Host.Outcome State Fault Refusal :=
  blockWrite 0xFFFFF000 value s (fun s => if target ≤ 0x803 then completeAt target (fld value 11 0) s else s)

/-- A source is set pending by software (R472). -/
def forcePend (id : Nat) (s : State) : State :=
  setPend id (if srcKind id = .level then { s with irq := { s.irq with forced := addS s.irq.forced id } } else s)

/-- IRQ_PEND_SET (R472). -/
def execIrqPendSet (value : Word) (s : State) : Host.Outcome State Fault Refusal :=
  blockWrite 0xFFFFF000 value s (fun s =>
    if srcKind (fld value 11 0) = .reserved then { s with irq := { s.irq with reason := 0x0415 } }
    else forcePend (fld value 11 0) s)

/-- The routing that a word gives. -/
def routeOfWord (v : Word) (target : Nat) : Route := { en := bit v 31, prio := fld v 30 28, target := target }

/-- A source's routing is set. -/
def setRoute (id : Nat) (r : Route) (s : State) : State := { s with irq := { s.irq with route := put s.irq.route id r } }

/-- A write of a function's interrupt register is refused: the code goes to EVQ_REASON of the window (R482). -/
def evqRefuse (fn : Nat) (code : Code) (s : State) : State := setFn s fn (fun x => { x with ev := { x.ev with reason := code } })

/-- IRQ_SRC_CFG_WRITE, a write of the PF (R464 to R466). -/
def execIrqSrcCfgWrite (id : Nat) (value : Word) (s : State) : Host.Outcome State Fault Refusal :=
  blockWrite 0x01FF0000 value s (fun s =>
    if srcKind id = .reserved then { s with irq := { s.irq with reason := 0x0415 } }
    else if !routeOk s id (fld value 15 0) then { s with irq := { s.irq with reason := 0x0414 } }
    else setRoute id (routeOfWord value (fld value 15 0)) s)

/-- A write of a source's configuration through the window of function fn (R465, R482). -/
def fnRouteWrite (fn id : Nat) (value : Word) (s : State) : State :=
  if fn = 0 then
    if routeOk s id (fld value 15 0) then setRoute id (routeOfWord value (fld value 15 0)) s else evqRefuse fn 0x0414 s
  else if targetVf (routeOf s id).target = some fn then setRoute id (routeOfWord value (vectorTarget fn (fld value 5 0))) s
  else evqRefuse fn 0x0414 s

/-- FN_IRQ_SRC_CFG_WRITE (R482). -/
def execFnIrqSrcCfgWrite (fn src : Nat) (value : Word) (s : State) : Host.Outcome State Fault Refusal :=
  fnWrite fn (if fn = 0 then 0x01FF0000 else 0x01FE0000) value s (fun s =>
    if 12 < src then evqRefuse fn 0x0415 s else fnRouteWrite fn (fnSource fn src) value s)

/-- The channel of DMA slot k of a function: its k-th TENANT channel in ascending order (R377). -/
def slotChannel (s : State) (fn k : Nat) : Option Nat :=
  ((List.range 48).filter (fun c => bit (lookD s.dma.chans c DmaCh.reset).owner 8 &&
    decide (fld (lookD s.dma.chans c DmaCh.reset).owner 7 0 = fn)))[k]?

/-- FN_IRQ_DMA_CFG_WRITE (R482); a slot that holds no channel takes no write. -/
def execFnIrqDmaCfgWrite (fn src : Nat) (value : Word) (s : State) : Host.Outcome State Fault Refusal :=
  fnWrite fn (if fn = 0 then 0x01FF0000 else 0x01FE0000) value s (fun s =>
    match (if src < 8 then slotChannel s fn src else none) with
    | none => s
    | some c => fnRouteWrite fn c value s)

/-- FN_IRQ_CLAIM: exists only in a VF window (R482). -/
def execFnIrqClaim (fn vec : Nat) (s : State) : Host.Outcome State Fault Refusal :=
  live s (fun s => if 1 ≤ fn ∧ fnOn s fn = true ∧ vec < 64 ∧ answers s = true then readClaim (vectorTarget fn vec) (wake s) else s)

/-- FN_IRQ_COMPLETE (R470, R482). -/
def execFnIrqComplete (fn vec : Nat) (value : Word) (s : State) : Host.Outcome State Fault Refusal :=
  fnWrite fn 0xFFFFF000 value s (fun s => if 1 ≤ fn ∧ vec < 64 then completeAt (vectorTarget fn vec) (fld value 11 0) s else s)

/-- FN_IRQ_PEND_SET (R472, R482). -/
def execFnIrqPendSet (fn : Nat) (value : Word) (s : State) : Host.Outcome State Fault Refusal :=
  fnWrite fn 0xFFFFFFF0 value s (fun s =>
    if 12 < fld value 3 0 then evqRefuse fn 0x0415 s else forcePend (fnSource fn (fld value 3 0)) s)

/-- A vector is masked or unmasked; a message that is due leaves when it is unmasked (R473). -/
def setMask (t : Nat) (m : Bool) (s : State) : State :=
  let s1 := { s with irq := { s.irq with msix := put s.irq.msix t { msixOf s t with mask := m } } }
  if !m && has s.irq.pba t then message t { s1 with irq := { s1.irq with pba := remS s1.irq.pba t } } else s1

/-- MSIX_MASK_WRITE (R473): a vector of the PF's table or of a VF's. -/
def execMsixMaskWrite (fn vec : Nat) (mask : Bool) (s : State) : Host.Outcome State Fault Refusal :=
  live s (fun s =>
    if fnOn s fn && decide (vec < (if fn = 0 then 2048 else 64)) && answers s then setMask (vectorTarget fn vec) mask (wake s) else s)

/-! ### Event queues (R475 to R479) -/

/-- The event queue's level source follows its indices (R462). -/
def evqLevel (fn : Nat) (s : State) : State := setLevel (fnSource fn 8) (decide ((fnOf s fn).ev.tail ≠ (fnOf s fn).ev.head)) s

/-- A write of EVQ_CTRL.ENABLE (R475, R479). A queue that stopped with FAULT is enabled again by a write of 1. -/
def evqEnable (fn : Nat) (on : Bool) (s : State) : State :=
  let e := (fnOf s fn).ev
  if on then
    if e.en ∧ e.fault = false then s
    else if 4 ≤ fld e.cfg 4 0 ∧ fld e.cfg 4 0 ≤ 16 then
      evqLevel fn (setFn s fn (fun x => { x with ev := { x.ev with en := true, fault := false, head := 0, tail := 0 } }))
    else evqRefuse fn 0x0404 s
  else if e.en then
    let n := e.front.length
    setFn s fn (fun x => { x with ev := { x.ev with en := false, front := [], lost := up x.ev.lost n, dropped := x.ev.dropped + n,
                                                    overflow := x.ev.overflow || decide (0 < n) } })
  else s

/-- EVQ_CTRL_WRITE (R475). -/
def execEvqCtrlWrite (fn : Nat) (value : Word) (s : State) : Host.Outcome State Fault Refusal :=
  fnWrite fn 0xFFFFFFFE value s (evqEnable fn (bit value 0))

/-- EVQ_HEAD_DB (R384, R475). -/
def execEvqHeadDb (fn : Nat) (value : Word) (s : State) : Host.Outcome State Fault Refusal :=
  fnWrite fn 0 value s (fun s =>
    let e := (fnOf s fn).ev
    if (value - e.head).toNat ≤ (e.tail - e.head).toNat then
      evqLevel fn (setFn s fn (fun x => { x with ev := { x.ev with head := value } }))
    else evqRefuse fn 0x0605 s)

/-- PHASE of entry i of a ring of the given size (R383). -/
def phaseOf (i : Word) (size : Nat) : Bool := decide (i.toNat / size % 2 = 0)

/-- EVENT_RECORD_POST (R476, R479): the next waiting record is written, then the OVERFLOW record; ok is false when the write fails after its
retries. -/
def execEventRecordPost (fn : Nat) (ok : Bool) (s : State) : Host.Outcome State Fault Refusal :=
  live s (fun s =>
    let e := (fnOf s fn).ev
    let size := e.size
    if s.dev.safe || !e.room then s
    else if !ok then
      (match e.front, e.dropped with
       | [], 0 => s
       | _, _ => { setFn s fn (fun x => { x with ev := { x.ev with fault := true } }) with
                   dma := { s.dma with hostFail := up s.dma.hostFail 1 } })
    else
      match e.front with
      | r :: t =>
        evqLevel fn (emit (.event fn e.tail (phaseOf e.tail size) r)
          (setFn s fn (fun x => { x with ev := { x.ev with front := t, tail := e.tail + 1 } })))
      | [] =>
        if e.dropped = 0 then s
        else
          let (m, s1) := takeMark s
          evqLevel fn (emit (.event fn e.tail (phaseOf e.tail size)
              { typ := 6, code := 0x0413, token := 0, pay := [satW e.dropped, 0, 0, 0], mark := m })
            (setFn s1 fn (fun x => { x with ev := { x.ev with tail := e.tail + 1, dropped := 0, overflow := false } }))))

end Sys2Proof.Machine
end

