-- ==== Sys2Proof/Machine/Pool.lean ====
section
/-! DEFINITION. The pool manager (R345 to R358, R369). -/

namespace Sys2Proof.Machine

open Sys2Proof

/-- The buffer size of a class (R345). -/
def classSize (c : Nat) : Nat := match c with | 0 => 2048 | 1 => 16384 | 2 => 131072 | 3 => 1048576 | _ => 8388608

/-- A buffer's key: class and index. -/
def bufKey (c i : Nat) : Nat := c * 2 ^ 25 + i

/-- A handle's class, generation and index (R346). -/
def hClass (h : Word) : Nat := fld h 31 29
/-- See hClass. -/
def hGen (h : Word) : Nat := fld h 28 25
/-- See hClass. -/
def hIndex (h : Word) : Nat := fld h 24 0

/-- The handle of a buffer (R346). -/
def mkHandle (c gen i : Nat) : Word := fldW 29 3 c ||| fldW 25 4 gen ||| fldW 0 25 i

/-- Well formed (R346). -/
def wellFormed (s : State) (h : Word) : Bool := decide (hClass h ≤ 4) && decide (hIndex h < lookD s.pool.count (hClass h) 0)

/-- The allocated buffer that a current handle names (R346). -/
def currentBuf (s : State) (h : Word) : Option Buf :=
  if wellFormed s h then
    match look s.pool.bufs (bufKey (hClass h) (hIndex h)) with
    | none => none
    | some b => if b.gen = hGen h then some b else none
  else none

/-- The device address of a buffer (R351). -/
def bufAddr (s : State) (c i : Nat) : Nat :=
  match s.pool.lay.find? (fun r => decide (r.1 = c) && decide (r.2.1 ≤ i) && decide (i < r.2.1 + r.2.2.1)) with
  | none => 0
  | some r => r.2.2.2 + (i - r.2.1) * classSize c

/-- The buffers, as class and index, that meet a 4 KiB page. -/
def bufsOfPage (s : State) (page : Nat) : List (Nat × Nat) :=
  s.pool.lay.flatMap (fun r =>
    let sz := classSize r.1
    let a := page * 4096
    if r.2.2.2 ≤ a ∧ a < r.2.2.2 + r.2.2.1 * sz then
      let i := r.2.1 + (a - r.2.2.2) / sz
      if sz = 2048 then [(r.1, i), (r.1, i + 1)] else [(r.1, i)]
    else [])

/-- The key of a requester's holding in a class. -/
def heldKey (who : PoolReq) (c : Nat) : Nat := (who.kind * 2 ^ 20 + who.index) * 8 + c

/-- The function that a requester is charged to (R348): a session's opener, a VF itself. -/
def chargedFn (s : State) (who : PoolReq) : Option Nat :=
  if who.kind = 0 then (look s.sessions who.index).map (fun x => x.fn)
  else if who.kind = 1 then some who.index else none

/-- POOL_FN_QUOTA: what has been written, else QUOTA[1] of the applied plan (R347). -/
def fnQuota (s : State) (f c : Nat) : Nat := lookD s.pool.fnQuota (f * 8 + c) (lookD s.pool.quota (5 + c) 0)

/-- Do the quotas allow one more buffer of class c? The code of the refusal otherwise (R349 step 2). -/
def quotaCode (s : State) (who : PoolReq) (c : Nat) : Option Code :=
  if who.kind ≠ 1 ∧ lookD s.pool.quota (who.kind * 5 + c) 0 ≤ lookD s.pool.held (heldKey who c) 0 then some 0x0502
  else
    match chargedFn s who with
    | none => none
    | some f =>
      if fnQuota s f c ≤ lookD s.pool.fnUse (f * 8 + c) 0 then some (if who.kind = 1 then 0x0502 else 0x0503) else none

/-- The longest-free buffer of class c is taken (R350, R353). -/
def takeBuf (s : State) (who : PoolReq) (c : Nat) : Option (Word × State) :=
  if !s.pool.en then none
  else
    match popRun (lookD s.pool.free c []) with
    | none => none
    | some (i, rest) =>
      let g := lookD s.pool.gens (bufKey c i) 0
      let f := (chargedFn s who).getD 0
      let b : Buf := { gen := g, owner := who, fn := f, hold := true, refs := 1, recs := [], secret := false,
                       charged := true }
      let p := s.pool
      some (mkHandle c g i,
        { s with pool := { p with
            free := put p.free c rest, bufs := put p.bufs (bufKey c i) b, gens := del p.gens (bufKey c i),
            held := if who.kind = 1 then p.held else put p.held (heldKey who c) (lookD p.held (heldKey who c) 0 + 1),
            fnUse := if who.kind ≤ 1 then put p.fnUse (f * 8 + c) (lookD p.fnUse (f * 8 + c) 0 + 1) else p.fnUse,
            allocCnt := up p.allocCnt 1 } })

/-- A refused allocation is counted (R349, statistic 24 of R400). -/
def allocRefused (who : PoolReq) (code : Code) (s : State) : State :=
  let s1 := if code = 0x0501 then { s with pool := { s.pool with emptyCnt := up s.pool.emptyCnt 1 } }
            else if code = 0x0502 ∨ code = 0x0503 then { s with pool := { s.pool with quotaCnt := up s.pool.quotaCnt 1 } } else s
  if who.kind = 0 then stat who.index 24 1 s1 else s1

/-- The smallest class that holds a size (R349 step 1). -/
def classFor (size : Nat) : Nat := if size ≤ 2048 then 0 else if size ≤ 16384 then 1 else if size ≤ 131072 then 2 else if size ≤ 1048576 then 3 else 4

/-- An allocation (R349): the handle, or the code of its refusal, with the state after it. -/
def allocate (who : PoolReq) (size : Nat) (promote : Bool) (s : State) : Except Code Word × State :=
  if size = 0 ∨ 8388608 < size then (.error 0x0504, allocRefused who 0x0504 s)
  else
    let c := classFor size
    match quotaCode s who c with
    | some code => (.error code, allocRefused who code s)
    | none =>
      match takeBuf s who c with
      | some (h, s1) => (.ok h, s1)
      | none =>
        if promote && decide (c < 4) && (quotaCode s who (c + 1)).isNone then
          match takeBuf s who (c + 1) with
          | some (h, s1) => (.ok h, { s1 with pool := { s1.pool with promoteCnt := up s1.pool.promoteCnt 1 } })
          | none => (.error 0x0501, allocRefused who 0x0501 s)
        else (.error 0x0501, allocRefused who 0x0501 s)

/-- n buffers of one size, all or none: what was taken is given back by the caller when it fails. -/
def allocMany (who : PoolReq) (size : Nat) (n : Nat) (s : State) : Except Code (List Word) × State :=
  match n with
  | 0 => (.ok [], s)
  | n + 1 =>
    match allocate who size false s with
    | (.error e, s1) => (.error e, s1)
    | (.ok h, s1) =>
      match allocMany who size n s1 with
      | (.error e, s2) => (.error e, s2)
      | (.ok l, s2) => (.ok (h :: l), s2)

/-- A buffer is freed (R353): its generation rises, its quotas are uncredited, and it joins the free list, unless its page is retired (R328)
or it held protected data, whose fill must end first (R266, R350). -/
def freeBuf (c i : Nat) (b : Buf) (s : State) : State :=
  let p := s.pool
  let k := bufKey c i
  let g := (b.gen + 1) % 16
  { s with pool := { p with
      bufs := del p.bufs k, gens := if g = 0 then del p.gens k else put p.gens k g,
      held := if b.owner.kind ≠ 1 ∧ b.charged then put p.held (heldKey b.owner c) (lookD p.held (heldKey b.owner c) 0 - 1) else p.held,
      fnUse := if b.owner.kind ≤ 1 then put p.fnUse (b.fn * 8 + c) (lookD p.fnUse (b.fn * 8 + c) 0 - 1) else p.fnUse,
      filling := if b.secret then addS p.filling k else p.filling,
      free := if b.secret || has p.gone k then p.free else put p.free c (pushRun (lookD p.free c []) i) } }

/-- A misused handle is recorded and counted (R355). -/
def misuse (who : PoolReq) (code : Code) (h : Word) (s : State) : State :=
  let p := s.pool
  let s1 := { s with pool := { p with
      lastReq := who, lastCode := code, lastHandle := h, double := if code = 0x050A then up p.double 1 else p.double,
      notOwner := if code = 0x050A then p.notOwner else up p.notOwner 1 } }
  if code = 0x050A then s1
  else if who.kind = 0 then stat who.index 25 1 s1
  else if who.kind = 1 then { s1 with pool := { s1.pool with fnMisuse := bump s1.pool.fnMisuse who.index 1 } }
  else raise winPool 0 code false (safeState winPool) s1

/-- The claim record of a claimant on a buffer. -/
def recOf (b : Buf) (who : PoolReq) : Option (Nat × Nat) :=
  (b.recs.find? (fun r => decide (r.2.1 = who))).map (fun r => (r.1, r.2.2))

/-- The lowest free claim record number (R354). -/
def freeRec (b : Buf) : Option Nat := ((List.range 63).map (fun k => k + 1)).find? (fun k => (look b.recs k).isNone)

/-- The buffer a handle names, changed. -/
def setBuf (h : Word) (b : Buf) (s : State) : State :=
  { s with pool := { s.pool with bufs := put s.pool.bufs (bufKey (hClass h) (hIndex h)) b } }

/-- A claim (R354): the token, or the code of its refusal. -/
def claimBuf (who : PoolReq) (h : Word) (s : State) : Except Code Nat × State :=
  if !wellFormed s h then (.error 0x0505, s)
  else
    match currentBuf s h with
    | none => (.error 0x0506, s)
    | some b =>
      match recOf b who with
      | some (t, n) =>
        if 65535 ≤ b.refs then (.error 0x0508, s)
        else (.ok t, setBuf h { b with refs := b.refs + 1, recs := put b.recs t (who, n + 1) } s)
      | none =>
        match freeRec b with
        | none => (.error 0x0507, s)
        | some t =>
          if s.pool.claimFree = 0 then (.error 0x0507, s)
          else if 65535 ≤ b.refs then (.error 0x0508, s)
          else (.ok t, setBuf h { b with refs := b.refs + 1, recs := put b.recs t (who, 1) }
                  { s with pool := { s.pool with claimFree := s.pool.claimFree - 1 } })

/-- A buffer whose count fell to refs is kept or, at 0, freed (R353). -/
def settleBuf (h : Word) (b : Buf) (s : State) : State :=
  if b.refs = 0 then freeBuf (hClass h) (hIndex h) b s else setBuf h b s

/-- A release (R355). -/
def releaseBuf (who : PoolReq) (h : Word) (token : Nat) (s : State) : PoolReply × State :=
  if !wellFormed s h then (.refused 0x0505, misuse who 0x0505 h s)
  else
    match currentBuf s h with
    | none => (.ignored, misuse who 0x050A h s)
    | some b =>
      if token = 0 ∧ b.owner = who then
        if b.hold then (.done, settleBuf h { b with hold := false, refs := b.refs - 1 } s) else (.ignored, misuse who 0x050A h s)
      else
        match look b.recs token with
        | none => (.refused 0x0509, misuse who 0x0509 h s)
        | some (c, n) =>
          if c = who then
            let b1 := { b with refs := b.refs - 1, recs := if n ≤ 1 then del b.recs token else put b.recs token (who, n - 1) }
            (.done, settleBuf h b1 (if n ≤ 1 then { s with pool := { s.pool with claimFree := s.pool.claimFree + 1 } } else s))
          else (.refused 0x0509, misuse who 0x0509 h s)

/-- The state after a release. -/
def drop (who : PoolReq) (h : Word) (token : Nat) (s : State) : State := (releaseBuf who h token s).2

/-- Owner holds released in turn. -/
def dropAll (who : PoolReq) (hs : List Word) (s : State) : State := hs.foldl (fun s h => drop who h 0 s) s

/-- The buffers that a closing session still owns stay charged to its function alone (R353). -/
def unchargeSession (n : Nat) (s : State) : State :=
  let who : PoolReq := { kind := 0, index := n }
  { s with pool := { s.pool with
      bufs := s.pool.bufs.map (fun e => (e.1, if e.2.owner = who then { e.2 with charged := false } else e.2)),
      held := s.pool.held.filter (fun e => !(decide (heldKey who 0 ≤ e.1) && decide (e.1 ≤ heldKey who 7))) } }

/-- The operations applied in the last 2 Bells (R358). -/
def keptOps (s : State) : List (ReqId × DWord × BitVec 40 × PoolReply) :=
  s.pool.applied.filter (fun e => decide (bellsFrom e.2.2.1 s.bell.num ≤ 2))

/-- An operation of a requester ID and log mark: a kept pair gets its first reply again and applies nothing (R358). -/
def pooled (id : PoolId) (op : State → PoolReply × State) (s : State) : State :=
  match (keptOps s).find? (fun e => decide (e.1 = id.req) && decide (e.2.1 = id.mark)) with
  | some e => emit (.poolReply id.req id.mark e.2.2.2) s
  | none =>
    let (r, s1) := op s
    emit (.poolReply id.req id.mark r)
      { s1 with pool := { s1.pool with applied := keptOps s1 ++ [(id.req, id.mark, s1.bell.num, r)] } }

/-- ALLOCATE (R349). -/
def execAllocate (id : PoolId) (who : PoolReq) (size : Nat) (promote : Bool) (s : State) : Host.Outcome State Fault Refusal :=
  live s (pooled id (fun s =>
    match allocate who size promote s with
    | (.ok h, s1) => (.handle h, s1)
    | (.error e, s1) => (.refused e, s1)))

/-- CLAIM (R354). -/
def execClaim (id : PoolId) (who : PoolReq) (buf : Word) (s : State) : Host.Outcome State Fault Refusal :=
  live s (pooled id (fun s =>
    match claimBuf who buf s with
    | (.ok t, s1) => (.token t, s1)
    | (.error e, s1) => (.refused e, s1)))

/-- RELEASE (R355). -/
def execRelease (id : PoolId) (who : PoolReq) (buf : Word) (token : Nat) (s : State) : Host.Outcome State Fault Refusal :=
  live s (pooled id (releaseBuf who buf token))

/-- Classes laid out from a device address up, in ascending class order (R351). -/
def layFrom (counts : NMap Nat) (a : Nat) (cs : List Nat) : List (Nat × Nat × Nat × Nat) :=
  match cs with
  | [] => []
  | c :: t => (c, 0, lookD counts c 0, a) :: layFrom counts (a + lookD counts c 0 * classSize c) t

/-- The end of the pool region in force (R351). -/
def poolEnd (s : State) : Nat := (s.pool.lay.map (fun r => r.2.2.2 + r.2.2.1 * classSize r.1)).foldl max 0

/-- The pool is laid out from device address 0 with the given counts, every buffer free once initialisation has passed (R350, R351). -/
def layPool (counts : NMap Nat) (s : State) : State :=
  { s with pool := { s.pool with
      count := counts, nextCount := none, lay := layFrom counts 0 [0, 1, 2, 3, 4],
      free := if s.memc.initDone then counts.map (fun e => (e.1, [(0, e.2)])) else [] } }

/-- Buffers of raised classes are appended after the end of the region, in ascending class order (R351). -/
def appendPool (counts : NMap Nat) (s : State) : State :=
  [0, 1, 2, 3, 4].foldl (fun s c =>
    let old := lookD s.pool.count c 0
    let new := lookD counts c 0
    if new ≤ old then s
    else
      { s with pool := { s.pool with
          lay := s.pool.lay ++ [(c, old, new - old, poolEnd s)], count := put s.pool.count c new,
          free := if s.memc.initDone then put s.pool.free c (lookD s.pool.free c [] ++ [(old, new - old)]) else s.pool.free } }) s

/-- The buffers of the present layout that lie on retired pages. -/
def retiredBufs (s : State) : List Nat :=
  ((s.memc.table.filter (fun r => decide (r.page * 4096 < reservedBase s))).flatMap (fun r => bufsOfPage s r.page)).foldl
    (fun l b => addS l (bufKey b.1 b.2)) []

/-- After a new layout, the buffers that lie on retired pages are on no free list (R328, R350). -/
def settleRetired (s : State) : State :=
  let l := retiredBufs s
  { s with pool := { s.pool with
      gone := l, free := s.pool.free.map (fun e => (e.1, (l.filter (fun k => decide (k / 2 ^ 25 = e.1))).foldl (fun r k => cutRun r (k % 2 ^ 25)) e.2)) } }

/-- POOL_RELAYOUT (R351): at a Bell start with no buffer allocated, and none that waits for its fill (R266), lowered counts come into force. -/
def relayout (s : State) : State :=
  match s.pool.nextCount with
  | none => s
  | some c => if s.pool.bufs.isEmpty && s.pool.filling.isEmpty then settleRetired (layPool c s) else s

/-- POOL_RELAYOUT (R351). -/
def execPoolRelayout (s : State) : Host.Outcome State Fault Refusal := live s relayout

/-- POOL_CTRL_WRITE (R369): setting is checked for 0x050B, clearing for 0x050D. -/
def poolCtrl (on : Bool) (s : State) : State :=
  if on = s.pool.en then s
  else if on then
    if s.memc.en && s.plan.first then { s with pool := { s.pool with en := true } } else { s with pool := { s.pool with reason := 0x050B } }
  else if s.pool.bufs.isEmpty then { s with pool := { s.pool with en := false } }
  else { s with pool := { s.pool with reason := 0x050D } }

/-- POOL_CTRL_WRITE (R369). -/
def execPoolCtrlWrite (value : Word) (s : State) : Host.Outcome State Fault Refusal :=
  blockWrite 0xFFFFFFFE value s (poolCtrl (bit value 0))

/-- POOL_FN_QUOTA_WRITE (R369). -/
def execPoolFnQuotaWrite (fn cls : Nat) (value : Word) (s : State) : Host.Outcome State Fault Refusal :=
  blockWrite 0xFE000000 value s (fun s =>
    if 255 < fn ∨ 4 < cls then s
    else if lookD s.pool.count cls 0 < fld value 24 0 then { s with pool := { s.pool with reason := 0x050C } }
    else { s with pool := { s.pool with fnQuota := put s.pool.fnQuota (fn * 8 + cls) (fld value 24 0) } })

end Sys2Proof.Machine
end

