-- ==== Sys2Proof/Machine/Memory.lean ====
section
/-! DEFINITION. The memory system (R316 to R344). -/

namespace Sys2Proof.Machine

open Sys2Proof

/-- Where a device address lies (R320). -/
structure DramLoc where
  ch   : Nat
  rank : Nat
  sub  : Nat
  bg   : Nat
  bank : Nat
  row  : Nat
  bi   : Nat
  deriving DecidableEq, Repr

/-- Bits [hi:lo] of an offset. -/
def bitsOf (o hi lo : Nat) : Nat := o / 2 ^ lo % 2 ^ (hi - lo + 1)

/-- The interleave granule of an order (R320). -/
def granule (order : Nat) : Nat := match order with | 0 => 256 | 1 => 2048 | 2 => 64 | _ => 8192

/-- The address map of R320. -/
def dramLoc (order cap : Nat) (dens32 : Bool) (a : Nat) : DramLoc :=
  let g := granule order
  let p := a / g / 12 * g + a % g
  let o := p % cap
  let row := bitsOf o (if dens32 then 35 else 34) 19
  match order with
  | 0 => { ch := a / g % 12, rank := p / cap, sub := bitsOf o 8 8, bg := Nat.xor (bitsOf o 11 9) (row % 8),
           bank := Nat.xor (bitsOf o 13 12) (row / 8 % 4), row := row, bi := bitsOf o 18 14 * 4 + bitsOf o 7 6 }
  | 1 => { ch := a / g % 12, rank := p / cap, sub := bitsOf o 11 11, bg := bitsOf o 14 12, bank := bitsOf o 16 15, row := row,
           bi := bitsOf o 18 17 * 32 + bitsOf o 10 6 }
  | 2 => { ch := a / g % 12, rank := p / cap, sub := bitsOf o 6 6, bg := Nat.xor (bitsOf o 9 7) (row % 8),
           bank := Nat.xor (bitsOf o 11 10) (row / 8 % 4), row := row, bi := bitsOf o 18 12 }
  | _ => { ch := a / g % 12, rank := p / cap, sub := bitsOf o 13 13, bg := bitsOf o 16 14, bank := bitsOf o 18 17, row := row,
           bi := bitsOf o 12 6 }

/-- The place of a device address under the map in force. -/
def locOf (s : State) (a : Nat) : DramLoc := dramLoc s.memc.order (rankCap s) s.memc.dens32 a

/-- A channel. -/
def chanOf (s : State) (c : Nat) : Chan := lookD s.memc.chans c Chan.reset

/-- A channel changed. -/
def setChan (s : State) (c : Nat) (g : Chan → Chan) : State :=
  { s with memc := { s.memc with chans := put s.memc.chans c (g (chanOf s c)) } }

/-- Does a channel serve requests: SERVICE or SPARING (R330, R343, R344)? -/
def chanUp (s : State) (c : Nat) : Bool := s.memc.en && (decide ((chanOf s c).state = 3) || decide ((chanOf s c).state = 5))

/-- A record of the device in the PF's event queue. -/
def deviceEvent (code : Code) (s : State) : State := post 0 0 code 0 [0, 0, 0, 0] s

/-- The copy of a failing rank into the spare starts when the spare is unused (R329, R330). -/
def startSpare (ch rank : Nat) (s : State) : State :=
  let c := chanOf s ch
  if bit s.memc.retireCfg 8 ∧ c.spared = 0xF ∧ c.copying = none then
    setChan s ch (fun c => { c with copying := some rank, state := 5 })
  else s

/-- A retired page is withdrawn from use by the region it lies in (R328). -/
def withdraw (page : Nat) (s : State) : State :=
  let a := page * 4096
  if a < reservedBase s then
    (bufsOfPage s page).foldl (fun s b =>
      let k := bufKey b.1 b.2
      { s with pool := { s.pool with gone := addS s.pool.gone k,
                                     free := put s.pool.free b.1 (cutRun (lookD s.pool.free b.1 []) b.2) } }) s
  else
    let off := a - reservedBase s
    let mib := 2 ^ 20
    if off < 200000 * 4096 then s
    else if 784 * mib ≤ off ∧ off < 2832 * mib then s
    else raise winMemc 5 0x0E0B false (fun s => s) s

/-- A page is retired (R327): an entry of the table, a record, its withdrawal; with the table full, a severe event with 0x0E0D. -/
def retirePage (page ch rank cause : Nat) (s : State) : State :=
  if s.memc.table.any (fun e => decide (e.page = page)) then s
  else if 1024 ≤ s.memc.table.length then raise winMemc 5 0x0E0D false (fun s => s) s
  else
    withdraw page (deviceEvent 0x0E0B
      { s with memc := { s.memc with table := s.memc.table ++ [{ page := page, ch := ch, rank := rank, cause := cause }] } })

/-- MEMC_CH_LAST_ERR (R344). -/
def lastErrWord (ue : Bool) (l : DramLoc) (device : Nat) : Word :=
  bitW 31 ue ||| fldW 28 3 l.rank ||| fldW 27 1 l.sub ||| fldW 24 3 l.bg ||| fldW 22 2 l.bank ||| fldW 18 4 device ||| fldW 0 17 l.row

/-- A corrected error (R324, R327, R330). -/
def countCe (a device : Nat) (s : State) : State :=
  let l := locOf s a
  let page := a / 4096
  let n := lookD s.memc.pageCe page 0 + 1
  let s1 := setChan s l.ch (fun c => { c with ce := up c.ce 1, rankCe := bump c.rankCe l.rank 1, lastErr := lastErrWord false l device })
  let s2 := { s1 with memc := { s1.memc with pageCe := put s1.memc.pageCe page n } }
  let s3 := raise (winChan l.ch) 0 0 false (startSpare l.ch l.rank) s2
  if fld s.memc.retireCfg 3 0 ≤ n then retirePage page l.ch l.rank 1 s3 else s3

/-- An uncorrectable error (R325, R327, R330): the line is poisoned, its page retired; a second row of the rank spares it. -/
def countUe (a cause : Nat) (s : State) : State :=
  let l := locOf s a
  let c := chanOf s l.ch
  let twoRows := match look c.ueRows l.rank with | none => false | some r => decide (r ≠ l.row)
  let s1 := setChan s l.ch (fun c => { c with ue := up c.ue 1, lastErr := lastErrWord true l 0xF, ueRows := put c.ueRows l.rank l.row })
  let s2 := { s1 with memc := { s1.memc with poison := addS s1.memc.poison (a / 64) } }
  let s3 := raise (winChan l.ch) 1 0x0E0A false (startSpare l.ch l.rank) s2
  let s4 := retirePage (a / 4096) l.ch l.rank cause s3
  if twoRows then startSpare l.ch l.rank s4 else s4

/-- A row's activation (R333): it is flagged at its THRESHOLD-th in the window or earlier; a flag issues an RFM, throttles and counts. -/
def activate (req : ReqId) (a : Nat) (early raa : Bool) (s : State) : State :=
  let l := locOf s a
  let key := (((l.rank * 2 + l.sub) * 8 + l.bg) * 4 + l.bank) * 2 ^ 17 + l.row
  let n := lookD (chanOf s l.ch).acts key 0 + 1
  let s0 := if raa then emit (.rfm l.ch (l.bg * 4 + l.bank)) (setChan s l.ch (fun c => { c with rfm := up c.rfm 1 })) else s
  if fld s.memc.rhCfg 13 0 ≤ n ∨ early = true then
    let thr := bit s.memc.rhCfg 31
    raise (winChan l.ch) 2 0 false (fun s => s)
      (emit (.rfm l.ch (l.bg * 4 + l.bank)) (setChan s0 l.ch (fun c => { c with
        rfm := up c.rfm 1, acts := put c.acts key 0, throttle := up c.throttle 1,
        throttled := if thr then put c.throttled req.toNat 64 else c.throttled,
        lastThr := fldW 22 10 req.toNat ||| fldW 19 3 l.rank ||| fldW 18 1 l.sub ||| fldW 15 3 l.bg ||| fldW 13 2 l.bank ||| bitW 0 thr })))
  else setChan s0 l.ch (fun c => { c with acts := put c.acts key n })

/-- A read of the 64-byte line that holds an address (R322 to R325): its bytes, whether it is poisoned, and the state. -/
def readLine (req : ReqId) (a : Nat) (ecc : Ecc) (act early raa : Bool) (s : State) : (List Byte × Bool) × State :=
  let base := a / 64 * 64
  let s1 := if act then activate req a early raa s else s
  let data := rdCells memDefault s.mem base 64
  if has s.memc.poison (a / 64) then ((data, true), s1)
  else
    match ecc with
    | .clean => ((data, false), s1)
    | .corrected d => ((data, false), countCe base d s1)
    | .uncorrectable => ((data, true), countUe base 0 s1)

/-- A write inside one line (R322, R325): a full line clears poison; a partial one is a read-modify-write and keeps it. -/
def writeLine (req : ReqId) (a : Nat) (bs : List Byte) (ecc : Ecc) (act early raa : Bool) (s : State) : State :=
  let s1 := if act then activate req a early raa s else s
  if a % 64 = 0 ∧ bs.length = 64 then
    writeMem a bs { s1 with memc := { s1.memc with poison := remS s1.memc.poison (a / 64) } }
  else
    let s2 := if has s1.memc.poison (a / 64) then s1
      else match ecc with | .clean => s1 | .corrected d => countCe a d s1 | .uncorrectable => countUe a 0 s1
    writeMem a bs s2

/-- RETRAIN_PAUSE (R337 to R339): drift in 1/256 UI, vref the move toward the measured centre, at most one step. -/
def execRetrainPause (ch : Nat) (drift vref : Int) (s : State) : Host.Outcome State Fault Refusal :=
  live s (fun s =>
    let c := chanOf s ch
    let r := c.pauseRank
    let old := lookD c.vref r 0
    let new := old + max (-1) (min 1 vref)
    if s.bell.window ≠ .guard ∨ s.bell.num.toNat % 256 ≠ 16 * ch % 256 ∨ 12 ≤ ch ∨ !chanUp s ch ∨ 3 ≤ s.pwr.state ∨ c.paused then s
    else
      let okay := decide (drift.natAbs ≤ 32) && decide (new.natAbs ≤ 4)
      let kept := if okay then new else old
      let s1 := setChan s ch (fun c => { c with
        paused := true, retrain := up c.retrain 1, pauseRank := (r + 1) % max 1 (s.memc.dpc * s.memc.ranks), vref := put c.vref r kept,
        drift := fldW 16 8 (kept % 256).toNat ||| fldW 0 16 (drift % 65536).toNat })
      if okay then s1 else raise (winChan ch) 3 0 false (fun s => s) s1)

/-- CA_PARITY_ERROR (R326, R341): failed attempts of one error; the first two retries are counted, a third failed attempt fails the
channel. -/
def execCaParityError (ch failed : Nat) (s : State) : Host.Outcome State Fault Refusal :=
  live s (fun s =>
    if 12 ≤ ch ∨ failed = 0 then s
    else
      let s1 := setChan s ch (fun c => { c with caRetry := up c.caRetry (min failed 2) })
      if 3 ≤ failed then
        raise (winChan ch) 4 0 false (fun s => safeState (winChan ch) (setChan s ch (fun c => { c with state := 6 }))) s1
      else s1)

/-- RANK_SPARE_COPY_DONE (R330). -/
def execRankSpareCopyDone (ch : Nat) (s : State) : Host.Outcome State Fault Refusal :=
  live s (fun s =>
    match (chanOf s ch).copying with
    | none => s
    | some r => deviceEvent 0x0E0C (setChan s ch (fun c => { c with copying := none, spared := r, state := 3 })))

/-- REFRESH_INTERVAL (R331, R333): same-bank refreshes of the interval; the intervals left of every throttle fall by 1. -/
def execRefreshInterval (ch : Nat) (s : State) : Host.Outcome State Fault Refusal :=
  live s (fun s =>
    if chanUp s ch then
      emit (.refresh ch (chanOf s ch).x2) (setChan s ch (fun c => { c with throttled := c.throttled.map (fun e => (e.1, e.2 - 1)) }))
    else s)

/-- DIMM_TEMP_POLL (R331): tREFI halves while a DIMM reports more than 85 °C. -/
def execDimmTempPoll (ch : Nat) (hot : Bool) (s : State) : Host.Outcome State Fault Refusal :=
  live s (fun s => if chanUp s ch then setChan s ch (fun c => { c with x2 := hot }) else s)

/-- TRACKER_WINDOW_RESET (R333). -/
def execTrackerWindowReset (ch : Nat) (s : State) : Host.Outcome State Fault Refusal :=
  live s (fun s => if ch < 12 then setChan s ch (fun c => { c with acts := [] }) else s)

/-- THROTTLE_EXPIRY (R333): the 64 intervals of a throttled requester have passed. -/
def execThrottleExpiry (ch : Nat) (req : ReqId) (s : State) : Host.Outcome State Fault Refusal :=
  live s (fun s =>
    if look (chanOf s ch).throttled req.toNat = some 0 then
      setChan s ch (fun c => { c with
        throttled := del c.throttled req.toNat,
        lastThr := if fld c.lastThr 31 22 = req.toNat then merge c.lastThr 1 0 else c.lastThr })
    else s)

/-- DRAM_INIT_DONE (R336, R350): initialisation has passed the pool region, and its buffers join their free lists in ascending order. -/
def execDramInitDone (s : State) : Host.Outcome State Fault Refusal :=
  live s (fun s =>
    if s.memc.initDone ∨ s.sec.stage < 3 ∨ 4 < s.sec.stage then s
    else
      { s with
        memc := { s.memc with initDone := true, initGib := capacity s / 2 ^ 30 }
        pool := { s.pool with free := s.pool.count.map (fun e =>
          (e.1, (s.pool.gone.filter (fun k => decide (k / 2 ^ 25 = e.1))).foldl (fun l k => cutRun l (k % 2 ^ 25)) [(0, e.2)])) } })

/-- SCRUB_READ (R340): the patrol's next line. -/
def execScrubRead (ecc : Ecc) (s : State) : Host.Outcome State Fault Refusal :=
  live s (fun s =>
    if !bit s.memc.scrubCfg 0 || !s.memc.en || decide (3 ≤ s.pwr.state) then s
    else
      let a := s.memc.scrubPos * 64
      let s1 := if has s.memc.poison s.memc.scrubPos then s
        else match ecc with | .clean => s | .corrected d => countCe a d s | .uncorrectable => countUe a 2 s
      if capacity s ≤ a + 64 then { s1 with memc := { s1.memc with scrubPos := 0, passes := up16 s1.memc.passes } }
      else { s1 with memc := { s1.memc with scrubPos := s.memc.scrubPos + 1 } })

/-- An accepted guarded write of MEMC_MAP, or boot firmware's (R321). -/
def setMap (value : Word) (s : State) : State :=
  if s.memc.en then { s with memc := { s.memc with reason := 0x0E06 } } else { s with memc := { s.memc with order := fld value 1 0 } }

/-- MEMC_MAP_WRITE (R321). -/
def execMemcMapWrite (value : Word) (s : State) : Host.Outcome State Fault Refusal := blockWrite 0xFFFFFFFC value s (setMap value)

/-- MEMC_CTRL.ENABLE is set or cleared (R343). -/
def memcCtrl (on : Bool) (s : State) : State :=
  if on = s.memc.en then s
  else if !on then { s with memc := { s.memc with reason := 0x0E06 } }
  else if s.memc.trainState = 2 then
    { s with memc := { s.memc with en := true, chans := s.memc.chans.map (fun e => (e.1, if e.2.state = 6 then e.2 else { e.2 with state := 3 })) } }
  else { s with memc := { s.memc with reason := 0x0E0E } }

/-- MEMC_CTRL_WRITE (R343). -/
def execMemcCtrlWrite (value : Word) (s : State) : Host.Outcome State Fault Refusal := blockWrite 0xFFFFFFFE value s (memcCtrl (bit value 0))

end Sys2Proof.Machine
end

