-- ==== Sys2Proof/Machine/Host.lean ====
section
/-! DEFINITION. The host interface: command and completion rings (R378 to R387), DMA channels (R388 to R395, R403) and snapshots (R399). -/

namespace Sys2Proof.Machine

open Sys2Proof

/-! ### Rings -/

/-- SIZE of a ring (R378). -/
def ringSize (cfg : Word) : Nat := 2 ^ fld cfg 4 0

/-- Does the base and size of a ring pass the first check of R378? -/
def ringCfgOk (base : DWord) (cfg : Word) : Bool :=
  decide (base.toNat % 4096 = 0) && decide (4 ≤ fld cfg 4 0) && decide (fld cfg 4 0 ≤ 16)

/-- CMDQ_CTRL.ENABLE of ring r (R378). -/
def cmdqEnable (fn r : Nat) (on : Bool) (s : State) : State :=
  let q := cmdOf s fn r
  let no (code : Code) : State := setCmd s fn r (fun q => { q with reason := code })
  if on = q.en then s
  else if !on then setCmd s fn r (fun q => { q with en := false, waiting := false })
  else if !ringCfgOk q.base q.cfg then no 0x0404
  else if !(cqOf s fn (fld q.cfg 10 8)).en then no 0x0405
  else if q.outstanding ≠ 0 then no 0x0406
  else setCmd s fn r (fun q => { q with en := true, head := 0, tail := 0 })

/-- CMDQ_CTRL_WRITE (R378). -/
def execCmdqCtrlWrite (fn ring : Nat) (value : Word) (s : State) : Host.Outcome State Fault Refusal :=
  fnWrite fn 0xFFFFFFFE value s (fun s => if ring < 8 then cmdqEnable fn ring (bit value 0) s else s)

/-- Does an enabled command ring, or a session's notices, use completion ring r of a function (R378)? -/
def cqUsed (s : State) (fn r : Nat) : Bool :=
  (fnOf s fn).cmd.any (fun e => e.2.en && decide (fld e.2.cfg 10 8 = r)) ||
  s.sessions.any (fun e => decide (e.2.fn = fn) &&
    ((decide (e.2.openCq = r) && decide (e.2.hdr.fn = fn)) || (match e.2.ht with | none => false | some t => decide (t.cq = r))))

/-- The level source of a completion ring holds while entries wait for the host (R462). -/
def cqLevel (fn r : Nat) (s : State) : State := setLevel (fnSource fn r) (decide ((cqOf s fn r).tail ≠ (cqOf s fn r).head)) s

/-- CQ_CTRL.ENABLE of ring r (R378, R385). -/
def cqEnable (fn r : Nat) (on : Bool) (s : State) : State :=
  let q := cqOf s fn r
  let no (code : Code) : State := setCq s fn r (fun q => { q with reason := code })
  if on = q.en then s
  else if !on then
    if cqUsed s fn r then no 0x0406 else setCq s fn r (fun q => { q with en := false })
  else if !ringCfgOk q.base q.cfg then no 0x0404
  else cqLevel fn r (setCq s fn r (fun q => { q with en := true, head := 0, tail := 0, fault := false, unread := [] }))

/-- CQ_CTRL_WRITE (R378, R385). -/
def execCqCtrlWrite (fn ring : Nat) (value : Word) (s : State) : Host.Outcome State Fault Refusal :=
  fnWrite fn 0xFFFFFFFE value s (fun s => if ring < 8 then cqEnable fn ring (bit value 0) s else s)

/-- CMDQ_TAIL_DB (R379). -/
def execCmdqTailDb (fn ring : Nat) (value : Word) (s : State) : Host.Outcome State Fault Refusal :=
  fnWrite fn 0 value s (fun s =>
    if 8 ≤ ring then s
    else
      let q := cmdOf s fn ring
      if (q.tail - q.head).toNat ≤ (value - q.head).toNat ∧ (value - q.head).toNat ≤ ringSize q.cfg then
        setCmd s fn ring (fun q => { q with tail := value })
      else setCmd s fn ring (fun q => { q with reason := 0x0605 }))

/-- Has a completion ring room (R385)? -/
def cqRoom (q : CqRing) : Bool := q.en && !q.fault && decide ((q.tail - q.head).toNat < ringSize q.cfg)

/-- Is the completion ring full, so that the command rings that complete into it stop being read (R385)? -/
def cqFull (q : CqRing) : Bool := decide (ringSize q.cfg ≤ (q.tail - q.head).toNat)

/-- COMMAND_FETCH (R380): up to 8 entries are read; fence is header bit FENCE of the first of them. An entry with FENCE is not read while
commands of its ring are outstanding. -/
def execCommandFetch (fn ring count : Nat) (fence : Bool) (s : State) : Host.Outcome State Fault Refusal :=
  live s (fun s =>
    let q := cmdOf s fn ring
    if 8 ≤ ring ∨ fnOn s fn = false ∨ q.en = false ∨ count = 0 ∨ 8 < count ∨ (q.tail - q.head).toNat < count ∨
        cqFull (cqOf s fn (fld q.cfg 10 8)) = true then s
    else if fence = true ∧ q.outstanding ≠ 0 then setCmd s fn ring (fun q => { q with waiting := true })
    else setCmd s fn ring (fun q => { q with head := q.head + BitVec.ofNat 32 count, outstanding := q.outstanding + count, waiting := false }))

/-- COMPLETION_POST (R382 to R385): the completion or notice that waits longest is written; ok is false when the write fails after its
retries. -/
def execCompletionPost (fn ring : Nat) (ok : Bool) (s : State) : Host.Outcome State Fault Refusal :=
  live s (fun s =>
    let q := cqOf s fn ring
    match q.front with
    | [] => s
    | e :: rest =>
      if s.dev.safe || !cqRoom q then s
      else if !ok then
        post fn 0 0x0412 0 [0, 0, 0, 0]
          { setCq s fn ring (fun q => { q with fault := true }) with dma := { s.dma with hostFail := up s.dma.hostFail 1 } }
      else
        let m := e.mark.getD (nowMark s)
        let s1 := if e.mark.isSome then s else stamp s
        let s2 := setCq s1 fn ring (fun q => { q with
          front := rest, tail := q.tail + 1,
          unread := match e.bytes with | none => q.unread | some (h, n) => q.unread ++ [(q.tail, h, n)] })
        let s3 := if e.counts then setCmd s2 fn e.cmdRing (fun c => { c with outstanding := c.outstanding - 1 }) else s2
        cqLevel fn ring (emit (.completion fn ring q.tail (phaseOf q.tail (ringSize q.cfg)) (cmdOf s3 fn e.cmdRing).head { e with mark := some m }) s3))

/-- The bytes of a passed BAND_DONE count as consumed (R387). -/
def consume (h n : Nat) (s : State) : State :=
  setSess s h (fun x => { x with ht := x.ht.map (fun t => { t with consumed := t.consumed + n }) })

/-- CQ_HEAD_DB (R384, R387). -/
def execCqHeadDb (fn ring : Nat) (value : Word) (s : State) : Host.Outcome State Fault Refusal :=
  fnWrite fn 0 value s (fun s =>
    if 8 ≤ ring then s
    else
      let q := cqOf s fn ring
      if (value - q.head).toNat ≤ (q.tail - q.head).toNat then
        let passed := q.unread.filter (fun u => decide ((u.1 - q.head).toNat < (value - q.head).toNat))
        let s1 := setCq s fn ring (fun q => { q with
          head := value, unread := q.unread.filter (fun u => !decide ((u.1 - q.head).toNat < (value - q.head).toNat)) })
        cqLevel fn ring (passed.foldl (fun s u => consume u.2.1 u.2.2 s) s1)
      else setCq s fn ring (fun q => { q with reason := 0x0605 }))

/-! ### DMA channels -/

/-- A DMA channel. -/
def dmaOf (s : State) (c : Nat) : DmaCh := lookD s.dma.chans c DmaCh.reset

/-- A DMA channel changed. -/
def setDma (s : State) (c : Nat) (g : DmaCh → DmaCh) : State :=
  { s with dma := { s.dma with chans := put s.dma.chans c (g (dmaOf s c)) } }

/-- Channels 0 to 47 are TENANT (R388). -/
def tenant (c : Nat) : Bool := decide (c < 48)

/-- The function on whose behalf a channel works (R374, R388). -/
def dmaFn (s : State) (c : Nat) : Nat := if tenant c then fld (dmaOf s c).owner 7 0 else 0

/-- A channel refuses a write. -/
def dmaRefuse (c : Nat) (code : Code) (s : State) : State := setDma s c (fun x => { x with reason := code })

/-- DMA_CH_CTRL.ENABLE set (R391): the checks in the order in which R391 gives them. -/
def dmaEnable (c : Nat) (s : State) : State :=
  let x := dmaOf s c
  if x.en then s
  else if x.chain = 0 ∨ x.chain.toNat % 32 ≠ 0 then dmaRefuse c 0x0408 s
  else if tenant c ∧ ¬ (bit x.owner 8 = true ∧ fnOn s (fld x.owner 7 0) = true) then dmaRefuse c 0x0407 s
  else if 56 ≤ c then dmaRefuse c 0x0409 s
  else setDma s c (fun x => { x with
    en := true, state := 1, done := 0, retries := 0, cmpOff := 0, cur := x.chain, busy := true, db := false, refetch := false, desc := none,
    errPend := none, tries := 0 })

/-- DMA_CH_ENABLE (R391). -/
def execDmaChEnable (ch : Nat) (s : State) : Host.Outcome State Fault Refusal :=
  blockWrite 0 0 s (fun s => if ch < 64 then dmaEnable ch s else s)

/-- DMA_CH_CTRL.ENABLE cleared (R395): DONE_COUNT, RETRY_COUNT and CUR are undefined until ENABLE is next set (log entry 4). -/
def dmaDisable (c : Nat) (s : State) : State :=
  if (dmaOf s c).en then
    let (a, s1) := takeFree s
    let (b, s2) := takeFree s1
    let (lo, s3) := takeFree s2
    let (hi, s4) := takeFree s3
    setDma s4 c (fun x => { x with
      en := false, state := 0, busy := false, db := false, refetch := false, desc := none, errPend := none, tries := 0, done := a,
      retries := b.toNat, cur := hi ++ lo })
  else s

/-- DMA_CH_DISABLE (R395). -/
def execDmaChDisable (ch : Nat) (s : State) : Host.Outcome State Fault Refusal :=
  blockWrite 0 0 s (fun s => if ch < 64 then dmaDisable ch s else s)

/-- DMA_CH_DB (R392): a doorbell of a channel that fetches or runs a descriptor is kept for a descriptor whose END is set; in WAIT_END it
starts the re-read of NEXT; in any other state it is counted and has no effect. -/
def execDmaChDb (ch : Nat) (s : State) : Host.Outcome State Fault Refusal :=
  blockWrite 0 0 s (fun s =>
    if 64 ≤ ch then s
    else
      let s1 := setDma s ch (fun x => { x with dbCount := up x.dbCount 1 })
      match (dmaOf s ch).state with
      | 1 => setDma s1 ch (fun x => { x with db := true })
      | 2 => setDma s1 ch (fun x => { x with state := 1, busy := true, refetch := true, db := false })
      | _ => s1)

/-- The fields of a descriptor's FLAGS (R389). -/
def descSwap (d : Desc) : Nat := fld d.flags 1 0
/-- See descSwap. -/
def descFill (d : Desc) : Bool := bit d.flags 2
/-- See descSwap. -/
def descCompare (d : Desc) : Bool := bit d.flags 3
/-- See descSwap. -/
def descSrcDev (d : Desc) : Bool := bit d.flags 5 && !bit d.flags 2
/-- See descSwap. -/
def descDstDev (d : Desc) : Bool := bit d.flags 6
/-- NEXT bit 0 and bit 1 (R389). -/
def descEndBit (d : Desc) : Bool := d.next.getLsbD 0
/-- See descEndBit. -/
def descIrq (d : Desc) : Bool := d.next.getLsbD 1
/-- The address that NEXT names. -/
def descLink (d : Desc) : DWord := d.next &&& ~~~31#64

/-- Is a buffer held by a session of a function (R390)? -/
def heldByFn (s : State) (b : Buf) (fn : Nat) : Bool :=
  let mine := fun (p : PoolReq) => decide (p.kind = 0) &&
    (match look s.sessions p.index with | none => false | some x => decide (x.fn = fn))
  (b.hold && mine b.owner) || b.recs.any (fun r => mine r.2.1)

/-- The device address of one side of a descriptor: a handle and offset on a TENANT channel, an address on a SERVICE channel (R389); none
where R390 refuses it with 0x040B. -/
def dmaAddr (s : State) (c : Nat) (a : DWord) (len : Nat) : Option Nat :=
  if tenant c then
    match currentBuf s (hiW a) with
    | none => none
    | some b =>
      if heldByFn s b (dmaFn s c) && decide ((loW a).toNat + len ≤ classSize (hClass (hiW a))) then
        some (bufAddr s (hClass (hiW a)) (hIndex (hiW a)) + (loW a).toNat)
      else none
  else if a.toNat + len ≤ capacity s then some a.toNat else none

/-- Does a device range meet a protected extent (R264)? A released extent stays protected until its fill ends (R266). -/
def meetsProtected (s : State) (a len : Nat) : Bool :=
  let hit := fun (k : Nat) =>
    let lo := bufAddr s (k / 2 ^ 25) (k % 2 ^ 25)
    decide (lo < a + len) && decide (a < lo + classSize (k / 2 ^ 25))
  s.pool.bufs.any (fun e => e.2.secret && hit e.1) || s.pool.filling.any hit

/-- The reserved bits of a descriptor are 0 and its fields fit the channel's class (R390, 0x040A). -/
def descOk (c : Nat) (d : Desc) : Bool :=
  decide (1 ≤ d.len) && decide (d.len < 2 ^ 24) && decide (d.lenHigh = 0) && decide (fld d.flags 31 7 = 0) && decide (d.next.toNat / 4 % 8 = 0) &&
  (if tenant c then !(descFill d) && !(descCompare d) else decide (descSwap d = 0)) &&
  (match descSwap d with | 0 => true | 1 => decide (d.len % 2 = 0) | _ => decide (d.len % 4 = 0))

/-- The code of the first check of R390 that a descriptor fails. -/
def descCode (s : State) (c : Nat) (d : Desc) : Option Code :=
  if !descOk c d then some 0x040A
  else
    let src := if descSrcDev d then dmaAddr s c d.src d.len else some 0
    let dst := if descDstDev d then dmaAddr s c d.dst d.len else some 0
    match src, dst with
    | some a, some b =>
      if (descSrcDev d && meetsProtected s a d.len) || (descDstDev d && meetsProtected s b d.len) then some 0x040C else none
    | _, _ => some 0x040B

/-- A channel halts with a code. -/
def dmaHalt (c : Nat) (code : Code) (s : State) : State :=
  setDma s c (fun x => { x with state := 3, reason := code, busy := false, db := false, refetch := false, desc := none, errPend := none })

/-- The next fetch of a channel is issued: of the linked descriptor, or of the NEXT word again (R391, R392). -/
def dmaFollow (c : Nat) (d : Desc) (s : State) : State :=
  if descEndBit d then
    if (dmaOf s c).db then setDma s c (fun x => { x with refetch := true, db := false, desc := none, busy := true, tries := 0 })
    else setDma s c (fun x => { x with state := 2, refetch := false, desc := none, busy := false, tries := 0 })
  else setDma s c (fun x => { x with cur := descLink d, refetch := false, db := false, desc := none, busy := true, tries := 0 })

/-- DESCRIPTOR_FETCHED (R390 to R392): the fetch, or the re-read of a NEXT word, returns. -/
def execDescriptorFetched (ch : Nat) (d : Desc) (s : State) : Host.Outcome State Fault Refusal :=
  live s (fun s =>
    let x := dmaOf s ch
    if x.state ≠ 1 ∨ x.desc.isSome ∨ x.errPend.isSome then s
    else if x.refetch then dmaFollow ch d s
    else
      match descCode s ch d with
      | some code => dmaHalt ch code s
      | none => setDma s ch (fun x => { x with desc := some d, tries := 0 }))

/-- The bytes of each group reversed as SWAP gives (R389). -/
def swapBytes (sw : Nat) (bs : List Byte) : List Byte :=
  match bs with
  | a :: b :: c :: d :: t =>
    (match sw with | 1 => [b, a, d, c] | 2 => [c, d, a, b] | 3 => [d, c, b, a] | _ => [a, b, c, d]) ++ swapBytes sw t
  | [a, b] => if sw = 1 then [b, a] else [a, b]
  | t => t

/-- The 8-byte pattern of FILL repeated over n bytes (R389). -/
def fillBytes (p : DWord) (n : Nat) : List Byte := (List.range n).map (fun k => (p >>> (8 * (k % 8))).truncate 8)

/-- The lines that a range covers whole. -/
def wholeLines (a n : Nat) : List Nat := (List.range ((a + n) / 64 - cdiv a 64)).map (fun k => cdiv a 64 + k)

/-- Does a range meet a poisoned line (R325)? -/
def meetsPoison (s : State) (a n : Nat) : Bool := s.memc.poison.any (fun l => decide (l * 64 < a + n) && decide (a < l * 64 + 64))

/-- Bytes stored to device memory: a full-line write clears the line's poison (R325). -/
def storeMem (a : Nat) (bs : List Byte) (s : State) : State :=
  writeMem a bs { s with memc := { s.memc with poison := (wholeLines a bs.length).foldl remS s.memc.poison } }

/-- The source bytes of a descriptor: the pattern, device memory, or what the host read returned. -/
def descData (s : State) (c : Nat) (d : Desc) (host : List Byte) : List Byte :=
  if descFill d then fillBytes d.src d.len
  else if descSrcDev d then rdCells memDefault s.mem ((dmaAddr s c d.src d.len).getD 0) d.len
  else host

/-- The first offset at which two byte lists differ. -/
def firstDiff (a b : List Byte) : Option Nat := (a.zip b).findIdx? (fun p => p.1 != p.2)

/-- The first difference that a COMPARE finds: computed where both ranges are device memory, else what the host read gave. -/
def descDiff (s : State) (c : Nat) (d : Desc) (diff : Option Nat) : Option Nat :=
  if descSrcDev d && descDstDev d then
    firstDiff (descData s c d []) (rdCells memDefault s.mem ((dmaAddr s c d.dst d.len).getD 0) d.len)
  else diff

/-- A descriptor has completed (R393): DONE_COUNT, the interrupt, the next fetch. -/
def descDone (c : Nat) (d : Desc) (s : State) : State :=
  let s1 := dmaFollow c d (setDma s c (fun x => { x with done := x.done + 1 }))
  if descIrq d then pulse c s1 else s1

/-- DESCRIPTOR_COMPLETE (R393, R394): data is what the host range gave, in as many bytes as LEN says. -/
def execDescriptorComplete (ch : Nat) (data : List Byte) (diff : Option Nat) (s : State) : Host.Outcome State Fault Refusal :=
  live s (fun s =>
    let x := dmaOf s ch
    match x.desc with
    | none => s
    | some d =>
      let src := (dmaAddr s ch d.src d.len).getD 0
      if x.state ≠ 1 ∨ x.errPend.isSome ∨ (descSrcDev d && meetsPoison s src d.len) = true ∨
          (descSrcDev d = false ∧ descFill d = false ∧ descCompare d = false ∧ data.length ≠ d.len) then s
      else if descCompare d then
        match descDiff s ch d diff with
        | some k => setDma (dmaHalt ch 0x040E s) ch (fun x => { x with cmpOff := k })
        | none => descDone ch d s
      else
        let bs := swapBytes (descSwap d) (descData s ch d data)
        if descDstDev d then descDone ch d (storeMem ((dmaAddr s ch d.dst d.len).getD 0) bs s)
        else descDone ch d (emit (.hostFlush (dmaFn s ch) (d.dst + BitVec.ofNat 64 (d.len - 1) &&& ~~~3#64))
               (emit (.hostBytes (dmaFn s ch) d.dst bs) s)))

/-- ERR_KIND of a bus error (R394, R403). -/
def errKindOf (e : BusErr) : Nat :=
  match e with
  | .completerAbort => 1
  | .unsupportedRequest => 2
  | .completionTimeout => 3
  | .poisonedCompletion => 4
  | .devicePoison => 5

/-- DMA_BUS_ERROR (R394): a retry is counted and its delay starts, or the channel halts when LIMIT retries have failed. -/
def execDmaBusError (ch : Nat) (err : BusErr) (s : State) : Host.Outcome State Fault Refusal :=
  live s (fun s =>
    let x := dmaOf s ch
    if x.state ≠ 1 ∨ x.errPend.isSome then s
    else if fld s.dma.retryLimit 2 0 ≤ x.tries then
      setDma (dmaHalt ch 0x040D s) ch (fun x => { x with errKind := errKindOf err })
    else setDma s ch (fun x => { x with errPend := some (errKindOf err), tries := x.tries + 1, retries := up x.retries 1 }))

/-- DMA_RETRY (R394): the delay has expired and the transfer is issued again. -/
def execDmaRetry (ch : Nat) (s : State) : Host.Outcome State Fault Refusal :=
  live s (fun s => if (dmaOf s ch).errPend.isSome then setDma s ch (fun x => { x with errPend := none }) else s)

/-- The TENANT channels that a function owns. -/
def ownedBy (s : State) (f : Nat) : List Nat :=
  (List.range 48).filter (fun c => bit (dmaOf s c).owner 8 && decide (fld (dmaOf s c).owner 7 0 = f))

/-- DMA_CH_OWNER_WRITE (R403): fn 0 names the register of the DMA block, fn ≥ 1 slot ch of that VF. -/
def execDmaChOwnerWrite (fn ch : Nat) (value : Word) (s : State) : Host.Outcome State Fault Refusal :=
  fnWrite fn 0xFFFFFE00 value s (fun s =>
    if fn ≠ 0 then
      match (if ch < 8 then slotChannel s fn ch else none) with
      | none => s
      | some c => dmaRefuse c 0x040F s
    else if 64 ≤ ch then s
    else if (dmaOf s ch).en then dmaRefuse ch 0x040F s
    else if !tenant ch then setDma s ch (fun x => { x with owner := value &&& 0xFF })
    else if bit value 8 && decide (8 ≤ ((ownedBy s (fld value 7 0)).filter (fun c => c != ch)).length) then dmaRefuse ch 0x0416 s
    else setDma s ch (fun x => { x with owner := value }))

/-! ### Snapshots (R399) -/

/-- A snapshot of 64 counters is written, read back and completed (R393, R399); counters 37 to 63 read 0. -/
def snapshot (h : Hdr) (addr : DWord) (scope : Nat) (token : Word) (stats : NMap Nat) (s : State) : State :=
  let n := (fnOf s h.fn).seq + 1
  let (m, s1) := takeMark (setFn s h.fn (fun x => { x with seq := n }))
  let seq : DWord := BitVec.ofNat 64 n
  complete h 0x0D 0 [loW seq, hiW seq]
    (emit (.hostFlush h.fn (addr + 572))
      (emit (.snapshot h.fn addr n m scope token ((List.range 64).map (fun i => if i ≤ 36 then lookD stats i 0 else 0))) s1))

/-- SNAPSHOT_SESSION (R70, R399). -/
def execSnapshotSession (h : Hdr) (addr : DWord) (pad : Nat) (s : State) : Host.Outcome State Fault Refusal :=
  sessionCmd (.snapshotSession h addr pad) h 0x0D s (fun s => onToken h 0x0D s (fun _ x s =>
    if pad ≠ 0 ∨ addr.toNat % 64 ≠ 0 then refuse h 0x0D 0x0410 s else snapshot h addr 0 h.token x.stats s))

/-- SNAPSHOT_FUNCTION (R399). -/
def execSnapshotFunction (h : Hdr) (addr : DWord) (pad : Nat) (s : State) : Host.Outcome State Fault Refusal :=
  plainCmd h s (fun s =>
    if h.token ≠ 0 ∨ pad ≠ 0 ∨ addr.toNat % 64 ≠ 0 then refuse h 0x0D 0x0410 s
    else snapshot h addr 1 0 (fnOf s h.fn).stats s)

end Sys2Proof.Machine
end

