-- ==== Sys2Proof/Machine/Queue.lean ====
section
/-! DEFINITION. The queue manager (R359 to R366, R370). -/

namespace Sys2Proof.Machine

open Sys2Proof

/-- An empty queue in its default mode. -/
def emptyQueue : Queue :=
  { items := [], mode := none, flushing := none, reserved := [], slot := false, blocks := 0, stalled := [], rel := [], aborted := false,
    visSeq := 0 }

/-- Is this one of the 512 internal queues, which hold a slot pair permanently (R361)? -/
def internalQueue (q : Nat) : Bool := decide (0x10000 ≤ q) && decide (q < 0x10200)

/-- A queue; one that nothing has touched is empty (R361). -/
def queueOf (s : State) (q : Nat) : Queue := lookD s.queue.queues q { emptyQueue with slot := internalQueue q }

/-- Does an ID name a queue (R359)? -/
def queueId (q : Nat) : Bool := decide (q ≤ 0x11FFF)

/-- The flush mode of a queue, true AT_BOUNDARY (R364): task and internal queues default to IMMEDIATE. -/
def queueMode (q : Nat) (x : Queue) : Bool := x.mode.getD (decide (q < 0x10000) || decide (0x10200 ≤ q))

/-- The beats a queue holds, reservations included (R363, R370). -/
def beatsHeld (x : Queue) : Nat :=
  (x.items.map (fun i => if i.cut && i.beats.isEmpty then 0 else i.written - i.taken)).sum + (x.reserved.map (fun r => r.2)).sum

/-- How many beats fill a queue (R361). -/
def queueCap (s : State) (q : Nat) : Nat :=
  if q < 0x10000 then 32 + s.plan.cfg.flowq else if q < 0x10200 then 32 + s.plan.cfg.taskq else 32

/-- The spill blocks that a queue with this many beats needs (R361). -/
def blocksFor (slot : Bool) (beats : Nat) : Nat := if slot then cdiv (beats - 32) 128 else cdiv beats 128

/-- The queue is written back with its slot pair and spill blocks settled (R361). -/
def settleQueue (q : Nat) (x : Queue) (s : State) : State :=
  let beats := beatsHeld x
  let slot := if internalQueue q then true else if beats = 0 then false else x.slot || decide (0 < s.queue.slotsFree)
  let m := s.queue
  let slots := if internalQueue q then m.slotsFree
    else if slot && !x.slot then m.slotsFree - 1 else if !slot && x.slot then m.slotsFree + 1 else m.slotsFree
  let need := blocksFor slot beats
  let free := m.spillFree + x.blocks - need
  let s1 := { s with queue := { m with slotsFree := slots, spillFree := free, queues := put m.queues q { x with slot := slot, blocks := need } } }
  if free = 0 ∧ 0 < m.spillFree ∧ m.spillBell ≠ some s.bell.num then
    raise winQueue 1 0x0606 false (fun s => s) { s1 with queue := { s1.queue with spillBell := some s.bell.num } }
  else s1

/-- The header of beat 0 (R360): priority, size, hold; none where it is malformed. -/
def parseHeader (b : BitVec 256) : Option (Nat × Nat × Option (Word × Nat)) :=
  if b.getLsbD 7 then none
  else
    let n := b.toNat
    some (n % 8, n / 8 % 8 + 1,
      if b.getLsbD 6 then some (BitVec.ofNat 32 (n / 2 ^ 32), n / 2 ^ 64 % 64) else none)

/-- The producer's item that is partly written. -/
def partialOf (x : Queue) (p : PoolReq) : Option Item := x.items.find? (fun i => decide (i.producer = p) && decide (i.written < i.size))

/-- A discarded item's claim waits for the end of the flush (R365). -/
def discard (i : Item) (x : Queue) : Queue :=
  match i.hold with
  | none => x
  | some (h, t) => { x with rel := x.rel ++ [(i.producer, h, t)] }

/-- A beat that the queue takes (R360, R362): it starts or continues its producer's item; the last one makes the item visible, or ends an item
that a flush cut. -/
def takeBeat (p : PoolReq) (start : Bool) (b : BitVec 256) (x : Queue) : Queue × Nat :=
  match start, partialOf x p with
  | false, none => (x, 0)
  | false, some i =>
    let last := decide (i.written + 1 = i.size)
    let i1 := { i with beats := if i.cut && i.beats.isEmpty then [] else i.beats ++ [b], written := i.written + 1,
                       vis := if last && !i.cut then some x.visSeq else i.vis }
    let x1 := { x with visSeq := if last && !i.cut then x.visSeq + 1 else x.visSeq }
    if last && i.cut then (discard i1 { x1 with items := x1.items.filter (fun j => j != i) }, 0)
    else ({ x1 with items := x1.items.map (fun j => if j = i then i1 else j) }, 0)
  | true, part =>
    let x0 := match part with | none => x | some i => { x with items := x.items.filter (fun j => j != i) }
    let bad := if part.isSome then 1 else 0
    match parseHeader b with
    | none => (x0, bad + 1)
    | some (prio, size, hold) =>
      ({ x0 with
          items := x0.items ++ [{ producer := p, prio := prio, size := size, hold := hold, beats := [b], written := 1,
                                  vis := if size = 1 then some x0.visSeq else none, taken := 0, cut := false }],
          visSeq := if size = 1 then x0.visSeq + 1 else x0.visSeq }, bad)

/-- The key of a producer's reservation. -/
def prodKey (p : PoolReq) : Nat := p.kind * 2 ^ 20 + p.index

/-- Has the queue room for one beat of a producer (R361, R363)? A reserved beat is held already; a beat of an item that IMMEDIATE discards
needs none. -/
def beatRoom (s : State) (q : Nat) (p : PoolReq) (x : Queue) : Bool :=
  decide (0 < lookD x.reserved (prodKey p) 0) ||
    (decide (beatsHeld x < queueCap s q) &&
      decide (blocksFor (x.slot || decide (0 < s.queue.slotsFree)) (beatsHeld x + 1) ≤ x.blocks + s.queue.spillFree))

/-- A beat is written (R360 to R363). -/
def acceptBeat (q : Nat) (p : PoolReq) (start : Bool) (b : BitVec 256) (s : State) : State :=
  let x := queueOf s q
  let r := lookD x.reserved (prodKey p) 0
  let x0 := { x with reserved := if r ≤ 1 then del x.reserved (prodKey p) else put x.reserved (prodKey p) (r - 1) }
  let (x1, bad) := takeBeat p start b x0
  settleQueue q x1 { s with queue := { s.queue with bad := up s.queue.bad bad } }

/-- QUEUE_BEAT_WRITE (R360, R363): without room the write handshake waits. -/
def execQueueBeatWrite (queue : Nat) (producer : PoolReq) (start : Bool) (beat : BitVec 256) (s : State) : Host.Outcome State Fault Refusal :=
  live s (fun s =>
    let x := queueOf s queue
    if !s.queue.en || !queueId queue then s
    else if x.stalled.any (fun e => decide (e.1 = producer)) then s
    else if beatRoom s queue producer x then acceptBeat queue producer start beat s
    else { s with queue := { s.queue with bp := up s.queue.bp 1,
                                          queues := put s.queue.queues queue { x with stalled := x.stalled ++ [(producer, start, beat)] } } })

/-- QUEUE_STALL_RELEASE (R363): room exists, and the longest-waiting write completes. -/
def execQueueStallRelease (queue : Nat) (s : State) : Host.Outcome State Fault Refusal :=
  live s (fun s =>
    let x := queueOf s queue
    match x.stalled with
    | [] => s
    | (p, st, b) :: t =>
      if s.queue.en && beatRoom s queue p x then
        acceptBeat queue p st b { s with queue := { s.queue with queues := put s.queue.queues queue { x with stalled := t } } }
      else s)

/-- The item that the reader takes next (R362): the one in progress, else the earliest visible of the highest PRIO. -/
def nextItem (x : Queue) : Option Item :=
  match x.items.find? (fun i => decide (0 < i.taken)) with
  | some i => some i
  | none =>
    x.items.foldl (fun best i =>
      match i.vis with
      | none => best
      | some v =>
        match best with
        | none => some i
        | some b => if b.prio < i.prio ∨ (b.prio = i.prio ∧ v < b.vis.getD 0) then some i else best) none

/-- QUEUE_READ (R362, R364): the reader takes the next beat. -/
def execQueueRead (queue : Nat) (s : State) : Host.Outcome State Fault Refusal :=
  live s (fun s =>
    let x := queueOf s queue
    if !s.queue.en then s
    else if x.aborted then
      emit (.queueAbort queue) { s with queue := { s.queue with queues := put s.queue.queues queue { x with aborted := false } } }
    else
      match nextItem x with
      | none => s
      | some i =>
        let i1 := { i with taken := i.taken + 1 }
        let x1 := { x with items := if i1.taken = i.size then x.items.filter (fun j => j != i)
                                    else x.items.map (fun j => if j = i then i1 else j) }
        emit (.queueBeats queue [i.beats.getD i.taken 0]) (settleQueue queue x1 s))

/-- A reservation of beats by a producer, granted whole or refused (R363). -/
def reserveBeats (q : Nat) (p : PoolReq) (n : Nat) (s : State) : Option State :=
  let x := queueOf s q
  if beatsHeld x + n ≤ queueCap s q ∧ blocksFor (x.slot || decide (0 < s.queue.slotsFree)) (beatsHeld x + n) ≤ x.blocks + s.queue.spillFree then
    some (settleQueue q { x with reserved := put x.reserved (prodKey p) (lookD x.reserved (prodKey p) 0 + n) } s)
  else none

/-- Reserved beats of a producer leave the queue. -/
def returnBeats (q : Nat) (p : PoolReq) (n : Nat) (s : State) : State :=
  let x := queueOf s q
  let left := lookD x.reserved (prodKey p) 0 - n
  settleQueue q { x with reserved := if left = 0 then del x.reserved (prodKey p) else put x.reserved (prodKey p) left } s

/-- QUEUE_RESERVE (R363): 1 to 64 beats, granted whole or refused with 0x0603. -/
def execQueueReserve (queue : Nat) (producer : PoolReq) (beats : Nat) (s : State) : Host.Outcome State Fault Refusal :=
  live s (fun s =>
    if !s.queue.en || !queueId queue then s
    else
      match (if 1 ≤ beats ∧ beats ≤ 64 then reserveBeats queue producer beats s else none) with
      | some s1 => emit (.reserve queue producer true) s1
      | none => emit (.reserve queue producer false) { s with queue := { s.queue with rejCnt := up s.queue.rejCnt 1 } })

/-- A flush cuts a queue (R364): boundary true is AT_BOUNDARY. -/
def cutQueue (boundary : Bool) (x : Queue) : Queue × Nat :=
  let gone := x.items.filter (fun i => i.vis.isSome && (decide (i.taken = 0) || !boundary))
  let aborts := (gone.filter (fun i => decide (0 < i.taken))).length
  let keep := (x.items.filter (fun i => !(i.vis.isSome && (decide (i.taken = 0) || !boundary)))).map
    (fun i => if i.vis.isSome then i else { i with cut := true, beats := if boundary then i.beats else [] })
  (gone.foldl (fun x i => discard i x) { x with items := keep, flushing := some boundary, aborted := x.aborted || decide (0 < aborts) }, aborts)

/-- The packets of flow q are discarded with their claims (R364, R365, R408); a packet that is being sent has left whole. -/
def dropPackets (q : Nat) (s : State) : State :=
  match look s.net.flows q with
  | none => s
  | some f =>
    (f.pkts.filterMap (fun p => p.claim)).foldl (fun s c => drop { kind := 3, index := 0 } c.1 c.2 s)
      (returnBeats q { kind := 3, index := q } f.pkts.length
        { s with net := { s.net with flows := alter s.net.flows q (fun f => { f with pkts := [], start := none }) } })

/-- A flush is accepted (R364). -/
def flushQueue (q : Nat) (boundary : Bool) (s0 : State) : State :=
  let s := if q < 0x10000 then dropPackets q s0 else s0
  let (x, aborts) := cutQueue boundary (queueOf s q)
  settleQueue q x { s with queue := { s.queue with abortCnt := up s.queue.abortCnt aborts } }

/-- Has the flush of a queue reached its end (R364)? -/
def flushOver (x : Queue) : Bool :=
  match x.flushing with
  | none => false
  | some false => true
  | some true => x.items.all (fun i => !i.cut && decide (i.taken = 0))

/-- The flush ends (R365): the claims of the discarded items are released for their producers. -/
def endFlush (q : Nat) (s : State) : State :=
  let x := queueOf s q
  if flushOver x then
    x.rel.foldl (fun s r => drop r.1 r.2.1 r.2.2 s)
      (settleQueue q { x with flushing := none, rel := [] } { s with queue := { s.queue with flushCnt := up s.queue.flushCnt 1 } })
  else s

/-- FLUSH_END (R365). -/
def execFlushEnd (queue : Nat) (s : State) : Host.Outcome State Fault Refusal := live s (endFlush queue)

/-- A refused write of a QUEUE register (R370). -/
def queueRefuse (code : Code) (s : State) : State := { s with queue := { s.queue with reason := code } }

/-- QUEUE_FLUSH (R364, R365, R370). -/
def execQueueFlush (value : Word) (s : State) : Host.Outcome State Fault Refusal :=
  blockWrite 0xFFFFFEFC value s (fun s =>
    let q := fld s.queue.sel 16 0
    let x := queueOf s q
    if !bit value 8 then s
    else if fld value 1 0 = 3 then queueRefuse 0x0608 s
    else if x.flushing.isSome then queueRefuse 0x0602 s
    else flushQueue q (if fld value 1 0 = 0 then queueMode q x else decide (fld value 1 0 = 2)) s)

/-- QUEUE_SEL_WRITE (R370). -/
def execQueueSelWrite (value : Word) (s : State) : Host.Outcome State Fault Refusal :=
  blockWrite 0xFFFE0000 value s (fun s =>
    if queueId (fld value 16 0) then { s with queue := { s.queue with sel := value } } else queueRefuse 0x0601 s)

/-- QUEUE_CTRL_WRITE (R370): setting is checked for 0x0607. -/
def execQueueCtrlWrite (value : Word) (s : State) : Host.Outcome State Fault Refusal :=
  blockWrite 0xFFFFFFFE value s (fun s =>
    if bit value 0 && !(s.memc.en && s.plan.first) then queueRefuse 0x0607 s
    else { s with queue := { s.queue with en := bit value 0 } })

end Sys2Proof.Machine
end

