-- ==== Sys2Proof/Machine/Watch.lean ====
section
/-! DEFINITION. Fault watches, safe states, ERR_N and fault injection (R483 to R499). -/

namespace Sys2Proof.Machine

open Sys2Proof

/-- Does a block raise this kind (R483, R487, R509, R511, R512, R529)? -/
def kindExists (win kind : Nat) : Bool :=
  if kind = 14 ∨ kind = 15 then true
  else if 32 ≤ win then decide (kind ≤ 3)
  else if winMemc ≤ win then decide (kind ≤ 5)
  else if win = winBist then decide (kind ≤ 3)
  else if win = winSext then decide (kind ≤ 2)
  else if win = winPool ∨ win = winQueue ∨ win = winTandem then decide (kind ≤ 1)
  else decide ((win = winDev ∨ win = winSched ∨ win = winSess ∨ win = winHelm ∨ win = winPwr ∨ win = winSec) ∧ kind = 0)

/-- The actions of an unsound link (R456): the UNSOUND notice on both paths, no further use of the link, 0x080E. -/
def linkUnsound (s : State) : State :=
  if s.tandem.dead then s
  else
    deviceEvent 0x080E (emit (.altLink .unsoundNotice) (emit (.link .unsoundNotice)
      { s with tandem := { s.tandem with dead := true } }))

/-- The safe state of a block (R488). -/
def blockSafe (win : Nat) (s : State) : State :=
  if 32 ≤ win then retireQuarter (win - 32) s
  else if 20 ≤ win then safeState win (setChan s (win - 20) (fun c => { c with state := 6 }))
  else if win = winTandem then linkUnsound s
  else safeState win s

/-- The severe reaction of a kind (R302, R341, R366, R456, R487, R509): place is the rank, queue, sensor or core concerned. -/
def reaction (win kind place : Nat) (s : State) : State :=
  if kind = 14 ∨ kind = 15 then blockSafe win s
  else if 32 ≤ win then (if kind = 2 then s else retireQuarter (win - 32) s)
  else if 20 ≤ win then
    match kind with
    | 0 => startSpare (win - 20) place s
    | 1 => startSpare (win - 20) place s
    | 4 => blockSafe win s
    | _ => s
  else if win = winPool ∨ win = winSec then safeState win s
  else if win = winTandem then linkUnsound s
  else if win = winQueue then
    (if kind = 0 ∧ (queueOf s place).flushing.isNone = true then flushQueue place false s else s)
  else if win = winHelm then { s with stalled := addS s.stalled place }
  else if win = winBist then
    match kind with
    | 2 => { s with pwr := { s.pwr with ignored := addS s.pwr.ignored place } }
    | 3 => safeState win s
    | _ => s
  else s

/-- The checker that a kind belongs to: the kinds 14 and 15 of any block, and CE and UE of a memory channel, are fed by one checker whose MODE
selects the kind (R496). -/
def injectedKind (win : Nat) (w : Word) : Nat :=
  let k := fld w 27 24
  if 14 ≤ k then (if bit w 16 then 15 else 14)
  else if winMemc ≤ win ∧ win < 32 ∧ k ≤ 1 then (if bit w 16 then 1 else 0)
  else k

/-- An injected check uses up one of COUNT; ARM clears when COUNT reaches 0 (R497). -/
def spendInject (w : Word) : Word :=
  let n := fld w 7 0 - 1
  merge w 0x800000FF (bitW 31 (bit w 31 && decide (0 < n)) ||| fldW 0 8 n)

/-- WATCH_EVENT (R484 to R488, R497): inj says that an injected check raised it. -/
def execWatchEvent (watch kind : Nat) (code : Code) (inj : Bool) (place : Nat) (s : State) : Host.Outcome State Fault Refusal :=
  live s (fun s =>
    if 48 ≤ watch ∨ !kindExists watch kind then s
    else if inj then
      let w := (watchOf s watch).inject
      if bit w 31 ∧ injectedKind watch w = kind then
        raise watch kind code true (reaction watch kind place) (setWatch s watch (fun x => { x with inject := spendInject w }))
      else s
    else raise watch kind code false (reaction watch kind place) s)

/-- ERR_PULSE_END (R494). -/
def execErrPulseEnd (s : State) : Host.Outcome State Fault Refusal :=
  live s (fun s => { s with dev := { s.dev with errPulse := false } })

/-- The counts of the kinds whose SEVERE bit is cleared start again from 0 (R485). -/
def clearCounts (bits : BitVec 16) (ks : NMap KindCount) : NMap KindCount :=
  ks.map (fun e => (e.1, if bits.getLsbD e.1 then { e.2 with count := 0 } else e.2))

/-- WATCH_STATUS_WRITE (R485, R492). -/
def execWatchStatusWrite (watch : Nat) (value : Word) (s : State) : Host.Outcome State Fault Refusal :=
  blockWrite 0 value s (fun s =>
    if 48 ≤ watch then s
    else
      let hi : BitVec 16 := (value >>> 16).truncate 16
      watchLevel watch (setWatch s watch (fun w => { w with
        severe := w.severe &&& ~~~hi, seen := w.seen &&& ~~~(value.truncate 16), kinds := clearCounts (w.severe &&& hi) w.kinds })))

/-- A write of a WINDOW and LIMIT word in which 0 keeps the old field (R461, R498). -/
def windowLimit (old v : Word) : Word :=
  merge (merge old (if fld v 31 16 = 0 then 0 else 0xFFFF0000) v) (if fld v 7 0 = 0 then 0 else 0xFF) v

/-- WATCH_CFG_WRITE (R487, R498). -/
def execWatchCfgWrite (watch : Nat) (value : Word) (s : State) : Host.Outcome State Fault Refusal :=
  blockWrite 0x0000FF00 value s (fun s => if 48 ≤ watch then s else setWatch s watch (fun w => { w with cfg := windowLimit w.cfg value }))

/-- A rejection of guarded writes (R568): n writes, cause, requester and the offset of the register. -/
def guardReject (cause req off n : Nat) (s : State) : State :=
  { s with regif := { s.regif with
      reason := 0x0B01, guardRej := up s.regif.guardRej n,
      guardLast := fldW 28 4 cause ||| fldW 24 4 req ||| fldW 0 22 off } }

/-- An accepted guarded write of WATCH_INJECT (R496); the flag says that cause 6 rejects it. -/
def injectBad (watch : Nat) (value : Word) : Bool :=
  bit value 31 && (!kindExists watch (fld value 27 24) || decide (fld value 7 0 = 0))

/-- WATCH_INJECT (R496, R497): the accepted guarded write. -/
def execWatchInject (watch : Nat) (value : Word) (s : State) : Host.Outcome State Fault Refusal :=
  blockWrite 0x70FEFF00 value s (fun s =>
    if 48 ≤ watch then s
    else if injectBad watch value then guardReject 6 0 (watch * 0x10000 + 0xF020) 1 s
    else setWatch s watch (fun w => { w with inject := value }))

/-- DEV_ERR_PIN_WRITE (R494, R499). -/
def execDevErrPinWrite (value : Word) (s : State) : Host.Outcome State Fault Refusal :=
  devWrite 0xFFFFFFF0 value s (fun s => { s with dev := { s.dev with errDrive := bit value 0 } })

/-- Has a watch a SEVERE bit set? -/
def anySevere (s : State) : Bool := s.watches.any (fun e => decide (e.2.severe ≠ 0))

/-- ERR_N is driven low (R489, R494, R495). -/
def errLow (s : State) : Bool :=
  s.dev.safe || (if pairedPin s then s.dev.errPulse || s.dev.errDrive else anySevere s)

/-- The parity check of a watch fails (R490). -/
def parityFail (win : Nat) (s : State) : State :=
  let s1 := { s with dev := { s.dev with parityCount := up16 s.dev.parityCount, parityWin := BitVec.ofNat 8 win } }
  if win = winDev then safeState winDev s1
  else raise winDev 0 0x0B10 false (fun s => s) (blockSafe win s1)

/-- DEV_WATCH_MAP (R499): bit w is set while the watch of window w has a SEVERE bit. -/
def watchMap (s : State) : BitVec 64 :=
  BitVec.ofNat 64 ((s.watches.map (fun e => if e.2.severe.toNat = 0 then 0 else 2 ^ e.1)).sum)

/-- DEV_STATE (R569). -/
def devState (s : State) : Word :=
  fldW 8 8 (if s.dev.safe then s.dev.safeWindow.toNat else 0xFF) |||
    fldW 0 3 (if s.sec.stage = 7 then 3 else if s.dev.safe then 2 else if s.sec.stage = 4 then 1 else 0)

end Sys2Proof.Machine
end

