-- ==== Sys2Proof/Machine/Power.lean ====
section
/-! DEFINITION. Power states, gating and thermal management (R518 to R533). -/

namespace Sys2Proof.Machine

open Sys2Proof

/-- Is a band in the hands of a dispatcher or waiting for one (R522)? -/
def bandBusy (b : Band) : Bool := decide (b.st = 1) || decide (b.st = 2) || (decide (b.st = 0) && (b.elig || b.eligNext))

/-- Is a task dispatched or waiting (R522)? -/
def taskBusy (s : State) : Bool :=
  s.sessions.any (fun e => e.2.frames.any (fun f => f.bands.any (fun b => bandBusy b.2)) || !e.2.dec.queue.isEmpty || !e.2.tan.due.isEmpty)

/-- The entry condition of Hove-to (R522). -/
def hoveOk (s : State) : Bool := !taskBusy s

/-- The entry condition of Anchored, beyond Hove-to's (R522). -/
def anchorOk (s : State) : Bool :=
  (inState s 2).isEmpty && s.dma.chans.all (fun e => decide (e.2.state ≠ 1)) &&
  s.quarters.all (fun e => !(decide (3 ≤ e.2.state) && decide (e.2.state ≤ 6))) &&
  !(decide (s.plan.stage = 1) || decide (s.plan.stage = 2)) && !s.plan.accepted && decide (s.plan.applySt ≠ 1)

/-- The entry condition of Moored, beyond Anchored's (R522). -/
def moorOk (s : State) : Bool :=
  s.fns.all (fun e => e.2.cmd.all (fun r => decide (r.2.outstanding = 0)) && e.2.cq.all (fun r => r.2.front.isEmpty) && e.2.ev.front.isEmpty)

/-- The entry condition of Laid-up, beyond Moored's (R522). -/
def layUpOk (s : State) : Bool := decide (s.tandem.state ≠ 3) && s.pwr.aspmL1

/-- The entry conditions of state k with those of the shallower states (R522). -/
def enterOk (s : State) (k : Nat) : Bool :=
  (decide (k < 1) || hoveOk s) && (decide (k < 2) || anchorOk s) && (decide (k < 3) || moorOk s) && (decide (k < 4) || layUpOk s)

/-- Was no task dispatched in the Bell that ends? -/
def bellQuiet (s : State) : Bool := s.quarters.all (fun e => decide (e.2.curLoad = 0))

/-- May software's bounds let the device into state k (R524)? -/
def allowed (s : State) (k : Nat) : Bool :=
  decide (k ≤ fld s.pwr.cfg 2 0) && decide (exitLatency k ≤ s.dev.latencyTol.toNat)

/-- The target state of R524. -/
def powerTarget (s : State) : Nat :=
  let okay := fun k => allowed s k && (if k = 1 then hoveOk s else decide (fld s.pwr.cfg 23 16 ≤ lookD s.pwr.held k 0))
  if okay 4 then 4 else if okay 3 then 3 else if okay 2 then 2 else if okay 1 then 1 else 0

/-- The device enters power state k (R524); entries are counted (R533). -/
def enterPower (k : Nat) (s : State) : State := { s with pwr := { s.pwr with state := k, entries := bump s.pwr.entries k 1 } }

/-- The power controller at a Bell start (R524, R525): the conditions that held throughout the Bell that ends are counted, the target is taken,
a shallower target starts an exit, a deeper one is entered. -/
def powerStep (s : State) : State :=
  let count := fun (m : NMap Nat) k => put m k (if bellQuiet s && enterOk s k then lookD m k 0 + 1 else 0)
  let s1 := { s with pwr := { s.pwr with held := [2, 3, 4].foldl count s.pwr.held } }
  let t := powerTarget s1
  let s2 := { s1 with pwr := { s1.pwr with target := t } }
  if t < s2.pwr.state then wake s2
  else if s2.pwr.state < t ∧ s2.pwr.exiting = false then enterPower t s2
  else s2

/-- Tj and the sensor that gave it (R528). -/
def hottest (l : List (Nat × BitVec 16)) : Option (Nat × BitVec 16) :=
  l.foldl (fun (b : Option (Nat × BitVec 16)) (e : Nat × BitVec 16) =>
    match b with
    | none => some e
    | some m => if m.2.toInt < e.2.toInt then some e else some m) none

/-- Threshold Tn in 1/16 °C (R533). -/
def threshold (w : Word) (n : Nat) : Int :=
  match n with
  | 1 => (fld w 7 0 * 16 : Nat)
  | 2 => (fld w 15 8 * 16 : Nat)
  | _ => (fld w 23 16 * 16 : Nat)

/-- The highest level whose threshold lies at or below Tj, 0 for none (R528). -/
def levelOf (w : Word) (tj : Int) : Nat :=
  if threshold w 3 ≤ tj then 3 else if threshold w 2 ≤ tj then 2 else if threshold w 1 ≤ tj then 1 else 0

/-- The thermal level at a Bell start (R528 to R530): new readings, Tj, the level with its hysteresis, THROTTLE_N (low: the pin is false). -/
def thermalStep (temps : List (Nat × BitVec 16)) (throttleN : Bool) (s : State) : State :=
  let p1 := { s.pwr with temps := temps.foldl (fun m (e : Nat × BitVec 16) => if e.1 < 32 then put m e.1 e.2 else m) s.pwr.temps, ext := !throttleN }
  let hot := hottest (p1.temps.filter (fun (e : Nat × BitVec 16) => !has p1.ignored e.1))
  let tj : BitVec 16 := match hot with | none => p1.tj | some e => e.2
  let l := p1.level
  let up1 := levelOf p1.therm tj.toInt
  let below := decide (0 < l) && decide (tj.toInt < threshold p1.therm l - (fld p1.therm 31 28 * 16 : Nat))
  let cool := if below then p1.cool + 1 else 0
  let falls := decide (fld p1.therm2 15 0 ≤ cool)
  let l1 := if l < up1 then up1 else if below && falls then l - 1 else l
  let l2 := if throttleN then l1 else max l1 (fld p1.therm2 17 16)
  let l3 := if (watchOf s winPwr).severe.getLsbD 0 then 3 else l2
  let p2 := { p1 with tj := tj, tjSensor := (hot.map (fun e => e.1)).getD p1.tjSensor, level := l3,
                      cool := if below && falls then 0 else cool, levelChg := if l3 = l then p1.levelChg else up p1.levelChg 1 }
  let s1 := { s with pwr := p2 }
  if l3 = l then s1 else pulse 0x070 s1

/-- More than 8 disregarded sensors are a severe event (R529); it is raised when the count passes 8. -/
def sensorsLost (before : Nat) (s : State) : State :=
  if before ≤ 8 ∧ 8 < s.pwr.ignored.length then raise winPwr 0 0x0A04 false (fun s => s) s else s

/-- The engines of a gating group (R46, R520): GANG engines of one Quarter. -/
def gangOf (s : State) (e : Nat) : List Nat :=
  let g := max 1 s.plan.cfg.gang
  (List.range g).map (fun k => e / 32 * 32 + e % 32 / g * g + k)

/-- HOVE_TO_ENTER (R524): Hove-to is entered, or left, within a Bell. -/
def execHoveToEnter (enter : Bool) (s : State) : Host.Outcome State Fault Refusal :=
  live s (fun s =>
    if enter then
      if s.pwr.state = 0 ∧ s.pwr.exiting = false ∧ hoveOk s = true ∧ allowed s 1 = true then enterPower 1 s else s
    else if s.pwr.state = 1 then enterPower 0 { s with pwr := { s.pwr with exiting := false } } else s)

/-- The deepest state, at most k, whose exit latency fits the tolerance (R526). -/
def deepestFit (tol k : Nat) : Nat :=
  match k with
  | 0 => 0
  | k + 1 => if exitLatency (k + 1) ≤ tol then k + 1 else deepestFit tol k

/-- DEV_LATENCY_TOL_WRITE (R526, R533). -/
def execDevLatencyTolWrite (value : Word) (s : State) : Host.Outcome State Fault Refusal :=
  regWrite 0 value s (fun s =>
    let s1 := { s with dev := { s.dev with latencyTol := value } }
    if value.toNat < exitLatency s.pwr.state then
      { s1 with pwr := { s1.pwr with exiting := true, exitTo := deepestFit value.toNat s.pwr.state,
                                     wakeCount := if s.pwr.exiting then s.pwr.wakeCount else up s.pwr.wakeCount 1 } }
    else wake s1)

/-- THERMTRIP (R531): the comparator acts whatever the firmware does; THERMTRIP_N falls and every clock but the reference stops. -/
def execThermtrip (sensor : Nat) (s : State) : Host.Outcome State Fault Refusal :=
  always s (fun s =>
    if s.dev.stopped ∨ 32 ≤ sensor then s else emit .thermtrip { s with dev := { s.dev with stopped := true } })

/-- A write of PWR_CFG (R533). -/
def pwrCfg (value : Word) (s : State) : State :=
  if fld value 23 16 = 0 ∨ fld value 15 8 = 0 ∨ 4 < fld value 2 0 then { s with pwr := { s.pwr with reason := 0x0A02 } }
  else { s with pwr := { s.pwr with cfg := value } }

/-- A write of PWR_THERM_CFG (R533): T1 < T2 < T3 < 115 and HYST 1 to 15. -/
def pwrTherm (value : Word) (s : State) : State :=
  if fld value 7 0 < fld value 15 8 ∧ fld value 15 8 < fld value 23 16 ∧ fld value 23 16 < 115 ∧ 1 ≤ fld value 31 28 then
    { s with pwr := { s.pwr with therm := value } }
  else { s with pwr := { s.pwr with reason := 0x0A01 } }

/-- A write of PWR_THERM_CFG2 (R533). -/
def pwrTherm2 (value : Word) (s : State) : State :=
  if fld value 17 16 = 0 ∨ fld value 15 0 = 0 then { s with pwr := { s.pwr with reason := 0x0A02 } }
  else { s with pwr := { s.pwr with therm2 := value } }

/-- PWR_STATUS (R533). -/
def pwrStatus (s : State) : Word :=
  fldW 14 2 s.pwr.level ||| bitW 13 s.pwr.ext ||| bitW 12 s.pwr.exiting ||| fldW 4 3 s.pwr.target ||| fldW 0 3 s.pwr.state

end Sys2Proof.Machine
end

