-- ==== Sys2Proof/Machine/Geometry.lean ====
section
/-! DEFINITION. The geometry of pictures: bands, tile columns, blocks and stages (R99 to R101, R603). -/

namespace Sys2Proof.Machine

open Sys2Proof

/-- The bands of a picture (R99). -/
def bandsOf (height : Nat) : Nat := cdiv height 64

/-- The luma rows of band k, 1 to N (R99). -/
def bandRows (height k : Nat) : Nat := min height (64 * k) - 64 * (k - 1)

/-- The tile columns of a picture (R100). -/
def tileCols (codec width : Nat) : Nat := if 2560 < width ∧ codec ≠ 2 then cdiv width 1024 else 1

/-- The blocks across a block row (R101): superblocks or CTUs of 64, macroblocks of 16. -/
def blocksWide (codec width : Nat) : Nat := cdiv width (if codec = 2 then 16 else 64)

/-- The blocks of tile column i of n (R603). -/
def colBlocks (codec width i : Nat) : Nat :=
  let b := blocksWide codec width
  let n := tileCols codec width
  (i + 1) * b / n - i * b / n

/-- The block rows of band k: one, or the macroblock rows of an AVC band (R99). -/
def blockRows (codec height k : Nat) : Nat := if codec = 2 then cdiv (bandRows height k) 16 else 1

/-- The stages of a block (R101). -/
def stagesOf (effort : Nat) : Nat := if effort = 2 then 4 else 2

end Sys2Proof.Machine
end

