-- ==== Sys2Proof/Machine/Engine.lean ====
section
/-! DEFINITION. The stream engines: micro-words and nano-words, staging, marks and events (R288 to R303). -/

namespace Sys2Proof.Machine

open Sys2Proof

/-- An engine. -/
def engOf (s : State) (e : Nat) : Engine := lookD s.engines e Engine.reset

/-- An engine changed. -/
def setEng (s : State) (e : Nat) (g : Engine → Engine) : State := { s with engines := put s.engines e (g (engOf s e)) }

/-- A field [hi:lo] of a word of any width. -/
def field {w : Nat} (x : BitVec w) (hi lo : Nat) : Nat := x.toNat / 2 ^ lo % 2 ^ (hi - lo + 1)

/-- A counter of 8 bits rises by 1. -/
def up8 (n : Nat) : Nat := min (n + 1) 0xFF

/-- A scalar register. -/
def sreg (e : Engine) (i : Nat) : Word := lookD e.sregs i 0

/-! ### Micro-words (R290 to R294) -/

/-- The cycles of CYC (R292). -/
def cycles (c : Nat) : Nat := match c with | 0 => 1 | 1 => 2 | 2 => 3 | 3 => 4 | 4 => 6 | 5 => 8 | 6 => 12 | _ => 16

/-- Staging entries of a visible write: one for every 128 bytes or part (R296). -/
def stagedSize (w : Staged) : Nat :=
  match w with
  | .store _ _ bs _ => max 1 (cdiv bs.length 128)
  | .qstore _ bs _ => max 1 (cdiv bs.length 128)
  | .add _ _ _ _ => 1
  | .out => 1

/-- The entries that an engine's staging buffer holds. -/
def stagedCount (l : List Staged) : Nat := (l.map stagedSize).sum

/-- Four condition bits, bit 3 first. -/
def nib (a b c d : Bool) : Nat := (if a then 8 else 0) + (if b then 4 else 0) + (if c then 2 else 0) + (if d then 1 else 0)

/-- A word as it issues: the micro-word and the nano-word that the stores hold, the unit's flags of R294, and what the word meets. -/
structure Issue where
  micro : BitVec 40
  nano  : BitVec 288
  key   : Bool
  spec  : Bool
  fb    : Bool
  env   : MicroIn
  deriving DecidableEq, Repr

/-- A condition group (R294). -/
def condGroup (e : Engine) (w : Issue) (sel : Nat) : Nat :=
  if sel = 1 then nib e.v e.c e.n e.z
  else if sel = 2 then
    nib (decide (24 ≤ stagedCount e.staging)) (decide (8 ≤ e.stack.length)) e.stack.isEmpty (decide (e.lc = 0))
  else if sel = 3 then e.cmp.toNat
  else if sel = 4 then w.env.eaStatus.toNat
  else if sel = 5 then nib w.key (match e.unit with | none => false | some u => decide (u.branch = 1)) w.spec w.fb
  else if sel = 6 then w.env.loadStat.toNat
  else if sel < 16 then 0
  else if sel < 32 then (sreg e (sel - 16)).toNat % 16
  else e.cl.toNat / 2 ^ (4 * (sel - 32)) % 16

/-- The branch address (R293). -/
def branchTo (e : Engine) (w : Issue) : Nat :=
  let k := field w.micro 25 24 + 1
  let g := condGroup e w (field w.micro 23 18)
  let c := (if w.micro.getLsbD 13 then 15 - g else g) % 2 ^ k
  if field w.micro 23 18 = 0 then field w.micro 12 0 else Nat.lor (field w.micro 12 0) c

/-- Does a word's branch break R293's alignment? -/
def misaligned (w : Issue) : Bool :=
  let nxt := field w.micro 28 26
  decide (nxt = 1 ∨ nxt = 2 ∨ nxt = 4) && decide (field w.micro 23 18 ≠ 0) &&
    decide (field w.micro 12 0 % 2 ^ (field w.micro 25 24 + 1) ≠ 0)

/-- A reserved operation value of the nano-word (R295). -/
def nanoIllegal (n : BitVec 288) : Bool :=
  (decide (field n 287 280 ≠ 0) && decide (field n 261 260 = 3)) ||
  (decide (field n 255 248 ≠ 0) && decide (field n 229 228 = 3)) ||
  decide (field n 167 165 = 7) || (decide (field n 167 165 ≠ 0) && decide (6 ≤ field n 138 136)) ||
  decide (7 ≤ field n 135 132) || (decide (field n 135 132 ≠ 0) && (decide (field n 119 118 = 3) || decide (5 ≤ field n 117 112))) ||
  decide (field n 79 78 = 3)

/-- The FAULT kind that a word raises, if any (R289, R291, R293, R295, R313). -/
def wordFault (e : Engine) (w : Issue) : Option Nat :=
  let nxt := field w.micro 28 26
  if misaligned w then some 4
  else if nxt = 7 ∨ nanoIllegal w.nano = true ∨ (nxt = 0 ∧ e.pc = 8191) then some 3
  else if (nxt = 2 ∧ 8 ≤ e.stack.length) ∨ (nxt = 3 ∧ e.stack = []) then some 5
  else if w.env.lmemUe = true ∧ field w.nano 167 165 ≠ 0 then some 6
  else if w.env.blvdErr then some 7
  else none

/-- FAULT (R302): staging is discarded, the kind recorded, the engine reset to wait at DISPATCH, and an event counted in its Quarter's watch. -/
def engFault (e kind : Nat) (s : State) : State :=
  raise (winQtr (e / 32)) 0 0 false (retireQuarter (e / 32))
    (setEng s e (fun x => { x with
      state := 2, pc := 0, staging := [], inMark := none, unit := none, cancel := false, deadline := false, abandoned := false, stack := [],
      gapMax := max x.gapMax x.gap, gap := 0, faultKind := kind, faultCount := up16 x.faultCount, evFault := up8 x.evFault }))

/-! ### Nano-words (R295) -/

/-- A byte of local memory. -/
def lmemByte (e : Engine) (a : Nat) : Byte :=
  if e.seed = 0 then rdCell 0 e.lmem (a % 65536) else
    (match e.lmem.find? (fun c => decide (c.1 = a % 65536)) with | some c => c.2 | none => Config.freeByte e.seed (a % 65536))

/-- A byte of local memory written; with free values beneath, every written byte is listed. -/
def lmemPut (e : Engine) (a : Nat) (b : Byte) : Engine :=
  { e with lmem := if e.seed = 0 then wrCell 0 e.lmem (a % 65536) b else put e.lmem (a % 65536) b }

/-- Bytes of local memory written from an address up. -/
def lmemPuts (e : Engine) (a : Nat) (bs : List Byte) : Engine :=
  match bs with
  | [] => e
  | b :: t => lmemPuts (lmemPut e a b) (a + 1) t

/-- Bytes of local memory. -/
def lmemGet (e : Engine) (a n : Nat) : List Byte := (List.range n).map (fun k => lmemByte e (a + k))

/-- Little-endian bytes as a number. -/
def leNat (bs : List Byte) : Nat := match bs with | [] => 0 | b :: t => b.toNat + 256 * leNat t

/-- A number as n little-endian bytes. -/
def leBytes (v n : Nat) : List Byte := (List.range n).map (fun k => BitVec.ofNat 8 (v / 256 ^ k))

/-- The vector and permute slots: what a variant computes is free (R295). -/
def vectorSlots (nn : BitVec 288) (ctr : Nat) (e : Engine) : Engine :=
  let e1 := if field nn 287 280 = 0 then e else { e with vregs := put e.vregs (field nn 279 274) (Config.freeVec ctr) }
  let e2 := if field nn 255 248 = 0 then e1 else { e1 with vregs := put e1.vregs (field nn 247 242) (Config.freeVec (ctr + 1)) }
  let e3 := if field nn 223 218 = 0 then e2 else { e2 with vregs := put e2.vregs (field nn 217 212) (Config.freeVec (ctr + 2)) }
  if (field nn 287 280 ≠ 0 ∧ field nn 287 285 = 4) ∨ (field nn 255 248 ≠ 0 ∧ field nn 255 253 = 4) then
    { e3 with cmp := (Config.freeWord ctr).truncate 4 } else e3

/-- The scalar slot (R295): the result is free; FLG 1 updates the flags; CLW bit 7 writes them into a nibble of CL. -/
def scalarSlot (nn : BitVec 288) (ctr : Nat) (e : Engine) : Engine :=
  if field nn 199 192 = 0 then e
  else
    let e1 := { e with sregs := put e.sregs (field nn 191 188) (Config.freeWord (ctr + 1)) }
    let f := Config.freeWord (ctr + 2)
    let e2 := if field nn 177 176 = 1 then { e1 with z := bit f 0, n := bit f 1, c := bit f 2, v := bit f 3 } else e1
    if field nn 175 175 = 1 then
      let j := field nn 172 168
      let m : BitVec 128 := 0xF#128 <<< (4 * j)
      { e2 with cl := (e2.cl &&& ~~~m) ||| (BitVec.ofNat 128 (nib e2.v e2.c e2.n e2.z) <<< (4 * j)) }
    else e2

/-- The local-memory slot (R295): rows of 4 × 2^LWIDTH bytes, s[LSTRIDE] apart, fill a vector register; a scalar access is of 4 bytes; what a
gather or scatter touches is free. -/
def lmemSlot (nn : BitVec 288) (ctr : Nat) (e : Engine) : Engine :=
  let op := field nn 167 165
  let reg := field nn 164 159
  let a := (sreg e (field nn 158 155)).toNat + 16 * field nn 154 143
  let stride := (sreg e (field nn 142 139)).toNat
  let w := 4 * 2 ^ field nn 138 136
  let rows := List.range (128 / w)
  match op with
  | 1 => { e with vregs := put e.vregs reg (BitVec.ofNat 1024 (leNat (rows.flatMap (fun r => lmemGet e (a + r * stride) w)))) }
  | 2 =>
    let bs := leBytes (lookD e.vregs reg 0).toNat 128
    rows.foldl (fun e r => lmemPuts e (a + r * stride) ((bs.drop (r * w)).take w)) e
  | 3 => { e with sregs := put e.sregs (reg % 16) (BitVec.ofNat 32 (leNat (lmemGet e a 4))) }
  | 4 => lmemPuts e a (leBytes (sreg e (reg % 16)).toNat 4)
  | 5 => { e with vregs := put e.vregs reg (Config.freeVec (ctr + 3)) }
  | 6 => { e with lmem := [], seed := ctr + 1 }
  | _ => e

/-- The bytes of a Quarter's memory: 4 MiB (R1), addresses modulo its size. DESIGN CHOICE (log entry 73): bytes that nothing has written read 0. -/
def sramBytes (s : State) (q a n : Nat) : List Byte :=
  (List.range n).map (fun k => rdCell 0 (qtrOf s q).sram ((a + k) % 2 ^ 22))

/-- Bytes written to a Quarter's memory. -/
def sramWrite (q a : Nat) (bs : List Byte) (s : State) : State :=
  setQtr s q (fun t => { t with sram := (List.range bs.length).foldl (fun m k => wrCell 0 m ((a + k) % 2 ^ 22) (bs.getD k 0)) t.sram })

/-- The base of a space of R295 that lies in the reserved DRAM (R319), for a Quarter, and its size: 2 the reconstruction work buffers, 3 the ENT
output buffers. DESIGN CHOICE (log entry 73): addresses count from the first buffer of the Quarter, modulo the size. -/
def spaceBase (s : State) (q sp : Nat) : Nat × Nat := if sp = 2 then (workAt s q 0, 2 ^ 26) else (outBufAt s q 0, 2 ^ 26)

/-- What a Boulevard load of an engine of Quarter q brings from a space (R295). DESIGN CHOICE (log entry 73): bytes outside device DRAM read 0. -/
def spaceBytes (s : State) (q sp a n : Nat) : List Byte :=
  match sp with
  | 0 => (List.range n).map (fun k => if a + k < capacity s then readMem s (a + k) else 0)
  | 1 => sramBytes s q a n
  | 4 => (List.range n).map (fun k => rdCell 0 s.ctxCache ((a + k) % 2 ^ 24))
  | _ => let b := spaceBase s q sp; (List.range n).map (fun k => readMem s (b.1 + (a + k) % b.2))

/-- The Boulevard slot (R295): LOAD and QLOAD bring bytes to local memory; visible writes are staged (R296). -/
def blvdSlot (nn : BitVec 288) (s : State) (q : Nat) (e : Engine) : Engine :=
  let a := (sreg e (field nn 131 128)).toNat
  let len := (sreg e (field nn 127 124)).toNat % 65537
  let loc := (sreg e (field nn 123 120)).toNat
  let sp := field nn 117 112
  let tag := field nn 119 118
  match field nn 135 132 with
  | 1 => lmemPuts e loc (spaceBytes s q sp a len)
  | 2 => { e with staging := e.staging ++ [.store sp a (lmemGet e loc len) tag] }
  | 3 => { e with staging := e.staging ++ [.qstore a (lmemGet e loc len) tag] }
  | 4 => lmemPuts e loc (sramBytes s q a len)
  | 6 => { e with staging := e.staging ++ [.add sp a (BitVec.ofNat 32 (leNat (lmemGet e loc 4))) tag] }
  | _ => e

/-- The entropy slot: output of the coder is a visible write of one entry when its status shows an output entry ready (R294, R296). -/
def entropySlot (nn : BitVec 288) (ea : BitVec 4) (e : Engine) : Engine :=
  if field nn 111 110 ≠ 0 ∧ ea.getLsbD 0 = true then { e with staging := e.staging ++ [.out] } else e

/-- The MISC slot (R295). -/
def miscSlot (nn : BitVec 288) (imm : Nat) (e : Engine) : Engine :=
  match field nn 79 78 with
  | 1 => { e with lc := (sreg e (field nn 77 74)).truncate 16 }
  | 2 => { e with lc := BitVec.ofNat 16 imm }
  | _ => e

/-- The operations of a nano-word on engine e of Quarter q. -/
def nanoOps (w : Issue) (s : State) (q : Nat) (e : Engine) : Engine :=
  miscSlot w.nano (field w.micro 13 0)
    (entropySlot w.nano w.env.eaStatus (blvdSlot w.nano s q (lmemSlot w.nano s.freeCtr (scalarSlot w.nano s.freeCtr (vectorSlots w.nano s.freeCtr e)))))

/-- The sequencer (R291): the next micro-PC, the stack and LC. -/
def sequence (e : Engine) (w : Issue) : Nat × List Nat × BitVec 16 :=
  let br := branchTo e w
  match field w.micro 28 26 with
  | 1 => (br, e.stack, e.lc)
  | 2 => (br, (e.pc + 1) :: e.stack, e.lc)
  | 3 => (e.stack.headD 0, e.stack.tail, e.lc)
  | 4 => if e.lc = 0 then (e.pc + 1, e.stack, e.lc) else (if e.lc - 1 = 0 then e.pc + 1 else br, e.stack, e.lc - 1)
  | 6 => (e.saved, e.stack, e.lc)
  | _ => (e.pc + 1, e.stack, e.lc)

/-- The frame and band of a unit. -/
def unitBand (s : State) (u : UnitRef) : Option (Session × Frame × Band) :=
  (look s.sessions u.handle).bind (fun x => (x.frames.find? (fun f => decide (f.num = u.frame))).bind (fun f =>
    (look f.bands u.band).map (fun b => (x, f, b))))

/-- Do a unit's outputs carry a speculative mark (R172, R211): it lies in the first block row of a band below one that has not committed? -/
def speculative (x : Session) (f : Frame) (u : UnitRef) : Bool :=
  decide (u.stage < 99) && decide (u.block < colBlocks x.stream.codec f.width u.col) && decide (1 < u.band) &&
  (match look f.bands (u.band - 1) with | none => false | some p => decide (p.st ≠ 3))

/-- The micro-word at an address of an engine's store; the words that no image gives are all ones (R306). -/
def microAt (e : Engine) (a : Nat) : BitVec 40 := e.micro.getD a (BitVec.allOnes 40)

/-- The nano-word at an address of a Quarter's store (R306). -/
def nanoAt (s : State) (q a : Nat) : BitVec 288 := (qtrOf s q).nano.getD a (BitVec.allOnes 288)

/-- The word that an engine issues next (R288, R290, R294). -/
def issueOf (s : State) (engine : Nat) (env : MicroIn) : Issue :=
  let e := engOf s engine
  let w := microAt e e.pc
  let b := e.unit.bind (unitBand s)
  { micro := w, nano := nanoAt s (engine / 32) (field w 39 29), env := env,
    key := match b with | some (_, f, _) => f.key | none => false,
    spec := match b, e.unit with | some (x, f, _), some u => speculative x f u | _, _ => false,
    fb := match b with | some (_, _, b) => b.fb || b.deadline | none => false }

/-- Does the engine run words? -/
def engRuns (e : Engine) : Bool := (decide (e.state = 3) || decide (e.state = 4)) && e.inMark.isNone

/-- A word without a fault has its effect (R291, R292, R296, R298): the count of cycles takes the word's and those that it stalled. -/
def runWord (engine : Nat) (w : Issue) (s : State) : State :=
  let e := engOf s engine
  let nxt := field w.micro 28 26
  let (pc, stack, lc) := sequence e w
  let mark := w.micro.getLsbD 14 || decide (nxt = 5)
  let e1 := nanoOps w s (engine / 32) { e with stack := stack, lc := lc }
  let n := stagedCount e1.staging
  let took := w.env.stall + cycles (field w.micro 17 15)
  let gap := e.gap + took
  if 32 < n then engFault engine 2 s
  else if 8192 ≤ gap then engFault engine 1 s
  else
    { setEng s engine (fun _ => { e1 with
        gap := gap, hwm := max e1.hwm n, busyNow := e1.busyNow + took,
        pc := if mark then e1.pc else pc, inMark := if mark then some (if nxt = 5 then .dispatch else .goto pc) else none,
        state := if nxt = 6 then 3 else e1.state, abandoned := if nxt = 6 then false else e1.abandoned }) with freeCtr := s.freeCtr + 4 }

/-- MICROWORD_ISSUE (R291 to R296, R298): the word at the micro-PC of the engine's store. -/
def execMicrowordIssue (engine : Nat) (mw : MicroIn) (s : State) : Host.Outcome State Fault Refusal :=
  live s (fun s =>
    if 512 ≤ engine ∨ !engRuns (engOf s engine) then s
    else
      match wordFault (engOf s engine) (issueOf s engine mw) with
      | some k => engFault engine k s
      | none => runWord engine (issueOf s engine mw) s)

/-- A PIX unit has committed: its last mark is published (R101). -/
def unitDone (u : UnitRef) (s : State) : State :=
  setSess s u.handle (fun x =>
    if x.tan.role = 2 then
      { x with tan := { x.tan with run := x.tan.run.map (fun r =>
          if r.1 = u.frame ∧ r.2.k = u.band then (r.1, { r.2 with units := r.2.units ++ [(u.block, u.stage)] }) else r) } }
    else if x.kind = 1 then
      { x with dec := { x.dec with queue := x.dec.queue.map (fun a =>
          if (look x.pics a.desc).any (fun p => decide (p.frame = u.frame)) then
            { a with run := a.run.map (fun b => if b.k = u.band then { b with units := b.units ++ [(u.block, u.stage)] } else b) } else a) } }
    else
      { x with frames := x.frames.map (fun f =>
          if f.num = u.frame then
            { f with bands := alter f.bands u.band (fun b => { b with units := b.units ++ [(u.branch, u.col, u.block, u.stage)] }) } else f) })

/-- Bytes of a space are written by an engine of Quarter q (R295). DESIGN CHOICE (log entry 73): a write outside device DRAM has no effect. -/
def spaceWrite (q sp a : Nat) (bs : List Byte) (s : State) : State :=
  match sp with
  | 0 => if a + bs.length ≤ capacity s then storeMem a bs s else s
  | 1 => sramWrite q a bs s
  | 4 => { s with ctxCache := (List.range bs.length).foldl (fun m k => wrCell 0 m ((a + k) % 2 ^ 24) (bs.getD k 0)) s.ctxCache }
  | _ => let b := spaceBase s q sp; (List.range bs.length).foldl (fun s k => writeMem (b.1 + (a + k) % b.2) [bs.getD k 0] s) s

/-- A staged write of an engine of Quarter q is published; a Boulevard store takes its log mark now (R32, R297). -/
def publishOne (q : Nat) (s : State) (w : Staged) : State :=
  match w with
  | .store sp a bs _ => spaceWrite q sp a bs (stamp s)
  | .qstore a bs _ => sramWrite q a bs (stamp s)
  | .add sp a v _ => spaceWrite q sp a (leBytes (leNat (spaceBytes s q sp a 4) + v.toNat) 4) (stamp s)
  | .out => s

/-- Staged writes are published in issue order (R297). -/
def publish (q : Nat) (l : List Staged) (s : State) : State := l.foldl (publishOne q) s

/-- MARK_WORD_COMPLETE (R297, R300, R301). -/
def execMarkWordComplete (engine : Nat) (s : State) : Host.Outcome State Fault Refusal :=
  live s (fun s =>
    let e := engOf s engine
    match e.inMark with
    | none => s
    | some next =>
      if (e.cancel || e.deadline) = true then
        setEng s engine (fun e => { e with
          staging := [], sregs := e.savedS, pc := if e.cancel then 4 else 8, state := 4, inMark := none, abandoned := true,
          gapMax := max e.gapMax e.gap, gap := 0, marks := up e.marks 1, cancel := false, deadline := false,
          evCancel := if e.cancel then up8 e.evCancel else e.evCancel, evDeadline := if e.cancel then e.evDeadline else up8 e.evDeadline })
      else
        let s1 := publish (engine / 32) e.staging s
        let base := fun (e : Engine) => { e with
          staging := [], inMark := none, gapMax := max e.gapMax e.gap, gap := 0, marks := up e.marks 1, savedS := e.sregs }
        match next with
        | .goto pc => setEng s1 engine (fun e => { base e with pc := pc, saved := pc })
        | .dispatch =>
          let s2 := setEng s1 engine (fun e => { base e with state := 2, unit := none, abandoned := false, cancel := false, deadline := false })
          match e.unit with
          | none => s2
          | some u => if e.abandoned then s2 else unitDone u s2)

/-- MARK_WATCHDOG (R298). -/
def execMarkWatchdog (engine : Nat) (s : State) : Host.Outcome State Fault Refusal :=
  live s (fun s =>
    let e := engOf s engine
    if 512 ≤ engine ∨ ¬ (e.state = 3 ∨ e.state = 4) then s
    else engFault engine 1 (setEng s engine (fun e => { e with gap := max e.gap 8192 })))

/-- A dispatcher gives an engine a unit (R101, R291): it continues at an entry address that the dispatcher supplies and that no rule gives. -/
def startUnit (n : Nat) (u : UnitRef) (s : State) : State :=
  let (w, s1) := takeFree s
  setEng s1 n (fun e => { e with
    state := 3, unit := some u, pc := w.toNat % 8192, saved := w.toNat % 8192, savedS := e.sregs, staging := [], inMark := none, gap := 0,
    cancel := false, deadline := false, abandoned := false })

/-- An event becomes pending on the engines whose unit p picks (R299). -/
def pendEvent (isCancel : Bool) (p : UnitRef → Bool) (s : State) : State :=
  { s with engines := s.engines.map (fun e =>
      match e.2.unit with
      | none => e
      | some u =>
        if p u && decide (e.2.role ≠ 1) then
          (e.1, if isCancel then { e.2 with cancel := true } else { e.2 with deadline := true }) else e) }

/-! ### Store images (R42, R43, R306, R307) -/

/-- The District in force of a Quarter; none has been given: all OFF. -/
def districtOf (s : State) (q : Nat) : District :=
  (look s.plan.districts q).getD { mcSet := 0, weight := 0, ctxSlots := 0, roles := List.replicate 32 6 }

/-- The entry of a role in a Quarter's microcode set (R42). -/
def setEntry (s : State) (q role : Nat) : Option McEntry :=
  s.plan.mc.find? (fun e => decide (e.set = (districtOf s q).mcSet) && decide (e.role = role))

/-- The library image of a role for a Quarter: that which the set's entry names (R43, R307). -/
def storeFor (s : State) (q role : Nat) : Option McImage :=
  (setEntry s q role).bind (fun e => s.mclib.images.find? (fun m =>
    decide (m.role = e.role ∧ m.imageId = e.imageId ∧ m.svn = e.svn ∧ m.digest = e.digest)))

/-- The role whose image an engine takes (R307): a SPARE engine the image of the role that it stands in for, else that of PIX. -/
def imageRole (s : State) (q k : Nat) : Nat :=
  let r := (districtOf s q).roles.getD k 6
  if r = 5 then (match look s.bist.standIn q with | some e => (districtOf s q).roles.getD e 0 | none => 0) else r

/-- Does the library hold every image that a Quarter loads (R307)? -/
def storesFound (s : State) (q : Nat) : Bool :=
  (storeFor s q 15).isSome && (List.range 32).all (fun k => decide (imageRole s q k = 6) || (storeFor s q (imageRole s q k)).isSome)

/-- The micro-store of an engine takes the image of a role (R307). -/
def loadMicro (q k role : Nat) (s : State) : State :=
  match storeFor s q role with
  | none => s
  | some m => setEng s (32 * q + k) (fun e => { e with micro := m.words.map (BitVec.ofNat 40) })

/-- The stores of a Quarter are loaded (R307). -/
def loadStores (q : Nat) (s : State) : State :=
  let s1 := match storeFor s q 15 with
    | none => s
    | some m => setQtr s q (fun t => { t with nano := m.words.map (BitVec.ofNat 288) })
  (List.range 32).foldl (fun s k => loadMicro q k (imageRole s q k) s) s1

/-- REZONE (R299, R302): every engine of a Quarter stops at once and loads; its unit is lost. -/
def rezoneEngines (q : Nat) (s : State) : State :=
  (List.range 32).foldl (fun s k =>
    let held := (engOf s (32 * q + k)).unit.isSome
    setEng s (32 * q + k) (fun e => { e with
      state := 1, pc := 0, staging := [], inMark := none, unit := none, cancel := false, deadline := false, abandoned := false, gap := 0,
      evRezone := if held then up8 e.evRezone else e.evRezone })) s

/-- A session codes the next frame it starts as a key frame (R245). -/
def wantKey (h : Nat) (s : State) : State := setSess s h (fun x => { x with ltr := { x.ltr with key := true } })

end Sys2Proof.Machine
end

