-- ==== Sys2Proof/Machine/Cost.lean ====
section
/-! DEFINITION. Bands, costs, cadence, planned load, admission and placement (R86, R89, R99 to R111). PIX costs are in 1/8 cycle. -/

namespace Sys2Proof.Machine

open Sys2Proof

/-- The Bells of one second (R11). -/
def baseOf (s : State) : Nat := if s.bell.rateAct then 600 else 720

/-- F of a frame rate (R105). -/
def framesF (s : State) (fps : Nat) : Nat := baseOf s / max 1 fps

/-- The frame rates of R1 for the base rate in force: the divisors of the base rate from 24 to 240. -/
def fpsOk (s : State) (fps : Nat) : Bool := decide (24 ≤ fps) && decide (fps ≤ 240) && decide (baseOf s % fps = 0)

/-- The resolution class of a picture (R47). -/
def resClass (pixels : Nat) : Nat :=
  if pixels ≤ 921600 then 0 else if pixels ≤ 2073600 then 1 else if pixels ≤ 3686400 then 2 else if pixels ≤ 9437184 then 3 else 4

/-- PIX cycles per pixel at 8-bit in 1/8 cycle (R103). -/
def pixRate (cls effort : Nat) : Nat :=
  let fast := match cls with | 0 => 92 | 1 => 92 | 2 => 88 | 3 => 84 | _ => 80
  let std := match cls with | 0 => 140 | 1 => 140 | 2 => 136 | 3 => 132 | _ => 128
  match effort with | 0 => fast | 1 => std | _ => 2 * std

/-- The PIX cost of a band's pixels in 1/8 cycle (R103, R104): a decode band costs the FAST column. -/
def pixCost (decode : Bool) (o : StreamOps) (effort pixels : Nat) : Nat :=
  let r := pixRate (resClass (o.width * o.height)) (if decode then 0 else effort)
  pixels * (if o.depth = 1 then r * 5 / 4 else r)

/-- The PIX cost of band k (R103). -/
def bandCost (decode : Bool) (o : StreamOps) (effort k : Nat) : Nat := pixCost decode o effort (o.width * bandRows o.height k)

/-- A(k) + 1 of R106 counted from slot numbers shifted by one: cum 0 is A(−1), cum (k + 1) is A(k). -/
def cum (n f k1 : Nat) : Nat := cdiv (k1 * n) (max 1 f)

/-- a(k) of R106. -/
def perSlot (n f k : Nat) : Nat := cum n f (k + 1) - cum n f k

/-- The PIX cost of the in-cadence bands of slot k (R109): all bands but the last are full. -/
def slotCost (decode : Bool) (o : StreamOps) (effort f k : Nat) : Nat :=
  let n := bandsOf o.height
  let a := cum n f k
  let b := cum n f (k + 1)
  if b = n ∧ a < b then (b - a - 1) * bandCost decode o effort 1 + bandCost decode o effort n else (b - a) * bandCost decode o effort 1

/-- A session as admission counts it: configuration, effort and phase; shift is the pair offset of a paired session's Bell numbers modulo the base
rate (R434). -/
structure Load where
  decode : Bool
  o      : StreamOps
  effort : Nat
  phase  : Nat
  shift  : Nat
  conv   : Nat
  deriving DecidableEq, Repr

/-- PRE cycles per output pixel in 1/16 cycle (R104, R144): conversion of packed RGB, one charge for scaling, rotation, mirroring or
compositing. -/
def preRate (sub : SubmitOps) (o : StreamOps) : Nat :=
  let rot := sub.orient % 4
  let w := if rot % 2 = 1 then sub.srcHeight else sub.srcWidth
  let h := if rot % 2 = 1 then sub.srcWidth else sub.srcHeight
  (if 2 ≤ sub.format then 20 else 0) +
    (if w ≠ o.width ∨ h ≠ o.height ∨ sub.orient % 8 ≠ 0 ∨ sub.compMode ≠ 0 then 16 else 0)

/-- The effort that planning counts: a changed effort counts from the decision (R118). -/
def planEffort (x : Session) : Nat := x.effortTo.getD x.effort

/-- The Quarter on which planning counts a session (R90). -/
def planQuarter (x : Session) : Nat := x.moveTo.getD x.quarter

/-- PRE's rate of a session: of its newest frame's SUBMIT_FRAME, else of its binding. -/
def convOf (x : Session) : Nat :=
  match x.frames.getLast? with
  | some f => preRate f.ops x.stream
  | none => match x.binding with | none => 0 | some b => preRate b.ops x.stream

/-- An ACTIVE session's load; a shadow is booked as an encode session at EFFORT_MIN (R438). -/
def loadOf (s : State) (x : Session) : Load :=
  { decode := decide (x.kind = 1), o := x.stream, effort := if x.tan.role = 2 then x.stream.effortMin else planEffort x,
    phase := x.phase.getD 0, shift := if x.tan.role = 0 then 0 else (s.tandem.offset.toInt % (baseOf s : Int)).toNat, conv := if x.kind = 1 then 0 else convOf x }

/-- The loads admitted on Quarter q, leaving out session skip (R109). -/
def loadsOn (s : State) (q : Nat) (skip : Option Nat) : List Load :=
  (s.sessions.filter (fun e => decide (e.2.state = 2) && decide (planQuarter e.2 = q) && decide (some e.1 ≠ skip))).map (fun e => loadOf s e.2)

/-- A load's planned PIX cost at Bell position j (R109). -/
def loadAt (base : Nat) (l : Load) (j : Nat) : Nat :=
  let f := base / max 1 l.o.fps
  slotCost l.decode l.o l.effort f ((j + l.shift + base - l.phase % max 1 f) % max 1 f)

/-- The planned load at position j (R109). -/
def plannedAt (base : Nat) (ls : List Load) (j : Nat) : Nat := (ls.map (fun l => loadAt base l j)).sum

/-- The planned peak and how many positions reach it (R107, R109). -/
def plannedPeak (base : Nat) (ls : List Load) : Nat × Nat :=
  (List.range base).foldl (fun m j =>
    let v := plannedAt base ls j
    if m.1 < v then (v, 1) else if v = m.1 then (m.1, m.2 + 1) else m) (0, 0)

/-- The engines of a role in a Quarter's District (R39). -/
def roleCount (s : State) (q role : Nat) : Nat :=
  match look s.plan.districts q with
  | none => 0
  | some d => (d.roles.filter (fun r => decide (r = role))).length

/-- The thermal factor (R118). -/
def thermalFactor (level : Nat) : Nat := match level with | 0 => 100 | 1 => 90 | 2 => 75 | _ => 60

/-- Cycles per Bell of an engine (R28). -/
def cyclesPerBell (s : State) : Nat := if s.bell.rateAct then 3000000 else 2500000

/-- The admissible cycles of a role in a Quarter (R109, R110); the division by 10,000 leaves no rest. -/
def roleCap (s : State) (q role : Nat) : Nat :=
  roleCount s q role * cyclesPerBell s * s.plan.cfg.headroom * thermalFactor s.pwr.level / 10000

/-- The admissible capacity in whole cycles (R109, QTR_PIX_CAP). -/
def pixCap (s : State) (q : Nat) : Nat := roleCap s q 0

/-- The planned peak of a Quarter in 1/8 cycle. -/
def pixPeak (s : State) (q : Nat) : Nat := (plannedPeak (baseOf s) (loadsOn s q none)).1

/-- A load's frame cost in a role beside PIX, in 1/16 cycle (R104): 1 ENT, 2 LA, 3 RCK, 4 PRE. -/
def roleCost (role : Nat) (l : Load) : Nat :=
  let px := l.o.width * l.o.height
  match role with
  | 1 => px * (if l.o.depth = 1 then 15 else 12)
  | 2 => if l.decode || decide (l.effort = 0) then 0 else px * 4
  | 3 => if l.decode then 0 else bandsOf l.o.height * 16384 * 16
  | _ => if l.decode then 0 else px * l.conv

/-- Do a role's average costs fit (R110)? A frame cost divided by F is the cost times FPS over the base rate. -/
def roleFits (s : State) (q role : Nat) (ls : List Load) : Bool :=
  decide ((ls.map (fun l => roleCost role l * l.o.fps)).sum ≤ roleCap s q role * 16 * baseOf s)

/-- Admission of a set of loads on a Quarter (R110). -/
def loadsFit (s : State) (q : Nat) (ls : List Load) : Bool :=
  decide ((plannedPeak (baseOf s) ls).1 ≤ pixCap s q * 8) && [1, 2, 3, 4].all (fun r => roleFits s q r ls)

/-- The phase that R107 chooses for a load on a Quarter. -/
def choosePhase (s : State) (q : Nat) (skip : Option Nat) (l : Load) : Nat :=
  let others := loadsOn s q skip
  let best := (List.range (framesF s l.o.fps)).foldl
    (fun (b : Option (Nat × Nat × Nat)) (p : Nat) =>
      let v := plannedPeak (baseOf s) ({ l with phase := p } :: others)
      match b with
      | none => some (v.1, v.2, p)
      | some (pk, n, bp) => if v.1 < pk ∨ (v.1 = pk ∧ v.2 < n) then some (v.1, v.2, p) else some (pk, n, bp)) none
  match best with | none => 0 | some (_, _, p) => p

/-- A Quarter whose planned peak exceeds its capacity admits nothing new until it fits (R118). -/
def overFull (s : State) (q : Nat) : Bool := decide (pixCap s q * 8 < pixPeak s q)

/-- Would Quarter q admit the load with its phase, or with the phase that R107 would choose (R110)? -/
def admits (s : State) (q : Nat) (skip : Option Nat) (l : Load) (phase : Option Nat) : Bool :=
  let p := match phase with | some p => p | none => choosePhase s q skip l
  decide ((qtrOf s q).state = 1) && loadsFit s q ({ l with phase := p } :: loadsOn s q skip)

/-- The SERVICE Quarters; one whose drain is pending still serves (R60). -/
def serving (s : State) : List Nat := (List.range 16).filter (fun q => decide ((qtrOf s q).state = 1))

/-- The key of the placement order (R89): PLACE_WEIGHT times the free admissible cycles. -/
def placeKey (s : State) (q : Nat) : Nat := (qtrOf s q).weight * (pixCap s q * 8 - pixPeak s q)

/-- q placed in a list that is sorted by descending key, lower numbers first on a tie. -/
def insertKey (key : Nat → Nat) (q : Nat) (l : List Nat) : List Nat :=
  match l with
  | [] => [q]
  | a :: t => if key a < key q then q :: a :: t else a :: insertKey key q t

/-- The placement order (R89). -/
def placeOrder (s : State) : List Nat := (serving s).foldl (fun l q => insertKey (placeKey s) q l) []

/-- The efforts from a down to b. -/
def effortsDown (a b : Nat) : List Nat := (List.range (a + 1 - b)).map (fun k => a - k)

/-- The first Quarter of a list and effort of a list that admit the load: the whole order at each effort (R89). -/
def firstFit (s : State) (skip : Option Nat) (l : Load) (phase : Option Nat) (qs es : List Nat) : Option (Nat × Nat) :=
  match es with
  | [] => none
  | e :: t =>
    match qs.find? (fun q => admits s q skip { l with effort := e } phase) with
    | some q => some (q, e)
    | none => firstFit s skip l phase qs t

/-- The first Quarter of a list that admits the load at some effort of a list (OPEN_SESSION and the re-placements of R61). -/
def firstSome (s : State) (skip : Option Nat) (l : Load) (phase : Option Nat) (qs es : List Nat) : Option (Nat × Nat) :=
  match qs with
  | [] => none
  | q :: t =>
    match es.find? (fun e => admits s q skip { l with effort := e } phase) with
    | some e => some (q, e)
    | none => firstSome s skip l phase t es

/-- The pinned sessions of a Quarter. -/
def pinnedOn (s : State) (q : Nat) (skip : Option Nat) : Nat :=
  (s.sessions.filter (fun e => e.2.pinned && decide (planQuarter e.2 = q) && decide (some e.1 ≠ skip))).length

/-- CTX_SLOTS of a Quarter (R39). -/
def ctxSlots (s : State) (q : Nat) : Nat := match look s.plan.districts q with | none => 0 | some d => d.ctxSlots

/-- Is a context slot free to Quarter q (R41, R86)? -/
def slotFree (s : State) (q : Nat) (skip : Option Nat) : Bool :=
  let shared := 4096 - ((List.range 16).map (fun q => ctxSlots s q)).sum
  let used := ((List.range 16).map (fun k => pinnedOn s k skip - ctxSlots s k)).sum
  decide (((List.range 16).map (fun k => pinnedOn s k skip)).sum < 4096) && (decide (pinnedOn s q skip < ctxSlots s q) || decide (used < shared))

/-- Admission of a frame start of an OPEN or IDLE session (R86, R89): its own Quarter at its current effort, then the order at each effort.
A session without a placement starts at the order. -/
def frameAdmit (s : State) (h : Nat) (x : Session) (l : Load) : Except Code (Nat × Nat) :=
  let es := effortsDown l.effort (min l.effort x.stream.effortMin)
  let found := if admits s x.quarter (some h) l x.phase then some (x.quarter, l.effort)
               else firstFit s (some h) l x.phase (placeOrder s) es
  match found with
  | none => .error 0x020A
  | some (q, e) => if slotFree s q (some h) then .ok (q, e) else .error 0x0209

/-- A session without admitted cycles is placed on a Quarter (R61, R89): the Quarter, or none where no Quarter is in SERVICE. -/
def placeIdle (s : State) (h : Nat) (x : Session) : Option Nat :=
  let order := placeOrder s
  match firstSome s (some h) (loadOf s x) x.phase order (effortsDown (planEffort x) (min (planEffort x) x.stream.effortMin)) with
  | some (q, _) => some q
  | none => order.head?

/-- The capacity check of R51 and R54 for a full plan: its PIX cycles per Bell in service and not spare, times HEADROOM_PCT, hold the average
load admitted now. Both are in 1/8 cycle times the base rate times 100. DESIGN CHOICE (log entry 72): the load is the average PIX cost per Bell of
the ACTIVE sessions, and the Quarters in service are those of the plan that are not all OFF and not RETIRED, less the last SPARE_QUARTERS. -/
def fullCapacityOk (s : State) (img : PlanImage) : Bool :=
  let live := img.districts.filter (fun d => d.2.roles.any (fun r => decide (r ≠ 6)) && decide ((qtrOf s d.1).state ≠ 7 ∨ s.plan.first = false))
  let pix := (live.map (fun d => (d.2.roles.filter (fun r => decide (r = 0))).length))
  let keep := (pix.take (pix.length - img.cfg.spares)).sum
  let need := (s.sessions.filter (fun e => decide (e.2.state = 2))).map (fun e =>
    let l := loadOf s e.2
    ((List.range (bandsOf l.o.height)).map (fun k => bandCost l.decode l.o l.effort (k + 1))).sum * l.o.fps)
  decide (need.sum * 100 ≤ keep * cyclesPerBell s * img.cfg.headroom * 8 * baseOf s)

/-- A load's average PIX cost per Bell, in 1/8 cycle times the base rate. -/
def avgCost (l : Load) : Nat :=
  ((List.range (bandsOf l.o.height)).map (fun k => bandCost l.decode l.o l.effort (k + 1))).sum * l.o.fps

/-- The capacity check of R51 for the rezone of Quarter q: its admitted load fits the free headroom of the others in service and the spares. -/
def partCapacityOk (s : State) (q : Nat) : Bool :=
  let avgOn := fun k => ((loadsOn s k none).map avgCost).sum
  let others := (List.range 16).filter (fun k => decide (k ≠ q) && (decide ((qtrOf s k).state = 1) || decide ((qtrOf s k).state = 2)))
  decide (avgOn q ≤ (others.map (fun k => pixCap s k * 8 * baseOf s - avgOn k)).sum)

end Sys2Proof.Machine
end

