-- ==== Sys2Proof/Machine/PlanImage.lean ====
section
/-! DEFINITION. The Street Plan image: its layout (R33 to R50) and the consistency checks in their order (R51, R602). -/

namespace Sys2Proof.Machine

open Sys2Proof

/-- n little-endian bytes of an image from offset o; bytes beyond the end read 0. -/
def le (b : List Byte) (o n : Nat) : Nat := leNat ((b.drop o).take n)

/-- The bytes of a range. -/
def slice (b : List Byte) (o n : Nat) : List Byte := (b.drop o).take n

/-- n big-endian bytes of an image from offset o as a number. -/
def be (b : List Byte) (o n : Nat) : Nat := leNat ((slice b o n).reverse)

/-- The bytes that a signature block at the end of an image signs (R36). -/
def signedPart (b : List Byte) : List Byte := b.take (b.length - 128)

/-- The signature block that ends an image verifies with a public key: r and s are big-endian at 0x20 and 0x50 (R36). -/
def signed (key b : List Byte) : Bool :=
  let o := b.length - 128
  Config.ecdsaP384 key (Config.sha384 (signedPart b)) (be b (o + 0x20) 48) (be b (o + 0x50) 48)

/-- The public key that the security block holds for a signer (R34, R535): the vendor's, or that of the active owner slot. -/
def signerKey (s : State) (signer : Nat) : List Byte :=
  if signer = 0 then s.sec.vendorKey else match s.sec.accepted.head? with | none => [] | some k => lookD s.sec.ownerKeys k []

/-- A digest as a number: its first byte is the lowest. -/
def digestOf (b : List Byte) : BitVec 384 := BitVec.ofNat 384 (leNat b)

/-- A section-table entry (R35). -/
structure Sec0 where
  typ  : Nat
  inst : Nat
  off  : Nat
  len  : Nat
  ver  : Nat
  resv : Nat
  deriving DecidableEq, Repr

/-- The section table (R34, R35). -/
def sections (b : List Byte) : List Sec0 :=
  (List.range (le b 6 2)).map (fun i =>
    let o := 0x20 + 16 * i
    { typ := le b o 2, inst := le b (o + 2) 2, off := le b (o + 4) 4, len := le b (o + 8) 4, ver := le b (o + 12) 2, resv := le b (o + 14) 2 })

/-- Does a section have the length that its layout gives (R38)? -/
def lengthOk (b : List Byte) (x : Sec0) : Bool :=
  match x.typ with
  | 1 => decide (x.len = 32)
  | 2 => decide (8 ≤ x.len) && decide ((x.len - 8) % 56 = 0)
  | 3 => decide (x.len = 16)
  | 4 => decide (x.len = 136)
  | 9 => decide (x.len = 720)
  | 10 => decide (x.len = 8 + 16 * le b x.off 4)
  | 11 => decide (x.len = 8 + 8 * le b x.off 4)
  | t => if 5 ≤ t ∧ t ≤ 8 then decide (x.len = 8) else true

/-- Do two sections overlap? -/
def overlaps (x y : Sec0) : Bool := decide (x.off < y.off + y.len) && decide (y.off < x.off + x.len)

/-- R35 for every section. -/
def boundsOk (b : List Byte) (total : Nat) (xs : List Sec0) : Bool :=
  xs.all (fun x => decide (x.off % 8 = 0) && decide (0x20 + 16 * xs.length ≤ x.off) && decide (x.off + x.len + 128 ≤ total) && lengthOk b x) &&
  (List.range xs.length).all (fun i => (List.range i).all (fun j =>
    match xs[i]?, xs[j]? with
    | some x, some y => !overlaps x y
    | _, _ => true))

/-- The sections of a type. -/
def ofType (xs : List Sec0) (t : Nat) : List Sec0 := xs.filter (fun x => decide (x.typ = t))

/-- The section counts and instances of R38. DESIGN CHOICE (log entry 72): a header KIND above 1, and a partial plan as the default plan of R53 and
R598, fail here. -/
def setOk (b : List Byte) (kind : Nat) (first : Bool) (xs : List Sec0) : Bool :=
  let n := fun t => (ofType xs t).length
  let ds := ofType xs 1
  decide (kind ≤ if first then 0 else 1) &&
  xs.all (fun x => if x.typ = 1 then decide (x.inst < 16) && decide (le b x.off 1 = x.inst) else decide (x.inst = 0)) &&
  (if kind = 0 then
     decide (ds.length = 16) && (List.range 16).all (fun q => ds.any (fun d => decide (d.inst = q))) &&
     [2, 3, 4, 5, 6, 7, 8, 9, 10, 11].all (fun t => decide (n t = 1))
   else
     decide (ds.length = 1) && decide (n 2 ≤ 1) && decide (n 10 ≤ 1) && [3, 4, 5, 6, 7, 8, 9, 11].all (fun t => decide (n t = 0)))

/-- The reserved bytes of a section (R37). DESIGN CHOICE (log entry 72): a MEMMAP ORDER above 3 is a reserved value and fails here. -/
def sectionZero (b : List Byte) (x : Sec0) : Bool :=
  let z := fun o n => decide (le b (x.off + o) n = 0)
  match x.typ with
  | 1 => z 6 2 && z 0x18 8
  | 2 => z 1 7
  | 3 => z 10 6
  | 4 => z 0x14 4 && z 0x7C 4
  | 5 => z 1 7 && decide (le b x.off 1 ≤ 3)
  | 6 => z 3 5
  | 7 => z 1 1 && z 4 4
  | 8 => z 1 1 && z 4 4
  | 9 => (List.range 90).all (fun i => z (8 * i + 2) 2)
  | 10 => z 4 4 && (List.range (le b x.off 4)).all (fun i => z (8 + 16 * i + 4) 4)
  | 11 => z 4 4
  | _ => true

/-- A DISTRICT section (R39). -/
def district (b : List Byte) (x : Sec0) : Nat × District :=
  (x.inst, { mcSet := le b (x.off + 1) 1, weight := le b (x.off + 2) 2, ctxSlots := le b (x.off + 4) 2,
             roles := (List.range 32).map (fun e => le b (x.off + 8 + e / 2) 1 / 16 ^ (e % 2) % 16) })

/-- Every engine OFF (R41). -/
def allOff (d : District) : Bool := d.roles.all (fun r => decide (r = 6))

/-- R41's role rule. -/
def rolesOk (d : District) : Bool := allOff d || [0, 1, 2, 3, 4, 5].all (fun r => d.roles.any (fun k => decide (k = r)))

/-- The MICROCODE entries (R42). -/
def mcEntries (b : List Byte) (x : Sec0) : List McEntry :=
  (List.range ((x.len - 8) / 56)).map (fun i =>
    let o := x.off + 8 + 56 * i
    { set := le b o 1, role := le b (o + 1) 1, imageId := le b (o + 2) 2, svn := le b (o + 4) 4, digest := digestOf (slice b (o + 8) 48) })

/-- The six ROLE values of R42. -/
def mcRoles : List Nat := [0, 1, 2, 3, 4, 15]

/-- Every set of a MICROCODE section has exactly one entry for each ROLE, and SET_COUNT sets are defined (R42). -/
def mcOk (setCount : Nat) (es : List McEntry) : Bool :=
  let sets := es.foldl (fun l e => addS l e.set) []
  decide (1 ≤ setCount) && decide (setCount ≤ 16) && decide (sets.length = setCount) && decide (es.length = 6 * setCount) &&
  es.all (fun e => decide (e.set < 16) && has mcRoles e.role) &&
  sets.all (fun k => mcRoles.all (fun r => decide ((es.filter (fun e => decide (e.set = k) && decide (e.role = r))).length = 1)))

/-- R43: the entry names an image of the library with equal IMAGE_SVN and digest. -/
def inLibrary (s : State) (e : McEntry) : Bool :=
  s.mclib.images.any (fun m => decide (m.role = e.role) && decide (m.imageId = e.imageId) && decide (m.svn = e.svn) && decide (m.digest = e.digest))

/-- The global sections of a full plan (R44 to R46). -/
def planCfg (b : List Byte) (xs : List Sec0) : PlanCfg :=
  let at1 := fun t => ((ofType xs t).head?.map (fun x => x.off)).getD b.length
  { weights := (List.range 10).map (fun i => le b (at1 3 + i) 1), counts := (List.range 5).map (fun i => le b (at1 4 + 4 * i) 4),
    quotas := (List.range 25).map (fun i => le b (at1 4 + 0x18 + 4 * i) 4), taskq := le b (at1 4 + 0x80) 4, flowq := le b (at1 4 + 0x84) 4,
    order := le b (at1 5) 1, gating := le b (at1 6) 1, gang := le b (at1 6 + 1) 1, moored := le b (at1 6 + 2) 1, spares := le b (at1 7) 1,
    sample := le b (at1 7 + 2) 2, headroom := le b (at1 8) 1, permil := le b (at1 8 + 2) 2 }

/-- The PRIORS entries (R47). -/
def priorsOf (b : List Byte) (o : Nat) : List Prior :=
  (List.range 90).map (fun i =>
    { qpKey := le b (o + 8 * i) 1, qpInter := le b (o + 8 * i + 1) 1, kKey := le b (o + 8 * i + 4) 2, kInter := le b (o + 8 * i + 6) 2 })

/-- R48 for entry i. -/
def priorOk (i : Nat) (p : Prior) : Bool :=
  if 75 ≤ i then decide (p.qpKey = 0 ∧ p.qpInter = 0 ∧ p.kKey = 0 ∧ p.kInter = 0)
  else if i < 30 then decide (1 ≤ p.qpKey ∧ 1 ≤ p.qpInter ∧ p.kKey ≠ 0 ∧ p.kInter ≠ 0)
  else decide (p.qpKey ≤ 51 ∧ p.qpInter ≤ 51 ∧ p.kKey ≠ 0 ∧ p.kInter ≠ 0)

/-- The BIST entries (R49). -/
def bistOf (b : List Byte) (o n : Nat) : List BistEntry :=
  (List.range n).map (fun i =>
    { target := le b (o + 8 + 16 * i) 2, variant := le b (o + 8 + 16 * i + 2) 2, sig := BitVec.ofNat 64 (le b (o + 8 + 16 * i + 8) 8) })

/-- The IRQROUTE entries (R50). -/
def routesOf (b : List Byte) (o n : Nat) : List RouteEntry :=
  (List.range n).map (fun i =>
    let e := o + 8 + 8 * i
    { first := le b e 2, last := le b (e + 2) 2, target := le b (e + 4) 2, prio := le b (e + 6) 1, en := le b (e + 7) 1 })

/-- Does p hold of every two different positions of a list? -/
def pairwise {α : Type} (p : α → α → Bool) (l : List α) : Bool :=
  match l with
  | [] => true
  | a :: t => t.all (p a) && pairwise p t

/-- R49. -/
def bistOk (l : List BistEntry) : Bool :=
  l.all (fun e => decide (0x8000 ≤ e.target)) && pairwise (fun x y => !(decide (x.target = y.target) && decide (x.variant = y.variant))) l

/-- R50. -/
def routesOk (l : List RouteEntry) : Bool :=
  l.all (fun e => decide (e.first ≤ e.last) && decide (e.last ≤ 0xFFD) && decide (e.target ≤ 0x803) && decide (e.prio ≤ 7) && decide (e.en ≤ 1)) &&
  pairwise (fun x y => decide (x.last < y.first) || decide (y.last < x.first)) l

/-- A power of two from 64 to 65,536 (R45). -/
def spillOk (n : Nat) : Bool := (List.range 11).any (fun k => decide (n = 2 ^ (k + 6)))

/-- The image as parsed, whatever its checks say; its digest is the SHA-384 of R36. -/
def parseImage (b : List Byte) : PlanImage :=
  let xs := sections b
  let part := decide (le b 0x19 1 = 1)
  let mcs := (ofType xs 2).head?
  let bs := (ofType xs 10).head?
  let rs := (ofType xs 11).head?
  let ps := (ofType xs 9).head?
  { partPlan := part, planId := BitVec.ofNat 32 (le b 0x0C 4), svn := le b 0x10 4, signer := le b 0x18 1,
    districts := (ofType xs 1).foldl (fun m x => put m x.inst (district b x).2) [],
    setCount := match mcs with | none => 0 | some x => le b x.off 1, mc := match mcs with | none => [] | some x => mcEntries b x,
    cfg := if part then PlanCfg.reset else planCfg b xs, priors := match ps with | none => [] | some x => priorsOf b x.off,
    bist := match bs with | none => [] | some x => bistOf b x.off (le b x.off 4),
    routes := match rs with | none => [] | some x => routesOf b x.off (le b x.off 4), digest := Config.sha384 (signedPart b) }

/-- The pool region of a plan in bytes (R45). -/
def poolBytes (counts : List Nat) : Nat := ((List.range 5).map (fun c => counts.getD c 0 * classSize c)).sum

/-- The populated DRAM in bytes (R318). -/
def populated (s : State) : Nat := 12 * (s.memc.dpc * s.memc.ranks) * rankCap s

/-- The Districts that would be in force with an image. -/
def districtsWith (s : State) (img : PlanImage) : NMap District :=
  if img.partPlan then img.districts.foldl (fun m d => put m d.1 d.2) s.plan.districts else img.districts

/-- The checks of R51 in their order, each as code and failure. first says that the image is the first plan of the start (R53). DESIGN CHOICE (log
entry 72): a SECTION_COUNT outside 1 to 64 is a fault of the section table, 0x010A. -/
def planChecks (s : State) (b : List Byte) (first : Bool) (img : PlanImage) : List (Code × Bool) :=
  let srcLen := b.length
  let total := le b 8 4
  let xs := sections b
  let part := img.partPlan
  let ds := img.districts.map (fun d => d.2)
  let full := fun (c : Bool) => !part && c
  let signer := le b 0x18 1
  [ (0x0103, decide (slice b 0 4 ≠ [0x53, 0x54, 0x50, 0x4C]) || decide (slice b (srcLen - 128) 4 ≠ [0x53, 0x49, 0x47, 0x4E])),
    (0x0104, decide (le b 4 2 ≠ 0x0200) || xs.any (fun x => decide (x.ver ≠ 1))),
    (0x0105, decide (total ≠ srcLen) || decide (total % 8 ≠ 0) || decide (4194304 < total)),
    (0x0106, decide (le b 0x14 4 ≠ 0x1D5BE951)),
    (0x0107, decide (2 ≤ signer) || (decide (signer = 1) && s.sec.accepted.isEmpty)),
    (0x0108, !signed (signerKey s signer) b),
    (0x0109, decide (img.svn < lookD s.sec.svn 2 0)),
    (0x010A, decide (xs.length = 0) || decide (64 < xs.length) || !boundsOk b total xs),
    (0x010B, xs.any (fun x => decide (x.typ = 0) || decide (11 < x.typ))),
    (0x010C, !setOk b (le b 0x19 1) first xs),
    (0x010D, decide (le b 0x1A 2 ≠ 0) || xs.any (fun x => decide (x.resv ≠ 0)) || decide (le b (srcLen - 124) 28 ≠ 0) ||
      xs.any (fun x => !sectionZero b x)),
    (0x010E, ds.any (fun d => d.roles.any (fun r => decide (7 ≤ r)))),
    (0x010F, ds.any (fun d => !rolesOk d) || full (ds.all allOff)),
    (0x0110, decide (4096 < ((districtsWith s img).map (fun d => d.2.ctxSlots)).sum)),
    (0x0111, (!(ofType xs 2).isEmpty && !mcOk img.setCount img.mc) || img.mc.any (fun e => !inLibrary s e) ||
      ds.any (fun d => !(img.mc.any (fun e => decide (e.set = d.mcSet)) || (part && s.plan.mc.any (fun e => decide (e.set = d.mcSet)))))),
    (0x0112, part && img.mc.any (fun e => s.quarters.any (fun q =>
      decide ((look img.districts q.1).isNone = true) && decide (q.2.state = 1 ∨ q.2.state = 3) && decide (q.2.mcSet = e.set)))),
    (0x0113, full (img.cfg.weights.any (fun w => decide (w = 0))) || ds.any (fun d => decide (d.weight = 0) || decide (1024 < d.weight))),
    (0x0114, full (decide (populated s < poolBytes img.cfg.counts + 4 * 2 ^ 30))),
    (0x0115, full (img.cfg.counts.any (fun c => decide (33554431 < c)) ||
      (List.range 25).any (fun i => decide (img.cfg.counts.getD (i % 5) 0 < img.cfg.quotas.getD i 0)))),
    (0x0116, full (!spillOk img.cfg.taskq || !spillOk img.cfg.flowq)),
    (0x0117, full (!s.sessions.isEmpty && (List.range 5).any (fun c => decide (img.cfg.counts.getD c 0 < lookD s.pool.count c 0)))),
    (0x0118, full (!first && decide (img.cfg.order ≠ s.memc.order))),
    (0x0119, full (decide (1 < img.cfg.gating) || !has [1, 2, 4, 8] img.cfg.gang || decide (15 < img.cfg.moored) ||
      (match look img.districts img.cfg.moored with | none => true | some d => allOff d))),
    (0x011A, full (decide (2 < img.cfg.spares) || decide ((ds.filter (fun d => !allOff d)).length ≤ img.cfg.spares))),
    (0x011B, full (decide (img.cfg.headroom < 50) || decide (95 < img.cfg.headroom) || decide (img.cfg.permil = 0) || decide (1000 < img.cfg.permil))),
    (0x011C, full ((List.range 90).any (fun i => !priorOk i (img.priors.getD i { qpKey := 0, qpInter := 0, kKey := 0, kInter := 0 })))),
    (0x011D, !bistOk img.bist),
    (0x011E, !routesOk img.routes),
    (0x011F, !first && (if part then img.districts.any (fun d => !partCapacityOk s d.1) else !fullCapacityOk s img)) ]

/-- The code of the first check of R51 that fails. -/
def planCode (s : State) (b : List Byte) (first : Bool) (img : PlanImage) : Option Code :=
  ((planChecks s b first img).find? (fun c => c.2)).map (fun c => c.1)

end Sys2Proof.Machine
end

