-- ==== Sys2Proof/Machine/Rate.lean ====
section
/-! DEFINITION. The Reckoner and the buffer model: fallback bounds (R194, R195, R208), configuration checks (R225 to R228), the drain (R203 to
R205, R224), prediction (R215 to R219) and rate adaptation (R222, R223). Fullness and budgets are in 1/256 bit. -/

namespace Sys2Proof.Machine

open Sys2Proof

/-! ### Levels and stripes -/

/-- A level of AV1 or HEVC: luma samples of a picture, luma samples per second, bit rate, tiles (AV1) or tile rows (HEVC), tile columns. The
numbers are those of the two standards (log entry 13). -/
abbrev LevelRow := Nat × Nat × Nat × Nat × Nat

/-- AV1 levels 2.0 to 6.1, Main tier. -/
def av1Levels : List LevelRow :=
  [(147456, 4423680, 1500000, 8, 4), (278784, 8363520, 3000000, 8, 4), (665856, 19975680, 6000000, 16, 6),
   (1065024, 31950720, 10000000, 16, 6), (2359296, 70778880, 12000000, 32, 8), (2359296, 141557760, 20000000, 32, 8),
   (8912896, 267386880, 30000000, 64, 8), (8912896, 534773760, 40000000, 64, 8), (8912896, 1069547520, 60000000, 64, 8),
   (35651584, 1069547520, 60000000, 128, 16), (35651584, 2139095040, 100000000, 128, 16)]

/-- HEVC levels 1 to 6.1, Main tier, with MaxBR × 1,100 (R149). -/
def hevcLevels : List LevelRow :=
  [(36864, 552960, 140800, 1, 1), (122880, 3686400, 1650000, 1, 1), (245760, 7372800, 3300000, 1, 1), (552960, 16588800, 6600000, 2, 2),
   (983040, 33177600, 11000000, 3, 3), (2228224, 66846720, 13200000, 5, 5), (2228224, 133693440, 22000000, 5, 5),
   (8912896, 267386880, 27500000, 11, 10), (8912896, 534773760, 44000000, 11, 10), (8912896, 1069547520, 66000000, 11, 10),
   (35651584, 1069547520, 66000000, 22, 20), (35651584, 2139095040, 132000000, 22, 20)]

/-- The maximum bit rate of the ceiling level (R148, R149). -/
def ceilRate (codec profile : Nat) : Nat :=
  match codec with | 0 => 100000000 | 1 => 132000000 | _ => if profile = 2 then 360000000 else 288000000

/-- MaxTiles or MaxTileRows of the lowest level that covers a session without regard to tile rows (R187). -/
def levelTiles (o : StreamOps) (rateMax : Nat) : Nat :=
  let n := tileCols o.codec o.width
  let px := o.width * o.height
  match (if o.codec = 0 then av1Levels else hevcLevels).find? (fun l =>
      decide (px ≤ l.1) && decide (px * o.fps ≤ l.2.1) && decide (rateMax ≤ l.2.2.1) && decide (n ≤ l.2.2.2.2)) with
  | some l => l.2.2.2.1
  | none => if o.codec = 0 then 128 else 22

/-- S of R187; 0 where the picture has no stripes. -/
def stripes (o : StreamOps) (rateMax : Nat) : Nat :=
  let n := tileCols o.codec o.width
  let big := bandsOf o.height
  match o.codec with
  | 0 => min big (min 64 (levelTiles o rateMax / n))
  | 1 => if n = 1 then 0 else min big (levelTiles o rateMax)
  | _ => 0

/-- Is band k the last of its stripe (R187)? -/
def endsStripe (o : StreamOps) (rateMax k : Nat) : Bool :=
  let t := stripes o rateMax
  let n := bandsOf o.height
  (List.range t).any (fun j => decide (cdiv ((j + 1) * n) t = k))

/-! ### Fallback bounds -/

/-- H, A and b of R194, b in 1/256 bit. -/
def fbConsts (codec : Nat) (key : Bool) : Nat × Nat × Nat :=
  match codec, key with
  | 0, false => (96, 384, 32)
  | 0, true => (96, 448, 64)
  | 1, false => (128, 320, 32)
  | 1, true => (128, 256, 640)
  | _, false => (320, 192, 32)
  | _, true => (320, 192, 96)

/-- The blocks of band k (R208). -/
def bandBlocks (o : StreamOps) (k : Nat) : Nat := blocksWide o.codec o.width * blockRows o.codec o.height k

/-- Does the session code CAVLC (R151)? -/
def cavlc (o : StreamOps) : Bool := decide (o.codec = 2) && decide (o.profile = 0)

/-- C_j of R208 in 1/256 bit. -/
def bandBound (o : StreamOps) (rateMax : Nat) (key : Bool) (j : Nat) : Nat :=
  let (h, a, b) := fbConsts o.codec key
  let n := tileCols o.codec o.width
  let blocks := bandBlocks o j
  if cavlc o then (320 + (if key then 8 * blocks else 2 * Nat.log2 (blocks + 1) + 1)) * 256
  else
    let units := match o.codec with | 0 => if endsStripe o rateMax j then n else 0 | 1 => n | _ => 1
    (h * units + a * n) * 256 + b * blocks

/-- Hf of R208 in bits. -/
def frameAllow (codec : Nat) (key pq : Bool) : Nat :=
  (match codec, key with | 0, false => 1536 | 0, true => 3072 | 1, true => 2048 | 2, true => 1024 | _, _ => 0) + (if pq then 512 else 0)

/-- C_a + … + C_b in 1/256 bit. -/
def boundSum (o : StreamOps) (rateMax : Nat) (key : Bool) (a b : Nat) : Nat :=
  ((List.range (b + 1 - a)).map (fun i => bandBound o rateMax key (a + i))).sum

/-- Φ of R208 in 1/256 bit. -/
def phi (o : StreamOps) (rateMax : Nat) (key pq : Bool) : Nat :=
  frameAllow o.codec key pq * 256 + boundSum o rateMax key 1 (bandsOf o.height)

/-- Res_k of R209. -/
def reserve (o : StreamOps) (rateMax : Nat) (key : Bool) (k : Nat) : Nat := boundSum o rateMax key (k + 1) (bandsOf o.height)

/-! ### Configuration -/

/-- A tuning field of 0 selects the default (R225). -/
def orElse (v d : Nat) : Nat := if v = 0 then d else v

/-- The rate state with the configuration of group 1 in force, the defaults taken from the RC registers (R225, R231). -/
def resolveRate (s : State) (codec : Nat) (c : RateOps) (r : Rate) : Rate :=
  let av1 := decide (codec = 0)
  { r with
    mode := c.mode, lat := c.latFrames, bucket := c.bucketBits, peak := c.peak, initFull := c.initFull, qpMin := c.qpMin, qpMax := c.qpMax,
    forkOff := decide (c.flags % 2 = 1),
    forkDq := orElse c.forkDq (if av1 then fld s.rc.fork 31 24 else fld s.rc.fork 19 16), uThresh := orElse c.uThresh (fld s.rc.fork 15 8),
    keyMult := orElse c.keyMult 4, dqBand := orElse c.dqBand (if av1 then 24 else 3), incPct := orElse c.incPct (fld s.rc.adapt 31 24),
    lossLo := orElse c.lossLo (fld s.rc.adapt 15 8), lossHi := orElse c.lossHi (fld s.rc.adapt 23 16) }

/-- The configuration of R227 as group 1 would give it. -/
def openRateCfg (codec : Nat) : RateOps :=
  { mode := 2, latFrames := 1, flags := 0, bucketBits := 0, peak := 0, initFull := 0, qpMin := if codec = 0 then 1 else 0,
    qpMax := if codec = 0 then 255 else 51, forkDq := 0, uThresh := 0, keyMult := 0, dqBand := 0, incPct := 0, lossLo := 0, lossHi := 0,
    pad := 0 }

/-- RATE_MIN, RATE_MAX and RATE of R227. -/
def openRate (o : StreamOps) : Nat := min (o.width * o.height * o.fps / 10) (ceilRate o.codec o.profile)

/-- The checks of R228 in their order against the configuration that would result. -/
def rateCode (o : StreamOps) (c : RateOps) (r : Rate) (pq : Bool) : Option Code :=
  let av1 := decide (o.codec = 0)
  let key := phi o r.rateMax true pq
  let dqMax := if av1 then 64 else 12
  let qLo := if av1 then 1 else 0
  let qHi := if av1 then 255 else 51
  if 2 < r.mode ∨ (r.mode = 2 ∧ (r.lat = 0 ∨ 8 < r.lat)) ∨ (r.mode ≠ 2 ∧ r.lat ≠ 0) then some 0x0301
  else if r.rateMin = 0 ∨ r.rateMax < r.rateMin ∨ ceilRate o.codec o.profile < r.rateMax ∨
      (r.mode = 1 ∧ ceilRate o.codec o.profile < r.peak) then some 0x0304
  else if (if r.mode = 1 then r.peak else r.rateMin) * 256 < key * o.fps then some 0x0303
  else if (r.mode = 0 ∧ r.bucket * o.fps < r.rateMax + 56 * o.fps) ∨ (r.mode = 1 ∧ r.bucket * o.fps < r.peak) then some 0x0302
  else if (r.mode = 2 ∧ r.lat * r.rateMin * 256 < (r.initFull * 256 + key) * o.fps) ∨
      (r.mode ≠ 2 ∧ r.bucket * 256 < r.initFull * 256 + key) then some 0x0305
  else if r.qpMin < qLo ∨ qHi < r.qpMin ∨ r.qpMax < r.qpMin ∨ qHi < r.qpMax then some 0x0306
  else if 1 < c.flags ∨ c.pad ≠ 0 ∨ (r.mode = 2 ∧ r.bucket ≠ 0) ∨ (r.mode ≠ 1 ∧ r.peak ≠ 0) ∨ dqMax < r.forkDq ∨ 16 < r.keyMult ∨
      dqMax < r.dqBand ∨ 50 < r.incPct ∨ r.lossHi ≤ r.lossLo then some 0x0307
  else none

/-- The PRIORS entry of a session (R47, R218). -/
def priorOf (s : State) (o : StreamOps) : Prior :=
  s.plan.priors.getD (((o.codec * 2 + o.depth) * 5 + resClass (o.width * o.height)) * 3 + o.content) { qpKey := 0, qpInter := 0, kKey := 0, kInter := 0 }

/-- The rate state at OPEN_SESSION (R218, R227). -/
def rateAtOpen (s : State) (o : StreamOps) : Rate :=
  let p := priorOf s o
  let r0 : Rate :=
    { mode := 2, lat := 1, bucket := 0, peak := 0, initFull := 0, full := 0, drain := 0, size := 0, restart := true, rateMin := openRate o,
      rateMax := openRate o, rate := openRate o, rateNext := openRate o, wKey := Config.weightOf o.codec p.kKey p.qpKey,
      wInter := Config.weightOf o.codec p.kInter p.qpInter, u := Config.f32OfSixtyFourths (fld s.rc.model 23 16), m := Config.f32One, qpMin := 0,
      qpMax := 0, forkDq := 0, uThresh := 0, keyMult := 0, dqBand := 0, incPct := 0, lossLo := 0, lossHi := 0, laFrames := 0, adapt := false,
      forkOff := false, hold := none, lastDec := none, fbLast := none, lastLoss := 0, lastE := none, h := [], chi := [], qPrev := p.qpKey,
      target := 0, pq := false, pqNext := false }
  resolveRate s o.codec (openRateCfg o.codec) r0

/-! ### The boundary -/

/-- Bells of a time given in ms. -/
def msBells (s : State) (ms : Nat) : Nat := ms * baseOf s / 1000

/-- The rate state after a RESUME (R205, R219): the next boundary restarts the bucket, and a RESUME from COLD clears the lookahead history. -/
def resumeRate (cold : Bool) (r : Rate) : Rate :=
  if cold then { r with restart := true, h := [], chi := [], laFrames := 0 } else { r with restart := true }

/-- The lookahead history at a frame start (R219): a change of size clears it; the first frame after a clearing counts as its frame 0. -/
def frameHistory (x : Session) (resized : Bool) : Rate :=
  if resized then { x.rate with h := [], chi := [], laFrames := 0 }
  else if x.rate.laFrames = 0 ∧ x.rate.chi = [] ∧ x.frames = [] then x.rate
  else { x.rate with laFrames := min 8 (x.rate.laFrames + 1) }

/-- Clamped to the bounds in force (R223). -/
def clampRate (r : Rate) : Rate := { r with rateNext := min (max r.rateNext r.rateMin) r.rateMax }

/-- Is feedback within FB_TIMEOUT (R223)? -/
def feedbackFresh (s : State) (r : Rate) : Bool :=
  match r.fbLast with | none => false | some b => decide (bellsFrom b s.bell.num ≤ fld s.rc.adapt 7 0 * baseOf s / 100)

/-- Does a hold run (R223)? -/
def holding (s : State) (r : Rate) : Bool :=
  match r.hold with | none => false | some b => decide (0 < bellsFrom s.bell.num b) && decide (bellsFrom s.bell.num b ≤ msBells s 1000)

/-- The increase of R223 at a boundary. -/
def growRate (s : State) (fps : Nat) (r : Rate) : Rate :=
  if !r.adapt then clampRate r
  else if !holding s r && decide (r.lastLoss ≤ r.lossLo) && feedbackFresh s r then
    let up := Config.grow r.rateNext r.incPct fps
    clampRate { r with rateNext := match r.lastE with | none => up | some e => min up e }
  else clampRate r

/-- RATE takes RATE_NEXT (R224): in LATENCY mode a fall is limited by the fullness before the drain and Φ of the frame's type. -/
def takeRate (fps phiType : Nat) (r : Rate) : Rate :=
  if r.mode = 2 ∧ r.rateNext < r.rate then
    let d := max (r.rateNext * 256 / max 1 fps) (cdiv (r.full + phiType) ((r.lat + 1) * 256) * 256)
    { r with rate := max r.rateNext (d * fps / 256) }
  else { r with rate := r.rateNext }

/-- D and B of R204 in 1/256 bit, and the drain or the restart (R203, R205). -/
def drainBucket (fps : Nat) (r : Rate) : Rate :=
  let d := (if r.mode = 1 then r.peak else r.rate) * 256 / max 1 fps
  let b := if r.mode = 2 then r.lat * d else r.bucket * 256
  { r with drain := d, size := b, full := if r.restart then r.initFull * 256 else r.full - d, restart := false, m := Config.f32One }

/-- Does a new configuration restart the bucket (R205)? -/
def restarts (old new : RateOps) : Bool :=
  decide (old.mode ≠ new.mode) || decide (old.bucketBits ≠ new.bucketBits) || decide (old.peak ≠ new.peak) ||
  decide (old.latFrames ≠ new.latFrames) || decide (old.initFull ≠ new.initFull)

/-- The bounds of a SET_RATE_BOUNDS in force (R226). -/
def takeBounds (o : BoundsOps) (r : Rate) : Rate := { r with rateMin := o.rateMin, rateMax := o.rateMax, adapt := decide (o.flags % 2 = 1) }

/-- The stream parameters that the session would have (R228): waiting ones count. -/
def wantedStream (x : Session) : StreamOps := x.newStream.getD x.stream

/-- The configuration of group 1 that the session would have: a waiting one counts. -/
def wantedRate (x : Session) : RateOps := x.newRate.getD x.rateCfg

/-- The rate state that the next boundary would give with a configuration and bounds (R228). -/
def resultRate (s : State) (x : Session) (c : RateOps) (b : Option BoundsOps) : Rate :=
  resolveRate s (wantedStream x).codec c (match b with | none => x.rate | some b => takeBounds b x.rate)

/-! ### Prediction -/

/-- Is lookahead present (R219)? -/
def lookahead (x : Session) : Bool := decide (1 ≤ x.effort) && decide (8 ≤ x.rate.laFrames)

/-- κ̂_k of R215; a band whose LA unit was abandoned has no measure (R301). -/
def kappaOf (h : Nat) (x : Session) (f : Frame) (k : Nat) : F32 :=
  if f.key then x.rate.wKey
  else
    match look x.rate.h k with
    | none => x.rate.wInter
    | some hk =>
      match look x.rate.chi k with
      | none => hk
      | some c => if lookahead x && Config.laDone h f.num k then Config.kappa hk (Config.chi h f.num k) c else hk

/-- b̂_k(q) of R215 in bits. -/
def predictBits (h : Nat) (x : Session) (f : Frame) (k q : Nat) : Nat :=
  Config.predict x.rate.m (kappaOf h x f k) (f.width * bandRows f.height k) x.stream.codec q

/-- The predicted bits of the bands that are dispatched and not committed, before band k of frame f (R216). -/
def aheadBits (h : Nat) (x : Session) (f : Frame) (k : Nat) : Nat :=
  ((x.frames.filter (fun g => decide (g.num = f.num) || older g.num f.num)).map (fun g =>
    ((g.bands.filter (fun b => (decide (b.2.st = 1) || decide (b.2.st = 2)) && (decide (g.num ≠ f.num) || decide (b.1 < k)))).map (fun b =>
      predictBits h x g b.1 b.2.q)).sum)).sum

/-- The stream parameters of a frame: those of its session with the frame's own picture size (R80). -/
def frameStream (x : Session) (f : Frame) : StreamOps := { x.stream with width := f.width, height := f.height }

/-- The budget of band k in whole bits (R209), ahead counting uncommitted bands before it (R216). -/
def budgetOf (x : Session) (f : Frame) (k ahead : Nat) : Nat :=
  (x.rate.size - x.rate.full - ahead * 256 - reserve (frameStream x f) x.rate.rateMax f.key k) / 256

/-- T of R216 in bits: the fullness after the boundary is the present one without the bits that the frame has committed since. -/
def frameTarget (x : Session) (f : Frame) : Nat :=
  let dt : Int := (x.rate.rate * 256 / max 1 x.stream.fps : Nat)
  let g : Int := if x.rate.mode = 2 then 0 else (x.rate.size / 2 : Nat)
  let t := (dt + (g - ((x.rate.full - f.bits * 256 : Nat) : Int)) / 8).toNat
  max (if f.key then t * x.rate.keyMult else t) (phi (frameStream x f) x.rate.rateMax f.key x.rate.pq) / 256

/-- The q of the band before band k; for band 1 the last q of the session. -/
def prevQ (x : Session) (f : Frame) (k : Nat) : Nat := match look f.bands (k - 1) with | some b => b.q | none => x.rate.qPrev

/-- T_k of R216. -/
def bandTarget (h : Nat) (x : Session) (f : Frame) (k : Nat) : Nat :=
  let q := prevQ x f k
  let p := fun i => predictBits h x f i q
  let rest := (List.range (bandsOf f.height + 1 - k)).map (fun i => p (k + i))
  let used := f.bits + ((f.bands.filter (fun b => decide (b.1 < k) && decide (b.2.st ≠ 3))).map (fun b => predictBits h x f b.1 b.2.q)).sum
  (frameTarget x f - used) * p k / max 1 rest.sum

/-- q_k of R216 and R218. -/
def chooseQ (s : State) (h : Nat) (x : Session) (f : Frame) (k : Nat) : Nat :=
  let r := x.rate
  let prev := prevQ x f k
  let ahead := aheadBits h x f k
  let hi := max r.qpMin (min r.qpMax (prev + r.dqBand))
  let budget := budgetOf x f k ahead
  if f.num = 0 then
    let q0 := max r.qpMin (min r.qpMax (priorOf s x.stream).qpKey)
    match ((List.range (r.qpMax + 1 - q0)).map (fun i => q0 + i)).find? (fun q => decide (predictBits h x f k q ≤ budget)) with
    | some q => q
    | none => r.qpMax
  else
    let lo := min hi (max r.qpMin (prev - r.dqBand))
    match ((List.range (hi + 1 - lo)).map (fun i => lo + i)).find? (fun q => decide (predictBits h x f k q ≤ min (bandTarget h x f k) budget)) with
    | some q => q
    | none => hi

/-- Is a frame of the size that the session's newest frame has? One of an older size leaves no history (R219). -/
def newestSize (x : Session) (f : Frame) : Bool :=
  match x.frames.getLast? with | none => true | some g => decide (g.width = f.width) && decide (g.height = f.height)

/-- The lookahead measure of a committed band, which the next frame compares with (R215, R301). -/
def noteChi (h : Nat) (x : Session) (f : Frame) (k : Nat) (r : Rate) : Rate :=
  if newestSize x f then { r with chi := if Config.laDone h f.num k then put r.chi k (Config.chi h f.num k) else del r.chi k } else r

/-- The fix of R217 for a band committed at quantiser q with b bits. -/
def fixRate (s : State) (h : Nat) (x : Session) (f : Frame) (k q b : Nat) : Rate :=
  let r := x.rate
  let p := predictBits h x f k q
  let eta := fld s.rc.model 15 8
  { r with
    m := Config.fixM r.m b p, u := Config.fixU r.u b p (fld s.rc.model 7 0), qPrev := q,
    h := if f.key || !newestSize x f then r.h else put r.h k (Config.fixH b x.stream.codec q (f.width * bandRows f.height k)),
    wKey := if f.key then Config.fixW r.wKey b p eta else r.wKey, wInter := if f.key then r.wInter else Config.fixW r.wInter b p eta }

/-! ### Feedback -/

/-- A rate report of a rate source (R222, R223); est is E, 0 for none. -/
def rateReport (n loss est : Nat) (s : State) : State :=
  match look s.sessions n with
  | none => s
  | some x =>
    if x.kind = 1 ∨ x.rate.adapt = false then s
    else
      let r0 := { x.rate with
        rateNext := if est = 0 then x.rate.rateNext else min x.rate.rateNext est, lastLoss := loss,
        lastE := if est = 0 then none else some est, fbLast := some s.bell.num }
      let recent := match r0.lastDec with | none => false | some b => decide (bellsFrom b s.bell.num < msBells s 200)
      if r0.lossHi ≤ loss ∧ recent = false then
        let next := r0.rateNext * (512 - loss) / 512
        let r1 := { r0 with rateNext := next, lastDec := some s.bell.num, hold := some (s.bell.num + BitVec.ofNat 40 (msBells s 1000)) }
        post x.fn 0 0x030C (tokenOf n x.gen) [BitVec.ofNat 32 next, 0, 0, 0]
          { setSess s n (fun x => { x with rate := clampRate r1 }) with rc := { s.rc with down := up s.rc.down 1 } }
      else setSess s n (fun x => { x with rate := clampRate r0 })

/-- RC_CTRL_WRITE (R231). -/
def execRcCtrlWrite (value : Word) (s : State) : Host.Outcome State Fault Refusal :=
  blockWrite 0xFFFFFFFE value s (fun s =>
    if bit value 0 then { s with rc := { s.rc with en := true } }
    else if s.rc.en && s.sessions.any (fun e => decide (e.2.kind = 0)) then { s with rc := { s.rc with reason := 0x0309 } }
    else { s with rc := { s.rc with en := false } })

/-- The ranges of R231 of default register which: 0 RC_FORK_CFG, 1 RC_ADAPT_CFG, 2 RC_MODEL_CFG. -/
def rcDefaultOk (which : Nat) (v : Word) : Bool :=
  match which with
  | 0 => decide (1 ≤ fld v 31 24) && decide (fld v 31 24 ≤ 64) && decide (1 ≤ fld v 19 16) && decide (fld v 19 16 ≤ 12) && decide (1 ≤ fld v 15 8)
  | 1 => decide (1 ≤ fld v 31 24) && decide (fld v 31 24 ≤ 50) && decide (fld v 15 8 < fld v 23 16) && decide (1 ≤ fld v 7 0)
  | _ => decide (1 ≤ fld v 15 8) && decide (1 ≤ fld v 7 0)

/-- RC_DEFAULTS_WRITE (R231). -/
def execRcDefaultsWrite (which : Nat) (value : Word) (s : State) : Host.Outcome State Fault Refusal :=
  blockWrite (match which with | 0 => 0x00F000FE | 1 => 0 | _ => 0xFF000000) value s (fun s =>
    if !rcDefaultOk which value then { s with rc := { s.rc with reason := 0x0308 } }
    else
      match which with
      | 0 => { s with rc := { s.rc with fork := value } }
      | 1 => { s with rc := { s.rc with adapt := value } }
      | 2 => { s with rc := { s.rc with model := value } }
      | _ => s)

end Sys2Proof.Machine
end

