-- ==== Sys2Proof/Machine/Frames.lean ====
section
/-! DEFINITION. Surfaces and the aperture (R121 to R126, R138 to R144), reference pictures and long-term slots (R177 to R181, R232 to R236),
feedback (R236 to R248), and the start of a frame (R133, R243, R310). -/

namespace Sys2Proof.Machine

open Sys2Proof

/-- The pool requester of a session. -/
def sessReq (h : Nat) : PoolReq := { kind := 0, index := h }

/-! ### The Tandem link -/

/-- Does the link carry messages (R432, R456)? -/
def linkUp (s : State) : Bool := decide (s.tandem.state = 3) && !s.tandem.dead

/-- A message leaves on the link under the next pair sequence number and waits for its confirmation (R433). -/
def linkSend (m : LinkOut) (s : State) : State :=
  if linkUp s then emit (.link m) { s with tandem := { s.tandem with seqOut := s.tandem.seqOut + 1, sent := s.tandem.sent ++ [(s.tandem.seqOut, 0)] } }
  else s

/-- Is a command a PARK, RESUME or CLOSE? -/
def stateCmd (i : Instr) : Bool :=
  match i with
  | .park _ _ => true
  | .parkCold _ _ => true
  | .resume _ _ => true
  | .close _ _ => true
  | _ => false

/-- Is a PARK, RESUME or CLOSE of a session pending (R600), be it that the partner is still asked (R437)? -/
def pendingNow (s : State) (n : Nat) (x : Session) : Bool :=
  x.pend.isSome || s.tandem.waiting.any (fun w => decide (w.handle = n) && stateCmd w.cmd)

/-- A change that the device makes itself to a shadowed session is told to the partner (R437, R438). -/
def tellShadow (h : Nat) (c : Session → FwdCmd) (s : State) : State :=
  match look s.sessions h with
  | none => s
  | some x => if x.tan.role = 1 ∧ (x.tan.live || x.tan.sync.isSome) = true then linkSend (.config h (c x)) s else s

/-- A state change of R73 is told to the partner (R437). -/
def tellPartner (h st : Nat) (s : State) : State := tellShadow h (fun _ => .state st) s

/-- The session's phase is told to the partner, which admits the shadow at it (R438). -/
def tellPhase (h : Nat) (s : State) : State := tellShadow h (fun x => .phase (x.phase.getD 0)) s

/-! ### Surface sets -/

/-- Bytes per pixel of plane 0 (R138). -/
def bytesPer (format : Nat) : Nat := match format with | 0 => 1 | 1 => 2 | _ => 4

/-- n rounded up to a multiple of m. -/
def upTo (n m : Nat) : Nat := cdiv n m * m

/-- PITCH (R126). -/
def pitchOf (o : SubmitOps) : Nat := upTo (o.srcWidth * bytesPer o.format) 256

/-- The regions of a surface set in order (R126), with a pitch: kind (0 and 1 the planes, 2 MV, 3 ROI, 4 UI, 5 metadata), first byte and size. -/
def regions (pitch : Nat) (o : SubmitOps) : List (Nat × Nat × Nat) :=
  let p0 := pitch * upTo o.srcHeight 64
  let planes := [(0, 0, p0)] ++ (if o.format ≤ 1 then [(1, p0, pitch * o.srcHeight / 2)] else [])
  let blocks := cdiv o.srcWidth 16 * cdiv o.srcHeight 16
  let more := (if o.hints.testBit 0 then [(2, 4 * blocks)] else []) ++ (if o.hints.testBit 1 then [(3, blocks)] else []) ++
    (if o.hints.testBit 2 then [(4, blocks)] else []) ++ [(5, 64)]
  more.foldl (fun l r =>
    let e := match l.getLast? with | none => 0 | some q => q.2.1 + q.2.2
    l ++ [(r.1, upTo e 65536, r.2)]) planes

/-- The first byte of a region of a surface set, if it is present. -/
def regionAt (pitch : Nat) (o : SubmitOps) (kind : Nat) : Option Nat := ((regions pitch o).find? (fun r => decide (r.1 = kind))).map (fun r => r.2.1)

/-- The end of a surface set (R126). -/
def setBytes (o : SubmitOps) : Nat := match (regions (pitchOf o) o).getLast? with | none => 0 | some r => r.2.1 + r.2.2

/-- The pages of a surface set (R126). -/
def setPages (o : SubmitOps) : Nat := cdiv (setBytes o) (2 ^ 20)

/-- The lowest-addressed run of n free consecutive aperture pages (R123). -/
def freeRun (pages : NMap (Nat × Nat)) (n at0 : Nat) : Option Nat :=
  match pages with
  | [] => if at0 + n ≤ 65536 then some at0 else none
  | (a, r) :: t => if at0 + n ≤ a then some at0 else freeRun t n (a + r.1)

/-- A surface set is allocated and mapped for session h; where it fails the state keeps only the count of the refusal. -/
def mapSet (h : Nat) (o : SubmitOps) (s : State) : Except Code (Nat × List Word) × State :=
  let n := setPages o
  match freeRun s.ingest.pages n 0 with
  | none => (.error 0x0D03, s)
  | some p =>
    match allocMany (sessReq h) (2 ^ 20) n s with
    | (.error e, _) => (.error e, allocRefused (sessReq h) e s)
    | (.ok bs, s1) => (.ok (p, bs), { s1 with ingest := { s1.ingest with pages := put s1.ingest.pages p (n, h) } })

/-- n surface sets, all or none. -/
def mapSets (h : Nat) (o : SubmitOps) (n : Nat) (s : State) : Except Code (List (Nat × List Word)) × State :=
  match n with
  | 0 => (.ok [], s)
  | n + 1 =>
    match mapSet h o s with
    | (.error e, s1) => (.error e, s1)
    | (.ok a, s1) =>
      match mapSets h o n s1 with
      | (.error e, _) => (.error e, if e = 0x0D03 then s else allocRefused (sessReq h) e s)
      | (.ok l, s2) => (.ok (a :: l), s2)

/-- Surface sets are unmapped and freed (R123, R124). -/
def unmapSets (h : Nat) (sets : List (Nat × List Word)) (s : State) : State :=
  sets.foldl (fun s e => dropAll (sessReq h) e.2 { s with ingest := { s.ingest with pages := del s.ingest.pages e.1 } }) s

/-- The rotation swaps the axes (R141). -/
def turned (o : SubmitOps) : Bool := decide (o.orient % 2 = 1)

/-- Each axis's ratio of output to source lies between 1/8 and 2 (R141). -/
def ratioOk (o : SubmitOps) (w h : Nat) : Bool :=
  let sw := if turned o then o.srcHeight else o.srcWidth
  let sh := if turned o then o.srcWidth else o.srcHeight
  decide (sw ≤ 8 * w) && decide (w ≤ 2 * sw) && decide (sh ≤ 8 * h) && decide (h ≤ 2 * sh)

/-- R of band k (R142). -/
def rowsNeeded (o : SubmitOps) (height k : Nat) : Nat :=
  let y1 := min height (64 * k)
  if o.orient % 4 ≠ 0 ∨ y1 = height then o.srcHeight
  else if o.srcHeight = height then y1
  else min o.srcHeight (cdiv (y1 * o.srcHeight) height + 4)

/-- Does a decode session decode a protected asset (R144, R255)? -/
def protectedBind (x : Session) : Bool := match x.dec.bind with | some b => decide (b.use = 0) | none => false

/-- The operand checks of SUBMIT_FRAME in the table's order, then R138, R140, R141, R144 and R145. -/
def submitCode (s : State) (x : Session) (host : Bool) (o : SubmitOps) : Option Code :=
  let size := x.sizeNext.getD (x.stream.width, x.stream.height)
  let depth := x.stream.depth
  if 3 < o.format ∨ 7 < o.colour then some 0x0D01
  else if 7 < o.orient ∨ o.srcWidth < 160 ∨ 8192 < o.srcWidth ∨ o.srcWidth % 2 = 1 ∨ o.srcHeight < 90 ∨ 8192 < o.srcHeight ∨ o.srcHeight % 2 = 1 then
    some 0x0D02
  else if 7 < o.hints ∨ (host = false ∧ (o.surfaces < 2 ∨ 4 < o.surfaces)) ∨ (host = true ∧ o.surfaces ≠ 0) ∨
      3 < o.flags ∨ (host = false ∧ 2 ≤ o.flags) ∨ o.pad ≠ 0 then some 0x0206
  else if 2 < o.compMode ∨ o.compX % 2 = 1 ∨ o.compY % 2 = 1 then some 0x0D0B
  else if (host = true ∧ (o.hostAddr.toNat % 256 ≠ 0 ∨ o.hostPitch % 256 ≠ 0 ∨ o.hostPitch < pitchOf o)) ∨
      (host = false ∧ (o.hostAddr ≠ 0 ∨ o.hostPitch ≠ 0)) then some 0x0206
  else if (if host && o.flags.testBit 1 then decide (o.frame ≠ x.frameNum % 65536) else decide (o.frame ≠ 0)) then some 0x0D06
  else if (o.format = 0 ∧ depth ≠ 0) ∨ (o.format = 1 ∧ depth ≠ 1) then some 0x0D01
  else if o.colour.testBit 2 && !(decide (depth = 1) && o.colour.testBit 0) then some 0x0D01
  else if !ratioOk o size.1 size.2 then some 0x0D02
  else if decide (o.compMode ≠ 0) && ((match tokenSession s x.fn o.compToken with
      | none => true
      | some (_, y) => !(decide (y.kind = 1) && protectedBind y)) || (decide (o.compMode = 2) && decide (o.format ≤ 1)) || x.stream.flags.testBit 2) then
    some 0x0D0B
  else if o.colour.testBit 2 then
    rateCode { wantedStream x with width := size.1, height := size.2 } (wantedRate x) (resultRate s x (wantedRate x) x.newBounds) true
  else none

/-! ### Pictures -/

/-- The class of a picture's extents (R91). -/
def extentClass (w h : Nat) : Nat := if w * h ≤ 2073600 then 3 else 4

/-- Is a descriptor's picture kept: LAST, in a slot, under construction, or a candidate of a frame in progress (R177, R178, R234)? -/
def picKept (x : Session) (d : Nat) : Bool :=
  (match look x.pics d with | some p => decide (x.kind = 1) && (!p.whole || p.refd || p.shows || decide (x.dec.latest = some d)) | none => false) ||
  decide (x.ltr.last = some d) || x.ltr.slots.any (fun e => decide (e.2 = d)) ||
  x.frames.any (fun f => decide (f.desc = d) || has f.cands d) || (decide (0 < x.tan.shBands) && !x.tan.shLast && decide (x.tan.shDesc = d))

/-- Pictures that have lost retention are freed with their extents (R178). -/
def sweepPics (h : Nat) (s : State) : State :=
  match look s.sessions h with
  | none => s
  | some x =>
    let gone := x.pics.filter (fun e => !picKept x e.1)
    let s1 := setSess s h (fun x => { x with
      pics := x.pics.filter (fun e => picKept x e.1),
      ltr := { x.ltr with acked := x.ltr.acked.filter (fun d => !gone.any (fun e => decide (e.1 = d))),
                          pendAck := x.ltr.pendAck.filter (fun d => !gone.any (fun e => decide (e.1 = d))) } })
    gone.foldl (fun s e => dropAll (sessReq h) e.2.extents s) s1

/-- The lowest free descriptor (R181). -/
def freeDesc (x : Session) : Nat := ((List.range 16).find? (fun d => (look x.pics d).isNone)).getD 15

/-- A frame's picture is not retained (R180, R199): the picture under construction is given up. -/
def losePicture (h num : Nat) (s : State) : State :=
  sweepPics h (setSess s h (fun x => { x with frames := x.frames.map (fun f => if f.num = num then { f with desc := 16 } else f) }))

/-- The retained pictures: LAST and those in slots (R177). -/
def retained (x : Session) : List Nat :=
  (x.pics.filter (fun e => decide (x.ltr.last = some e.1) || x.ltr.slots.any (fun q => decide (q.2 = e.1)))).map (fun e => e.1)

/-- The frame number of a descriptor's picture. -/
def picFrame (x : Session) (d : Nat) : Nat := match look x.pics d with | none => 0 | some p => p.frame

/-- The newest of some descriptors. -/
def newest (x : Session) (ds : List Nat) : Option Nat :=
  ds.foldl (fun (b : Option Nat) d => match b with | none => some d | some e => if older (picFrame x e) (picFrame x d) then some d else some e) none

/-- The oldest of some slots, by their pictures. -/
def oldestSlot (x : Session) (is : List (Nat × Nat)) : Option (Nat × Nat) :=
  is.foldl (fun (b : Option (Nat × Nat)) e => match b with | none => some e | some o => if older (picFrame x e.2) (picFrame x o.2) then some e else some o) none

/-- A picture is leaving its slot: a frame in progress was marked for the slot (R235). -/
def leaving (x : Session) (d : Nat) : Bool :=
  x.ltr.slots.any (fun e => decide (e.2 = d) && x.frames.any (fun f => decide (f.slot = some e.1)))

/-! ### Feedback -/

/-- An acknowledgement of a frame (R236, R242); a wave frame below position W never counts as acknowledged. -/
def feedAck (h frame : Nat) (s : State) : State :=
  match look s.sessions h with
  | none => s
  | some x =>
    match x.pics.find? (fun e => decide (e.2.frame = frame) && decide (e.1 ∈ retained x)) with
    | none => stat h 15 1 s
    | some e => if e.2.wave then s else setSess s h (fun x => { x with ltr := { x.ltr with pendAck := addS x.ltr.pendAck e.1 } })

/-- A loss report (R242). -/
def feedLoss (h frame : Nat) (s : State) : State :=
  setSess s h (fun x => { x with ltr := { x.ltr with
    loss := match x.ltr.loss with | none => some frame | some g => if older frame g then some frame else some g } })

/-- A key request (R242). -/
def feedKey (h : Nat) (s : State) : State :=
  match look s.sessions h with
  | none => s
  | some x =>
    if 0 < x.frameNum ∧ since x.ltr.lastKey x.frameNum < x.ltr.keyHold + 1 then stat h 17 1 s else wantKey h s

/-- What a frame start does about the waiting feedback (R243). -/
inductive Action where
  | normal
  | key
  | recover (d : Nat)
  | wave
  deriving DecidableEq, Repr

/-- The action of R243 for frame g; the flag says that the loss report was superseded. -/
def action (x : Session) (g : Nat) : Action × Bool :=
  let l := x.ltr
  let acked := l.pendAck.foldl addS l.acked
  if l.key || l.stale || (l.spect && decide (l.spectInt ≤ since l.lastKey g)) then (.key, false)
  else
    match l.loss with
    | none => (.normal, false)
    | some f =>
      if older f l.recover then (.normal, true)
      else if (retained x).all (fun d => older f (picFrame x d)) then (.key, false)
      else
        match newest x ((retained x).filter (fun d => has acked d && older (picFrame x d) f && !leaving x d)) with
        | some a => (.recover a, false)
        | none => if l.waveOff then (.key, false) else (.wave, false)

/-- The slots of a session that hold no picture. -/
def emptySlots (x : Session) : List Nat := (List.range x.stream.ltrSlots).filter (fun i => (look x.ltr.slots i).isNone)

/-- The slot that a marked frame goes into (R233). -/
def markSlot (x : Session) : Nat :=
  if x.stream.ltrSlots = 1 then 0
  else
    match emptySlots x with
    | i :: _ => i
    | [] =>
      let na := newest x (x.ltr.acked.filter (fun d => x.ltr.slots.any (fun e => decide (e.2 = d))))
      match oldestSlot x (x.ltr.slots.filter (fun e => decide (some e.2 ≠ na))) with
      | some e => e.1
      | none => 0

/-- The slot that R234 empties: four full slots and no marking. -/
def evictSlot (x : Session) : Option Nat :=
  if x.stream.ltrSlots = 4 ∧ x.ltr.slots.length = 4 then
    let na := newest x (x.ltr.acked.filter (fun d => x.ltr.slots.any (fun e => decide (e.2 = d))))
    (oldestSlot x (x.ltr.slots.filter (fun e => decide (some e.2 ≠ na) && decide (some e.2 ≠ x.ltr.last)))).map (fun e => e.1)
  else none

/-- Slots whose picture is neither acknowledged nor older than f leave (R244); an acknowledged picture stays. -/
def cleanSlots (x : Session) (f : Nat) : NMap Nat :=
  x.ltr.slots.filter (fun e => has x.ltr.acked e.2 || older (picFrame x e.2) f)

/-! ### The start of a frame -/

/-- The rows of bands of a new frame: none eligible. -/
def newBand : Band :=
  { st := 0, elig := false, eligNext := false, mark := { bell := 0, seq := 0 }, cadence := false, q := 0, q1 := none, fb := false, nocheck := false,
    deadline := false, quarter := 0, bell := 0, units := [], ent := [], rows := [], starts := [], ends := [], blocks := [], fbRows := [] }

/-- The first Bell from b on whose number is congruent to p modulo f (R106). -/
def congruentBell (b : BitVec 40) (p f : Nat) : BitVec 40 := b + BitVec.ofNat 40 ((p + f - b.toNat % max 1 f) % max 1 f)

/-- Slot 0 of a frame that may start at Bell b (R106): the first congruent Bell from b on that is later than the slot 0 of the frame before (log
entry 14). -/
def slotZero (b : BitVec 40) (p f : Nat) (prev : Option (BitVec 40)) : BitVec 40 :=
  match prev with
  | none => congruentBell b p f
  | some z => congruentBell (if bellsFrom z b < 2 ^ 39 ∧ z ≠ b then b else z + 1) p f

/-- The Bell number that a session's cadence counts: the pair Bell number for a paired session (R434). -/
def sessBell (s : State) (x : Session) : BitVec 40 := if x.tan.role = 0 then s.bell.num else s.bell.num + s.tandem.offset

/-- The Bell, in the session's count, in which a fence that lands now makes its band eligible (R24). -/
def eligBell (s : State) (x : Session) : BitVec 40 := if s.bell.cut then sessBell s x + 1 else sessBell s x

/-- Bands whose rows have landed become eligible (R24, R142). -/
def markRows (cut : Bool) (m : Mark) (f : Frame) : Frame :=
  { f with bands := f.bands.map (fun e =>
      if e.2.st = 0 ∧ e.2.elig = false ∧ e.2.eligNext = false ∧ rowsNeeded f.ops f.height e.1 ≤ f.rows then
        (e.1, if cut then { e.2 with eligNext := true, mark := m } else { e.2 with elig := true, mark := m })
      else e) }

/-- PAYLOAD_MAX over the session's RECEIVER flows (R410). -/
def payloadMax (s : State) (x : Session) : Nat :=
  (x.flows.filterMap (fun i => (look s.net.flows i).map (fun f => f.mtu - (if f.ipv6 then 40 else 20) - 36))).foldl
    (fun m n => if m = 0 then n else min m n) 0

/-- The SPARE engines that a sampled frame of n tile columns takes (R310): Quarters from q + 1 on, wrapping. -/
def shadowQuarters (s : State) (q n : Nat) : List Nat :=
  (((List.range 15).map (fun k => (q + 1 + k) % 16)).filter (fun k =>
    decide ((qtrOf s k).state = 1) && (qtrOf s k).shadow.isNone && (look s.bist.standIn k).isNone)).take n

/-- The self-shadow sample of a frame that starts (R310). -/
def sampleFrame (h num : Nat) (s : State) : State :=
  match look s.sessions h with
  | none => s
  | some x =>
    let n := s.plan.cfg.sample
    let need := n * bandsOf x.stream.height
    if n = 0 ∨ x.tan.live = true ∨ x.kind = 1 ∨ (qtrOf s x.quarter).credit < need then s
    else
      let s1 := setQtr s x.quarter (fun t => { t with credit := t.credit - need })
      let cols := tileCols x.stream.codec x.stream.width
      let qs := shadowQuarters s x.quarter cols
      if qs.length < cols then setQtr s1 x.quarter (fun t => { t with shAband := up t.shAband 1 })
      else
        setSess (qs.foldl (fun s k => setQtr s k (fun t => { t with shadow := some h })) s1) h (fun x => { x with
          frames := x.frames.map (fun f => if f.num = num then { f with sampled := true } else f) })

/-- The action for a frame (R80, R180, R243, R250): forced makes it a key frame, prev is the picture of the frame before. -/
def frameAction (x : Session) (g : Nat) (prev : Option Nat) (forced : Bool) : Action :=
  match (action x g).1 with
  | .normal => if forced || (prev.isNone && (retained x).isEmpty) then .key else if x.ltr.rewave then .wave else .normal
  | .wave => if forced || prev.isNone then .key else .wave
  | .recover a => if forced then .key else .recover a
  | .key => .key

/-- Does the wave in progress go on with the next frame (R248, R250)? -/
def waveGoesOn (l : Ltr) : Bool := l.wave && decide (l.wavePos < l.waveLen) && !l.rewave

/-- Is frame g marked for a slot (R232)? -/
def markedFor (x : Session) (g : Nat) (act : Action) : Bool :=
  decide (0 < x.stream.ltrSlots) &&
    match act with
    | .key => true
    | .recover _ => decide (x.ltr.period ≤ since x.ltr.lastMark g)
    | .wave => false
    | .normal => decide (x.ltr.period ≤ since x.ltr.lastMark g) && (!waveGoesOn x.ltr || decide (x.ltr.wavePos + 1 = x.ltr.waveLen))

/-- The references of a frame that starts, and the LTR state after (R232 to R235, R243 to R248, R250). prev is the descriptor of the frame
before; forced says that R73, R80 or R180 makes the frame a key frame. The answer: the frame with key, ref, slot, wave and cands set. -/
def chooseRefs (x : Session) (g : Nat) (prev : Option Nat) (forced : Bool) (f : Frame) : Frame × Ltr × Action × Bool × Bool :=
  let l0 := x.ltr
  let cont := waveGoesOn l0
  let evict := if markedFor x g (frameAction x g prev forced) then none else evictSlot x
  let l1 := match evict with | none => l0 | some i => { l0 with slots := del l0.slots i }
  let x1 := { x with ltr := l1 }
  let (act0, sup) := action x1 g
  let act := frameAction x1 g prev forced
  let l2 := { l1 with acked := l1.pendAck.foldl addS l1.acked, pendAck := [], loss := none, key := false, stale := false, rewave := false,
                      spect := if act = .key then false else l1.spect }
  let x2 := { x1 with ltr := l2 }
  let m := markedFor x1 g act
  match act with
  | .key =>
    let l3 := { l2 with slots := [], acked := [], wave := false, wavePos := 0, recover := g, lastKey := g,
                        lastMark := if 0 < x.stream.ltrSlots then g else l2.lastMark }
    ({ f with key := true, ref := none, slot := if 0 < x.stream.ltrSlots then some 0 else none, wave := 0, cands := [] }, l3, act, sup,
      decide (act0 = .key))
  | .recover a =>
    let cleaned := cleanSlots x2 (l0.loss.getD g)
    let l3 := { l2 with slots := cleaned, wave := false, wavePos := 0, recover := g }
    ({ f with key := false, ref := some a, slot := if m then some (markSlot { x2 with ltr := l3 }) else none, wave := 0, cands := [a] },
      if m then { l3 with lastMark := g } else l3, act, sup, false)
  | .wave =>
    let l3 := { l2 with slots := cleanSlots x2 (l0.loss.getD g), wave := true, wavePos := 1, waveLen := l2.refresh, recover := g }
    ({ f with key := false, ref := prev, slot := none, wave := 1, cands := prev.toList }, l3, act, sup, false)
  | .normal =>
    let pos := if cont then l2.wavePos + 1 else 0
    let l3 := { l2 with wave := cont, wavePos := pos }
    let slot := if m then some (markSlot x2) else none
    let stays := fun (d : Nat) => decide (prev = some d) || decide (some d ≠ l2.last) || l2.slots.any (fun e => decide (e.2 = d))
    let keep := (retained x2).filter (fun d => !leaving x2 d && stays d && decide (slot.bind (fun i => look l2.slots i) ≠ some d))
    ({ f with key := false, ref := prev.orElse (fun _ => newest x2 keep), slot := slot, wave := pos,
              cands := if cont then prev.toList else prev.toList.foldl addS keep },
      if m then { l3 with lastMark := g } else l3, act, sup, false)

/-- Claims on the extents of a protected picture (R265). -/
def claimPic (h : Nat) (exts : List Word) (s : State) : List (Word × Nat) × State :=
  exts.foldl (fun (acc : List (Word × Nat) × State) w =>
    match claimBuf (sessReq h) w acc.2 with
    | (.ok t, s1) => (acc.1 ++ [(w, t)], s1)
    | (.error _, s1) => (acc.1, s1)) ([], s)

/-- The picture of a compositing session's protected partner is claimed for a frame, or the frame shows black with 0x0D0B (R144, R145, R265). DESIGN
CHOICE (log entry 75): the rectangle of a closed partner is the whole output. -/
def composite (h : Nat) (x : Session) (o : SubmitOps) (s : State) : (List (Word × Nat) × Option CompPic) × State :=
  if o.compMode = 0 then (([], none), s)
  else
    match tokenSession s x.fn o.compToken with
    | some (_, y) =>
      match y.dec.latest.bind (fun d => look y.pics d) with
      | some p =>
        let (c, s1) := claimPic h p.extents s
        ((c, some { exts := p.extents, width := p.width, height := p.height, depth := y.stream.depth }), s1)
      | none => (([], some { exts := [], width := y.stream.width, height := y.stream.height, depth := y.stream.depth }), notice h 0x0D0B s)
    | none => (([], some { exts := [], width := x.stream.width, height := x.stream.height, depth := x.stream.depth }), notice h 0x0D0B s)

/-- A buffer takes protected data (R263, R266). -/
def markSecret (w : Word) (s : State) : State :=
  match currentBuf s w with | none => s | some b => setBuf w { b with secret := true } s

/-- The protected device surface of a compositing frame, which no aperture page maps (R145). DESIGN CHOICE (log entry 75): it is allocated at the frame
start, in buffers of 1 MiB; where the pool refuses, the composited bands are not kept and the pool's code is reported. -/
def allocSurface (h bytes : Nat) (s : State) : List Word × State :=
  match allocMany (sessReq h) (2 ^ 20) (cdiv bytes (2 ^ 20)) s with
  | (.ok l, s1) => (l, l.foldl (fun s w => markSecret w s) s1)
  | (.error e, _) => ([], notice h e (allocRefused (sessReq h) e s))

/-- Frames that still ingest are due for truncation at the cut that follows the first fence of the next frame (R134). -/
def duePrevious (b : BitVec 40) (fs : List Frame) : List Frame :=
  fs.map (fun f => if f.ingest && !f.trunc && f.truncAt.isNone then { f with truncAt := some b } else f)

/-- A picture under construction (R177, R181). -/
def newPic (g : Nat) : Pic :=
  { frame := g, key := false, extents := [], whole := false, taint := false, wave := false, refd := false, shows := false, tag := 0, area := 0,
    frac := 0, subst := false, rap := false, q := 0, sectors := 0, order := 0, width := 0, height := 0 }

/-- The references of frame g: chosen now, or, where a takeover goes on with a frame of which the shadow holds skip bands, those of the mirrored frame
(R243, R451, R453). -/
def refsFor (x : Session) (g : Nat) (prev : Option Nat) (forced : Bool) (skip : Nat) (f : Frame) : Frame × Ltr × Action × Bool × Bool :=
  if skip = 0 then chooseRefs x g prev forced f
  else
    let main := x.tan.shMain
    let alone := x.ltr.wave || decide (x.ltr.recover = g)
    ({ f with key := decide (x.ltr.lastKey = g), ref := main, slot := x.tan.shSlot, wave := if x.ltr.wave then x.ltr.wavePos else 0,
              cands := if alone then main.toList else main.toList.foldl addS (retained x) }, x.ltr, .normal, false, false)

/-- A frame of session h starts (R73, R133): the session's quarter, effort and phase are set already. source 0 aperture, 1 host; ops its
geometry; bindId and set its binding and surface set; rows what the starting fence covers; m the fence's mark. -/
def startFrame (h source : Nat) (ops : SubmitOps) (bindId set rows : Nat) (m : Mark) (s : State) : State :=
  match look s.sessions h with
  | none => s
  | some x0 =>
    let g := x0.frameNum
    let first := decide (x0.state = 1)
    let resized := match x0.sizeNext with | none => false | some z => decide (z ≠ (x0.stream.width, x0.stream.height))
    let size := x0.sizeNext.getD (x0.stream.width, x0.stream.height)
    let x := { x0 with stream := { x0.stream with width := size.1, height := size.2 }, sizeNext := none }
    let prev := match x.frames.getLast? with
      | some f => if f.desc < 16 then some f.desc else none
      | none => x.ltr.last
    let n := bandsOf size.2
    let f := framesF s x.stream.fps
    let zero := slotZero (eligBell s x) (x.phase.getD 0) f x.zeroLast
    let ts := if g = 0 then x.rtp.tsNext else x.rtp.tsLast + BitVec.ofNat 32 (90000 / max 1 x.stream.fps)
    let skip := if x.tan.role = 1 ∧ x.tan.shLast = false ∧ x.tan.shFrame = g then x.tan.shBands else 0
    let d := if skip = 0 then freeDesc x else x.tan.shDesc
    let fr0 : Frame :=
      { ops := ops, bindId := bindId, ts := ts, cands := [], comp := [], num := g, key := false, source := source, set := set, rows := rows,
        ingest := decide (rows < ops.srcHeight), trunc := false, truncAt := none, parked := false, slot0 := if skip = 0 then zero else x.tan.slot0.getD zero, bells := f, stall := fld s.ingest.stall 2 0,
        ref := none, slot := none, wave := 0, desc := d, width := size.1, height := size.2, next := skip + 1, bounded := false, bits := 0,
        off := 0, anyFb := false, dropped := false, failed := false, mirrored := decide (x.tan.role = 1) && (x.tan.live || x.tan.sync.isSome), sampled := false,
        ibc := false, headers := [], compPic := none, surface := [],
        bands := (List.range n).map (fun k => (k + 1, if k < skip then { newBand with st := 3 } else newBand)) }
    let (fr1, ltr, act, sup, fbKey) := refsFor x g prev (first || resized) skip fr0
    let ((claims, pic), s00) := composite h x ops s
    let (surface, s0) := if pic.isSome then allocSurface h (size.1 * size.2 * 3 / 2 * (x.stream.depth + 1)) s00 else ([], s00)
    let fr2 := markRows s.bell.cut m { fr1 with comp := claims, compPic := pic, surface := surface }
    let x1 := { x with
      state := 2, pinned := true, frameNum := (g + 1) % 2 ^ 32, frameMark := some m, woken := none, cfgDue := false, zeroLast := some zero, ltr := ltr,
      frames := duePrevious (eligBell s x) x.frames ++ [fr2],
      pics := if skip = 0 then
          put x.pics d { newPic g with key := fr2.key, width := size.1, height := size.2, order := g, wave := decide (0 < fr2.wave ∧ fr2.wave < ltr.waveLen) }
        else x.pics,
      tan := if skip = 0 then x.tan else { x.tan with shBands := 0 },
      rtp := { x.rtp with tsLast := ts, payMax := payloadMax s x },
      rate := frameHistory x resized }
    let s1 := when (decide (x0.state ≠ 2)) (tellPartner h 2) (sweepPics h { s0 with sessions := put s0.sessions h x1 })
    let s2 := stat h 0 1 s1
    let s3 := if fr2.key then stat h 4 1 s2 else s2
    let s4 := if fbKey then stat h 20 1 s3 else s3
    let s5 := if sup then stat h 17 1 s4 else if x0.ltr.loss.isSome then stat h 21 1 s4 else s4
    let s6 := match act with | .recover _ => stat h 18 1 s5 | .wave => stat h 19 1 s5 | _ => s5
    sampleFrame h g s6

end Sys2Proof.Machine
end

