-- ==== Sys2Proof/Machine/Ingest.lean ====
section
/-! DEFINITION. Frame starts of encode sessions (R73, R86 to R89, R107, R111), SUBMIT_FRAME (R123 to R125, R136), the aperture (R121, R122),
row fences (R127 to R133), truncation (R134) and host-memory ingest (R136, R137, R147). -/

namespace Sys2Proof.Machine

open Sys2Proof

/-! ### Waiting configurations -/

/-- CONFIGURE group 2 in force, its defaults resolved (R252). -/
def takeRes (fps : Nat) (o : ResOps) (l : Ltr) : Ltr :=
  { l with period := orElse o.ltrPeriod (max 1 (fps / 4)), refresh := orElse o.refreshFrames 8, keyHold := orElse o.keyHold (max 1 (fps / 8)),
           spectInt := orElse o.spectKeyInterval fps, waveOff := decide (o.flags % 2 = 1) }

/-- CONFIGURE group 0 in force, but for the picture size, which waits for a frame start (R73, R80). A new frame rate takes a new phase (R107); a
lowered LTR_SLOTS empties the slots above it (R252); the effort stays within the new limits (R111). -/
def applyStream (o : StreamOps) (x : Session) : Session :=
  { x with
    stream := { o with width := x.stream.width, height := x.stream.height }, newStream := none,
    phase := if o.fps = x.stream.fps then x.phase else none, effort := min (max x.effort o.effortMin) o.effortMax,
    effortTo := x.effortTo.map (fun e => min (max e o.effortMin) o.effortMax),
    ltr := { x.ltr with slots := x.ltr.slots.filter (fun e => decide (e.1 < o.ltrSlots)) } }

/-- The session as its waiting configuration leaves it at a frame start out of OPEN or IDLE (R73). -/
def configured (x : Session) : Session :=
  let x1 := match x.newStream with | none => x | some o => applyStream o x
  match x1.newRes with | none => x1 | some o => { x1 with ltr := takeRes x1.stream.fps o x1.ltr, newRes := none }

/-- The stream parameters with the picture size of the next frame (R80). -/
def sized (x : Session) : StreamOps :=
  match x.sizeNext with | none => x.stream | some z => { x.stream with width := z.1, height := z.2 }

/-- The ADMISSION record (R107, R477). -/
def admissionEvent (h : Nat) (s : State) : State :=
  match look s.sessions h with
  | none => s
  | some x =>
    post x.fn 1 0 (tokenOf h x.gen)
      [fldW 0 8 (x.phase.getD 0) ||| fldW 8 8 (framesF s x.stream.fps) ||| fldW 16 8 (planQuarter x) ||| fldW 24 8 x.effort, 0, 0, 0] s

/-- A session without a phase is given the one that R107 chooses for a load on its Quarter; the phase is posted, and told to the partner (R438). -/
def givePhase (h : Nat) (l : Load) (s : State) : State :=
  match look s.sessions h with
  | none => s
  | some x =>
    if x.phase.isSome then s
    else admissionEvent h (tellPhase h (setSess s h (fun y => { y with phase := some (choosePhase s (planQuarter x) (some h) l) })))

/-- A page-in of a record that is not resident is asked for; a waiting one keeps its earliest cause (R87). -/
def askPage (m : Mark) (req : Nat) (x : Session) : Session :=
  if x.resident then x else { x with cause := some (x.cause.getD (m, req)) }

/-- A record is used: it becomes the most recently used one of the cache (R87). -/
def touch (h : Nat) (s : State) : State :=
  { setSess s h (fun x => { x with lru := s.sess.clock }) with sess := { s.sess with clock := s.sess.clock + 1 } }

/-- An ACTIVE session whose picture size changes at this frame start is tested under R111 with the whole configuration that the CONFIGURE gave: where
nothing fits it keeps the previous one (0x020A). What is left of a configuration that fits applies at the frame's bucket boundary (R203). -/
def resizeActive (h conv : Nat) (s : State) : State :=
  match look s.sessions h with
  | none => s
  | some x =>
    if x.sizeNext.isNone ∨ sized x = x.stream then s
    else
      let y := match x.newStream with | none => x | some o => applyStream o x
      let l := { loadOf s y with o := { y.stream with width := (sized x).width, height := (sized x).height }, conv := conv }
      let own := planQuarter x
      match firstFit s (some h) l y.phase (own :: (placeOrder s).filter (fun q => decide (q ≠ own)))
          (effortsDown l.effort (min l.effort y.stream.effortMin)) with
      | none => notice h 0x020A (setSess s h (fun x => { x with sizeNext := none, newStream := none, newOk := false }))
      | some (q, e) =>
        setSess s h (fun x => { x with
          effortTo := if e = planEffort x then x.effortTo else some e, moveTo := if q = own then x.moveTo else some q, newOk := x.newStream.isSome })

/-- The first frame start after a RESUME applies the configuration that waited while the session was PARKED or COLD (R73); like every change of an ACTIVE
session it is tested under R111, and where nothing fits the previous one stays (0x020A). -/
def resumeConfig (h : Nat) (ops : SubmitOps) (s : State) : State :=
  match look s.sessions h with
  | none => s
  | some x =>
    let y := configured x
    let l := { loadOf s y with o := sized y, conv := preRate ops (sized y) }
    let own := planQuarter x
    match firstFit s (some h) l y.phase (own :: (placeOrder s).filter (fun q => decide (q ≠ own))) (effortsDown l.effort (min l.effort y.stream.effortMin)) with
    | none => notice h 0x020A (setSess s h (fun x => { x with sizeNext := none, newStream := none }))
    | some (q, e) =>
      let y1 := { y with effort := e, effortTo := none, moveTo := if q = own then y.moveTo else some q }
      givePhase h { l with effort := e } { s with sessions := put s.sessions h y1 }

/-- The frame start of session h is admitted (check 10 of R128, R86 to R89, R387): the session placed, with its effort, phase and page-in, or the
code of the refusal, which leaves everything as it was. -/
def admitStart (h : Nat) (ops : SubmitOps) (m : Mark) (s : State) : Except Code State :=
  match look s.sessions h with
  | none => .error 0x0201
  | some x =>
    if pendingNow s h x then .error 0x0204
    else if x.stream.flags.testBit 2 && x.ht.isNone then .error 0x0206
    else if x.state = 2 then .ok (touch h (if x.cfgDue then resumeConfig h ops s else resizeActive h (preRate ops (sized x)) s))
    else
      let y := configured x
      let l := { loadOf s y with o := sized y, conv := preRate ops (sized y) }
      match frameAdmit s h y l with
      | .error e => .error e
      | .ok (q, e) =>
        let y1 := askPage m 0x21A { y with quarter := q, moveTo := none, effort := e, effortTo := none, pinned := true }
        .ok (touch h (givePhase h { l with effort := e } { s with sessions := put s.sessions h y1 }))

/-! ### Bindings -/

/-- Has every band of a frame committed? -/
def frameOver (f : Frame) : Bool := f.bands.all (fun b => decide (b.2.st = 3))

/-- Old bindings that no frame in progress uses are unmapped and freed (R123). -/
def freeBinds (h : Nat) (s : State) : State :=
  match look s.sessions h with
  | none => s
  | some x =>
    let used := fun (b : Binding) => x.frames.any (fun f => decide (f.source = 0) && decide (f.bindId = b.id) && !frameOver f)
    (x.oldBinds.filter (fun b => !used b)).foldl (fun s b => unmapSets h b.sets s)
      (setSess s h (fun x => { x with oldBinds := x.oldBinds.filter used }))

/-- At a frame start a new binding applies (R123). -/
def takeBinding (h : Nat) (s : State) : State :=
  match look s.sessions h with
  | none => s
  | some x =>
    match x.nextBind with
    | none => s
    | some b => freeBinds h (setSess s h (fun x => { x with binding := some b, nextBind := none, oldBinds := x.oldBinds ++ x.binding.toList }))

/-- The next set of the binding: its counter advances (R133). -/
def takeSet (h : Nat) (s : State) : Nat × State :=
  match look s.sessions h with
  | none => (0, s)
  | some x =>
    match x.binding with
    | none => (0, s)
    | some b =>
      (b.count, setSess s h (fun x => { x with binding := some { b with count := (b.count + 1) % max 1 b.ops.surfaces } }))

/-- The identity of a new binding. -/
def nextBindId (x : Session) : Nat := ((x.binding.toList ++ x.nextBind.toList ++ x.oldBinds).map (fun b => b.id)).foldl max 0 + 1

/-- The first pages of a binding's sets, 0xFFFF_FFFF where no set exists (R381, R477). -/
def firstPages (sets : List (Nat × List Word)) : List Word :=
  (List.range 4).map (fun i => match sets[i]? with | some e => BitVec.ofNat 32 e.1 | none => 0xFFFFFFFF)

/-- A binding of SUBMIT_FRAME with SOURCE 0: it waits for the next frame start; one that waited already is unmapped (R123). -/
def bindNext (h : Nat) (o : SubmitOps) (sets : List (Nat × List Word)) (s : State) : State :=
  match look s.sessions h with
  | none => s
  | some x =>
    let s1 := match x.nextBind with | none => s | some b => unmapSets h b.sets s
    setSess s1 h (fun x => { x with
      nextBind := some { id := nextBindId x, ops := o, source := 0, valid := true, sets := sets, count := 0 },
      rate := { x.rate with pqNext := o.colour.testBit 2 } })

/-- RESUME and takeover map new sets with the binding's parameters and post the binding record (R124, R451). -/
def rebind (h : Nat) (s : State) : State :=
  match look s.sessions h with
  | none => s
  | some x =>
    match x.binding with
    | none => s
    | some b =>
      let put1 := fun (ok : Bool) (sets : List (Nat × List Word)) (s : State) =>
        setSess s h (fun x => { x with binding := some { b with id := nextBindId x, valid := ok, sets := sets, count := 0 } })
      match mapSets h b.ops b.ops.surfaces s with
      | (.ok sets, s1) => post x.fn 2 0 (tokenOf h x.gen) (firstPages sets) (put1 true sets s1)
      | (.error e, s1) => post x.fn 2 e (tokenOf h x.gen) (firstPages []) (put1 false [] s1)

/-- PARK, COLD demotion and CLOSE unmap and free every surface set; the binding keeps its parameters (R124). -/
def unbind (h : Nat) (s : State) : State :=
  match look s.sessions h with
  | none => s
  | some x =>
    let kept := (x.nextBind.toList ++ x.binding.toList).head?
    let s1 := (x.binding.toList ++ x.nextBind.toList ++ x.oldBinds).foldl (fun s b => unmapSets h b.sets s) s
    let s2 := x.hostSet.foldl (fun s e => dropAll (sessReq h) e.2 s) s1
    setSess s2 h (fun x => { x with binding := kept.map (fun b => { b with sets := [], valid := false }), nextBind := none, oldBinds := [], hostSet := [] })

/-! ### SUBMIT_FRAME -/

/-- Is a host frame still being read (R137)? -/
def hostReading (x : Session) : Bool := x.frames.any (fun f => decide (f.source = 1) && f.ingest && !f.trunc && !f.failed)

/-- The refusals of every SUBMIT_FRAME (R125, R147, R437): the code, if any. -/
def submitGate (s : State) (n : Nat) (x : Session) (host : Bool) (o : SubmitOps) : Option Code :=
  if x.tan.role = 2 then some 0x0807
  else if !s.ingest.en then some 0x0D0E
  else if x.kind ≠ 0 ∨ !(decide (1 ≤ x.state) && decide (x.state ≤ 3)) = true ∨ pendingNow s n x = true then some 0x0204
  else
    match submitCode s x host o with
    | some c => some c
    | none => if host && hostReading x then some 0x0D0A else none

/-- SUBMIT_FRAME_APERTURE (R123, R125). -/
def execSubmitFrameAperture (h : Hdr) (o : SubmitOps) (s : State) : Host.Outcome State Fault Refusal :=
  sessionCmd (.submitFrameAperture h o) h 3 s (fun s => onToken h 3 s (fun n x s =>
    match submitGate s n x false o with
    | some c => refuse h 3 c s
    | none =>
      match mapSets n o o.surfaces s with
      | (.error e, s1) => refuse h 3 e s1
      | (.ok sets, s1) => complete h 3 0 (firstPages sets) (bindNext n o sets s1)))

/-- SUBMIT_FRAME_HOST (R125, R133, R136): the frame starts at once. -/
def execSubmitFrameHost (h : Hdr) (o : SubmitOps) (s : State) : Host.Outcome State Fault Refusal :=
  sessionCmd (.submitFrameHost h o) h 3 s (fun s => onToken h 3 s (fun n x s =>
    match submitGate s n x true o with
    | some c => refuse h 3 c s
    | none =>
      match admitStart n o (nowMark s) s with
      | .error e => refuse h 3 e s
      | .ok s1 =>
        match allocMany (sessReq n) (2 ^ 20) (setPages o) s1 with
        | (.error e, _) => refuse h 3 e (allocRefused (sessReq n) e s)
        | (.ok bufs, s2) =>
          let s3 := setSess s2 n (fun x => { x with hostSet := x.hostSet ++ [(x.frameNum, bufs)], rate := { x.rate with pqNext := o.colour.testBit 2 } })
          let s4 := emit (.hostRead x.fn o.hostAddr (!x.stream.flags.testBit 0)) (takeBinding n s3)
          complete h 3 0 [] (startFrame n 1 o 0 0 0 (nowMark s) (stamp s4))))

/-! ### The aperture -/

/-- The mapped run that holds a page: its first page and session. -/
def pageRun (s : State) (page : Nat) : Option (Nat × Nat) :=
  (s.ingest.pages.find? (fun e => decide (e.1 ≤ page) && decide (page < e.1 + e.2.1))).map (fun e => (e.1, e.2.2))

/-- The binding that holds the run at a first page, with the run's buffers. -/
def runBinding (x : Session) (first : Nat) : Option (Binding × List Word) :=
  (x.binding.toList ++ x.nextBind.toList ++ x.oldBinds).findSome? (fun b =>
    (b.sets.find? (fun e => decide (e.1 = first))).map (fun e => (b, e.2)))

/-- A write that the aperture drops (R121). -/
def stray (s : State) : State :=
  { s with ingest := { s.ingest with stray := up s.ingest.stray 1, lastRej := 0xFFF00D09, lastFn := 0 } }

/-- Does RID_CHECK turn a requester ID away? -/
def ridBad (b : Binding) (rid : Nat) : Bool := b.ops.flags.testBit 0 && decide (rid ≠ b.ops.writerRid)

/-- Bytes into a surface set at an offset; the set's buffers are of 1 MiB (R121, R126). -/
def writeSet (bufs : List Word) (off : Nat) (bytes : List Byte) (s : State) : State :=
  match bufs[off / 2 ^ 20]? with
  | none => s
  | some w => storeMem (bufAddr s (hClass w) (hIndex w) + off % 2 ^ 20) (bytes.take (2 ^ 20 - off % 2 ^ 20)) s

/-- APERTURE_WRITE (R121): strays are counted always; while INGEST_CTRL.ENABLE is 0 a mapped write is not accepted (R147). -/
def execApertureWrite (w : AptWrite) (s : State) : Host.Outcome State Fault Refusal :=
  live s (fun s =>
    match (pageRun s w.page).bind (fun r => (look s.sessions r.2).bind (fun x => (runBinding x r.1).map (fun b => (r.1, b)))) with
    | none => stray s
    | some (first, b, bufs) =>
      if ridBad b w.rid then stray s
      else if s.ingest.en then wake (writeSet bufs ((w.page - first) * 2 ^ 20 + w.off) w.bytes s) else s)

/-- APERTURE_READ (R122). -/
def execApertureRead (page : Nat) (s : State) : Host.Outcome State Fault Refusal :=
  live s (fun s => emit (.apertureZeros page) { s with ingest := { s.ingest with stray := up s.ingest.stray 1 } })

/-! ### Fences -/

/-- ROWS and FRAME of a fence value (R127). -/
def fenceRows (v : DWord) : Nat := v.toNat % 65536
/-- See fenceRows. -/
def fenceFrame (v : DWord) : Nat := v.toNat / 65536 % 65536

/-- The session that a function's fence index holds (R81). -/
def fenceSession (s : State) (fn index : Nat) : Option (Nat × Session) :=
  s.sessions.find? (fun e => decide (e.2.fn = fn) && decide (e.2.fence = some index))

/-- Does the fence name E, the next frame (R133)? -/
def isStart (x : Session) (f : Fence) : Bool := decide (fenceFrame f.value = x.frameNum % 65536)

/-- The binding that a fence's frame uses: the next frame's at a frame start; else the one in force, or the one that waits where there is none. -/
def fenceBinding (x : Session) (f : Fence) : Option Binding :=
  if isStart x f then x.nextBind.orElse (fun _ => x.binding) else x.binding.orElse (fun _ => x.nextBind)

/-- ROWS and SRC_HEIGHT of the newest truncated or parked frame, where the fence names it (R128, R134). -/
def lateFrame (x : Session) (f : Fence) : Option (Nat × Nat) :=
  match x.late with
  | none => none
  | some (num, rows, height) => if num % 65536 = fenceFrame f.value then some (rows, height) else none

/-- A frame is truncated or parked: its fences are late from now on (R75, R134). -/
def noteLate (f : Frame) (x : Session) : Session := { x with late := some (f.num, f.rows, f.ops.srcHeight) }

/-- The frame E − 1 while it is ingesting through the aperture. -/
def openFrame (x : Session) (f : Fence) : Option Frame :=
  match x.frames.getLast? with
  | none => none
  | some fr =>
    if fr.num % 65536 = fenceFrame f.value ∧ fr.source = 0 ∧ fr.ingest = true ∧ fr.trunc = false ∧ fr.parked = false then some fr else none

/-- The checks 1 to 9 of R128 in order. -/
def fenceCode (s : State) (f : Fence) : Option Code :=
  if !s.ingest.en then some 0x0D0E
  else if !f.ok8 || decide (2 ^ 32 ≤ f.value.toNat) then some 0x0D04
  else
    match fenceSession s f.fn f.index with
    | none => some 0x0D05
    | some (_, x) =>
      let b := fenceBinding x f
      if (match b with | none => false | some b => ridBad b f.rid) then some 0x0D09
      else
        match b with
        | none => some 0x0D10
        | some b =>
          if !b.valid then some 0x0D10
          else
            let rows := fenceRows f.value
            if isStart x f then
              if rows = 0 ∨ b.ops.srcHeight < rows then some 0x0D07
              else if !ratioOk b.ops (sized x).width (sized x).height then some 0x0D02 else none
            else
              match lateFrame x f, openFrame x f with
              | some (had, height), _ => if rows ≤ had ∨ height < rows then some 0x0D07 else some 0x0D08
              | none, none => some 0x0D06
              | none, some fr => if rows ≤ fr.rows ∨ fr.ops.srcHeight < rows then some 0x0D07 else none

/-- A rejected fence (R129): counted, recorded, and posted once per index and Bell. -/
def rejectFence (f : Fence) (code : Code) (s : State) : State :=
  let key := f.fn * 4096 + f.index
  let s1 := { s with ingest := { s.ingest with
    fenceRej := up s.ingest.fenceRej 1, lastRej := fldW 20 12 f.index ||| code.zeroExtend 32, lastFn := BitVec.ofNat 32 f.fn } }
  let s2 := match fenceSession s f.fn f.index with | none => s1 | some (h, _) => stat h 23 1 s1
  if look s.ingest.rejs key = some s.bell.num then s2
  else
    let tok := match fenceSession s f.fn f.index with | none => (0 : Word) | some (h, x) => tokenOf h x.gen
    post f.fn 3 code tok [BitVec.ofNat 32 f.index, 0, loW f.value, hiW f.value]
      { s2 with ingest := { s2.ingest with rejs := put s2.ingest.rejs key s.bell.num } }

/-- An accepted fence is counted and its value kept for reads of the doorbell (R127). -/
def acceptFence (f : Fence) (s : State) : State :=
  { s with ingest := { s.ingest with fenceOk := up s.ingest.fenceOk 1, doors := put s.ingest.doors (f.fn * 4096 + f.index) f.value } }

/-- Rows of a frame in progress have landed (R130, R142). -/
def landRows (h num rows : Nat) (m : Mark) (s : State) : State :=
  setSess s h (fun x => { x with frames := x.frames.map (fun f =>
    if f.num = num then markRows s.bell.cut m { f with rows := max f.rows rows, ingest := decide (max f.rows rows < f.ops.srcHeight) } else f) })

/-- ROW_FENCE (R127 to R133). -/
def execRowFence (f : Fence) (s : State) : Host.Outcome State Fault Refusal :=
  live s (fun s =>
    if !fnOn s f.fn || !answers s then s
    else
      let s := wake s
      match fenceCode s f, fenceSession s f.fn f.index with
      | some c, _ => rejectFence f c s
      | none, none => s
      | none, some (h, x) =>
        let m := nowMark s
        if isStart x f then
          match fenceBinding x f with
          | none => s
          | some b =>
            match admitStart h b.ops m s with
            | .error c => rejectFence f c s
            | .ok s1 =>
              let (set, s2) := takeSet h (takeBinding h s1)
              startFrame h 0 b.ops b.id set (fenceRows f.value) m (stamp (acceptFence f s2))
        else
          match openFrame x f with
          | none => s
          | some fr => landRows h fr.num (fenceRows f.value) m (stamp (acceptFence f s)))

/-! ### Host-memory ingest and INGEST_CTRL -/

/-- Where a byte of the host frame goes in the surface set (R126, R136): o counts from HOST_ADDR, whose planes have HOST_PITCH; none beyond the rows'
samples or between regions. -/
def hostOffset (ops : SubmitOps) (o : Nat) : Option Nat :=
  match (regions ops.hostPitch ops).find? (fun r => decide (r.2.1 ≤ o) && decide (o < r.2.1 + r.2.2)) with
  | none => none
  | some (kind, start, _) =>
    (regionAt (pitchOf ops) ops kind).bind (fun at_ =>
      let k := o - start
      if 2 ≤ kind then some (at_ + k)
      else if k % max 1 ops.hostPitch < ops.srcWidth * bytesPer ops.format then
        some (at_ + k / max 1 ops.hostPitch * pitchOf ops + k % max 1 ops.hostPitch)
      else none)

/-- Bytes read from host memory land in the surface set (R136). -/
def landHost (bufs : List Word) (ops : SubmitOps) (a : Nat) (bytes : List Byte) (s : State) : State :=
  match bytes with
  | [] => s
  | b :: t =>
    landHost bufs ops (a + 1) t
      (match hostOffset ops (a - ops.hostAddr.toNat) with
       | none => s
       | some o => if a < ops.hostAddr.toNat then s else writeSet bufs o [b] s)

/-- HOST_ROWS_READ (R136, R137): the rows read so far, or the failure of a read after its retries; pieces are the bytes that the reads bring, with
their host addresses. -/
def execHostRowsRead (handle rows : Nat) (ok : Bool) (pieces : List (DWord × List Byte)) (s : State) : Host.Outcome State Fault Refusal :=
  onSession handle s (fun x s =>
    match x.frames.find? (fun f => decide (f.source = 1) && f.ingest && !f.trunc && !f.failed) with
    | none => s
    | some f =>
      if ok then
        let bufs := lookD x.hostSet f.num []
        landRows handle f.num (min rows f.ops.srcHeight) (nowMark s) (stamp (pieces.foldl (fun s p => landHost bufs f.ops p.1.toNat p.2 s) s))
      else
        setSess s handle (fun x => { x with frames := x.frames.map (fun g =>
          if g.num = f.num then { g with failed := true, truncAt := some (eligBell s x) } else g) }))

/-- INGEST_CTRL_WRITE (R147): barOk says that BAR2 is assigned and PF memory space is enabled. -/
def execIngestCtrlWrite (value : Word) (barOk : Bool) (s : State) : Host.Outcome State Fault Refusal :=
  blockWrite 0xFFFFFFFE value s (fun s =>
    if bit value 0 && !barOk then { s with ingest := { s.ingest with reason := 0x0D0F } }
    else { s with ingest := { s.ingest with en := bit value 0 } })

end Sys2Proof.Machine
end

