-- ==== Sys2Proof/Machine/Lrc.lean ====
section
/-! DEFINITION. CRC-32C, the in-loop lag, lossless reference compression and pictures in their extents (R167, R169, R182 to R184). -/

namespace Sys2Proof.Machine

open Sys2Proof

/-! ### CRC-32C -/

/-- One bit of CRC-32C. PRESUMED (log entry 83): the reflected Castagnoli polynomial. -/
def crcBit (c : Nat) : Nat := if c % 2 = 1 then (c / 2) ^^^ 0x82F63B78 else c / 2

/-- One byte of CRC-32C. -/
def crcByte (c : Nat) (b : Byte) : Nat := (List.range 8).foldl (fun c _ => crcBit c) (c ^^^ b.toNat)

/-- The CRC-32C of a byte string (R84, R169). PRESUMED (log entry 83): the register starts at all ones and the result is inverted. -/
def crc32c (l : List Byte) : Word := BitVec.ofNat 32 (l.foldl crcByte 0xFFFFFFFF ^^^ 0xFFFFFFFF)

/-- Samples in R169's form: 1 byte each at 8-bit, 2 bytes little-endian with the value in bits 9:0 at 10-bit. -/
def sampleBytes (depth : Nat) (l : List Nat) : List Byte := l.flatMap (fun v => if depth = 1 then leBytes (v % 1024) 2 else leBytes v 1)

/-! ### The rows that a commit makes final -/

/-- The luma rows, from and up to but without, that the commit of band k of n makes final (R167); bh is the height of a band (R271). -/
def finalLuma (bh height k n : Nat) : Nat × Nat := (bh * (k - 1) - 16, if k = n then height else bh * k - 16)

/-- The chroma rows that the commit of band k of n makes final (R167). -/
def finalChroma (bh height k n : Nat) : Nat × Nat := (bh / 2 * (k - 1) - 8, if k = n then cdiv height 2 else bh / 2 * k - 8)

/-! ### The layout of a picture -/

/-- The sizes of a picture: luma width and height, and its depth (0 8-bit, 1 10-bit). -/
structure Shape where
  width  : Nat
  height : Nat
  depth  : Nat
  deriving DecidableEq, Repr

/-- The units of plane 0 across and down (R182). -/
def unitsY (p : Shape) : Nat × Nat := (cdiv p.width 128, cdiv p.height 8)

/-- The units of plane 1 across and down (R182). -/
def unitsC (p : Shape) : Nat × Nat := (cdiv (cdiv p.width 2) 64, cdiv (cdiv p.height 2) 8)

/-- The units of a picture. -/
def unitCount (p : Shape) : Nat := (unitsY p).1 * (unitsY p).2 + (unitsC p).1 * (unitsC p).2

/-- The 32×32 luma blocks across and down (R183). -/
def motionBlocks (p : Shape) : Nat × Nat := (cdiv p.width 32, cdiv p.height 32)

/-- The first byte of the motion field (R183). -/
def motionAt (p : Shape) : Nat := 4 * unitCount p

/-- The first byte of the unit data (R183). -/
def dataAt (p : Shape) : Nat := upTo (motionAt p + 4 * ((motionBlocks p).1 * (motionBlocks p).2)) 64

/-- The bytes of an uncompressed unit (R182). -/
def rawBytes (depth : Nat) : Nat := if depth = 1 then 1280 else 1024

/-- The 1,024 samples of a unit packed (R182). DESIGN CHOICE (log entry 74): at 10-bit the first sample takes the lowest bits. -/
def packUnit (depth : Nat) (l : List Nat) : List Byte :=
  if depth = 1 then leBytes (l.foldr (fun v r => v % 1024 + 1024 * r) 0) 1280 else l.map (fun v => BitVec.ofNat 8 v)

/-- The samples of an uncompressed unit. -/
def unpackUnit (depth : Nat) (b : List Byte) : List Nat :=
  if depth = 1 then (List.range 1024).map (fun i => leNat b / 1024 ^ i % 1024) else b.map (fun v => v.toNat)

/-! ### A picture's byte space -/

/-- The address of byte o of a picture's space over its extents, in handle order (R183). -/
def spaceAddr (s : State) (exts : List Word) (o : Nat) : Nat :=
  match exts with
  | [] => 0
  | w :: t => let n := classSize (hClass w); if o < n then bufAddr s (hClass w) (hIndex w) + o else spaceAddr s t (o - n)

/-- Bytes of a picture's space. -/
def spaceRead (s : State) (exts : List Word) (o n : Nat) : List Byte := (List.range n).map (fun k => readMem s (spaceAddr s exts (o + k)))

/-- Bytes written to a picture's space: each extent takes its part. -/
def spacePut (exts : List Word) (o : Nat) (b : List Byte) (s : State) : State :=
  match exts with
  | [] => s
  | w :: t =>
    let n := classSize (hClass w)
    if n ≤ o then spacePut t (o - n) b s
    else spacePut t 0 (b.drop (n - o)) (storeMem (bufAddr s (hClass w) (hIndex w) + o) (b.take (n - o)) s)

/-! ### Units written by finalisation -/

/-- The samples of rows that a commit makes final, as R169 orders them: luma rows, then rows of interleaved CbCr. -/
structure Final where
  shape : Shape
  luma  : Nat × Nat
  chroma : Nat × Nat
  fin   : List Nat
  deriving DecidableEq, Repr

/-- A luma sample of the rows made final. -/
def Final.y (f : Final) (px py : Nat) : Nat := f.fin.getD ((py - f.luma.1) * f.shape.width + px) 0

/-- A chroma sample of the rows made final: c 0 Cb, 1 Cr. -/
def Final.c (f : Final) (c px py : Nat) : Nat :=
  f.fin.getD ((f.luma.2 - f.luma.1) * f.shape.width + (py - f.chroma.1) * (2 * cdiv f.shape.width 2) + 2 * px + c) 0

/-- The samples of the luma unit at column i of unit row j, filled by edge replication (R182). -/
def Final.unitY (f : Final) (i j : Nat) : List Nat :=
  (List.range 1024).map (fun n => f.y (min (128 * i + n % 128) (f.shape.width - 1)) (min (8 * j + n / 128) (f.shape.height - 1)))

/-- The samples of a unit of plane 1 (R182). -/
def Final.unitC (f : Final) (i j : Nat) : List Nat :=
  (List.range 1024).map (fun n => f.c (n % 2) (min (64 * i + n % 128 / 2) (cdiv f.shape.width 2 - 1)) (min (8 * j + n / 128) (cdiv f.shape.height 2 - 1)))

/-- The units that the rows complete: index and samples, luma units first, in row-major order (R184; log entry 74). -/
def Final.units (f : Final) : List (Nat × List Nat) :=
  let (wy, hy) := unitsY f.shape
  let (wc, hc) := unitsC f.shape
  let rows := fun (a b all : Nat) => (List.range all).filter (fun j => decide (a ≤ 8 * j) && decide (8 * j < b))
  ((rows f.luma.1 f.luma.2 hy).flatMap (fun j => (List.range wy).map (fun i => (j * wy + i, f.unitY i j)))) ++
  ((rows f.chroma.1 f.chroma.2 hc).flatMap (fun j => (List.range wc).map (fun i => (wy * hy + j * wc + i, f.unitC i j))))

/-- The stored form of a unit (R182, R184): the compressed form where decompression returns the samples exactly and it takes fewer sectors than the
uncompressed one. -/
def unitForm (depth : Nat) (samples : List Nat) (packed : Option (List Byte)) : List Byte :=
  match packed with
  | none => packUnit depth samples
  | some b => if b ≠ [] ∧ b.length + 64 ≤ rawBytes depth ∧ Config.lrcUnpack depth b = samples then b else packUnit depth samples

/-- The form of each unit that rows complete, in the order in which finalisation writes them. -/
def unitForms (f : Final) (lrc : List (Option (List Byte))) : List (Nat × List Byte) :=
  (List.range f.units.length).map (fun i =>
    let u := f.units.getD i (0, [])
    (u.1, unitForm f.shape.depth u.2 (lrc.getD i none)))

/-- The sectors that the units of a commit take (R184). -/
def formSectors (l : List (Nat × List Byte)) : Nat := (l.map (fun u => cdiv u.2.length 64)).sum

/-- Where the next unit goes: after the sectors in use, or at the start of the unit data (R183). -/
def nextSector (p : Shape) (sectors : Nat) : Nat := max sectors (dataAt p / 64)

/-- The units of a commit are written with their index entries (R183, R184). -/
def writeUnits (exts : List Word) (at0 : Nat) (l : List (Nat × List Byte)) (s : State) : State :=
  match l with
  | [] => s
  | u :: t =>
    let n := cdiv u.2.length 64
    writeUnits exts (at0 + n) t (spacePut exts (64 * at0) u.2 (spacePut exts (4 * u.1) (leBytes (at0 * 32 + n) 4) s))

/-! ### The motion field -/

/-- A signed value in 16 bits. -/
def vec16 (v : Int) : Nat := (v % 65536).toNat

/-- A motion-field entry (R183): quarter pixels; none for an intra block. -/
def motionEntry (v : Option (Int × Int)) : Nat := match v with | none => 0x80008000 | some (x, y) => vec16 x + 65536 * vec16 y

/-- The vector of an entry. -/
def entryVec (e : Nat) : Option (Int × Int) :=
  if e = 0x80008000 then none else some ((BitVec.ofNat 16 e).toInt, (BitVec.ofNat 16 (e / 65536)).toInt)

/-- Entries of the motion field are written: the index of each 32×32 block, row-major, with its vector (R183). -/
def writeMotion (p : Shape) (exts : List Word) (l : List (Nat × Option (Int × Int))) (s : State) : State :=
  l.foldl (fun s e => spacePut exts (motionAt p + 4 * e.1) (leBytes (motionEntry e.2) 4) s) s

/-- The vector of the 32×32 block of a picture that holds a luma position (R154, R183). -/
def readMotion (s : State) (p : Shape) (exts : List Word) (px py : Nat) : Option (Int × Int) :=
  entryVec (leNat (spaceRead s exts (motionAt p + 4 * (py / 32 * (motionBlocks p).1 + px / 32)) 4))

/-! ### Reading a picture -/

/-- The samples of unit i of a picture (R182 to R184). -/
def readUnit (s : State) (p : Shape) (exts : List Word) (i : Nat) : List Nat :=
  let e := leNat (spaceRead s exts (4 * i) 4)
  let b := spaceRead s exts (64 * (e / 32)) (64 * (e % 32))
  if 64 * (e % 32) = rawBytes p.depth then unpackUnit p.depth b else Config.lrcUnpack p.depth b

/-- A picture that units read: stored in extents, or the mid-grey picture of R278, whose samples are produced as they are read. -/
structure Ref where
  shape : Shape
  exts  : List Word
  grey  : Bool
  deriving DecidableEq, Repr

/-- A luma sample of a picture, with the edge replicated (R156). -/
def Ref.y (r : Ref) (s : State) (px py : Int) : Nat :=
  if r.grey then (if r.shape.depth = 1 then 512 else 128)
  else
    let x := min px.toNat (r.shape.width - 1)
    let y := min py.toNat (r.shape.height - 1)
    (readUnit s r.shape r.exts (y / 8 * (unitsY r.shape).1 + x / 128)).getD (y % 8 * 128 + x % 128) 0

/-- A chroma sample of a picture: c 0 Cb, 1 Cr. -/
def Ref.c (r : Ref) (s : State) (c : Nat) (px py : Int) : Nat :=
  if r.grey then (if r.shape.depth = 1 then 512 else 128)
  else
    let x := min px.toNat (cdiv r.shape.width 2 - 1)
    let y := min py.toNat (cdiv r.shape.height 2 - 1)
    let (wy, hy) := unitsY r.shape
    (readUnit s r.shape r.exts (wy * hy + y / 8 * (unitsC r.shape).1 + x / 64)).getD (y % 8 * 128 + 2 * (x % 64) + c) 0

/-- A retained picture of a session as units read it. -/
def picRef (x : Session) (d : Nat) : Option Ref :=
  (look x.pics d).map (fun p => { shape := { width := p.width, height := p.height, depth := x.stream.depth }, exts := p.extents, grey := false })

end Sys2Proof.Machine
end

