-- ==== Sys2Proof/Machine/Pixels.lean ====
section
/-! DEFINITION. What PRE makes of a frame's source: sample layouts, colour conversion, orientation, scaling, hints, HDR metadata and compositing
(R126, R138 to R145). -/

namespace Sys2Proof.Machine

open Sys2Proof

/-! ### The surface set -/

/-- The buffers of a frame's surface set (R123, R136). -/
def frameBufs (x : Session) (f : Frame) : List Word :=
  if f.source = 1 then lookD x.hostSet f.num []
  else
    match (x.binding.toList ++ x.oldBinds).find? (fun b => decide (b.id = f.bindId)) with
    | none => []
    | some b => (b.sets.getD f.set (0, [])).2

/-- The address of byte o of a surface set: its buffers are pages of 1 MiB (R121). -/
def setAddr (s : State) (bufs : List Word) (o : Nat) : Nat :=
  match bufs[o / 2 ^ 20]? with
  | none => 0
  | some w => bufAddr s (hClass w) (hIndex w) + o % 2 ^ 20

/-- n bytes of a surface set, little-endian. -/
def setLe (s : State) (bufs : List Word) (o n : Nat) : Nat := leNat ((List.range n).map (fun k => readMem s (setAddr s bufs (o + k))))

/-- The 16×16 source blocks across and down (R126). -/
def hintBlocks (o : SubmitOps) : Nat × Nat := (cdiv o.srcWidth 16, cdiv o.srcHeight 16)

/-- Where plane 1 starts (R126). -/
def plane1At (o : SubmitOps) : Nat := (regionAt (pitchOf o) o 1).getD 0

/-- The offset of a hint plane: 0 MV, 1 ROI, 2 UI (R126). -/
def hintAt (o : SubmitOps) (plane : Nat) : Nat := (regionAt (pitchOf o) o (plane + 2)).getD 0

/-- The 64 bytes of the metadata block, the set's last region (R126, R140). -/
def metaBlock (s : State) (bufs : List Word) (o : SubmitOps) : List Byte :=
  (List.range 64).map (fun k => readMem s (setAddr s bufs (setBytes o - 64 + k)))

/-! ### Colour (R138, R139) -/

/-- The coefficients of Y, Cb and Cr from R, G and B in 1/65,536: BT.709 or BT.2020 (R139). DESIGN CHOICE (log entry 75): 16 fraction bits. -/
def matrixOf (bt2020 : Bool) : List (Int × Int × Int) :=
  if bt2020 then [(17216, 44433, 3886), (-9151, -23617, 32768), (32768, -30133, -2635)]
  else [(13933, 46871, 4732), (-7509, -25259, 32768), (32768, -29763, -3005)]

/-- a / b rounded to the nearest integer, halves upward. -/
def nearest (a b : Int) : Int := (2 * a + b) / (2 * b)

/-- A value held between two bounds. -/
def clampTo (lo hi v : Int) : Nat := (max lo (min hi v)).toNat

/-- Component c (0 Y, 1 Cb, 2 Cr) of an RGB pixel whose components have b bits, at the session's depth (R139). -/
def fromRgb (o : SubmitOps) (depth b c : Nat) (r g bl : Nat) : Nat :=
  let up := if depth = 1 then 4 else 1
  let top : Int := 256 * up - 1
  let full := o.colour.testBit 1
  let k := (matrixOf (o.colour.testBit 0)).getD c (0, 0, 0)
  let scale : Int := if full then top else if c = 0 then 219 * up else 224 * up
  let base : Int := if c = 0 then (if full then 0 else 16 * up) else 128 * up
  clampTo 0 top (base + nearest (scale * (k.1 * r + k.2.1 * g + k.2.2 * bl)) (65536 * (2 ^ b - 1)))

/-- The ITU-T H.273 code points of a stream's colour: primaries, transfer and matrix, and whether the range is full (R139). -/
def codePoints (o : SubmitOps) : Nat × Nat × Nat × Bool :=
  let p := if o.colour.testBit 0 then 9 else 1
  (p, if o.colour.testBit 2 then 16 else if o.colour.testBit 0 then 14 else 1, p, o.colour.testBit 1)

/-- A packed RGB pixel of the source: R, G, B and A (R138). -/
def rgbaAt (s : State) (bufs : List Word) (o : SubmitOps) (px py : Nat) : Nat × Nat × Nat × Nat :=
  let v := setLe s bufs (py * pitchOf o + 4 * px) 4
  if o.format = 2 then (v % 256, v / 256 % 256, v / 65536 % 256, v / 2 ^ 24) else (v % 1024, v / 1024 % 1024, v / 2 ^ 20 % 1024, v / 2 ^ 30)

/-- The width of a packed component and the largest alpha (R138, R144). -/
def rgbBits (o : SubmitOps) : Nat := if o.format = 2 then 8 else 10

/-- See rgbBits. -/
def alphaMax (o : SubmitOps) : Nat := if o.format = 2 then 255 else 3

/-- A source sample after colour conversion (R138, R141): component c of source pixel px, py; for NV12 and P010 chroma px, py count chroma
samples. -/
def sourceSample (s : State) (bufs : List Word) (o : SubmitOps) (depth c px py : Nat) : Nat :=
  match o.format with
  | 0 => if c = 0 then setLe s bufs (py * pitchOf o + px) 1 else setLe s bufs (plane1At o + py * pitchOf o + 2 * px + (c - 1)) 1
  | 1 => (if c = 0 then setLe s bufs (py * pitchOf o + 2 * px) 2 else setLe s bufs (plane1At o + py * pitchOf o + 4 * px + 2 * (c - 1)) 2) / 64
  | _ => let p := rgbaAt s bufs o px py; fromRgb o depth (rgbBits o) c p.1 p.2.1 p.2.2.1

/-! ### Orientation and scaling (R141) -/

/-- The source position of a position of the mirrored and rotated picture; w, h the source plane's size. The mirror comes first. -/
def unturn (o : SubmitOps) (w h px py : Nat) : Nat × Nat :=
  let p := match o.orient % 4 with
    | 0 => (px, py)
    | 1 => (py, h - 1 - px)
    | 2 => (w - 1 - px, h - 1 - py)
    | _ => (w - 1 - py, px)
  if o.orient.testBit 2 then (w - 1 - p.1, p.2) else p

/-- The size of a plane after rotation. -/
def turnedSize (o : SubmitOps) (w h : Nat) : Nat × Nat := if turned o then (h, w) else (w, h)

/-- One axis of the polyphase filter (R141): the output sample at i of n from m samples, by a filter of the given taps with 64 phases and replicated
edges. DESIGN CHOICE (log entry 75): sample centres of both pictures are aligned. -/
def scaleAxis (taps n m : Nat) (f : Nat → Nat) (i : Nat) : Nat :=
  if n = m then f i
  else
    let pos : Int := ((2 * i + 1) * m * 64 / (2 * max 1 n) : Nat) - (32 : Int)
    let whole := pos / 64
    Config.scaleTap (pos % 64).toNat ((List.range taps).map (fun (k : Nat) => f (clampTo 0 ((m : Int) - 1) (whole + (k : Int) - (taps / 2 - 1 : Nat)))))

/-- A sample of a plane after mirror, rotation and scaling to w2 × h2: horizontally, then vertically. -/
def scaled (o : SubmitOps) (taps w h w2 h2 : Nat) (f : Nat → Nat → Nat) (px py : Nat) : Nat :=
  let (tw, th) := turnedSize o w h
  let at_ := fun (a b : Nat) => let p := unturn o w h a b; f p.1 p.2
  scaleAxis taps h2 th (fun b => scaleAxis taps w2 tw (fun a => at_ a b) px) py

/-- A sample of the game picture at the output size (R138 to R141): c 0 luma; 1 Cb and 2 Cr at chroma positions, subsampled with co-siting on the
left luma sample and centred vertically. -/
def gameSample (s : State) (x : Session) (f : Frame) (c px py : Nat) : Nat :=
  let bufs := frameBufs x f
  let o := f.ops
  let src := fun a b => sourceSample s bufs o x.stream.depth c a b
  if c = 0 then scaled o 8 o.srcWidth o.srcHeight f.width f.height src px py
  else if o.format ≤ 1 then scaled o 4 (o.srcWidth / 2) (o.srcHeight / 2) (f.width / 2) (f.height / 2) src px py
  else
    let full := fun b => scaled o 4 o.srcWidth o.srcHeight f.width f.height src (2 * px) b
    (full (2 * py) + full (min (2 * py + 1) (f.height - 1)) + 1) / 2

/-- The game alpha at an output luma position (R144). -/
def gameAlpha (s : State) (x : Session) (f : Frame) (px py : Nat) : Nat :=
  let o := f.ops
  scaled o 8 o.srcWidth o.srcHeight f.width f.height (fun a b => (rgbaAt s (frameBufs x f) o a b).2.2.2) px py

/-! ### Compositing (R144, R145) -/

/-- A sample brought to a depth (log entry 75). -/
def toDepth (src dst v : Nat) : Nat := if src = dst then v else if dst = 1 then 4 * v else min 255 ((v + 2) / 4)

/-- A sample of the protected picture at its own size, or black (R145). -/
def protSample (s : State) (p : CompPic) (depth c px py : Nat) : Nat :=
  if p.exts = [] then (if c = 0 then 16 else 128) * (if depth = 1 then 4 else 1)
  else
    let r : Ref := { shape := { width := p.width, height := p.height, depth := p.depth }, exts := p.exts, grey := false }
    toDepth p.depth depth (if c = 0 then r.y s px py else r.c s (c - 1) px py)

/-- A sample of the picture that the encoder codes: the game picture with the protected picture over or under it, clipped to the output (R144). -/
def preSample (s : State) (x : Session) (f : Frame) (c px py : Nat) : Nat :=
  let k := if c = 0 then 1 else 2
  let game := gameSample s x f c px py
  match f.compPic with
  | none => game
  | some p =>
    let x0 := f.ops.compX / k
    let y0 := f.ops.compY / k
    if px < x0 ∨ py < y0 ∨ x0 + p.width / k ≤ px ∨ y0 + p.height / k ≤ py then game
    else
      let q := protSample s p x.stream.depth c (px - x0) (py - y0)
      if f.ops.compMode = 1 then q
      else
        let a := gameAlpha s x f (k * px) (k * py)
        let m := alphaMax f.ops
        (2 * (game * a + q * (m - a)) + m) / (2 * m)

/-- The bytes of a composited band on the protected surface (R145; log entry 75): luma rows, then rows of interleaved CbCr, from row y0 up to y1. -/
def surfaceBand (s : State) (x : Session) (f : Frame) (y0 y1 : Nat) : List Byte × List Byte :=
  let rows := fun (a b : Nat) => (List.range (b - a)).map (fun k => a + k)
  (sampleBytes x.stream.depth ((rows y0 y1).flatMap (fun y => (List.range f.width).map (fun a => preSample s x f 0 a y))),
   sampleBytes x.stream.depth ((rows (y0 / 2) (cdiv y1 2)).flatMap (fun y =>
     (List.range (f.width / 2)).flatMap (fun a => [preSample s x f 1 a y, preSample s x f 2 a y]))))

/-- The bytes of a protected surface of a frame (R145; log entry 75). -/
def surfaceBytes (depth width height : Nat) : Nat := width * height * 3 / 2 * (depth + 1)

/-- Bytes written to a run of 1 MiB buffers. -/
def putRun (bufs : List Word) (o : Nat) (b : List Byte) (s : State) : State := spacePut bufs o b s

/-- The bands of a compositing frame go to its protected surface (R145). -/
def writeSurface (x : Session) (f : Frame) (k : Nat) (s : State) : State :=
  if f.surface = [] then s
  else
    let y0 := 64 * (k - 1)
    let y1 := min f.height (64 * k)
    let b := surfaceBand s x f y0 y1
    let px := x.stream.depth + 1
    putRun f.surface ((f.width * f.height + y0 / 2 * f.width) * px) b.2 (putRun f.surface (y0 * f.width * px) b.1 s)

/-! ### Hints (R143) -/

/-- Has hint row j landed (R143)? -/
def hintRow (f : Frame) (j : Nat) : Bool := decide (min f.ops.srcHeight (16 * (j + 1)) ≤ f.rows)

/-- The source block whose hints the output 16×16 block at bx, by takes: the one that holds the source position of its centre (log entry 75). -/
def hintBlock (f : Frame) (bx by_ : Nat) : Nat × Nat :=
  let o := f.ops
  let (tw, th) := turnedSize o o.srcWidth o.srcHeight
  let p := unturn o o.srcWidth o.srcHeight (min ((16 * bx + 8) * tw / max 1 f.width) (tw - 1)) (min ((16 * by_ + 8) * th / max 1 f.height) (th - 1))
  (p.1 / 16, p.2 / 16)

/-- The entry of a hint plane for an output block, where its row has landed and the plane is on. -/
def hintEntry (s : State) (x : Session) (f : Frame) (plane bx by_ : Nat) : Option Nat :=
  let b := hintBlock f bx by_
  let n := if plane = 0 then 4 else 1
  if f.ops.hints.testBit plane && hintRow f b.2 then
    some (setLe s (frameBufs x f) (hintAt f.ops plane + n * (b.2 * (hintBlocks f.ops).1 + b.1)) n)
  else none

/-- A source vector turned and scaled with the picture (R143): quarter pixels. -/
def turnVec (f : Frame) (v : Int × Int) : Int × Int :=
  let o := f.ops
  let m := if o.orient.testBit 2 then (-v.1, v.2) else v
  let r := match o.orient % 4 with
    | 0 => m
    | 1 => (-m.2, m.1)
    | 2 => (-m.1, -m.2)
    | _ => (m.2, -m.1)
  let (tw, th) := turnedSize o o.srcWidth o.srcHeight
  (nearest (r.1 * f.width) (max 1 tw), nearest (r.2 * f.height) (max 1 th))

/-- The MV hint of an output block, in quarter pixels; 0x8000_8000 is no vector (R143). -/
def mvHint (s : State) (x : Session) (f : Frame) (bx by_ : Nat) : Option (Int × Int) :=
  ((hintEntry s x f 0 bx by_).bind entryVec).map (turnVec f)

/-- The ROI level of an output block (R143). -/
def roiLevel (s : State) (x : Session) (f : Frame) (bx by_ : Nat) : Nat := (hintEntry s x f 1 bx by_).getD 0 % 8

/-- ROI_TABLE's offset for a level: a signed field of 4 bits (R125). -/
def roiOffset (o : SubmitOps) (level : Nat) : Int := ((o.roiTable >>> (4 * level)).truncate 4 : BitVec 4).toInt

/-- The quantiser of an output 16×16 block (R143, R165): the band's with the level's offset, clipped to the codec's range. -/
def blockQ (s : State) (x : Session) (f : Frame) (q bx by_ : Nat) : Nat :=
  if f.ops.hints.testBit 1 then
    let d := roiOffset f.ops (roiLevel s x f bx by_)
    if x.stream.codec = 0 then clampTo 0 255 (q + 4 * d) else clampTo 0 51 (q + d)
  else q

/-- Is an output block static interface (R143, R157)? -/
def uiHint (s : State) (x : Session) (f : Frame) (bx by_ : Nat) : Bool := ((hintEntry s x f 2 bx by_).getD 0).testBit 0

end Sys2Proof.Machine
end

