-- ==== Sys2Proof/Machine/Modes.lean ====
section
/-! DEFINITION. The tools of each codec and effort, mode decision, quantisation, ROI and band quantisers, and the filter parameters (R151, R153, R160
to R166). Codecs are 0 AV1, 1 HEVC, 2 AVC; AVC profiles 0 Constrained Baseline, 1 Main, 2 High; efforts 0 FAST, 1 STANDARD, 2 HIGH. -/

namespace Sys2Proof.Machine

open Sys2Proof

/-! ### Tools (R151, R153) -/

/-- The luma sizes of blocks that the coding partitions give (R151). -/
def blockSizes (codec effort : Nat) : List (Nat × Nat) :=
  match codec with
  | 0 =>
    [(64, 64), (64, 32), (32, 64), (32, 32), (32, 16), (16, 32), (16, 16), (16, 8), (8, 16), (8, 8)] ++
      (if effort = 2 then [(64, 16), (16, 64), (32, 8), (8, 32), (16, 4), (4, 16), (8, 4), (4, 8), (4, 4)] else [])
  | 1 =>
    [(64, 64), (64, 32), (32, 64), (32, 32), (32, 16), (16, 32), (16, 16), (16, 8), (8, 16), (8, 8), (8, 4), (4, 8)] ++
      (if effort = 2 then [(64, 16), (64, 48), (16, 64), (48, 64), (32, 8), (32, 24), (8, 32), (24, 32), (16, 4), (16, 12), (4, 16), (12, 16), (4, 4)] else [])
  | _ => [(16, 16), (16, 8), (8, 16), (8, 8)] ++ (if effort = 2 then [(8, 4), (4, 8), (4, 4)] else [])

/-- The side of a codec's block unit (R151). -/
def blockUnit (codec : Nat) : Nat := if codec = 2 then 16 else 64

/-- The transform sizes (R151): side of the square ones, largest first; whether rectangular ones are used. -/
def transformSizes (codec profile : Nat) : List Nat × Bool :=
  match codec with
  | 0 => ([64, 32, 16, 8, 4], true)
  | 1 => ([32, 16, 8, 4], false)
  | _ => (if profile = 2 then [8, 4] else [4], false)

/-- The transform types (R151, R153). -/
def transformTypes (codec effort content : Nat) : List String :=
  match codec with
  | 0 =>
    match effort with
    | 0 => ["DCT_DCT", "IDTX"]
    | 1 => ["DCT_DCT", "ADST_DCT", "DCT_ADST", "ADST_ADST", "IDTX"]
    | _ => ["DCT_DCT", "ADST_DCT", "DCT_ADST", "ADST_ADST", "FLIPADST_DCT", "DCT_FLIPADST", "FLIPADST_FLIPADST", "ADST_FLIPADST", "FLIPADST_ADST",
            "IDTX", "V_DCT", "H_DCT", "V_ADST", "H_ADST", "V_FLIPADST", "H_FLIPADST"]
  | 1 => ["DCT", "DST 4x4 intra luma"] ++ (if content = 1 then ["transform_skip 4x4"] else [])
  | _ => ["DCT"]

/-- The intra modes (R151, R153): HEVC tests 11 of its 35 at FAST. DESIGN CHOICE (log entry 76): which 11 those are. -/
def intraModes (codec profile effort w h : Nat) : List String :=
  match codec with
  | 0 =>
    ["DC_PRED", "SMOOTH_PRED", "SMOOTH_V_PRED", "SMOOTH_H_PRED", "PAETH_PRED", "V_PRED", "H_PRED", "D45_PRED", "D67_PRED", "D113_PRED", "D135_PRED",
     "D157_PRED", "D203_PRED"] ++ (if 1 ≤ effort then ["angle delta", "UV_CFL_PRED"] else []) ++ (if effort = 2 then ["filter intra"] else [])
  | 1 =>
    let angular := (List.range 33).map (fun k => "INTRA_ANGULAR" ++ toString (k + 2))
    ["INTRA_PLANAR", "INTRA_DC"] ++ (if effort = 0 then ((List.range 9).map (fun k => "INTRA_ANGULAR" ++ toString (4 * k + 2))) else angular)
  | _ =>
    if w = 16 ∧ h = 16 then (List.range 4).map (fun k => "Intra_16x16 " ++ toString k)
    else if w = 8 ∧ h = 8 ∧ profile = 2 then (List.range 9).map (fun k => "Intra_8x8 " ++ toString k)
    else if w = 4 ∧ h = 4 then (List.range 9).map (fun k => "Intra_4x4 " ++ toString k)
    else []

/-- Quarter (4) or eighth (8) pel vectors (R151). -/
def vectorPrecision (codec effort : Nat) : Nat := if codec = 0 ∧ effort = 2 then 8 else 4

/-- Inter modes (R151): compound of two past references only in AV1 at HIGH. -/
def interModes (codec effort : Nat) : List String :=
  match codec with
  | 0 => ["single reference"] ++ (if effort = 2 then ["compound"] else [])
  | 1 => ["merge", "skip", "AMVP"]
  | _ => ["P_Skip", "P"]

/-- Candidates carried to the final decision (R153). -/
def carried (effort : Nat) : Nat := match effort with | 0 => 1 | 1 => 3 | _ => 6

/-- Does SATD stand in for the SSE (R153)? -/
def usesSatd (effort : Nat) : Bool := decide (effort = 0)

/-- Does the entropy-assist unit count the bits (R153)? -/
def countsBits (effort : Nat) : Bool := decide (effort = 2)

/-- Rate–distortion optimised quantisation (R153, R163). -/
def rdoq (effort : Nat) : Bool := decide (effort = 2)

/-- CDEF strengths of an AV1 frame, and whether Wiener restoration and HEVC SAO are used (R153). -/
def cdefStrengths (effort : Nat) : Nat := match effort with | 0 => 1 | 1 => 4 | _ => 8

/-- See cdefStrengths. -/
def restores (effort : Nat) : Bool := decide (1 ≤ effort)

/-- The search range on LAST, horizontal and vertical, in pixels (R153). -/
def lastRange (effort : Nat) : Nat × Nat := match effort with | 0 => (64, 32) | 1 => (128, 48) | _ => (192, 64)

/-- The refinement range on other references (R153). -/
def otherRange (effort : Nat) : Nat := match effort with | 0 => 0 | 1 => 16 | _ => 32

/-- The scales of the hierarchical levels, coarsest first (R153). -/
def levels (effort : Nat) : List Nat := match effort with | 0 => [] | 1 => [4] | _ => [4, 2]

/-! ### Windows (R158, R159) -/

/-- A window of a range: its width, rounded up to a multiple of 128, and its rows (R158). -/
def windowSize (r : Nat × Nat) : Nat × Nat := (upTo (64 + 2 * r.1) 128, 64 + 2 * r.2)

/-- The windows on other references (R158). -/
def otherWindows (effort : Nat) : Nat := match effort with | 0 => 0 | 1 => 2 | _ => 6

/-- Samples, luma and chroma together, that a tile row's windows hold (R158): ibc is a key-frame tile row with intra block copy. -/
def windowSamples (effort : Nat) (ibc : Bool) : Nat :=
  if ibc then 512 * 128 * 3 / 2
  else
    let size := fun (w : Nat × Nat) => w.1 * w.2 * 3 / 2
    size (windowSize (lastRange effort)) + otherWindows effort * size (windowSize (otherRange effort, otherRange effort))

/-- The cache bytes of a tile row (R159): 1 byte a sample at 8-bit, 1.25 at 10-bit. -/
def windowBytes (depth effort : Nat) (ibc : Bool) : Nat := windowSamples effort ibc * (if depth = 1 then 5 else 4) / 4

/-! ### Screen content (R160, R161) -/

/-- The distinct values of a list. -/
def distinct (l : List Nat) : Nat := (l.foldl (fun (m : List Nat) v => if m.contains v then m else v :: m) []).length

/-- The luma source samples of a block, clipped to the picture. -/
def blockSource (s : State) (x : Session) (f : Frame) (bx by_ w h : Nat) : List Nat :=
  (List.range h).flatMap (fun j => (List.range w).map (fun i => preSample s x f 0 (min (bx + i) (f.width - 1)) (min (by_ + j) (f.height - 1))))

/-- May palette mode be tried on a block (R160)? -/
def palette (s : State) (x : Session) (f : Frame) (bx by_ w h : Nat) : Bool :=
  decide (x.stream.codec = 0) && decide (x.stream.content ≤ 1) && decide (8 ≤ w) && decide (8 ≤ h) &&
  decide (distinct (blockSource s x f bx by_ w h) ≤ 8)

/-- LA's measure of screen content (R161): at least 25 % of the 16×16 blocks hold at most 8 distinct luma values. -/
def screenShare (s : State) (x : Session) (f : Frame) : Bool :=
  let wb := cdiv f.width 16
  let hb := cdiv f.height 16
  let n := ((List.range (wb * hb)).filter (fun i => decide (distinct (blockSource s x f (16 * (i % wb)) (16 * (i / wb)) 16 16) ≤ 8))).length
  decide (wb * hb ≤ 4 * n)

/-- allow_intrabc of an AV1 key frame (R161). -/
def allowIntrabc (s : State) (x : Session) (f : Frame) : Bool :=
  decide (x.stream.codec = 0) && f.key && decide (x.stream.content ≤ 1) &&
  (if x.effort = 0 then decide (x.stream.content = 1) else screenShare s x f)

/-- The rows that intra block copy may search (R161): the current and the previous superblock row; y is the block's. -/
def ibcRows (y : Nat) : Nat × Nat := (64 * (y / 64) - 64, 64 * (y / 64) + 64)

/-! ### Mode decision (R162) -/

/-- λ of R162 cubed, as a fraction: 0.0898 × Qstep², with Qstep 2^((QP − 4) / 6), QP including the bit-depth offset of 12 at 10-bit, or
dc_q / 8 (8-bit) and dc_q / 32 (10-bit). -/
def lambda3 (codec depth q : Nat) : Nat × Nat :=
  if codec = 0 then ((898 * Config.dcQ (decide (depth = 1)) q ^ 2) ^ 3, (10000 * (if depth = 1 then 1024 else 64)) ^ 3)
  else (898 ^ 3 * 2 ^ (if depth = 1 then q + 12 else q), 10000 ^ 3 * 2 ^ 4)

/-- The n-th power that keeps the sign. -/
def signPow (n : Nat) (v : Int) : Int := if v < 0 then -((v.natAbs ^ n : Nat) : Int) else (v.natAbs ^ n : Nat)

/-- Is J = D + λ R of the first candidate below that of the second (R162)? With SATD √λ multiplies R. The comparison λ (R1 − R2) < D2 − D1 is exact:
both sides are raised to the third power, or the sixth. -/
def cheaper (satd : Bool) (l3 : Nat × Nat) (d1 r1 d2 r2 : Nat) : Bool :=
  let n := if satd then 6 else 3
  decide (signPow n ((r1 : Int) - r2) * l3.1 < signPow n ((d2 : Int) - d1) * l3.2)

/-- A candidate of mode decision: a mode with its reference (none: intra) and vector in eighths. -/
structure Cand where
  mode : String
  ref  : Option Nat
  vec  : Int × Int
  deriving DecidableEq, Repr

/-- The candidate with the lowest J of a block of frame num of session h; the first on a tie. -/
def decideBlock (h : Nat) (x : Session) (num q : Nat) (b : Nat × Nat × Nat × Nat) (l : List Cand) : Option Cand :=
  let satd := usesSatd x.effort
  let d := fun (c : Cand) => Config.distortion satd h num b c.mode c.ref c.vec
  let r := fun (c : Cand) => Config.rateBits (countsBits x.effort) h num b c.mode c.ref c.vec
  l.foldl (fun (m : Option Cand) c =>
    match m with
    | none => some c
    | some m => if cheaper satd (lambda3 x.stream.codec x.stream.depth q) (d c) (r c) (d m) (r m) then some c else some m) none

/-! ### Quantisation (R163) -/

/-- The level of a coefficient under the dead-zone quantiser (R163): the rounding offset is 1/3 of the step for intra and 1/6 for inter blocks; the step is
num / den. Rate–distortion optimised quantisation revisits it at HIGH. -/
def quantLevel (intra : Bool) (num den : Nat) (c : Int) : Int :=
  let k := if intra then 3 else 6
  let m := (c.natAbs * den * k + num) / (num * k)
  if c < 0 then -(m : Int) else m

/-! ### Signalling the quantisers (R164, R165) -/

/-- How a band's quantiser is signalled (R164): prev is that of the band before, first that of the frame's first band; the syntax element, its value,
and whether delta_lf follows. -/
def bandQSyntax (codec q prev first : Nat) : List (String × Int) :=
  match codec with
  | 0 => [("delta_q", (q : Int) - prev)] ++ (if q = first then [] else [("delta_lf", (q : Int) - first)])
  | 1 => [("cu_qp_delta", (q : Int) - prev)]
  | _ => [("slice_qp_delta", (q : Int) - first)]

/-- How ROI offsets reach a codec (R165): AV1's segments with their alternative q features, or the quantisation groups of HEVC and AVC. -/
def roiSyntax (codec : Nat) (o : SubmitOps) : List (String × Int) :=
  if o.hints.testBit 1 then
    match codec with
    | 0 => [("segmentation_enabled", 1)] ++ (List.range 8).map (fun i => ("FeatureData[" ++ toString i ++ "][SEG_LVL_ALT_Q]", 4 * roiOffset o i))
    | 1 => [("diff_cu_qp_delta_depth", 2)]
    | _ => []
  else []

/-- The segment of an AV1 block: that of its top-left 16×16 hint block (R165). -/
def segmentOf (s : State) (x : Session) (f : Frame) (bx by_ : Nat) : Nat := if f.ops.hints.testBit 1 then roiLevel s x f (bx / 16) (by_ / 16) else 0

/-! ### Filters (R166) -/

/-- The filter parameters that the frame or slice headers fix (R161, R166): AV1's leave with the first band. -/
def filterSyntax (h : Nat) (x : Session) (f : Frame) (ibc : Bool) : List (String × Int) :=
  match x.stream.codec with
  | 0 =>
    if ibc then [("allow_intrabc", 1), ("loop_filter_level", 0), ("cdef_bits", 0), ("lr_type", 0)]
    else ("cdef_strengths", (cdefStrengths x.effort : Int)) :: (Config.filterParams h f.num).filter (fun p => restores x.effort || decide (p.1 ≠ "lr_type"))
  | 1 => [("slice_deblocking_filter_disabled_flag", 0), ("slice_sao_luma_flag", if restores x.effort then 1 else 0),
          ("slice_sao_chroma_flag", if restores x.effort then 1 else 0)]
  | _ => [("disable_deblocking_filter_idc", 0), ("slice_alpha_c0_offset_div2", 0), ("slice_beta_offset_div2", 0)]

end Sys2Proof.Machine
end

