-- ==== Sys2Proof/Machine/Search.lean ====
section
/-! DEFINITION. Motion search and the decisions of a tile row's blocks (R154 to R157, R160 to R162, R192). Vectors are in eighths of a pixel; a block is
its luma x, y, width and height. -/

namespace Sys2Proof.Machine

open Sys2Proof

/-- A block's luma rectangle. -/
abbrev Blk := Nat × Nat × Nat × Nat

/-- A vector in eighths of a pixel. -/
abbrev Vec := Int × Int

/-! ### Seeds (R154) -/

/-- A value placed in an ascending list. -/
def insertInt (v : Int) (l : List Int) : List Int :=
  match l with
  | [] => [v]
  | a :: t => if v ≤ a then v :: a :: t else a :: insertInt v t

/-- The median of a list. DESIGN CHOICE (log entry 76): of an even number, the lower of the middle two. -/
def medianInt (l : List Int) : Int := ((l.foldl (fun m v => insertInt v m) []).drop ((l.length - 1) / 2)).headD 0

/-- The component-wise median of vectors; none of no vector. -/
def medianVec (l : List Vec) : Option Vec := if l.isEmpty then none else some (medianInt (l.map (fun v => v.1)), medianInt (l.map (fun v => v.2)))

/-- The MV hints inside a block, in eighths; entries with no vector are left out. -/
def hintsIn (s : State) (x : Session) (f : Frame) (b : Blk) : List Vec :=
  let (px, py, w, h) := b
  (List.range (cdiv h 16)).flatMap (fun j => (List.range (cdiv w 16)).filterMap (fun i =>
    (mvHint s x f (px / 16 + i) (py / 16 + j)).map (fun v => (2 * v.1, 2 * v.2))))

/-- The render seeds of a block (R154): its median, and those of the four quadrants of a 64×64 block. -/
def renderSeeds (s : State) (x : Session) (f : Frame) (b : Blk) : List Vec :=
  let (px, py, w, h) := b
  (medianVec (hintsIn s x f b)).toList ++
    (if w = 64 ∧ h = 64 then
      [(px, py), (px + 32, py), (px, py + 32), (px + 32, py + 32)].filterMap (fun q => medianVec (hintsIn s x f (q.1, q.2, 32, 32)))
     else [])

/-- The decision that covers a luma position. -/
def decisionAt (ds : List BlockDec) (px py : Int) : Option BlockDec :=
  ds.find? (fun d => decide ((d.x : Int) ≤ px) && decide (px < d.x + d.w) && decide ((d.y : Int) ≤ py) && decide (py < d.y + d.h))

/-- The final vectors of the left, above and above-right blocks (R154). -/
def spatialSeeds (ds : List BlockDec) (b : Blk) : List Vec :=
  let (px, py, w, _) := b
  [((px : Int) - 1, (py : Int)), ((px : Int), (py : Int) - 1), ((px : Int) + w, (py : Int) - 1)].filterMap (fun p =>
    (decisionAt ds p.1 p.2).bind (fun d => if d.ref.isSome then some (d.mx, d.my) else none))

/-- The vector of the co-located 32×32 block in a picture's motion field (R154). -/
def temporalSeed (s : State) (r : Ref) (b : Blk) : Option Vec := (readMotion s r.shape r.exts b.1 b.2.1).map (fun v => (2 * v.1, 2 * v.2))

/-- LA's vector for the co-located block, scaled from the 1/4-scale picture (R154). -/
def lookaheadSeed (h num : Nat) (b : Blk) : Vec := let v := Config.laVector h num (b.1 / 4) (b.2.1 / 4); (32 * v.1, 32 * v.2)

/-- The seeds of a block on LAST that its effort allows (R153, R154): render, spatial, temporal, lookahead and zero. -/
def seedsOf (h : Nat) (s : State) (x : Session) (f : Frame) (r : Ref) (ds : List BlockDec) (b : Blk) : List Vec :=
  renderSeeds s x f b ++ spatialSeeds ds b ++ (if 1 ≤ x.effort then (temporalSeed s r b).toList ++ [lookaheadSeed h f.num b] else []) ++ [(0, 0)]

/-! ### Windows (R156) -/

/-- The samples that a codec's interpolation filter reads before and after a position. -/
def filterSupport (codec : Nat) : Nat × Nat := if codec = 2 then (2, 3) else (3, 4)

/-- The chroma samples that it reads before and after a position. -/
def chromaSupport (codec : Nat) : Nat × Nat := match codec with | 0 => (3, 4) | 1 => (1, 2) | _ => (0, 1)

/-- The least and greatest displacement in whole pixels of a block of size n at p, in a window of a range (R153, R156): the window reaches the range
beyond the 64 samples of the block's unit on either side. -/
def reach (p n range : Nat) : Int × Int := ((64 * (p / 64) : Nat) - (range : Int) - p, (64 * (p / 64) + 64 + range : Nat) - ((p : Int) + n))

/-- Does one component of a vector keep the block and its filter's support inside the window (R156)? -/
def insideAxis (codec p n range : Nat) (v : Int) : Bool :=
  let (lo, hi) := reach p n range
  let (a, z) := if v % 8 = 0 then (0, 0) else filterSupport codec
  decide (lo + a ≤ v / 8) && decide (v / 8 + z ≤ hi)

/-- Is a vector inside its window (R156)? -/
def inWindow (codec : Nat) (r : Nat × Nat) (b : Blk) (v : Vec) : Bool :=
  insideAxis codec b.1 b.2.2.1 r.1 v.1 && insideAxis codec b.2.1 b.2.2.2 r.2 v.2

/-- A component clipped to the nearest position inside the window. -/
def clipAxis (codec p n range : Nat) (v : Int) : Int :=
  if insideAxis codec p n range v then v else let (lo, hi) := reach p n range; max (8 * lo) (min (8 * hi) v)

/-- A seed that points outside the window is clipped to the nearest position inside it (R156). -/
def clipVec (codec : Nat) (r : Nat × Nat) (b : Blk) (v : Vec) : Vec :=
  (clipAxis codec b.1 b.2.2.1 r.1 v.1, clipAxis codec b.2.1 b.2.2.2 r.2 v.2)

/-! ### The search (R155) -/

/-- The luma prediction of a block from a picture at a vector, with the edges replicated (R156). -/
def predict (codec : Nat) (s : State) (r : Ref) (b : Blk) (v : Vec) : List Nat :=
  let (px, py, w, h) := b
  let (a, z) := filterSupport codec
  (List.range h).flatMap (fun j => (List.range w).map (fun i =>
    let x0 := ((px + i : Nat) : Int) + v.1 / 8
    let y0 := ((py + j : Nat) : Int) + v.2 / 8
    if v.1 % 8 = 0 ∧ v.2 % 8 = 0 then r.y s x0 y0
    else Config.interSample codec (v.1 % 8).toNat (v.2 % 8).toNat
      ((List.range (a + z + 1)).flatMap (fun (n : Nat) => (List.range (a + z + 1)).map (fun (m : Nat) => r.y s (x0 + m - a) (y0 + n - a))))))

/-- The vector of the least cost; the first on a tie. -/
def bestVec (cost : Vec → Nat) (l : List Vec) (v : Vec) : Vec := l.foldl (fun m v => if cost v < cost m then v else m) v

/-- The vectors around v, n steps of a size to each side. -/
def around (v : Vec) (n : Nat) (step : Int) : List Vec :=
  (List.range (2 * n + 1)).flatMap (fun (j : Nat) => (List.range (2 * n + 1)).map (fun (i : Nat) => (v.1 + step * ((i : Int) - n), v.2 + step * ((j : Int) - n))))

/-- The sub-pel steps of a precision, in eighths. -/
def subSteps (precision : Nat) : List Int := if precision = 8 then [4, 2, 1] else [4, 2]

/-- Sub-pel refinement (R155): the neighbours of the best vector at each step. -/
def refine (ok : Vec → Bool) (cost : Vec → Nat) (precision : Nat) (v : Vec) : Vec :=
  (subSteps precision).foldl (fun v k => bestVec cost ((around v 1 k).filter ok) v) v

/-- The costs of a block's vectors on a picture by hierarchical level. -/
def vecCost (level codec : Nat) (s : State) (r : Ref) (b : Blk) (source : List Nat) (v : Vec) : Nat :=
  Config.searchCost level source (predict codec s r b v) v

/-- Motion search on LAST (R155): every seed; the hierarchical levels around the best one; the full-pel search over the window; the sub-pel steps.
limit is the bound of R157 where it applies, and may what else bounds the vectors (R248); none where no vector is allowed. DESIGN CHOICE (log entry
76): a hierarchical level covers 4 of its pixels to each side. -/
def searchLast (x : Session) (s : State) (r : Ref) (b : Blk) (source : List Nat) (seeds : List Vec) (limit : Option Nat) (may : Vec → Bool) :
    Option Vec :=
  let codec := x.stream.codec
  let range := lastRange x.effort
  let ok := fun (v : Vec) => inWindow codec range b v && may v &&
    (match limit with | none => true | some n => decide (v.1.natAbs ≤ 8 * n) && decide (v.2.natAbs ≤ 8 * n))
  let cost := fun (k : Nat) => vecCost k codec s r b source
  let v0 := bestVec (cost 0) ((seeds.map (clipVec codec range b)).filter ok) (0, 0)
  let v1 := (levels x.effort).foldl (fun v k => bestVec (cost k) ((around v 4 (8 * (k : Int))).filter ok) v) v0
  let n := limit.getD (max range.1 range.2 + 64)
  match (around (0, 0) n 8).filter ok with
  | [] => none
  | a :: t => some (refine ok (cost 0) (vectorPrecision codec x.effort) (bestVec (cost 0) t (if ok v1 then v1 else a)))

/-- A seed scaled by order distance (R155): from that of LAST to that of the reference. -/
def scaleVec (cur last ref : Int) (v : Vec) : Vec :=
  if cur - last ≤ 0 then v else (nearest (v.1 * (cur - ref)) (cur - last), nearest (v.2 * (cur - ref)) (cur - last))

/-- Motion search on another reference (R155): only the refinement range around the scaled seeds. -/
def searchOther (x : Session) (s : State) (r : Ref) (b : Blk) (source : List Nat) (seeds : List Vec) : Vec :=
  let codec := x.stream.codec
  let n := otherRange x.effort
  let ok := inWindow codec (n, n) b
  let cost := vecCost 0 codec s r b source
  let v0 := bestVec cost (seeds.map (clipVec codec (n, n) b)) (0, 0)
  let v1 := bestVec cost ((seeds.flatMap (fun v => around (8 * (v.1 / 8), 8 * (v.2 / 8)) n 8)).filter ok) v0
  refine ok cost (vectorPrecision codec x.effort) v1

/-! ### The references searched (R153) -/

/-- The other references that a frame's effort searches: none; the newest acknowledged LTR picture; up to 3 retained pictures. -/
def otherRefs (x : Session) (f : Frame) : List Nat :=
  let rest := f.cands.filter (fun d => decide (some d ≠ f.ref))
  match x.effort with
  | 0 => []
  | 1 => (newest x (rest.filter (fun d => has x.ltr.acked d))).toList
  | _ => rest.take 3

/-- The order of a session's picture. -/
def orderOf (x : Session) (d : Nat) : Int := match look x.pics d with | none => 0 | some p => p.order

/-! ### The decision of a block -/

/-- Does every 16×16 source block inside a block carry the UI hint (R157)? -/
def allUi (s : State) (x : Session) (f : Frame) (b : Blk) : Bool :=
  let (px, py, w, h) := b
  (List.range (cdiv h 16)).all (fun j => (List.range (cdiv w 16)).all (fun i => uiHint s x f (px / 16 + i) (py / 16 + j)))

/-- The sum of absolute differences of two lists of samples. -/
def sad (a b : List Nat) : Nat := ((a.zip b).map (fun p => (p.1 - p.2) + (p.2 - p.1))).sum

/-- c_i of R248: the block column up to which position i of the intra refresh wave has refreshed the picture. -/
def waveCol (x : Session) (f : Frame) (i : Nat) : Nat := cdiv (i * blocksWide x.stream.codec f.width) (max 1 x.ltr.waveLen)

/-- The blocks that the wave makes intra in a frame (R248): those in columns c_(i−1) to c_i − 1. -/
def waveIntra (x : Session) (f : Frame) (b : Blk) : Bool :=
  let c := b.1 / blockUnit x.stream.codec
  decide (0 < f.wave) && decide (waveCol x f (f.wave - 1) ≤ c) && decide (c < waveCol x f f.wave)

/-- Does a block lie in the columns that the wave has refreshed before the frame (R248)? -/
def waveClean (x : Session) (f : Frame) (b : Blk) : Bool :=
  decide (0 < f.wave) && decide (b.1 / blockUnit x.stream.codec < waveCol x f (f.wave - 1))

/-- May an inter block take a vector (R248)? One in the refreshed columns keeps its prediction, with the filter's support, 9 luma columns left of their
end. -/
def waveVec (x : Session) (f : Frame) (b : Blk) (v : Vec) : Bool :=
  let z := if v.1 % 8 = 0 then 0 else (filterSupport x.stream.codec).2
  !waveClean x f b ||
  decide (((b.1 + b.2.2.1 + z : Nat) : Int) + v.1 / 8 + 8 ≤ (blockUnit x.stream.codec * waveCol x f (f.wave - 1) : Nat))

/-- The intra candidates of a block (R151, R160, R161): the intra modes, palette, and in a key frame intra block copy. -/
def intraCands (s : State) (x : Session) (f : Frame) (ibc : Bool) (b : Blk) : List Cand :=
  let (px, py, w, h) := b
  ((intraModes x.stream.codec x.stream.profile x.effort w h).map (fun m => ({ mode := m, ref := none, vec := (0, 0) } : Cand))) ++
    (if palette s x f px py w h then [{ mode := "palette", ref := none, vec := (0, 0) }] else []) ++
    (if ibc then [{ mode := "intra block copy", ref := none, vec := (0, 0) }] else [])

/-- The inter candidates of a block: the searched references with each inter mode (R151, R155). -/
def interCands (h : Nat) (s : State) (x : Session) (f : Frame) (ds : List BlockDec) (b : Blk) (limit : Option Nat) : List Cand :=
  let source := blockSource s x f b.1 b.2.1 b.2.2.1 b.2.2.2
  let modes := interModes x.stream.codec x.effort
  match f.ref.bind (fun d => (picRef x d).map (fun r => (d, r))) with
  | none => []
  | some (d, r) =>
    let seeds := seedsOf h s x f r ds b
    let first := (searchLast x s r b source seeds limit (waveVec x f b)).toList.map (fun v => (d, v))
    let rest := seeds.drop (renderSeeds s x f b).length
    let others := (if waveClean x f b then [] else otherRefs x f).filterMap (fun e => (picRef x e).map (fun q =>
      (e, searchOther x s q b source (rest.map (scaleVec f.num (orderOf x d) (orderOf x e))))))
    (first ++ others).flatMap (fun p => modes.map (fun m => ({ mode := m, ref := some p.1, vec := p.2 } : Cand)))

/-- The candidates carried to the final decision (R153): those of the lowest cost with SATD and the table estimate (log entry 76). -/
def carry (h : Nat) (x : Session) (num q : Nat) (b : Blk) (n : Nat) (l : List Cand) : List Cand :=
  let d := fun (c : Cand) => Config.distortion true h num b c.mode c.ref c.vec
  let r := fun (c : Cand) => Config.rateBits false h num b c.mode c.ref c.vec
  let less := fun (a c : Cand) => cheaper true (lambda3 x.stream.codec x.stream.depth q) (d a) (r a) (d c) (r c)
  (l.filter (fun c => decide ((l.filter (fun a => less a c)).length < n))).take n

/-- The decision of a block (R157, R160 to R162): the cheapest zero-motion mode of a static block; else the candidate of the lowest cost. -/
def decide1 (h : Nat) (s : State) (x : Session) (f : Frame) (branch q : Nat) (ibc : Bool) (ds : List BlockDec) (b : Blk) : BlockDec :=
  let (px, py, w, ht) := b
  let ui := allUi s x f b
  let still := ui && !f.key && (match f.ref.bind (picRef x) with
    | none => false
    | some r => decide (sad (blockSource s x f px py w ht) (predict x.stream.codec s r b (0, 0)) = 0))
  let mk := fun (r : Option Nat) (v : Vec) => ({ branch := branch, x := px, y := py, w := w, h := ht, ref := r, mx := v.1, my := v.2 } : BlockDec)
  if still && !waveIntra x f b && waveVec x f b (0, 0) then mk f.ref (0, 0)
  else
    let inter := if f.key || waveIntra x f b then [] else interCands h s x f ds b (if ui then some 8 else none)
    match decideBlock h x f.num q b (carry h x f.num q b (carried x.effort) (inter ++ intraCands s x f ibc b)) with
    | none => mk none (0, 0)
    | some c => mk c.ref c.vec

/-- The blocks of a unit (R151, R152): as the role microcode divides it, in shapes that R151 gives; else the whole unit. -/
def unitBlocks (h : Nat) (x : Session) (num k branch : Nat) (ux uy : Nat) : List Blk :=
  let n := blockUnit x.stream.codec
  let l := Config.partition h num k branch ux uy
  if l.all (fun b => decide ((b.2.2.1, b.2.2.2) ∈ blockSizes x.stream.codec x.effort) && decide (ux ≤ b.1) && decide (uy ≤ b.2.1) &&
      decide (b.1 + b.2.2.1 ≤ ux + n) && decide (b.2.1 + b.2.2.2 ≤ uy + n)) ∧ (l.map (fun b => b.2.2.1 * b.2.2.2)).sum = n * n then l
  else [(ux, uy, n, n)]

/-- The units of a tile row in coding order: their luma positions. -/
def rowUnits (x : Session) (f : Frame) (k col : Nat) : List (Nat × Nat) :=
  let n := blockUnit x.stream.codec
  let c0 := col * blocksWide x.stream.codec f.width / tileCols x.stream.codec f.width
  (List.range (blockRows x.stream.codec f.height k)).flatMap (fun j =>
    (List.range (colBlocks x.stream.codec f.width col)).map (fun i => (n * (c0 + i), 64 * (k - 1) + n * j)))

/-- The decisions of a tile row of a branch, block by block; ds holds those of the band above and, as they come, its own (R154). -/
def decideRow (h : Nat) (s : State) (x : Session) (f : Frame) (k branch col q : Nat) (ibc : Bool) (above : List BlockDec) : List BlockDec :=
  (rowUnits x f k col).foldl (fun own u =>
    (unitBlocks h x f.num k branch u.1 u.2).foldl (fun own b =>
      own ++ [decide1 h s x f branch (blockQ s x f q (b.1 / 16) (b.2.1 / 16)) ibc (own ++ above) b]) own) []

/-- A unit coded in fallback mode (R115, R192): skip or copy with zero motion from the main reference, or flat DC in a key frame. -/
def fallbackDec (x : Session) (f : Frame) (branch : Nat) (u : Nat × Nat) : BlockDec :=
  let n := blockUnit x.stream.codec
  { branch := branch, x := u.1, y := u.2, w := n, h := n, ref := if f.key then none else f.ref, mx := 0, my := 0 }

/-- A tile row whose last n units are coded in fallback mode: their decisions are replaced (R115). -/
def fallbackRow (x : Session) (f : Frame) (k branch col n : Nat) (ds : List BlockDec) : List BlockDec :=
  let us := rowUnits x f k col
  let last := us.drop (us.length - n)
  let side := blockUnit x.stream.codec
  ds.filter (fun d => !(decide (d.branch = branch) && last.any (fun u =>
    decide (u.1 ≤ d.x) && decide (d.x < u.1 + side) && decide (u.2 ≤ d.y) && decide (d.y < u.2 + side)))) ++ last.map (fallbackDec x f branch)

/-- The motion-field entries of band k (R183): each 32×32 block takes the vector of the block at its top-left sample, in quarter pixels, where that
block predicts from the main reference (log entry 74). -/
def bandMotion (f : Frame) (k : Nat) (ds : List BlockDec) : List (Nat × Option (Int × Int)) :=
  let wide := cdiv f.width 32
  let j0 := 2 * (k - 1)
  let j1 := min (cdiv f.height 32) (2 * k)
  (List.range (j1 - j0)).flatMap (fun j => (List.range wide).map (fun i =>
    ((j0 + j) * wide + i, (decisionAt ds (32 * i : Nat) (32 * (j0 + j) : Nat)).bind (fun d =>
      if d.ref.isSome ∧ d.ref = f.ref then some (d.mx / 2, d.my / 2) else none))))

end Sys2Proof.Machine
end

