-- ==== Sys2Proof/Machine/Headers.lean ====
section
/-! DEFINITION. The levels that are signalled, the headers, the framing of coded units and the state of the entropy coder (R139, R140, R149, R150, R164
to R166, R179, R185 to R191, R249, R603). The numbers of NAL unit types, OBU types and AVC levels are those of the standards (log entry 77). -/

namespace Sys2Proof.Machine

open Sys2Proof

/-! ### Levels (R149) -/

/-- seq_level_idx of the rows of av1Levels. -/
def av1Idx : List Nat := [0, 1, 4, 5, 8, 9, 12, 13, 14, 16, 17]

/-- general_level_idc of the rows of hevcLevels. -/
def hevcIdc : List Nat := [30, 60, 63, 90, 93, 120, 123, 150, 153, 156, 180, 183]

/-- AVC levels 1 to 5.2: level_idc, macroblocks per second, macroblocks of a picture, MaxBR. -/
def avcLevels : List (Nat × Nat × Nat × Nat) :=
  [(10, 1485, 99, 64), (11, 3000, 396, 192), (12, 6000, 396, 384), (13, 11880, 396, 768), (20, 11880, 396, 2000), (21, 19800, 792, 4000),
   (22, 20250, 1620, 4000), (30, 40500, 1620, 10000), (31, 108000, 3600, 14000), (32, 216000, 5120, 20000), (40, 245760, 8192, 20000),
   (41, 245760, 8192, 50000), (42, 522240, 8704, 50000), (50, 589824, 22080, 135000), (51, 983040, 36864, 240000), (52, 2073600, 36864, 240000)]

/-- The level that a session signals (R149): the lowest whose limits cover its picture, luma sample rate, tiles and rate_max; level_idc 60 for an AVC
macroblock rate above 2,073,600. -/
def signalledLevel (o : StreamOps) (rateMax : Nat) : Nat :=
  let px := o.width * o.height
  let n := tileCols o.codec o.width
  let t := stripes o rateMax
  let fits := fun (l : LevelRow) => decide (px ≤ l.1) && decide (px * o.fps ≤ l.2.1) && decide (rateMax ≤ l.2.2.1)
  match o.codec with
  | 0 => av1Idx.getD ((av1Levels.findIdx? (fun l => fits l && decide (n * t ≤ l.2.2.2.1) && decide (n ≤ l.2.2.2.2))).getD 10) 17
  | 1 => hevcIdc.getD ((hevcLevels.findIdx? (fun l => fits l && decide (t ≤ l.2.2.2.1) && decide (n ≤ l.2.2.2.2))).getD 11) 183
  | _ =>
    let mb := cdiv o.width 16 * cdiv o.height 16
    if 2073600 < mb * o.fps then 60
    else
      match avcLevels.find? (fun l => decide (mb * o.fps ≤ l.2.1) && decide (mb ≤ l.2.2.1) &&
          decide (rateMax ≤ l.2.2.2 * (if o.profile = 2 then 1500 else 1200))) with
      | none => 52
      | some l => l.1

/-! ### HDR metadata (R140) -/

/-- The valid parts of a metadata block: the mastering display's data and the light levels. -/
def metaParts (m : List Byte) : List Header :=
  let flags := leNat ((m.drop 0x1C).take 1)
  let v := fun (a n : Nat) => ((leNat ((m.drop a).take n) : Nat) : Int)
  (if flags % 2 = 1 then
    [{ unit := "metadata mastering display", set := [("red_x", v 0 2), ("red_y", v 2 2), ("green_x", v 4 2), ("green_y", v 6 2), ("blue_x", v 8 2),
      ("blue_y", v 10 2), ("white_point_x", v 12 2), ("white_point_y", v 14 2), ("luminance_max", v 0x10 4), ("luminance_min", v 0x14 4)] }] else []) ++
  (if flags / 2 % 2 = 1 then
    [{ unit := "metadata light level", set := [("max_cll", v 0x18 2), ("max_fall", v 0x1A 2)] }] else [])

/-- The metadata that a frame emits (R140): under PQ, on every key frame and when its block differs from the one last emitted. -/
def metaOf (x : Session) (f : Frame) (block : List Byte) : List Header :=
  if f.ops.colour.testBit 2 && (f.key || decide (block ≠ x.metaLast)) then metaParts block else []

/-! ### The headers of a frame (R188) -/

/-- The colour description (R139). -/
def colourSet (o : SubmitOps) : List (String × Int) :=
  let (p, t, m, full) := codePoints o
  [("colour_primaries", p), ("transfer_characteristics", t), ("matrix_coefficients", m), ("full_range", if full then 1 else 0)]

/-- The widths of the tile columns in blocks (R603). -/
def tileWidths (codec width : Nat) : List Nat := (List.range (tileCols codec width)).map (colBlocks codec width)

/-- The heights of the stripes in bands (R187). -/
def stripeHeights (o : StreamOps) (rateMax : Nat) : List Nat :=
  let t := stripes o rateMax
  let n := bandsOf o.height
  (List.range t).map (fun j => cdiv ((j + 1) * n) t - cdiv (j * n) t)

/-- Settings numbered from 0. -/
def numbered (name : String) (l : List Nat) : List (String × Int) :=
  (List.range l.length).map (fun i => (name ++ "[" ++ toString i ++ "]", ((l.getD i 0 : Nat) : Int)))

/-- refresh_frame_flags of a frame (R179): all 8 slots of a key frame; bit 0, and bit 1 + i when its picture enters LTR slot i. -/
def refreshFlags (f : Frame) : Nat := if f.key then 255 else 1 + (match f.slot with | none => 0 | some i => 2 ^ (1 + i))

/-- How a frame names its references (R179). -/
def refSet (x : Session) (f : Frame) : List (String × Int) :=
  match x.stream.codec with
  | 0 =>
    [("refresh_frame_flags", (refreshFlags f : Int))] ++
      (if f.key then []
       else [("LAST_FRAME", 0), ("LAST2_FRAME", 1), ("LAST3_FRAME", 2), ("GOLDEN_FRAME", 3), ("BWDREF_FRAME", 4), ("ALTREF2_FRAME", 0), ("ALTREF_FRAME", 0)])
  | 1 =>
    let cur : Int := f.num
    let lts := x.ltr.slots.map (fun e => orderOf x e.2)
    let msb := lts.any (fun a => x.pics.any (fun p => decide (p.2.order ≠ a) && decide (p.2.order % 256 = a % 256)))
    if f.key then []
    else (match x.ltr.last with | none => [] | some d => [("delta_poc_s0", cur - orderOf x d)]) ++
      (x.ltr.slots.map (fun e => ("poc_lsb_lt[" ++ toString e.1 ++ "]", orderOf x e.2 % 256))) ++
      [("delta_poc_msb_present_flag", if msb then 1 else 0)]
  | _ =>
    (if f.key then [] else (x.ltr.slots.map (fun e => ("ref long_term_frame_idx", (e.1 : Int))))) ++
      (match f.slot with | none => [] | some i => [("memory_management_control_operation 6 long_term_frame_idx", (i : Int))])

/-- The recovery point SEI at position 1 of an intra refresh wave (R249). -/
def recoverySei (x : Session) (f : Frame) : List Header :=
  if f.wave ≠ 1 then []
  else
    match x.stream.codec with
    | 0 => []
    | 1 => [{ unit := "recovery point SEI", set := [("recovery_poc_cnt", (x.ltr.waveLen : Int) - 1)] }]
    | _ => [{ unit := "recovery point SEI", set := [("recovery_frame_cnt", (x.ltr.waveLen : Int) - 1), ("exact_match_flag", 1), ("broken_link_flag", 0)] }]

/-- The picture type of a frame (R150). -/
def frameType (codec : Nat) (key : Bool) : String :=
  match codec, key with
  | 0, true => "KEY_FRAME"
  | 0, false => "INTER_FRAME"
  | 1, true => "IDR_N_LP"
  | 1, false => "TRAIL_R"
  | _, true => "IDR"
  | _, false => "non-IDR"

/-- The headers that every key frame carries (R188). uniform_spacing_flag is that of R603, where the table of R188 says 0 (DESIGN CHOICE, log entry 84). -/
def sequenceHeaders (x : Session) (f : Frame) : List Header :=
  let o := frameStream x f
  let size : List (String × Int) := [("width", o.width), ("height", o.height), ("bit_depth", if o.depth = 1 then 10 else 8)]
  let level : Int := signalledLevel o x.rate.rateMax
  match o.codec with
  | 0 => [{ unit := "sequence header OBU", set := size ++ [("seq_profile", 0), ("operating_points_cnt_minus_1", 0), ("seq_level_idx", level), ("seq_tier", 0),
      ("use_128x128_superblock", 0), ("enable_order_hint", 1), ("OrderHintBits", 8), ("enable_superres", 0), ("enable_cdef", 1), ("enable_restoration", 1),
      ("film_grain_params_present", 0)] ++ colourSet f.ops }]
  | 1 =>
    let n := tileCols o.codec o.width
    [{ unit := "VPS", set := [("vps_max_layers_minus1", 0)] },
     { unit := "SPS", set := size ++ [("general_level_idc", level), ("general_tier_flag", 0), ("CtbSizeY", 64), ("sps_max_dec_pic_buffering_minus1", 4)] ++
         colourSet f.ops },
     { unit := "PPS", set := [("tiles_enabled_flag", if 1 < n then 1 else 0)] ++
         (if 1 < n then [("num_tile_columns", (n : Int)), ("num_tile_rows", ((stripes o x.rate.rateMax : Nat) : Int)), ("uniform_spacing_flag", 1),
            ("loop_filter_across_tiles_enabled_flag", 1)] else []) ++
         [("entropy_coding_sync_enabled_flag", 1), ("dependent_slice_segments_enabled_flag", 1), ("cu_qp_delta_enabled_flag", 1),
          ("cabac_init_present_flag", 0), ("sign_data_hiding_enabled_flag", 0), ("pps_loop_filter_across_slices_enabled_flag", 1)] ++
         roiSyntax o.codec f.ops }]
  | _ =>
    [{ unit := "SPS", set := size ++ [("level_idc", level), ("frame_mbs_only_flag", 1), ("pic_order_cnt_type", 2), ("log2_max_frame_num_minus4", 12),
        ("max_num_ref_frames", 4)] ++ colourSet f.ops },
     { unit := "PPS", set := [("entropy_coding_mode_flag", if cavlc o then 0 else 1), ("deblocking_filter_control_present_flag", 1),
        ("transform_8x8_mode_flag", if o.profile = 2 then 1 else 0)] }]

/-- The frame header OBU (R188): q is the quantiser of the frame's first band, ibc allow_intrabc. -/
def frameHeader (h : Nat) (x : Session) (f : Frame) (q : Nat) (ibc : Bool) : Header :=
  let o := frameStream x f
  { unit := "frame header OBU",
    set := [("frame_type " ++ frameType 0 f.key, 1), ("show_frame", 1), ("primary_ref_frame", 7), ("disable_cdf_update", 0),
      ("disable_frame_end_update_cdf", 1), ("uniform_tile_spacing_flag", 0), ("context_update_tile_id", 0),
      ("is_filter_switchable", if x.effort = 2 then 1 else 0), ("reference_select", if x.effort = 2 ∧ f.key = false then 1 else 0),
      ("allow_screen_content_tools", if o.content ≤ 1 then 1 else 0), ("order_hint", ((f.num % 256 : Nat) : Int)), ("base_q_idx", (q : Int)),
      ("delta_q_present_flag", 1), ("delta_q_res", 0)] ++ numbered "width_in_sbs" (tileWidths o.codec o.width) ++
      numbered "height_in_sbs" (stripeHeights o x.rate.rateMax) ++ refSet x f ++ roiSyntax 0 f.ops ++ filterSyntax h x f ibc }

/-- The frame-level units of a frame, in stream order (R188). -/
def frameHeaders (h : Nat) (x : Session) (f : Frame) (q : Nat) (ibc : Bool) (block : List Byte) : List Header :=
  let key := if f.key then sequenceHeaders x f else []
  match x.stream.codec with
  | 0 => [{ unit := "temporal delimiter OBU", set := [] }] ++ key ++ metaOf x f block ++ [frameHeader h x f q ibc]
  | _ => key ++ metaOf x f block ++ recoverySei x f

/-- The headers of band k's coded units (R164, R186, R188): prev and first are the quantisers of the band before and of the first band. -/
def bandHeaders (h : Nat) (x : Session) (f : Frame) (k q prev first : Nat) : List Header :=
  let o := frameStream x f
  let n := tileCols o.codec o.width
  match o.codec with
  | 0 =>
    let t := stripes o x.rate.rateMax
    if endsStripe o x.rate.rateMax k then
      (List.range n).map (fun c => { unit := "tile group OBU", set := [("tile", ((((k * t - 1) / bandsOf o.height) * n + c : Nat) : Int)),
        ("tile_start_and_end_present_flag", if 1 < n * t then 1 else 0)] })
    else []
  | 1 =>
    let set := [("num_entry_point_offsets", (0 : Int)), ("slice_temporal_mvp_enabled_flag", 0)] ++ bandQSyntax 1 q prev first ++ refSet x f ++
      filterSyntax h x f false
    (List.range n).map (fun c =>
      { unit := "slice segment " ++ frameType 1 f.key, set := ("dependent_slice_segment_flag", if k = 1 ∧ c = 0 then 0 else 1) :: set })
  | _ =>
    let set := [("nal_ref_idc", (1 : Int)), ("cabac_init_idc", 0)] ++ bandQSyntax 2 q prev first ++ refSet x f ++ filterSyntax h x f false
    [{ unit := "slice " ++ frameType 2 f.key, set := set }]

/-! ### Framing (R185) -/

/-- n as a leb128 value of exactly len bytes. -/
def leb (len n : Nat) : List Byte :=
  match len with
  | 0 => []
  | 1 => [BitVec.ofNat 8 (n % 128)]
  | len + 1 => BitVec.ofNat 8 (n % 128 + 128) :: leb len (n / 128)

/-- The bytes that leb128 needs for n below 2^28. -/
def lebLen (n : Nat) : Nat := if n < 128 then 1 else if n < 16384 then 2 else if n < 2097152 then 3 else 4

/-- An OBU with obu_has_size_field 1 (R185): frame headers (type 3) and tile groups (type 4) write their size in 4 bytes. -/
def obu (type : Nat) (b : List Byte) : List Byte :=
  BitVec.ofNat 8 (type * 8 + 2) :: (leb (if type = 3 ∨ type = 4 then 4 else lebLen b.length) b.length ++ b)

/-- Emulation prevention (R185): 0x03 before a byte of at most 3 that follows two zero bytes; zeros counts those just written. -/
def protect (zeros : Nat) (b : List Byte) : List Byte :=
  match b with
  | [] => []
  | a :: t =>
    if zeros = 2 ∧ a.toNat ≤ 3 then 3 :: a :: protect (if a = 0 then 1 else 0) t
    else a :: protect (if a = 0 then zeros + 1 else 0) t

/-- A NAL unit after its start code 0x0000_0001 (R185). -/
def nal (header b : List Byte) : List Byte := [0, 0, 0, 1] ++ header ++ protect 0 b

/-- The header of a NAL unit of HEVC, or of AVC with its nal_ref_idc. -/
def nalHeader (codec type ref : Nat) : List Byte := if codec = 1 then [BitVec.ofNat 8 (2 * type), 1] else [BitVec.ofNat 8 (32 * ref + type)]

/-- A frame-level unit in the byte stream. -/
def frameUnit (codec : Nat) (u : Header) (b : List Byte) : List Byte :=
  match codec with
  | 0 => obu (if u.unit = "temporal delimiter OBU" then 2 else if u.unit = "sequence header OBU" then 1 else if u.unit = "frame header OBU" then 3 else 5) b
  | 1 => nal (nalHeader 1 (if u.unit = "VPS" then 32 else if u.unit = "SPS" then 33 else if u.unit = "PPS" then 34 else 39) 0) b
  | _ => if u.unit = "SPS" ∨ u.unit = "PPS" then nal (nalHeader 2 (if u.unit = "SPS" then 7 else 8) 1) b else nal (nalHeader 2 6 0) b

/-- The frame-level units of a frame in the byte stream, from their bytes. -/
def frameBytes (codec : Nat) (us : List Header) (l : List (List Byte)) : List Byte :=
  (List.range us.length).flatMap (fun i => match us[i]? with | none => [] | some u => frameUnit codec u (l.getD i []))

/-- The bits of a number of tiles or columns (TileColsLog2). -/
def log2Up (n : Nat) : Nat := if n ≤ 1 then 0 else Nat.log2 (n - 1) + 1

/-- The header of a tile group of one tile (R188): the flag, tg_start and tg_end, aligned; nothing where the frame has one tile. -/
def tileGroup (cols rows tile : Nat) : List Byte :=
  if cols * rows ≤ 1 then []
  else
    let n := log2Up cols + log2Up rows
    let len := cdiv (1 + 2 * n) 8
    (leBytes ((2 ^ (2 * n) + tile * 2 ^ n + tile) * 2 ^ (8 * len - (1 + 2 * n))) len).reverse

/-- What a band's tile rows add to the coded data: the coded units completed in what is released, the bytes released after the frame-level units, and
the growth of the coded size in bits (R185, R186, R196, R200). rows holds the bytes of the band's tile rows by column, before those of the bands before
it in the same tiles. An HEVC picture of several columns is in tile order, so that before the last band of a stripe only column 0 goes out. -/
def frameRows (x : Session) (f : Frame) (k : Nat) (rows : List (List Byte)) (before : List (List (List Byte))) : Nat × List Byte × Nat :=
  let o := frameStream x f
  let n := tileCols o.codec o.width
  match o.codec with
  | 0 =>
    let t := stripes o x.rate.rateMax
    let tile := fun (c : Nat) => ((k * t - 1) / bandsOf o.height) * n + c
    let grown := (rows.map (fun r => r.length)).sum
    if endsStripe o x.rate.rateMax k then
      let units := (List.range n).map (fun c => obu 4 (tileGroup n t (tile c) ++ (before.getD c []).flatten ++ rows.getD c []))
      (n, units.flatten, 8 * (grown + ((List.range n).map (fun c => 5 + (tileGroup n t (tile c)).length)).sum))
    else (0, [], 8 * grown)
  | 1 =>
    let seg := nal (nalHeader 1 (if f.key then 20 else 1) 0)
    let late := if endsStripe o x.rate.rateMax k then (List.range (n - 1)).flatMap (fun c => before.getD (c + 1) [] ++ [rows.getD (c + 1) []]) else []
    let out := rows.getD 0 [] :: late
    (out.length, out.flatMap seg, 8 * (rows.map (fun r => (seg r).length)).sum)
  | _ => let b := rows.flatMap (fun r => nal (nalHeader 2 (if f.key then 5 else 1) 1) r); (rows.length, b, 8 * b.length)

/-- A filler unit of n bytes (R206). -/
def fillerUnit (codec n : Nat) : List Byte :=
  if n = 0 then []
  else
    match codec with
    | 0 => let l := if n ≤ 129 then 1 else 4; [0x7A] ++ leb l (n - 1 - l) ++ List.replicate (n - 1 - l) 0
    | 1 => [0, 0, 0, 1] ++ nalHeader 1 38 0 ++ List.replicate (n - 7) 0xFF ++ [0x80]
    | _ => [0, 0, 0, 1] ++ nalHeader 2 12 0 ++ List.replicate (n - 6) 0xFF ++ [0x80]

/-! ### The state of the entropy coder (R189) -/

/-- Is band k the first of its tile (R187)? -/
def firstOfTile (x : Session) (f : Frame) (k : Nat) : Bool :=
  decide (k = 1) || endsStripe (frameStream x f) x.rate.rateMax (k - 1)

/-- The state from which ENT starts tile column col of band k (R189): q is the base_q_idx of the frame's first band, above the band before. -/
def coderStart (x : Session) (f : Frame) (k col q : Nat) (above : Option Band) : CoderStart :=
  let left := lookD (match above with | none => [] | some b => b.ends) col []
  match x.stream.codec with
  | 0 => if firstOfTile x f k then .cdfs q else .carried left
  | 1 => if firstOfTile x f k then .init else .wpp left
  | _ => if cavlc x.stream then .none else .init

end Sys2Proof.Machine
end

