-- ==== Sys2Proof/Machine/Sched.lean ====
section
/-! DEFINITION. Dispatch of the bands of encode and decode sessions (R75, R108, R113, R114, R134, R212, R221, R271, R272), PIX work units (R101, R113,
R159, R170 to R172), tile rows in ENT (R102, R173, R189, R190, R198), and deadline fallback (R115, R116, R176). -/

namespace Sys2Proof.Machine

open Sys2Proof

/-- A frame of a session changed. -/
def setFrame (h num : Nat) (g : Frame → Frame) (s : State) : State :=
  setSess s h (fun x => { x with frames := x.frames.map (fun f => if f.num = num then g f else f) })

/-- A band of a frame changed. -/
def setBand (h num k : Nat) (g : Band → Band) (s : State) : State := setFrame h num (fun f => { f with bands := alter f.bands k g }) s

/-- A frame of a session. -/
def frameOf (x : Session) (num : Nat) : Option Frame := x.frames.find? (fun f => decide (f.num = num))

/-! ### Dispatch -/

/-- Does the device dispatch tasks (R489, R522, R531)? -/
def dispatches (s : State) : Bool := !s.dev.noDispatch && decide (s.pwr.state ≤ 1)

/-- A session's decode state changed. -/
def setDec (s : State) (n : Nat) (g : Dec → Dec) : State := setSess s n (fun x => { x with dec := g x.dec })

/-- May tasks of a session be dispatched (R61, R63, R75, R76, R88)? Its Quarter serves it, its record is resident, no CLOSE of an earlier Bell is
pending, and no PARK of an encode session, whose remaining bands wait for the next Bell's fallback mode. -/
def runs (s : State) (x : Session) : Bool :=
  dispatches s && decide (x.state = 2) && x.resident && decide (x.tan.role ≠ 2) &&
  (decide ((qtrOf s x.quarter).state = 1) || decide ((qtrOf s x.quarter).state = 3)) &&
  (match x.pend with
   | some p => if p.kind = 3 then decide (p.bell = s.bell.num) else decide (x.kind = 1)
   | none => true)

/-- The slot of a frame that this Bell is, if any (R106). -/
def slotNow (s : State) (x : Session) (f : Frame) : Option Nat :=
  let d := bellsFrom f.slot0 (sessBell s x)
  if d < f.bells then some d else none

/-- The quantiser of a band coded wholly in fallback mode (R193, R210, R212). -/
def fbQ (codec : Nat) : Nat := if codec = 0 then 255 else 51

/-- The PIX cost that dispatching a band adds: a band coded wholly in fallback mode runs no PIX work (R212). -/
def taskCost (x : Session) (f : Frame) (k : Nat) : Nat := bandCost false (frameStream x f) x.effort k

/-- Would a band exceed its budget even at QP_MAX (R212)? ahead: the bits of the uncommitted bands before it. -/
def overBudget (h : Nat) (x : Session) (f : Frame) (k ahead : Nat) : Bool :=
  decide (budgetOf x f k ahead < predictBits h x f k x.rate.qpMax)

/-- A direct fallback is counted (R212, R400). -/
def countDirect (h : Nat) (s : State) : State := stat h 13 1 { s with rc := { s.rc with direct := up s.rc.direct 1 } }

/-- A dispatched task is counted (R119, R120): its cost in the Quarter's Bell, and whether it is over cadence. -/
def countTask (h q cost : Nat) (cad : Bool) (s : State) : State :=
  let s1 := { s with sched := { s.sched with
    tasks := up s.sched.tasks 1, overCad := if cad then s.sched.overCad else up s.sched.overCad 1, ran := addS s.sched.ran h } }
  setQtr s1 q (fun t => { t with curLoad := t.curLoad + cost, overcad := if cad then t.overcad else up t.overcad 1 })

/-- Band k of a frame is dispatched (R113): cad in cadence, fb wholly in fallback mode. The quantiser is set, R212 is tested, a key frame's first band
decides allow_intrabc (R161), and a compositing frame's band goes to its protected surface (R145). -/
def startBand (h num k : Nat) (cad fb : Bool) (s : State) : State :=
  match look s.sessions h with
  | none => s
  | some x =>
    match frameOf x num with
    | none => s
    | some f =>
      let direct := !fb && overBudget h x f k (aheadBits h x f k)
      let whole := fb || direct
      let q := if whole then fbQ x.stream.codec else chooseQ s h x f k
      let s0 := when (decide (k = 1)) (setFrame h num (fun f => { f with ibc := allowIntrabc s x f })) s
      let s1 := setBand h num k (fun b => { b with
        st := 1, cadence := cad, q := q, q1 := none, fb := whole, nocheck := whole, deadline := false, quarter := x.quarter, bell := s.bell.num,
        units := [], ent := [], rows := [], starts := [], ends := [], blocks := [], fbRows := [] }) s0
      let s2 := countTask h x.quarter (if whole then 0 else taskCost x f k) cad (writeSurface x f k s1)
      if direct then countDirect h s2 else s2

/-- The bands of a frame that are eligible and not dispatched, in band order. -/
def readyBands (f : Frame) : List (Nat × Band) := f.bands.filter (fun b => decide (b.2.st = 0) && b.2.elig)

/-- n of R108 for the bands of slot k of a picture with big bands and F bells: elig of them are eligible, sent dispatched so far, now of those in
cadence in this Bell. -/
def cadenceCount (big bells k elig sent now : Nat) : Nat := min elig (min (perSlot big bells k - now) (cum big bells (k + 1) - sent))

/-- The bands of a frame that are in cadence now (R108): those dispatched in this Bell already count against a(k). -/
def cadenceBands (s : State) (x : Session) (f : Frame) : List (Nat × Band) :=
  match slotNow s x f with
  | none => []
  | some k =>
    let ready := readyBands f
    ready.take (cadenceCount (bandsOf f.height) f.bells k ready.length (f.bands.filter (fun b => decide (1 ≤ b.2.st))).length
      (f.bands.filter (fun b => decide (1 ≤ b.2.st) && b.2.cadence && decide (b.2.bell = s.bell.num))).length)

/-! ### Access units -/

/-- The height of a decode band (R271). -/
def decBandHeight (q : SeqInfo) : Nat := if q.block = 128 then 128 else 64

/-- N of a decoded picture (R271). -/
def auBands (a : Au) : Nat := cdiv a.info.height (decBandHeight a.seq)

/-- The luma rows of decode band k. -/
def auRows (a : Au) (k : Nat) : Nat := min a.info.height (decBandHeight a.seq * k) - decBandHeight a.seq * (k - 1)

/-- The PIX cost of a decode band (R104, R271): the pixels of the coded picture at the FAST column. -/
def decCost (x : Session) (a : Au) (k : Nat) : Nat :=
  pixCost true { x.stream with width := a.info.width, height := a.info.height } 0 (a.info.width * auRows a k)

/-- The bands of an access unit that are eligible and not dispatched, in band order (R272). -/
def readyAu (s : State) (x : Session) (a : Au) : List Nat :=
  if bellsFrom a.elig (sessBell s x) < 2 ^ 39 then (List.range (auBands a - a.sent)).map (fun k => a.sent + 1 + k) else []

/-- The bands of an access unit that are in cadence now (R106, R108, R272). -/
def cadenceAu (s : State) (x : Session) (a : Au) : List Nat :=
  let bells := framesF s x.stream.fps
  let d := bellsFrom a.slot0 (sessBell s x)
  if d < bells then
    let ready := readyAu s x a
    ready.take (cadenceCount (auBands a) bells d ready.length a.sent (if a.cadBell = s.bell.num then a.cadNow else 0))
  else []

/-- An access unit of a session changed, by its mark. -/
def setAu (s : State) (n : Nat) (m : Mark) (g : Au → Au) : State :=
  setDec s n (fun d => { d with queue := d.queue.map (fun a => if a.mark = m then g a else a) })

/-- A picture of a decode session is held (R177, R271): it may be referred to. -/
def picHeld (x : Session) (d : Nat) : Bool := match look x.pics d with | none => false | some p => p.refd && p.whole

/-- The nearest retained picture in order distance from an order; the older one on equal distances (R277). -/
def nearestPic (x : Session) (order : Int) : Option Nat :=
  ((x.pics.filter (fun e => picHeld x e.1)).foldl (fun (m : Option (Nat × Pic)) e =>
    match m with
    | none => some e
    | some m =>
      let de := (e.2.order - order).natAbs
      let dm := (m.2.order - order).natAbs
      if de < dm ∨ (de = dm ∧ older e.2.frame m.2.frame = true) then some e else some m) none).map (fun e => e.1)

/-- The picture that a reference is read from (R277, R278): the one the decoder holds; else the nearest retained one by the missing picture's order, or the
current one's where the stream does not tell it; else the mid-grey picture. -/
def resolveRef (x : Session) (order : Int) (r : RefInfo) : DecRef :=
  match r.desc with
  | some d => if picHeld x d then { desc := some d, subst := false } else { desc := nearestPic x (r.order.getD order), subst := true }
  | none => { desc := nearestPic x (r.order.getD order), subst := true }

/-- The first band of an access unit is dispatched: its picture takes a descriptor and its references are resolved (R181, R277); the pictures
substituted are counted (R287, R400). -/
def startAu (n : Nat) (x : Session) (a : Au) (s : State) : State :=
  let d := freeDesc x
  let refs := a.info.refs.map (resolveRef x a.info.order)
  let k := (refs.filter (fun r => r.subst)).length
  let s1 := setSess s n (fun x => { x with
    pics := put x.pics d { newPic x.dec.picNum with
      tag := a.tag, rap := decide (1 ≤ a.info.unit) && decide (a.info.unit ≤ 3), order := a.info.order, width := a.info.width, height := a.info.height,
      subst := decide (0 < k), taint := (match a.info.primary with | none => false | some i => (refs[i]?).any (fun r => r.subst)) },
    dec := { x.dec with picNum := x.dec.picNum + 1 } })
  stat n 35 k { setAu s1 n a.mark (fun a => { a with desc := d, refs := refs }) with dec := { s1.dec with cnt := bump s1.dec.cnt 0x1C k } }

/-- Band k of an access unit is dispatched (R113, R271, R272). -/
def startDecBand (n : Nat) (m : Mark) (k : Nat) (cad : Bool) (s : State) : State :=
  match (look s.sessions n).bind (fun x => (x.dec.queue.find? (fun a => decide (a.mark = m))).map (fun a => (x, a))) with
  | none => s
  | some (x, a) =>
    if a.sent + 1 ≠ k then s
    else
      let s1 := when (decide (k = 1)) (startAu n x a) s
      let s2 := setAu s1 n m (fun a => { a with
        sent := k, cadBell := if cad then s.bell.num else a.cadBell,
        cadNow := if cad then (if a.cadBell = s.bell.num then a.cadNow else 0) + 1 else a.cadNow,
        run := a.run ++ [{ k := k, quarter := x.quarter, bell := s.bell.num, cadence := cad, deadline := false, parse := 0, units := [] }] })
      countTask n x.quarter (decCost x a k) cad s2

/-! ### The three groups (R113) -/

/-- A band that waits for dispatch: its mark, session, frame (none: the access unit of that mark) and number. -/
abbrev Task := Mark × Nat × Option Nat × Nat

/-- A task placed in a list in the order of the marks (R113). -/
def insertTask (t : Task) (l : List Task) : List Task :=
  match l with
  | [] => [t]
  | a :: r => if t.1.before a.1 then t :: a :: r else a :: insertTask t r

/-- The tasks of all sessions that p picks of each frame and r of each access unit, in the order of their marks. -/
def tasksBy (s : State) (p : Session → Frame → List (Nat × Band)) (r : Session → Au → List Nat) : List Task :=
  (s.sessions.filter (fun e => runs s e.2)).foldl (fun l e =>
    if e.2.kind = 0 then e.2.frames.foldl (fun l f => (p e.2 f).foldl (fun l b => insertTask (b.2.mark, e.1, some f.num, b.1) l) l) l
    else e.2.dec.queue.foldl (fun l a => (r e.2 a).foldl (fun l k => insertTask (a.mark, e.1, none, k) l) l) l) []

/-- One task is dispatched. -/
def startTask (cad : Bool) (t : Task) (s : State) : State :=
  match t.2.2.1 with
  | some num => startBand t.2.1 num t.2.2.2 cad false s
  | none => startDecBand t.2.1 t.1 t.2.2.2 cad s

/-- The groups of a Quarter's engines are ungated before in-cadence tasks are assigned to it (R521; log entry 78). -/
def ungateFor (ts : List Task) (s : State) : State :=
  let qs := ts.filterMap (fun t => (look s.sessions t.2.1).map (fun x => x.quarter))
  { s with pwr := { s.pwr with gated := s.pwr.gated.filter (fun e => !has qs (e / 32)) } }

/-- Group 1 (R113): the in-cadence bands, in the order of their marks. -/
def dispatchCadence (s : State) : State :=
  let ts := tasksBy s (fun x f => cadenceBands s x f) (fun x a => cadenceAu s x a)
  ts.foldl (fun s t => startTask true t s) (ungateFor ts s)

/-- Does a task fit under the burst cap of its Quarter (R114)? Costs are in 1/8 cycle. -/
def fitsBurst (s : State) (q cost : Nat) : Bool :=
  decide ((((qtrOf s q).curLoad + cost) * 100) ≤ roleCount s q 0 * cyclesPerBell s * 8 * fld s.sched.burst 7 0)

/-! ### Reconstruction work buffers (R170, R171) -/

/-- Does a tag belong to a branch of a band? -/
def tagIs (h num k branch : Nat) (t : TileRef) : Bool :=
  decide (t.handle = h) && decide (t.frame = num) && decide (t.band = k) && decide (t.branch = branch)

/-- Does a tile row of a branch hold its work buffer? -/
def holdsWork (s : State) (q : Nat) (t : TileRef) : Bool := (qtrOf s q).work.any (fun e => decide (e.2 = t))

/-- The parts of size bytes of an area of n parts that lie on retired pages (R328). -/
def retiredIn (s : State) (base size n : Nat) : List Nat :=
  (s.memc.table.filter (fun r => decide (base ≤ r.page * 4096) && decide (r.page * 4096 < base + size * n))).foldl
    (fun l r => addS l ((r.page * 4096 - base) / size)) []

/-- The work buffers of a Quarter that are in use (R170), or withdrawn as they lie on retired pages (R328). -/
def workUsed (s : State) (q : Nat) : Nat :=
  (qtrOf s q).work.length + ((retiredIn s (workAt s q 0) (2 ^ 20) 64).filter (fun i => (look (qtrOf s q).work i).isNone)).length

/-- A tile row of a branch takes the lowest free of the 64 work buffers (R170), unless it holds one. -/
def takeWork (q : Nat) (t : TileRef) (s : State) : State :=
  if holdsWork s q t then s
  else
    match (List.range 64).find? (fun i => (look (qtrOf s q).work i).isNone && !has (retiredIn s (workAt s q 0) (2 ^ 20) 64) i) with
    | none => s
    | some i => setQtr s q (fun d => { d with work := put d.work i t })

/-- Work buffers return to the free set (R171, R175). -/
def freeWork (p : TileRef → Bool) (s : State) : State :=
  { s with quarters := s.quarters.map (fun e => (e.1, { e.2 with work := e.2.work.filter (fun w => !p w.2) })) }

/-- The tags of every tile row of a branch of a band. -/
def bandTags (h num k branch cols : Nat) : List TileRef :=
  (List.range cols).map (fun c => { handle := h, frame := num, band := k, branch := branch, col := c })

/-- Work buffers that the tile rows of a branch still need on a Quarter. -/
def workLacks (s : State) (q : Nat) (l : List TileRef) : Nat := (l.filter (fun t => !holdsWork s q t)).length

/-- Every tile row of a branch takes its work buffer. -/
def takeWorks (q : Nat) (l : List TileRef) (s : State) : State := l.foldl (fun s t => takeWork q t s) s

/-! ### Forks -/

/-- Does the Reckoner ask for a fork of band k (R221)? -/
def wantsFork (s : State) (h : Nat) (x : Session) (f : Frame) (k : Nat) (b : Band) : Bool :=
  bit s.rc.fork 0 && !x.rate.forkOff && decide (1 ≤ x.effort) && decide (b.q + x.rate.forkDq ≤ x.rate.qpMax) &&
  (Config.uAtLeast x.rate.u x.rate.uThresh ||
   decide (budgetOf x f k (aheadBits h x f k) < Config.timesExpU (predictBits h x f k b.q) x.rate.u) ||
   decide ((h, k) ∈ s.sched.cuts))

/-- Group 2 (R113, R114, R119, R171): the second branch of one band, made, as a task of its own, or denied. -/
def forkBand (h num k : Nat) (s : State) : State :=
  match look s.sessions h with
  | none => s
  | some x =>
    match frameOf x num with
    | none => s
    | some f =>
      match look f.bands k with
      | none => s
      | some b =>
        if !wantsFork s h x f k b then s
        else
          let cost := taskCost x f k
          let tags := bandTags h num k 1 (tileCols x.stream.codec f.width)
          if fitsBurst s x.quarter cost && decide (workUsed s x.quarter + tags.length ≤ 64) then
            let s1 := takeWorks x.quarter tags (setBand h num k (fun b => { b with q1 := some (b.q + x.rate.forkDq) }) s)
            stat h 9 1 (countTask h x.quarter cost true { s1 with rc := { s1.rc with forks := up s1.rc.forks 1 } })
          else { s with sched := { s.sched with forkDeny := up s.sched.forkDeny 1 } }

/-- Group 2: the in-cadence bands of this Bell that are coded normally and not forked. -/
def dispatchForks (s : State) : State :=
  (tasksBy s (fun _ f => f.bands.filter (fun b =>
    decide (b.2.st = 1) && decide (b.2.bell = s.bell.num) && b.2.cadence && !b.2.fb && b.2.q1.isNone)) (fun _ _ => [])).foldl
      (fun s t => match t.2.2.1 with | some num => forkBand t.2.1 num t.2.2.2 s | none => s) s

/-- The PIX cost and Quarter of a task, where it can still be dispatched. -/
def taskNeeds (s : State) (t : Task) : Option (Nat × Nat) :=
  (look s.sessions t.2.1).bind (fun x =>
    match t.2.2.1 with
    | some num => (frameOf x num).map (fun f => (x.quarter, taskCost x f t.2.2.2))
    | none => (x.dec.queue.find? (fun a => decide (a.mark = t.1))).map (fun a => (x.quarter, decCost x a t.2.2.2)))

/-- Group 3 (R113, R114): over-cadence bands under the burst cap; each one that does not fit waits and is counted. -/
def dispatchOver (s : State) : State :=
  (tasksBy s (fun _ f => readyBands f) (fun x a => readyAu s x a)).foldl (fun s t =>
    match taskNeeds s t with
    | none => s
    | some (q, cost) =>
      if fitsBurst s q cost then startTask false t s else { s with sched := { s.sched with defer := up s.sched.defer 1 } }) s

/-- The remaining bands of a frame are dispatched in fallback mode, past R114 (R75, R134): those that p picks; those within R108's count are in
cadence. -/
def dispatchRest (h num : Nat) (p : Band → Bool) (s : State) : State :=
  match look s.sessions h with
  | none => s
  | some x =>
    match frameOf x num with
    | none => s
    | some f =>
      if dispatches s then
        let cad := match slotNow s x f with
          | none => 0
          | some k =>
            cadenceCount (bandsOf f.height) f.bells k (bandsOf f.height) (f.bands.filter (fun b => decide (1 ≤ b.2.st))).length
              (f.bands.filter (fun b => decide (1 ≤ b.2.st) && b.2.cadence && decide (b.2.bell = s.bell.num))).length
        let rest := f.bands.filter (fun b => decide (b.2.st = 0) && p b.2)
        (List.range rest.length).foldl (fun s i => startBand h num ((rest.map (fun b => b.1)).getD i 0) (decide (i < cad)) true s) s
      else s

/-- In the Bell after a PARK, the remaining bands of its frames go (R66, R75). -/
def dispatchParked (s : State) : State :=
  s.sessions.foldl (fun s e =>
    match e.2.pend with
    | some p =>
      if (p.kind ≤ 1 ∨ p.kind = 4) ∧ p.bell ≠ s.bell.num then
        e.2.frames.foldl (fun s f => dispatchRest e.1 f.num (fun _ => true) s) s
      else s
    | none => s) s

/-! ### Truncation (R134) -/

/-- Is a frame due for truncation at this cut (R134)? -/
def truncDue (s : State) (x : Session) (f : Frame) : Bool :=
  f.ingest && !f.trunc && !f.parked &&
  ((match f.truncAt with | none => false | some b => decide (bellsFrom b (sessBell s x) < 2 ^ 39)) ||
   (let d := bellsFrom f.slot0 (sessBell s x)
    decide ((f.stall + 1) * f.bells ≤ d) && decide (d < 2 ^ 39)))

/-- The first frame of session h that is due is truncated (R134, R137): its bands whose rows landed before the cut go normally, and the rest in
fallback mode. -/
def truncateFrame (h : Nat) (s : State) : State :=
  match look s.sessions h with
  | none => s
  | some x =>
    match x.frames.find? (truncDue s x) with
    | none => s
    | some f =>
      let s1 := setSess (setFrame h f.num (fun f => { f with trunc := true, ingest := false }) s) h (noteLate f)
      let s2 := dispatchRest h f.num (fun b => !b.elig) s1
      notice h (if f.failed then 0x0D0C else 0x0D0D) (stat h 22 1 { s2 with ingest := { s2.ingest with trunc := up s2.ingest.trunc 1 } })

/-- Every session's frame that is due is truncated at the fence cut, before any band of a next frame is dispatched (R134). -/
def truncateDue (s : State) : State := s.sessions.foldl (fun s e => truncateFrame e.1 s) s

/-- FRAME_TRUNCATE (R21, R134): in the Dispatch window, from the fence cut on. -/
def execFrameTruncate (handle : Nat) (s : State) : Host.Outcome State Fault Refusal :=
  live s (fun s => if s.bell.cut && decide (s.bell.window = .dispatch) then truncateFrame handle s else s)

/-- Have all tasks dispatched committed (R25)? -/
def tasksDone (s : State) : Bool :=
  s.sessions.all (fun e =>
    e.2.frames.all (fun f => f.bands.all (fun b => decide (b.2.st ≠ 1) && decide (b.2.st ≠ 2))) && e.2.dec.queue.all (fun a => a.run.isEmpty) &&
    e.2.tan.run.isEmpty)

/-! ### Work units -/

/-- The branches of a band that are still coded: after a deadline a fork is its branch at the higher QP (R115). -/
def branches (b : Band) : List Nat := if b.q1.isNone then [0] else if b.deadline then [1] else [0, 1]

/-- The blocks of a tile row of band k. -/
def rowBlocks (x : Session) (f : Frame) (k col : Nat) : Nat := colBlocks x.stream.codec f.width col * blockRows x.stream.codec f.height k

/-- May a unit of the row above be read (R101, R172, R211)? Inside an AVC band, the rows after the first wait for the band above to commit; the
first row waits for the unit of the band above, which may be speculative one band deep. -/
def aboveReady (x : Session) (f : Frame) (b : Band) (u : UnitRef) : Bool :=
  let w := colBlocks x.stream.codec f.width u.col
  let last := stagesOf x.effort - 1
  let j := min (u.block % w + 2) (w - 1)
  let prevDone := decide (u.band = 1) || (match look f.bands (u.band - 1) with | some p => decide (p.st = 3) | none => false)
  if w ≤ u.block then prevDone && decide ((u.branch, u.col, (u.block / w - 1) * w + j, last) ∈ b.units)
  else if prevDone then true
  else
    match look f.bands (u.band - 1) with
    | none => false
    | some p =>
      (decide (u.band = 2) || (match look f.bands (u.band - 2) with | some pp => decide (pp.st = 3) | none => false)) && !p.fb &&
      decide ((0, u.col, (blockRows x.stream.codec f.height (u.band - 1) - 1) * w + j, last) ∈ p.units)

/-- The dependencies of a unit (R101). -/
def unitReady (x : Session) (f : Frame) (b : Band) (u : UnitRef) : Bool :=
  let w := colBlocks x.stream.codec f.width u.col
  (decide (u.stage = 0) || decide ((u.branch, u.col, u.block, u.stage - 1) ∈ b.units)) &&
  (decide (u.block % w = 0) || decide ((u.branch, u.col, u.block - 1, u.stage) ∈ b.units)) &&
  (decide (u.stage ≠ 0) || aboveReady x f b u)

/-- A unit of a tile row. -/
def unitOf (t : TileRef) (q block stage : Nat) : UnitRef :=
  { quarter := q, engine := 0, handle := t.handle, frame := t.frame, band := t.band, branch := t.branch, col := t.col, block := block, stage := stage }

/-- Does an engine hold the unit already? -/
def unitRuns (s : State) (u : UnitRef) : Bool :=
  s.engines.any (fun e => match e.2.unit with | none => false | some v => decide ({ v with engine := u.engine, quarter := u.quarter } = u))

/-- Has a tile row of a branch begun: a unit of it has run or runs? -/
def rowBegun (s : State) (b : Band) (t : TileRef) : Bool :=
  b.units.any (fun u => decide (u.1 = t.branch) && decide (u.2.1 = t.col)) ||
  s.engines.any (fun e => match e.2.unit with
    | none => false
    | some u => tagIs t.handle t.frame t.band t.branch { handle := u.handle, frame := u.frame, band := u.band, branch := u.branch, col := u.col } &&
        decide (u.col = t.col) && decide (u.stage ≠ 99))

/-- Does a frame's tile row hold reference windows: inter windows, or that of intra block copy (R158)? -/
def hasWindows (f : Frame) : Bool := !f.key || f.ibc

/-- The searching units of a tile row that have not committed (R159). DESIGN CHOICE (log entry 76): the first half of a block's stages search. -/
def searchLeft (x : Session) (f : Frame) (k : Nat) (b : Band) (t : TileRef) : Bool :=
  let n := stagesOf x.effort / 2
  decide ((b.units.filter (fun u => decide (u.1 = t.branch) && decide (u.2.1 = t.col) && decide (u.2.2.2 < n))).length < rowBlocks x f k t.col * n)

/-- The tile rows of a Quarter that hold reference windows (R159): from the start of their first unit to the commit of their last searching one. -/
def windowRows (s : State) (q : Nat) : Nat :=
  (s.sessions.map (fun e => (e.2.frames.map (fun f => (f.bands.map (fun b =>
    if b.2.quarter = q ∧ b.2.st = 1 ∧ hasWindows f = true then
      ((branches b.2).map (fun br => ((bandTags e.1 f.num b.1 br (tileCols e.2.stream.codec f.width)).filter (fun t =>
        rowBegun s b.2 t && searchLeft e.2 f b.1 b.2 t)).length)).sum
    else 0)).sum)).sum)).sum

/-- Is there room for a tile row's first unit: a work buffer, and a place among the 11 holders of windows (R159, R171)? -/
def rowRoom (s : State) (f : Frame) (b : Band) (t : TileRef) : Bool :=
  rowBegun s b t || ((holdsWork s b.quarter t || decide (workUsed s b.quarter < 64)) && (!hasWindows f || decide (windowRows s b.quarter < 11)))

/-- May a unit of an encode band start now, but for its engine (R21, R101, R115, R159, R171)? -/
def unitOpen (s : State) (x : Session) (f : Frame) (b : Band) (u : UnitRef) : Bool :=
  let t : TileRef := { handle := u.handle, frame := u.frame, band := u.band, branch := u.branch, col := u.col }
  decide (b.st = 1) && !b.fb && !b.deadline && decide (u.branch ∈ branches b) && decide (u.col < tileCols x.stream.codec f.width) &&
  decide (u.block < rowBlocks x f u.band u.col) && decide (u.stage < stagesOf x.effort) &&
  decide ((u.branch, u.col, u.block, u.stage) ∉ b.units) && !unitRuns s u && unitReady x f b u && rowRoom s f b t

/-- The side of a decoded sequence's blocks, and the blocks of band k across and in all (R101, R271). -/
def decBlocks (a : Au) (k : Nat) : Nat × Nat :=
  let n := max 1 a.seq.block
  (cdiv a.info.width n, cdiv a.info.width n * cdiv (auRows a k) n)

/-- The dependencies of a unit of a decode band, whose work units have 2 stages (R101, R271). -/
def decUnitReady (a : Au) (b : DecBand) (u : UnitRef) : Bool :=
  let w := max 1 (decBlocks a u.band).1
  let j := min (u.block % w + 2) (w - 1)
  let above := if w ≤ u.block then decide (((u.block / w - 1) * w + j, 1) ∈ b.units)
    else match a.run.find? (fun p => decide (p.k + 1 = u.band)) with
      | none => true
      | some p => decide (((decBlocks a p.k).2 - w + j, 1) ∈ p.units)
  (decide (u.stage = 0) || decide ((u.block, u.stage - 1) ∈ b.units)) &&
  (decide (u.block % w = 0) || decide ((u.block - 1, u.stage) ∈ b.units)) && (decide (u.stage ≠ 0) || above)

/-- May a unit of a decode band start now, but for its engine (R271)? The band's syntax has been parsed. -/
def decUnitOpen (s : State) (a : Au) (b : DecBand) (u : UnitRef) : Bool :=
  !b.deadline && decide (b.parse = 2) && decide (u.branch = 0) && decide (u.col = 0) && decide (u.block < (decBlocks a u.band).2) &&
  decide (u.stage < 2) && decide ((u.block, u.stage) ∉ b.units) && !unitRuns s u && decUnitReady a b u

/-- The access unit whose picture has a number, with a dispatched band of it (R271). -/
def decBandOf (x : Session) (num k : Nat) : Option (Au × DecBand) :=
  (x.dec.queue.find? (fun a => (look x.pics a.desc).any (fun p => decide (p.frame = num)))).bind (fun a =>
    (a.run.find? (fun b => decide (b.k = k))).map (fun b => (a, b)))

/-! ### Shadow decodes (R439, R442) -/

/-- The picture of a mirrored frame as the decoder's units see it, with the bands that run. -/
def shadowAu (x : Session) (num : Nat) : Au :=
  let o := x.stream
  { tag := 0, bufs := [],
    info := { readFailed := false, unit := 0, seq := none, width := o.width, height := o.height, order := num, refs := [], primary := none,
              recovery := none, shows := false, drops := [] },
    seq := { profile := o.profile, chroma := 1, depth := 8 + 2 * o.depth, level := 0, high := false, width := o.width, height := o.height, dpb := 0,
             block := blockUnit o.codec, largeScale := false, layers := 1, fields := false },
    mark := { bell := 0, seq := 0 }, elig := 0, slot0 := 0, desc := 16, refs := [], sent := 0, cadBell := 0, cadNow := 0,
    run := (x.tan.run.filter (fun r => decide (r.1 = num))).map (fun r => r.2), vecs := [], missing := [] }

/-- The PIX cost of a shadow decode band in eighths of a cycle (R439): 4.0 cycles a pixel, by 1.25 at 10-bit. -/
def shadowCost (o : StreamOps) (k : Nat) : Nat := o.width * bandRows o.height k * (if o.depth = 1 then 40 else 32)

/-- The shadow decode bands of a session whose Bell has come are dispatched to the Quarter on which it is booked (R24, R439, R442). -/
def startShadow (n : Nat) (s : State) : State :=
  match look s.sessions n with
  | none => s
  | some x =>
    if x.tan.role ≠ 2 ∨ x.tan.landed = false ∨ x.tan.recheck.isSome ∨ x.state ≠ 2 ∨ dispatches s = false then s
    else
      ((x.tan.due.drop x.tan.run.length).filter (fun d => decide (bellsFrom d.2.2 (sessBell s x) < 2 ^ 39))).foldl (fun s d =>
        countTask n x.quarter (shadowCost x.stream d.2.1) true (setSess s n (fun x => { x with tan := { x.tan with
          run := x.tan.run ++ [(d.1, { k := d.2.1, quarter := x.quarter, bell := s.bell.num, cadence := true, deadline := false, parse := 0, units := [] })] } }))) s

/-- The shadow decodes of a Bell: cycles are booked for them (R438), and they go beside group 1 (log entry 81). -/
def dispatchShadows (s : State) : State := s.sessions.foldl (fun s e => startShadow e.1 s) s

/-- A shadow decode band that runs. -/
def shadowBand (x : Session) (num k : Nat) : Option DecBand := (x.tan.run.find? (fun r => decide (r.1 = num) && decide (r.2.k = k))).map (fun r => r.2)

/-- A shadow decode band changed. -/
def setShadow (n num k : Nat) (g : DecBand → DecBand) (s : State) : State :=
  setSess s n (fun x => { x with tan := { x.tan with run := x.tan.run.map (fun r => if r.1 = num ∧ r.2.k = k then (r.1, g r.2) else r) } })

/-- Has a shadow decode band been parsed and reconstructed (R442)? -/
def shadowReady (x : Session) (num : Nat) (b : DecBand) : Bool :=
  decide (b.parse = 2) && decide (b.units.length = 2 * (decBlocks (shadowAu x num) b.k).2)

/-! ### The order of units (R113) -/

/-- The group of a branch of a band. -/
def groupOf (branch : Nat) (cad : Bool) : Nat := if branch = 1 then 2 else if cad then 1 else 3

/-- Does a task of group g and mark m go before one of group g2 and mark m2 (R113)? -/
def goesBefore (g : Nat) (m : Mark) (g2 : Nat) (m2 : Mark) : Bool := decide (g < g2) || (decide (g = g2) && m.before m2)

/-- Is there a unit of a branch of an encode band that may start now? -/
def branchOpen (s : State) (h : Nat) (x : Session) (f : Frame) (k branch : Nat) (b : Band) : Bool :=
  (List.range (tileCols x.stream.codec f.width)).any (fun c => (List.range (rowBlocks x f k c)).any (fun n => (List.range (stagesOf x.effort)).any (fun g =>
    unitOpen s x f b (unitOf { handle := h, frame := f.num, band := k, branch := branch, col := c } b.quarter n g))))

/-- Is there a unit of a decode band that may start now? -/
def decOpen (s : State) (h num : Nat) (a : Au) (b : DecBand) : Bool :=
  (List.range (decBlocks a b.k).2).any (fun n => (List.range 2).any (fun g =>
    decUnitOpen s a b (unitOf { handle := h, frame := num, band := b.k, branch := 0, col := 0 } b.quarter n g)))

/-- Does some task on Quarter q that goes before one of group g and mark m have a unit ready, by p for the branches of encode bands and r for decode
bands (R113)? -/
def earlierReady (s : State) (q g : Nat) (m : Mark) (p : Nat → Session → Frame → Nat → Nat → Band → Bool) (r : Nat → Session → Au → DecBand → Bool) : Bool :=
  s.sessions.any (fun e =>
    e.2.frames.any (fun f => f.bands.any (fun b => decide (b.2.quarter = q) && decide (b.2.st = 1) && (branches b.2).any (fun br =>
      goesBefore (groupOf br b.2.cadence) b.2.mark g m && p e.1 e.2 f b.1 br b.2))) ||
    e.2.dec.queue.any (fun a => a.run.any (fun b => decide (b.quarter = q) && goesBefore (groupOf 0 b.cadence) a.mark g m && r e.1 e.2 a b)))

/-- The number of an access unit's picture. -/
def auNum (x : Session) (a : Au) : Nat := match look x.pics a.desc with | none => 0 | some p => p.frame

/-- Does a PIX unit of an earlier task wait on Quarter q (R113)? -/
def earlierUnit (s : State) (q g : Nat) (m : Mark) : Bool :=
  earlierReady s q g m (fun h x f k br b => branchOpen s h x f k br b) (fun h x a b => decOpen s h (auNum x a) a b)

/-- The role of an engine now: a SPARE that stands in takes the role that it stands for (R506). -/
def roleNow (s : State) (e : Nat) : Nat :=
  let r := (engOf s e).role
  if r = 5 then (match look s.bist.standIn (e / 32) with | some k => (districtOf s (e / 32)).roles.getD k 5 | none => 5) else r

/-- Is an engine free for a unit of a role (R291, R506, R519)? -/
def engineFree (s : State) (e role : Nat) : Bool :=
  decide (e < 512) && decide ((engOf s e).state = 2) && decide (roleNow s e = role) && !has s.pwr.gated e && !has s.bist.out e

/-- A unit of an encode band starts: the first of its tile row takes the work buffer of its tag (R170). -/
def startRow (u : UnitRef) (q : Nat) (s : State) : State :=
  startUnit u.engine u (takeWork q { handle := u.handle, frame := u.frame, band := u.band, branch := u.branch, col := u.col } s)

/-- WORK_UNIT_START (R21, R101, R113, R159, R171, R271, R439). A decode session's frame is the number of its picture. -/
def execWorkUnitStart (u : UnitRef) (s : State) : Host.Outcome State Fault Refusal :=
  onSession u.handle s (fun x s =>
    if s.bell.window = .guard ∨ dispatches s = false ∨ engineFree s u.engine 0 = false then s
    else if x.tan.role = 2 then
      match shadowBand x u.frame u.band with
      | none => s
      | some b =>
        if decide (u.engine / 32 = b.quarter) && decide (u.quarter = b.quarter) && decUnitOpen s (shadowAu x u.frame) b u then startUnit u.engine u s
        else s
    else if x.kind = 1 then
      match decBandOf x u.frame u.band with
      | none => s
      | some (a, b) =>
        if decide (u.engine / 32 = b.quarter) && decide (u.quarter = b.quarter) && decUnitOpen s a b u && !earlierUnit s b.quarter (groupOf 0 b.cadence) a.mark then
          startUnit u.engine u s
        else s
    else
      match (frameOf x u.frame).bind (fun f => (look f.bands u.band).map (fun b => (f, b))) with
      | none => s
      | some (f, b) =>
        if decide (u.engine / 32 = b.quarter) && decide (u.quarter = b.quarter) && unitOpen s x f b u &&
            !earlierUnit s b.quarter (groupOf u.branch b.cadence) b.mark then
          startRow u b.quarter s
        else s)

/-! ### Tile rows in ENT -/

/-- The key of a tile row of a branch. -/
def rowKey (branch col : Nat) : Nat := branch * 64 + col

/-- Have all PIX units of a tile row committed (R102)? -/
def pixDone (x : Session) (f : Frame) (k : Nat) (b : Band) (branch col : Nat) : Bool :=
  decide ((b.units.filter (fun u => decide (u.1 = branch) && decide (u.2.1 = col) && decide (u.2.2.2 < 99))).length =
    rowBlocks x f k col * stagesOf x.effort)

/-- The band above, where there is one. -/
def aboveBand (f : Frame) (k : Nat) : Option Band := if k ≤ 1 then none else look f.bands (k - 1)

/-- The decisions of the band above. -/
def aboveDecs (f : Frame) (k : Nat) : List BlockDec := match aboveBand f k with | none => [] | some b => b.blocks

/-- May ENT begin a tile row of an encode band now, but for its engine (R102, R115, R173, R190)? The band above has committed, which clears every
speculative mark and gives the coder its state. A band under DEADLINE is coded in what it has. -/
def rowOpen (s : State) (x : Session) (f : Frame) (k branch col : Nat) (b : Band) : Bool :=
  decide (b.st = 1) && !b.fb && (match aboveBand f k with | none => decide (k = 1) | some p => decide (p.st = 3)) &&
  (decide (s.bell.window ≠ .guard) || b.deadline) && decide (branch ∈ branches b) && decide (col < tileCols x.stream.codec f.width) &&
  decide ((branch, col) ∉ b.ent) && (b.deadline || pixDone x f k b branch col)

/-- May ENT begin the parse of a decode band now (R271)? The band above has been parsed: its decoder state is where this one resumes. -/
def parseOpen (s : State) (a : Au) (b : DecBand) : Bool :=
  decide (s.bell.window ≠ .guard) && !b.deadline && decide (b.parse = 0) && a.run.all (fun p => decide (b.k ≤ p.k) || decide (p.parse = 2))

/-- Does a tile row of an earlier task wait for ENT on Quarter q (R113)? -/
def earlierRow (s : State) (q g : Nat) (m : Mark) : Bool :=
  earlierReady s q g m (fun _ x f k br b => (List.range (tileCols x.stream.codec f.width)).any (fun c => rowOpen s x f k br c b))
    (fun _ _ a b => parseOpen s a b)

/-- An ENT engine takes a tile row. -/
def startEnt (t : TileRef) (q engine : Nat) (s : State) : State :=
  startUnit engine { unitOf t q 0 99 with engine := engine } s

/-- What mode decision has decided of a tile row as ENT begins it: the search and the decision of every block; under DEADLINE every block is coded in
fallback mode (R115, R154 to R162). -/
def rowDecs (h : Nat) (s : State) (x : Session) (f : Frame) (k branch col : Nat) (b : Band) : List BlockDec :=
  if b.deadline then (rowUnits x f k col).map (fallbackDec x f branch)
  else decideRow h s x f k branch col (if branch = 1 then b.q1.getD b.q else b.q) f.ibc ((b.blocks.filter (fun d => decide (d.branch = branch))) ++ aboveDecs f k)

/-- The quantiser of a frame's first band. -/
def firstQ (f : Frame) : Nat := match look f.bands 1 with | none => 0 | some b => b.q

/-- TILE_ROW_ENTROPY_START (R102, R113, R173, R189, R190, R271, R439). -/
def execTileRowEntropyStart (t : TileRef) (engine : Nat) (s : State) : Host.Outcome State Fault Refusal :=
  onSession t.handle s (fun x s =>
    if dispatches s = false ∨ engineFree s engine 1 = false then s
    else if x.tan.role = 2 then
      match shadowBand x t.frame t.band with
      | none => s
      | some b =>
        if decide (engine / 32 = b.quarter) && parseOpen s (shadowAu x t.frame) b then
          startEnt t b.quarter engine (setShadow t.handle t.frame t.band (fun b => { b with parse := 1 }) s)
        else s
    else if x.kind = 1 then
      match decBandOf x t.frame t.band with
      | none => s
      | some (a, b) =>
        if decide (engine / 32 = b.quarter) && parseOpen s a b && !earlierRow s b.quarter (groupOf 0 b.cadence) a.mark then
          startEnt t b.quarter engine (setAu s t.handle a.mark (fun a => { a with run := a.run.map (fun p => if p.k = b.k then { p with parse := 1 } else p) }))
        else s
    else
      match (frameOf x t.frame).bind (fun f => (look f.bands t.band).map (fun b => (f, b))) with
      | none => s
      | some (f, b) =>
        if decide (engine / 32 = b.quarter) && rowOpen s x f t.band t.branch t.col b && !earlierRow s b.quarter (groupOf t.branch b.cadence) b.mark then
          startEnt t b.quarter engine (setBand t.handle t.frame t.band (fun b => { b with
            ent := b.ent ++ [(t.branch, t.col)], fbRows := if b.deadline then b.fbRows ++ [(t.branch, t.col)] else b.fbRows,
            starts := put b.starts (rowKey t.branch t.col) (coderStart x f t.band t.col (firstQ f) (aboveBand f t.band)),
            blocks := b.blocks ++ rowDecs t.handle s x f t.band t.branch t.col b }) s)
        else s)

/-- Is every tile row of every branch coded? -/
def allCoded (x : Session) (f : Frame) (b : Band) : Bool :=
  (branches b).all (fun br => (List.range (tileCols x.stream.codec f.width)).all (fun c => (look b.rows (rowKey br c)).isSome))

/-- The ENT engine of a tile row is free again. -/
def freeEnt (t : TileRef) (s : State) : State :=
  { s with engines := s.engines.map (fun e =>
      match e.2.unit with
      | some u =>
        if u.stage = 99 ∧ u.handle = t.handle ∧ u.frame = t.frame ∧ u.band = t.band ∧ u.branch = t.branch ∧ u.col = t.col then
          (e.1, { e.2 with state := 2, unit := none })
        else e
      | none => e) }

/-- A band whose every branch is coded waits for its check (R207). -/
def settleCoded (h num k : Nat) (s : State) : State :=
  match (look s.sessions h).bind (fun x => (frameOf x num).bind (fun f => (look f.bands k).map (fun b => (x, f, b)))) with
  | some (x, f, b) => if b.st = 1 ∧ b.fb = false ∧ allCoded x f b = true then setBand h num k (fun b => { b with st := 2 }) s else s
  | none => s

/-- ENT's output buffers of 128 KiB that some bytes take (R198). -/
def outBufs (n : Nat) : Nat := cdiv n 131072

/-- Has the tile row of a key in band k left its output buffers (R196, R199): a committed one whose bytes have been released, or a dropped frame's? -/
def rowReleased (x : Session) (f : Frame) (k : Nat) (b : Band) (key : Nat) : Bool :=
  f.dropped || (decide (b.st = 3) && (decide (x.stream.codec = 2) || (decide (x.stream.codec = 1) && decide (key = rowKey 0 0)) ||
    (List.range (f.next - k)).any (fun i => endsStripe (frameStream x f) x.rate.rateMax (k + i))))

/-- The output buffers of a Quarter that are in use (R198), those of the tile rows whose bytes have not been released; or withdrawn as they lie on
retired pages (R328). A branch given up holds none. -/
def outUsed (s : State) (q : Nat) : Nat :=
  (retiredIn s (outBufAt s q 0) (2 ^ 17) 512).length + (s.sessions.map (fun e => (e.2.frames.map (fun f => (f.bands.map (fun b =>
    if b.2.quarter = q then ((b.2.rows.filter (fun r => !rowReleased e.2 f b.1 b.2 r.1)).map (fun r => outBufs r.2.1.length)).sum else 0)).sum)).sum)).sum

/-- The blocks of a tile row that are coded in fallback mode: all, where ENT began it after DEADLINE; those not begun at DEADLINE, or left when the
output buffers ran out; else none (R115, R198). -/
def rowFallback (s : State) (x : Session) (f : Frame) (t : TileRef) (b : Band) (res : TileResult) : Nat :=
  let all := rowBlocks x f t.band t.col
  if (t.branch, t.col) ∈ b.fbRows then all
  else if b.deadline ∨ 8 ≤ outBufs res.bytes.length ∨ 512 ≤ outUsed s b.quarter + outBufs res.bytes.length then min res.fbBlocks all
  else 0

/-- TILE_ROW_CODED (R102, R189, R198, R271, R439): a branch of a tile row holds at most 8 of the Quarter's 512 output buffers. -/
def execTileRowCoded (t : TileRef) (res : TileResult) (s : State) : Host.Outcome State Fault Refusal :=
  onSession t.handle s (fun x s =>
    if x.tan.role = 2 then
      match shadowBand x t.frame t.band with
      | none => s
      | some b => if b.parse = 1 then freeEnt t (setShadow t.handle t.frame t.band (fun b => { b with parse := 2 }) s) else s
    else if x.kind = 1 then
      match decBandOf x t.frame t.band with
      | none => s
      | some (a, b) =>
        if b.parse = 1 then
          freeEnt t (setAu s t.handle a.mark (fun a => { a with run := a.run.map (fun p => if p.k = b.k then { p with parse := 2 } else p) }))
        else s
    else
      match (frameOf x t.frame).bind (fun f => (look f.bands t.band).map (fun b => (f, b))) with
      | none => s
      | some (f, b) =>
        if b.st = 1 ∧ (t.branch, t.col) ∈ b.ent ∧ (look b.rows (rowKey t.branch t.col)).isNone = true ∧ outBufs res.bytes.length ≤ 8 ∧
            outUsed s b.quarter + outBufs res.bytes.length ≤ 512 then
          let n := rowFallback s x f t b res
          settleCoded t.handle t.frame t.band
            (setBand t.handle t.frame t.band (fun b => { b with
              rows := put b.rows (rowKey t.branch t.col) (res.bytes, n), ends := put b.ends (rowKey t.branch t.col) res.state,
              blocks := fallbackRow x f t.band t.branch t.col n b.blocks }) (freeEnt t s))
        else s)

/-! ### Engine gating (R520) -/

/-- Does a Quarter's dispatcher hold a unit for PIX or ENT (roles 0 and 1, R40) that may start now? Work for the other roles is not held in units (log
entry 78). -/
def roleReady (s : State) (q role : Nat) : Bool :=
  let pix := decide (role = 0)
  decide (role ≤ 1) && s.sessions.any (fun e =>
    e.2.frames.any (fun f => f.bands.any (fun b => decide (b.2.quarter = q) && decide (b.2.st = 1) && (branches b.2).any (fun br =>
      if pix then branchOpen s e.1 e.2 f b.1 br b.2
      else (List.range (tileCols e.2.stream.codec f.width)).any (fun c => rowOpen s e.2 f b.1 br c b.2)))) ||
    e.2.dec.queue.any (fun a => a.run.any (fun b => decide (b.quarter = q) && (if pix then decOpen s e.1 (auNum e.2 a) a b else parseOpen s a b))) ||
    e.2.tan.run.any (fun r => decide (r.2.quarter = q) &&
      (if pix then decOpen s e.1 r.1 (shadowAu e.2 r.1) r.2 else parseOpen s (shadowAu e.2 r.1) r.2)))

/-- Does a gating group stand idle: every engine waits, and no unit is ready for its role (R520)? -/
def gangIdle (s : State) (e : Nat) : Bool :=
  (gangOf s e).all (fun k => decide ((engOf s k).state = 2) && !roleReady s (k / 32) (roleNow s k))

/-- ENGINE_GATE (R520): the group has waited for IDLE_US with no ready unit for its role; an engine that holds a unit keeps it ungated. -/
def execEngineGate (engine : Nat) (s : State) : Host.Outcome State Fault Refusal :=
  live s (fun s =>
    if s.plan.cfg.gating ≠ 1 ∨ 512 ≤ engine ∨ gangIdle s engine = false then s
    else { s with pwr := { s.pwr with gated := (gangOf s engine).foldl addS s.pwr.gated } })

/-- Does a Quarter want one more group of a role: a unit is ready and no ungated engine of the role waits (R520)? -/
def gangWanted (s : State) (e : Nat) : Bool :=
  let role := roleNow s e
  decide (2 ≤ role) || (roleReady s (e / 32) role && !(List.range 32).any (fun k => engineFree s (e / 32 * 32 + k) role))

/-- ENGINE_UNGATE (R519, R520): the group is back with its stores kept. -/
def execEngineUngate (engine : Nat) (s : State) : Host.Outcome State Fault Refusal :=
  live s (fun s =>
    if 512 ≤ engine ∨ gangWanted s engine = false then s else { s with pwr := { s.pwr with gated := (gangOf s engine).foldl remS s.pwr.gated } })

/-! ### Deadline fallback -/

/-- DEADLINE reaches a task (R115, R176): an unfinished band is completed in fallback mode; a fork is left with its branch at the higher QP. -/
def deadlineBand (b : Band) : Band :=
  if b.fb then b
  else if b.st = 1 then { b with deadline := true }
  else if b.st = 2 ∧ b.q1.isSome = true then { b with deadline := true }
  else b

/-- Is a band unfinished as the Guard window opens? -/
def unfinished (b : Band) : Bool := !b.fb && (decide (b.st = 1) || (decide (b.st = 2) && b.q1.isSome))

/-- Is a band an unresolved fork (R176)? -/
def openFork (b : Band) : Bool := unfinished b && b.q1.isSome

/-- The units of band k + 1's first block row, which read band k's work buffer, are cancelled with their outputs (R174, R176); they run again unless
DEADLINE has reached their band. -/
def cancelNext (h num k : Nat) (s : State) : State :=
  match (look s.sessions h).bind (fun x => (frameOf x num).bind (fun f => (look f.bands (k + 1)).map (fun b => (x, f, b)))) with
  | none => s
  | some (x, f, b) =>
    if b.st ≠ 1 ∨ b.fb = true then s
    else
      let s1 := setBand h num (k + 1) (fun b => { b with
        units := b.units.filter (fun u => decide (colBlocks x.stream.codec f.width u.2.1 ≤ u.2.2.1)) }) s
      pendEvent true (fun u => decide (u.handle = h) && decide (u.frame = num) && decide (u.band = k + 1) &&
        decide (u.block < colBlocks x.stream.codec f.width u.col)) s1

/-- DEADLINE reaches the decode bands that have not committed (R274). -/
def decodeDeadlines (s : State) : State :=
  { s with sessions := s.sessions.map (fun e =>
      (e.1, { e.2 with dec := { e.2.dec with queue := e.2.dec.queue.map (fun a => { a with run := a.run.map (fun b => { b with deadline := true }) }) } })) }

/-- Every unfinished task receives DEADLINE (R22, R115, R274). PIX engines see it at their next commit mark (R299). An unresolved fork is resolved to its
branch at the higher QP: the work buffers of the other return, and R174 applies to the next band (R175, R176). -/
def deadlines (s : State) : State :=
  let hit := fun (u : UnitRef) => match look s.sessions u.handle with
    | none => false
    | some x =>
      if x.kind = 1 then (decBandOf x u.frame u.band).isSome
      else match (frameOf x u.frame).bind (fun f => look f.bands u.band) with | some b => unfinished b | none => false
  let s1 := decodeDeadlines { s with sessions := s.sessions.map (fun e =>
    (e.1, { e.2 with frames := e.2.frames.map (fun f => { f with bands := f.bands.map (fun b => (b.1, deadlineBand b.2)) }) })) }
  let s2 := pendEvent false hit s1
  s.sessions.foldl (fun s e => e.2.frames.foldl (fun s f => f.bands.foldl (fun s b =>
    if unfinished b.2 then
      settleCoded e.1 f.num b.1 (if openFork b.2 then freeWork (tagIs e.1 f.num b.1 0) (cancelNext e.1 f.num b.1 s) else s)
    else s) s) s) s2

end Sys2Proof.Machine
end

