-- ==== Sys2Proof/Machine/Commit.lean ====
section
/-! DEFINITION. The bucket boundary (R203 to R205, R223, R224), the checks and commits of bands (R167 to R180, R199 to R212, R235, R250), the
notices of R386 and R387, and effort (R111, R117). -/

namespace Sys2Proof.Machine

open Sys2Proof

/-! ### Replay -/

/-- The units of band k + 1 that read band k's buffer are cancelled and run again (R174, R210); the replayed block rows are counted. -/
def replayNext (h num k : Nat) (s : State) : State :=
  match (look s.sessions h).bind (fun x => (frameOf x num).bind (fun f => (look f.bands (k + 1)).map (fun b => (x, f, b)))) with
  | none => s
  | some (x, f, b) =>
    if b.st ≠ 1 ∨ b.fb = true then s
    else
      let n := ((bandTags h num (k + 1) 0 (tileCols x.stream.codec f.width)).filter (rowBegun s b)).length
      stat h 11 n (cancelNext h num k { s with rc := { s.rc with replay := up s.rc.replay n } })

/-! ### A commit -/

/-- The first column of tile column i in blocks (R603). -/
def colStart (codec width i : Nat) : Nat := i * blocksWide codec width / tileCols codec width

/-- What a band commits: the branch, its quantiser, the bytes of its tile rows with the coder states they leave, its fallback blocks and the leftmost
column that holds one. -/
structure Result where
  branch : Nat
  q      : Nat
  rows   : List (List Byte)
  ends   : List (List Byte)
  blocks : Nat
  left   : Option Nat
  deriving DecidableEq, Repr

/-- The leftmost fallback column of a tile row whose last n blocks in coding order are fallback blocks (R115, R198). -/
def rowLeft (x : Session) (f : Frame) (col n : Nat) : Option Nat :=
  if n = 0 then none
  else
    let w := colBlocks x.stream.codec f.width col
    some (colStart x.stream.codec f.width col + (w - min n w))

/-- The result of a branch of a band that ENT has coded. -/
def branchResult (x : Session) (f : Frame) (b : Band) (branch : Nat) : Result :=
  let cols := List.range (tileCols x.stream.codec f.width)
  let at_ := fun c => lookD b.rows (rowKey branch c) ([], 0)
  { branch := branch, q := if branch = 1 then b.q1.getD b.q else b.q, rows := cols.map (fun c => (at_ c).1),
    ends := cols.map (fun c => lookD b.ends (rowKey branch c) []), blocks := (cols.map (fun c => (at_ c).2)).sum,
    left := (cols.filterMap (fun c => rowLeft x f c (at_ c).2)).head? }

/-- The result of a band coded wholly in fallback mode (R192, R210). -/
def fallbackResult (x : Session) (f : Frame) (k : Nat) (b : Band) (res : BandResult) : Result :=
  let cols := List.range (tileCols x.stream.codec f.width)
  { branch := 0, q := b.q, rows := cols.map (fun c => res.rows.getD c []), ends := cols.map (fun c => res.states.getD c []),
    blocks := bandBlocks (frameStream x f) k, left := some 0 }

/-- The stripe of band k (R187). -/
def stripeOf (x : Session) (f : Frame) (k : Nat) : Nat := (k * stripes (frameStream x f) x.rate.rateMax - 1) / bandsOf f.height

/-- The bytes that the tiles of band k hold from the bands before it (R196): those of the committed bands of its stripe, by tile column. -/
def tileBefore (x : Session) (f : Frame) (k : Nat) : List (List (List Byte)) :=
  (List.range (tileCols x.stream.codec f.width)).map (fun c =>
    ((List.range (k - 1)).filter (fun j => decide (stripeOf x f (j + 1) = stripeOf x f k))).map (fun j =>
      match look f.bands (j + 1) with | none => [] | some b => (lookD b.rows (rowKey 0 c) ([], 0)).1))

/-- What a band adds to the frame's coded data (R185, R186, R196, R200): the frame-level units, then the coded units; their headers; the coded units
completed; and the growth in bits without, and of, the frame-level units. -/
structure Coded where
  headers : List Header
  front   : List Byte
  bytes   : List Byte
  units   : Nat
  coded   : Nat
  deriving DecidableEq, Repr

/-- The bits of the frame-level units (R200). -/
def Coded.frameBits (c : Coded) : Nat := 8 * c.front.length

/-- The quantiser of the band before, and of the frame's first band (R164). -/
def beforeQ (f : Frame) (k q : Nat) : Nat := if k = 1 then q else match look f.bands (k - 1) with | none => q | some b => b.q

/-- The coded data of band k with a result. -/
def codedOf (h : Nat) (s : State) (x : Session) (f : Frame) (k : Nat) (r : Result) (frame : List (List Byte)) : Coded :=
  let front := if k = 1 then frameHeaders h x f r.q f.ibc (metaBlock s (frameBufs x f) f.ops) else []
  let (units, bytes, bits) := frameRows x f k r.rows (tileBefore x f k)
  { headers := front ++ bandHeaders h x f k r.q (beforeQ f k r.q) (if k = 1 then r.q else firstQ f), front := frameBytes x.stream.codec front frame,
    bytes := bytes, units := units, coded := bits }

/-- The filler of CBR in bits (R206), of a band that passes its check: the smallest whole unit that brings F to at least D. -/
def fillerBits (x : Session) (f : Frame) (b : Band) (k full : Nat) : Nat :=
  if b.nocheck = false ∧ x.rate.mode = 0 ∧ k = bandsOf f.height ∧ full < x.rate.drain then
    max (match x.stream.codec with | 0 => 16 | 1 => 56 | _ => 48) (cdiv (cdiv (x.rate.drain - full) 256) 8 * 8)
  else 0

/-- A committed band keeps what its branch leaves: its quantiser, bytes, coder states and decisions, as branch 0; the loser's are discarded (R175,
R191). -/
def commitRows (r : Result) (b : Band) : Band :=
  { b with
    st := 3, q := r.q, rows := (List.range r.rows.length).map (fun c => (rowKey 0 c, (r.rows.getD c [], 0))),
    ends := (List.range r.ends.length).map (fun c => (rowKey 0 c, r.ends.getD c [])),
    blocks := (b.blocks.filter (fun d => decide (d.branch = r.branch))).map (fun d => { d with branch := 0 }) }

/-- The rate state, counters and statistics of a commit (R116, R117, R202, R206, R217, R400). -/
def accountBand (h num k : Nat) (b : Band) (r : Result) (c : Coded) (s : State) : State :=
  match (look s.sessions h).bind (fun x => (frameOf x num).map (fun f => (x, f))) with
  | none => s
  | some (x, f) =>
    let full := x.rate.full + (c.coded + c.frameBits) * 256
    let pad := fillerBits x f b k full
    let bits := c.coded + c.frameBits + pad
    let rate0 := noteChi h x f k (if r.blocks = 0 then fixRate s h x f k r.q c.coded else { x.rate with qPrev := r.q })
    let inFb := b.deadline && b.cadence
    let cI := cdiv (f.wave * blocksWide x.stream.codec f.width) (max 1 x.ltr.waveLen)
    let again := decide (0 < f.wave) && (match r.left with | none => false | some l => decide (l ≤ cI))
    let s1 := setSess s h (fun x => { x with
      rate := { rate0 with full := full + pad * 256 }, recent := (inFb :: x.recent).take 1000, lastFb := if inFb then s.bell.num else x.lastFb,
      ltr := if again then { x.ltr with rewave := true } else x.ltr,
      metaLast := if c.headers.any (fun u => decide (u.unit = "metadata mastering display") || decide (u.unit = "metadata light level"))
        then metaBlock s (frameBufs x f) f.ops else x.metaLast })
    let s2 := setFrame h num (fun f => { f with
      bits := f.bits + bits, next := k + 1, anyFb := f.anyFb || decide (0 < r.blocks), headers := f.headers ++ c.headers }) s1
    let s3 := setBand h num k (commitRows r) s2
    let s4 := { s3 with rc := { s3.rc with filler := up s3.rc.filler (pad / 8), b1 := if r.branch = 1 then up s3.rc.b1 1 else s3.rc.b1 } }
    let s5 := stat h 14 (pad / 8) (stat h 10 r.branch (stat h 7 r.blocks (stat h 3 bits (stat h 2 1 s4))))
    let s6 := if 0 < r.blocks ∧ b.deadline = false then stat h 8 1 s5 else s5
    let s7 := if b.deadline then
        emit (.helmFallback h)
          (if b.cadence then
            stat h 5 1 (setQtr { s6 with sched := { s6.sched with fb := up s6.sched.fb 1 } } b.quarter (fun t => { t with fbCount := up t.fbCount 1 }))
           else stat h 6 1 { s6 with sched := { s6.sched with overFb := up s6.sched.overFb 1 } })
      else s6
    if x.tan.live ∨ s.plan.cfg.sample = 0 then s7
    else setQtr s7 x.quarter (fun t => { t with credit := min (t.credit + 1) (136 * s.plan.cfg.sample) })

/-- Extents filled by finalisation (R180): one at a time, with no promotion; a refusal loses the picture. -/
def fillExtents (h num n : Nat) (s : State) : State :=
  match n with
  | 0 => s
  | n + 1 =>
    match (look s.sessions h).bind (fun x => (frameOf x num).map (fun f => (x, f))) with
    | none => s
    | some (x, f) =>
      if 16 ≤ f.desc then s
      else
        match allocate (sessReq h) (classSize (extentClass f.width f.height)) false s with
        | (.ok w, s1) =>
          fillExtents h num n (setSess s1 h (fun x => { x with pics := alter x.pics f.desc (fun p => { p with extents := p.extents ++ [w] }) }))
        | (.error e, s1) => post x.fn 0 e (tokenOf h x.gen) [0, 0, 0, 0] (losePicture h num s1)

/-- The samples of the rows that band k's commit makes final (R167, R169): as many as the rows hold. -/
def finalOf (x : Session) (f : Frame) (k : Nat) (fin : List Nat) : Final :=
  let n := bandsOf f.height
  let l := finalLuma 64 f.height k n
  let c := finalChroma 64 f.height k n
  let count := (l.2 - l.1) * f.width + (c.2 - c.1) * (2 * cdiv f.width 2)
  { shape := { width := f.width, height := f.height, depth := x.stream.depth }, luma := l, chroma := c,
    fin := fin.take count ++ List.replicate (count - fin.length) 0 }

/-- The samples of a band's rows before the in-loop filters (R169). -/
def preOf (f : Frame) (k : Nat) (pre : List Nat) : List Nat :=
  let rows := bandRows f.height k
  let count := rows * f.width + cdiv rows 2 * (2 * cdiv f.width 2)
  pre.take count ++ List.replicate (count - pre.length) 0

/-- Finalisation of band k's commit (R167, R180 to R184): extents as its units fill them, the units with their index entries, the motion field of the
band, and SECTORS and Q in the descriptor. -/
def finalise (h num k q : Nat) (res : BandResult) (s : State) : State :=
  match (look s.sessions h).bind (fun x => (frameOf x num).bind (fun f => (look x.pics f.desc).map (fun p => (x, f, p)))) with
  | none => s
  | some (x, f, p) =>
    let fin := finalOf x f k res.fin
    let forms := unitForms fin res.lrc
    let at0 := nextSector fin.shape p.sectors
    let total := at0 + formSectors forms
    let size := classSize (extentClass f.width f.height)
    let s1 := fillExtents h num (cdiv (64 * total) size - p.extents.length) s
    match (look s1.sessions h).bind (fun x => (frameOf x num).bind (fun f => (look x.pics f.desc).map (fun p => (f, p)))) with
    | none => s1
    | some (g, p1) =>
      let decs := match look g.bands k with | none => [] | some b => b.blocks
      let s2 := writeMotion fin.shape p1.extents (bandMotion g k decs) (writeUnits p1.extents at0 forms s1)
      setSess s2 h (fun x => { x with pics := alter x.pics g.desc (fun p => { p with q := if k = 1 then q else p.q, sectors := total }) })

/-- The payload buffer of the bytes that a commit releases (R199): they are copied into it in stream order; the handle and how many bytes leave. -/
def releasePayload (h num : Nat) (data : List Byte) (s : State) : (Option Word × Nat) × State :=
  let bytes := data.length
  match (look s.sessions h).bind (fun x => (frameOf x num).map (fun f => (x, f))) with
  | none => ((none, 0), s)
  | some (x, f) =>
    if bytes = 0 ∨ f.dropped = true then ((none, 0), s)
    else
      match allocate (sessReq h) bytes true s with
      | (.ok w, s1) => ((some w, bytes), storeMem (bufAddr s1 (hClass w) (hIndex w)) data s1)
      | (.error e, s1) =>
        ((none, 0), post x.fn 0 e (tokenOf h x.gen) [0, 0, 0, 0] (losePicture h num (setFrame h num (fun f => { f with dropped := true }) s1)))

/-- A claim on a payload, where the pool grants it. -/
def claimFor (who : PoolReq) (w : Option Word) (s : State) : Option (Word × Nat) × State :=
  match w with
  | none => (none, s)
  | some w =>
    match claimBuf who w s with
    | (.ok t, s1) => (some (w, t), s1)
    | (.error _, s1) => (none, s1)

/-- The parts of a payload in the payload ring (R387): each of half a ring, the last with the rest. fuel bounds the number of parts. -/
def htParts (fuel half frame band flags bytes : Nat) (m : Mark) (claim : Option (Word × Nat)) : List HtPart :=
  match fuel with
  | 0 => []
  | fuel + 1 =>
    if bytes ≤ half then [{ frame := frame, band := band, flags := flags, bytes := bytes, mark := m, lastPart := true, payload := claim }]
    else { frame := frame, band := band, flags := flags + 32768, bytes := half, mark := m, lastPart := false, payload := none } ::
      htParts fuel half frame band flags (bytes - half) m claim

/-- Is a message the MIRROR of a record? -/
def mirrorOf (r : BandRec) (m : LinkOut) : Bool :=
  match m with
  | .mirror _ a _ _ _ _ _ _ => decide (a.frame = r.frame) && decide (a.band = r.band)
  | _ => false

/-- A MIRROR with the SRTP sender as it stands after the band's packets are built (R440). -/
def withSender (rtp : Rtp) (m : LinkOut) : LinkOut :=
  match m with
  | .mirror h a d i j r l _ => .mirror h a d i j r l rtp
  | m => m

/-- The MIRROR of a record leaves (R440), before the first packet of its band (R441). -/
def sendMirror (h : Nat) (r : BandRec) (rtp : Rtp) (s : State) : State :=
  match look s.sessions h with
  | none => s
  | some x =>
    match x.tan.unsent.find? (mirrorOf r) with
    | none => s
    | some m =>
      linkSend (withSender rtp m) (setSess { s with tandem := { s.tandem with cnt := bump s.tandem.cnt 0x40 1 } } h (fun x => { x with
        tan := { x.tan with unsent := x.tan.unsent.filter (fun a => !mirrorOf r a) } }))

/-- The record goes to the partner (R201, R440): a MIRROR, a claim on the payload until its ACK. Where the band has packets, the MIRROR waits for the
sequence numbers that they take (R441). -/
def mirrorRec (h : Nat) (r : BandRec) (s : State) : State :=
  match look s.sessions h with
  | none => s
  | some x =>
    let (c, s1) := claimFor { kind := 4, index := 0 } r.payload s
    let f := frameOf x r.frame
    let m : LinkOut := .mirror h r ((f.map (fun f => f.desc)).getD 16) (f.bind (fun f => f.ref)) (f.bind (fun f => f.slot)) x.rate x.ltr x.rtp
    let s2 := setSess s1 h (fun x => { x with tan := { x.tan with
      acks := x.tan.acks ++ [(r.frame, r.band, s.bell.num)],
      held := match c with | none => x.tan.held | some c => x.tan.held ++ [(r.frame, r.band, c.1, c.2)],
      unsent := x.tan.unsent ++ [m] } })
    if x.flows.isEmpty then sendMirror h r x.rtp s2 else s2

/-- The record goes to the host's payload ring (R387). -/
def hostRec (h : Nat) (r : BandRec) (s : State) : State :=
  match (look s.sessions h).bind (fun x => x.ht) with
  | none => s
  | some t =>
    let (c, s1) := claimFor (sessReq h) r.payload s
    let parts := htParts (r.bytes / max 1 (t.size / 2) + 2) (t.size / 2) r.frame r.band r.flags r.bytes r.mark c
    setSess s1 h (fun x => { x with ht := some { t with waiting := t.waiting ++ parts } })

/-- The committed-band record is made and goes to each destination (R169, R200, R201). -/
def recordBand (h num k : Nat) (b : Band) (r : Result) (payload : Option Word) (bytes : Nat) (dropped : Bool) (res : BandResult) (units bits : Nat)
    (s : State) : State :=
  match (look s.sessions h).bind (fun x => (frameOf x num).map (fun f => (x, f))) with
  | none => s
  | some (x, f) =>
    let o := frameStream x f
    let n := bandsOf f.height
    let t := stripes o x.rate.rateMax
    let m := nowMark s
    let flags := (if k = 1 then 1 else 0) + (if k = n then 2 else 0) + (if f.key then 4 else 0) + (if b.q1.isSome then 8 else 0) +
      (if 0 < r.blocks then 16 else 0) + (if b.deadline then 32 else 0) + (if dropped then 64 else 0)
    let rec0 : BandRec :=
      { ts := f.ts, frame := num, band := k, flags := flags, branch := r.branch, q := r.q, fbBlocks := r.blocks, bits := bits, payload := payload,
        bytes := bytes, off := f.off, mark := m,
        pre := crc32c (sampleBytes x.stream.depth (preOf f k res.pre)), final := crc32c (sampleBytes x.stream.depth (finalOf x f k res.fin).fin),
        stripe := if t = 0 then 65535 else (k * t - 1) / n, units := units, userTag := x.userTag }
    let s1 := setFrame h num (fun f => { f with off := f.off + bytes }) (stamp s)
    let s2 := if x.flows.isEmpty then s1 else setSess s1 h (fun x => { x with recs := x.recs ++ [rec0] })
    let s3 := if f.mirrored then mirrorRec h rec0 s2 else s2
    let s4 := hostRec h rec0 s3
    match payload with
    | some w => if x.flows.isEmpty then drop (sessReq h) w 0 s4 else s4
    | none => s4

/-- The source of a committed frame is given up (R136, R144, R145, R265): the claims on a protected picture, the protected surface, and the surface set
of a host frame. -/
def freeSource (h : Nat) (x : Session) (f : Frame) (s : State) : State :=
  let s1 := f.comp.foldl (fun s c => drop (sessReq h) c.1 c.2 s) s
  let s2 := dropAll (sessReq h) (lookD x.hostSet f.num []) (dropAll (sessReq h) f.surface s1)
  setSess s2 h (fun x => { x with
    frames := x.frames.map (fun g => if g.num = f.num then { g with comp := [], surface := [] } else g),
    hostSet := x.hostSet.filter (fun e => decide (e.1 ≠ f.num)) })

/-- A frame leaves the list of those in progress, and with it its source and the bindings that no other frame uses. -/
def dropFrame (h num : Nat) (s : State) : State :=
  match (look s.sessions h).bind (fun x => (frameOf x num).map (fun f => (x, f))) with
  | none => s
  | some (x, f) =>
    sweepPics h (freeBinds h (setSess (freeSource h x f s) h (fun x => { x with frames := x.frames.filter (fun g => decide (g.num ≠ num)) })))

/-- The last band of a frame has committed (R77, R178, R235, R310): its picture becomes LAST and enters its slot, or, not retained, leaves both
empty. -/
def endFrame (h num : Nat) (s : State) : State :=
  match (look s.sessions h).bind (fun x => (frameOf x num).map (fun f => (x, f))) with
  | none => s
  | some (x, f) =>
    let kept := decide (f.desc < 16)
    let slots := match f.slot with
      | none => x.ltr.slots
      | some i => if kept then put x.ltr.slots i f.desc else del x.ltr.slots i
    let s1 := setSess s h (fun x => { x with
      pics := if kept then alter x.pics f.desc (fun p => { p with whole := true }) else x.pics,
      ltr := { x.ltr with slots := slots, last := if kept then some f.desc else none },
      idleFrom := some s.bell.num,
      doneWait := x.doneWait ++ [(num, f.bits, (if f.key then 1 else 0) + (if f.anyFb then 2 else 0) + (if f.dropped then 4 else 0) +
        (if f.mirrored then 8 else 0))] })
    let s2 := stat h 1 1 s1
    if f.sampled then sweepPics h (freeBinds h (freeSource h x f s2)) else dropFrame h num s2

/-- A band is to be coded wholly in fallback mode, with no check (R210, R212). -/
def wholeFallback (codec : Nat) (b : Band) : Band :=
  { b with st := 1, fb := true, nocheck := true, q := fbQ codec, q1 := none, units := [], ent := [], rows := [], starts := [], ends := [], blocks := [],
           fbRows := [] }

/-- Direct fallback of the next band, tested when a band commits (R212): its units are cancelled and not run again. -/
def testNext (h num k : Nat) (s : State) : State :=
  match (look s.sessions h).bind (fun x => (frameOf x num).bind (fun f => (look f.bands (k + 1)).map (fun b => (x, f, b)))) with
  | none => s
  | some (x, f, b) =>
    if (b.st = 1 ∨ b.st = 2) ∧ b.fb = false ∧ b.ent = [] ∧ overBudget h x f (k + 1) 0 = true then
      countDirect h (pendEvent true (fun u => decide (u.handle = h) && decide (u.frame = num) && decide (u.band = k + 1))
        (freeWork (tagIs h num (k + 1) 1) (setBand h num (k + 1) (wholeFallback x.stream.codec) s)))
    else s

/-- The work buffers that a commit of band k of n frees (R171, R175): those of the losing branch, those of the band above, whose last rows are final and
which no unit reads any more, and with the last band its own. -/
def freeAt (h num k n branch : Nat) (s : State) : State :=
  freeWork (fun t => decide (t.handle = h) && decide (t.frame = num) &&
    ((decide (t.band = k) && decide (t.branch ≠ branch)) || decide (t.band < k) || (decide (t.band = k) && decide (k = n)))) s

/-- Band k commits (R102, R202). -/
def commitBand (h num k : Nat) (b : Band) (r : Result) (res : BandResult) (s : State) : State :=
  match (look s.sessions h).bind (fun x => (frameOf x num).map (fun f => (x, f))) with
  | none => s
  | some (x, f) =>
    let c := codedOf h s x f k r res.frame
    let pad := fillerBits x f b k (x.rate.full + (c.coded + c.frameBits) * 256)
    let s1 := freeAt h num k (bandsOf f.height) r.branch (accountBand h num k b r c s)
    let s2 := finalise h num k r.q res s1
    let ((w, n), s3) := releasePayload h num (c.front ++ c.bytes ++ fillerUnit x.stream.codec (pad / 8)) s2
    let s4 := recordBand h num k b r w n f.dropped res (if w.isNone then 0 else c.units) (c.coded + c.frameBits + pad) s3
    let s5 := testNext h num k s4
    if k = bandsOf f.height then endFrame h num s5 else s5

/-- The band whose check or commit comes next (R207): of the first frame that has a band left, once its boundary has come. -/
def nextBand (x : Session) : Option (Frame × Nat × Band) :=
  match x.frames.find? (fun f => !frameOver f) with
  | none => none
  | some f => if f.bounded then (look f.bands f.next).map (fun b => (f, f.next, b)) else none

/-- Band k is rejected (R210): it is recoded in fallback mode, and the next band's units that read it run again. -/
def rejectBand (h num k : Nat) (codec : Nat) (s : State) : State :=
  let s1 := freeWork (tagIs h num k 1) (setBand h num k (wholeFallback codec) s)
  replayNext h num k (stat h 12 1 { s1 with rc := { s1.rc with reject := up s1.rc.reject 1 } })

/-- The check of an encode band (R207, R209), in the Bell in which it was dispatched (R25): the branches in order against the budget. -/
def checkBand (h : Nat) (x : Session) (res : BandResult) (s : State) : State :=
  match nextBand x with
  | none => s
  | some (f, k, b) =>
    if b.st ≠ 2 ∨ b.bell ≠ s.bell.num then s
    else
      let budget := budgetOf x f k 0
      let bits := fun (br : Nat) => let c := codedOf h s x f k (branchResult x f b br) res.frame; c.coded + c.frameBits
      match (branches b).find? (fun br => decide (bits br ≤ budget)) with
      | none => rejectBand h f.num k x.stream.codec s
      | some br =>
        let s1 := if br = 1 ∧ b.deadline = false then replayNext h f.num k s else s
        commitBand h f.num k b (branchResult x f b br) res s1

/-- FALLBACK_BAND_COMMIT (R25, R170, R192, R194, R195, R210, R212): a band coded wholly in fallback mode commits with no check; its bits lie within the
bound of R194, so F stays at or below B (R202). Its tile rows hold work buffers as others do. -/
def execFallbackBandCommit (handle : Nat) (res : BandResult) (s : State) : Host.Outcome State Fault Refusal :=
  onSession handle s (fun x s =>
    match nextBand x with
    | none => s
    | some (f, k, b) =>
      let r := fallbackResult x f k b res
      let c := codedOf handle s x f k r res.frame
      let tags := bandTags handle f.num k 0 (tileCols x.stream.codec f.width)
      if b.st = 1 ∧ b.nocheck = true ∧ b.bell = s.bell.num ∧ x.kind = 0 ∧ workUsed s b.quarter + workLacks s b.quarter tags ≤ 64 ∧
          c.coded * 256 ≤ bandBound (frameStream x f) x.rate.rateMax f.key k ∧
          x.rate.full + (c.coded + c.frameBits) * 256 ≤ x.rate.size then
        commitBand handle f.num k b r res (takeWorks b.quarter tags (setBand handle f.num k (fun b => { b with
          blocks := (List.range (tileCols x.stream.codec f.width)).flatMap (fun c => (rowUnits x f k c).map (fallbackDec x f 0)) }) s))
      else s)

/-! ### The bucket boundary -/

/-- The pacer rate of a flow in b/s (R418). -/
def paceRate (s : State) (rate : Nat) (fl : Flow) : Nat :=
  if fl.adapt then
    let e := match fl.eRate with
      | none => rate
      | some (e, b) => if bellsFrom b s.bell.num ≤ fld s.rc.adapt 7 0 * baseOf s / 100 then min rate e else rate
    min (max (fl.pct * e / 100) (fl.paceMin * 100000)) (fl.paceMax * 100000)
  else fl.paceMax * 100000

/-- Each RECEIVER flow of a session is given its pacer rate; it applies at the flow's next refill (R417, R418). -/
def paceFlows (x : Session) (s : State) : State :=
  { s with net := { s.net with flows := x.flows.foldl (fun m i => alter m i (fun fl => { fl with rateNext := some (paceRate s x.rate.rate fl) })) s.net.flows } }

/-- A new phase or frame rate holds for the frames from the boundary on (R106, R107): their slots 0 and F. -/
def rephase (h : Nat) (s : State) : State :=
  match look s.sessions h with
  | none => s
  | some x =>
    let bells := framesF s x.stream.fps
    if x.frames.all (fun f => f.bounded || decide (f.bells = bells)) then s
    else
      let r := x.frames.foldl (fun (a : List Frame × Option (BitVec 40)) f =>
        if f.bounded || frameOver f then (a.1 ++ [f], a.2)
        else let z := slotZero (eligBell s x) (x.phase.getD 0) bells a.2; (a.1 ++ [{ f with slot0 := z, bells := bells }], some z)) ([], none)
      setSess s h (fun x => { x with frames := r.1, zeroLast := r.2.orElse (fun _ => x.zeroLast) })

/-- CONFIGURE group 0 at the frame boundary of an ACTIVE session (R73, R107, R111): a change of cost is tested first; where nothing fits the old
configuration stays and 0x020A is reported. -/
def boundaryStream (h : Nat) (s : State) : State :=
  match look s.sessions h with
  | none => s
  | some x =>
    match x.newStream with
    | none => s
    | some o =>
      let y := applyStream o x
      if x.newOk then
        let e := x.effortTo.getD y.effort
        let s1 := sweepPics h { s with sessions := put s.sessions h { y with effort := e, effortTo := none, newOk := false } }
        rephase h (givePhase h { loadOf s y with effort := e } (if e = x.effort then s1 else stat h 31 1 s1))
      else if y.stream.fps = x.stream.fps ∧ y.effort = x.effort then sweepPics h { s with sessions := put s.sessions h y }
      else
        let l := { loadOf s y with effort := y.effort }
        let own := planQuarter x
        match firstFit s (some h) l y.phase (own :: (placeOrder s).filter (fun q => decide (q ≠ own))) (effortsDown l.effort (min l.effort o.effortMin)) with
        | none => notice h 0x020A (setSess s h (fun x => { x with newStream := none }))
        | some (q, e) =>
          let y1 := { y with effort := e, effortTo := none, moveTo := if q = own then y.moveTo else some q }
          let s1 := { s with sessions := put s.sessions h y1 }
          rephase h (givePhase h { l with effort := e } (sweepPics h (if e = x.effort then s1 else stat h 31 1 s1)))

/-- A waiting effort comes into force (R117). -/
def boundaryEffort (h : Nat) (s : State) : State :=
  match look s.sessions h with
  | none => s
  | some x =>
    match x.effortTo with
    | none => s
    | some e =>
      let s1 := setSess s h (fun x => { x with effort := e, effortTo := none })
      if e = x.effort then s1 else stat h 31 1 s1

/-- The rate part of a boundary (R203 to R205, R208, R223, R224, R226): the bounds and configuration that wait, the rate, D, B and F. -/
def boundaryRate (s : State) (x : Session) (f : Frame) : Session :=
  let r0 := match x.newBounds with | none => x.rate | some o => takeBounds o x.rate
  let cfg := x.newRate.getD x.rateCfg
  let r1 := { resolveRate s x.stream.codec cfg r0 with restart := r0.restart || restarts x.rateCfg cfg, pq := r0.pqNext }
  let fps := x.stream.fps
  let r2 := growRate s fps r1
  let r3 := takeRate fps (phi (frameStream x f) r2.rateMax f.key r2.pq) r2
  { x with rate := drainBucket fps r3, rateCfg := cfg, newRate := none, newBounds := none }

/-- BUCKET_BOUNDARY (R203). -/
def execBucketBoundary (handle : Nat) (s : State) : Host.Outcome State Fault Refusal :=
  onSession handle s (fun x s =>
    match x.frames.find? (fun f => !frameOver f) with
    | none => s
    | some f =>
      if f.bounded ∨ x.kind ≠ 0 then s
      else
        let s1 := boundaryEffort handle (boundaryStream handle s)
        match look s1.sessions handle with
        | none => s1
        | some y0 =>
          let y := match y0.newRes with | none => y0 | some o => { y0 with ltr := takeRes y0.stream.fps o y0.ltr, newRes := none }
          let z := boundaryRate s1 y f
          let z1 := { z with frames := z.frames.map (fun g => if g.num = f.num then { g with bounded := true } else g) }
          paceFlows z1 { s1 with sessions := put s1.sessions handle z1 })

/-! ### Notices -/

/-- FRAME_DONE (R27, R386, R444): posted once the partner has acknowledged every band of a live shadow's frame. -/
def execFrameDone (handle : Nat) (s : State) : Host.Outcome State Fault Refusal :=
  onSession handle s (fun x s =>
    match x.doneWait with
    | [] => s
    | (num, bits, flags) :: rest =>
      let live := decide (8 ≤ flags) && x.tan.live
      if live && x.tan.acks.any (fun a => decide (a.1 = num)) then s
      else
        let m := nowMark s
        enqueueCqe x.fn x.openCq
          { r0 := tokenOf handle x.gen, r1 := BitVec.ofNat 32 num, r2 := BitVec.ofNat 32 bits,
            r3 := BitVec.ofNat 32 (flags % 8 + (if live then 8 else 0)), mark := some m, cid := 0xFFFF, status := 0, opcode := 0x7E,
            cmdRing := x.hdr.ring, counts := false, bytes := none }
          (stamp (setSess s handle (fun x => { x with doneWait := rest }))))

/-- BAND_DONE (R387): the next part is written when the ring has room, and its notice joins the completion ring; the claim goes with the last
part. -/
def execBandDone (handle : Nat) (s : State) : Host.Outcome State Fault Refusal :=
  onSession handle s (fun x s =>
    match x.ht with
    | none => s
    | some t =>
      match t.waiting with
      | [] => s
      | p :: rest =>
        if t.w + p.bytes - t.consumed ≤ t.size then
          let s1 := emit (.hostPayload handle (t.w % max 1 t.size) p.bytes)
            (setSess s handle (fun x => { x with ht := some { t with w := t.w + p.bytes, waiting := rest } }))
          let s2 := match p.payload with | none => s1 | some c => drop (sessReq handle) c.1 c.2 s1
          enqueueCqe t.fn t.cq
            { r0 := tokenOf handle x.gen, r1 := BitVec.ofNat 32 p.frame, r2 := BitVec.ofNat 32 (t.w % max 1 t.size), r3 := BitVec.ofNat 32 p.bytes,
              mark := some p.mark, cid := BitVec.ofNat 16 p.band, status := BitVec.ofNat 16 p.flags, opcode := 0x7F, cmdRing := t.cmdRing,
              counts := false, bytes := some (handle, p.bytes) } s2
        else s)

/-! ### Effort -/

/-- EFFORT_LOWER (R117): the in-cadence fallback bands of the last 1,000 committed bands reach FALLBACK_PERMIL. -/
def execEffortLower (handle : Nat) (s : State) : Host.Outcome State Fault Refusal :=
  onSession handle s (fun x s =>
    if bit s.sched.effort 0 && decide (x.kind = 0) && decide (x.state = 2) && x.effortTo.isNone && decide (x.stream.effortMin < x.effort) &&
        decide (s.plan.cfg.permil ≤ (x.recent.filter (fun b => b)).length) then
      setSess s handle (fun x => { x with effortTo := some (x.effort - 1) })
    else s)

/-- EFFORT_RAISE (R111, R117): only at the raised effort, only on the session's Quarter. -/
def execEffortRaise (handle : Nat) (s : State) : Host.Outcome State Fault Refusal :=
  onSession handle s (fun x s =>
    if bit s.sched.effort 0 && decide (x.kind = 0) && decide (x.state = 2) && x.effortTo.isNone && decide (x.effort < x.stream.effortMax) &&
        decide (fld s.sched.effort 31 16 ≤ bellsFrom x.lastFb s.bell.num) &&
        admits s (planQuarter x) (some handle) { loadOf s x with effort := x.effort + 1 } x.phase then
      setSess s handle (fun x => { x with effortTo := some (x.effort + 1) })
    else s)

end Sys2Proof.Machine
end

