-- ==== Sys2Proof/Machine/SelfShadow.lean ====
section
/-! DEFINITION. The self-shadow's checks (R310 to R312). -/

namespace Sys2Proof.Machine

open Sys2Proof

/-- A Quarter is retired by an output check (R311, R312): the retirement is counted and the sessions placed on it with no shadow want a key
frame. -/
def retireByCheck (q h : Nat) (s : State) : State :=
  let s1 := raise (winQtr q) 2 0 false (fun s => s) (retireQuarter q s)
  let s2 := setQtr s1 q (fun t => { t with shMism := up t.shMism 1 })
  wantKey h { s2 with sessions := s2.sessions.map (fun e =>
    (e.1, if e.2.quarter = q ∧ e.2.tan.live = false then { e.2 with ltr := { e.2.ltr with key := true } } else e.2)) }

/-- The Quarters whose SPARE engine decodes a sample of a session. -/
def shadowsOf (s : State) (h : Nat) : List Nat := (s.quarters.filter (fun e => decide (e.2.shadow = some h))).map (fun e => e.1)

/-- The SPARE engines of a sample are free again. -/
def endSample (h : Nat) (s : State) : State :=
  let s1 := (shadowsOf s h).foldl (fun s q => setQtr s q (fun t => { t with shadow := none })) s
  let s2 := setSess s1 h (fun x => { x with frames := x.frames.map (fun f => { f with sampled := false }) })
  match look s.sessions h with
  | none => s2
  | some x => (x.frames.filter (fun f => f.sampled && frameOver f)).foldl (fun s f => dropFrame h f.num s) s2

/-- A sample is abandoned (R310). -/
def abandonSample (h : Nat) (s : State) : State :=
  match look s.sessions h with
  | none => s
  | some x =>
    if (shadowsOf s h).isEmpty then s
    else endSample h (setQtr s x.quarter (fun t => { t with shAband := up t.shAband 1 }))

/-- SELF_SHADOW_ABANDON (R310). -/
def execSelfShadowAbandon (handle : Nat) (s : State) : Host.Outcome State Fault Refusal := live s (abandonSample handle)

/-- SELF_SHADOW_CHECK (R311): second is what the decode on a third Quarter settles. -/
def execSelfShadowCheck (handle : Nat) (first : Verdict) (second : Second) (s : State) : Host.Outcome State Fault Refusal :=
  live s (fun s =>
    match look s.sessions handle, shadowsOf s handle with
    | some x, sh :: _ =>
      if first = .lost then abandonSample handle s
      else
        let s1 := endSample handle (setQtr s x.quarter (fun t => { t with shFrames := up t.shFrames 1 }))
        if first = .agree then s1
        else
          match second with
          | .firstShadow => retireByCheck x.quarter handle s1
          | .record => retireByCheck sh handle s1
          | .neither => retireByCheck sh handle (retireByCheck x.quarter handle s1)
    | _, _ => s)

end Sys2Proof.Machine
end

