-- ==== Sys2Proof/Machine/Net.lean ====
section
/-! DEFINITION. Flows (R406 to R413), shaping, pacing and scheduling (R416 to R421), policers and host receive queues (R423, R425), the Ethernet
ports and their clocks (R404, R426, R429, R587), and the keys that flows use (R549, R552). -/

namespace Sys2Proof.Machine

open Sys2Proof

/-- A flow changed. -/
def setFlow (s : State) (i : Nat) (g : Flow → Flow) : State := { s with net := { s.net with flows := alter s.net.flows i g } }

/-- A counter of the NET block, by its register offset (R429). -/
def netCount (off k : Nat) (s : State) : State := { s with net := { s.net with cnt := bump s.net.cnt off k } }

/-- A port. -/
def portOf (s : State) (p : Nat) : NetPort := lookD s.net.ports p NetPort.reset

/-- A port changed. -/
def setPort (s : State) (p : Nat) (g : NetPort → NetPort) : State := { s with net := { s.net with ports := put s.net.ports p (g (portOf s p)) } }

/-- MODE of a port. -/
def portMode (s : State) (p : Nat) : Nat := fld (portOf s p).cfg 1 0

/-- OVERHEAD of a port. -/
def overhead (s : State) (p : Nat) : Nat := fld (portOf s p).cfg 13 8

/-- Has a port an address of the family (R407, R431)? -/
def portHas (s : State) (p : Nat) (ipv6 : Bool) : Bool :=
  if ipv6 then (portOf s p).ipv6.any (fun e => decide (e.2 ≠ 0)) else decide ((portOf s p).ipv4 ≠ 0)

/-- NET as the pool's requester, and a flow as the producer of its packet queue. -/
def netReq : PoolReq := { kind := 3, index := 0 }
/-- See netReq. -/
def flowReq (i : Nat) : PoolReq := { kind := 3, index := i }

/-- A packet's drop is counted (R412, R419). -/
def countDrop (i n : Nat) (s : State) : State := netCount 0x24 n (setFlow s i (fun f => { f with drops := up f.drops n }))

/-! ### Shaping and scheduling -/

/-- The counted length of an RTP packet of a flow (R410, R416): payload, tag, RTP, UDP and IP headers, Ethernet header, tag and FCS, OVERHEAD. -/
def countedLen (s : State) (f : Flow) (bytes : Nat) : Nat :=
  bytes + 36 + (if f.ipv6 then 40 else 20) + 18 + (if f.vlanEn then 4 else 0) + overhead s f.port

/-- The packet at a flow's head leaves the queue, with the claim it carries (R412). -/
def popPacket (i : Nat) (s : State) : State :=
  match look s.net.flows i with
  | none => s
  | some f =>
    match f.pkts with
    | [] => s
    | p :: t =>
      let s1 := returnBeats i (flowReq i) 1 (setFlow s i (fun f => { f with pkts := t, start := none }))
      match p.claim with | none => s1 | some c => drop netReq c.1 c.2 s1

/-- Packets that reach the head of their flow too late are dropped (R419); n bounds how many. -/
def dropLate (n i : Nat) (s : State) : State :=
  match n with
  | 0 => s
  | n + 1 =>
    match (look s.net.flows i).bind (fun f => f.pkts.head?.map (fun p => (f, p))) with
    | none => s
    | some (f, p) =>
      if 0 < f.deadline ∧ f.deadline < bellsFrom p.commit s.bell.num then dropLate n i (countDrop i 1 (popPacket i s)) else s

/-- The key of a class's virtual time. -/
def vOf (s : State) (p cls : Nat) : Rat := lookD (portOf s p).v cls 0

/-- A head packet that is present and eligible takes its tags (R416, R421). -/
def tagHead (i : Nat) (s : State) : State :=
  match (look s.net.flows i).bind (fun f => f.pkts.head?.map (fun p => (f, p))) with
  | none => s
  | some (f, p) =>
    let l := countedLen s f p.bytes
    if f.start.isNone ∧ l * 1024 ≤ f.credit then
      let t := max f.fin (vOf s f.port f.cls)
      setFlow s i (fun f => { f with start := some t, fin := t + (l : Rat) / (max 1 f.weight : Rat) })
    else s

/-- A flow has a new head packet. -/
def newHead (i : Nat) (s : State) : State :=
  match look s.net.flows i with
  | none => s
  | some f => tagHead i (dropLate f.pkts.length i s)

/-- SHAPER_REFILL (R416, R417): 8 µs of the pacer rate in 1/1,024 byte, capped at BURST KiB. -/
def execShaperRefill (s : State) : Host.Outcome State Fault Refusal :=
  live s (fun s =>
    let refill := fun (f : Flow) =>
      let r := f.rateNext.getD f.rate
      { f with rate := r, rateNext := none, credit := min (f.credit + r * 1024 / 1000000) (f.burst * 1024 * 1024) }
    let s1 := { s with net := { s.net with flows := s.net.flows.map (fun (e : Nat × Flow) => if e.2.kind = 0 then (e.1, refill e.2) else e) } }
    s1.net.flows.foldl (fun (s : State) (e : Nat × Flow) => tagHead e.1 s) s1)

/-- POLICER_REFILL (R423). -/
def execPolicerRefill (s : State) : Host.Outcome State Fault Refusal :=
  live s (fun s => { s with net := { s.net with flows := s.net.flows.map (fun e =>
    (e.1, { e.2 with polCredit := min (e.2.polCredit + e.2.polRate) (e.2.polBurst * 1000000) })) } })

/-- The flow of a class and port that is sent next: the lowest start tag, the lower index on a tie (R421). -/
def nextFlow (s : State) (p cls : Nat) : Option (Nat × Flow × Rat) :=
  s.net.flows.foldl (fun (b : Option (Nat × Flow × Rat)) e =>
    match e.2.start with
    | none => b
    | some t =>
      if e.2.port = p ∧ e.2.cls = cls then
        match b with
        | none => some (e.1, e.2, t)
        | some (_, _, u) => if t < u then some (e.1, e.2, t) else b
      else b) none

/-- The SSRC of a flow's session (R409). -/
def flowSsrc (s : State) (f : Flow) : Word := ((f.session.bind (fun h => look s.sessions h)).map (fun x => x.rtp.ssrc)).getD 0

/-- A flow's head packet is sent (R413, R414, R416, R421): its RTP header has the flow's PT, the session's SSRC and the frame's timestamp (R409); its
SRTP index is the rollover counter and the sequence number. -/
def sendPacket (i : Nat) (f : Flow) (t : Rat) (s : State) : State :=
  match f.pkts.head? with
  | none => s
  | some p =>
    let l := countedLen s f p.bytes
    let s1 := setPort s f.port (fun x => { x with v := put x.v f.cls t })
    let s2 := setFlow s1 i (fun f => { f with
      credit := f.credit - l * 1024, tx := up f.tx 1, sent := true, hist := ((p.seq, p.ts, p.frame) :: f.hist).take 2048 })
    newHead i (popPacket i (netCount 0x20 1
      (emit (.packet f.port i (f.session.getD 0) f.pt (flowSsrc s f) p.ts (p.roc.toNat * 65536 + p.seq.toNat) p.marker p.bytes) s2)))

/-- A frame of class 7 is sent (R405, R415, R420, R446). -/
def sendCtl (p : Nat) (c : Ctl) (s : State) : State :=
  netCount 0x20 1 (match c with
    | .arp => emit (.arpReply p) s
    | .ptp => emit (.ptp p) s
    | .report i k => match look s.net.flows i with | none => s | some f => emit (.senderReport i (flowSsrc s f) k) s
    | .altHb b => emit (.altHeartbeat b) s)

/-- PORT_TX_SELECT (R420): class 7 first, then the classes from 6 down. -/
def execPortTxSelect (port : Nat) (s : State) : Host.Outcome State Fault Refusal :=
  live s (fun s =>
    if 2 ≤ port ∨ (portOf s port).link = 0 ∨ 4 ≤ s.pwr.state then s
    else
      match (portOf s port).ctl with
      | c :: t => sendCtl port c (setPort s port (fun x => { x with ctl := t }))
      | [] =>
        match [6, 5, 4, 3, 2, 1, 0].findSome? (fun c => nextFlow s port c) with
        | none => s
        | some (i, f, t) => sendPacket i f t s)

/-- A frame joins class 7 of a port. -/
def pushCtl (p : Nat) (c : Ctl) (s : State) : State := setPort s p (fun x => { x with ctl := x.ctl ++ [c] })

/-- A sender report goes to a flow; a paired session's index leaves on the link first (R441). -/
def reportFlow (i : Nat) (s : State) : State :=
  match look s.net.flows i with
  | none => s
  | some f =>
    let s1 := match f.session.bind (fun h => (look s.sessions h).map (fun x => (h, x))) with
      | some (h, x) => if x.tan.live then linkSend (.sync h x.frameNum) s else s
      | none => s
    pushCtl f.port (.report i f.srtcp) (setFlow s1 i (fun f => { f with srtcp := f.srtcp + 1 }))

/-- SENDER_REPORT_TIMER (R415): to each RECEIVER flow whose session has sent a packet in the interval. -/
def execSenderReportTimer (s : State) : Host.Outcome State Fault Refusal :=
  live s (fun s =>
    if fld s.net.ctrl 15 8 = 0 then s
    else
      let busy := (s.net.flows.filter (fun e => e.2.sent)).filterMap (fun e => e.2.session)
      let s1 := s.net.flows.foldl (fun s e =>
        if e.2.kind = 0 ∧ e.2.detach.isNone = true ∧ (match e.2.session with | none => false | some h => decide (h ∈ busy)) = true then reportFlow e.1 s
        else s) s
      { s1 with net := { s1.net with flows := s1.net.flows.map (fun e => (e.1, { e.2 with sent := false })) } })

/-! ### Building packets -/

/-- The packets of one commit for one flow (R411, R412): sizes in stream order, the sequence number of the first. -/
def buildPackets (r : BandRec) (b : BitVec 40) (claim : Option (Word × Nat)) (seq : BitVec 16) (roc : Word) (sizes : List Nat) : List Pkt :=
  match sizes with
  | [] => []
  | n :: t =>
    { seq := seq, roc := roc, ts := r.ts, frame := r.frame, bytes := n, marker := t.isEmpty && decide (r.flags / 2 % 2 = 1) && decide (r.flags / 64 % 2 = 0),
      commit := b, claim := if t.isEmpty then claim else none, last := t.isEmpty } ::
      buildPackets r b claim (seq + 1) (if seq = 0xFFFF then roc + 1 else roc) t

/-- One flow takes the packets of a commit, or counts them as dropped where the reservation is refused (R412). -/
def queueFlow (r : BandRec) (sizes : List Nat) (seq : BitVec 16) (roc : Word) (i : Nat) (s : State) : State :=
  match look s.net.flows i with
  | none => s
  | some f =>
    if f.detach.isSome ∨ older r.frame f.joined = true then s
    else
      match reserveBeats i (flowReq i) sizes.length s with
      | none => countDrop i sizes.length s
      | some s1 =>
        let (c, s2) := claimFor netReq r.payload s1
        let s3 := setFlow s2 i (fun f => { f with pkts := f.pkts ++ buildPackets r r.mark.bell c seq roc sizes })
        if f.pkts.isEmpty then newHead i s3 else s3

/-- PACKETIZE_BAND (R409 to R412; R449 and R489 stop it; the band's MIRROR leaves first, R441): pkts are the RTP payload sizes into which the payload format cuts the record's bytes. -/
def execPacketizeBand (handle : Nat) (pkts : List Nat) (s : State) : Host.Outcome State Fault Refusal :=
  onSession handle s (fun x s =>
    match x.recs with
    | [] => s
    | r :: t =>
      if pkts.any (fun n => decide (n = 0) || decide (x.rtp.payMax < n)) ∨ (r.payload.isNone = true ∧ pkts ≠ []) then s
      else if s.dev.safe ∨ (s.tandem.stopped = true ∧ x.tan.role ≠ 0) then s
      else
        let n := pkts.length
        let next := x.rtp.seq.toNat + n
        let rtp := { x.rtp with seq := BitVec.ofNat 16 next, roc := x.rtp.roc + BitVec.ofNat 32 (next / 65536), packets := x.rtp.packets + n }
        let s1 := x.flows.foldl (fun s i => if n = 0 then s else queueFlow r pkts x.rtp.seq x.rtp.roc i s) (sendMirror handle r rtp s)
        let s2 := setSess s1 handle (fun x => { x with recs := t, rtp := rtp })
        let s3 := stat handle 27 pkts.sum (stat handle 26 n s2)
        match r.payload with | none => s3 | some w => drop (sessReq handle) w 0 s3)

/-! ### Attaching and detaching -/

/-- Is a key slot in use by an attached flow or a BIND (R552)? -/
def keyInUse (s : State) (k : Nat) : Bool :=
  s.net.flows.any (fun e => decide (0 < e.2.suite) && decide (e.2.keySlot = k)) ||
  s.sessions.any (fun e =>
    (e.2.dec.bind.toList ++ e.2.dec.chunks.filterMap (fun c => c.bind)).any (fun b => decide (b.use = 0) && decide (b.keySlot = k)))

/-- Keys whose session is CLOSED are freed once nothing uses them (R552). -/
def sweepKeys (s : State) : State :=
  { s with sec := { s.sec with keys := s.sec.keys.filter (fun e => e.2.handle.isSome || keyInUse s e.1) } }

/-- Does a slot hold an SRTP master key and salt of a function that fits a suite (R407)? -/
def srtpKeyOk (s : State) (fn slot suite : Nat) : Bool :=
  match look s.sec.keys slot with
  | none => false
  | some k => decide (k.kind = 1) && decide (k.ownerFn = fn) && decide (k.len = if suite = 2 then 32 else 16)

/-- The lowest key that a map does not list, from i on. -/
def lowestFree {α : Type} (m : NMap α) (i : Nat) : Nat :=
  match m with
  | [] => i
  | (k, _) :: t => if k = i then lowestFree t (i + 1) else i

/-- The flow indices that commands waiting for the partner's reply will take (R437). -/
def promisedFlows (s : State) : List Nat :=
  s.tandem.waiting.filterMap (fun w => match w.cmd with | .attachReceiver _ _ => some w.index | _ => none)

/-- The lowest free flow index (R407). -/
def freeFlow (s : State) : Option Nat :=
  let i := lowestFree ((promisedFlows s).foldl (fun m i => put m i ()) (s.net.flows.map (fun e => (e.1, ())))) 0
  if i < 65536 then some i else none

/-- The match of a flow (R407, R422). -/
def sameMatch (f : Flow) (port vid localPort : Nat) (ip : BitVec 128) (remotePort : Nat) : Bool :=
  decide (f.port = port) && decide ((if f.vlanEn then f.vlan % 4096 else 0) = vid) && decide (f.localPort = localPort) && decide (f.remoteIp = ip) &&
  decide (f.remotePort = remotePort)

/-- VLAN's values (R406). -/
def vlanOk (on : Bool) (v : Nat) : Bool :=
  if on then decide (1 ≤ v % 4096) && decide (v % 4096 ≤ 4094) && decide (v / 4096 % 2 = 0) else decide (v = 0)

/-- An IPv4 address sits in the first four bytes of REMOTE_IP, which are its highest bits (R406). -/
def ipOk (ipv6 : Bool) (a : BitVec 128) : Bool := ipv6 || decide (a.toNat % 2 ^ 96 = 0)

/-- The values of a KIND 0 attach (R406). -/
def attachOk (o : AttachOps) : Bool :=
  decide (o.pad = 0) && decide (o.port ≤ 1) && decide (o.flags < 32) && decide (o.cls ≤ 6) && decide (o.rxq ≤ 7) && vlanOk (o.flags.testBit 1) o.vlan &&
  decide (1 ≤ o.localPort) && ipOk (o.flags.testBit 0) o.remoteIp && decide (1 ≤ o.remotePort) && decide (1 ≤ o.suite) && decide (o.suite ≤ 2) &&
  decide (96 ≤ o.pt) && decide (o.pt ≤ 127) && decide (1280 ≤ o.mtu) && decide (o.mtu ≤ 9000) && decide (1 ≤ o.weight) && decide (1 ≤ o.paceMax) &&
  decide (1 ≤ o.paceMin) && decide (o.paceMin ≤ o.paceMax) && decide (1 ≤ o.burst) &&
  (decide (o.pacePct = 0) || (decide (100 ≤ o.pacePct) && decide (o.pacePct ≤ 250))) && decide (1 ≤ o.policeRate) && decide (1 ≤ o.policeBurst)

/-- Does RXQ_EN name a bound queue of the function, or is it clear (R407)? -/
def rxqOk (s : State) (fn : Nat) (on : Bool) (q : Nat) : Bool := !on || (look s.net.rxqs (fn * 8 + q)).isSome

/-- Is a match taken (R407)? -/
def matchTaken (s : State) (port vid localPort : Nat) (ip : BitVec 128) (remotePort : Nat) : Bool :=
  s.net.flows.any (fun e => e.2.detach.isNone && sameMatch e.2 port vid localPort ip remotePort)

/-- The first check of R407 that a KIND 0 attach fails. -/
def attachCode (s : State) (fn : Nat) (x : Session) (o : AttachOps) : Option Code :=
  let v6 := o.flags.testBit 0
  let tag := o.flags.testBit 1
  if !bit s.net.ctrl 0 then some 0x0701
  else if !attachOk o then some 0x0702
  else if x.kind ≠ 0 then some 0x0708
  else if portMode s o.port = 0 ∨ portHas s o.port v6 = false then some 0x0709
  else if o.burst * 1024 < o.mtu + 18 + (if tag then 4 else 0) + overhead s o.port then some 0x070A
  else if !srtpKeyOk s fn o.keySlot o.suite then some 0x0706
  else if !rxqOk s fn o.rxqEn o.rxq then some 0x070B
  else if matchTaken s o.port (if tag then o.vlan % 4096 else 0) o.localPort o.remoteIp o.remotePort then some 0x0705
  else if 4096 ≤ x.flows.length then some 0x0704
  else if (freeFlow s).isNone then some 0x0703
  else none

/-- A flow that has just been attached; its credits are 0, as NET_FLOW_CREDIT resets (R429). -/
def newFlow (fn : Nat) (o : AttachOps) (n frame : Nat) : Flow :=
  { kind := 0, fn := fn, session := some n, port := o.port, ipv6 := o.flags.testBit 0, vlanEn := o.flags.testBit 1, rateSrc := o.flags.testBit 2,
    resSrc := o.flags.testBit 3, adapt := o.flags.testBit 4, srtp := true, cls := o.cls, rxq := o.rxq, rxqEn := o.rxqEn, vlan := o.vlan,
    localPort := o.localPort, remoteIp := o.remoteIp, remotePort := o.remotePort, nextHop := o.nextHop, keySlot := o.keySlot, suite := o.suite,
    pt := o.pt, mtu := o.mtu, weight := o.weight, deadline := o.deadline, paceMax := o.paceMax, paceMin := o.paceMin, burst := o.burst,
    pct := if o.pacePct = 0 then 150 else o.pacePct, polRate := o.policeRate * 64000, polBurst := o.policeBurst * 1024, rate := 0, rateNext := none,
    credit := 0, polCredit := 0, start := none, fin := 0, pkts := [], joined := frame, hist := [], srtcp := 0, sent := false, eRate := none, top := 0,
    seen := [], tx := 0, drops := 0, detach := none, flushed := false }

/-- A RECEIVER flow joins its session (R406, R410, R418): it gets packets from the next frame start and its pacer rate at once. -/
def joinFlow (i n fn : Nat) (o : AttachOps) (s : State) : State :=
  match look s.sessions n with
  | none => s
  | some x =>
    let f0 := newFlow fn o n x.frameNum
    let f := { f0 with rate := paceRate s x.rate.rate f0 }
    setSess { s with net := { s.net with flows := put s.net.flows i f } } n (fun x => { x with flows := x.flows ++ [i] })

/-- The values of a KIND 1 attach (R406). -/
def ingressOk (o : IngressOps) : Bool :=
  let tag := o.flags.testBit 1
  let srtp := o.flags.testBit 5
  decide (o.pad = 0) && decide (o.port ≤ 1) && decide (o.flags / 4 % 8 = 0) && decide (o.flags < 64) && decide (o.rxq ≤ 7) && vlanOk tag o.vlan &&
  decide (1 ≤ o.localPort) && ipOk (o.flags.testBit 0) o.remoteIp &&
  (if srtp then decide (1 ≤ o.suite) && decide (o.suite ≤ 2) else decide (o.keySlot = 0) && decide (o.suite = 0)) &&
  decide (64000 ≤ o.policeRate) && decide (o.policeRate ≤ 2000000000) && decide (2048 ≤ o.policeBurst) && decide (o.policeBurst ≤ 16777216)

/-- The first check of R407 that a KIND 1 attach fails. -/
def ingressCode (s : State) (fn : Nat) (token : Word) (o : IngressOps) : Option Code :=
  let tag := o.flags.testBit 1
  if !bit s.net.ctrl 0 then some 0x0701
  else if token ≠ 0 ∨ ingressOk o = false then some 0x0702
  else if portMode s o.port = 0 ∨ portHas s o.port (o.flags.testBit 0) = false then some 0x0709
  else if o.flags.testBit 5 && !srtpKeyOk s fn o.keySlot o.suite then some 0x0706
  else if !rxqOk s fn o.rxqEn o.rxq then some 0x070B
  else if matchTaken s o.port (if tag then o.vlan % 4096 else 0) o.localPort o.remoteIp o.remotePort then some 0x0705
  else if (freeFlow s).isNone then some 0x0703
  else none

/-- ATTACH_INGRESS (R406, R407). -/
def execAttachIngress (h : Hdr) (o : IngressOps) (s : State) : Host.Outcome State Fault Refusal :=
  plainCmd h s (fun s =>
    match ingressCode s h.fn h.token o, freeFlow s with
    | some c, _ => refuse h 0x0A c s
    | none, none => refuse h 0x0A 0x0703 s
    | none, some i =>
      let f : Flow :=
        { kind := 1, fn := h.fn, session := none, port := o.port, ipv6 := o.flags.testBit 0, vlanEn := o.flags.testBit 1, rateSrc := false,
          resSrc := false, adapt := false, srtp := o.flags.testBit 5, cls := 0, rxq := o.rxq, rxqEn := o.rxqEn, vlan := o.vlan,
          localPort := o.localPort, remoteIp := o.remoteIp, remotePort := o.remotePort, nextHop := 0, keySlot := o.keySlot, suite := o.suite,
          pt := 0, mtu := 0, weight := 0, deadline := 0, paceMax := 0, paceMin := 0, burst := 0, pct := 0, polRate := o.policeRate,
          polBurst := o.policeBurst, rate := 0, rateNext := none, credit := 0, polCredit := 0, start := none, fin := 0, pkts := [], joined := 0,
          hist := [], srtcp := 0, sent := false, eRate := none, top := 0, seen := [], tx := 0, drops := 0, detach := none, flushed := false }
      complete h 0x0A 0 [BitVec.ofNat 32 i] { s with net := { s.net with flows := put s.net.flows i f } })

/-- A ring is bound (R406, R425); the time since the last raise of the queue goes on where a binding is replaced. -/
def bindRxq (k : Nat) (o : RxqOps) (s : State) : State :=
  let old := look s.net.rxqs k
  let r : RxQ :=
    { entry := if o.entry = 0 then 2048 else 16384, entries := o.entries, addr := o.ringAddr, n := 0,
      held := (old.map (fun r => r.held)).getD false, more := (old.map (fun r => r.more)).getD false }
  { s with net := { s.net with rxqs := put s.net.rxqs k r } }

/-- BIND_RX_QUEUE (R406, R425): a second binding replaces the first from the next entry written. -/
def execBindRxQueue (h : Hdr) (o : RxqOps) (s : State) : Host.Outcome State Fault Refusal :=
  plainCmd h s (fun s =>
    if !bit s.net.ctrl 0 then refuse h 0x0A 0x0701 s
    else if h.token ≠ 0 ∨ o.pad ≠ 0 then refuse h 0x0A 0x0702 s
    else if o.queue < 8 ∧ o.entry ≤ 1 ∧ (List.range 11).any (fun k => decide (o.entries = 2 ^ (k + 6))) = true ∧ o.ringAddr.toNat % 4096 = 0 then
      complete h 0x0A 0 [] (bindRxq (h.fn * 8 + o.queue) o s)
    else refuse h 0x0A 0x070B s)

/-- UNBIND_RX_QUEUE (R408). -/
def execUnbindRxQueue (h : Hdr) (queue pad : Nat) (s : State) : Host.Outcome State Fault Refusal :=
  plainCmd h s (fun s =>
    if !bit s.net.ctrl 0 then refuse h 0x0B 0x0701 s
    else if h.token ≠ 0 ∨ pad ≠ 0 then refuse h 0x0B 0x0702 s
    else if (look s.net.rxqs (h.fn * 8 + queue)).isNone ∨ 8 ≤ queue then refuse h 0x0B 0x0707 s
    else complete h 0x0B 0 [] { s with net := { s.net with rxqs := del s.net.rxqs (h.fn * 8 + queue) } })

/-- A flow stops matching and its packets are flushed (R408); the index stays taken until the next Bell start. -/
def startDetach (i : Nat) (hdr : Option Hdr) (s : State) : State :=
  dropPackets i (setFlow s i (fun f => { f with detach := some hdr, flushed := true }))

/-- A flow's index is free; a key of a closed session that it used is freed with it (R408, R552). -/
def removeFlow (i : Nat) (s : State) : State :=
  match look s.net.flows i with
  | none => s
  | some f =>
    let s1 := { s with net := { s.net with flows := del s.net.flows i } }
    sweepKeys (match f.session with | none => s1 | some h => setSess s1 h (fun x => { x with flows := x.flows.filter (fun j => decide (j ≠ i)) }))

/-- DETACH_COMPLETE (R408): at the first Bell start after the flush ends. -/
def execDetachComplete (flow : Nat) (s : State) : Host.Outcome State Fault Refusal :=
  live s (fun s =>
    match look s.net.flows flow with
    | none => s
    | some f =>
      match f.detach with
      | none => s
      | some hdr =>
        if f.flushed && decide (s.bell.window = .dispatch) then
          let s1 := removeFlow flow s
          match hdr with | none => s1 | some h => complete h 0x0B 0 [] s1
        else s)

/-- Every flow of a session goes at its CLOSE (R76, R408). -/
def closeFlows (n : Nat) (s : State) : State :=
  match look s.sessions n with
  | none => s
  | some x => x.flows.foldl (fun s i => removeFlow i (dropPackets i s)) s

/-! ### Host receive queues -/

/-- A reading of a port's PTP clock, in ns since the PTP epoch: time, a free value (R426; log entry 4). -/
def readClock (p : Nat) (s : State) : Nat × State := (Config.ptpClock p s.freeCtr, { s with freeCtr := s.freeCtr + 1 })

/-- The interrupt source of a host receive queue (R462). -/
def rxqSource (fn q : Nat) : Nat := fnSource fn (9 + q / 2)

/-- A raise (R425): at most once per 20 µs. -/
def rxqRaise (fn q : Nat) (s : State) : State :=
  let k := fn * 8 + q
  match look s.net.rxqs k with
  | none => s
  | some r =>
    if r.held then { s with net := { s.net with rxqs := put s.net.rxqs k { r with more := true } } }
    else pulse (rxqSource fn q) { s with net := { s.net with rxqs := put s.net.rxqs k { r with held := true, more := false } } }

/-- Bytes 0x00 to 0x1B of a ring's entry (R425): what the port's clock reads, the mark of landing, the flow, the port, FLAGS and LEN. -/
def rxqHead (time : Nat) (mark : Mark) (flow port flags len : Nat) : List Byte :=
  leBytes time 8 ++ leBytes mark.image.toNat 8 ++ leBytes flow 2 ++ leBytes port 1 ++ leBytes flags 1 ++ leBytes len 2 ++ leBytes 0 6

/-- An entry is written (R425): the head, the data, then SEQ in a last write. -/
def writeEntry (fn : Nat) (addr : DWord) (n flow port flags : Nat) (data : List Byte) (s : State) : State :=
  let (time, s1) := readClock port s
  let (mark, s2) := takeMark s1
  emit (.hostBytes fn (addr + 28) (leBytes n 4))
    (emit (.hostBytes fn (addr + 32) data) (emit (.hostBytes fn addr (rxqHead time mark flow port flags data.length)) s2))

/-- A packet for host receive queue q of a function (R422, R425); the flag says that it was delivered. -/
def toRxq (fn q flow port flags : Nat) (data : List Byte) (s : State) : Bool × State :=
  match look s.net.rxqs (fn * 8 + q) with
  | none => (false, netCount 0x3C 1 s)
  | some r =>
    if r.entry - 32 < data.length then (false, netCount 0x3C 1 s)
    else
      let s1 := { s with net := { s.net with rxqs := put s.net.rxqs (fn * 8 + q) { r with n := r.n + 1 } } }
      (true, rxqRaise fn q (writeEntry fn (r.addr + BitVec.ofNat 64 (r.n % max 1 r.entries * r.entry)) (r.n + 1) flow port flags data s1))

/-- RXQ_RAISE_HOLDOFF (R425). -/
def execRxqRaiseHoldoff (fn queue : Nat) (s : State) : Host.Outcome State Fault Refusal :=
  live s (fun s =>
    let k := fn * 8 + queue
    match look s.net.rxqs k with
    | none => s
    | some r =>
      if 8 ≤ queue ∨ r.held = false then s
      else if r.more then pulse (rxqSource fn queue) { s with net := { s.net with rxqs := put s.net.rxqs k { r with more := false } } }
      else { s with net := { s.net with rxqs := put s.net.rxqs k { r with held := false } } })

/-! ### Ports, clocks and registers -/

/-- LINK_STATE_CHANGE (R404, R429). -/
def execLinkStateChange (port : Nat) (up : Bool) (s : State) : Host.Outcome State Fault Refusal :=
  live s (fun s => if port < 2 then setPort s port (fun x => { x with link := if up then fld x.cfg 1 0 else 0 }) else s)

/-- A refused write of a NET register. -/
def netRefuse (code : Code) (s : State) : State := { s with net := { s.net with reason := code } }

/-- NET_CTRL_WRITE (R429): setting is checked for 0x070D, clearing for 0x070C; a refused write changes nothing but NET_REASON. -/
def execNetCtrlWrite (value : Word) (s : State) : Host.Outcome State Fault Refusal :=
  blockWrite 0xFFFF00FC value s (fun s =>
    let on := [0, 1].filter (fun p => decide (portMode s p ≠ 0))
    let mac0 := on.any (fun p => decide ((portOf s p).macLo = 0) && decide ((portOf s p).macHi = 0))
    if bit value 0 && !bit s.net.ctrl 0 && (on.isEmpty || mac0) then netRefuse 0x070D s
    else if !bit value 0 && bit s.net.ctrl 0 && !s.net.flows.isEmpty then netRefuse 0x070C s
    else { s with net := { s.net with ctrl := value } })

/-- Are flows attached on a port? -/
def portUsed (s : State) (p : Nat) : Bool := s.net.flows.any (fun e => decide (e.2.port = p))

/-- A write of NET_PORT_CFG (R404, R421, R429): MODE 3 reads back 0, PTP_TRANSPORT 3 keeps the old value; the virtual times start at 0 when MODE
leaves off. -/
def portCfg (p : Nat) (value : Word) (s : State) : State :=
  let old := (portOf s p).cfg
  let m := if fld value 1 0 = 3 then 0 else fld value 1 0
  let v1 := merge value 3 (fldW 0 2 m)
  let v2 := if fld value 23 22 = 3 then merge v1 0x00C00000 old else v1
  if m ≠ fld old 1 0 ∧ portUsed s p = true then netRefuse 0x0709 s
  else setPort s p (fun x => { x with cfg := v2, link := if m = fld old 1 0 then x.link else 0, v := if fld old 1 0 = 0 ∧ m ≠ 0 then [] else x.v })

/-- NET_PORT_CFG_WRITE (R429). -/
def execNetPortCfgWrite (port : Nat) (value : Word) (s : State) : Host.Outcome State Fault Refusal :=
  blockWrite 0x001FC0FC value s (fun s => if port < 2 then portCfg port value s else s)

/-- A write of a port's address (R429). -/
def portAddr (p : Nat) (g : NetPort → NetPort) (s : State) : State := if portUsed s p then netRefuse 0x0709 s else setPort s p g

/-- Both PTP clocks are copied into their latch registers (R429, R587). -/
def latchClocks (s : State) : State :=
  [0, 1].foldl (fun s p =>
    let (t, s1) := readClock p s
    let sec := t / 10 ^ 9
    setPort s1 p (fun x => { x with secLo := BitVec.ofNat 32 sec, secHi := fldW 0 16 (sec / 2 ^ 32), ns := fldW 0 30 (t % 10 ^ 9) })) s

/-- NET_PTP_LATCH (R429): bits 31:1 are write-only and reserved. -/
def execNetPtpLatch (value : Word) (s : State) : Host.Outcome State Fault Refusal :=
  blockWrite 0xFFFFFFFE value s (fun s => if bit value 0 then latchClocks s else s)

/-- PPS_IN_EDGE (R587). -/
def execPpsInEdge (port : Nat) (s : State) : Host.Outcome State Fault Refusal := live s (fun s => if port < 2 then latchClocks s else s)

/-- PPS_OUT_SECOND (R587): the pin follows the clock of the port that SCHED_BELL_CFG.PTP_PORT names. -/
def execPpsOutSecond (port : Nat) (s : State) : Host.Outcome State Fault Refusal :=
  live s (fun s => if port = (if bit s.bell.cfg 3 then 1 else 0) then emit (.ppsOut port) s else s)

end Sys2Proof.Machine
end

