-- ==== Sys2Proof/Machine/Record.lean ====
section
/-! DEFINITION. The context record of a session (R84, R181, R229, R253, R427): its bytes, its place in the Depot with its CHECK (R85), and the copy that the
SESS_CTX window shows (R98). -/

namespace Sys2Proof.Machine

open Sys2Proof

/-- Bytes padded with zeros to a region's size. -/
def padTo (n : Nat) (l : List Byte) : List Byte := (l ++ List.replicate n 0).take n

/-- A number in n little-endian bytes. -/
def lb (n v : Nat) : List Byte := leBytes v n

/-- A bit as a number at position i. -/
def nb (i : Nat) (b : Bool) : Nat := if b then 2 ^ i else 0

/-- A log mark's eight bytes, 0 for none. -/
def markBytes (m : Option Mark) : List Byte := lb 8 (match m with | none => 0 | some m => m.image.toNat)

/-- The header (R84). -/
def recHeader (s : State) (n : Nat) (x : Session) : List Byte :=
  let idle := match x.idleFrom with | none => 0 | some b => min 0xFFFF (bellsFrom b s.bell.num / max 1 (framesF s x.stream.fps))
  padTo 64 (lb 4 (tokenOf n x.gen).toNat ++ lb 1 x.state ++ lb 1 x.quarter ++ lb 1 x.fn ++
    lb 1 (nb 0 x.resident + nb 1 x.pinned + nb 2 x.ltr.key) ++ lb 2 (x.fence.getD 0xFFFF) ++ lb 2 idle ++ lb 4 x.userTag.toNat ++
    markBytes (if x.state = 4 then x.parkMark else none) ++ markBytes x.frameMark ++ lb 4 x.frameNum)

/-- The stream parameters: bytes 0x10 to 0x3F of OPEN_SESSION as last configured (R79, R84). -/
def recStream (x : Session) : List Byte :=
  let o := x.newStream.getD x.stream
  let z := x.sizeNext.getD (x.stream.width, x.stream.height)
  padTo 64 (lb 1 x.kind ++ lb 1 o.codec ++ lb 1 o.profile ++ lb 1 o.depth ++ lb 2 z.1 ++ lb 2 z.2 ++ lb 1 o.fps ++ lb 1 o.content ++
    lb 1 o.effortMin ++ lb 1 o.effortMax ++ lb 2 o.idleLimit ++ lb 1 o.ltrSlots ++ lb 1 o.flags ++ lb 2 x.hint ++ lb 2 0 ++ lb 4 x.userTag.toNat)

/-- The frame in progress, if any. -/
def inProgress (x : Session) : Option Frame := x.frames.find? (fun f => !frameOver f)

/-- The bucket-model state (R229). -/
def recBucket (x : Session) : List Byte :=
  let r := x.rate
  let f := inProgress x
  let o := match f with | none => x.stream | some f => frameStream x f
  let key := match f with | none => false | some f => f.key
  let next := match f with | none => 0 | some f => f.next
  padTo 128 (lb 1 r.mode ++ lb 1 r.lat ++ lb 1 (nb 0 key) ++ lb 1 0 ++ lb 4 (r.size / 256) ++ lb 4 r.peak ++ lb 4 r.initFull ++ lb 8 r.full ++ lb 8 r.drain ++
    lb 4 (cdiv (phi o r.rateMax true r.pq) 256) ++ lb 4 (cdiv (phi o r.rateMax false r.pq) 256) ++
    lb 4 (cdiv (if next = 0 then 0 else reserve o r.rateMax key next) 256) ++ lb 4 (match f with | none => 0 | some f => f.bits) ++ lb 2 next)

/-- The rate-model state (R229). -/
def recRate (s : State) (x : Session) : List Byte :=
  let r := x.rate
  let hold := match r.hold with | none => false | some b => decide (bellsFrom s.bell.num b < 2 ^ 39) && decide (b ≠ s.bell.num)
  padTo 256 (lb 4 r.rateMin ++ lb 4 r.rateMax ++ lb 4 r.rate ++ lb 4 r.rateNext ++ lb 4 r.wKey.toNat ++ lb 4 r.wInter.toNat ++ lb 4 r.u.toNat ++
    lb 4 r.m.toNat ++ lb 1 r.qpMin ++ lb 1 r.qpMax ++ lb 1 r.forkDq ++ lb 1 r.uThresh ++ lb 1 r.keyMult ++ lb 1 r.dqBand ++ lb 1 r.laFrames ++
    lb 1 (nb 0 r.adapt + nb 1 r.forkOff + nb 2 hold) ++ lb 1 r.incPct ++ lb 1 r.lossLo ++ lb 1 r.lossHi ++ lb 1 0 ++
    lb 4 ((r.hold.map (fun b => b.toNat)).getD 0) ++ lb 4 ((r.fbLast.map (fun b => b.toNat)).getD 0) ++ lb 1 r.qPrev ++ List.replicate 11 (0 : Byte) ++
    (List.range 68).flatMap (fun k => match look r.h (k + 1) with | none => lb 2 0 | some f => lb 2 (Config.half f).toNat))

/-- Does a decode session's content go to protected surfaces only (R264)? -/
def useProt (x : Session) : Bool := match x.dec.bind with | none => false | some b => decide (b.use = 0)

/-- ORDER of a descriptor (R181): the order hint or POC LSBs of 8 bits, or frame_num of 16 bits since the key frame, in the widths that Headers.lean
signals; in a decode session the order that its stream gives. -/
def recOrder (x : Session) (p : Pic) : Nat :=
  if x.kind = 1 then (p.order % 65536).toNat
  else if x.stream.codec = 0 then p.frame % 256
  else (p.frame + 2 ^ 32 - x.ltr.lastKey) % 2 ^ 32 % (if x.stream.codec = 1 then 256 else 65536)

/-- A picture descriptor (R181). -/
def recDesc (x : Session) (d : Nat) : List Byte :=
  match look x.pics d with
  | none => List.replicate 16 0
  | some p =>
    let mask := (x.ltr.slots.map (fun e => if e.2 = d then 2 ^ e.1 else 0)).sum
    let cls := match p.extents with | [] => extentClass x.stream.width x.stream.height | w :: _ => hClass w
    lb 4 p.frame ++
      lb 1 (nb 0 p.whole + nb 1 (decide (x.ltr.last = some d)) + nb 2 (!p.whole) + nb 3 p.key + nb 4 p.taint + nb 5 (useProt x)) ++ lb 1 mask ++
      lb 1 p.extents.length ++ lb 1 cls ++ lb 4 p.sectors ++ lb 2 (recOrder x p) ++ lb 1 p.q ++ lb 1 0

/-- The reference set (R181). -/
def recRefs (x : Session) : List Byte :=
  padTo 1024 ((List.range 16).flatMap (recDesc x) ++
    (List.range 16).flatMap (fun d => (List.range 12).flatMap (fun k =>
      lb 4 (((look x.pics d).bind (fun p => p.extents[k]?)).map (fun w => w.toNat) |>.getD 0xFFFFFFFF))))

/-- A set of descriptors as a bit mask. -/
def maskOf (l : List Nat) : Nat := (l.map (fun d => 2 ^ d)).sum

/-- The LTR region (R253). -/
def recLtr (x : Session) : List Byte :=
  let l := x.ltr
  let main := match inProgress x with | none => 0xFF | some f => if f.key then 0xFF else f.ref.getD 0xFF
  padTo 64 ((List.range 4).flatMap (fun i => lb 1 (if i < x.stream.ltrSlots then (look l.slots i).getD 0xFF else 0xFF)) ++ lb 2 (maskOf l.acked) ++
    lb 2 (maskOf l.pendAck) ++ lb 4 (l.loss.getD 0) ++ lb 1 (nb 0 l.loss.isSome + nb 1 l.key + nb 2 l.stale + nb 3 l.spect) ++ lb 1 (nb 0 l.wave) ++
    lb 1 l.wavePos ++ lb 1 l.waveLen ++ lb 4 l.recover ++ lb 4 l.lastMark ++ lb 4 l.lastKey ++ lb 1 l.period ++ lb 1 l.refresh ++ lb 1 l.keyHold ++
    lb 1 (nb 0 l.waveOff) ++ lb 2 l.spectInt ++ lb 1 (l.firSeq.getD 0) ++ lb 1 main)

/-- The SRTP sender state (R427). -/
def recSrtp (x : Session) : List Byte :=
  padTo 64 (lb 4 x.rtp.ssrc.toNat ++ lb 4 x.rtp.roc.toNat ++ lb 2 x.rtp.seq.toNat ++ lb 2 0 ++ lb 4 x.rtp.tsLast.toNat ++ lb 8 x.rtp.packets)

/-- The pacing bindings (R427). -/
def recPacing (s : State) (x : Session) : List Byte :=
  let count := fun (p : Flow → Bool) => (x.flows.filter (fun i => match look s.net.flows i with | none => false | some f => p f)).length
  padTo 128 (lb 2 x.flows.length ++ lb 2 x.rtp.payMax ++ lb 4 (x.flows.head?.getD 0xFFFFFFFF) ++ lb 2 (count (fun f => f.rateSrc)) ++
    lb 2 (count (fun f => f.resSrc)))

/-- The applied list (R64, R84). -/
def recApplied (x : Session) : List Byte := padTo 256 (x.applied.flatMap (fun a => lb 2 a.1.toNat ++ List.replicate 6 (0 : Byte) ++ lb 8 a.2.toNat))

/-- The statistics (R84, R400). -/
def recStats (x : Session) : List Byte := (List.range 64).flatMap (fun i => lb 8 (lookD x.stats i 0))

/-- Bytes 0x000 to 0xFFB of a record (R84); the role working state is laid out by the role microcode (log entry 4). -/
def recBody (s : State) (n : Nat) (x : Session) : List Byte :=
  recHeader s n x ++ recStream x ++ recBucket x ++ recRate s x ++ recRefs x ++ recLtr x ++ recSrtp x ++ recPacing s x ++ recApplied x ++ recStats x ++
    (List.range 1532).map (fun k => Config.roleByte n k)

/-- A record with its CHECK (R84). -/
def recImage (s : State) (n : Nat) (x : Session) : List Byte :=
  let b := recBody s n x
  b ++ lb 4 (crc32c b).toNat

/-- A session's record is written to the Depot, with its CHECK (R84, R85). -/
def writeRecord (n : Nat) (s : State) : State :=
  match look s.sessions n with
  | none => s
  | some x => writeMem (recordAt s n) (recImage s n x) s

/-- Does the CHECK of the record that stands in the Depot match (R85)? -/
def recordOk (s : State) (n : Nat) : Bool :=
  let b := memBytes s (recordAt s n) 4096
  decide (leNat (b.drop 4092) = (crc32c (b.take 4092)).toNat)

/-- Bytes as little-endian words; n bounds them. -/
def toWords (n : Nat) (b : List Byte) : List Word :=
  match n with
  | 0 => []
  | n + 1 => BitVec.ofNat 32 (leNat (b.take 4)) :: toWords n (b.drop 4)

/-- SESS_CTX_COPY_DONE (R98). -/
def execSessCtxCopyDone (s : State) : Host.Outcome State Fault Refusal :=
  live s (fun s =>
    if !s.sess.ctxBusy then s
    else
      let n := fld s.sess.ctxSel 17 0
      match look s.sessions n with
      | none => { s with sess := { s.sess with ctxBusy := false, ctxDone := true, ctxValid := false, ctxCopy := [] } }
      | some x =>
        { s with sess := { s.sess with ctxBusy := false, ctxDone := true, ctxValid := true, ctxCopy := toWords 1024 (recImage s n x) } })

end Sys2Proof.Machine
end

