-- ==== Sys2Proof/Machine/Sessions.lean ====
section
/-! DEFINITION. Sessions: opening, configuring, feedback, parking, resuming, closing (R70 to R84, R91 to R97, R225 to R228, R241, R252, R387,
R599, R600), their receivers (R406 to R408), and how a paired session's commands go to the partner (R435 to R437). -/

namespace Sys2Proof.Machine

open Sys2Proof

/-! ### Handles and fence indices -/

/-- The handle that OPEN_SESSION takes: the one free longest, within the side's range while TANDEM_CTRL.ENABLE is 1 (R71, R435). -/
def takeHandle (s : State) : Option Nat :=
  if bit s.tandem.ctrl 0 then
    let lo := s.tandem.side * 100000
    s.sess.free.findSome? (fun r => let a := max r.1 lo; if a < min (r.1 + r.2) (lo + 100000) then some a else none)
  else s.sess.free.head?.map (fun r => r.1)

/-- The fence index that OPEN_SESSION or RESUME takes: the wanted one when it is free, else the front of the list (R81). -/
def takeFence (s : State) (fn : Nat) (want : Option Nat) : Option (Nat × List (Nat × Nat)) :=
  let l := lookD s.sess.fences fn []
  match want with
  | some w => if inRuns l w then some (w, cutRun l w) else popRun l
  | none => popRun l

/-- A function's free list of fence indices. -/
def setFences (fn : Nat) (l : List (Nat × Nat)) (s : State) : State := { s with sess := { s.sess with fences := put s.sess.fences fn l } }

/-- A session's fence index joins the back of its function's free list (R81). -/
def freeFence (n : Nat) (s : State) : State :=
  match look s.sessions n with
  | none => s
  | some x =>
    match x.fence with
    | none => s
    | some i =>
      setFences x.fn (pushRun (lookD s.sess.fences x.fn []) i) (setSess s n (fun x => { x with fence := none, oldFence := some i }))

/-! ### The partner (R436, R437) -/

/-- Does a command of this session go to the partner first (R437)? -/
def shadowed (s : State) (x : Session) : Bool := decide (x.tan.role = 1) && linkUp s && (x.tan.live || x.tan.sync.isSome)

/-- A command goes to the partner and waits for the reply (R437); k is the index that both devices are to take. -/
def forward (n k : Nat) (cmd : FwdCmd) (i : Instr) (s : State) : State :=
  linkSend (.config n cmd) { s with tandem := { s.tandem with waiting := s.tandem.waiting ++ [{ handle := n, cmd := i, index := k }] } }

/-- A checked command of a shadowed session is forwarded and waits for the reply; any other command applies at once (R437). -/
def forwardOr (n : Nat) (x : Session) (k : Nat) (cmd : FwdCmd) (i : Instr) (apply : State → State) (s : State) : State :=
  if shadowed s x then forward n k cmd i s else apply s

/-- A session command on a session that this device serves as primary (R70, R437). -/
def onPrimary (h : Hdr) (opcode : Nat) (s : State) (f : Nat → Session → State → State) : State :=
  onToken h opcode s (fun n x s => if x.tan.role = 2 then refuse h opcode 0x0807 s else f n x s)

/-- The same for PARK, RESUME and CLOSE, which the PF may issue for any session (R72). -/
def onPrimaryPf (h : Hdr) (opcode : Nat) (s : State) (f : Nat → Session → State → State) : State :=
  match tokenSessionPf s h.fn h.token with
  | none => refuse h opcode 0x0201 s
  | some (n, x) => if x.tan.role = 2 then refuse h opcode 0x0807 s else f n x s

/-! ### OPEN_SESSION -/

/-- Do size, rate and codec lie within R148? -/
def levelOk (o : StreamOps) : Bool :=
  let px := o.width * o.height
  let mb := cdiv o.width 16 * cdiv o.height 16
  if o.codec = 2 then
    decide (o.width ≤ 4096) && decide (o.height ≤ 4096) && decide (px ≤ 9437184) && decide (px * o.fps ≤ 566231040) && decide (mb ≤ 36864) &&
    decide (mb * o.fps ≤ 2211840)
  else decide (px ≤ 35651584) && decide (px * o.fps ≤ 2139095040)

/-- The values of the stream parameters (R79, R148, R254). -/
def streamOk (s : State) (kind : Nat) (o : StreamOps) : Bool :=
  decide (o.codec ≤ 2) && decide (o.profile ≤ o.codec) && decide (o.depth ≤ 1) &&
  (decide (o.depth = 0) || decide (o.codec = 0) || (decide (o.codec = 1) && decide (o.profile = 1))) &&
  decide (320 ≤ o.width) && decide (o.width ≤ 7680) && decide (o.width % 2 = 0) && decide (180 ≤ o.height) && decide (o.height ≤ 4320) &&
  decide (o.height % 2 = 0) && fpsOk s o.fps && decide (o.content ≤ 2) && decide (o.effortMin ≤ o.effortMax) && decide (o.effortMax ≤ 2) &&
  decide (o.ltrSlots ≤ 4) && decide (o.flags < 8) && (decide (kind = 0) || decide (o.flags < 2)) && levelOk o

/-- The sessions of a function that the partner is still asked to open (R436): they count as open (R83). -/
def waitingOpens (s : State) (fn : Nat) : Nat :=
  (s.tandem.waiting.filter (fun w => match w.cmd with | .openSession h _ => decide (h.fn = fn) | _ => false)).length

/-- The sessions of a function that are not CLOSED (R83). -/
def fnSessions (s : State) (fn : Nat) : Nat := (s.sessions.filter (fun e => decide (e.2.fn = fn))).length + waitingOpens s fn

/-- The checks of OPEN_SESSION. -/
def openCode (s : State) (h : Hdr) (o : OpenOps) : Option Code :=
  if o.kind = 1 ∧ s.dec.en = false then some 0x0C0E
  else if o.kind = 0 ∧ s.rc.en = false then some 0x030A
  else if 1 < o.kind ∨ o.pad ≠ 0 ∨ (4095 < o.fenceHint ∧ o.fenceHint ≠ 0xFFFF) ∨ streamOk s o.kind o.stream = false then some 0x0206
  else if o.stream.flags.testBit 1 ∧ (s.dev.straps.testBit 2 = false ∨ linkUp s = false) then some 0x0805
  else if lookD s.sess.fnLimit h.fn 200000 ≤ fnSessions s h.fn then some 0x0203
  else if (takeHandle s).isNone then some 0x0202
  else if runsLen (lookD s.sess.fences h.fn []) ≤ waitingOpens s h.fn then some 0x0208
  else
    match (if o.kind = 0 then rateCode o.stream (openRateCfg o.stream.codec) (rateAtOpen s o.stream) false else none) with
    | some c => some c
    | none => if (serving s).isEmpty then some 0x020A else none

/-- The LTR state of a new session (R252). -/
def newLtr (fps : Nat) : Ltr :=
  takeRes fps { ltrPeriod := 0, refreshFrames := 0, keyHold := 0, spectKeyInterval := 0, flags := 0, pad := 0 }
    { slots := [], acked := [], pendAck := [], loss := none, key := false, stale := false, spect := false, wave := false, wavePos := 0, waveLen := 0,
      recover := 0, lastMark := 0, lastKey := 0, period := 0, refresh := 0, keyHold := 0, waveOff := false, spectInt := 0, firSeq := none,
      last := none, rewave := false }

/-- A new session: OPEN, with no placement yet; its SSRC, first sequence number and first timestamp are drawn (R409). Its record stands in the Depot
until a page-in brings it into the context cache (R84, R87; log entry 23). -/
def newSession (s : State) (n : Nat) (h : Hdr) (cq kind : Nat) (o : StreamOps) (userTag : Word) (role hint : Nat) (fence : Option Nat) : Session :=
  { gen := lookD s.sess.gens n 0, state := 1, fn := h.fn, hdr := h, openCq := cq, hint := hint, kind := kind, stream := o, newStream := none,
    newOk := false, sizeNext := none, newRate := none, newRes := none, newBounds := none, userTag := userTag, quarter := 0xFF, moveTo := none, moved := none,
    fence := fence, oldFence := none, effort := o.effortMax, effortTo := none, phase := none, pinned := false,
    resident := false, lru := s.sess.clock, cause := none,
    parkMark := none, frameMark := none, frameNum := 0, idleFrom := none, woken := none, cfgDue := false, recent := [], lastFb := s.bell.num,
    zeroLast := none, metaLast := [], late := none,
    frames := [], pend := none, applied := [], stats := [], binding := none, nextBind := none, oldBinds := [], hostSet := [],
    pics := [], rate := rateAtOpen s o, rateCfg := openRateCfg o.codec, ltr := newLtr o.fps, ht := none, recs := [], doneWait := [], flows := [],
    rtp := { ssrc := Config.draw s.freeCtr, roc := 0, seq := (Config.draw (s.freeCtr + 1)).truncate 16, tsLast := 0,
             tsNext := Config.draw (s.freeCtr + 2), packets := 0, payMax := 0 },
    dec := Dec.reset, tan := TanSess.reset role }

/-- A session joins those that are not CLOSED under handle n, and is placed (R71, R89); its record stands in the Depot from now on (R84; log entry 23). -/
def addSession (n : Nat) (x : Session) (s : State) : State :=
  let s1 := { s with
    sessions := put s.sessions n x, freeCtr := s.freeCtr + 3,
    sess := { s.sess with free := if inRuns s.sess.free n then cutRun s.sess.free n else s.sess.free, clock := s.sess.clock + 1 } }
  writeRecord n (match placeIdle s1 n x with
    | none => s1
    | some q => setSess s1 n (fun x => { x with quarter := q }))

/-- OPEN_SESSION is accepted under handle n (R79, R81). A paired one for which no fence index is left when the partner's reply comes gives its handle
back, and the partner frees the shadow. -/
def openAt (n : Nat) (h : Hdr) (o : OpenOps) (s : State) : State :=
  match takeFence s h.fn (some o.fenceHint) with
  | none =>
    refuse h 1 0x0208 (when (o.stream.flags.testBit 1)
      (fun s => linkSend (.config n .close) { s with sess := { s.sess with free := (n, 1) :: s.sess.free } }) s)
  | some (i, l) =>
    let role := if o.stream.flags.testBit 1 then 1 else 0
    let s1 := addSession n (newSession s n h (cqNum s h.fn h.ring) o.kind o.stream o.userTag role o.fenceHint (some i)) (setFences h.fn l s)
    let q := match look s1.sessions n with | none => 0xFF | some x => x.quarter
    complete h 1 0 [tokenOf n (lookD s.sess.gens n 0), BitVec.ofNat 32 i, BitVec.ofNat 32 q] s1

/-- OPEN_SESSION (R79): with PAIRED it goes to the partner first, under a handle that stays taken until the reply (R436, R437). -/
def execOpenSession (h : Hdr) (o : OpenOps) (s : State) : Host.Outcome State Fault Refusal :=
  sessionCmd (.openSession h o) h 1 s (fun s =>
    match openCode s h o, takeHandle s with
    | some c, _ => refuse h 1 c s
    | none, none => refuse h 1 0x0202 s
    | none, some n =>
      if o.stream.flags.testBit 1 then
        forward n 0 (.openShadow h.fn (tokenOf n (lookD s.sess.gens n 0)) o.stream o.userTag) (.openSession h o)
          { s with sess := { s.sess with free := cutRun s.sess.free n } }
      else openAt n h o s)

/-! ### CONFIGURE, SET_RATE_BOUNDS -/


/-- The checks of CONFIGURE with GROUP 0 (R79, R80, R228). -/
def streamCode (s : State) (x : Session) (o : StreamOps) (pad : Nat) : Option Code :=
  if pad ≠ 0 ∨ streamOk s x.kind o = false then some 0x0206
  else if x.frameMark.isSome ∧ (o.codec ≠ x.stream.codec ∨ o.profile ≠ x.stream.profile ∨ o.depth ≠ x.stream.depth) then some 0x0207
  else if x.kind = 0 then rateCode o (wantedRate x) (resultRate s { x with newStream := some o } (wantedRate x) x.newBounds) x.rate.pqNext
  else none

/-- CONFIGURE with GROUP 0 waits for the next frame start or boundary (R73, R80). -/
def applyConfigureStream (n : Nat) (o : StreamOps) (s : State) : State :=
  setSess s n (fun x => { x with newStream := some o, newOk := false, sizeNext := if (o.width, o.height) = (x.stream.width, x.stream.height) then none else some (o.width, o.height) })

/-- CONFIGURE_STREAM (R80). -/
def execConfigureStream (h : Hdr) (o : StreamOps) (pad : Nat) (s : State) : Host.Outcome State Fault Refusal :=
  sessionCmd (.configureStream h o pad) h 2 s (fun s => onPrimary h 2 s (fun n x s =>
    match streamCode s x o pad with
    | some c => refuse h 2 c s
    | none => forwardOr n x 0 (.stream o) (.configureStream h o pad) (fun s => complete h 2 0 [] (applyConfigureStream n o s)) s))

/-- The checks of CONFIGURE with GROUP 1 (R225, R227, R228). -/
def rateCfgCode (s : State) (x : Session) (o : RateOps) : Option Code :=
  if x.kind = 1 then some 0x030B
  else if !s.rc.en then some 0x030A
  else rateCode (wantedStream x) o (resultRate s x o x.newBounds) x.rate.pqNext

/-- CONFIGURE_RATE (R225): it applies at the next boundary. -/
def execConfigureRate (h : Hdr) (o : RateOps) (s : State) : Host.Outcome State Fault Refusal :=
  sessionCmd (.configureRate h o) h 2 s (fun s => onPrimary h 2 s (fun n x s =>
    match rateCfgCode s x o with
    | some c => refuse h 2 c s
    | none =>
      forwardOr n x 0 (.rate o) (.configureRate h o) (fun s => complete h 2 0 [] (setSess s n (fun x => { x with newRate := some o }))) s))

/-- The values of CONFIGURE with GROUP 2 (R252). -/
def resOk (x : Session) (o : ResOps) : Bool :=
  decide (x.kind = 0) && decide (o.pad = 0) && decide (o.flags ≤ 1) && (decide (o.refreshFrames = 0) || (decide (4 ≤ o.refreshFrames) && decide (o.refreshFrames ≤ 32)))

/-- CONFIGURE_RESILIENCE (R252): it applies at the next boundary. -/
def execConfigureResilience (h : Hdr) (o : ResOps) (s : State) : Host.Outcome State Fault Refusal :=
  sessionCmd (.configureResilience h o) h 2 s (fun s => onPrimary h 2 s (fun n x s =>
    if resOk x o then
      forwardOr n x 0 (.resilience o) (.configureResilience h o) (fun s => complete h 2 0 [] (setSess s n (fun x => { x with newRes := some o }))) s
    else refuse h 2 0x0206 s))

/-- The checks of CONFIGURE with GROUP 3 (R387). -/
def hostCode (s : State) (x : Session) (h : Hdr) (o : HtOps) : Option Code :=
  if x.state ≠ 1 then some 0x0204
  else if x.stream.flags.testBit 2 = false ∨ o.pad ≠ 0 ∨ 8 ≤ o.cq ∨ (cqOf s h.fn o.cq).en = false ∨
      (List.range 13).all (fun k => decide (o.ringSize ≠ 2 ^ (k + 16))) = true ∨ o.ringAddr.toNat % 4096 ≠ 0 then some 0x0411
  else none

/-- The host transport of a session (R387). -/
def applyHost (n : Nat) (h : Hdr) (o : HtOps) (s : State) : State :=
  setSess s n (fun x => { x with
    ht := some { cq := o.cq, cmdRing := h.ring, fn := h.fn, size := o.ringSize, addr := o.ringAddr, w := 0, consumed := 0, waiting := [] } })

/-- CONFIGURE_HOST_TRANSPORT (R387). -/
def execConfigureHostTransport (h : Hdr) (o : HtOps) (s : State) : Host.Outcome State Fault Refusal :=
  sessionCmd (.configureHostTransport h o) h 2 s (fun s => onPrimary h 2 s (fun n x s =>
    match hostCode s x h o with
    | some c => refuse h 2 c s
    | none => forwardOr n x 0 (.host h o) (.configureHostTransport h o) (fun s => complete h 2 0 [] (applyHost n h o s)) s))

/-- The checks of SET_RATE_BOUNDS (R226 to R228). -/
def boundsCode (s : State) (x : Session) (o : BoundsOps) : Option Code :=
  if x.kind = 1 then some 0x030B
  else if !s.rc.en then some 0x030A
  else
    match rateCode (wantedStream x) (wantedRate x) (resultRate s x (wantedRate x) (some o)) x.rate.pqNext with
    | some c => some c
    | none => if 1 < o.flags ∨ o.pad ≠ 0 then some 0x0307 else none

/-- RATE_NEXT under new bounds (R226). -/
def nextRate (x : Session) (o : BoundsOps) : Nat := min (max (if o.rateStart = 0 then x.rate.rateNext else o.rateStart) o.rateMin) o.rateMax

/-- The bounds wait for the boundary; RATE_NEXT is set now (R226). -/
def applyBounds (n : Nat) (o : BoundsOps) (s : State) : State :=
  setSess s n (fun x => { x with newBounds := some o, rate := { x.rate with rateNext := nextRate x o } })

/-- SET_RATE_BOUNDS (R226). -/
def execSetRateBounds (h : Hdr) (o : BoundsOps) (s : State) : Host.Outcome State Fault Refusal :=
  sessionCmd (.setRateBounds h o) h 7 s (fun s => onPrimary h 7 s (fun n x s =>
    match boundsCode s x o with
    | some c => refuse h 7 c s
    | none =>
      forwardOr n x 0 (.bounds o) (.setRateBounds h o) (fun s => complete h 7 0 [BitVec.ofNat 32 (nextRate x o)] (applyBounds n o s)) s))

/-! ### FEEDBACK (R241) -/

/-- Does a frame number lie within R241: no newer than the last frame started? -/
def frameStarted (x : Session) (frame : Nat) : Bool :=
  x.frameMark.isSome && (decide (frame = (x.frameNum + 2 ^ 32 - 1) % 2 ^ 32) || older frame ((x.frameNum + 2 ^ 32 - 1) % 2 ^ 32))

/-- A FEEDBACK command: refused with 0x0206 unless ok; it gets its log mark when it is accepted (R242). -/
def feedback (h : Hdr) (ok : Session → Bool) (f : Nat → State → State) (s : State) : State :=
  onPrimary h 8 s (fun n x s => if x.kind = 0 ∧ ok x = true then complete h 8 0 [] (f n (stamp s)) else refuse h 8 0x0206 s)

/-- FEEDBACK_ACK (R241, R242). -/
def execFeedbackAck (h : Hdr) (frame pad : Nat) (s : State) : Host.Outcome State Fault Refusal :=
  sessionCmd (.feedbackAck h frame pad) h 8 s (feedback h (fun x => decide (pad = 0) && frameStarted x frame) (fun n s => feedAck n frame s))

/-- FEEDBACK_LOSS (R241, R242). -/
def execFeedbackLoss (h : Hdr) (frame pad : Nat) (s : State) : Host.Outcome State Fault Refusal :=
  sessionCmd (.feedbackLoss h frame pad) h 8 s (feedback h (fun x => decide (pad = 0) && frameStarted x frame) (fun n s => feedLoss n frame s))

/-- FEEDBACK_KEY_REQUEST (R241, R242). -/
def execFeedbackKeyRequest (h : Hdr) (pad : Nat) (s : State) : Host.Outcome State Fault Refusal :=
  sessionCmd (.feedbackKeyRequest h pad) h 8 s (feedback h (fun _ => decide (pad = 0)) feedKey)

/-- FEEDBACK_RATE_REPORT (R222, R241). -/
def execFeedbackRateReport (h : Hdr) (loss est pad : Nat) (s : State) : Host.Outcome State Fault Refusal :=
  sessionCmd (.feedbackRateReport h loss est pad) h 8 s (feedback h (fun _ => decide (pad = 0)) (fun n s => rateReport n loss est s))

/-! ### Receivers (R406 to R408) -/

/-- A RECEIVER flow is attached at index i (R406). -/
def attachAt (i n : Nat) (h : Hdr) (o : AttachOps) (s : State) : State :=
  let s1 := joinFlow i n h.fn o s
  match look s1.sessions n with
  | none => s1
  | some x => complete h 0x0A 0 [BitVec.ofNat 32 i, x.rtp.ssrc, BitVec.ofNat 32 x.flows.length] s1

/-- ATTACH_RECEIVER of KIND 0 (R406, R407). -/
def execAttachReceiver (h : Hdr) (o : AttachOps) (s : State) : Host.Outcome State Fault Refusal :=
  sessionCmd (.attachReceiver h o) h 0x0A s (fun s => onPrimary h 0x0A s (fun n x s =>
    match attachCode s h.fn x o, freeFlow s with
    | some c, _ => refuse h 0x0A c s
    | none, none => refuse h 0x0A 0x0703 s
    | none, some i => forwardOr n x i (.attach i o) (.attachReceiver h o) (attachAt i n h o) s))

/-- DETACH_RECEIVER (R408): the PF may name any function's flow. -/
def execDetachReceiver (h : Hdr) (flow pad : Nat) (s : State) : Host.Outcome State Fault Refusal :=
  plainCmd h s (fun s =>
    if !bit s.net.ctrl 0 then refuse h 0x0B 0x0701 s
    else if h.token ≠ 0 ∨ pad ≠ 0 then refuse h 0x0B 0x0702 s
    else
      match look s.net.flows flow with
      | none => refuse h 0x0B 0x0707 s
      | some f =>
        if (f.fn ≠ h.fn ∧ h.fn ≠ 0) ∨ f.detach.isSome = true then refuse h 0x0B 0x0707 s
        else
          match f.session.bind (fun n => (look s.sessions n).map (fun x => (n, x))) with
          | some (n, x) =>
            if f.kind = 0 ∧ x.tan.role = 2 then refuse h 0x0B 0x0807 s
            else if f.kind = 0 then forwardOr n x 0 (.detach flow) (.detachReceiver h flow pad) (startDetach flow (some h)) s
            else startDetach flow (some h) s
          | none => startDetach flow (some h) s)

/-! ### PARK, RESUME, CLOSE -/

/-- Frames in progress ingest no more (R75): the fences that land for them later are ignored and counted. -/
def parkFrames (x : Session) : Session :=
  match x.frames.getLast? with
  | none => x
  | some f => { (if frameOver f then x else noteLate f x) with frames := x.frames.map (fun f => { f with parked := true }) }

/-- A command is pending from now on (R600); a parking ends the ingest of the frames in progress. -/
def setPending (n kind : Nat) (h : Option Hdr) (prior : Option (Nat × Hdr)) (s : State) : State :=
  setSess s n (fun x => { (if kind = 2 ∨ kind = 3 then x else parkFrames x) with
    pend := some { kind := kind, hdr := h, bell := s.bell.num, prior := prior } })

/-- The refusals of PARK (R73, R599, R600). -/
def parkCode (s : State) (n : Nat) (x : Session) (cold : Bool) (pad : Nat) : Option Code :=
  if pad ≠ 0 then some 0x0206
  else if pendingNow s n x then some 0x0204
  else if x.state = 2 ∨ x.state = 3 ∨ (cold = true ∧ x.state = 4) then none else some 0x0204

/-- PARK (R75). -/
def execPark (h : Hdr) (pad : Nat) (s : State) : Host.Outcome State Fault Refusal :=
  sessionCmd (.park h pad) h 4 s (fun s => onPrimaryPf h 4 s (fun n x s =>
    match parkCode s n x false pad with
    | some c => refuse h 4 c s
    | none => forwardOr n x 0 (.state 4) (.park h pad) (setPending n 0 (some h) none) s))

/-- PARK with COLD set (R599). -/
def execParkCold (h : Hdr) (pad : Nat) (s : State) : Host.Outcome State Fault Refusal :=
  sessionCmd (.parkCold h pad) h 4 s (fun s => onPrimaryPf h 4 s (fun n x s =>
    match parkCode s n x true pad with
    | some c => refuse h 4 c s
    | none => forwardOr n x 0 (.state 5) (.parkCold h pad) (setPending n 1 (some h) none) s))

/-- The refusals of RESUME (R73, R81, R599, R600). -/
def resumeCode (s : State) (n : Nat) (x : Session) (pad : Nat) : Option Code :=
  if pad ≠ 0 then some 0x0206
  else if pendingNow s n x = true ∨ (x.state ≠ 4 ∧ x.state ≠ 5) then some 0x0204
  else if (takeFence s x.fn none).isNone then some 0x0208 else none

/-- RESUME is accepted in this Bell: its page-in is asked for, or its record counts as just used (R87, R95). -/
def applyResume (n : Nat) (h : Hdr) (s : State) : State :=
  let m := nowMark s
  setPending n 2 (some h) none (touch n (stamp (setSess s n (askPage m 0x210))))

/-- RESUME (R95). -/
def execResume (h : Hdr) (pad : Nat) (s : State) : Host.Outcome State Fault Refusal :=
  sessionCmd (.resume h pad) h 5 s (fun s => onPrimaryPf h 5 s (fun n x s =>
    match resumeCode s n x pad with
    | some c => refuse h 5 c s
    | none => forwardOr n x 0 (.state 2) (.resume h pad) (applyResume n h) s))

/-- The opcode of a pending command. -/
def pendOpcode (kind : Nat) : Nat := match kind with | 2 => 5 | 3 => 6 | _ => 4

/-- CLOSE is accepted (R76, R600): it displaces a pending PARK or RESUME. -/
def applyClose (n : Nat) (h : Hdr) (s : State) : State :=
  match look s.sessions n with
  | none => s
  | some x => setPending n 3 (some h) (x.pend.bind (fun p => p.hdr.map (fun q => (pendOpcode p.kind, q)))) s

/-- Is the partner asked for a CLOSE of a session (R437)? -/
def closeAsked (s : State) (n : Nat) : Bool :=
  s.tandem.waiting.any (fun w => match w.cmd with | .close _ _ => decide (w.handle = n) | _ => false)

/-- The refusals of CLOSE (R599, R600). -/
def closeCode (s : State) (n : Nat) (x : Session) (pad : Nat) : Option Code :=
  if pad ≠ 0 then some 0x0206
  else if closeAsked s n then some 0x0204
  else match x.pend with | none => none | some p => if p.kind = 3 then some 0x0204 else none

/-- CLOSE (R76). -/
def execClose (h : Hdr) (pad : Nat) (s : State) : Host.Outcome State Fault Refusal :=
  sessionCmd (.close h pad) h 6 s (fun s => onPrimaryPf h 6 s (fun n x s =>
    match closeCode s n x pad with
    | some c => refuse h 6 c s
    | none => forwardOr n x 0 .close (.close h pad) (applyClose n h) s))

/-! ### Leaving ACTIVE and CLOSED -/

/-- A session that is not ACTIVE, on a CLOSING Quarter, is placed anew; with no Quarter in SERVICE it holds no placement (R61). -/
def replaceIdle (n : Nat) (s : State) : State :=
  match look s.sessions n with
  | none => s
  | some x =>
    if x.quarter < 16 ∧ (qtrOf s x.quarter).state = 3 then
      let q := (placeIdle s n x).getD 0xFF
      setSess s n (fun x => { x with quarter := q, moveTo := none })
    else s

/-- Every reference of a session is freed with its extents (R92, R178, R599); a decode session resumes at a random access point (R285). -/
def freeRefs (n : Nat) (s : State) : State :=
  match look s.sessions n with
  | none => s
  | some x =>
    let d : Dec := { x.dec with synced := false, rasl := false, recover := none, latest := none }
    let l : Ltr := { x.ltr with slots := [], acked := [], pendAck := [], last := none }
    x.pics.foldl (fun s e => dropAll (sessReq n) e.2.extents s) (setSess s n (fun x => { x with pics := [], ltr := l, dec := d }))

/-- An access unit's buffers are released. -/
def dropAu (n : Nat) (a : Au) (s : State) : State := dropAll (sessReq n) a.bufs s

/-- Everything that a session holds in the pool is released (R76). -/
def releaseAll (n : Nat) (s : State) : State :=
  match look s.sessions n with
  | none => s
  | some x =>
    let s0 := freeWork (fun t => decide (t.handle = n)) s
    let s1 := x.frames.foldl (fun s f => freeSource n x f s) s0
    let s2 := x.recs.foldl (fun s r => match r.payload with | none => s | some w => drop (sessReq n) w 0 s) s1
    let s3 := match x.ht with
      | none => s2
      | some t => t.waiting.foldl (fun s p => match p.payload with | none => s | some c => drop (sessReq n) c.1 c.2 s) s2
    let s4 := x.tan.held.foldl (fun s a => drop { kind := 4, index := 0 } a.2.2.1 a.2.2.2 s) s3
    let s5 := x.dec.queue.foldl (fun s a => dropAu n a s) (dropAll (sessReq n) ((x.dec.part.map (fun p => p.2)).getD []) s4)
    let s6 := x.dec.chunks.foldl (fun s c => dropAll (sessReq n) c.bufs s) s5
    unchargeSession n (freeRefs n (unbind n s6))

/-- The session enters CLOSED (R71, R76, R81, R552, R600): receivers, buffers, fence index and keys go, the generation rises, and a displaced or
pending command is answered with 0x0204. -/
def closeSession (n : Nat) (s : State) : State :=
  match look s.sessions n with
  | none => s
  | some x =>
    let s1 := freeFence n (releaseAll n (closeFlows n (pendEvent true (fun u => decide (u.handle = n)) s)))
    let g := (x.gen + 1) % 16384
    let s2 := { s1 with
      sessions := del s1.sessions n,
      quarters := s1.quarters.map (fun e => (e.1, if e.2.shadow = some n then { e.2 with shadow := none } else e.2)),
      net := { s1.net with flows := s1.net.flows.map (fun e => (e.1, if e.2.session = some n then { e.2 with session := none } else e.2)) },
      sec := { s1.sec with keys := s1.sec.keys.map (fun e => (e.1, if e.2.handle = some n then { e.2 with handle := none } else e.2)) },
      sess := { s1.sess with free := pushRun s1.sess.free n, gens := if g = 0 then del s1.sess.gens n else put s1.sess.gens n g } }
    let s3 := sweepKeys s2
    match x.pend with
    | none => s3
    | some p =>
      match (if p.kind = 3 then p.prior else p.hdr.map (fun q => (pendOpcode p.kind, q))) with
      | none => s3
      | some (op, q) => refuse q op 0x0204 s3

/-- Is this the start of a Bell: the Dispatch window before the fence cut? -/
def atStart (s : State) : Bool := decide (s.bell.window = .dispatch) && !s.bell.cut

/-- CLOSE_COMPLETE (R76, R600): at the start of the Bell after the acceptance. A close that a record check set going (R85) has no command to answer; the
partner of a paired session is told (R437). -/
def execCloseComplete (handle : Nat) (s : State) : Host.Outcome State Fault Refusal :=
  onSession handle s (fun x s =>
    match x.pend with
    | none => s
    | some p =>
      if p.kind = 3 ∧ p.bell ≠ s.bell.num ∧ atStart s = true then
        match p.hdr with
        | none => closeSession handle (when (shadowed s x) (linkSend (.config handle .close)) s)
        | some h => complete h 6 0 [] (closeSession handle s)
      else s)

/-- A session leaves ACTIVE or IDLE for PARKED or COLD (R75, R81, R124, R599). -/
def parkSession (n : Nat) (cold : Bool) (s : State) : State :=
  let m := nowMark s
  let s1 := unbind n (freeFence n (stamp s))
  let s2 := setSess s1 n (fun x => { x with
    state := if cold then 5 else 4, parkMark := if cold then none else some m, pinned := false, pend := none, quarter := planQuarter x, moveTo := none, woken := none,
    effort := planEffort x, effortTo := none })
  replaceIdle n (if cold then freeRefs n s2 else s2)

/-- PARK_COMPLETE (R27, R66, R75, R599): at the first Bell start after the frame has committed, for a paired session once it is acknowledged. -/
def execParkComplete (handle : Nat) (s : State) : Host.Outcome State Fault Refusal :=
  onSession handle s (fun x s =>
    match x.pend with
    | none => s
    | some p =>
      if (p.kind ≤ 1 ∨ p.kind = 4) ∧ p.bell ≠ s.bell.num ∧ atStart s = true ∧ x.frames.all frameOver = true ∧ x.dec.queue = [] ∧
          (x.tan.live = false ∨ x.tan.acks = []) then
        let s1 := parkSession handle (decide (p.kind = 1)) s
        match p.hdr with
        | some h => complete h 4 0 [] s1
        | none => tellPartner handle 4 (notice handle 0x0123 s1)
      else s)

/-- A RESUME that finds no fence index, slot or Quarter is refused; the session stays as it was, and so does its shadow, whose device is told (R81, R86,
R89, R437; log entry 39). -/
def refuseResume (n : Nat) (h : Option Hdr) (code : Code) (s : State) : State :=
  let st := match look s.sessions n with | none => 4 | some x => x.state
  let s1 := tellPartner n st (setSess s n (fun x => { x with pend := none }))
  match h with | none => s1 | some h => refuse h 5 code s1

/-- RESUME_COMPLETE (R94, R95, R124): the session is ACTIVE; a COLD one codes its next frame as a key frame. A configuration that waits applies at its
next frame start (R73). -/
def execResumeComplete (handle : Nat) (s : State) : Host.Outcome State Fault Refusal :=
  onSession handle s (fun x s =>
    match x.pend with
    | none => s
    | some p =>
      if p.kind ≠ 2 ∨ p.bell = s.bell.num ∨ atStart s = false ∨ x.resident = false then s
      else
        match takeFence s x.fn x.oldFence with
        | none => refuseResume handle p.hdr 0x0208 s
        | some (i, l) =>
          match frameAdmit s handle x (loadOf s x) with
          | .error e => refuseResume handle p.hdr e s
          | .ok (q, e) =>
            let cold := decide (x.state = 5)
            let y1 := { x with
              state := 2, quarter := q, effort := e, effortTo := none, moveTo := none, pinned := true, fence := some i, pend := none, parkMark := none,
              woken := some s.bell.num, cfgDue := x.newStream.isSome || x.newRes.isSome, ltr := if cold then { x.ltr with key := true } else x.ltr,
              rate := resumeRate cold x.rate }
            let s1 := givePhase handle { loadOf s x with effort := e } { setFences x.fn l s with sessions := put s.sessions handle y1 }
            let s2 := rebind handle (touch handle s1)
            match p.hdr with
            | none => s2
            | some h => complete h 5 0 [BitVec.ofNat 32 i, if cold then 1 else 0] s2)

/-- IDLE_LIMIT_REACHED (R77): IDLE_LIMIT frame intervals without a new frame since the last one committed. DESIGN CHOICE (log entry 79): after a RESUME
that no frame has followed yet the interval counts from the RESUME's Bell, since the rule names only the last commit. -/
def execIdleLimitReached (handle : Nat) (s : State) : Host.Outcome State Fault Refusal :=
  onSession handle s (fun x s =>
    match x.woken.orElse (fun _ => x.idleFrom) with
    | none => s
    | some b =>
      if x.state = 2 ∧ x.pend.isNone = true ∧ 0 < x.stream.idleLimit ∧ x.frames.all frameOver = true ∧ x.dec.queue = [] ∧
          x.stream.idleLimit * framesF s x.stream.fps ≤ bellsFrom b s.bell.num then
        tellPartner handle 3 (replaceIdle handle (setSess s handle (fun x => { x with
          state := 3, pinned := false, quarter := planQuarter x, moveTo := none, effort := planEffort x, effortTo := none })))
      else s)

/-! ### The SESS registers (R97) -/

/-- A refused write of a SESS register. -/
def sessRefuse (code : Code) (s : State) : State := { s with sess := { s.sess with reason := code } }

/-- Is a pair of watermarks valid: LOW below HIGH, and HIGH at most the class COUNT (R97)? -/
def wmOk (s : State) (wm : NMap Nat) (pair : Nat) : Bool :=
  decide (lookD wm (2 * pair) 0 < lookD wm (2 * pair + 1) 0) && decide (lookD wm (2 * pair + 1) 0 ≤ lookD s.pool.count (3 + pair) 0)

/-- Has DRAM training completed: every channel past it (R343)? -/
def trained (s : State) : Bool := (List.range 12).all (fun c => decide (2 ≤ (chanOf s c).state) && decide ((chanOf s c).state ≤ 5))

/-- SESS_CTRL_WRITE (R97). -/
def execSessCtrlWrite (value : Word) (s : State) : Host.Outcome State Fault Refusal :=
  blockWrite 0xFFFFFFFE value s (fun s =>
    if bit value 0 then
      if !trained s then sessRefuse 0x0205 s
      else if !wmOk s s.sess.wm 0 || !wmOk s s.sess.wm 1 then sessRefuse 0x020E s
      else { s with sess := { s.sess with en := true } }
    else if s.sessions.isEmpty then { s with sess := { s.sess with en := false } } else sessRefuse 0x020F s)

/-- SESS_DEPOT_WM_WRITE (R97): which is 0 WM_LOW, 1 WM_HIGH, 2 WM8_LOW, 3 WM8_HIGH. -/
def execSessDepotWmWrite (which : Nat) (value : Word) (s : State) : Host.Outcome State Fault Refusal :=
  blockWrite 0xFE000000 value s (fun s =>
    let wm := put s.sess.wm which (fld value 24 0)
    if 4 ≤ which then s
    else if wmOk s wm (which / 2) then { s with sess := { s.sess with wm := wm } } else sessRefuse 0x020E s)

/-- SESS_CTX_SEL_WRITE (R98). -/
def execSessCtxSelWrite (value : Word) (s : State) : Host.Outcome State Fault Refusal :=
  blockWrite 0xFFFC0000 value s (fun s => { s with sess := { s.sess with ctxSel := value, ctxBusy := true, ctxDone := false } })

end Sys2Proof.Machine
end

