-- ==== Sys2Proof/Machine/Quarters.lean ====
section
/-! DEFINITION. Quarters and plans: staging (R52), applies (R53 to R56), the Quarter states (R57 to R62, R66, R67, R307), placement and migration
(R61, R66, R90, R118), paging (R85 to R88), demotion (R92, R93), and Boulevard requests (R7, R8, R63 to R65). -/

namespace Sys2Proof.Machine

open Sys2Proof

/-! ### Staging -/

/-- The PLAN block refuses. -/
def planRefuse (code : Code) (s : State) : State := { s with plan := { s.plan with reason := code } }

/-- Does an apply run? -/
def applyRuns (s : State) : Bool := s.plan.accepted || decide (s.plan.applySt = 1)

/-- Is a Quarter in a drain, pending or running? -/
def draining (t : Quarter) : Bool := t.pend || decide (t.state = 3) || decide (t.state = 4)

/-- Does a rezone run: the drain, LOADING or TESTING that a REZONE started? -/
def rezoneRuns (s : State) : Bool :=
  s.quarters.any (fun e => e.2.isRezone && (draining e.2 || decide (e.2.state = 5) || decide (e.2.state = 6)))

/-- A staging is refused with 0x0101 (R52). -/
def stageBusy (s : State) : Bool := decide (s.plan.stage = 1) || decide (s.plan.stage = 2) || applyRuns s || rezoneRuns s

/-- The staging buffer is empty. -/
def noImage (p : Plan) : Plan := { p with image := none, stagedId := 0, srcLen := 0, cmd := none }

/-- Staging starts: COPYING (R52). -/
def startStage (addr : DWord) (len : Nat) (cmd : Option Hdr) (s : State) : State :=
  { s with plan := { noImage s.plan with stage := 1, srcAddr := addr, srcLen := len, cmd := cmd } }

/-- PLAN_STAGE (R52). -/
def execPlanStage (s : State) : Host.Outcome State Fault Refusal :=
  blockWrite 0 0 s (fun s => if stageBusy s then planRefuse 0x0101 s else startStage s.plan.addr s.plan.len.toNat none s)

/-- PLAN_LOAD (R52, R381): a PF command; an operand outside its values is refused with 0x0403. -/
def execPlanLoad (h : Hdr) (addr : DWord) (len pad : Nat) (s : State) : Host.Outcome State Fault Refusal :=
  plainCmd h s (fun s =>
    if h.fn ≠ 0 then refuse h 0x0F 0x0402 s
    else if h.token ≠ 0 ∨ pad ≠ 0 ∨ addr.toNat % 8 ≠ 0 then refuse h 0x0F 0x0403 s
    else if stageBusy s then refuse h 0x0F 0x0101 (planRefuse 0x0101 s)
    else startStage addr len (some h) s)

/-- PLAN_DISCARD (R68). -/
def execPlanDiscard (s : State) : Host.Outcome State Fault Refusal :=
  blockWrite 0 0 s (fun s =>
    if s.plan.stage = 1 ∨ s.plan.stage = 2 ∨ applyRuns s = true then planRefuse 0x0101 s else { s with plan := { noImage s.plan with stage := 0 } })

/-- Staging ends (R52, R462): READY with code 0, else FAILED; a PLAN_LOAD is completed. -/
def endStage (code : Code) (img : Option PlanImage) (s : State) : State :=
  let id : Word := match img with | none => 0 | some i => i.planId
  let cmd := s.plan.cmd
  let s1 := pulse 0x071 { s with plan := { s.plan with stage := if code = 0 then 3 else 4, reason := code, image := img, stagedId := id, cmd := none } }
  match cmd with
  | none => s1
  | some h => if code = 0 then complete h 0x0F 0 [id] s1 else refuse h 0x0F code s1

/-- The staged image: the bytes of the staging buffer in DRAM (R52, R319). -/
def stagedBytes (s : State) : List Byte := memBytes s (stageAt s) s.plan.srcLen

/-- PLAN_COPY_DONE (R52): the image lies in the staging buffer; an image longer than the buffer's 4 MiB does not get past it (0x0105 of R51). -/
def execPlanCopyDone (bytes : Option (List Byte)) (s : State) : Host.Outcome State Fault Refusal :=
  live s (fun s =>
    if s.plan.stage ≠ 1 then s
    else
      match bytes with
      | none => endStage 0x0102 none s
      | some b =>
        if b.length = s.plan.srcLen then writeMem (stageAt s) (b.take 4194304) { s with plan := { s.plan with stage := 2 } } else s)

/-- The end of the checks of the staged image (R51). -/
def checkStaged (s : State) : State :=
  let b := stagedBytes s
  let img := parseImage b
  match planCode s b false img with
  | some c => endStage c none s
  | none => endStage 0 (some img) s

/-- The security block reads a line of the staged image (R324, R325): a corrected error is counted; of a poisoned line the SEC watch records POISON.
DEDUCED (log entry 85): it is the security block that reads, since it checks the signature. -/
def readStaged (line : Nat) (ecc : Ecc) (s : State) : State :=
  if line * 64 < s.plan.srcLen then
    let r := readLine 0x218 (stageAt s + line * 64) ecc false false false s
    if r.1.2 then raise winSec 0 0 false (reaction winSec 0 0) r.2 else r.2
  else s

/-- PLAN_CHECK_DONE (R51): the checks of the staged image end; ecc is what the code finds at one of its lines, clean where it finds nothing. -/
def execPlanCheckDone (line : Nat) (ecc : Ecc) (s : State) : Host.Outcome State Fault Refusal :=
  live s (fun s => if s.plan.stage = 2 then checkStaged (readStaged line ecc s) else s)

/-! ### Quarter states -/

/-- The Quarter refuses an event: the code is kept in QTR_REASON. -/
def qtrRefuse (q : Nat) (code : Code) (s : State) : State := setQtr s q (fun t => { t with reason := code })

/-- MICROCODE entries of an image replace those of the same set (R59). -/
def mergeMc (old new : List McEntry) : List McEntry := old.filter (fun e => !new.any (fun f => decide (f.set = e.set))) ++ new

/-- BIST entries of an image replace those of the same target and variant (R59). -/
def mergeBist (old new : List BistEntry) : List BistEntry :=
  old.filter (fun e => !new.any (fun f => decide (f.target = e.target) && decide (f.variant = e.variant))) ++ new

/-- The plan that a Quarter's LOADING takes its District from: the apply's for the Quarter on its way, the staged partial plan for a rezone,
none for a Quarter that ENABLE brings from OFF (R57 to R59). DESIGN CHOICE (log entry 72): the staged plan is the one held when LOADING begins, so
after a PLAN_DISCARD during the drain the Quarter loads its old District. -/
def loadingPlan (s : State) (q : Nat) (rezone : Bool) : Option PlanImage :=
  if s.plan.applyCur = some q then s.plan.applying else if rezone then s.plan.image else none

/-- A Quarter enters LOADING (R57, R59, R299): its engines stop and load. -/
def enterLoading (q : Nat) (rezone : Bool) (s : State) : State :=
  let s1 := match loadingPlan s q rezone with
    | none => s
    | some i =>
      setQtr { s with plan := { s.plan with
          districts := match look i.districts q with | none => s.plan.districts | some d => put s.plan.districts q d,
          mc := mergeMc s.plan.mc i.mc, bist := mergeBist s.plan.bist i.bist } } q (fun t => { t with planId := i.planId })
  let d := districtOf s1 q
  rezoneEngines q (setQtr s1 q (fun t => { t with
    en := t.en || !allOff d, state := 5, drain := none, pend := false, isRezone := rezone, mcSet := d.mcSet, weight := d.weight }))

/-- A drain is accepted: it is pending until the next Guard window opens (R60). -/
def startDrain (q target : Nat) (rezone : Bool) (s : State) : State :=
  setQtr s q (fun t => { t with drain := some target, pend := true, edge := false, isRezone := rezone })

/-- Is another Quarter in a rezone or disable drain, LOADING or TESTING (R58)? -/
def otherBusy (s : State) (q : Nat) : Bool :=
  s.quarters.any (fun e => decide (e.1 ≠ q) &&
    ((draining e.2 && (e.2.isRezone || decide (e.2.drain = some 0))) || decide (e.2.state = 5) || decide (e.2.state = 6)))

/-- The first check of R58 that a REZONE fails. -/
def rezoneCode (s : State) (q : Nat) (fromApply : Bool) : Option Code :=
  let t := qtrOf s q
  if !(decide (t.state = 0) || (decide (t.state = 1) && !t.pend) || decide (t.state = 2) || decide (t.state = 7)) then some 0x0121
  else if otherBusy s q then some 0x0122
  else if !fromApply && (match s.plan.image with | none => true | some i => !i.partPlan || (look i.districts q).isNone) then some 0x0120
  else if !partCapacityOk s q then some 0x011F
  else none

/-- A REZONE that has passed its checks (R57). -/
def startRezone (q : Nat) (s : State) : State := if (qtrOf s q).state = 1 then startDrain q 5 true s else enterLoading q true s

/-- QTR_REZONE.GO, or REZONE with OP 0 (R57, R58): the code, 0 when it is accepted. -/
def rezoneGo (q : Nat) (s : State) : Code × State :=
  match rezoneCode s q false with
  | some c => (c, qtrRefuse q c s)
  | none => (0, startRezone q s)

/-- QTR_REZONE.RETIRE, or REZONE with OP 1 (R57). -/
def rezoneRetire (q : Nat) (s : State) : Code × State :=
  let t := qtrOf s q
  if t.state = 0 ∨ t.state = 4 ∨ t.state = 7 then (0x0121, qtrRefuse q 0x0121 s) else (0, retireQuarter q s)

/-- QTR_REZONE_GO: the accepted guarded write. -/
def execQtrRezoneGo (quarter : Nat) (s : State) : Host.Outcome State Fault Refusal :=
  blockWrite 0 0 s (fun s => if quarter < 16 then (rezoneGo quarter s).2 else s)

/-- QTR_REZONE_RETIRE: the accepted guarded write. -/
def execQtrRezoneRetire (quarter : Nat) (s : State) : Host.Outcome State Fault Refusal :=
  blockWrite 0 0 s (fun s => if quarter < 16 then (rezoneRetire quarter s).2 else s)

/-- The REZONE command (R381): PF only, its completion posted when it is accepted or refused. -/
def rezoneCmd (h : Hdr) (quarter pad : Nat) (f : State → Code × State) (s : State) : State :=
  if h.fn ≠ 0 then refuse h 0x0E 0x0402 s
  else if h.token ≠ 0 ∨ pad ≠ 0 ∨ 16 ≤ quarter then refuse h 0x0E 0x0403 s
  else
    let (c, s1) := f s
    complete h 0x0E c [] s1

/-- REZONE_GO (R57, R381). -/
def execRezoneGo (h : Hdr) (quarter pad : Nat) (s : State) : Host.Outcome State Fault Refusal :=
  plainCmd h s (rezoneCmd h quarter pad (rezoneGo quarter))

/-- REZONE_RETIRE (R57, R381). -/
def execRezoneRetire (h : Hdr) (quarter pad : Nat) (s : State) : Host.Outcome State Fault Refusal :=
  plainCmd h s (rezoneCmd h quarter pad (rezoneRetire quarter))

/-- QTR_ENABLE (R57, R58, R69). -/
def execQtrEnable (quarter : Nat) (s : State) : Host.Outcome State Fault Refusal :=
  blockWrite 0 0 s (fun s =>
    let t := qtrOf s quarter
    if 16 ≤ quarter ∨ t.en = true then s
    else if t.state ≠ 0 ∨ allOff (districtOf s quarter) = true then qtrRefuse quarter 0x0121 s
    else enterLoading quarter false s)

/-- QTR_DISABLE (R57, R58). -/
def execQtrDisable (quarter : Nat) (s : State) : Host.Outcome State Fault Refusal :=
  blockWrite 0 0 s (fun s =>
    let t := qtrOf s quarter
    if 16 ≤ quarter ∨ t.en = false then s
    else if t.state = 2 then setQtr s quarter (fun t => { t with en := false, state := 0 })
    else if t.state = 1 ∧ t.pend = false then
      if otherBusy s quarter then qtrRefuse quarter 0x0122 s
      else setQtr (startDrain quarter 0 false s) quarter (fun t => { t with en := false })
    else qtrRefuse quarter 0x0121 s)

/-- The lowest-numbered SPARE Quarter. -/
def firstSpare (s : State) : Option Nat := (List.range 16).find? (fun k => decide ((qtrOf s k).state = 2))

/-- A Quarter enters SERVICE: its fallback and over-cadence counts start again (R120). -/
def enterService (q : Nat) (s : State) : State := setQtr s q (fun t => { t with state := 1, fbCount := 0, overcad := 0 })

/-- QUARTER_CLOSING_EDGE (R60, R61): in the Guard window that opens next after the trigger's acceptance; the spare call, and the sessions that are not
ACTIVE move. -/
def execQuarterClosingEdge (quarter : Nat) (s : State) : Host.Outcome State Fault Refusal :=
  live s (fun s =>
    let t := qtrOf s quarter
    if t.state = 1 ∧ t.pend = true ∧ t.edge = true ∧ s.bell.window = .guard then
      let s1 := setQtr s quarter (fun t => { t with state := 3, pend := false, edge := false, detours := 0 })
      let s2 := match (if t.drain = some 2 then none else firstSpare s1) with
        | none => s1
        | some k => enterService k s1
      (s2.sessions.filter (fun e => decide (e.2.state ≠ 2))).foldl (fun s e => replaceIdle e.1 s) s2
    else s)

/-- Is a task dispatched to a Quarter uncommitted (R62): an encode band or a decode band? -/
def taskOn (s : State) (q : Nat) : Bool :=
  s.sessions.any (fun e =>
    e.2.frames.any (fun f => f.bands.any (fun b => decide (b.2.quarter = q) && (decide (b.2.st = 1) || decide (b.2.st = 2)))) ||
    e.2.dec.queue.any (fun a => a.run.any (fun b => decide (b.quarter = q))))

/-- QUARTER_DRAINED (R62). -/
def execQuarterDrained (quarter : Nat) (s : State) : Host.Outcome State Fault Refusal :=
  live s (fun s =>
    if (qtrOf s quarter).state = 3 ∧ s.sessions.all (fun e => decide (planQuarter e.2 ≠ quarter)) = true ∧ taskOn s quarter = false then
      let m := nowMark s
      setQtr (stamp s) quarter (fun t => { t with state := 4, mark := some m, sinks := 0 })
    else s)

/-- QUARTER_ENTER_TARGET (R57): at the Bell start after DRAINED. -/
def execQuarterEnterTarget (quarter : Nat) (s : State) : Host.Outcome State Fault Refusal :=
  live s (fun s =>
    let t := qtrOf s quarter
    if t.state = 4 ∧ atStart s = true ∧ (match t.mark with | none => false | some m => decide (m.bell ≠ s.bell.num)) = true then
      match t.drain with
      | some 5 => enterLoading quarter true s
      | some d => setQtr s quarter (fun t => { t with state := d, drain := none, isRezone := false, passed := none })
      | none => s
    else s)

/-- A measurement is extended (R545). -/
def extendMeas (i : Nat) (d : BitVec 384) (s : State) : State :=
  { s with sec := { s.sec with meas := put s.sec.meas i (Config.extend (lookD s.sec.meas i 0) d) } }

/-- Functional readiness (R543): the first plan is applied, no Quarter is LOADING or TESTING and the key store is loaded. -/
def readiness (s : State) : State :=
  if s.sec.stage = 3 ∧ s.plan.first = true ∧ s.sec.ready = true ∧ s.quarters.all (fun e => decide (e.2.state ≠ 5 ∧ e.2.state ≠ 6)) = true then
    { s with sec := { s.sec with stage := 4 } }
  else s

/-- QUARTER_LOAD_DONE (R57, R67, R307): ok says that every store read back hashes to its digest; an image that the library does not hold has none. -/
def execQuarterLoadDone (quarter : Nat) (ok : Bool) (s : State) : Host.Outcome State Fault Refusal :=
  live s (fun s =>
    if (qtrOf s quarter).state ≠ 5 then s
    else if ok && storesFound s quarter then setQtr (loadStores quarter s) quarter (fun t => { t with state := 6 })
    else readiness (setQtr s quarter (fun t => { t with state := 7, reason := 0x0124, isRezone := false })))

/-- The engines of a Quarter take the roles of its District and wait at DISPATCH; an OFF engine stays off (R40, R291). -/
def readyEngines (q : Nat) (s : State) : State :=
  (List.range 32).foldl (fun s k =>
    let r := (districtOf s q).roles.getD k 6
    setEng s (32 * q + k) (fun e => { e with state := if r = 6 then 0 else 2, role := r, mcSet := (districtOf s q).mcSet })) s

/-- The Quarters that are SPARE. -/
def spareCount (s : State) : Nat := ((List.range 16).filter (fun k => decide ((qtrOf s k).state = 2))).length

/-- The lowest-numbered Quarter below q that became SPARE by passing its BIST at this Bell. -/
def lowerSpare (s : State) (q : Nat) : Option Nat :=
  (List.range q).find? (fun k => decide ((qtrOf s k).state = 2) && decide ((qtrOf s k).passed = some s.bell.num))

/-- A Quarter that passed its BIST becomes SPARE or enters SERVICE (R67). Of the Quarters that pass at one Bell the highest-numbered become SPARE, in
whatever order their passes are told: a lower one that became SPARE at this Bell gives way. -/
def passBist (q : Nat) (s : State) : State :=
  let s1 := setQtr s q (fun t => { t with isRezone := false, passed := some s.bell.num })
  let toSpare := fun (s : State) => setQtr s q (fun t => { t with state := 2 })
  if spareCount s < s.plan.cfg.spares then toSpare s1
  else match lowerSpare s q with
    | none => enterService q s1
    | some k => toSpare (enterService k s1)

/-- QUARTER_BIST_DONE (R57, R67). -/
def execQuarterBistDone (quarter : Nat) (ok : Bool) (s : State) : Host.Outcome State Fault Refusal :=
  live s (fun s =>
    if (qtrOf s quarter).state ≠ 6 then s
    else if ok then readiness (readyEngines quarter (passBist quarter s))
    else readiness (setQtr s quarter (fun t => { t with state := 7, reason := 0x0125, isRezone := false })))

/-! ### Applying a full plan -/

/-- A guarded write of 1 to PLAN_APPLY.APPLY (R54, R536): a staged plan whose SVN has fallen below the minimum is refused with 0x0109. -/
def planApply (s : State) : State :=
  if applyRuns s then planRefuse 0x0101 s
  else
    match s.plan.image with
    | none => planRefuse 0x0120 s
    | some i =>
      if i.partPlan then planRefuse 0x0126 s
      else if i.svn < lookD s.sec.svn 2 0 then planRefuse 0x0109 s
      else if !fullCapacityOk s i then planRefuse 0x011F s
      else { s with plan := { s.plan with
        reason := 0, accepted := true, acceptedAt := s.bell.num, applying := some i, applySt := 1, applyQ := 0 } }

/-- PLAN_APPLY (R54): the accepted guarded write. -/
def execPlanApply (s : State) : Host.Outcome State Fault Refusal := blockWrite 0 0 s planApply

/-- The contents of a microcode set: its entry for each ROLE of R42, in the order of the roles. -/
def setContents (es : List McEntry) (k : Nat) : List (Option McEntry) :=
  mcRoles.map (fun r => es.find? (fun e => decide (e.set = k) && decide (e.role = r)))

/-- Does a Quarter's District, or the contents of its set, differ from those in force (R55)? -/
def districtDiffers (s : State) (i : PlanImage) (q : Nat) : Bool :=
  let d := (look i.districts q).getD (districtOf s q)
  decide (d ≠ districtOf s q) || decide (setContents i.mc d.mcSet ≠ setContents s.plan.mc d.mcSet)

/-- The pool counts and quotas of a plan (R45, R347, R351): raised counts append, lowered ones wait for an empty pool. -/
def takePools (c : PlanCfg) (s : State) : State :=
  let counts : NMap Nat := (List.range 5).map (fun k => (k, c.counts.getD k 0))
  let s1 := { s with pool := { s.pool with quota := (List.range 25).map (fun k => (k, c.quotas.getD k 0)), fnQuota := [] } }
  if counts.any (fun e => decide (e.2 < lookD s1.pool.count e.1 0)) then { s1 with pool := { s1.pool with nextCount := some counts } }
  else settleRetired (appendPool counts s1)

/-- The apply of a plan sets QTR_CTRL.ENABLE for every District that is not all OFF (R69); a Quarter that is OFF and not to be rezoned then loads, as
ENABLE set makes it (R57). -/
def applyEnables (i : PlanImage) (s : State) : State :=
  (List.range 16).foldl (fun s q =>
    if allOff ((look i.districts q).getD (districtOf s q)) then s
    else if (qtrOf s q).state = 0 ∧ (qtrOf s q).en = false ∧ q ∉ s.plan.rezoning then enterLoading q false s
    else setQtr s q (fun t => { t with en := true })) s

/-- PLAN_APPLY_TAKE_EFFECT (R55): at the Bell start after the acceptance step 1, and the Quarters that steps 2 and 3 will take. -/
def execPlanApplyTakeEffect (s : State) : Host.Outcome State Fault Refusal :=
  live s (fun s =>
    match s.plan.applying with
    | none => s
    | some i =>
      if !s.plan.accepted || !atStart s || decide (s.plan.acceptedAt = s.bell.num) then s
      else
        let rise := i.cfg.spares - s.plan.cfg.spares
        let inService := ((List.range 16).reverse).filter (fun k => decide ((qtrOf s k).state = 1))
        applyEnables i (takePools i.cfg { s with plan := { s.plan with
          accepted := false, releasing := inService.take rise, rezoning := (List.range 16).filter (districtDiffers s i), applyCur := none,
          cfg := i.cfg, priors := i.priors } }))

/-- The apply ends (R55, R56). -/
def endApply (p : Plan) (st : Nat) (s : State) : State :=
  pulse 0x071 { s with plan := { p with applySt := st, applying := none, releasing := [], rezoning := [], applyCur := none } }

/-- The next Quarter of an apply is drained or rezoned, or the apply completes (R55). A Quarter that cannot be taken yet waits (log entry 50). -/
def nextStep (s : State) : State :=
  match s.plan.applying with
  | none => s
  | some i =>
    match s.plan.releasing with
    | q :: t =>
      let s1 := { s with plan := { s.plan with releasing := t, applyCur := some q, applyRel := true } }
      if (qtrOf s q).state = 1 ∧ (qtrOf s q).pend = false then startDrain q 2 false s1 else s1
    | [] =>
      match s.plan.rezoning with
      | q :: t =>
        if (rezoneCode s q true).isSome then s
        else startRezone q { s with plan := { s.plan with rezoning := t, applyCur := some q, applyRel := false, applyQ := q } }
      | [] =>
        extendMeas 5 i.digest
          (endApply { s.plan with activeId := i.planId, activeSvn := i.svn, digest := i.digest, mc := i.mc, bist := i.bist } 2 s)

/-- APPLY_STEP_ADVANCE (R55, R56): a rezone that ended in RETIRED stops the apply with the rezone's code. -/
def execApplyStepAdvance (s : State) : Host.Outcome State Fault Refusal :=
  live s (fun s =>
    if s.plan.applySt ≠ 1 ∨ s.plan.accepted = true then s
    else
      match s.plan.applyCur with
      | none => nextStep s
      | some q =>
        let t := qtrOf s q
        if t.pend ∨ (3 ≤ t.state ∧ t.state ≤ 6) then s
        else if t.state = 7 ∧ s.plan.applyRel = false then endApply { s.plan with reason := t.reason } 3 s
        else nextStep s)

/-! ### Migration and effort at a Bell start -/

/-- The keys of a list in descending order of a number, lower keys first on a tie. -/
def byCost (l : List (Nat × Nat)) : List Nat :=
  (l.foldl (fun (acc : List (Nat × Nat)) e =>
    let (a, b) := acc.span (fun x => decide (e.2 ≤ x.2))
    a ++ e :: b) []).map (fun e => e.1)

/-- The ACTIVE sessions that planning counts on a Quarter. -/
def activeOn (s : State) (q : Nat) : List (Nat × Session) :=
  s.sessions.filter (fun e => decide (e.2.state = 2) && decide (planQuarter e.2 = q))

/-- They, the costliest first (R90, R118). -/
def costliest (s : State) (q : Nat) : List Nat := byCost ((activeOn s q).map (fun e => (e.1, avgCost (loadOf s e.2))))

/-- A migration is decided (R90): the session counts on its new Quarter and runs there from the next Bell. -/
def migrate (n q e : Nat) (s : State) : State :=
  let s1 := setSess s n (fun x => { x with
    moveTo := if q = x.quarter then none else some q, moved := some s.bell.num, effortTo := if e = planEffort x then x.effortTo else some e })
  stat n 30 1 { s1 with sess := { s1.sess with migrated := up s1.sess.migrated 1 } }

/-- Step 1 of R118: the efforts of a Quarter's sessions fall, the costliest first; n bounds the steps. -/
def lowerEfforts (n q : Nat) (s : State) : State :=
  match n with
  | 0 => s
  | n + 1 =>
    if !overFull s q then s
    else
      match (costliest s q).find? (fun h => match look s.sessions h with | none => false | some x => decide (x.kind = 0) && decide (x.stream.effortMin < planEffort x)) with
      | none => s
      | some h => lowerEfforts n q (setSess s h (fun x => { x with effortTo := some (planEffort x - 1) }))

/-- The Quarter and effort that a session would move to: the order at each effort (R66, R90). -/
def moveTarget (s : State) (n : Nat) (x : Session) : Option (Nat × Nat) :=
  firstFit s (some n) (loadOf s x) x.phase ((placeOrder s).filter (fun q => decide (q ≠ planQuarter x)))
    (effortsDown (planEffort x) (min (planEffort x) x.stream.effortMin))

/-- Overload migrations of one Quarter (R90); left bounds those of this burst. -/
def relieve (q : Nat) (hs : List Nat) (left : Nat) (s : State) : Nat × State :=
  match hs with
  | [] => (left, s)
  | h :: t =>
    if left = 0 ∨ overFull s q = false then (left, s)
    else
      match (look s.sessions h).bind (fun x => moveTarget s h x) with
      | none => relieve q t left s
      | some (k, e) => relieve q t (left - 1) (migrate h k e s)

/-- A Quarter's utilisation (R90). -/
def utilisation (s : State) (q : Nat) : Rat := (pixPeak s q : Rat) * 100 / (max 1 (pixCap s q * 8) : Rat)

/-- The most and the least utilised SERVICE Quarters (R90). -/
def extremes (s : State) : Option (Nat × Nat) :=
  (serving s).foldl (fun (b : Option (Nat × Nat)) q =>
    match b with
    | none => some (q, q)
    | some (hi, lo) => some (if utilisation s hi < utilisation s q then q else hi, if utilisation s q < utilisation s lo then q else lo)) none

/-- May balancing move a session to Quarter lo (R90)? DESIGN CHOICE (log entry 79): a move exactly MIN_BELLS Bells ago is still within the last MIN_BELLS
Bells. -/
def balances (s : State) (hi lo h : Nat) (x : Session) : Bool :=
  (match x.moved with | none => true | some b => decide (fld s.sess.migrate 31 16 < bellsFrom b s.bell.num)) &&
  admits s lo (some h) (loadOf s x) x.phase &&
  decide ((((plannedPeak (baseOf s) ({ loadOf s x with phase := x.phase.getD 0 } :: loadsOn s lo (some h))).1 : Nat) : Rat) * 100 / (max 1 (pixCap s lo * 8) : Rat) <
    utilisation s hi)

/-- Balancing migrations (R90); n bounds those of this burst. -/
def balance (n : Nat) (s : State) : State :=
  match n with
  | 0 => s
  | n + 1 =>
    match extremes s with
    | none => s
    | some (hi, lo) =>
      if utilisation s hi - utilisation s lo ≤ (fld s.sess.migrate 15 8 : Rat) then s
      else
        match (activeOn s hi).find? (fun e => balances s hi lo e.1 e.2) with
        | none => s
        | some (h, x) => balance n (migrate h lo (planEffort x) s)

/-- The decisions of a Bell start (R90, R118): efforts, overload, balancing; at most 64 migrations. -/
def rebalance (s : State) : State :=
  let s1 := (serving s).foldl (fun s q => lowerEfforts (2 * (activeOn s q).length) q s) s
  let (left, s2) := (serving s1).foldl (fun (acc : Nat × State) q => relieve q (costliest acc.2 q) acc.1 acc.2) (64, s1)
  if bit s2.sess.migrate 0 then balance left s2 else s2

/-- The migrations decided in the Bell before are done: the tasks run on the new Quarters (R90). -/
def takeMoves (s : State) : State :=
  { s with sessions := s.sessions.map (fun e =>
      (e.1, match e.2.moveTo with | none => e.2 | some q => { e.2 with quarter := q, moveTo := none })) }

/-! ### Demotion (R92, R93) -/

/-- The free buffers of a class. -/
def freeCount (s : State) (c : Nat) : Nat := runsLen (lookD s.pool.free c [])

/-- Does a session hold an extent of a class? -/
def holdsClass (x : Session) (c : Nat) : Bool := x.pics.any (fun e => e.2.extents.any (fun w => decide (hClass w = c)))

/-- Is a RESUME of a session pending, be it that the partner is still asked (R94, R437, R600)? -/
def resumePending (s : State) (n : Nat) (x : Session) : Bool :=
  (match x.pend with | some p => decide (p.kind = 2) | none => false) ||
  s.tandem.waiting.any (fun w => match w.cmd with | .resume _ _ => decide (w.handle = n) | _ => false)

/-- The PARKED session that is demoted next: the lowest PARK_MARK, the lower handle on a tie; a pending RESUME protects (R93, R94). -/
def demoteNext (s : State) (c : Nat) : Option Nat :=
  (s.sessions.foldl (fun (b : Option (Nat × Mark)) e =>
    match e.2.parkMark with
    | none => b
    | some m =>
      if e.2.state = 4 ∧ resumePending s e.1 e.2 = false ∧ holdsClass e.2 c = true then
        match b with
        | none => some (e.1, m)
        | some (_, m0) => if m.before m0 then some (e.1, m) else b
      else b) none).map (fun e => e.1)

/-- One session is demoted (R92, R93). -/
def demote (n : Nat) (s : State) : State :=
  let s1 := setSess (freeRefs n s) n (fun x => { x with state := 5, parkMark := none })
  tellPartner n 5 (notice n 0x020B { s1 with sess := { s1.sess with demote := up s1.sess.demote 1 } })

/-- Sessions are demoted until the free count reaches the high watermark; n bounds them. -/
def demoteUntil (n c hi : Nat) (s : State) : State :=
  match n with
  | 0 => s
  | n + 1 =>
    if hi ≤ freeCount s c then s
    else match demoteNext s c with | none => s | some h => demoteUntil n c hi (demote h s)

/-- The Depot at a Bell start (R92). -/
def depotCheck (s : State) : State :=
  [0, 1].foldl (fun s k =>
    if freeCount s (3 + k) < lookD s.sess.wm (2 * k) 0 ∧ s.sess.en = true then demoteUntil s.sessions.length (3 + k) (lookD s.sess.wm (2 * k + 1) 0) s else s) s

/-! ### The paging burst (R66, R85 to R88) -/

/-- An ACTIVE session leaves a CLOSING Quarter, or is parked where it fits nowhere (R61, R66). -/
def leaveQuarter (n : Nat) (s : State) : State :=
  match look s.sessions n with
  | none => s
  | some x =>
    match moveTarget s n x with
    | some (q, e) => migrate n q e s
    | none => if x.pend.isSome then s else setPending n 4 none none s

/-- The migrations out of the CLOSING Quarters: at most 64 from each, in ascending handle order (R61). -/
def drainBurst (s : State) : State :=
  ((List.range 16).filter (fun q => decide ((qtrOf s q).state = 3))).foldl (fun s q =>
    (((activeOn s q).filter (fun e => match e.2.pend with | none => true | some p => decide (p.kind ≠ 4))).take 64).foldl
      (fun s e => leaveQuarter e.1 s) s) s

/-- A waiting page-in: its cause's mark and requester, and its handle. -/
abbrev PageIn := Mark × Nat × Nat

/-- Page-ins in the order of their marks, then of their requesters (R87). -/
def insertPage (p : PageIn) (l : List PageIn) : List PageIn :=
  match l with
  | [] => [p]
  | a :: t => if p.1.before a.1 || (decide (p.1 = a.1) && decide (p.2.1 < a.2.1)) then p :: a :: t else a :: insertPage p t

/-- The waiting page-ins. -/
def pageIns (s : State) : List PageIn :=
  s.sessions.foldl (fun l e => match e.2.cause with | none => l | some c => if e.2.resident then l else insertPage (c.1, c.2, e.1) l) []

/-- The least recently used record of the cache that is not pinned (R87). DESIGN CHOICE (log entry 79): a record with a RESUME pending stays, since R95
makes its session ACTIVE at the next Bell start. -/
def victim (s : State) : Option Nat :=
  (s.sessions.foldl (fun (b : Option (Nat × Nat)) e =>
    if e.2.resident && !e.2.pinned && !resumePending s e.1 e.2 then
      match b with
      | none => some (e.1, e.2.lru)
      | some (_, l) => if e.2.lru < l then some (e.1, e.2.lru) else b
    else b) none).map (fun e => e.1)

/-- A record is evicted to the Depot when the cache is full (R85, R87); without a victim there is no room. -/
def makeRoom (s : State) : Option State :=
  if (s.sessions.filter (fun e => e.2.resident)).length < 4096 then some s
  else
    match victim s with
    | none => none
    | some v =>
      let s1 := setSess s v (fun x => { x with resident := false })
      some (writeRecord v { s1 with sess := { s1.sess with pageOut := up s1.sess.pageOut 1 } })

/-- A record that fails its check is not used; its session closes at the next Bell start, as a CLOSE accepted now closes it (R76, R85). -/
def recordFails (n : Nat) (s : State) : State :=
  match look s.sessions n with
  | none => s
  | some x =>
    let s1 := raise winSess 0 0x020C false (fun s => s) (notice n 0x020C (setSess s n (fun x => { x with cause := none })))
    if x.pend.any (fun p => decide (p.kind = 3)) then s1 else setPending n 3 none (x.pend.bind (fun p => p.hdr.map (fun q => (pendOpcode p.kind, q)))) s1

/-- One page-in (R85, R87): the record that stands in the Depot is read and its CHECK verified; bad lists the records that memory delivers damaged. -/
def pageIn (bad : List Nat) (n : Nat) (s : State) : State :=
  match makeRoom s with
  | none => s
  | some s1 =>
    let s2 := { s1 with sess := { s1.sess with pageIn := up s1.sess.pageIn 1 } }
    if decide (n ∈ bad) || !recordOk s2 n then recordFails n s2
    else touch n (stat n 29 1 (setSess s2 n (fun x => { x with resident := true, cause := none })))

/-- PAGING_BURST (R22, R61, R66, R85, R87): once per Guard window. DESIGN CHOICE (log entry 79): a page-in that waits through several bursts counts in
SESS_WAKE_DEFER once for each. -/
def execPagingBurst (bad : List Nat) (s : State) : Host.Outcome State Fault Refusal :=
  live s (fun s =>
    if s.bell.window ≠ .guard ∨ s.sess.burst = true then s
    else
      let s1 := drainBurst { s with sess := { s.sess with burst := true } }
      let l := pageIns s1
      let s2 := { s1 with sess := { s1.sess with wakeDefer := up s1.sess.wakeDefer (l.length - 512) } }
      (l.take 512).foldl (fun s p => pageIn bad p.2.2 s) s2)

/-! ### Boulevard requests -/

/-- A request to a Quarter about a session (R63, R64): a Detour, an acknowledgement, or the change and its acknowledgement. -/
def sessionRequest (r : BlvdReq) (q n : Nat) (newWork changes : Bool) (s : State) : State :=
  let t := qtrOf s q
  match look s.sessions n with
  | none => s
  | some x =>
    if 3 ≤ t.state ∧ t.state ≤ 6 ∧ (planQuarter x ≠ q ∨ newWork = true) then
      emit (.detour r.req r.mark) (setQtr s q (fun t => { t with detours := up t.detours 1 }))
    else if t.state ≠ 1 ∧ t.state ≠ 3 then s
    else if changes && !(x.applied.any (fun a => decide (a = (r.req, r.mark)))) then
      emit (.ack r.req r.mark) (setSess s n (fun x => { x with applied := ((r.req, r.mark) :: x.applied).take 16 }))
    else emit (.ack r.req r.mark) s

/-- A Boulevard request reaches its target (R7, R8, R63): the Square's memory channels, or a Quarter. -/
def boulevard (r : BlvdReq) (s : State) : State :=
  match r.op with
  | .dramRead a ecc act early raa =>
    if a < capacity s ∧ chanUp s (locOf s a).ch = true then
      let ((d, p), s1) := readLine r.req a ecc act early raa s
      emit (.line r.req r.mark d p) s1
    else s
  | .dramWrite a bs ecc act early raa =>
    if a < capacity s ∧ chanUp s (locOf s a).ch = true ∧ a % 64 + bs.length ≤ 64 then
      emit (.ack r.req r.mark) (writeLine r.req a bs ecc act early raa s)
    else s
  | .session q n newWork changes => sessionRequest r q n newWork changes s

/-- BOULEVARD_REQUEST (R7, R8). -/
def execBoulevardRequest (r : BlvdReq) (s : State) : Host.Outcome State Fault Refusal := live s (boulevard r)

/-- REQUEST_RETRY_TIMEOUT (R64): the same request with the same log mark. -/
def execRequestRetryTimeout (r : BlvdReq) (s : State) : Host.Outcome State Fault Refusal := live s (boulevard r)

/-- DETOUR_REISSUE (R32, R63): the placement is resolved again and the request goes to the new Quarter with the retry log mark. -/
def execDetourReissue (r : BlvdReq) (s : State) : Host.Outcome State Fault Refusal :=
  live s (fun s =>
    match r.op with
    | .session _ n w c => match look s.sessions n with | none => s | some x => boulevard { r with op := .session (planQuarter x) n w c } s
    | _ => s)

/-- DRAINED_REPLY_SINK (R65): the rule still holds after the Quarter returns to service. -/
def execDrainedReplySink (quarter : Nat) (mark : DWord) (s : State) : Host.Outcome State Fault Refusal :=
  live s (fun s =>
    match (qtrOf s quarter).mark with
    | none => s
    | some m => if mark.toNat < m.image.toNat then setQtr s quarter (fun t => { t with sinks := up t.sinks 1 }) else s)

end Sys2Proof.Machine
end

