-- ==== Sys2Proof/Machine/Decoder.lean ====
section
/-! DEFINITION. Decoding (R254 to R287): DECODE_SUBMIT, access units, peer streams, decode bands, output, protected extents, and BAND_CHECK, which
checks the band of an encode session and commits that of a decode session. -/

namespace Sys2Proof.Machine

open Sys2Proof

/-- A counter of the DEC block, by its register offset (R287). -/
def decCount (off k : Nat) (s : State) : State := { s with dec := { s.dec with cnt := bump s.dec.cnt off k } }

/-- An event of a session with a code and no payload. -/
def decEvent (n : Nat) (code : Code) (s : State) : State := notice n code s

/-! ### DECODE_SUBMIT -/

/-- A DECODE_SUBMIT on the session of its TOKEN, with the refusals that every OP shares. -/
def onDecode (h : Hdr) (s : State) (f : Nat → Session → State → State) : State :=
  onToken h 0x0C s (fun n x s =>
    if x.kind ≠ 1 then refuse h 0x0C 0x0C01 s else if !s.dec.en then refuse h 0x0C 0x0C0E s else f n x s)

/-- The values of BIND for a PROTECTED session (R255). -/
def bindProt (o : BindOps) : Bool :=
  decide (o.outCount = 0) && decide (o.flow = 0) && decide (o.outAddr = 0) && decide (o.outPitch = 0) && decide (o.outStride = 0) &&
  decide (o.reorderBells = 0) && decide (1 ≤ o.crypt % 16) && decide (o.crypt / 16 < 16)

/-- The values of BIND for a PEER or HOST session (R255). -/
def bindOut (x : Session) (o : BindOps) : Bool :=
  decide (2 ≤ o.outCount) && decide (o.outCount ≤ 16) && decide (o.outAddr.toNat % 4096 = 0) && decide (o.outPitch % 256 = 0) &&
  decide (x.stream.width * (x.stream.depth + 1) ≤ o.outPitch) && decide (o.outStride % 4096 = 0) &&
  decide (o.outPitch * x.stream.height * 3 / 2 ≤ o.outStride) && decide (o.crypt = 0) && decide (o.keySlot = 0) && decide (o.iv = 0) &&
  (if o.use = 1 then decide (o.flow ≤ 65535) && decide (1 ≤ o.reorderBells) && decide (o.reorderBells ≤ 64)
   else decide (o.flow = 0) && decide (o.reorderBells = 0))

/-- The values of BIND (R255). -/
def bindOk (x : Session) (o : BindOps) : Bool :=
  decide (o.use ≤ 2) && decide (o.flags < 4) && decide (o.pad = 0) && (decide (o.flags < 2) || decide (x.stream.codec ≠ 0)) &&
  (if o.use = 0 then bindProt o else bindOut x o)

/-- Is a later BIND one that R255 allows: of a PROTECTED session, changing only CRYPT, KEY_SLOT and IV? -/
def rebindOk (old o : BindOps) : Bool :=
  decide (old.use = 0) && decide ({ o with crypt := old.crypt, keySlot := old.keySlot, iv := old.iv } = old)

/-- Is the flow of a PEER BIND a free ingress flow of the function (R256)? -/
def peerFlowOk (s : State) (n fn flow : Nat) : Bool :=
  match look s.net.flows flow with
  | none => false
  | some f => decide (f.kind = 1) && decide (f.fn = fn) && f.detach.isNone && (f.session.isNone || decide (f.session = some n))

/-- Does a slot hold a content key of the function (R256)? -/
def contentKeyOk (s : State) (fn slot : Nat) : Bool :=
  match look s.sec.keys slot with
  | none => false
  | some k => decide (k.kind = 0) && decide (k.ownerFn = fn)

/-- The refusals of BIND (R255, R256). -/
def bindCode (s : State) (n : Nat) (x : Session) (o : BindOps) : Option Code :=
  if !bindOk x o then some 0x0C02
  else
    match x.dec.bind with
    | some b =>
      if !rebindOk b o then some 0x0C04
      else if o.keySlot ≠ b.keySlot ∧ contentKeyOk s x.fn o.keySlot = false then some 0x0C08 else none
    | none =>
      if x.state ≠ 1 then some 0x0204
      else if o.use = 1 ∧ peerFlowOk s n x.fn o.flow = false then some 0x0C11
      else if o.use = 0 ∧ contentKeyOk s x.fn o.keySlot = false then some 0x0C08 else none

/-- DECODE_BIND (R255, R256). A key that a BIND no longer names is freed if its session has closed (R552). -/
def execDecodeBind (h : Hdr) (o : BindOps) (s : State) : Host.Outcome State Fault Refusal :=
  sessionCmd (.decodeBind h o) h 0x0C s (fun s => onDecode h s (fun n x s =>
    match bindCode s n x o with
    | some c => refuse h 0x0C c s
    | none =>
      let s1 := setDec s n (fun d => { d with bind := some o })
      let s2 := if o.use = 1 then setFlow s1 o.flow (fun f => { f with session := some n }) else s1
      complete h 0x0C 0 [] (sweepKeys s2)))

/-- An access unit is discarded (R400 counter 36). -/
def countDiscard (n : Nat) (s : State) : State := stat n 36 1 s

/-- The access unit in progress of DATA is discarded (R257, R258): its copied buffers go, and its chunks that are still being copied count for
nothing; ended says how many of the running chunks belong to it: those up to the first END, or all since the last one. -/
def discardPart (n : Nat) (newest : Bool) (s : State) : State :=
  match look s.sessions n with
  | none => s
  | some x =>
    let ends := fun (c : Chunk) => c.ops.flags.testBit 0
    let cs := x.dec.chunks
    let k := (cs.takeWhile (fun c => !ends c)).length
    let later := (cs.reverse.takeWhile (fun c => !ends c)).length
    let single := decide (k = cs.length)
    let cs1 := if newest then cs.take (cs.length - later) ++ (cs.drop (cs.length - later)).map (fun c => { c with dead := true })
               else (cs.take (k + 1)).map (fun c => { c with dead := true }) ++ cs.drop (k + 1)
    let own := !newest || single
    let s1 := setDec s n (fun d => { d with
      chunks := cs1, part := if own then none else d.part, nChunks := if newest || single then 0 else d.nChunks,
      nBytes := if newest || single then 0 else d.nBytes })
    countDiscard n (match (if own then x.dec.part else none) with | none => s1 | some p => dropAll (sessReq n) p.2 s1)

/-- The entries of a subsample table: bytes of clear and of protected data (R262). -/
def subEntries (n : Nat) (b : List Byte) : List (Nat × Nat) :=
  (List.range n).map (fun i => (leNat ((b.drop (8 * i)).take 2), leNat ((b.drop (8 * i + 4)).take 4)))

/-- The sum of a subsample table's entries (R257). -/
def subsTotal (o : DataOps) : Nat := ((subEntries o.subsCount o.subs).map (fun e => e.1 + e.2)).sum

/-- The refusals of DATA that leave the access unit in progress as it is (R257, R259), in the order in which R257 gives them. -/
def dataCode (x : Session) (o : DataOps) : Option Code :=
  match x.dec.bind with
  | none => some 0x0C03
  | some b =>
    let enc := o.flags.testBit 1
    if b.use = 1 ∨ (enc = true ∧ b.use = 2) then some 0x0C05
    else if !(decide (1 ≤ x.state) && decide (x.state ≤ 3)) then some 0x0204
    else if x.dec.flush.isSome then some 0x0C10
    else if 8 ≤ o.flags ∨ o.pad ≠ 0 ∨ o.len = 0 ∨ 8388608 < o.len ∨
        (if enc then decide (o.subsCount = 0) || decide (o.subsAddr.toNat % 8 ≠ 0) else decide (o.subsCount ≠ 0) || decide (o.subsAddr ≠ 0)) = true then
      some 0x0C06
    else if enc = true ∧ (1024 < o.subsCount ∨ subsTotal o ≠ o.len) then some 0x0C07
    else none

/-- Does a chunk pass a limit of R257? -/
def chunkLimit (d : Dec) (o : DataOps) : Bool := decide (64 ≤ d.nChunks) || decide (67108864 < d.nBytes + o.len)


/-- DECODE_DATA (R257, R258): the chunk's buffer is allocated with promotion; its completion follows the copy. -/
def execDecodeData (h : Hdr) (o : DataOps) (s : State) : Host.Outcome State Fault Refusal :=
  sessionCmd (.decodeData h o) h 0x0C s (fun s => onDecode h s (fun n x s =>
    match dataCode x o with
    | some c => refuse h 0x0C c s
    | none =>
      if chunkLimit x.dec o then refuse h 0x0C 0x0C06 (decCount 0x24 1 (discardPart n true s))
      else
        match allocate (sessReq n) o.len true s with
        | (.error e, s1) => refuse h 0x0C e (discardPart n true s1)
        | (.ok w, s1) =>
          let s2 := if useProt x then markSecret w s1 else s1
          setDec s2 n (fun d => { d with
            chunks := d.chunks ++ [{ hdr := h, ops := o, bind := x.dec.bind, bufs := [w], dead := false }],
            nChunks := if o.flags.testBit 0 then 0 else d.nChunks + 1, nBytes := if o.flags.testBit 0 then 0 else d.nBytes + o.len })))

/-- DECODE_RELEASE (R259). -/
def execDecodeRelease (h : Hdr) (index pad : Nat) (s : State) : Host.Outcome State Fault Refusal :=
  sessionCmd (.decodeRelease h index pad) h 0x0C s (fun s => onDecode h s (fun n x s =>
    match x.dec.bind with
    | none => refuse h 0x0C 0x0C03 s
    | some b =>
      if b.outCount ≤ index ∨ pad ≠ 0 ∨ has x.dec.held index = false then refuse h 0x0C 0x0C0D s
      else complete h 0x0C 0 [] (setDec s n (fun d => { d with held := remS d.held index }))))

/-- A pending FLUSH ends once everything accepted before it has been decoded and output (R259): the DPB is emptied, but for the picture of
R265, and the next access unit starts a new stream. -/
def settleFlush (n : Nat) (s : State) : State :=
  match look s.sessions n with
  | none => s
  | some x =>
    match x.dec.flush with
    | none => s
    | some h =>
      if x.dec.chunks = [] ∧ x.dec.queue = [] ∧ x.dec.peer = [] ∧ x.pics.all (fun p => !p.2.shows) = true then
        let s1 := setSess s n (fun x => { x with
          pics := x.pics.map (fun p => (p.1, { p.2 with refd := false })), dec := { x.dec with flush := none, synced := false, rasl := false, recover := none } })
        complete h 0x0C 0 [] (sweepPics n s1)
      else s

/-- DECODE_FLUSH (R259). -/
def execDecodeFlush (h : Hdr) (pad : Nat) (s : State) : Host.Outcome State Fault Refusal :=
  sessionCmd (.decodeFlush h pad) h 0x0C s (fun s => onDecode h s (fun n x s =>
    if x.dec.bind.isNone then refuse h 0x0C 0x0C03 s
    else if pad ≠ 0 then refuse h 0x0C 0x0C06 s
    else if x.dec.flush.isSome then refuse h 0x0C 0x0C10 s
    else settleFlush n (setDec s n (fun d => { d with flush := some h }))))

/-! ### Access units -/

/-- Decoding starts at any access unit (R267). -/
def fromAny (x : Session) : Bool := match x.dec.bind with | none => false | some b => b.flags.testBit 0

/-- A complete access unit is discarded with its buffers. -/
def discardAu (n : Nat) (bufs : List Word) (s : State) : State := dropAll (sessReq n) bufs (countDiscard n s)

/-! ### Accepted sequences (R267 to R269) -/

/-- A level within the ceiling of R148: ten times the level, or level_idc 60 of R149 for AVC. -/
def levelOpen (codec : Nat) (q : SeqInfo) : Bool :=
  match codec with
  | 0 => decide (q.level ≤ 61)
  | 1 => decide (q.level ≤ 61) && !q.high
  | _ => decide (q.level ≤ 52) || decide (q.level = 60)

/-- Is a sequence supported (R268, R269)? -/
def seqOk (x : Session) (q : SeqInfo) : Bool :=
  let o := sized x
  decide (q.profile = o.profile) && (decide (q.chroma = 1) || (decide (q.chroma = 0) && decide (o.codec = 0))) &&
  decide (q.depth = (if o.depth = 1 then 10 else 8)) && levelOpen o.codec q && decide (q.width ≤ o.width) && decide (q.height ≤ o.height) &&
  decide (q.dpb ≤ 14) && !(decide (o.codec = 0) && q.largeScale) && decide (q.layers ≤ 1) && !(decide (o.codec = 2) && q.fields)

/-- Is an access unit a random access point (R267)? -/
def isRap (info : AuInfo) : Bool := decide (1 ≤ info.unit) && decide (info.unit ≤ 3)

/-- Does decoding go on, or start, at an access unit under a supported sequence (R267, R269)? After an unsupported sequence it resumes at a random
access point only, whatever FROM_ANY says. -/
def starts (x : Session) (info : AuInfo) : Bool := x.dec.synced || isRap info || (fromAny x && !x.dec.seqBad)

/-- The decode state as an access unit is taken (R267, R269): RASL pictures of a CRA or BLA picture at which decoding starts are not decoded. DESIGN
CHOICE (log entry 80): a BLA picture inside the stream starts it anew. -/
def takeUnit (info : AuInfo) (d : Dec) : Dec :=
  { d with
    synced := true, seqBad := false,
    rasl := if isRap info then decide (info.unit = 3) || (decide (info.unit = 2) && !d.synced) else d.rasl }

/-! ### Completion of access units -/

/-- Slot 0 of a picture (R272): the later of the first Bell congruent to the phase from its eligibility on, and slot 0 of the picture before plus F. -/
def decSlotZero (b : BitVec 40) (p f : Nat) (prev : Option (BitVec 40)) : BitVec 40 :=
  let z := congruentBell b p f
  match prev with
  | none => z
  | some q => let n := q + BitVec.ofNat 40 f; if bellsFrom z n < 2 ^ 39 then n else z

/-- The frame start of a decode session is admitted (R73, R111, R272): its code where it is not. A waiting configuration of an ACTIVE session is tested
whole. -/
def decodeStart (n : Nat) (m : Mark) (s : State) : Except Code State :=
  match look s.sessions n with
  | none => .error 0x0201
  | some x =>
    if pendingNow s n x then .error 0x0204
    else if x.state = 2 then .ok (touch n (boundaryStream n (resizeActive n 0 s)))
    else
      let y := configured x
      let l := { loadOf s y with o := sized y }
      match frameAdmit s n y l with
      | .error e => .error e
      | .ok (q, e) =>
        let y1 := askPage m 0x21A { y with quarter := q, moveTo := none, effort := e, effortTo := none, pinned := true, state := 2 }
        .ok (touch n (givePhase n { l with effort := e } { s with sessions := put s.sessions n y1 }))

/-- The access unit joins those that wait for their slot 0 (R272); its picture gets its descriptor when its first band is dispatched. A unit without a
coded picture only shows one decoded before. -/
def enqueueAu (n : Nat) (tag : Word) (bufs : List Word) (info : AuInfo) (q : SeqInfo) (m : Mark) (s : State) : State :=
  match look s.sessions n with
  | none => s
  | some x =>
    let st := sized x
    let zero := decSlotZero (eligBell s x) (x.phase.getD 0) (framesF s st.fps) x.zeroLast
    let au : Au := { tag := tag, bufs := bufs, info := info, seq := q, mark := m, elig := eligBell s x, slot0 := zero, desc := 16, refs := [], sent := 0,
                     cadBell := 0, cadNow := 0, run := [], vecs := [], missing := [] }
    let s1 := setSess s n (fun x => { x with
      stream := { x.stream with width := st.width, height := st.height }, sizeNext := none, frameMark := some m, woken := none, cfgDue := false,
      dec := takeUnit info x.dec })
    if info.height = 0 then dropAll (sessReq n) bufs s1
    else stat n 0 1 (setSess s1 n (fun x => { x with zeroLast := some zero, dec := { x.dec with queue := x.dec.queue ++ [au] } }))

/-- The access units that wait for their slot 0. -/
def waitingAus (s : State) (x : Session) : Nat :=
  (x.dec.queue.filter (fun a => decide (a.sent = 0) && decide (bellsFrom a.slot0 (sessBell s x) ≥ 2 ^ 39))).length

/-- An access unit under a supported sequence (R267, R272, R273). -/
def takeAu (n : Nat) (tag : Word) (bufs : List Word) (info : AuInfo) (q : SeqInfo) (s : State) : State :=
  match look s.sessions n with
  | none => s
  | some x =>
    if !starts x info then discardAu n bufs (decCount 0x20 1 s)
    else if x.dec.rasl && decide (info.unit = 4) then discardAu n bufs s
    else if fld s.dec.cfg 4 0 ≤ waitingAus s x then discardAu n bufs (decCount 0x24 1 (decEvent n 0x0C0B s))
    else
      let m := nowMark s
      match decodeStart n m (stamp s) with
      | .error e => discardAu n bufs (decCount 0x24 1 (decEvent n e s))
      | .ok s1 => enqueueAu n tag bufs info q m s1

/-- An access unit is complete (R267, R269, R272, R273). One that carries an unsupported sequence, or depends on one, is discarded; so is one that comes
before any sequence. -/
def auComplete (n : Nat) (tag : Word) (bufs : List Word) (info : AuInfo) (s : State) : State :=
  match look s.sessions n with
  | none => s
  | some x =>
    let s1 := match info.seq with | none => s | some q => setDec s n (fun d => { d with seq := some q })
    match info.seq.orElse (fun _ => x.dec.seq) with
    | none => discardAu n bufs (decCount 0x20 1 s1)
    | some q =>
      if seqOk x q then takeAu n tag bufs info q s1
      else
        let s2 := setDec s1 n (fun d => { d with synced := false, seqBad := true })
        if info.seq.isSome then discardAu n bufs (decCount 0x34 1 (decEvent n 0x0C0A s2)) else discardAu n bufs (decCount 0x20 1 s2)

/-! ### Decryption (R262) -/

/-- A block of 16 bytes, the first one highest, as AES takes it. -/
def blockOf (b : List Byte) : BitVec 128 := BitVec.ofNat 128 (b.foldl (fun a v => 256 * a + v.toNat) 0)

/-- The bytes of a block. -/
def blockBytes (v : BitVec 128) : List Byte := (leBytes v.toNat 16).reverse

/-- A protected range in CBC mode under a pattern (R262): block i on, after the ciphertext block prev. The skipped blocks and a partial block at the end
are clear. n bounds the blocks. -/
def cbcRange (key : BitVec 128) (crypt skip n i : Nat) (prev : BitVec 128) (b : List Byte) : List Byte :=
  match n with
  | 0 => b
  | n + 1 =>
    if b.length < 16 then b
    else if i % (crypt + skip) < crypt then
      let c := blockOf (b.take 16)
      blockBytes (Config.aesDecrypt key c ^^^ prev) ++ cbcRange key crypt skip n (i + 1) c (b.drop 16)
    else b.take 16 ++ cbcRange key crypt skip n (i + 1) prev (b.drop 16)

/-- The subsamples of a chunk in order: clear bytes, then a protected range from the constant IV (R262). -/
def openRanges (key iv : BitVec 128) (crypt skip : Nat) (l : List (Nat × Nat)) (b : List Byte) : List Byte :=
  match l with
  | [] => b
  | e :: t =>
    b.take e.1 ++ cbcRange key crypt skip (e.2 / 16) 0 iv ((b.drop e.1).take e.2) ++ openRanges key iv crypt skip t (b.drop (e.1 + e.2))

/-- What a chunk's buffer holds (R262): the bytes that were read, decrypted under the key, IV and pattern in force when its DATA was accepted. -/
def chunkBytes (s : State) (c : Chunk) (bytes : List Byte) : List Byte :=
  match c.bind.bind (fun o => (look s.sec.keys o.keySlot).map (fun k => (o, k))) with
  | none => bytes
  | some (o, k) =>
    if c.ops.flags.testBit 1 then
      openRanges (blockOf ((leBytes k.material.toNat 32).take 16)) (blockOf (leBytes o.iv.toNat 16)) (o.crypt % 16) (o.crypt / 16)
        (subEntries c.ops.subsCount c.ops.subs) bytes
    else bytes

/-- DATA_COPY_DONE (R258, R262): the oldest copy ends; bytes are those that were read from the host. -/
def execDataCopyDone (handle : Nat) (info : AuInfo) (bytes : List Byte) (s : State) : Host.Outcome State Fault Refusal :=
  onSession handle s (fun x s =>
    match x.dec.chunks with
    | [] => s
    | c :: rest =>
      if c.dead then complete c.hdr 0x0C 0 [] (dropAll (sessReq handle) c.bufs (setDec s handle (fun d => { d with chunks := rest })))
      else if info.readFailed then
        let s1 := discardPart handle false s
        refuse c.hdr 0x0C 0x0C09 (settleFlush handle (dropAll (sessReq handle) c.bufs (setDec s1 handle (fun d => { d with chunks := d.chunks.drop 1 }))))
      else
        let s0 := match c.bufs with
          | w :: _ => storeMem (bufAddr s (hClass w) (hIndex w)) (chunkBytes s c (bytes.take c.ops.len)) s
          | [] => s
        let (tag, bufs) := match x.dec.part with | none => (c.ops.tag, c.bufs) | some p => (p.1, p.2 ++ c.bufs)
        let s1 := complete c.hdr 0x0C 0 [] s0
        if c.ops.flags.testBit 0 then
          settleFlush handle (auComplete handle tag bufs info (setDec s1 handle (fun d => { d with chunks := rest, part := none })))
        else setDec s1 handle (fun d => { d with chunks := rest, part := some (tag, bufs) }))

/-! ### Peer streams (R260, R261) -/

/-- A packet with sequence number q lands in an access unit. -/
def landSeq (q : Nat) (marker : Bool) (a : PeerAu) : PeerAu :=
  { a with seqs := addS a.seqs q, mark := if marker then some q else a.mark }

/-- Do the sequence numbers up to the marker hold no gap? -/
def noGap (next : Option Nat) (a : PeerAu) : Bool :=
  match a.mark with
  | none => false
  | some m =>
    let k := a.seqs.length
    !a.gap && a.seqs.all (fun q => decide ((m + 65536 - q) % 65536 < k)) &&
    (match next with | none => true | some q => decide ((m + 65536 - q) % 65536 + 1 = k))

/-- A peer access unit leaves the list of those in progress. -/
def takePeer (n : Nat) (a : PeerAu) (s : State) : State :=
  setDec s n (fun d => { d with
    peer := d.peer.filter (fun p => p != a), nextSeq := a.mark.map (fun m => (m + 1) % 65536),
    doneTs := match d.doneTs with | none => some a.ts | some t => if older t.toNat a.ts.toNat then some a.ts else some t })

/-- A packet of a PEER session's flow (R260, R261). -/
def peerPacket (n : Nat) (ts : Word) (seq : Nat) (marker ok : Bool) (info : AuInfo) (s : State) : State :=
  match look s.sessions n with
  | none => s
  | some x =>
    let d := x.dec
    let known := d.peer.any (fun a => decide (a.ts = ts))
    let late := match d.doneTs with | none => false | some t => decide (t = ts) || older ts.toNat t.toNat
    if x.state = 4 ∨ x.state = 5 ∨ (known = false ∧ late = true) then decCount 0x2C 1 s
    else
      let a0 : PeerAu := (d.peer.find? (fun a => decide (a.ts = ts))).getD
        { ts := ts, seqs := [], mark := none, gap := false, first := s.bell.num, later := none }
      let a1 := if ok then landSeq (seq % 65536) marker a0 else { a0 with gap := true }
      let rest := (d.peer.filter (fun a => decide (a.ts ≠ ts))).map (fun (a : PeerAu) =>
        if a.later.isNone && older a.ts.toNat ts.toNat then { a with later := some s.bell.num } else a)
      let s1 := setDec s n (fun d => { d with peer := rest ++ [a1] })
      if noGap d.nextSeq a1 then settleFlush n (auComplete n ts [] info (takePeer n a1 s1)) else s1

/-- AU_REORDER_TIMEOUT (R261): of the access units that are due, the earliest begun. -/
def execAuReorderTimeout (handle : Nat) (info : AuInfo) (s : State) : Host.Outcome State Fault Refusal :=
  onSession handle s (fun x s =>
    match x.dec.bind with
    | none => s
    | some b =>
      let due := fun (a : PeerAu) =>
        decide (b.reorderBells ≤ bellsFrom a.first s.bell.num) ||
        (match a.later with | none => false | some l => decide (b.reorderBells ≤ bellsFrom l s.bell.num))
      match (x.dec.peer.filter due).foldl (fun (m : Option PeerAu) a =>
          match m with | none => some a | some m => if older a.ts.toNat m.ts.toNat then some a else some m) none with
      | none => s
      | some a =>
        if x.state = 4 ∨ x.state = 5 then takePeer handle a s
        else settleFlush handle (auComplete handle a.ts [] info (takePeer handle a s)))

/-! ### Concealment (R276, R278) -/

/-- The 16×16 luma blocks of an access unit's picture across. -/
def auWide (a : Au) : Nat := cdiv a.info.width 16

/-- The first row of 16×16 blocks of decode band k, and how many it has. -/
def bandBlockRows (a : Au) (k : Nat) : Nat × Nat := (decBandHeight a.seq / 16 * (k - 1), cdiv (auRows a k) 16)

/-- Has the work unit that holds a 16×16 block of a band been reconstructed (R271, R274)? i and j are its column and its row in the band. -/
def blockDone (a : Au) (b : DecBand) (i j : Nat) : Bool :=
  let n := max 1 a.seq.block
  decide (b.parse = 2) && decide ((16 * j / n * (decBlocks a b.k).1 + 16 * i / n, 1) ∈ b.units)

/-- A band's blocks with their place in the picture: those that DEADLINE left without reconstruction are missing too (R274, R276). -/
def bandBlockList (a : Au) (b : DecBand) (l : List DecBlock) : List (Nat × DecBlock) :=
  let w := auWide a
  let (j0, h) := bandBlockRows a b.k
  (List.range (w * h)).map (fun n =>
    let d := l.getD n { missing := true, vec := none, refs := [] }
    (j0 * w + n, { d with missing := d.missing || (b.deadline && !blockDone a b (n % w) (n / w)) }))

/-- The mean of two numbers, rounded toward zero (R276). -/
def meanToZero (a b : Int) : Int := (a + b).tdiv 2

/-- The vector of a concealed block (R276): the median of the candidates, the mean of two, zero of none. -/
def concealVec (l : List Vec) : Vec :=
  match l with
  | [a, b] => (meanToZero a.1 b.1, meanToZero a.2 b.2)
  | l => (medianVec l).getD (0, 0)

/-- The candidates of block n: left, above and above-right, those decoded by inter prediction (R276). -/
def concealCands (w n : Nat) (vecs : NMap Vec) : List Vec :=
  ((if n % w = 0 then none else look vecs (n - 1)).toList) ++ (if n < w then none else look vecs (n - w)).toList ++
    (if n < w ∨ n % w + 1 = w then none else look vecs (n + 1 - w)).toList

/-- A band's blocks join those of the picture: the vectors of the decoded ones, and the vectors with which the missing ones are concealed. -/
def concealBand (a : Au) (l : List (Nat × DecBlock)) : Au :=
  let vecs := l.foldl (fun m e => match (if e.2.missing then none else e.2.vec) with | none => m | some v => put m e.1 v) a.vecs
  { a with
    vecs := vecs,
    missing := l.foldl (fun m e => if e.2.missing then put m e.1 (concealVec (concealCands (max 1 (auWide a)) e.1 vecs)) else m) a.missing }

/-- The last good picture: the most recently decoded retained one, else the mid-grey picture (R276, R278). -/
def lastGood (x : Session) : Ref :=
  match (x.pics.filter (fun e => picHeld x e.1)).foldl (fun (m : Option (Nat × Pic)) e =>
      match m with | none => some e | some p => if older p.2.frame e.2.frame then some e else some p) none with
  | some e => (picRef x e.1).getD { shape := { width := 1, height := 1, depth := x.stream.depth }, exts := [], grey := true }
  | none => { shape := { width := 1, height := 1, depth := x.stream.depth }, exts := [], grey := true }

/-- The chroma sample that a vector in eighths of a luma pixel leads to, with the edges replicated (R276). -/
def copyChroma (codec : Nat) (s : State) (r : Ref) (c px py : Nat) (v : Vec) : Nat :=
  let (a, z) := chromaSupport codec
  let x0 := (px : Int) + v.1 / 16
  let y0 := (py : Int) + v.2 / 16
  if v.1 % 16 = 0 ∧ v.2 % 16 = 0 then r.c s c x0 y0
  else Config.interChroma codec (v.1 % 16).toNat (v.2 % 16).toNat
    ((List.range (a + z + 1)).flatMap (fun (n : Nat) => (List.range (a + z + 1)).map (fun (m : Nat) => r.c s c (x0 + m - a) (y0 + n - a))))

/-- The samples that a decode band's commit makes final (R167, R276): missing blocks are copies from the last good picture, on which no in-loop filter
acts; the chroma of a monochrome picture is mid-grey (R268). -/
def decFinal (s : State) (x : Session) (a : Au) (k : Nat) (fin : List Nat) : Final :=
  let n := auBands a
  let l := finalLuma (decBandHeight a.seq) a.info.height k n
  let c := finalChroma (decBandHeight a.seq) a.info.height k n
  let wc := cdiv a.info.width 2
  let w := auWide a
  let r := lastGood x
  let luma := (List.range ((l.2 - l.1) * a.info.width)).map (fun i =>
    let px := i % a.info.width
    let py := l.1 + i / a.info.width
    match look a.missing (py / 16 * w + px / 16) with
    | none => fin.getD i 0
    | some v => (predict x.stream.codec s r (px, py, 1, 1) v).headD 0)
  let chroma := (List.range ((c.2 - c.1) * (2 * wc))).map (fun i =>
    let px := i % (2 * wc) / 2
    let py := c.1 + i / (2 * wc)
    if a.seq.chroma = 0 then (if x.stream.depth = 1 then 512 else 128)
    else
      match look a.missing (py / 8 * w + px / 8) with
      | none => fin.getD (luma.length + i) 0
      | some v => copyChroma x.stream.codec s r (i % 2) px py v)
  { shape := { width := a.info.width, height := a.info.height, depth := x.stream.depth }, luma := l, chroma := c, fin := luma ++ chroma }

/-- The motion field of decode band k (R183): of each 32×32 block, the vector of its first 16×16 block, in quarter pixels. -/
def decMotion (a : Au) (k : Nat) : List (Nat × Option (Int × Int)) :=
  let wide := cdiv a.info.width 32
  let j0 := decBandHeight a.seq / 32 * (k - 1)
  (List.range (cdiv (auRows a k) 32)).flatMap (fun j => (List.range wide).map (fun i =>
    let n := 2 * (j0 + j) * auWide a + 2 * i
    ((j0 + j) * wide + i, ((look a.missing n).orElse (fun _ => look a.vecs n)).map (fun v => (v.1 / 2, v.2 / 2)))))

/-- The luma area of a 16×16 block inside the picture (R282). -/
def blockArea (a : Au) (n : Nat) : Nat :=
  let w := max 1 (auWide a)
  min 16 (a.info.width - 16 * (n % w)) * min 16 (a.info.height - 16 * (n / w))

/-! ### Decode bands (R271, R274, R275, R280 to R282) -/

/-- Extents of a decoded picture (R91, R180, R275): the flag says that every one was granted. -/
def decExtents (n d k : Nat) (s : State) : Bool × State :=
  match k with
  | 0 => (true, s)
  | k + 1 =>
    match (look s.sessions n).bind (fun x => (look x.pics d).map (fun p => (x, p))) with
    | none => (false, s)
    | some (x, p) =>
      match allocate (sessReq n) (classSize (extentClass p.width p.height)) false s with
      | (.error _, s1) => (false, s1)
      | (.ok w, s1) =>
        let s2 := if useProt x then markSecret w s1 else s1
        decExtents n d k (setSess s2 n (fun x => { x with pics := alter x.pics d (fun p => { p with extents := p.extents ++ [w] }) }))

/-- A picture without room is neither decoded nor retained (R275): its tasks are cancelled. -/
def losePic (n : Nat) (a : Au) (s : State) : State :=
  match look s.sessions n with
  | none => s
  | some x =>
    let p := look x.pics a.desc
    let exts := match p with | none => [] | some p => p.extents
    let s1 := pendEvent true (fun u => decide (u.handle = n) && p.any (fun p => decide (u.frame = p.frame))) (setSess s n (fun x => { x with
      pics := del x.pics a.desc, dec := { x.dec with queue := x.dec.queue.filter (fun b => decide (b.mark ≠ a.mark)), recover := none } }))
    settleFlush n (discardAu n a.bufs (decEvent n 0x0C0B (dropAll (sessReq n) exts s1)))

/-- CONCEAL_FRAC (R282). -/
def concealFrac (a : Au) (area : Nat) : Nat :=
  let all := a.info.width * a.info.height
  if all ≤ area then 0xFFFF else area * 65536 / max 1 all

/-- The order of the recovery picture that is still awaited, after an access unit (R281). -/
def recoverAfter (a : Au) (area : Nat) (r : Option Int) : Option Int := if 0 < area then none else a.info.recovery.orElse (fun _ => r)

/-- Does a picture clear the taint (R281): a clean random access point, or the recovery picture with no block concealed since the SEI? -/
def cleanPic (a : Au) (area : Nat) (r : Option Int) : Bool :=
  decide (area = 0) && (isRap a.info || decide (recoverAfter a area r = some a.info.order))

/-- The last band of a picture has committed (R77, R272, R281): it is decoded and held; what its marking drops leaves the DPB. -/
def endPicture (n : Nat) (a : Au) (s : State) : State :=
  match look s.sessions n with
  | none => s
  | some x =>
    match look x.pics a.desc with
    | none => s
    | some p =>
      let frac := concealFrac a p.area
      let clean := cleanPic a p.area x.dec.recover
      let pics1 := alter x.pics a.desc (fun p => { p with whole := true, frac := frac, refd := true, shows := a.info.shows, taint := p.taint && !clean })
      let pics2 := a.info.drops.foldl (fun m d => alter m d (fun p => { p with refd := false })) pics1
      let s1 := setSess s n (fun x => { x with
        pics := pics2, idleFrom := some s.bell.num,
        dec := { x.dec with queue := x.dec.queue.filter (fun b => decide (b.mark ≠ a.mark)), recover := if clean then none else recoverAfter a p.area x.dec.recover } })
      let s2 := stat n 32 1 (stat n 1 1 (decCount 0x10 1 s1))
      let s3 := if 0 < frac then stat n 34 1 (decCount 0x18 1 s2) else s2
      settleFlush n (sweepPics n (dropAll (sessReq n) a.bufs s3))

/-- A decode band that DEADLINE reached is counted (R116, R274, R400): k of its blocks were not reconstructed. -/
def countDecFb (n k : Nat) (b : DecBand) (s : State) : State :=
  let s1 := emit (.helmFallback n) (stat n 7 k (decCount 0x30 1 s))
  if b.cadence then stat n 5 1 (setQtr { s1 with sched := { s1.sched with fb := up s1.sched.fb 1 } } b.quarter (fun t => { t with fbCount := up t.fbCount 1 }))
  else stat n 6 1 { s1 with sched := { s1.sched with overFb := up s1.sched.overFb 1 } }

/-- Do a band's blocks make its picture tainted (R280): one is concealed, or predicts from a substituted or tainted picture? -/
def bandTaints (x : Session) (a : Au) (l : List (Nat × DecBlock)) : Bool :=
  l.any (fun e => e.2.missing || e.2.refs.any (fun i =>
    match a.refs[i]? with
    | none => false
    | some r => r.subst || (match r.desc.bind (fun d => look x.pics d) with | none => false | some p => p.taint)))

/-- Has a decode band been parsed and reconstructed, or reached by DEADLINE (R271, R274)? -/
def decBandDone (a : Au) (b : DecBand) : Bool := b.deadline || (decide (b.parse = 2) && decide (b.units.length = 2 * (decBlocks a b.k).2))

/-- The units of a decode band's commit are written (R167, R182 to R184, R271): the flag says that every extent was granted. -/
def decFinalise (n : Nat) (a : Au) (k : Nat) (fin : Final) (lrc : List (Option (List Byte))) (s : State) : Bool × State :=
  match (look s.sessions n).bind (fun x => look x.pics a.desc) with
  | none => (false, s)
  | some p =>
    let forms := unitForms fin lrc
    let at0 := nextSector fin.shape p.sectors
    let total := at0 + formSectors forms
    let (ok, s1) := decExtents n a.desc (cdiv (64 * total) (classSize (extentClass p.width p.height)) - p.extents.length) s
    match (look s1.sessions n).bind (fun x => look x.pics a.desc) with
    | none => (false, s1)
    | some p1 =>
      let s2 := writeMotion fin.shape p1.extents (decMotion a k) (writeUnits p1.extents at0 forms s1)
      (ok, setSess s2 n (fun x => { x with pics := alter x.pics a.desc (fun p => { p with sectors := total }) }))

/-- The oldest decode band of the oldest access unit commits, in the Bell of its dispatch (R25, R271, R274 to R282). -/
def decBandCommit (n : Nat) (x : Session) (res : BandResult) (s : State) : State :=
  match x.dec.queue with
  | [] => s
  | a0 :: _ =>
    match a0.run with
    | [] => s
    | b :: t =>
      if b.bell ≠ s.bell.num ∨ decBandDone a0 b = false then s
      else
        let l := bandBlockList a0 b res.blocks
        let a := concealBand { a0 with run := t } l
        let s1 := setAu s n a.mark (fun _ => a)
        let (ok, s2) := decFinalise n a b.k (decFinal s x a b.k res.fin) res.lrc s1
        let late := (l.filter (fun e => !blockDone a0 b (e.1 % max 1 (auWide a)) (e.1 / max 1 (auWide a) - (bandBlockRows a b.k).1))).length
        let s3 := stat n 2 1 (when (b.deadline) (countDecFb n late b) s2)
        let area := ((l.filter (fun e => e.2.missing)).map (fun e => blockArea a e.1)).sum
        let s4 := setSess s3 n (fun x => { x with pics := alter x.pics a.desc (fun p => { p with
          area := p.area + area, taint := p.taint || bandTaints x a l }) })
        if !ok then losePic n a s4
        else if t.isEmpty && decide (auBands a ≤ a.sent) then endPicture n a s4
        else s4

/-- BAND_CHECK (R207, R209, R271). -/
def execBandCheck (handle : Nat) (res : BandResult) (s : State) : Host.Outcome State Fault Refusal :=
  onSession handle s (fun x s => if x.kind = 1 then decBandCommit handle x res s else checkBand handle x res s)

/-! ### Output -/

/-- The next output buffer that the device holds, in ascending order and wrapping (R283). -/
def nextBuffer (d : Dec) (count : Nat) : Option Nat :=
  ((List.range count).map (fun k => (d.nextOut + k) % max 1 count)).find? (fun i => !has d.held i)

/-- DECODE_OUTPUT (R265, R270, R283, R284). -/
def execDecodeOutput (handle : Nat) (pic : OutPic) (s : State) : Host.Outcome State Fault Refusal :=
  onSession handle s (fun x s =>
    match x.dec.bind, look x.pics pic.desc with
    | some b, some p =>
      if !p.whole || !(p.shows || pic.tag.isSome) then s
      else
        let prot := decide (b.use = 0)
        let buf := if prot then none else nextBuffer x.dec b.outCount
        let none_ := !prot && buf.isNone
        let tag := pic.tag.getD p.tag
        let flags := (if p.taint then 1 else 0) + (if 0 < p.frac then 2 else 0) + (if p.subst then 4 else 0) + (if p.rap then 8 else 0) +
          (if none_ then 16 else 0)
        let s1 := match buf with | none => s | some i => emit (.picture handle i) s
        let s2 := post x.fn 4 (if none_ then 0x0C0C else 0) (tokenOf handle x.gen)
          [BitVec.ofNat 32 x.dec.outputs, tag, BitVec.ofInt 32 p.order, fldW 0 8 (buf.getD 0xFF) ||| fldW 8 8 flags ||| fldW 16 16 p.frac] s1
        let s3 := setSess s2 handle (fun x => { x with
          pics := alter x.pics pic.desc (fun p => { p with shows := false }),
          dec := { x.dec with
            outputs := (x.dec.outputs + 1) % 2 ^ 32, taint := p.taint, frac := p.frac, latest := if prot then some pic.desc else none,
            held := match buf with | none => x.dec.held | some i => addS x.dec.held i,
            nextOut := match buf with | none => x.dec.nextOut | some i => (i + 1) % max 1 b.outCount } })
        let s4 := stat handle 33 1 (decCount 0x14 1 s3)
        settleFlush handle (sweepPics handle (if none_ then decCount 0x28 1 s4 else s4))
    | _, _ => s)

/-- PROTECTED_FILL_DONE (R266, R350): the extent returns to its pool, unless its page is retired. -/
def execProtectedFillDone (buf : Nat) (s : State) : Host.Outcome State Fault Refusal :=
  live s (fun s =>
    if has s.pool.filling buf then
      let c := buf / 2 ^ 25
      let i := buf % 2 ^ 25
      let s1 := ({ s with
        mem := s.mem.filter (fun e => decide (e.1 < bufAddr s c i) || decide (bufAddr s c i + classSize c ≤ e.1)),
        memc := { s.memc with poison := s.memc.poison.filter (fun l => decide (l * 64 + 64 ≤ bufAddr s c i) || decide (bufAddr s c i + classSize c ≤ l * 64)) } } : State)
      { s1 with pool := { s1.pool with
          filling := remS s1.pool.filling buf,
          free := if has s1.pool.gone buf then s1.pool.free else put s1.pool.free c (pushRun (lookD s1.pool.free c []) i) } }
    else s)

/-- A refused write of DEC_CTRL. -/
def decRefuse (code : Code) (s : State) : State := { s with dec := { s.dec with reason := code } }

/-- DEC_CTRL_WRITE (R287). -/
def execDecCtrlWrite (value : Word) (s : State) : Host.Outcome State Fault Refusal :=
  blockWrite 0xFFFFFFFE value s (fun s =>
    if bit value 0 then
      if s.dec.en || s.sec.ready then { s with dec := { s.dec with en := true } } else decRefuse 0x0C12 s
    else if s.dec.en && s.sessions.any (fun e => decide (e.2.kind = 1)) then decRefuse 0x0C0F s
    else { s with dec := { s.dec with en := false } })

end Sys2Proof.Machine
end

