-- ==== Sys2Proof/Machine/Keys.lean ====
section
/-! DEFINITION. The device's own keys (R548) and the key store (R549 to R552). -/

namespace Sys2Proof.Machine

open Sys2Proof

/-- The identity key (R548). -/
def identityKey : BitVec 384 := Config.kdf Config.deviceSecret [0x46, 0x4C, 0x44, 0x20, 0x49, 0x44]

/-- The key-agreement key (R548). -/
def agreementKey : BitVec 384 := Config.kdf Config.deviceSecret [0x46, 0x4C, 0x44, 0x20, 0x4B, 0x41]

/-- The slots that commands waiting for the partner's reply will take (R437, R550). -/
def promisedSlots (s : State) : List Nat := s.tandem.waiting.filterMap (fun w => match w.cmd with | .keyLoad _ _ => some w.index | _ => none)

/-- The lowest free slot of the key store (R549, R550). -/
def freeSlot (s : State) : Option Nat :=
  let k := lowestFree ((promisedSlots s).foldl (fun m i => put m i ()) (s.sec.keys.map (fun e => (e.1, ())))) 0
  if k < 65536 then some k else none

/-- The refusals of KEY_LOAD that do not look at the blob (R550). -/
def keyCode (h : Hdr) (o : KeyOps) : Option Code :=
  if h.fn ≠ 0 ∧ (o.kind ≠ 0 ∨ o.ownerFn ≠ h.fn) then some 0x0402
  else if 1 < o.kind ∨ 255 < o.ownerFn ∨ o.pad ≠ 0 ∨ o.slot ≠ 0 ∨ o.addr.toNat % 8 ≠ 0 then some 0x090D
  else none

/-- The length that a key of a kind may have (R551). -/
def keyLenOk (kind len : Nat) : Bool := decide (len = 16) || (decide (kind = 1) && decide (len = 32))

/-- The session that a KEY_LOAD names: a session of OWNER_FN that is not CLOSED (R550). -/
def keySession (s : State) (h : Hdr) (o : KeyOps) : Option (Nat × Session) := tokenSession s o.ownerFn h.token

/-- A key is put into a slot for session n (R549). -/
def putKey (slot kind owner n len : Nat) (material : BitVec 256) (salt : BitVec 96) (s : State) : State :=
  let k : Key := { kind := kind, ownerFn := owner, handle := some n, len := len, material := material, salt := if kind = 1 then salt else 0 }
  { s with sec := { s.sec with keys := put s.sec.keys slot k } }

/-- The KEK of a KEY_LOAD: HKDF-SHA-384 with the secret's X coordinate as input, SERIAL as salt and info "FLD KEK" ‖ KIND ‖ OWNER_FN ‖ TOKEN
(R551). DESIGN CHOICE (log entry 27): SERIAL and TOKEN are taken least significant byte first. -/
def kekOf (h : Hdr) (o : KeyOps) (x : List Byte) : BitVec 256 :=
  Config.hkdf x (leBytes Config.serial.toNat 8)
    ([0x46, 0x4C, 0x44, 0x20, 0x4B, 0x45, 0x4B] ++ leBytes o.kind 1 ++ leBytes o.ownerFn 1 ++ leBytes h.token.toNat 4)

/-- The 176-byte blob is well-formed (R551). -/
def blobOk (o : KeyOps) : Bool :=
  let b := o.blob
  decide (b.length = 176) && decide (slice b 0 4 = [0x57, 0x4B, 0x45, 0x59]) && decide (le b 4 1 = o.kind) && keyLenOk o.kind (le b 5 1) &&
  decide (le b 6 2 = 0) && decide (le b 0x68 2 ≤ 64) && decide (le b 0x6A 6 = 0) && decide (le b (0x70 + le b 0x68 2) (64 - le b 0x68 2) = 0)

/-- The key and salt of a blob, or the code of R551: malformed or not on the curve 0x090D, unwrapped wrongly 0x090C. -/
def unwrapBlob (h : Hdr) (o : KeyOps) : Except Code (Nat × BitVec 256 × BitVec 96) :=
  let b := o.blob
  let len := le b 5 1
  if !blobOk o then .error 0x090D
  else
    match Config.ecdhX agreementKey (slice b 8 96) with
    | none => .error 0x090D
    | some x =>
      match Config.keyUnwrap (kekOf h o x) (slice b 0x70 (le b 0x68 2)) with
      | none => .error 0x090C
      | some k =>
        if k.length = len + (if o.kind = 1 then 12 else 0) then
          .ok (len, BitVec.ofNat 256 (leNat (k.take len)), BitVec.ofNat 96 (leNat (k.drop len)))
        else .error 0x090C

/-- A KEY_LOAD that has passed its checks takes effect: its key into slot k. -/
def applyKey (k n : Nat) (h : Hdr) (o : KeyOps) (s : State) : State :=
  match unwrapBlob h o with
  | .ok (len, material, salt) => complete h 9 0 [BitVec.ofNat 32 k] (putKey k o.kind o.ownerFn n len material salt s)
  | .error c => refuse h 9 c s

/-- A blob that unwraps goes into the lowest free slot, for a paired session of both devices (R437, R550). -/
def loadKey (n : Nat) (x : Session) (h : Hdr) (o : KeyOps) (s : State) : State :=
  match unwrapBlob h o with
  | .error c => refuse h 9 c s
  | .ok (len, material, salt) =>
    match freeSlot s with
    | none => refuse h 9 0x090B s
    | some k => forwardOr n x k (.key k o.kind len material salt) (.keyLoad h o) (applyKey k n h o) s

/-- KEY_LOAD (R550, R551). -/
def execKeyLoad (h : Hdr) (o : KeyOps) (s : State) : Host.Outcome State Fault Refusal :=
  sessionCmd (.keyLoad h o) h 9 s (fun s =>
    match keyCode h o with
    | some c => refuse h 9 c s
    | none =>
      match keySession s h o with
      | none => refuse h 9 0x0201 s
      | some (n, x) => if x.tan.role = 2 then refuse h 9 0x0807 s else loadKey n x h o s)

/-- KEY_ERASE (R552). -/
def execKeyErase (h : Hdr) (o : KeyOps) (s : State) : Host.Outcome State Fault Refusal :=
  sessionCmd (.keyErase h o) h 9 s (fun s =>
    if h.fn ≠ 0 ∧ (o.kind ≠ 0 ∨ o.ownerFn ≠ h.fn) then refuse h 9 0x0402 s
    else if 1 < o.kind ∨ 255 < o.ownerFn ∨ o.pad ≠ 0 ∨ o.addr ≠ 0 then refuse h 9 0x090D s
    else if (keySession s h o).isNone then refuse h 9 0x0201 s
    else
      match look s.sec.keys o.slot with
      | none => refuse h 9 0x090E s
      | some k =>
        if k.ownerFn ≠ o.ownerFn then refuse h 9 0x090E s
        else if keyInUse s o.slot then refuse h 9 0x090F s
        else complete h 9 0 [BitVec.ofNat 32 o.slot] { s with sec := { s.sec with keys := del s.sec.keys o.slot } })

end Sys2Proof.Machine
end

