-- ==== Sys2Proof/Machine/Tandem.lean ====
section
/-! DEFINITION. The Tandem port (R430 to R461): pairing, messages and their violations, forwarded commands, mirrors and acknowledgements,
heartbeats, takeover, re-established shadows and handover. -/

namespace Sys2Proof.Machine

open Sys2Proof

/-- The Tandem port changed. -/
def setTan (s : State) (g : Tandem → Tandem) : State := { s with tandem := g s.tandem }

/-- A counter of the Tandem port, by its register offset (R461). -/
def tanCount (off k : Nat) (s : State) : State := setTan s (fun t => { t with cnt := bump t.cnt off k })

/-- A refused write of a TANDEM register. -/
def tanRefuse (code : Code) (s : State) : State := setTan s (fun t => { t with reason := code })

/-- The pair state changes; each change is an interrupt (R432, R462). -/
def pairState (st : Nat) (s : State) : State := if s.tandem.state = st then s else pulse 0x072 (setTan s (fun t => { t with state := st }))

/-- A session's Tandem state changed. -/
def setTs (s : State) (n : Nat) (g : TanSess → TanSess) : State := setSess s n (fun x => { x with tan := g x.tan })

/-- Is a rate change pending (R18)? -/
def ratePend (s : State) : Bool := bit s.bell.cfg 0 != s.bell.rateAct

/-- The pair Bell number (R434). -/
def pairBell (s : State) : BitVec 40 := s.bell.num + s.tandem.offset

/-! ### Pairing -/

/-- The checks of ENABLE set (R430, R431). -/
def tanEnableCode (s : State) : Option Code :=
  let p := if bit s.tandem.hbCfg 1 then 1 else 0
  if !s.dev.straps.testBit 2 then some 0x0801
  else if !s.bell.locked || ratePend s then some 0x0803
  else if bit s.tandem.hbCfg 0 && (decide (portMode s p = 0) || !portHas s p (bit s.tandem.hbCfg 2)) then some 0x0810
  else none

/-- The link's state as pairing begins or ends. -/
def freshLink (t : Tandem) : Tandem :=
  { t with lanes := 0, retryAt := none, sent := [], gotLink := false, gotAlt := false, missLink := 0, missBoth := 0, takeover := none, mismatch := [],
           dead := false, hbDue := false, takeGo := false, linkOk := false, altOk := false }

/-- TANDEM_CTRL_WRITE (R430 to R432, R461): a refused write changes TANDEM_REASON only. -/
def execTandemCtrlWrite (value : Word) (s : State) : Host.Outcome State Fault Refusal :=
  blockWrite 0xFFFFFFFC value s (fun s =>
    if bit value 0 && !bit s.tandem.ctrl 0 then
      match tanEnableCode s with
      | some c => tanRefuse c s
      | none => pairState 1 (setTan s (fun t => { freshLink t with ctrl := value }))
    else if !bit value 0 && bit s.tandem.ctrl 0 then
      if s.sessions.any (fun e => decide (e.2.tan.role ≠ 0)) then tanRefuse 0x0809 s
      else pairState 0 (setTan s (fun t => { freshLink t with ctrl := value }))
    else setTan s (fun t => { t with ctrl := value }))

/-- TANDEM_ROLE_WRITE (R431, R461): the accepted guarded write. -/
def execTandemRoleWrite (value : Word) (s : State) : Host.Outcome State Fault Refusal :=
  blockWrite 0xFFFFFFFE value s (fun s =>
    if bit s.tandem.ctrl 0 then tanRefuse 0x0802 s else setTan s (fun t => { t with side := fld value 0 0 }))

/-- TANDEM_HELLO (R432): the link has trained on at least 2 lanes and HELLO is exchanged. -/
def execTandemHello (lanes : Nat) (s : State) : Host.Outcome State Fault Refusal :=
  live s (fun s =>
    if s.tandem.state = 1 ∧ s.tandem.retryAt = none ∧ 2 ≤ lanes ∧ lanes ≤ 8 then
      pairState 2 (emit (.link .hello) (setTan s (fun t => { t with lanes := lanes })))
    else s)

/-- TANDEM_AUTH (R432 to R434): ok is the result of the checks of R433, which are cryptography and the partner's word. -/
def execTandemAuth (ok : Bool) (partnerBell : BitVec 40) (s : State) : Host.Outcome State Fault Refusal :=
  live s (fun s =>
    if s.tandem.state ≠ 2 then s
    else
      let s1 := emit (.link .authMsg) s
      if ok then
        pairState 3 (setTan s1 (fun t => { freshLink t with lanes := t.lanes, offset := if t.side = 1 then partnerBell - s.bell.num else 0 }))
      else pairState 1 (setTan s1 (fun t => { t with reason := 0x0804, retryAt := some (s.bell.num + 720) })))

/-- AUTH_RETRY (R432). -/
def execAuthRetry (s : State) : Host.Outcome State Fault Refusal :=
  live s (fun s =>
    match s.tandem.retryAt with
    | none => s
    | some b =>
      if s.tandem.state = 1 ∧ bellsFrom b s.bell.num < 2 ^ 39 then pairState 2 (emit (.link .hello) (setTan s (fun t => { t with retryAt := none })))
      else s)

/-- TANDEM_LINK_TRAINS_AGAIN (R432). -/
def execTandemLinkTrainsAgain (s : State) : Host.Outcome State Fault Refusal :=
  live s (fun s => if s.tandem.state = 4 then pairState 1 (setTan s freshLink) else s)

/-- LINK_RETRANSMIT (R433): a message without confirmation goes again, at most 4 times. -/
def execLinkRetransmit (seq : Word) (s : State) : Host.Outcome State Fault Refusal :=
  live s (fun s =>
    match s.tandem.sent.find? (fun e => decide (e.1 = seq)) with
    | none => s
    | some (_, k) =>
      if s.tandem.dead then s
      else if k < 4 then
        emit (.link (.again seq)) (setTan s (fun t => { t with sent := t.sent.map (fun e => if e.1 = seq then (seq, k + 1) else e) }))
      else setTan s (fun t => { t with sent := t.sent.filter (fun e => decide (e.1 ≠ seq)) }))

/-! ### Violations (R456) -/

/-- A violation: answered, logged, and counted against LIMIT in WINDOW. -/
def violate (typ : Nat) (code : Code) (seq : Word) (s : State) : State :=
  let m := nowMark s
  let s1 := tanCount 0x58 1 (emit (.link (.nak code seq)) (stamp s))
  let s2 := setTan s1 (fun t => { t with
    viol := ({ mark := m, typ := typ, code := code, seq := seq } :: t.viol).take 64, violTot := min (t.violTot + 1) 0xFFFF,
    violBells := (s.bell.num :: t.violBells).take 255 })
  let k := (s2.tandem.violBells.filter (fun b => decide (bellsFrom b s.bell.num < fld s2.tandem.violCfg 31 16))).length
  if fld s2.tandem.violCfg 7 0 ≤ k ∧ s2.tandem.dead = false then raise winTandem 0 0x080E false linkUnsound (linkUnsound s2) else s2

/-- A message of a type in the pair state PAIRED: it wakes the device (R525), and has its effect or is a violation. A gap in the pair sequence numbers means that a message
for some shadow never arrived (R451). -/
def tanMessage (typ : Nat) (m : LinkMeta) (s : State) (f : State → State) : Host.Outcome State Fault Refusal :=
  live s (fun s0 =>
    let s := wake s0
    if s0.tandem.dead ∨ s0.tandem.state = 0 then s0
    else if !m.wellForm then violate typ 0x0820 m.seq s
    else if !m.authOk then violate typ 0x0821 m.seq s
    else if !m.seqOk then
      violate typ 0x0822 m.seq { s with sessions := s.sessions.map (fun (e : Nat × Session) => if e.2.tan.role = 2 then (e.1, { e.2 with tan := { e.2.tan with gap := true } }) else e) }
    else if s.tandem.state ≠ 3 then violate typ 0x0826 m.seq s
    else f s)

/-- TANDEM_NAK (R456). -/
def execTandemNak (link : LinkMeta) (_code : Code) (s : State) : Host.Outcome State Fault Refusal :=
  tanMessage 9 link s (tanCount 0x5C 1)

/-! ### Forwarded commands at the primary (R437) -/

/-- The header and opcode of a forwarded command. -/
def fwdHdr (i : Instr) : Option (Hdr × Nat) :=
  match i with
  | .openSession h _ => some (h, 1)
  | .configureStream h _ _ => some (h, 2)
  | .configureRate h _ => some (h, 2)
  | .configureResilience h _ => some (h, 2)
  | .configureHostTransport h _ => some (h, 2)
  | .setRateBounds h _ => some (h, 7)
  | .keyLoad h _ => some (h, 9)
  | .attachReceiver h _ => some (h, 0x0A)
  | .detachReceiver h _ _ => some (h, 0x0B)
  | .park h _ => some (h, 4)
  | .parkCold h _ => some (h, 4)
  | .resume h _ => some (h, 5)
  | .close h _ => some (h, 6)
  | _ => none

/-- A forwarded command of session n takes effect at the primary (R437); k is the index that it takes on both devices. -/
def applyForwarded (n k : Nat) (i : Instr) (s : State) : State :=
  match i with
  | .openSession h o => openAt n h o s
  | .configureStream h o _ => complete h 2 0 [] (applyConfigureStream n o s)
  | .configureRate h o => complete h 2 0 [] (setSess s n (fun x => { x with newRate := some o }))
  | .configureResilience h o => complete h 2 0 [] (setSess s n (fun x => { x with newRes := some o }))
  | .configureHostTransport h o => complete h 2 0 [] (applyHost n h o s)
  | .setRateBounds h o =>
    match look s.sessions n with
    | none => s
    | some x => complete h 7 0 [BitVec.ofNat 32 (nextRate x o)] (applyBounds n o s)
  | .keyLoad h o => applyKey k n h o s
  | .attachReceiver h o => attachAt k n h o s
  | .detachReceiver h flow _ => startDetach flow (some h) s
  | .park h _ => setPending n 0 (some h) none s
  | .parkCold h _ => setPending n 1 (some h) none s
  | .resume h _ => applyResume n h s
  | .close h _ => applyClose n h s
  | _ => s

/-- A forwarded command that the partner refused: neither device applies it (R436, R437). -/
def refuseForwarded (n : Nat) (i : Instr) (code : Code) (s : State) : State :=
  let c : Code := if code = 0x0806 ∨ code = 0x0703 then code else 0x0808
  match i with
  | .openSession h _ => refuse h 1 c { s with sess := { s.sess with free := (n, 1) :: s.sess.free } }
  | _ => match fwdHdr i with | none => s | some (h, op) => refuse h op c s

/-- The commands of a session that wait for the partner apply at once when it has no shadow any more. -/
def applyWaiting (n : Nat) (s : State) : State :=
  let mine := s.tandem.waiting.filter (fun w => decide (w.handle = n))
  mine.foldl (fun s w => applyForwarded n w.index w.cmd s) (setTan s (fun t => { t with waiting := t.waiting.filter (fun w => decide (w.handle ≠ n)) }))

/-- The TANDEM claims of a session are released (R443, R444). -/
def dropHeld (n : Nat) (s : State) : State :=
  match look s.sessions n with
  | none => s
  | some x => x.tan.held.foldl (fun s a => drop { kind := 4, index := 0 } a.2.2.1 a.2.2.2 s) s

/-- A primary's shadow is lost (R444): tell says that the partner is told to free it. -/
def loseShadow (tell : Bool) (n : Nat) (s : State) : State :=
  let s1 := if tell then linkSend (.config n .close) s else s
  let s2 := setTs (dropHeld n s1) n (fun t => { TanSess.reset t.role with
    shFrame := t.shFrame, shBands := t.shBands, shLast := t.shLast, slot0 := t.slot0, shDesc := t.shDesc, shMain := t.shMain, shSlot := t.shSlot })
  applyWaiting n (tanCount 0x50 1 (notice n 0x080A s2))

/-- A shadow's state is freed (R444): its units are cancelled, and the session is CLOSED on this device, so its handle's generation rises (R71). -/
def freeShadow (n : Nat) (s : State) : State :=
  match look s.sessions n with
  | none => s
  | some x =>
    let s1 := releaseAll n (closeFlows n (pendEvent true (fun u => decide (u.handle = n)) s))
    let g := (x.gen + 1) % 16384
    sweepKeys { s1 with
      sessions := del s1.sessions n,
      sec := { s1.sec with keys := s1.sec.keys.map (fun e => (e.1, if e.2.handle = some n then { e.2 with handle := none } else e.2)) },
      sess := { s1.sess with free := pushRun s1.sess.free n, gens := if g = 0 then del s1.sess.gens n else put s1.sess.gens n g } }

/-- Is a reply to a RESUME that of a partner without room for the shadow (R438)? DESIGN CHOICE (log entry 81): a missing context slot counts as no room. -/
def noRoom (i : Instr) (code : Code) : Bool :=
  (decide (code = 0x020A) || decide (code = 0x0209)) && (match i with | .resume _ _ => true | _ => false)

/-- TANDEM_CONFIG_REPLY (R437): the oldest command of the session that waits; a state change that the partner refuses loses the shadow, and a RESUME for
whose shadow the partner has no room takes effect without it (R438). -/
def execTandemConfigReply (link : LinkMeta) (handle : Nat) (code : Code) (s : State) : Host.Outcome State Fault Refusal :=
  tanMessage 6 link s (fun s =>
    match s.tandem.waiting.find? (fun w => decide (w.handle = handle)) with
    | some w =>
      let s1 := setTan s (fun t => { t with waiting := t.waiting.erase w })
      if code = 0 then applyForwarded handle w.index w.cmd s1
      else if noRoom w.cmd code then applyForwarded handle w.index w.cmd (loseShadow false handle s1)
      else refuseForwarded handle w.cmd code s1
    | none =>
      match look s.sessions handle with
      | none => s
      | some x => if code ≠ 0 ∧ x.tan.role = 1 ∧ (x.tan.live || x.tan.sync.isSome) = true then loseShadow false handle s else s)

/-! ### CONFIG messages at the partner (R436 to R438) -/

/-- The shadow of an opened session (R436): its token is the primary's. -/
def openShadow (n fn : Nat) (token : Word) (o : StreamOps) (userTag : Word) (s : State) : Code × State :=
  if !fnOn s fn then (0x0806, s)
  else
    let g := fld token 31 18
    let s1 := freeShadow n s
    let s2 := { s1 with sess := { s1.sess with gens := if g = 0 then del s1.sess.gens n else put s1.sess.gens n g } }
    let h : Hdr := { fn := fn, ring := 0, cid := 0, token := 0 }
    let x := newSession s2 n h 0 0 o userTag 2 0xFFFF none
    (0, addSession n { x with gen := g, effort := o.effortMin } s2)

/-- The shadow becomes ACTIVE: placed and admitted at the full encode cost at EFFORT_MIN (R438); its record is paged in (R87). Without a Quarter it is
lost: the reply says so, and the primary posts 0x080A (R444). -/
def activateShadow (n : Nat) (x : Session) (s : State) : Code × State :=
  let l := { loadOf s x with effort := x.stream.effortMin }
  match frameAdmit s n x l with
  | .error e => (e, freeShadow n s)
  | .ok (q, e) =>
    (0, stamp (setSess s n (fun x => askPage (nowMark s) 0x217 { x with
      state := 2, quarter := q, moveTo := none, effort := e, effortTo := none, pinned := true,
      phase := some (x.phase.getD (choosePhase s q (some n) l)) })))

/-- A forwarded command takes effect on the shadow (R437). -/
def shadowApply (n : Nat) (x : Session) (c : FwdCmd) (s : State) : Code × State :=
  match c with
  | .openShadow fn token o tag => openShadow n fn token o tag s
  | .stream o => (0, setSess s n (fun x => { applyStream o x with stream := o }))
  | .rate o => (0, setSess s n (fun x => { x with newRate := some o }))
  | .resilience o => (0, setSess s n (fun x => { x with newRes := some o }))
  | .host h o => (0, applyHost n h o s)
  | .bounds o => (0, applyBounds n o s)
  | .state st =>
    if st = 2 then activateShadow n x s
    else
      let s1 := setSess s n (fun x => { x with state := st, pinned := false, parkMark := if st = 4 then some (nowMark s) else none })
      (0, if st = 5 then freeRefs n (stamp s1) else stamp s1)
  | .phase p => (0, setSess s n (fun x => { x with phase := some p }))
  | .close => (0, freeShadow n s)
  | .attach flow o => if (look s.net.flows flow).isSome then (0x0703, s) else (0, joinFlow flow n x.fn o s)
  | .detach flow => (0, removeFlow flow (dropPackets flow s))
  | .key slot kind len material salt =>
    if (look s.sec.keys slot).isSome then (0x090B, s) else (0, putKey slot kind x.fn n len material salt s)

/-- TANDEM_CONFIG (R436, R437, R456). -/
def execTandemConfig (link : LinkMeta) (handle : Nat) (cmd : FwdCmd) (s : State) : Host.Outcome State Fault Refusal :=
  tanMessage 6 link s (fun s =>
    let answer := fun (r : Code × State) => linkSend (.reply handle r.1) r.2
    match cmd, look s.sessions handle with
    | .openShadow fn token o tag, none => answer (openShadow handle fn token o tag s)
    | _, none => violate 6 0x0823 link.seq s
    | c, some x =>
      if x.tan.role = 1 then violate 6 0x0824 link.seq s
      else if x.tan.role = 0 then violate 6 0x0823 link.seq s
      else answer (shadowApply handle x c s))

/-! ### Mirroring (R440 to R445) -/

/-- Is a MIRROR in band order (R456)? -/
def mirrorOrder (t : TanSess) (m : MirrorMsg) : Bool :=
  if t.shBands = 0 then decide (m.band = 1)
  else if t.shLast then decide (m.band = 1) && older t.shFrame m.frame
  else decide (m.frame = t.shFrame) && decide (m.band = t.shBands + 1)

/-- The last Bell congruent to the phase, at or before b: slot 0 of a frame whose first band has just been mirrored (R106, R453). -/
def lastSlotZero (b : BitVec 40) (p f : Nat) : BitVec 40 := b - BitVec.ofNat 40 ((b.toNat + f - p % max 1 f) % max 1 f)

/-- The LTR region that a MIRROR leaves on the shadow (R235, R440): with the last band the picture becomes LAST and enters its slot. -/
def shadowLtr (x : Session) (m : MirrorMsg) : Ltr :=
  let kept := decide (m.desc < 16)
  if m.last then
    { m.ltr with
      last := if kept then some m.desc else none,
      slots := match m.slot with
        | none => m.ltr.slots
        | some i => if kept then put m.ltr.slots i m.desc else del m.ltr.slots i }
  else { m.ltr with last := x.ltr.last }

/-- The shadow's picture of a mirrored frame (R442, R451): under construction from its first band, whole with its last. -/
def shadowPics (x : Session) (m : MirrorMsg) : NMap Pic :=
  let p : Pic :=
    { newPic m.frame with
      key := decide (m.ltr.lastKey = m.frame), width := x.stream.width, height := x.stream.height, order := m.frame,
      wave := m.ltr.wave && decide (0 < m.ltr.wavePos) && decide (m.ltr.wavePos < m.ltr.waveLen) }
  let pics := if m.band = 1 ∧ m.desc < 16 then put x.pics m.desc p else x.pics
  if m.last then alter pics m.desc (fun p => { p with whole := true }) else pics

/-- The extents of a picture that a mirrored frame replaces are given back. -/
def clearDesc (m : MirrorMsg) (x : Session) (s : State) : State :=
  match (if m.band = 1 ∧ m.desc < 16 then look x.pics m.desc else none) with
  | none => s
  | some p => dropAll (sessReq m.handle) p.extents s

/-- MIRROR (R440, R442): the record and the mirrored state arrive; the shadow decode band is assigned to a Bell under R24. -/
def execMirror (m : MirrorMsg) (s : State) : Host.Outcome State Fault Refusal :=
  tanMessage 4 m.link s (fun s =>
    match look s.sessions m.handle with
    | none => violate 4 0x0823 m.link.seq s
    | some x =>
      if x.tan.role = 1 then violate 4 0x0824 m.link.seq s
      else if x.tan.role = 0 then violate 4 0x0823 m.link.seq s
      else if !mirrorOrder x.tan m then violate 4 0x0827 m.link.seq s
      else
        let z := lastSlotZero (sessBell s x) (x.phase.getD 0) (framesF s x.stream.fps)
        when (m.last || decide (16 ≤ m.desc)) (sweepPics m.handle) (setSess (clearDesc m x s) m.handle (fun x => { x with
          frameNum := (m.frame + 1) % 2 ^ 32, frameMark := some (nowMark s), rate := m.rate, ltr := shadowLtr x m, rtp := m.rtp, pics := shadowPics x m,
          tan := { x.tan with shFrame := m.frame, shBands := m.band, shLast := m.last, slot0 := if m.band = 1 then some z else x.tan.slot0,
                              shDesc := m.desc, shMain := m.main, shSlot := m.slot, due := x.tan.due ++ [(m.frame, m.band, eligBell s x)] } })))

/-- An ACK leaves (R443). -/
def sendAck (n frame band : Nat) (k : AckKind) (s : State) : State := linkSend (.ack n frame band k) s

/-- A shadow is lost on the shadow's device: the ACK carries LOST (R444). -/
def shadowLost (n frame band : Nat) (s : State) : State := freeShadow n (sendAck n frame band .lost s)

/-- The extents that a shadow decode's finalisation fills (R180, R442): one at a time, with no promotion; false: the pool refuses one. -/
def shadowExtents (n d k : Nat) (s : State) : Bool × State :=
  match k with
  | 0 => (true, s)
  | k + 1 =>
    match (look s.sessions n).bind (fun x => look x.pics d) with
    | none => (true, s)
    | some p =>
      match allocate (sessReq n) (classSize (extentClass p.width p.height)) false s with
      | (.error _, s1) => (false, s1)
      | (.ok w, s1) => shadowExtents n d k (setSess s1 n (fun x => { x with pics := alter x.pics d (fun p => { p with extents := p.extents ++ [w] }) }))

/-- A shadow decode band completes its finalisation (R167, R442). How many sectors its units take is a free value up to their uncompressed size (log
entry 47: a verdict brings no samples). -/
def shadowFinal (n frame k : Nat) (s : State) : Bool × State :=
  match (look s.sessions n).bind (fun x => (x.pics.find? (fun e => decide (e.2.frame = frame))).map (fun e => (x, e))) with
  | none => (true, s)
  | some (x, d, p) =>
    let shape : Shape := { width := p.width, height := p.height, depth := x.stream.depth }
    let rows := finalLuma 64 p.height k (bandsOf p.height)
    let raw := cdiv (unitCount shape * (rows.2 - rows.1)) (max 1 p.height) * (rawBytes x.stream.depth / 64)
    let (w, s0) := takeFree s
    let total := nextSector shape p.sectors + w.toNat % (raw + 1)
    let (ok, s1) := shadowExtents n d (cdiv (64 * total) (classSize (extentClass p.width p.height)) - p.extents.length) s0
    (ok, setSess s1 n (fun x => { x with pics := alter x.pics d (fun p => { p with sectors := total }) }))

/-- A shadow decode band has ended GOOD (R442, R443), unless the pool refuses an extent: then it is LOST (R444). -/
def shadowGood (n frame k : Nat) (s : State) : State :=
  let (ok, s1) := shadowFinal n frame k s
  if ok then sendAck n frame k .good s1 else shadowLost n frame k s1

/-- SHADOW_DECODE_DONE (R439, R442 to R445): the oldest shadow decode band that runs, once ENT and PIX are done with it; a pool refusal ends it at any
time with LOST. -/
def execShadowDecodeDone (handle : Nat) (v : Verdict) (s : State) : Host.Outcome State Fault Refusal :=
  onSession handle s (fun x s =>
    match x.tan.run, x.tan.due with
    | (num, b) :: r, (f, k, _) :: t =>
      if x.tan.role ≠ 2 ∨ x.tan.recheck.isSome then s
      else
        match v with
        | .agree => if shadowReady x num b then shadowGood handle f k (setTs s handle (fun y => { y with due := t, run := r })) else s
        | .lost => shadowLost handle f k s
        | .differ => if shadowReady x num b then setTs s handle (fun y => { y with recheck := some b.quarter, run := r }) else s
    | _, _ => s)

/-- As the Guard window opens, a shadow whose decode is unfinished is lost (R444). -/
def shadowsLate (s : State) : State :=
  (s.sessions.filter (fun e => decide (e.2.tan.role = 2) && !e.2.tan.run.isEmpty)).foldl (fun s e =>
    match e.2.tan.due with
    | (f, k, _) :: _ => shadowLost e.1 f k s
    | [] => s) s

/-- A Quarter retires by an output check; the shadows that it served are lost (R311, R445). -/
def retireShadows (q : Nat) (s : State) : State :=
  let s1 := setQtr (raise (winQtr q) 2 0x080F false (fun s => s) (retireQuarter q s)) q (fun t => { t with shMism := up t.shMism 1 })
  (s.sessions.filter (fun e => decide (e.2.tan.role = 2) && decide (e.2.quarter = q))).foldl (fun s e => shadowLost e.1 e.2.tan.shFrame e.2.tan.shBands s) s1

/-- SHADOW_RECHECK_DONE (R445). -/
def execShadowRecheckDone (handle : Nat) (v : Second) (s : State) : Host.Outcome State Fault Refusal :=
  onSession handle s (fun x s =>
    match x.tan.recheck, x.tan.due with
    | some q, (f, k, _) :: t =>
      let s1 := tanCount 0x54 1 (notice handle 0x080F (setTs s handle (fun y => { y with recheck := none, due := t })))
      match v with
      | .firstShadow => setTan (sendAck handle f k .mismatch s1) (fun t => { t with mismatch := addS t.mismatch handle })
      | .record => retireShadows q s1
      | .neither => retireShadows q (sendAck handle f k .mismatch s1)
    | _, _ => s)

/-- The oldest band of a frame without an ACK. -/
def ackedBand (t : TanSess) (frame : Nat) : Option (Nat × Nat × BitVec 40) := t.acks.find? (fun a => decide (a.1 = frame))

/-- The Quarter that committed a band, as far as the frame is still in progress; else the session's. -/
def committedOn (x : Session) (frame band : Nat) : Nat :=
  match (frameOf x frame).bind (fun f => look f.bands band) with
  | none => x.quarter
  | some b => b.quarter

/-- A mismatch blames the primary: its Quarter retires, and the paired sessions placed on it go over at the next Bell start (R445). -/
def blamePrimary (n : Nat) (q : Nat) (s : State) : State :=
  let s1 := retireByCheck q n s
  let s2 := { s1 with sessions := s1.sessions.map (fun (e : Nat × Session) =>
    if e.2.tan.role = 1 ∧ e.2.tan.live = true ∧ (e.1 = n ∨ e.2.quarter = q) then (e.1, { e.2 with tan := { e.2.tan with handTo := true } }) else e) }
  s2.sessions.foldl (fun s e => if e.2.tan.handTo = true ∧ e.1 ≠ n then linkSend (.handover e.1) s else s) s2

/-- TANDEM_ACK (R443 to R445, R457): TANDEM releases its claim on the band's payload; the shadow is live once every band of a frame has been
acknowledged GOOD. -/
def execTandemAck (link : LinkMeta) (handle frame : Nat) (kind : AckKind) (s : State) : Host.Outcome State Fault Refusal :=
  tanMessage 5 link s (fun s =>
    match look s.sessions handle with
    | none => violate 5 0x0823 link.seq s
    | some x =>
      if x.tan.role ≠ 1 then violate 5 0x0823 link.seq s
      else
        match ackedBand x.tan frame with
        | none => s
        | some a =>
          let mine := x.tan.held.filter (fun e => decide (e.1 = frame) && decide (e.2.1 = a.2.1))
          let s1 := mine.foldl (fun s e => drop { kind := 4, index := 0 } e.2.2.1 e.2.2.2 s) s
          let s2 := setTs s1 handle (fun t => { t with acks := t.acks.erase a, held := t.held.filter (fun e => !decide (e ∈ mine)) })
          let s3 := stat handle 28 1 (tanCount 0x44 1 s2)
          match kind with
          | .lost => loseShadow false handle s3
          | .mismatch => blamePrimary handle (committedOn x frame a.2.1) (tanCount 0x54 1 (notice handle 0x080F (setTs s3 handle (fun t => { t with bad := true }))))
          | .good =>
            let whole := decide (a.2.1 = bandsOf x.stream.height)
            if whole && !x.tan.bad && x.tan.sync.isSome then setTs s3 handle (fun t => { t with live := true, sync := none, good := some frame })
            else if whole then setTs s3 handle (fun t => { t with bad := false }) else s3)

/-- ACK_TIMEOUT (R443): at the start of the second Bell after the commit Bell. -/
def execAckTimeout (handle : Nat) (s : State) : Host.Outcome State Fault Refusal :=
  onSession handle s (fun x s =>
    if x.tan.role = 1 ∧ x.tan.live = true ∧ x.tan.acks.any (fun a => decide (2 ≤ bellsFrom a.2.2 s.bell.num)) = true then loseShadow true handle s else s)

/-! ### Liveness (R446 to R450) -/

/-- HEARTBEAT_SEND (R22, R446): at its time in the Guard window. -/
def execHeartbeatSend (s : State) : Host.Outcome State Fault Refusal :=
  live s (fun s =>
    if s.tandem.state ≠ 3 ∨ s.bell.window ≠ .guard ∨ s.tandem.hbSent = true then s
    else
      let s1 := linkSend (.heartbeat (pairBell s) s.tandem.side s.tandem.state s.tandem.violTot) (setTan s (fun t => { t with hbSent := true }))
      if bit s.tandem.hbCfg 0 then pushCtl (if bit s.tandem.hbCfg 1 then 1 else 0) (.altHb (pairBell s)) s1 else s1)

/-- Is a heartbeat of this pair Bell, within the skew of R434? -/
def heartbeatOk (s : State) (b : BitVec 40) (skew : Int) : Bool := decide (b = pairBell s) && decide (skew.natAbs ≤ 5000)

/-- HEARTBEAT (R434, R446). -/
def execHeartbeat (m : HbMsg) (s : State) : Host.Outcome State Fault Refusal :=
  tanMessage 3 m.link s (fun s =>
    if heartbeatOk s m.pairBell m.skew then setTan s (fun t => { t with gotLink := true, skew := m.skew })
    else violate 3 0x0825 m.link.seq s)

/-- A heartbeat on the alternate path (R446): it is still taken when the link is unsound. -/
def altHeartbeat (b : BitVec 40) (skew : Int) (s : State) : State :=
  if s.tandem.state ≠ 3 ∨ bit s.tandem.hbCfg 0 = false then s
  else if heartbeatOk s b skew then setTan s (fun t => { t with gotAlt := true, skew := skew })
  else violate 3 0x0825 0 s

/-- Every shadow on this device is lost (R448): those that it serves as primary, and those that it holds. -/
def loseAll (s : State) : State :=
  let s1 := (s.sessions.filter (fun e => decide (e.2.tan.role = 1) && (e.2.tan.live || e.2.tan.sync.isSome))).foldl (fun s e => loseShadow false e.1 s) s
  (s1.sessions.filter (fun e => decide (e.2.tan.role = 2))).foldl (fun s e => freeShadow e.1 s) s1

/-- HEARTBEAT_MISSED (R447, R448): at a Bell start, of the pair Bell before it. The loss of the partner wakes the device (R525). -/
def execHeartbeatMissed (s : State) : Host.Outcome State Fault Refusal :=
  live s (fun s =>
    let t := s.tandem
    if t.state ≠ 3 ∨ t.hbDue = false ∨ t.linkOk = true ∨ atStart s = false then s
    else
      let s1 := setTan s (fun t => { t with hbDue := false, missLink := if t.altOk then t.missLink + 1 else 0, missBoth := if t.altOk then 0 else t.missBoth + 1 })
      if t.altOk then
        if 2 ≤ s1.tandem.missLink then pairState 4 (loseAll (deviceEvent 0x080D s1)) else s1
      else
        let s2 := tanCount 0x48 1 s1
        if 2 ≤ s2.tandem.missBoth then wake (deviceEvent 0x080C (setTan s2 (fun t => { t with takeover := some 0, takeGo := true }))) else s2)

/-- TANDEM_NOTICE (R449, R456). -/
def execTandemNotice (kind : NoticeKind) (s : State) : Host.Outcome State Fault Refusal :=
  live s (fun s =>
    if s.tandem.state ≠ 3 then s
    else
      match kind with
      | .fault => setTan (wake s) (fun t => { t with takeover := some (t.takeover.getD 1) })
      | .reset => setTan (wake s) (fun t => { t with takeover := some (t.takeover.getD 2) })
      | .unsound => setTan (wake s) (fun t => { t with dead := true }))

/-! ### Takeover (R451 to R455) -/

/-- The TAKEOVER record (R452). -/
def takeoverRecord (n cause frame fence first flags : Nat) (s : State) : State :=
  match look s.sessions n with
  | none => s
  | some x =>
    post x.fn 5 0x080B (tokenOf n x.gen)
      [tokenOf n x.gen, BitVec.ofNat 32 frame, fldW 0 16 fence ||| fldW 16 16 first, fldW 0 8 cause ||| fldW 8 8 flags] s

/-- A shadow becomes primary here (R451, R453). -/
def takeSession (cause n : Nat) (s : State) : State :=
  match look s.sessions n with
  | none => s
  | some x =>
    let t := x.tan
    let active := decide (x.state = 2)
    let serve := active || decide (x.state = 3)
    let f := if t.shBands = 0 then x.frameNum else if t.shLast then (t.shFrame + 1) % 2 ^ 32 else t.shFrame
    let held := if t.shLast then 0 else t.shBands
    let (rtp, s0) :=
      if t.gap then
        ({ x.rtp with ssrc := Config.draw s.freeCtr, roc := 0, seq := (Config.draw (s.freeCtr + 1)).truncate 16, tsNext := Config.draw (s.freeCtr + 2),
                      tsLast := Config.draw (s.freeCtr + 2) }, { s with freeCtr := s.freeCtr + 3 })
      else (x.rtp, s)
    let s1 := setSess (pendEvent true (fun u => decide (u.handle = n)) s0) n (fun x => { x with
      frameNum := f, rtp := rtp, ltr := if t.gap then { x.ltr with key := true } else x.ltr, woken := if active then some s.bell.num else none,
      tan := { TanSess.reset 1 with
        shFrame := t.shFrame, shBands := t.shBands, shLast := t.shLast, slot0 := t.slot0, shDesc := t.shDesc, shMain := t.shMain, shSlot := t.shSlot } })
    let s2 := match (if serve then takeFence s1 x.fn x.oldFence else none) with
      | none => s1
      | some (i, l) => setFences x.fn l (setSess s1 n (fun x => { x with fence := some i }))
    let bound := serve && x.binding.isSome
    let s3 := if bound then rebind n s2 else s2
    let fence := ((look s3.sessions n).bind (fun x => x.fence)).getD 0xFFFF
    let flags := (if t.gap then 3 else 0) + (if bound then 4 else 0)
    tanCount 0x4C 1 (takeoverRecord n cause (if active then f else 0xFFFFFFFF) fence (held + 1) flags s3)

/-- TAKEOVER (R451): every shadow in ascending handle order; after a mismatch, the shadows concerned only. -/
def execTakeover (s : State) : Host.Outcome State Fault Refusal :=
  live s (fun s =>
    if s.tandem.takeGo = false ∨ atStart s = false then s
    else
      match s.tandem.takeover with
      | some c =>
        let own := (s.sessions.filter (fun e => decide (e.2.tan.role = 1) && (e.2.tan.live || e.2.tan.sync.isSome))).map (fun e => e.1)
        let sh := (s.sessions.filter (fun e => decide (e.2.tan.role = 2))).map (fun e => e.1)
        let s1 := pairState 4 (setTan s (fun t => { t with takeover := none, takeGo := false, mismatch := [] }))
        sh.foldl (fun s n => takeSession c n s) (own.foldl (fun s n => loseShadow false n s) s1)
      | none =>
        let sh := s.tandem.mismatch.filter (fun n => match look s.sessions n with | none => false | some x => decide (x.tan.role = 2))
        sh.foldl (fun s n => takeSession 4 n s) (setTan s (fun t => { t with takeGo := false, mismatch := [] })))

/-- The old primary of a session becomes its shadow (R445, R458): its frames in progress and its bindings go. -/
def becomeShadow (n : Nat) (s : State) : State :=
  match look s.sessions n with
  | none => s
  | some x =>
    let s1 := x.frames.foldl (fun s f => dropFrame n f.num s) (pendEvent true (fun u => decide (u.handle = n)) (dropHeld n s))
    freeFence n (unbind n (setSess s1 n (fun x => { x with tan := { TanSess.reset 2 with landed := decide (x.state = 4) }, doneWait := [], recs := [] })))

/-- At a Bell start: the heartbeats of the last Bell are known, a takeover that is due begins, and the sessions that a mismatch takes away are
shadows from now on (R445, R447, R449). -/
def tandemBell (s : State) : State :=
  let s1 := setTan s (fun t => { t with
    linkOk := t.gotLink, altOk := t.gotAlt, gotLink := false, gotAlt := false, hbDue := decide (t.state = 3),
    missLink := if t.gotLink then 0 else t.missLink, missBoth := if t.gotLink || t.gotAlt then 0 else t.missBoth,
    takeGo := t.takeover.isSome || !t.mismatch.isEmpty })
  (s1.sessions.filter (fun e => e.2.tan.handTo)).foldl (fun s e => becomeShadow e.1 s) s1

/-! ### Re-establishing shadows, handover (R457, R458) -/

/-- What of the record's copy a shadow is opened with goes as a CONFIG message (DESIGN CHOICE, log entry 47: no row receives a SYNC message). -/
def tellOpen (h : Nat) (s : State) : State := tellShadow h (fun x => .openShadow x.fn (tokenOf h x.gen) x.stream x.userTag) s

/-- SHADOW_SYNC (R457): at a frame start, before a band of the frame has committed; the copied record's state and phase go with it. -/
def execShadowSync (handle : Nat) (s : State) : Host.Outcome State Fault Refusal :=
  onSession handle s (fun x s =>
    match x.frames.getLast? with
    | none => s
    | some f =>
      if x.tan.role = 1 ∧ linkUp s = true ∧ x.tan.live = false ∧ x.tan.sync = none ∧ f.next = 1 then
        tellPartner handle 2 (tellPhase handle (tellOpen handle (linkSend (.sync handle f.num) (setFrame handle f.num (fun f => { f with mirrored := true })
          (setTs s handle (fun t => { TanSess.reset 1 with sync := some f.num, shFrame := t.shFrame, shBands := t.shBands, shLast := t.shLast }))))))
      else s)

/-- SYNC_DONE (R457): the copies on their way have landed; the shadows start decoding mirrored frames. -/
def execSyncDone (s : State) : Host.Outcome State Fault Refusal :=
  live s (fun s =>
    if s.tandem.state ≠ 3 then s
    else { s with sessions := s.sessions.map (fun (e : Nat × Session) => if e.2.tan.role = 2 then (e.1, { e.2 with tan := { e.2.tan with landed := true } }) else e) })

/-- HANDOVER (R458), at a Bell start: the old primary becomes the shadow; on the device that held the shadow it becomes the primary and posts
its record with CAUSE 3. -/
def execHandover (handle : Nat) (s : State) : Host.Outcome State Fault Refusal :=
  onSession handle s (fun x s =>
    if atStart s = false ∨ linkUp s = false ∨ x.state ≠ 4 ∨ x.pend.isSome then s
    else if x.tan.role = 1 ∧ bit s.tandem.ctrl 1 = true ∧ x.tan.live = true then becomeShadow handle (linkSend (.handover handle) s)
    else if x.tan.role = 2 ∧ x.tan.landed = true then
      takeoverRecord handle 3 0xFFFFFFFF 0xFFFF 1 0 (setTs s handle (fun _ => { TanSess.reset 1 with live := true }))
    else s)

end Sys2Proof.Machine
end

