-- ==== Sys2Proof/Machine/Ingress.lean ====
section
/-! DEFINITION. Received Ethernet frames (R405, R418, R422 to R426, R527), the RTCP feedback that they carry (R237 to R240), and the end of an
exit from a power state (R339, R525). -/

namespace Sys2Proof.Machine

open Sys2Proof

/-! ### Feedback -/

/-- The frames that the sequence numbers of a NACK name in a flow's send history (R239). -/
def nackFrames (f : Flow) (seqs : List Nat) : List (Option Nat) :=
  seqs.map (fun q => (f.hist.find? (fun e => decide (e.1.toNat = q % 65536))).map (fun e => e.2.2))

/-- A flag of the LTR state is raised for the next frame start (R239, R240). -/
def setStale (n : Nat) (s : State) : State := setSess s n (fun x => { x with ltr := { x.ltr with stale := true } })
/-- See setStale. -/
def setSpect (n : Nat) (s : State) : State := setSess s n (fun x => { x with ltr := { x.ltr with spect := true } })

/-- One feedback item of flow i for session n (R237 to R240, R418). -/
def feedItem (i n : Nat) (f : Flow) (item : Rtcp) (s : State) : State :=
  match item with
  | .report loss elre =>
    let e := elre.getD 0
    let s1 := if e = 0 then s else setFlow s i (fun f => { f with eRate := some (e, s.bell.num) })
    if f.rateSrc then rateReport n loss e s1 else s1
  | .nack seqs =>
    if f.resSrc then
      (nackFrames f seqs).foldl (fun s o => match o with | none => setStale n s | some g => feedLoss n g s) s
    else stat n 16 1 s
  | .pli =>
    if f.resSrc then (match f.hist with | [] => s | e :: _ => feedLoss n e.2.2 s) else setSpect n s
  | .fir seq =>
    if f.resSrc then
      match look s.sessions n with
      | none => s
      | some x =>
        if x.ltr.firSeq = some (seq % 256) then s
        else feedKey n (setSess s n (fun x => { x with ltr := { x.ltr with firSeq := some (seq % 256) } }))
    else setSpect n s
  | .rpsi ptMatches bits ts =>
    if !f.resSrc || !ptMatches || decide (bits ≠ 32) then stat n 16 1 s
    else
      match f.hist.find? (fun e => decide (e.2.1 = ts)) with
      | none => stat n 15 1 s
      | some e => feedAck n e.2.2 s
  | .other => s

/-! ### The classifier -/

/-- The flow that step 7 of R422 finds: an exact match, then KIND 1 with any remote port, then KIND 1 with any remote address. -/
def findFlow (s : State) (port vid localPort : Nat) (ip : BitVec 128) (remotePort : Nat) : Option (Nat × Flow) :=
  let on := s.net.flows.filter (fun e => e.2.detach.isNone && (decide (e.2.kind = 1) || e.2.session.isSome))
  match on.find? (fun e => sameMatch e.2 port vid localPort ip remotePort) with
  | some e => some e
  | none =>
    match on.find? (fun e => decide (e.2.kind = 1) && decide (e.2.remotePort = 0) && sameMatch e.2 port vid localPort ip 0) with
    | some e => some e
    | none =>
      on.find? (fun e => decide (e.2.kind = 1) && decide (e.2.remoteIp = 0) &&
        (sameMatch e.2 port vid localPort 0 remotePort || sameMatch e.2 port vid localPort 0 0))

/-- Bits of an RXQ entry's FLAGS (R425). -/
def rxFlags (rtcp vlan ipv6 frame : Bool) : Nat := (if rtcp then 1 else 0) + (if vlan then 2 else 0) + (if ipv6 then 4 else 0) + (if frame then 8 else 0)

/-- A number of two bytes in network order. -/
def be16 (b : List Byte) (o : Nat) : Nat := (b.getD o 0).toNat * 256 + (b.getD (o + 1) 0).toNat

/-- An unmatched frame (R422): its data in the ring is the frame without its FCS (R425). -/
def unmatched (f : RxFrame) (s : State) : State :=
  let s1 := netCount 0x30 1 s
  let tag := decide (be16 f.bytes 12 = 0x8100)
  let v6 := decide (be16 f.bytes (if tag then 16 else 12) = 0x86DD)
  if bit s1.net.ctrl 1 && (look s1.net.rxqs 0).isSome then
    (toRxq 0 0 0xFFFF f.port (rxFlags false tag v6 true) (f.bytes.take (f.bytes.length - 4)) s1).2
  else s1

/-- A packet of a flow was delivered (R429). -/
def noteRx (i : Nat) (s : State) : State := setFlow s i (fun f => { f with tx := up f.tx 1 })

/-- A packet of a flow for its host receive queue (R422). -/
def flowRxq (i : Nat) (f : Flow) (data : List Byte) (rtcp : Bool) (s : State) : State :=
  if f.rxqEn then
    let (done, s1) := toRxq f.fn f.rxq i f.port (rxFlags rtcp f.vlanEn f.ipv6 false) data s
    if done then noteRx i s1 else s1
  else netCount 0x3C 1 s

/-- An index inside the replay window of 128 that has not been seen, or one above it (R424). -/
def replayOk (f : Flow) (index : Nat) : Bool := decide (f.top < index) || (decide (f.top < index + 128) && decide (index ∉ f.seen))

/-- The index is taken. -/
def takeIndex (index : Nat) (f : Flow) : Flow :=
  let top := max f.top index
  { f with top := top, seen := (addS f.seen index).filter (fun k => decide (top < k + 128)) }

/-- A dropped packet of a flow. -/
def dropRx (off i : Nat) (s : State) : State := netCount off 1 (setFlow s i (fun f => { f with drops := up f.drops 1 }))

/-- The bytes of a UDP payload in a frame of a flow, behind the headers and before the FCS. -/
def udpData (f : Flow) (b : List Byte) : List Byte :=
  let head := 14 + (if f.vlanEn then 4 else 0) + (if f.ipv6 then 40 else 20) + 8
  (b.drop head).take (b.length - (head + 4))

/-- The packets of an RTCP compound, by their length fields (RFC 3550); n bounds how many. -/
def rtcpPackets (n : Nat) (b : List Byte) : List (List Byte) :=
  match n with
  | 0 => []
  | n + 1 =>
    if b.length < 4 then []
    else
      let k := 4 * (be16 b 2 + 1)
      b.take k :: rtcpPackets n (b.drop k)

/-- Does the device take a packet of a compound (R237): a receiver report, the APP packet "ELRE" of subtype 0, a generic NACK, or a PLI, RPSI or FIR?
The type numbers are those of RFC 3550, RFC 4585 and RFC 5104 (PRESUMED, log entry 45). -/
def takenRtcp (p : List Byte) : Bool :=
  let ty := (p.getD 1 0).toNat
  let fmt := (p.getD 0 0).toNat % 32
  decide (ty = 201) || (decide (ty = 204) && decide (fmt = 0) && decide ((p.drop 8).take 4 = [0x45, 0x4C, 0x52, 0x45])) || (decide (ty = 205) && decide (fmt = 1)) ||
    (decide (ty = 206) && decide (fmt ∈ [1, 3, 4]))

/-- The packets of a compound that go to a host receive queue (R422). -/
def otherRtcp (b : List Byte) : List Byte := ((rtcpPackets b.length b).filter (fun p => !takenRtcp p)).flatten

/-- Step 9 of R422 for flow i; b is the UDP payload, as it reads when it has been opened. -/
def dispatchRx (i : Nat) (f : Flow) (b : List Byte) (authOk : Bool) (index : Nat) (body : RxBody) (s : State) : State :=
  let checked := fun (g : State → State) =>
    if authOk && replayOk f index then g (setFlow s i (takeIndex index)) else dropRx 0x38 i s
  let bound := decide (f.kind = 1) && f.session.isSome
  match body with
  | .rtcp items =>
    if f.kind = 0 then
      checked (fun s =>
        let h := f.session.getD 0
        let s1 := stamp s
        let serve := match look s.sessions h with | none => false | some x => decide (x.tan.role ≠ 2)
        let s2 := if serve then items.foldl (fun s it => feedItem i h f it s) s1 else s1
        if items.any (fun it => decide (it = .other)) then flowRxq i f (otherRtcp b) true s2 else s2)
    else flowRxq i f b true s
  | .rtp ts seq marker ok info =>
    if bound then
      let go := fun s => peerPacket (f.session.getD 0) ts seq marker ok info (noteRx i s)
      if f.srtp then checked go else go s
    else flowRxq i f b false s
  | .data => flowRxq i f b false s

/-- A PTP message (R426): without PTP_CLIENT it is dropped; the client disciplines the port's clock and may answer (a delay request). The offset that it
measures, and whether it answers now, are free values (log entry 4); LOCKED is worked out from the offset (R429). -/
def ptpMessage (p : Nat) (s : State) : State :=
  if (portOf s p).cfg.getLsbD 21 then
    let (w, s1) := takeFree s
    let (a, s2) := takeFree s1
    let s3 := setPort s2 p (fun x => { x with offset := w, locked := decide (w.toInt.natAbs ≤ 100) })
    if a.getLsbD 0 then pushCtl p .ptp s3 else s3
  else s

/-- A frame that passed step 1 (R405, R422 to R424). -/
def classify (f : RxFrame) (s0 : State) : State :=
  let s := netCount 0x28 1 s0
  match f.kind with
  | .macControl => netCount 0x40 1 s
  | .foreign => unmatched f s
  | .arpNdp => pushCtl f.port .arp s
  | .ptp => ptpMessage f.port s
  | .altHeartbeat b skew => altHeartbeat b skew s
  | .nonUdp => unmatched f s
  | .udp vid localPort ip remotePort authOk index body =>
    match findFlow s f.port vid localPort ip remotePort with
    | none => unmatched f s
    | some (i, fl) =>
      let l := f.len + overhead s f.port
      if fl.polCredit < l * 1000000 then dropRx 0x34 i s
      else
        dispatchRx i fl (udpData fl f.bytes) authOk index body (setFlow s i (fun g => { g with polCredit := g.polCredit - l * 1000000 }))

/-- Does a frame wake the device (R525): step 7 matches it to a flow, or it goes to a host receive queue? -/
def rxWakes (f : RxFrame) (s : State) : Bool :=
  let q := bit s.net.ctrl 1 && (look s.net.rxqs 0).isSome
  match f.kind with
  | .foreign => q
  | .nonUdp => q
  | .udp vid localPort ip remotePort _ _ _ => (findFlow s f.port vid localPort ip remotePort).isSome || q
  | .altHeartbeat _ _ => true
  | _ => false

/-- RX_FRAME (R422, R527): in Laid-up a frame waits in the packet buffer of 8 MiB, or is dropped where it does not fit. -/
def execRxFrame (f : RxFrame) (s : State) : Host.Outcome State Fault Refusal :=
  live s (fun s =>
    if 2 ≤ f.port ∨ (portOf s f.port).link = 0 ∨ bit s.net.ctrl 0 = false then s
    else if !f.fcsOk || decide (f.len < 64) || decide (9022 < f.len) then netCount 0x2C 1 s
    else if s.pwr.state = 4 then
      let s1 := if (s.net.waiting.map (fun w => w.len)).sum + f.len ≤ 2 ^ 23 then { s with net := { s.net with waiting := s.net.waiting ++ [f] } }
        else netCount 0x2C 1 s
      if rxWakes f s then wake s1 else s1
    else classify f (if rxWakes f s then wake s else s))

/-! ### The end of an exit -/

/-- Leaving self-refresh, the steps of R337 run on each rank of a channel (R339): what they measure is a free value (log entry 4). -/
def recentre (c : Nat) (s : State) : State :=
  if chanUp s c then
    (List.range (s.memc.dpc * s.memc.ranks)).foldl (fun s r =>
      let (w, s1) := takeFree s
      let old := lookD (chanOf s1 c).vref r 0
      let new := old + ((w.toNat % 3 : Nat) : Int) - 1
      setChan s1 c (fun c => { c with vref := put c.vref r (if new.natAbs ≤ 4 then new else old) })) s
  else s

/-- POWER_EXIT_DONE (R339, R474, R525 to R527): the messages that were held back may leave, and the frames that waited are taken. -/
def execPowerExitDone (s : State) : Host.Outcome State Fault Refusal :=
  live s (fun s =>
    if !s.pwr.exiting then s
    else
      let was := s.pwr.state
      let s1 := enterPower s.pwr.exitTo { s with pwr := { s.pwr with exiting := false } }
      let s2 := if 3 ≤ was ∧ s.pwr.exitTo < 3 then (List.range 12).foldl (fun s c => recentre c s) s1 else s1
      if s2.pwr.state < 4 then s2.net.waiting.foldl (fun s f => classify f s) { s2 with net := { s2.net with waiting := [] } } else s2)

end Sys2Proof.Machine
end

