-- ==== Sys2Proof/Machine/SelfTest.lean ====
section
/-! DEFINITION. BIST (R500 to R509, R516) and Sextant (R510 to R517). -/

namespace Sys2Proof.Machine

open Sys2Proof

/-! ### BIST -/

/-- The role code of a SPARE engine (R40). -/
def roleSpare : Nat := 5

/-- The analogue target after t in ascending order (R500); none after the last. -/
def nextAna (t : Nat) : Option Nat :=
  if t < 0x0B9 then some (if t % 16 < 9 then t + 1 else t / 16 * 16 + 16)
  else if t = 0x0B9 then some 0x100
  else if t < 0x11F then some (t + 1)
  else if t = 0x11F then some 0x200
  else if t < 0x24F then some (t + 1)
  else if t = 0x24F then some 0x300
  else if t < 0x312 then some (t + 1)
  else none

/-- A counter of the BIST block, by its register offset (R516). -/
def bistCount (off : Nat) (s : State) : State := { s with bist := { s.bist with cnt := bump s.bist.cnt off 1 } }

/-- A slice begins in this Guard window (R503, R523). -/
def bistSlice (s : State) : State :=
  { s with bist := { s.bist with
      slice := s.bist.en && decide (s.bell.num.toNat % max 1 (fld s.bist.cfg 7 0) = 0) && decide (s.pwr.state ≤ 2), used := 0 } }

/-- The SPARE engine of a Quarter. -/
def spareOf (s : State) (q : Nat) : Option Nat :=
  (List.range 32).find? (fun k => decide ((lookD s.plan.districts q { mcSet := 0, weight := 0, ctxSlots := 0, roles := [] }).roles[k]? = some roleSpare))

/-- Does a Quarter rotate an engine into the next slice (R506, R507)? -/
def rotates (s : State) (q : Nat) : Bool :=
  decide ((qtrOf s q).state = 1) && (qtrOf s q).shadow.isNone && (look s.bist.standIn q).isNone && (spareOf s q).isSome

/-- In the Guard window of the Bell before a slice, each rotating Quarter's SPARE loads the next engine's role image (R307, R506). -/
def rotateLoad (s : State) : State :=
  if s.bist.en && bit s.bist.cfg 9 && decide ((s.bell.num.toNat + 1) % max 1 (fld s.bist.cfg 7 0) = 0) then
    (List.range 16).foldl (fun s q =>
      if rotates s q then
        let e := lookD s.bist.rot q 0 % 32
        let s1 := { s with bist := { s.bist with standIn := put s.bist.standIn q e } }
        match spareOf s q with
        | none => s1
        | some k => loadMicro q k ((districtOf s q).roles.getD e 6) s1
      else s) s
  else s

/-- At a Bell start (R506, R508): engines that passed both targets are back in service and the rotation moves on; engines that a SPARE stands in
for are out for the whole slice Bell; a SPARE that is free again takes the PIX image (R307). -/
def rotateBell (s : State) : State :=
  let b := s.bist
  let back := b.out.filter (fun e => has b.scanOk e && has b.scanOk (512 + e) && !has b.failed e)
  let b1 := { b with
    out := b.out.filter (fun e => !has back e), scanOk := [],
    rot := back.foldl (fun m e => put m (e / 32) ((e % 32 + 1) % 32)) b.rot,
    standIn := b.standIn.filter (fun e => !has back (32 * e.1 + e.2)), slice := false }
  let s1 := { s with bist := { b1 with out := b1.standIn.foldl (fun l e => addS l (32 * e.1 + e.2)) b1.out } }
  back.foldl (fun s e => match spareOf s (e / 32) with | none => s | some k => loadMicro (e / 32) k 0 s) s1

/-- A target fails (R501, R508, R509): it is counted, remembered, and an event of its kind. -/
def bistFail (win kind target variant place : Nat) (s : State) : State :=
  raise win kind (BitVec.ofNat 16 target) false (reaction win kind place)
    (bistCount 0x24 { s with bist := { s.bist with lastFail := fldW 16 16 variant ||| fldW 0 16 target } })

/-- The watch kind of an analogue target (R509). -/
def anaKind (t : Nat) : Nat := if t < 0x100 then 0 else if t < 0x200 then 1 else if t < 0x300 then 2 else 3

/-- The analogue stream moves past its head; a sweep ends after the last target (R504). -/
def anaAdvance (t : Nat) (s : State) : State :=
  if has s.bist.kept t then { s with bist := { s.bist with kept := remS s.bist.kept t } }
  else
    match nextAna t with
    | some n => { s with bist := { s.bist with head := n } }
    | none => bistCount 0x30 { s with bist := { s.bist with head := 0 } }

/-- Is t due in the analogue stream: a target kept from an earlier slice, else the head? -/
def anaDue (s : State) (t : Nat) : Bool := has s.bist.kept t || (s.bist.kept.isEmpty && decide (t = s.bist.head))

/-- Does the DDR channel of a target take its retraining pause in this Bell (R337, R504)? -/
def anaPaused (s : State) (t : Nat) : Bool := decide (t < 0x100) && decide (s.bell.num.toNat % 256 = 16 * (t / 16) % 256)

/-- A result between its limits (R501). -/
def measuredOk (r lim : BitVec 64) : Bool := decide (lim.toNat % 2 ^ 32 ≤ r.toNat) && decide (r.toNat ≤ lim.toNat / 2 ^ 32)

/-- How long a target of the analogue stream takes, in µs (R500). -/
def anaTime (t : Nat) : Nat := if t < 0x100 then 4 else if t < 0x200 then 8 else if t < 0x300 then 2 else 1

/-- Is a target's port off, its link down, or are its Tandem lanes unpowered (R504)? DEDUCED (log entry 51): a port's PLL is skipped with its lanes. -/
def anaSkips (s : State) (t : Nat) : Bool :=
  let eth := fun p => decide (portMode s p = 0) || decide ((portOf s p).link = 0)
  let tandem := !s.dev.straps.testBit 2 || decide (s.tandem.state ≠ 2 ∧ s.tandem.state ≠ 3)
  if 0x110 ≤ t ∧ t ≤ 0x117 then eth ((t - 0x110) / 4)
  else if 0x118 ≤ t ∧ t ≤ 0x11F then tandem
  else if t = 0x304 ∨ t = 0x305 then eth (t - 0x304)
  else decide (t = 0x306) && tandem

/-- A target of the analogue stream ends, is passed over or is skipped (R501, R503, R504, R509). It begins only where it ends within the slot of
40 µs (R22); else it waits for the next slice. -/
def anaDone (r : BistRes) (lim : BitVec 64) (s : State) : State :=
  let t := r.target
  if !anaDue s t then s
  else if anaPaused s t then
    (if has s.bist.kept t then s
     else let s1 := anaAdvance t s
          { s1 with bist := { s1.bist with kept := addS s1.bist.kept t } })
  else if r.skipped || anaSkips s t then anaAdvance t (bistCount 0x28 s)
  else if 40 < s.bist.used + anaTime t then s
  else
    let s0 := anaAdvance t s
    let s1 := bistCount 0x20 { s0 with bist := { s0.bist with used := s0.bist.used + anaTime t } }
    let n := s1.pwr.ignored.length
    if measuredOk r.result lim then
      (if 0x200 ≤ t ∧ t < 0x220 then { s1 with pwr := { s1.pwr with ignored := remS s1.pwr.ignored (t - 0x200) } } else s1)
    else sensorsLost n (bistFail winBist (anaKind t) t 0 (if t < 0x220 then t - 0x200 else 32) s1)

/-- An engine target ends (R501, R502, R506, R508): pass is noted under the engine, 512 above it for the role routine. -/
def engDone (r : BistRes) (e key : Nat) (sig : Option (BitVec 64)) (s : State) : State :=
  let s1 := bistCount (if sig.isNone then 0x2C else 0x20) s
  if sig.isNone ∨ sig = some r.result then
    let ok := addS s1.bist.scanOk key
    { s1 with bist := { s1.bist with
        scanOk := ok, failed := if has ok e && has ok (512 + e) then remS s1.bist.failed e else s1.bist.failed } }
  else
    bistFail (winQtr (e / 32)) 3 r.target r.variant 0 { s1 with bist := { s1.bist with failed := addS s1.bist.failed e } }

/-- The plan's signature of a target and variant (R49). -/
def planSig (s : State) (target variant : Nat) : Option (BitVec 64) :=
  (s.plan.bist.find? (fun b => decide (b.target = target) && decide (b.variant = variant))).map (fun b => b.sig)

/-- The role whose routine tests engine k of a Quarter (R500, R506): its own; a SPARE holds the PIX image in standby (R307). -/
def testRole (s : State) (q k : Nat) : Nat :=
  let r := (districtOf s q).roles.getD k 0
  if r = roleSpare then 0 else r

/-- BIST_TARGET_DONE (R501 to R509). The stored value of a fused target is the fuse's, an operand; of an image-dependent target the plan's. -/
def execBistTargetDone (r : BistRes) (s : State) : Host.Outcome State Fault Refusal :=
  live s (fun s =>
    if !s.bist.slice then s
    else if r.target ≤ 0x312 then
      match r.limit with
      | none => s
      | some lim => if bit s.bist.cfg 8 then anaDone r lim s else s
    else
      match look s.bist.standIn r.quarter with
      | none => s
      | some k =>
        let e := 32 * r.quarter + k
        if !bit s.bist.cfg 9 || !has s.bist.out e then s
        else if r.target = 0x400 + e then
          match r.limit with
          | none => s
          | some v => engDone r e e (some v) s
        else if r.target = 0x8000 + testRole s r.quarter k ∧ has s.bist.scanOk e = true then
          engDone r e (512 + e) (planSig s r.target (qtrOf s r.quarter).mcSet) s
        else s)

/-- BIST_CTRL_WRITE (R516). -/
def execBistCtrlWrite (value : Word) (s : State) : Host.Outcome State Fault Refusal :=
  blockWrite 0xFFFFFFFE value s (fun s =>
    if bit value 0 && !s.plan.first then { s with bist := { s.bist with reason := 0x0B30 } }
    else { s with bist := { s.bist with en := bit value 0 } })

/-! ### Sextant -/

/-- The pair that an entry's set holds, set 3 standing for native mode; a pair never written is the fused factory value (R512). -/
def sextPair (s : State) (i set : Nat) : BitVec 16 × BitVec 16 := lookD s.sext.values (4 * i + set) (Config.factory i)

/-- The absolute limits of R510. -/
def sextAbs (i : Nat) (g o : BitVec 16) : Bool :=
  if i < 80 then
    decide (0x399A ≤ g.toNat) && decide (g.toNat ≤ 0x4666) && decide (-512 ≤ o.toInt) && decide (o.toInt ≤ 512)
  else if i < 84 then decide (0x3333 ≤ g.toNat) && decide (g.toNat ≤ 0x4333) && decide (o = 0)
  else decide (8 ≤ g.toNat) && decide (g.toNat ≤ 56) && decide (8 ≤ o.toNat) && decide (o.toNat ≤ 56)

/-- The relative limits of R510 against the old pair. -/
def sextRel (i : Nat) (old new : BitVec 16 × BitVec 16) : Bool :=
  let dg := ((new.1.toNat : Int) - old.1.toNat).natAbs
  if i < 80 then decide (dg * 200 ≤ old.1.toNat) && decide ((new.2.toInt - old.2.toInt).natAbs ≤ 4)
  else if i < 84 then decide (dg * 500 ≤ old.1.toNat)
  else decide (dg ≤ 2) && decide (((new.2.toNat : Int) - old.2.toNat).natAbs ≤ 2)

/-- The set nearest to T, if T lies within 5 °C of its temperature (R514). -/
def nearSet (t : Int) : Option Nat :=
  if (t - 25).natAbs ≤ 5 then some 0 else if (t - 60).natAbs ≤ 5 then some 1 else if (t - 95).natAbs ≤ 5 then some 2 else none

/-- The value in force of an entry (R513, R514). -/
def sextInForce (s : State) (i : Nat) : BitVec 16 × BitVec 16 :=
  if !bit s.sext.ctrl 1 then sextPair s i 3
  else
    let t := lookD s.sext.temps i 25
    if t ≤ 25 then sextPair s i 0
    else if 95 ≤ t then sextPair s i 2
    else
      let a := if t < 60 then sextPair s i 0 else sextPair s i 1
      let b := if t < 60 then sextPair s i 1 else sextPair s i 2
      let t0 : Int := if t < 60 then 25 else 60
      (Config.interpolate a.1 b.1 t0 t, Config.interpolate a.2 b.2 t0 t)

/-- A reference's check bit follows its check; a change from 1 to 0 is an event (R512). -/
def sextRefs (m : SextMeas) (s : State) : State :=
  let s1 := { s with sext := { s.sext with clkOk := m.clkOk, voltOk := m.voltOk } }
  let s2 := if s.sext.clkOk && !m.clkOk then raise winSext 1 0 false (fun s => s) s1 else s1
  if s.sext.voltOk && !m.voltOk then raise winSext 2 0 false (fun s => s) s2 else s2

/-- The next entry; a round ends after entry 95 (R511). -/
def sextNext (s : State) : State :=
  if s.sext.next = 95 then { s with sext := { s.sext with next := 0, rounds := (s.sext.rounds + 1) % 65536 } }
  else { s with sext := { s.sext with next := s.sext.next + 1 } }

/-- An entry is measured (R511, R514). -/
def sextJudge (i : Nat) (m : SextMeas) (s : State) : State :=
  let s1 := { s with sext := { s.sext with raw := put s.sext.raw i m.raw, temps := put s.sext.temps i m.temp } }
  match (if bit s.sext.ctrl 1 then nearSet m.temp else some 3) with
  | none => s1
  | some set =>
    if sextAbs i m.gain m.offset && sextRel i (sextPair s i set) (m.gain, m.offset) then
      { s1 with sext := { s1.sext with
          result := some (4 * i + set, m.gain, m.offset), stale := remS s1.sext.stale i, accept := up s1.sext.accept 1 } }
    else
      raise winSext 0 (BitVec.ofNat 16 i) false (fun s => s) { s1 with sext := { s1.sext with
        stale := addS s1.sext.stale i, reject := up s1.sext.reject 1, rejects := put s1.sext.rejects i (up8 (lookD s1.sext.rejects i 0)) } }

/-- SEXTANT_MEASURE (R511, R512, R514). An entry whose reference fails is passed over. -/
def execSextantMeasure (m : SextMeas) (s : State) : Host.Outcome State Fault Refusal :=
  live s (fun s =>
    let i := s.sext.next
    if !bit s.sext.ctrl 0 || decide (s.bell.num.toNat % max 1 (fld s.sext.cfg 7 0) ≠ 0) || s.sext.result.isSome || decide (3 ≤ s.pwr.state) then s
    else
      let s1 := sextNext (sextRefs m s)
      if (i < 80 ∧ m.voltOk = false) ∨ (80 ≤ i ∧ i < 84 ∧ m.clkOk = false) then s1 else sextJudge i m s1)

/-- SEXTANT_APPLY (R511, R513): staged pairs and the accepted result take effect in one step, a staged pair before a result of its entry. -/
def execSextantApply (s : State) : Host.Outcome State Fault Refusal :=
  live s (fun s =>
    if s.bell.window ≠ .guard then s
    else
      let v0 := match s.sext.result with | none => s.sext.values | some (k, g, o) => put s.sext.values k (g, o)
      { s with sext := { s.sext with values := s.sext.staged.foldl (fun m e => put m e.1 e.2) v0, staged := [], result := none } })

/-- The pair that SEXT_SEL selects (R513, R514, R517). -/
def sextKey (s : State) : Nat := 4 * fld s.sext.sel 6 0 + (if bit s.sext.ctrl 1 then fld s.sext.sel 9 8 else 3)

/-- SEXT_COEF_GAIN_WRITE (R513). -/
def execSextCoefGainWrite (value : Word) (s : State) : Host.Outcome State Fault Refusal :=
  blockWrite 0xFFFF0000 value s (fun s => { s with sext := { s.sext with held := some (sextKey s, value.truncate 16) } })

/-- SEXT_COEF_OFFSET_WRITE (R513): it stages the pair with the GAIN held for the same entry; with none held there is no pair. -/
def execSextCoefOffsetWrite (value : Word) (s : State) : Host.Outcome State Fault Refusal :=
  blockWrite 0xFFFF0000 value s (fun s =>
    match s.sext.held with
    | none => s
    | some (k, g) =>
      if k ≠ sextKey s then s
      else if sextAbs (k / 4) g (value.truncate 16) then
        { s with sext := { s.sext with held := none, staged := put s.sext.staged k (g, value.truncate 16) } }
      else { s with sext := { s.sext with held := none, reason := 0x0B32 } })

/-- SEXT_CTRL_WRITE (R514, R517). -/
def execSextCtrlWrite (value : Word) (s : State) : Host.Outcome State Fault Refusal :=
  blockWrite 0xFFFFFFFC value s (fun s =>
    if bit s.sext.ctrl 0 && (bit value 1 != bit s.sext.ctrl 1) then { s with sext := { s.sext with reason := 0x0B31 } }
    else { s with sext := { s.sext with ctrl := value } })

end Sys2Proof.Machine
end

