-- ==== Sys2Proof/Machine/Bell.lean ====
section
/-! DEFINITION. The Bell: its start, its windows, its source, and what each edge sets going (R11 to R24, R74, R113 to R115). -/

namespace Sys2Proof.Machine

open Sys2Proof

/-! ### The source (R14 to R18) -/

/-- The Bell generator changed. -/
def setBell (s : State) (g : Bell → Bell) : State := { s with bell := g s.bell }

/-- What is left of a slew after one Bell: at most 1 µs is moved (R14). -/
def slewOn (n : Int) : Int := if 1000 < n then n - 1000 else if n < -1000 then n + 1000 else 0

/-- An edge is accepted at an offset in ns from the Bell start (R14, R17). -/
def acceptEdge (offset : Int) (b : Bell) : Bell :=
  { b with phase := BitVec.ofInt 32 offset, slew := offset, locked := decide (offset.natAbs ≤ 1000), missRun := 0, missed := false,
           holdover := false, lost := false, rejRun := [] }

/-- Do the offsets of the last 8 rejected edges agree within 1 µs (R15)? -/
def agree (l : List Int) : Bool :=
  decide (8 ≤ l.length) && (l.take 8).all (fun a => (l.take 8).all (fun c => decide ((a - c).natAbs ≤ 1000)))

/-- An edge is rejected (R15): it is counted, and the eighth in a row at one offset is taken as a phase step. DESIGN CHOICE (log entry 71): a
rejected edge does not end the run of missing edges of R17. -/
def rejectEdge (offset : Int) (b : Bell) : Bell :=
  let run := (offset :: b.rejRun).take 8
  let b1 := { b with rejected := up16 b.rejected, rejRun := run }
  if agree run then
    { b1 with slew := offset, locked := false, missRun := 0, missed := false, holdover := false, lost := false, rejRun := [] }
  else b1

/-- BELL_IN_EDGE (R15): the expected time of an edge is that of the slew that still runs. -/
def execBellInEdge (offset : Int) (s : State) : Host.Outcome State Fault Refusal :=
  live s (fun s =>
    if s.bell.srcAct ≠ 1 then s
    else setBell s (if 5000 < (offset - s.bell.slew).natAbs then rejectEdge offset else acceptEdge offset))

/-- BELL_EDGE_MISSING (R17): with BELL_IN or PTP; the 64th in a row is a severe event. DESIGN CHOICE (log entry 71): a missing edge does not end
the run of rejected edges of R15. -/
def execBellEdgeMissing (s : State) : Host.Outcome State Fault Refusal :=
  live s (fun s =>
    if s.bell.srcAct = 0 then s
    else
      let n := s.bell.missRun + 1
      let s1 := setBell s (fun b => { b with missing := up16 b.missing, missRun := n, missed := true, holdover := true, lost := decide (64 ≤ n) })
      if n = 64 then raise winSched 0 0 false (fun s => s) s1 else s1)

/-- SCHED_BELL_CFG_WRITE (R18, R19): the reserved SRC reads back INTERNAL. -/
def execSchedBellCfgWrite (value : Word) (s : State) : Host.Outcome State Fault Refusal :=
  blockWrite 0xFFFFFFE0 value s (fun s =>
    setBell s (fun b => { b with cfg := if fld value 2 1 = 3 then value &&& 0x19 else value }))

/-- The source takes effect (R18): the state of the old source is forgotten. -/
def takeSource (b : Bell) : Bell :=
  let src := fld b.cfg 2 1
  if src = b.srcAct then b
  else { b with srcAct := src, locked := decide (src = 0), phase := if src = 0 then 0 else b.phase, slew := 0, missRun := 0, missed := false,
                holdover := false, lost := false, rejRun := [] }

/-- The PTP time at which the k-th Bell since the PTP epoch starts: k nominal periods, rounded down to whole nanoseconds (R16). -/
def ptpStart (base k : Nat) : Nat := k * 10 ^ 9 / base

/-- The Bell start of R16 nearest to PTP time t, less t, in ns. -/
def ptpOffset (base t : Nat) : Int := (ptpStart base ((2 * t * base + 10 ^ 9) / (2 * 10 ^ 9)) : Int) - t

/-- The port that SCHED_BELL_CFG.PTP_PORT names (R16). -/
def ptpPort (s : State) : Nat := if bit s.bell.cfg 3 then 1 else 0

/-- With PTP every Bell start has an edge unless it is missing: the multiple of the nominal period nearest to the PTP time that the port's clock
reads at this Bell start (R16; log entry 15). -/
def ptpEdge (s : State) : State :=
  if s.bell.srcAct ≠ 2 then s
  else if s.bell.missed then setBell s (fun b => { b with missed := false })
  else
    let (t, s1) := readClock (ptpPort s) s
    setBell s1 (acceptEdge (ptpOffset (baseOf s) t))

/-- The generator at a Bell start (R14, R17, R18, R20): in holdover no slew runs. DESIGN CHOICE (log entry 71): the sessions of R18 are those open
when the Bell starts, so the Bell start at which the last session becomes CLOSED takes no new rate; the next one does. -/
def advanceBell (s : State) : State :=
  let s1 := setBell s (fun b => { b with
    num := b.num + 1, window := .dispatch, cut := false, markSeq := 0, slew := if b.holdover then b.slew else slewOn b.slew,
    rateAct := if s.sessions.isEmpty then bit b.cfg 0 else b.rateAct })
  let s2 := ptpEdge (setBell s1 takeSource)
  if bit s2.bell.cfg 4 then emit .bellOut s2 else s2

/-! ### Command entries (R381) -/

/-- The refusals of steps 1 to 3 of R381. -/
def entryCode (e : RawEntry) : Option Code :=
  if e.opcode = 0 ∨ 0x0F < e.opcode then some 0x0401
  else if 1 < e.flags ∨ e.resv ≠ 0 ∨ (has [0x01, 0x0B, 0x0E, 0x0F] e.opcode = true ∧ e.token ≠ 0) then some 0x0403
  else if e.fn ≠ 0 ∧ (e.opcode = 0x0E ∨ e.opcode = 0x0F ∨ (e.opcode = 0x09 ∧ (e.keyKind ≠ 0 ∨ e.keyFn ≠ e.fn))) then some 0x0402
  else none

/-- The largest selector of an opcode and the code of a larger one. DECODE_SUBMIT's OP beyond 3 is refused as an operand of its data (log entry 20). -/
def selectorCode (opcode : Nat) : Option (Nat × Code) :=
  match opcode with
  | 0x02 => some (3, 0x0206)
  | 0x03 => some (1, 0x0206)
  | 0x08 => some (3, 0x0206)
  | 0x09 => some (1, 0x090D)
  | 0x0A => some (2, 0x0702)
  | 0x0C => some (3, 0x0C06)
  | 0x0D => some (1, 0x0410)
  | 0x0E => some (1, 0x0403)
  | _ => none

/-- An entry whose selector its chapter refuses, after that chapter's checks of the token and the session. -/
def refuseSelector (h : Hdr) (opcode : Nat) (code : Code) (s : State) : State :=
  match opcode with
  | 0x0A => refuse h opcode code s
  | 0x0D => refuse h opcode code s
  | 0x0E => refuse h opcode code s
  | 0x0C => if !s.sess.en then refuse h opcode 0x020D s else onDecode h s (fun _ _ s => refuse h opcode code s)
  | _ => if !s.sess.en then refuse h opcode 0x020D s else onPrimary h opcode s (fun _ _ s => refuse h opcode code s)

/-- Is an invalid entry one of the session commands of R74, by its opcode and TOKEN? -/
def sessionEntry (e : RawEntry) : Bool :=
  decide (e.opcode = 1) ||
  (decide (e.token ≠ 0) && (has [2, 3, 4, 5, 6, 7, 8, 9, 0x0C] e.opcode || (has [0x0A, 0x0D] e.opcode && decide (e.sel = 0))))

/-- COMMAND_ENTRY_INVALID (R381): the first failure is the completion's code; an entry that fails nothing is no invalid entry. One that is a session
command keeps its place among those of the Guard window (R74). -/
def execCommandEntryInvalid (e : RawEntry) (s : State) : Host.Outcome State Fault Refusal :=
  let h : Hdr := { fn := e.fn, ring := e.ring, cid := e.cid, token := e.token }
  plainCmd h s (fun s =>
    if sessionEntry e && decide (s.bell.window = .guard) then { s with deferred := s.deferred ++ [.commandEntryInvalid e] }
    else
      match entryCode e with
      | some c => refuse h e.opcode c s
      | none =>
        match selectorCode e.opcode with
        | none => s
        | some (n, c) => if n < e.sel then refuseSelector h e.opcode c s else s)

/-! ### Session commands of the Guard window (R74) -/

/-- A session command takes effect. -/
def runSession (i : Instr) (s : State) : Host.Outcome State Fault Refusal :=
  match i with
  | .openSession h o => execOpenSession h o s
  | .configureStream h o pad => execConfigureStream h o pad s
  | .configureRate h o => execConfigureRate h o s
  | .configureResilience h o => execConfigureResilience h o s
  | .configureHostTransport h o => execConfigureHostTransport h o s
  | .submitFrameAperture h o => execSubmitFrameAperture h o s
  | .submitFrameHost h o => execSubmitFrameHost h o s
  | .park h pad => execPark h pad s
  | .parkCold h pad => execParkCold h pad s
  | .resume h pad => execResume h pad s
  | .close h pad => execClose h pad s
  | .setRateBounds h o => execSetRateBounds h o s
  | .feedbackAck h frame pad => execFeedbackAck h frame pad s
  | .feedbackLoss h frame pad => execFeedbackLoss h frame pad s
  | .feedbackKeyRequest h pad => execFeedbackKeyRequest h pad s
  | .feedbackRateReport h loss est pad => execFeedbackRateReport h loss est pad s
  | .keyLoad h o => execKeyLoad h o s
  | .keyErase h o => execKeyErase h o s
  | .attachReceiver h o => execAttachReceiver h o s
  | .decodeBind h o => execDecodeBind h o s
  | .decodeData h o => execDecodeData h o s
  | .decodeRelease h index pad => execDecodeRelease h index pad s
  | .decodeFlush h pad => execDecodeFlush h pad s
  | .snapshotSession h addr pad => execSnapshotSession h addr pad s
  | .commandEntryInvalid e => execCommandEntryInvalid e s
  | _ => .next s

/-- The commands that waited take effect, in their order. -/
def runDeferred (s : State) : State :=
  s.deferred.foldl (fun s i => match runSession i s with | .next t => t | _ => s) { s with deferred := [] }

/-! ### The edges -/

/-- The counts of the Bell that ends are shown, and those of the new one begin (R119, R120, R313). -/
def rollCounts (cuts : List (Nat × Nat)) (s : State) : State :=
  { s with
    sched := { s.sched with active := s.sched.ran.length, ran := [], cuts := cuts },
    quarters := s.quarters.map (fun e => (e.1, { e.2 with lastLoad := e.2.curLoad, curLoad := 0 })),
    engines := s.engines.map (fun e => (e.1, { e.2 with busy := e.2.busyNow, busyNow := 0 })) }

/-- Bands whose rows landed after the cut of the Bell before are eligible (R24). -/
def takeEligible (s : State) : State :=
  { s with sessions := s.sessions.map (fun e =>
      (e.1, { e.2 with frames := e.2.frames.map (fun f => { f with bands := f.bands.map (fun b =>
        (b.1, if b.2.eligNext then { b.2 with elig := true, eligNext := false } else b.2)) }) })) }

/-- The parity checks of a Bell start (R490). -/
def parityCheck (w : Option Nat) (s : State) : State :=
  match w with
  | some n => if n < 48 then parityFail n s else s
  | none => s

/-- What happens at every Bell start (R11, R20, R22): the power step counts the Bell that ends; the new Bell's number and source; readings and
parity; the Tandem port, the migrations, the Depot's demotion, which comes before the commands that waited (R94), the rebalancing and the rotation;
then parked frames in fallback mode (R75) and the first dispatch of group 1. -/
def bellStart (env : BellEnv) (s : State) : State :=
  let s0 : State := { s with pwr := { s.pwr with aspmL1 := env.aspmL1 } }
  let s1 := takeEligible (rollCounts env.sceneCuts (advanceBell (powerStep s0)))
  let s2 := parityCheck env.parityFail (thermalStep env.temps env.throttleN s1)
  let s3 := depotCheck (takeMoves (tandemBell { s2 with dev := { s2.dev with noDispatch := s2.dev.safe } }))
  let s4 := rotateBell (rebalance (runDeferred s3))
  dispatchShadows (dispatchCadence (dispatchParked s4))

/-- BELL_START: the device starts the next Bell once every task dispatched has committed, which it does at the latest 30 µs after the Guard window
opens (R22, R25; log entry 71). -/
def execBellStart (env : BellEnv) (s : State) : Host.Outcome State Fault Refusal :=
  live s (fun s => if tasksDone s then bellStart env s else s)

/-- FENCE_CUT (R24, R113, R134): the fences of the Bell are known; the frames due are truncated and their remaining bands dispatched, and then the
three groups. The Dispatch window goes on to 40 µs (R12). -/
def execFenceCut (s : State) : Host.Outcome State Fault Refusal :=
  live s (fun s =>
    if s.bell.window ≠ .dispatch ∨ s.bell.cut = true then s
    else dispatchOver (dispatchForks (dispatchShadows (dispatchCadence (truncateDue (setBell s (fun b => { b with cut := true })))))))

/-- GUARD_OPEN (R22, R60, R115): no task starts, DEADLINE goes out, a BIST slice may begin; the paging burst, the heartbeat and the retraining pauses
of this Guard window are due, and the drains accepted before it may enter CLOSING. -/
def execGuardOpen (s : State) : Host.Outcome State Fault Refusal :=
  live s (fun s =>
    if s.bell.window = .guard then s
    else
      let s1 := setBell s (fun b => { b with window := .guard, cut := true })
      let s2 := rotateLoad (bistSlice (deadlines (shadowsLate s1)))
      { s2 with
        sess := { s2.sess with burst := false }, tandem := { s2.tandem with hbSent := false },
        memc := { s2.memc with chans := s2.memc.chans.map (fun e => (e.1, { e.2 with paused := false })) },
        quarters := s2.quarters.map (fun e => (e.1, { e.2 with edge := e.2.pend })) })

/-- With no command waiting time passes: after the fence cut the Dispatch window ends at 40 µs (R12; log entry 5), and nothing else changes. -/
def idle (s : State) : State :=
  if s.dev.stopped || !s.dev.perstN then s
  else if s.bell.cut && decide (s.bell.window = .dispatch) then setBell s (fun b => { b with window := .work })
  else s

/-- HELM_HEARTBEAT_TIMEOUT (R10): the core is held in reset until the next full reset; the units keep their bounds. -/
def execHelmHeartbeatTimeout (core : Nat) (s : State) : Host.Outcome State Fault Refusal :=
  live s (fun s => if 4 ≤ core then s else raise winHelm 0 0 false (reaction winHelm 0 core) s)

end Sys2Proof.Machine
end

