-- ==== Sys2Proof/Machine/Security.lean ====
section
/-! DEFINITION. Fuses, flash writes, the I3C sideband and SPDM (R534 to R538, R545 to R548, R553, R555, R557). -/

namespace Sys2Proof.Machine

open Sys2Proof

/-- The security block changed. -/
def setSec (s : State) (g : Sec → Sec) : State := { s with sec := g s.sec }

/-- A refused write of the security block. -/
def secRefuse (code : Code) (s : State) : State := setSec s (fun x => { x with reason := code })

/-! ### Fuses (R534, R536, R537) -/

/-- The value of an SVN counter (R534). -/
def svnOf (s : State) (c : Nat) : Nat := lookD s.sec.svn c 0

/-- The counter of a microcode role (R534). -/
def roleCounter (role : Nat) : Nat := if role = 15 then 8 else 3 + role

/-- The role of a microcode counter. -/
def counterRole (c : Nat) : Nat := if c = 8 then 15 else c - 3

/-- The MICROCODE entries that a District in force uses (R536). -/
def mcInForce (s : State) : List McEntry :=
  s.plan.mc.filter (fun e => s.plan.districts.any (fun d => !allOff d.2 && decide (d.2.mcSet = e.set)))

/-- Is VALUE above what runs under a counter (R536)? -/
def aboveRunning (s : State) (c v : Nat) : Bool :=
  match c with
  | 0 => decide (s.sec.bootSvn < v)
  | 1 => decide (s.sec.helmSvn < v)
  | 2 => decide (s.plan.activeSvn < v)
  | _ => (mcInForce s).any (fun e => decide (e.role = counterRole c) && decide (e.svn < v))

/-- SEC_FUSE_SVN (R536, R537): the accepted guarded write. A counter that does not exist is refused like the others (log entry 16). -/
def fuseSvn (value : Word) (s : State) : State :=
  let c := fld value 19 16
  let v := fld value 6 0
  if s.sec.burning.isSome ∨ 8 < c ∨ v ≤ svnOf s c ∨ 64 < v ∨ aboveRunning s c v = true then secRefuse 0x0910 s
  else setSec s (fun x => { x with burning := some (.svn c v), fuseSvnReg := value })

/-- SEC_FUSE_SVN (R536). -/
def execSecFuseSvn (value : Word) (s : State) : Host.Outcome State Fault Refusal := devWrite 0xFFF0FF80 value s (fuseSvn value)

/-- PROG of an owner slot (R534, R557). -/
def ownerProg (s : State) (k : Nat) : Bool := s.sec.ownerBits.getLsbD (2 * k)

/-- REVOKED of an owner slot. -/
def ownerRevoked (s : State) (k : Nat) : Bool := s.sec.ownerBits.getLsbD (2 * k + 1)

/-- The value that a SEC_FUSE_OWNER write leaves in the register. -/
def ownerWord (op slot : Nat) : Word := fldW 30 2 op ||| fldW 0 2 slot

/-- The hash that SEC_OWNER_HASH_0–11 hold (R557). -/
def heldHash (s : State) : BitVec 384 := BitVec.ofNat 384 (((List.range 12).map (fun k => (lookD s.sec.hashRegs k 0).toNat * 2 ^ (32 * k))).sum)

/-- OP 1 of SEC_FUSE_OWNER (R537). -/
def ownerProgram (slot : Nat) (s : State) : State :=
  if s.sec.burning.isSome ∨ 3 < slot ∨ ownerProg s slot = true then secRefuse 0x0910 s
  else setSec s (fun x => { x with burning := some (.program slot (heldHash s)), ownerReg := ownerWord 1 slot })

/-- OP 2 of SEC_FUSE_OWNER (R537): the key is dropped at once. -/
def ownerRevoke (slot : Nat) (s : State) : State :=
  if s.sec.burning.isSome ∨ 3 < slot then secRefuse 0x0910 s
  else setSec s (fun x => { x with burning := some (.revoke slot), ownerReg := ownerWord 2 slot, accepted := remS x.accepted slot, ownerKeys := x.ownerKeys.filter (fun e => decide (e.1 ≠ slot)) })

/-- FUSE_OWNER_PROGRAM (R537). -/
def execFuseOwnerProgram (slot : Nat) (s : State) : Host.Outcome State Fault Refusal := devWrite 0 0 s (ownerProgram slot)

/-- FUSE_OWNER_REVOKE (R537). -/
def execFuseOwnerRevoke (slot : Nat) (s : State) : Host.Outcome State Fault Refusal := devWrite 0 0 s (ownerRevoke slot)

/-- A burn has its effect on the fuses. -/
def burnt (b : Burn) (x : Sec) : Sec :=
  match b with
  | .svn c v => { x with svn := put x.svn c v }
  | .program k hash => { x with ownerBits := x.ownerBits ||| (1#8 <<< (2 * k)), ownerHash := put x.ownerHash k hash }
  | .revoke k => { x with ownerBits := x.ownerBits ||| (1#8 <<< (2 * k + 1)) }

/-- FUSE_BURN_DONE (R537): FUSE_BUSY clears and the fuses hold the new value. -/
def execFuseBurnDone (s : State) : Host.Outcome State Fault Refusal :=
  live s (fun s => match s.sec.burning with | none => s | some b => setSec s (fun x => { burnt b x with burning := none }))

/-! ### Flash (R538, R555) -/

/-- What an unlisted byte of flash reads as: erased flash (R538; log entry 6). -/
def flashDefault : Byte := 0xFF

/-- The size of the flash. -/
def flashSize : Nat := 67108864

/-- Do two ranges of flash meet? -/
def meets (a n b m : Nat) : Bool := decide (a < b + m) && decide (b < a + n)

/-- The boot halted by BOOT_MODE (R540). -/
def bootHalt (s : State) : Bool := decide (2 ≤ s.dev.straps % 4)

/-- May software rewrite a range (R544, R555)? -/
def flashLocked (s : State) (a n : Nat) : Bool :=
  if s.sec.stage = 7 then meets a n 0x10000 0x10000 && !bootHalt s
  else
    meets a n 0x10000 0x10000 || meets a n 0x1C20000 0x100000 ||
    (decide (1 ≤ s.sec.stage) && meets a n (0x20000 + 0x200000 * s.sec.bootSlot) 0x200000) ||
    (decide (2 ≤ s.sec.stage) && meets a n (0x420000 + 0x200000 * s.sec.helmSlot) 0x200000)

/-- The checks of an operation (R555); an offset or length outside SEC_FLASH_ADDR and SEC_FLASH_LEN's values is refused in the same way (log
entry 16). -/
def flashOk (s : State) (a n : Nat) (aligned : Bool) : Bool :=
  s.sec.flashOp.isNone && aligned && decide (1 ≤ n) && decide (n ≤ 65536) && decide (a + n ≤ flashSize) && !flashLocked s a n

/-- OP 1 of SEC_FLASH_CTRL (R555). -/
def startErase (s : State) : State :=
  let a := s.sec.flashAddr.toNat
  if flashOk s a 65536 (decide (a % 65536 = 0)) then setSec s (fun x => { x with flashOp := some (.erase (a / 65536)), flashErr := false })
  else secRefuse 0x0911 s

/-- OP 2 of SEC_FLASH_CTRL (R555): the bytes are those read from host memory; a read that fails fails the operation. -/
def startProgram (data : Option (List Byte)) (s : State) : State :=
  let a := s.sec.flashAddr.toNat
  let n := s.sec.flashLen.toNat
  if !flashOk s a n true then secRefuse 0x0911 s
  else
    match data with
    | none => setSec s (fun x => { x with flashErr := true, reason := 0x0912 })
    | some bs => if bs.length = n then setSec s (fun x => { x with flashOp := some (.program a bs), flashErr := false }) else s

/-- FLASH_ERASE (R555). -/
def execFlashErase (s : State) : Host.Outcome State Fault Refusal := devWrite 0 0 s startErase

/-- FLASH_PROGRAM (R555). -/
def execFlashProgram (data : Option (List Byte)) (s : State) : Host.Outcome State Fault Refusal := devWrite 0 0 s (startProgram data)

/-- Bytes of flash whose contents are undefined: free values of one origin (R578; log entry 4). -/
def spoil (a n : Nat) (s : State) : State :=
  let k := s.freeCtr
  setSec { s with freeCtr := k + 1 } (fun x => { x with flash := wrCells flashDefault x.flash a ((List.range n).map (fun i => Config.freeByte k (a + i))) })

/-- The range of an operation: its whole sectors. -/
def opRange (o : FlashOp) : Nat × Nat :=
  match o with
  | .erase k => (k * 65536, 65536)
  | .program a bs => (a / 65536 * 65536, (a % 65536 + bs.length + 65535) / 65536 * 65536)

/-- FLASH_OP_DONE (R555): verified, the flash holds what the operation wrote; else ERR and 0x0912, and the sectors are free values. -/
def execFlashOpDone (ok : Bool) (s : State) : Host.Outcome State Fault Refusal :=
  live s (fun s =>
    match s.sec.flashOp with
    | none => s
    | some o =>
      let s1 := setSec s (fun x => { x with flashOp := none })
      if ok then
        match o with
        | .erase k => setSec s1 (fun x => { x with flash := wrCells flashDefault x.flash (k * 65536) (List.replicate 65536 flashDefault) })
        | .program a bs => setSec s1 (fun x => { x with flash := wrCells flashDefault x.flash a bs })
      else spoil (opRange o).1 (opRange o).2 (setSec s1 (fun x => { x with flashErr := true, reason := 0x0912 })))

/-! ### SPDM (R547): each transport holds its own connection state: 0 none, 1 version, 2 capabilities, 3 algorithms agreed -/

/-- The connection state of a transport. -/
def spdmState (s : State) (via : Spdm) : Nat := match via with | .doe => s.sec.spdmDoe | .i3c => s.sec.spdmI3c

/-- A transport's connection state changed. -/
def setSpdm (via : Spdm) (n : Nat) (s : State) : State :=
  match via with | .doe => setSec s (fun x => { x with spdmDoe := n }) | .i3c => setSec s (fun x => { x with spdmI3c := n })

/-- A request that needs the connection state need: answered, or answered with an error (log entry 17). -/
def spdmAnswer (via : Spdm) (request need : Nat) (body : State → SpdmBody) (s : State) (f : State → State) : Host.Outcome State Fault Refusal :=
  live s (fun s => if need ≤ spdmState s via then f (emit (.spdm via request (body s)) s) else emit (.spdm via request .error) s)

/-- GET_VERSION (R547): the connection starts again. -/
def execGetVersion (via : Spdm) (s : State) : Host.Outcome State Fault Refusal := spdmAnswer via 0x84 0 (fun _ => .version 1 2) s (setSpdm via 1)

/-- GET_CAPABILITIES (R547): CERT_CAP, CHAL_CAP and MEAS_CAP with signatures, CTExponent 14. -/
def execGetCapabilities (via : Spdm) (s : State) : Host.Outcome State Fault Refusal :=
  spdmAnswer via 0xE1 1 (fun _ => .capabilities true true true 14) s (fun s => setSpdm via (max 2 (spdmState s via)) s)

/-- NEGOTIATE_ALGORITHMS (R547): only ECDSA P-384 with SHA-384 is offered. -/
def execNegotiateAlgorithms (via : Spdm) (s : State) : Host.Outcome State Fault Refusal :=
  spdmAnswer via 0xE3 2 (fun _ => .ecdsaP384Sha384) s (setSpdm via 3)

/-- The three certificates of slot 0 (R548). -/
def certificates (s : State) : List (List Byte) :=
  [Config.rootCertificate, Config.identityCertificate (rdCells flashDefault s.sec.flash 0x10000 0x10000),
   Config.agreementCertificate (Config.publicKey agreementKey) identityKey]

/-- The digest of slot 0's chain. -/
def chainDigest (s : State) : BitVec 384 := Config.sha384 (certificates s).flatten

/-- GET_DIGESTS (R547). -/
def execGetDigests (via : Spdm) (s : State) : Host.Outcome State Fault Refusal := spdmAnswer via 0x81 3 (fun s => .digest 0 (chainDigest s)) s (fun s => s)

/-- GET_CERTIFICATE (R547, R548). -/
def execGetCertificate (via : Spdm) (s : State) : Host.Outcome State Fault Refusal :=
  spdmAnswer via 0x82 3 (fun s => .certificates 0 (certificates s)) s (fun s => s)

/-- A signature of the identity key over the messages exchanged (R547, R548). -/
def spdmSign (s : State) : Nat × Nat := Config.ecdsaSign identityKey (Config.transcript s.freeCtr)

/-- A free value has been drawn. -/
def drawn (s : State) : State := { s with freeCtr := s.freeCtr + 1 }

/-- CHALLENGE (R547). -/
def execChallenge (via : Spdm) (s : State) : Host.Outcome State Fault Refusal :=
  spdmAnswer via 0x83 3 (fun s => .challenge 0 (chainDigest s) (spdmSign s)) s drawn

/-- The measurement blocks 1 to 6 (R545, R547): indices 0 to 5, block 6 marked mutable. -/
def measBlocks (s : State) : List (Nat × Bool × BitVec 384) := (List.range 6).map (fun i => (i + 1, decide (i = 5), lookD s.sec.meas i 0))

/-- GET_MEASUREMENTS (R547). -/
def execGetMeasurements (via : Spdm) (s : State) : Host.Outcome State Fault Refusal :=
  spdmAnswer via 0xE0 3 (fun s => .measurements (measBlocks s) (spdmSign s)) s drawn

/-! ### Full reset (R554, R578) -/

/-- What a flash operation or a burn that a reset cuts off leaves: the sectors are undefined; whether the fuses took the value is free (R578; log
entry 4). -/
def cutShort (s : State) : State :=
  let s1 := match s.sec.flashOp with | none => s | some o => spoil (opRange o).1 (opRange o).2 s
  match s1.sec.burning with
  | none => s1
  | some b =>
    let (w, s2) := takeFree s1
    if bit w 0 then setSec s2 (burnt b) else s2

/-- A full device reset (R554): every block but the fuses; flash keeps its contents; what has left the device, the free values drawn and the
commands that wait are the model's own. The straps stay as sampled. -/
def fullReset (cause : Nat) (s0 : State) : State :=
  let s := cutShort s0
  { State.reset with
    pending := s.pending, out := s.out, freeCtr := s.freeCtr,
    dev := { Dev.reset with straps := s.dev.straps, perstN := s.dev.perstN, stopped := s.dev.stopped },
    sec := { Sec.reset with svn := s.sec.svn, ownerBits := s.sec.ownerBits, ownerHash := s.sec.ownerHash, flash := s.sec.flash, cause := cause } }

/-- A paired device first sends the RESET notice on both paths (R449, R554). -/
def noticeReset (s : State) : State :=
  if s.tandem.state = 3 then emit (.altLink .resetNotice) (emit (.link .resetNotice) { s with tandem := { s.tandem with stopped := true } }) else s

/-- PERST_FALL (R554, R578). -/
def execPerstFall (s : State) : Host.Outcome State Fault Refusal :=
  always s (fun s =>
    if !s.dev.perstN then s
    else if s.dev.stopped then { s with dev := { s.dev with perstN := false } }
    else
      let t := fullReset 0 (noticeReset s)
      { t with dev := { t.dev with perstN := false } })

/-- PERST_RISE (R540): the straps are sampled and stage ROM begins. -/
def execPerstRise (straps : Nat) (s : State) : Host.Outcome State Fault Refusal :=
  always s (fun s => if s.dev.perstN then s else { s with dev := { s.dev with perstN := true, straps := straps } })

/-- DEV_RESET (R554, R569): the accepted guarded write of GO. -/
def execDevReset (s : State) : Host.Outcome State Fault Refusal := devWrite 0 0 s (fun s => fullReset 1 (noticeReset s))

/-- POWER_CYCLE (R531, R540): the power-on reset; the thermal trip ends and the straps are sampled as PERST_N rises. -/
def execPowerCycle (straps : Nat) (s : State) : Host.Outcome State Fault Refusal :=
  always s (fun s =>
    let t := fullReset 0 s
    { t with dev := { t.dev with stopped := false, perstN := true, straps := straps } })

/-! ### The I3C sideband (R553) -/

/-- I3C_TELEMETRY (R553). -/
def execI3cTelemetry (s : State) : Host.Outcome State Fault Refusal :=
  live s (fun s => emit (.i3cTelemetry s.pwr.tj (pwrStatus s) (devState s) ((watchMap s).truncate 32) ((watchMap s >>> 32).truncate 32)) s)

/-- I3C_RESET_ARM (R553): the nonce is a free value. -/
def execI3cResetArm (s : State) : Host.Outcome State Fault Refusal :=
  live s (fun s =>
    let n := Config.nonce s.freeCtr
    emit (.i3cNonce n) (setSec { s with freeCtr := s.freeCtr + 1 } (fun x => { x with nonce := some (n, s.bell.num) })))

/-- Bells per second (R11). -/
def bellRate (s : State) : Nat := if s.bell.rateAct then 600 else 720

/-- I3C_RESET_GO (R553): within 1 s of the arm, counted in Bells (log entry 18). -/
def execI3cResetGo (nonce : DWord) (s : State) : Host.Outcome State Fault Refusal :=
  live s (fun s =>
    match s.sec.nonce with
    | none => emit .i3cRefused s
    | some (n, b) => if n = nonce ∧ bellsFrom b s.bell.num < bellRate s then fullReset 2 (noticeReset s) else emit .i3cRefused s)

end Sys2Proof.Machine
end

