-- ==== Sys2Proof/Machine/Firmware.lean ====
section
/-! DEFINITION. What boot reads from flash (R538): the key manifest (R535), the directory and the firmware slots (R539, R540), the microcode
packages and the library (R304 to R306), and the default plan (R542). -/

namespace Sys2Proof.Machine

open Sys2Proof

/-- Bytes of flash from an offset up (R538). -/
def flashBytes (s : State) (a n : Nat) : List Byte := rdCells flashDefault s.sec.flash a n

/-! ### Keys and the directory -/

/-- The vendor public key of the manifest (R535). DESIGN CHOICE (log entry 27): the keys lie one after another from the manifest's start. -/
def manifestVendor (s : State) : List Byte := flashBytes s 0x10000 96

/-- Owner public key k of the manifest (R535). -/
def manifestOwner (s : State) (k : Nat) : List Byte := flashBytes s (0x10060 + 96 * k) 96

/-- The boot ROM accepts the vendor key (R535). -/
def vendorOk (s : State) : Bool := decide (Config.sha384 (manifestVendor s) = Config.vendorKeyHash)

/-- The boot ROM accepts owner key k (R535). -/
def ownerOk (s : State) (k : Nat) : Bool :=
  ownerProg s k && !ownerRevoked s k && decide (Config.sha384 (manifestOwner s k) = lookD s.sec.ownerHash k 0)

/-- The keys of the manifest are taken (R535): the vendor key and the accepted owner keys. -/
def takeKeys (s : State) : State :=
  setSec s (fun x => { x with
    vendorKey := manifestVendor s, accepted := (List.range 4).filter (ownerOk s),
    ownerKeys := ((List.range 4).filter (ownerOk s)).map (fun k => (k, manifestOwner s k)) })

/-- BOOT_ACTIVE and HELM_ACTIVE of the directory, where it is valid (R540). -/
def directory (s : State) : Option (Nat × Nat) :=
  let b := fun o => (rdCell flashDefault s.sec.flash o).toNat
  if flashBytes s 0 4 = [0x46, 0x44, 0x49, 0x52] ∧ b 4 ≤ 1 ∧ b 5 ≤ 1 then some (b 4, b 5) else none

/-! ### Firmware slots -/

/-- A firmware image that passed its checks: its digest and SVN. -/
structure Firmware where
  svn    : Nat
  digest : BitVec 384
  deriving DecidableEq, Repr

/-- The 64-byte header of a firmware image is well-formed (R539). -/
def headerOk (magic h : List Byte) : Bool :=
  decide (slice h 0 4 = magic) && decide (le h 4 2 = 0x0100) && decide (le h 6 2 = 0) && decide (le h 12 4 = 0x1D5BE951) &&
  decide (le h 16 4 % 8 = 0) && decide (64 ≤ le h 16 4) && decide (le h 16 4 ≤ 2097024) && decide (le h 20 44 = 0)

/-- The image at an offset of flash passes its header, signature and rollback checks (R536, R539, R540). DEDUCED (log entry 82): LEN counts the
header and the code, for a slot holds LEN at its greatest and the signature block exactly. -/
def firmwareAt (s : State) (counter base : Nat) (magic : List Byte) : Option Firmware :=
  let h := flashBytes s base 64
  let image := flashBytes s base (le h 16 4 + 128)
  if headerOk magic h && signed s.sec.vendorKey image && decide (svnOf s counter ≤ le h 8 4) then
    some { svn := le h 8 4, digest := Config.sha384 (signedPart image) }
  else none

/-- Slot k of the boot firmware (R538). -/
def bootImage (s : State) (k : Nat) : Option Firmware := firmwareAt s 0 (0x20000 + 0x200000 * k) [0x42, 0x54, 0x46, 0x57]

/-- Slot k of the Helm firmware (R538). -/
def helmImage (s : State) (k : Nat) : Option Firmware := firmwareAt s 1 (0x420000 + 0x200000 * k) [0x48, 0x4C, 0x46, 0x57]

/-- The slot tried first: the directory's choice, reversed under BOOT_MODE 0b01 (R540). -/
def slotFirst (s : State) (active : Nat) : Nat := if s.dev.straps % 4 = 1 then 1 - active else active

/-- The slot that is taken, with its image: a slot that fails its checks falls back to the other (R540). -/
def pickSlot (image : Nat → Option Firmware) (first : Nat) : Option (Nat × Firmware) :=
  match image first with
  | some f => some (first, f)
  | none => (image (1 - first)).map (fun f => (1 - first, f))

/-! ### Microcode packages and the library -/

/-- Bytes of a word of a ROLE's store (R304, R306). -/
def wordBytes (role : Nat) : Nat := if role = 15 then 36 else 5

/-- Words of a ROLE's store (R304, R306). -/
def storeWords (role : Nat) : Nat := if role = 15 then 2048 else 8192

/-- ROLE of a package (R304). -/
def pkgRole (p : List Byte) : Nat := le p 6 1

/-- MAGIC, FORMAT, DEVICE_ID, ROLE and the lengths of a package (R304, R305). -/
def pkgFormat (p : List Byte) : Bool :=
  let words := le p 0x0A 2
  decide (slice p 0 4 = [0x4D, 0x43, 0x50, 0x4B]) && decide (le p 4 2 = 0x0100) && decide (le p 0x10 4 = 0x1D5BE951) && has mcRoles (pkgRole p) &&
  decide (1 ≤ words) && decide (words ≤ storeWords (pkgRole p)) && decide (le p 0x14 4 = words * wordBytes (pkgRole p))

/-- The microcode key of a package: the KDF of R548 from PRODUCT_SECRET with label "FLD MC", ROLE and IMAGE_ID. -/
def microcodeKey (role id : Nat) : BitVec 256 :=
  (Config.kdf Config.productSecret ([0x46, 0x4C, 0x44, 0x20, 0x4D, 0x43] ++ leBytes role 1 ++ leBytes id 2)).truncate 256

/-- The plaintext of a package: AES-256-GCM with bytes 0x00 to 0x2F as additional data (R304). -/
def pkgOpen (p : List Byte) : Option (List Byte) :=
  Config.gcmOpen (microcodeKey (pkgRole p) (le p 8 2)) (slice p 0x18 12) (slice p 0 0x30) (slice p 0x40 (le p 0x14 4)) (slice p 0x30 16)

/-- The words of a store from the bytes of its first words (R306). -/
def storeOf (role : Nat) (b : List Byte) : List Nat :=
  (List.range (b.length / wordBytes role)).map (fun w => le b (wordBytes role * w) (wordBytes role))

/-- The full store image: each word least significant byte first, the words beyond filled with all ones (R306). -/
def storeImage (role : Nat) (words : List Nat) : List Byte :=
  words.flatMap (fun w => leBytes w (wordBytes role)) ++ List.replicate (wordBytes role * (storeWords role - words.length)) (0xFF : Byte)

/-- The library image of a package, from its plaintext (R305, R306). -/
def imageOf (p text : List Byte) : McImage :=
  let words := storeOf (pkgRole p) text
  { role := pkgRole p, imageId := le p 8 2, svn := le p 0x0C 4, digest := Config.sha384 (storeImage (pkgRole p) words), words := words }

/-- The checks of R305 in their order: the code of the first that a package fails, else its image. -/
def checkPackage (s : State) (p : List Byte) : Except Code McImage :=
  if !signed s.sec.vendorKey p then .error 0x0903
  else if !pkgFormat p then .error 0x0902
  else if le p 0x0C 4 < svnOf s (roleCounter (pkgRole p)) then .error 0x0904
  else
    match pkgOpen p with
    | none => .error 0x0905
    | some text =>
      let m := imageOf p text
      if s.mclib.images.any (fun e => decide (e.role = m.role ∧ e.imageId = m.imageId ∧ e.svn = m.svn)) then .error 0x0906
      else if 96 ≤ s.mclib.images.length then .error 0x0907
      else .ok m

/-- A package enters the library, or is skipped and counted (R305, R315, R545). -/
def takePackage (p : List Byte) (s : State) : State :=
  match checkPackage s p with
  | .error c => { s with mclib := { s.mclib with rejects := s.mclib.rejects + 1, lastRej := c } }
  | .ok m => extendMeas 2 m.digest { s with mclib := { s.mclib with images := s.mclib.images ++ [m] } }

/-- The length of the package at an offset: header, ciphertext, zero bytes to a multiple of 8, signature block (R304). -/
def pkgLen (s : State) (a : Nat) : Nat := upTo (64 + le (flashBytes s a 64) 0x14 4) 8 + 128

/-- The packages from an offset of the region up, in flash order; the first word that does not open with "MCPK" ends the list (R538). n bounds them. -/
def takePackages (n a : Nat) (s : State) : State :=
  match n with
  | 0 => s
  | n + 1 =>
    if 0x1820000 ≤ a ∨ flashBytes s a 4 ≠ [0x4D, 0x43, 0x50, 0x4B] then s
    else takePackages n (a + pkgLen s a) (takePackage (flashBytes s a (pkgLen s a)) s)

/-- The library is built (R305): a package takes at least 192 bytes of the 16 MiB. -/
def buildLibrary (s : State) : State := takePackages 87382 0x820000 s

/-! ### The default plan -/

/-- The default plan (R538, R542): TOTAL_LEN bytes, at most the region's 4 MiB. -/
def defaultPlan (s : State) : List Byte := flashBytes s 0x1820000 (min (le (flashBytes s 0x1820000 32) 8 4) 4194304)

/-- Is there a default plan? DESIGN CHOICE (log entry 27): it is missing where its header is erased. -/
def planFound (s : State) : Bool := (flashBytes s 0x1820000 32).any (fun b => decide (b ≠ 0xFF))

end Sys2Proof.Machine
end

