-- ==== Sys2Proof/Machine/Boot.lean ====
section
/-! DEFINITION. The boot stages and the first plan (R305, R316 to R318, R327, R335, R336, R535, R539 to R545, R598). -/

namespace Sys2Proof.Machine

open Sys2Proof

/-- A boot stage fails (R541, R544). -/
def failBoot (code : Code) (s : State) : State := setSec s (fun x => { x with stage := 7, bootReason := code })

/-- The 64-byte record of R546. -/
def fuseRecord (s : State) : List Byte :=
  (List.range 9).map (fun c => BitVec.ofNat 8 (svnOf s c)) ++ [s.sec.ownerBits, if Config.jtagOff then 1 else 0] ++ List.replicate 53 (0 : Byte)

/-- Boot firmware of a slot starts (R541, R545): stage LOAD. -/
def startBoot (k : Nat) (f : Firmware) (s : State) : State :=
  extendMeas 0 f.digest (setSec s (fun x => { x with stage := 1, bootSlot := k, bootSvn := f.svn }))

/-- The work of stage ROM after the fuses are measured (R535, R540, R541). -/
def romWork (s : State) : State :=
  let s1 := takeKeys s
  let dir := directory s1
  let s2 := setSec s1 (fun x => { x with dirInvalid := dir.isNone, helmFirst := (dir.getD (0, 0)).2 })
  match pickSlot (bootImage s2) (slotFirst s2 (dir.getD (0, 0)).1) with
  | none => failBoot 0x0908 s2
  | some (k, f) => startBoot k f s2

/-- The flash as one reading of it finds it: l lists the bytes that it reads otherwise than they are stored (log entry 86; R542 provides for two
readings that differ). -/
def misread (l : List (Nat × Byte)) (s : State) : State :=
  setSec s (fun x => { x with flash := l.foldl (fun m e => wrCell flashDefault m e.1 e.2) x.flash })

/-- A boot stage works on what it reads of the flash; the flash itself stays. -/
def readFlash (l : List (Nat × Byte)) (g : State → State) (s : State) : State :=
  if l = [] then g s else setSec (g (misread l s)) (fun x => { x with flash := s.sec.flash })

/-- Stage ROM (R535, R540, R541, R545): the fuses are measured, the keys and the directory are taken, and a boot firmware slot starts. A halt by
BOOT_MODE records no code (log entry 19). -/
def romStage (s : State) : State :=
  if s.sec.stage ≠ 0 then s
  else
    let s1 := setSec s (fun x => { x with meas := put x.meas 4 (Config.extendRecord (lookD x.meas 4 0) (fuseRecord s)) })
    if bootHalt s1 then failBoot 0 s1 else if vendorOk s1 then romWork s1 else failBoot 0x0901 s1

/-- BOOT_ROM_DONE (R535, R540, R541, R545). -/
def execBootRomDone (misread : List (Nat × Byte)) (s : State) : Host.Outcome State Fault Refusal := live s (readFlash misread romStage)

/-- The checks of the default plan that need no DRAM (R51, R542): all but 0x0114. -/
def loadPlanCode (s : State) (b : List Byte) : Option Code :=
  ((planChecks s b true (parseImage b)).find? (fun c => c.2 && decide (c.1 ≠ 0x0114))).map (fun c => c.1)

/-- The first plan fails (R53, R541): its code is in PLAN_REASON too. -/
def failPlan (code : Code) (s : State) : State := failBoot code { s with plan := { s.plan with reason := code } }

/-- Helm firmware of a slot starts (R541, R545). -/
def startHelm (k : Nat) (f : Firmware) (s : State) : State :=
  extendMeas 1 f.digest (setSec s (fun x => { x with helmSlot := k, helmSvn := f.svn }))

/-- Training starts (R541, R542): the plan's digest is kept and its ORDER written to MEMC_MAP. -/
def startTraining (b : List Byte) (s : State) : State :=
  let img := parseImage b
  let s1 := setMap (BitVec.ofNat 32 img.cfg.order) { s with plan := { s.plan with digest1 := img.digest } }
  setSec { s1 with memc := { s1.memc with trainState := 1, chans := (List.range 12).map (fun c => (c, { chanOf s1 c with state := 1 })) } }
    (fun x => { x with stage := 2 })

/-- The default plan is read and verified (R542). -/
def loadPlan (s : State) : State :=
  if !planFound s then failBoot 0x090A s
  else
    match loadPlanCode s (defaultPlan s) with
    | some c => failPlan c s
    | none => startTraining (defaultPlan s) s

/-- Stage LOAD (R305, R540 to R542): the library, the Helm firmware, the default plan; MEMC_MAP is written and training starts. -/
def loadStage (s : State) : State :=
  if s.sec.stage ≠ 1 then s
  else
    let s1 := buildLibrary s
    match pickSlot (helmImage s1) (slotFirst s1 s1.sec.helmFirst) with
    | none => failBoot 0x0909 s1
    | some (k, f) => loadPlan (startHelm k f s1)

/-- BOOT_LOAD_DONE (R305, R540 to R542). -/
def execBootLoadDone (misread : List (Nat × Byte)) (s : State) : Host.Outcome State Fault Refusal := live s (readFlash misread loadStage)

/-- The data rate's code (R317, R343). -/
def speedCode (mts dpc : Nat) : Nat :=
  let m := min mts (if dpc = 1 then 6400 else 5600)
  if 6400 ≤ m then 4 else if 6000 ≤ m then 3 else if 5600 ≤ m then 2 else if 5200 ≤ m then 1 else 0

/-- A training or population failure (R343). -/
def failTrain (code : Code) (s : State) : State :=
  failBoot code { s with memc := { s.memc with reason := code, trainState := 3 } }

/-- The handles whose Depot records lie on retired pages are withheld (R71, R328). -/
def withholdRecords (s : State) : State :=
  (s.memc.table.filter (fun r => decide (reservedBase s ≤ r.page * 4096) && decide (r.page * 4096 - reservedBase s < 200000 * 4096))).foldl
    (fun s r => { s with sess := { s.sess with free := cutRun s.sess.free ((r.page * 4096 - reservedBase s) / 4096) } }) s

/-- The population is known: a spare rank that R329 forbids is not held, and 0x0E07 says so (log entry 22). -/
def checkSpare (s : State) : State :=
  if bit s.memc.retireCfg 8 && (decide (s.memc.dpc * s.memc.ranks ≤ 1) || decide (capacity s < 384 * 10 ^ 9)) then
    { s with memc := { s.memc with retireCfg := merge s.memc.retireCfg 0x100 0, reason := 0x0E07 } }
  else s

/-- BOOT_TRAIN_DONE (R316 to R318, R321, R327, R335): the population, the training of every channel and the retired-page table; the controller is
enabled. -/
def execBootTrainDone (i : TrainIn) (s : State) : Host.Outcome State Fault Refusal :=
  live s (fun s =>
    if s.sec.stage ≠ 2 then s
    else if !i.uniform || !has [1, 2] i.dpc || !has [1, 2, 4] i.ranks then failTrain 0x0E01 s
    else if i.ratedMts < 4800 then failTrain 0x0E02 s
    else
      let s1 := checkSpare { s with memc := { s.memc with dens32 := i.dens32, dpc := i.dpc, ranks := i.ranks, speed := speedCode i.ratedMts i.dpc } }
      if capacity s1 < 384 * 10 ^ 9 ∨ 6144 * 10 ^ 9 < capacity s1 then failTrain 0x0E03 s1
      else
        let res := fun c => i.results.getD c 2
        let full := (List.range 12).any (fun c => res c ≠ 1)
        let fails := (List.range 12).filter (fun c => !has [0, 1, 3] (res c))
        let src := if (List.range 12).all (fun c => res c = 1) then 2 else if (List.range 12).all (fun c => res c ≠ 1) then 1 else 3
        let s2 := when full (emit .flashSaved) { s1 with memc := { s1.memc with
          trainSrc := src, failMask := (fails.map (fun c => 2 ^ c)).sum, reason := if (List.range 12).any (fun c => res c = 3) then 0x0E05 else s1.memc.reason } }
        if !fails.isEmpty then
          failTrain 0x0E04 { s2 with memc := { s2.memc with chans := s2.memc.chans.map (fun e => (e.1, if has fails e.1 then { e.2 with state := 6 } else e.2)) } }
        else
          let s3 := { s2 with memc := { s2.memc with
            trainState := 2, chans := s2.memc.chans.map (fun e => (e.1, { e.2 with state := 2 })),
            table := (i.retired.take 1024).map (fun r => { page := r.1, ch := r.2.1, rank := r.2.2.1, cause := r.2.2.2 }) } }
          setSec (withholdRecords (memcCtrl true s3)) (fun x => { x with stage := 3 }))

/-- The routing of an IRQROUTE entry (R50, R464). -/
def takeRoute (r : RouteEntry) (s : State) : State :=
  (List.range (r.last + 1 - r.first)).foldl (fun s k =>
    setRoute (r.first + k) { en := decide (r.en = 1), prio := r.prio, target := r.target } s) s

/-- The buffers of retired pages are on no free list (R328). -/
def dropRetired (s : State) : State :=
  (s.memc.table.filter (fun r => decide (r.page * 4096 < reservedBase s))).foldl (fun s r => withdraw r.page s) s

/-- The first plan comes into force (R44 to R50, R53, R543, R545, R598): its sections, the pool, the routing, and LOADING of every Quarter whose District
is not all OFF. -/
def firstPlan (i : PlanImage) (s : State) : State :=
  let p : Plan := { s.plan with
    first := true, cfg := i.cfg, districts := i.districts, mc := i.mc, priors := i.priors, bist := i.bist, activeId := i.planId, activeSvn := i.svn,
    digest := i.digest }
  let s1 := { s with plan := p }
  let s2 := dropRetired (layPool ((List.range 5).map (fun k => (k, i.cfg.counts.getD k 0)))
    { s1 with pool := { s1.pool with quota := (List.range 25).map (fun k => (k, i.cfg.quotas.getD k 0)), fnQuota := [] } })
  let s3 := i.routes.foldl (fun s r => takeRoute r s) s2
  let s4 := (List.range 16).foldl (fun s q =>
    let d := districtOf s q
    let s5 := setQtr s q (fun t => { t with planId := i.planId, mcSet := d.mcSet, weight := d.weight })
    if allOff d then s5 else enterLoading q false s5) s3
  extendMeas 3 i.digest s4

/-- The key store is loaded and the device's public keys can be read (R548, R549, R557). -/
def loadKeys (s : State) : State :=
  setSec s (fun x => { x with ready := true, pubs := [(0, Config.publicKey identityKey), (1, Config.publicKey agreementKey)] })

/-- The default plan is read again, into the staging buffer (R542). -/
def stageDefault (s : State) : State := writeMem (stageAt s) (defaultPlan s) s

/-- Stage INIT (R336, R541 to R543, R549): the plan is read again and checked, the key store is loaded and the first plan applied. -/
def initStage (s : State) : State :=
  if s.sec.stage ≠ 3 ∨ s.plan.first = true then s
  else if !planFound s then failBoot 0x090A s
  else
    let b := defaultPlan s
    let img := parseImage b
    let s1 := stageDefault s
    if img.digest ≠ s.plan.digest1 then failBoot 0x090A s1
    else
      match planCode s1 b true img with
      | some c => failPlan c s1
      | none => readiness (firstPlan img (loadKeys s1))

/-- BOOT_INIT_DONE (R336, R541 to R543, R549). -/
def execBootInitDone (misread : List (Nat × Byte)) (s : State) : Host.Outcome State Fault Refusal := live s (readFlash misread initStage)

end Sys2Proof.Machine
end

