-- ==== Sys2Proof/Machine/Functions.lean ====
section
/-! DEFINITION. The virtual functions (R372, R375, R464). -/

namespace Sys2Proof.Machine

open Sys2Proof

/-! ### VF Enable (R375, R464) -/

/-- Is a source one of a VF? -/
def vfSource (id : Nat) : Bool := decide (0xFE ≤ id) && decide (id ≤ 0xFFD) && decide (1 ≤ (sourceFn id).1)

/-- Is a target a vector of a VF? -/
def vfTarget (t : Nat) : Bool := decide (0x1040 ≤ t) && decide (t ≤ 0x4FFF)

/-- The windows of the VFs as they start: rings, queues and statistics at reset; SEQ counts on, for R399 counts it since reset (log entry 53). -/
def freshVfs (l : NMap Fn) : NMap Fn := l.map (fun e => if e.1 = 0 then e else (e.1, { Fn.reset with seq := e.2.seq }))

/-- VF_ENABLE (R375, R464): routing, fence indices, statistics and MSI-X tables as at the start; the queues of a VF start disabled. -/
def execVfEnable (count : Nat) (s : State) : Host.Outcome State Fault Refusal :=
  live s (fun s =>
    if count = 0 ∨ 255 < count ∨ s.vfCount ≠ 0 then s
    else
      { s with
        vfCount := count, fns := freshVfs s.fns,
        irq := { s.irq with route := s.irq.route.filter (fun e => !vfSource e.1), msix := s.irq.msix.filter (fun e => !vfTarget e.1),
                            pba := s.irq.pba.filter (fun t => !vfTarget t) },
        sess := { s.sess with fences := s.sess.fences.filter (fun e => decide (e.1 = 0)) ++ (List.range count).map (fun k => (k + 1, [(0, 4096)])) } })

/-- Every VF session closes as CLOSE does, with no completion (R76, R375). -/
def closeVfSessions (s : State) : State :=
  (s.sessions.filter (fun e => decide (1 ≤ e.2.fn))).foldl (fun s e => setPending e.1 3 none none s) s

/-- The TENANT channels that VFs own. -/
def vfChannels (s : State) : List Nat :=
  (List.range 48).filter (fun c => bit (dmaOf s c).owner 8 && decide (1 ≤ fld (dmaOf s c).owner 7 0))

/-- The interrupt state of the VFs is cleared (R375). -/
def clearVfIrq (chs : List Nat) (s : State) : State :=
  let gone := fun id => vfSource id || has chs id
  { s with irq := { s.irq with
      pend := s.irq.pend.filter (fun i => !gone i), forced := s.irq.forced.filter (fun i => !gone i), cond := s.irq.cond.filter (fun i => !vfSource i),
      insvc := s.irq.insvc.filter (fun e => !gone e.1), disarmed := s.irq.disarmed.filter (fun t => !vfTarget t),
      msgLevel := s.irq.msgLevel.filter (fun e => !vfTarget e.1), withdrawn := s.irq.withdrawn.filter (fun t => !vfTarget t) } }

/-- VF_DISABLE (R375): VF requests are answered no more; the VFs' sessions close, their rings, queues and channels are off and their statistics 0. -/
def execVfDisable (s : State) : Host.Outcome State Fault Refusal :=
  live s (fun s =>
    let chs := vfChannels s
    let s1 := clearVfIrq chs (chs.foldl (fun s c => dmaDisable c s) (closeVfSessions s))
    { s1 with vfCount := 0, fns := freshVfs s1.fns })

end Sys2Proof.Machine
end

