-- ==== Sys2Proof/Machine/Registers.lean ====
section
/-! DEFINITION. What every register reads (the register tables of R32, R68, R69, R97, R119, R120, R147, R231, R287, R313 to R315, R343, R344,
R369, R370, R402, R403, R429, R461, R481, R482, R498, R499, R516, R517, R533, R557, R569, R570). none: no register lies at the offset. -/

namespace Sys2Proof.Machine

open Sys2Proof

/-- Word k of a bit string. -/
def wordAt {w : Nat} (b : BitVec w) (k : Nat) : Word := BitVec.ofNat 32 (b.toNat / 2 ^ (32 * k))

/-- A word-aligned range of n registers from lo on: the index of the one at o. -/
def inBank (o lo n : Nat) : Option Nat := if lo ≤ o ∧ o < lo + 4 * n ∧ (o - lo) % 4 = 0 then some ((o - lo) / 4) else none

/-- A code as a register. -/
def codeW (c : Code) : Word := c.zeroExtend 32

/-- DEV (R499, R526, R569). -/
def readDev (s : State) (o : Nat) : Option Word :=
  match o with
  | 0x00 => some 0x1D5BE951
  | 0x04 => some (devState s)
  | 0x08 => some 0x00004131
  | 0x0C => some 0
  | 0x40 => some (bitW 3 (!errLow s) ||| bitW 2 s.dev.errPulse ||| bitW 1 (pairedPin s) ||| bitW 0 s.dev.errDrive)
  | 0x44 => some (wordAt (watchMap s) 0)
  | 0x48 => some (wordAt (watchMap s) 1)
  | 0x50 => some s.dev.latencyTol
  | 0x58 => some (fldW 16 16 s.dev.parityCount ||| fldW 0 8 s.dev.parityWin.toNat)
  | _ => none

/-- REGIF (R570). -/
def readRegif (s : State) (o : Nat) : Option Word :=
  match o with
  | 0x00 => some (codeW s.regif.reason)
  | 0x04 => some s.regif.errLog
  | 0x08 => some s.regif.errAddr
  | 0x0C => some (satW s.regif.errCount)
  | 0x10 => some s.regif.guardLast
  | 0x14 => some (satW s.regif.guardCount)
  | 0x18 => some (satW s.regif.guardRej)
  | _ => none

/-- PLAN (R68). -/
def readPlan (s : State) (o : Nat) : Option Word :=
  match o with
  | 0x00 => some (loW s.plan.addr)
  | 0x04 => some (hiW s.plan.addr)
  | 0x08 => some s.plan.len
  | 0x0C => some 0
  | 0x10 => some (fldW 12 4 s.plan.applyQ ||| fldW 8 2 s.plan.applySt |||
      bitW 4 (match s.plan.image with | none => false | some i => i.partPlan) ||| fldW 0 3 s.plan.stage)
  | 0x14 => some (codeW s.plan.reason)
  | 0x18 => some (bitW 0 (applyRuns s))
  | 0x1C => some s.plan.stagedId
  | 0x20 => some s.plan.activeId
  | 0x24 => some (satW s.plan.activeSvn)
  | _ => (inBank o 0x40 12).map (fun k => wordAt s.plan.digest k)

/-- SCHED (R18, R32, R119). SCHED_BELL_TIME is time: see readFree. -/
def readSched (s : State) (o : Nat) : Option Word :=
  match o with
  | 0x00 => some s.bell.cfg
  | 0x04 => some (bitW 6 (ratePend s) ||| bitW 5 s.bell.lost ||| bitW 4 s.bell.holdover ||| bitW 3 s.bell.locked ||| fldW 1 2 s.bell.srcAct |||
      bitW 0 s.bell.rateAct)
  | 0x08 => some (wordAt s.bell.num 0)
  | 0x0C => some (wordAt s.bell.num 1)
  | 0x10 => some s.bell.phase
  | 0x14 => some 0
  | 0x18 => some (fldW 16 16 s.bell.missing ||| fldW 0 16 s.bell.rejected)
  | 0x20 => some s.sched.burst
  | 0x24 => some s.sched.effort
  | 0x28 => some (fldW 8 8 (thermalFactor s.pwr.level) ||| fldW 0 2 s.pwr.level)
  | 0x2C => some (fldW 0 13 s.sched.active)
  | 0x30 => some (satW s.sched.tasks)
  | 0x34 => some (satW s.sched.fb)
  | 0x38 => some (satW s.sched.overCad)
  | 0x3C => some (satW s.sched.overFb)
  | 0x40 => some (satW s.sched.defer)
  | 0x44 => some (satW s.sched.forkDeny)
  | 0x50 => some s.sched.phaseSel
  | 0x54 =>
    match look s.sessions (fld s.sched.phaseSel 17 0) with
    | none => some 0
    | some x =>
      match x.phase with
      | none => some 0
      | some p => some (bitW 31 true ||| fldW 8 8 (framesF s x.stream.fps) ||| fldW 0 8 p)
  | _ => none

/-- SESS (R97, R98). -/
def readSess (s : State) (o : Nat) : Option Word :=
  match o with
  | 0x00 => some (bitW 0 s.sess.en)
  | 0x04 => some (codeW s.sess.reason)
  | 0x08 => some (satW (lookD s.sess.wm 0 0))
  | 0x0C => some (satW (lookD s.sess.wm 1 0))
  | 0x10 => some (satW (lookD s.sess.wm 2 0))
  | 0x14 => some (satW (lookD s.sess.wm 3 0))
  | 0x18 => some s.sess.migrate
  | 0x20 => some (satW (inState s 1).length)
  | 0x24 => some (satW (inState s 2).length)
  | 0x28 => some (satW (inState s 3).length)
  | 0x2C => some (satW (inState s 4).length)
  | 0x30 => some (satW (inState s 5).length)
  | 0x34 => some (fldW 16 13 (s.sessions.filter (fun e => e.2.pinned)).length ||| fldW 0 13 (s.sessions.filter (fun e => e.2.resident)).length)
  | 0x38 => some (satW s.sess.demote)
  | 0x3C => some (satW s.sess.pageIn)
  | 0x40 => some (satW s.sess.pageOut)
  | 0x44 => some (satW s.sess.migrated)
  | 0x48 => some (satW s.sess.wakeDefer)
  | 0x50 => some s.sess.ctxSel
  | 0x54 => some (bitW 1 s.sess.ctxValid ||| bitW 0 s.sess.ctxDone)
  | _ =>
    match inBank o 0x400 256 with
    | some f => some (satW (lookD s.sess.fnLimit f 200000))
    | none => (inBank o 0x1000 1024).map (fun k => s.sess.ctxCopy.getD k 0)

/-- INGEST (R147). -/
def readIngest (s : State) (o : Nat) : Option Word :=
  match o with
  | 0x00 => some (bitW 0 s.ingest.en)
  | 0x04 => some (codeW s.ingest.reason)
  | 0x08 => some s.ingest.stall
  | 0x0C => some (satW (65536 - (s.ingest.pages.map (fun e => e.2.1)).sum))
  | 0x10 => some (satW s.ingest.fenceOk)
  | 0x14 => some (satW s.ingest.fenceRej)
  | 0x18 => some (satW s.ingest.stray)
  | 0x1C => some (satW s.ingest.trunc)
  | 0x20 => some s.ingest.lastRej
  | 0x24 => some s.ingest.lastFn
  | _ => none

/-- The encode session that RC_SESS_SEL names. -/
def rcSession (s : State) : Option Session :=
  (look s.sessions (fld s.rc.sel 17 0)).bind (fun x => if x.kind = 0 then some x else none)

/-- RC (R231). -/
def readRc (s : State) (o : Nat) : Option Word :=
  let view := fun (f : Session → Word) => some (match rcSession s with | none => (0 : Word) | some x => f x)
  match o with
  | 0x00 => some (bitW 0 s.rc.en)
  | 0x04 => some (codeW s.rc.reason)
  | 0x08 => some s.rc.fork
  | 0x0C => some s.rc.adapt
  | 0x10 => some s.rc.model
  | 0x20 => some (satW s.rc.forks)
  | 0x24 => some (satW s.rc.b1)
  | 0x28 => some (satW s.rc.replay)
  | 0x2C => some (satW s.rc.reject)
  | 0x30 => some (satW s.rc.direct)
  | 0x34 => some (satW s.rc.filler)
  | 0x38 => some (satW s.rc.down)
  | 0x40 => some s.rc.sel
  | 0x44 => view (fun x => bitW 31 true ||| fldW 16 2 x.rate.mode ||| fldW 8 8 x.rate.lat ||| bitW 0 x.rate.adapt)
  | 0x48 => view (fun x => satW x.rate.rate)
  | 0x4C => view (fun x => satW (x.rate.full / 256))
  | 0x50 => view (fun x => satW x.rate.size)
  | 0x54 => view (fun x => (Config.u64ths x.rate.u).zeroExtend 32)
  | _ => none

/-- The bound decode session that DEC_SESS_SEL names. -/
def decSession (s : State) : Option Session :=
  (look s.sessions (fld s.dec.sel 17 0)).bind (fun x => if x.kind = 1 ∧ x.dec.bind.isSome = true then some x else none)

/-- DEC (R287). -/
def readDec (s : State) (o : Nat) : Option Word :=
  let view := fun (f : Session → Word) => some (match decSession s with | none => (0 : Word) | some x => f x)
  match o with
  | 0x00 => some (bitW 0 s.dec.en)
  | 0x04 => some (codeW s.dec.reason)
  | 0x08 => some s.dec.cfg
  | 0x38 => some (satW s.pool.filling.length)
  | 0x40 => some s.dec.sel
  | 0x44 => view (fun x => bitW 31 true ||| fldW 8 4 x.pics.length ||| bitW 4 x.dec.synced ||| bitW 3 x.dec.taint |||
      fldW 0 2 (match x.dec.bind with | none => 0 | some b => b.use))
  | 0x48 => view (fun x => fldW 0 16 x.dec.frac)
  | 0x4C => view (fun x => BitVec.ofNat 32 x.dec.outputs)
  | _ => (inBank o 0x10 10).map (fun _ => satW (lookD s.dec.cnt o 0))

/-- POOL (R369). -/
def readPool (s : State) (o : Nat) : Option Word :=
  match o with
  | 0x00 => some (bitW 0 s.pool.en)
  | 0x04 => some (codeW s.pool.reason)
  | 0x50 => some (satW s.pool.claimFree)
  | 0x60 => some (satW s.pool.allocCnt)
  | 0x64 => some (satW s.pool.emptyCnt)
  | 0x68 => some (satW s.pool.quotaCnt)
  | 0x6C => some (satW s.pool.promoteCnt)
  | 0x70 => some (satW s.pool.notOwner)
  | 0x74 => some (satW s.pool.double)
  | 0x78 => some (fldW 29 3 s.pool.lastReq.kind ||| fldW 0 18 s.pool.lastReq.index)
  | 0x7C => some (codeW s.pool.lastCode)
  | 0x80 => some s.pool.lastHandle
  | _ =>
    match inBank o 0x10 5, inBank o 0x30 5 with
    | some c, _ => some (satW (lookD s.pool.count c 0))
    | _, some c => some (satW (freeCount s c))
    | none, none =>
      match inBank o 0x1000 1024, inBank o 0x2000 1024, inBank o 0x3000 256 with
      | some k, _, _ => if k % 8 < 5 then some (satW (fnQuota s (k / 8) (k % 8))) else none
      | _, some k, _ => if k % 8 < 5 then some (satW (lookD s.pool.fnUse k 0)) else none
      | _, _, some f => some (satW (lookD s.pool.fnMisuse f 0))
      | _, _, _ => none

/-- The highest PRIO among a queue's visible items, and whether there is one. -/
def topPrio (x : Queue) : Nat × Bool :=
  let v := x.items.filter (fun i => i.vis.isSome)
  (v.foldl (fun m i => max m i.prio) 0, !v.isEmpty)

/-- QUEUE (R370). -/
def readQueue (s : State) (o : Nat) : Option Word :=
  let q := fld s.queue.sel 16 0
  let x := queueOf s q
  match o with
  | 0x00 => some (bitW 0 s.queue.en)
  | 0x04 => some (codeW s.queue.reason)
  | 0x08 => some (satW s.queue.spillFree)
  | 0x10 => some s.queue.sel
  | 0x14 => some (bitW 0 (queueMode q x))
  | 0x18 => some (bitW 31 x.flushing.isSome ||| bitW 30 (queueId q) ||| bitW 29 (topPrio x).2 ||| fldW 26 3 (topPrio x).1 ||| bitW 25 x.slot |||
      fldW 0 17 (beatsHeld x))
  | 0x1C => some 0
  | 0x20 => some (satW s.queue.bp)
  | 0x24 => some (satW s.queue.flushCnt)
  | 0x28 => some (satW s.queue.abortCnt)
  | 0x2C => some (satW s.queue.rejCnt)
  | _ => none

/-- Register o of DMA channel c (R403); slot says that a function window shows it. -/
def readChannel (s : State) (c o : Nat) (slot : Bool) : Option Word :=
  let x := dmaOf s c
  match o with
  | 0x00 => some (bitW 0 x.en)
  | 0x04 => some (if slot then 0 else x.owner)
  | 0x08 => some (loW x.chain)
  | 0x0C => some (hiW x.chain)
  | 0x10 => some 0
  | 0x14 => some (bitW 31 (!x.busy) ||| bitW 15 (!tenant c) ||| fldW 4 4 x.errKind ||| fldW 0 3 x.state)
  | 0x18 => some (codeW x.reason)
  | 0x1C => some (loW x.cur)
  | 0x20 => some (hiW x.cur)
  | 0x24 => some x.done
  | 0x28 => some (fldW 0 24 x.cmpOff)
  | 0x2C => some (satW x.retries)
  | _ => none

/-- DMA (R403). -/
def readDma (s : State) (o : Nat) : Option Word :=
  match o with
  | 0x00 => some s.dma.retryLimit
  | 0x04 => some (satW s.dma.hostFail)
  | _ => if 0x100 ≤ o ∧ o < 0x1100 then readChannel s ((o - 0x100) / 0x40) ((o - 0x100) % 0x40) false else none

/-- A port's register (R429). -/
def readPort (s : State) (p o : Nat) : Option Word :=
  let x := portOf s p
  match o with
  | 0x00 => some x.cfg
  | 0x04 => some (bitW 7 x.locked ||| fldW 0 2 x.link)
  | 0x08 => some x.macLo
  | 0x0C => some x.macHi
  | 0x10 => some x.ipv4
  | 0x24 => some x.secLo
  | 0x28 => some x.secHi
  | 0x2C => some x.ns
  | 0x30 => some x.offset
  | _ => (inBank o 0x14 4).map (fun k => lookD x.ipv6 k 0)

/-- The flow that NET_FLOW_SEL names. -/
def selFlow (s : State) : Option Flow := look s.net.flows (fld s.net.sel 15 0)

/-- NET (R429). -/
def readNet (s : State) (o : Nat) : Option Word :=
  let view := fun (f : Flow → Word) => some (match selFlow s with | none => (0 : Word) | some x => f x)
  match o with
  | 0x00 => some s.net.ctrl
  | 0x04 => some (codeW s.net.reason)
  | 0x08 => some (satW (65536 - s.net.flows.length))
  | 0x0C => some 0
  | 0x200 => some s.net.sel
  | 0x204 => view (fun f => bitW 31 true ||| fldW 29 2 f.kind ||| fldW 28 1 f.port ||| fldW 24 3 f.cls ||| fldW 16 8 f.fn ||| fldW 0 8 f.weight)
  | 0x208 => view (fun f => fldW 0 18 (f.session.getD 0))
  | 0x20C => view (fun f => satW ((if f.kind = 0 then f.rate else f.polRate) / 1000))
  | 0x210 => view (fun f => satW (f.credit / 1024))
  | 0x214 => view (fun f => satW f.tx)
  | 0x218 => view (fun f => satW f.drops)
  | _ =>
    match inBank o 0x20 9 with
    | some _ => some (satW (lookD s.net.cnt o 0))
    | none => if 0x100 ≤ o ∧ o < 0x180 then readPort s ((o - 0x100) / 0x40) ((o - 0x100) % 0x40) else none

/-- TANDEM (R461). -/
def readTandem (s : State) (o : Nat) : Option Word :=
  let t := s.tandem
  let view := fun (f : Viol → Word) => some (match t.viol[fld t.violSel 5 0]? with | none => (0 : Word) | some v => f v)
  match o with
  | 0x00 => some t.ctrl
  | 0x04 => some (codeW t.reason)
  | 0x08 => some (fldW 0 1 t.side)
  | 0x0C => some (fldW 12 4 t.lanes ||| bitW 11 t.altOk ||| bitW 10 t.linkOk ||| fldW 0 3 t.state)
  | 0x10 => some (wordAt t.offset 0)
  | 0x14 => some (wordAt t.offset 1)
  | 0x18 => some (BitVec.ofInt 32 t.skew)
  | 0x1C => some t.hbCfg
  | 0x30 => some t.violCfg
  | 0x34 => some t.syncCfg
  | 0x70 => some (satW (s.sessions.filter (fun e => decide (e.2.tan.role = 1))).length)
  | 0x74 => some (satW (s.sessions.filter (fun e => decide (e.2.tan.role = 2))).length)
  | 0x80 => some (fldW 16 16 t.violTot ||| fldW 0 7 t.viol.length)
  | 0x84 => some t.violSel
  | 0x88 => view (fun v => loW v.mark.image)
  | 0x8C => view (fun v => hiW v.mark.image)
  | 0x90 => view (fun v => fldW 24 8 v.typ ||| codeW v.code)
  | 0x94 => view (fun v => v.seq)
  | _ =>
    match inBank o 0x20 4 with
    | some k => some (lookD t.altIp k 0)
    | none => (inBank o 0x40 8).map (fun _ => satW (lookD t.cnt o 0))

/-- A source's IRQ_SRC_CFG with TARGET given (R481). -/
def srcWord (s : State) (id target : Nat) : Word :=
  let r := routeOf s id
  bitW 31 r.en ||| fldW 28 3 r.prio ||| bitW 27 (decide (srcKind id = .pulse)) ||| bitW 26 (has s.irq.pend id) |||
    bitW 25 (look s.irq.insvc id).isSome ||| fldW 0 16 target

/-- A bit map of 32 sources. -/
def srcMap (p : Nat → Bool) (j : Nat) : Word := BitVec.ofNat 32 (((List.range 32).map (fun i => if p (32 * j + i) then 2 ^ i else 0)).sum)

/-- IRQ (R481); IRQ_CLAIM is in readEffect. -/
def readIrq (s : State) (o : Nat) : Option Word :=
  match o with
  | 0x00 => some (codeW s.irq.reason)
  | 0x04 => some 0
  | 0x08 => some (satW s.irq.spurious)
  | 0x0C => some (satW s.irq.badComplete)
  | _ =>
    match inBank o 0x1000 0xFFE, inBank o 0x5000 128, inBank o 0x5200 128 with
    | some id, _, _ => some (srcWord s id (routeOf s id).target)
    | _, some j, _ => some (srcMap (fun i => has s.irq.pend i) j)
    | _, _, some j => some (srcMap (fun i => (look s.irq.insvc i).isSome) j)
    | _, _, _ => (inBank o 0x6000 0x1008).map (fun _ => 0)

/-- The library entry that MCLIB_SEL names. -/
def selImage (s : State) : Option McImage := s.mclib.images[fld s.mclib.sel 6 0]?

/-- HELM (R315). -/
def readHelm (s : State) (o : Nat) : Option Word :=
  let view := fun (f : McImage → Word) => match selImage s with | none => (0 : Word) | some e => f e
  match o with
  | 0x100 => some (fldW 16 8 (min s.mclib.rejects 255) ||| fldW 0 7 s.mclib.images.length)
  | 0x104 => some s.mclib.sel
  | 0x108 => some (view (fun e => bitW 31 true ||| fldW 16 4 e.role ||| fldW 0 16 e.imageId))
  | 0x10C => some (view (fun e => BitVec.ofNat 32 e.svn))
  | 0x140 => some (codeW s.mclib.lastRej)
  | _ => (inBank o 0x110 12).map (fun k => view (fun e => wordAt e.digest k))

/-- A bit map of a Quarter's engines. -/
def engMap (p : Nat → Bool) (q : Nat) : Word := srcMap p q

/-- BIST (R516). -/
def readBist (s : State) (o : Nat) : Option Word :=
  match o with
  | 0x00 => some (bitW 0 s.bist.en)
  | 0x04 => some (codeW s.bist.reason)
  | 0x08 => some s.bist.cfg
  | 0x0C => some (fldW 0 16 s.bist.head)
  | 0x10 => some s.bist.lastFail
  | _ =>
    match inBank o 0x20 5 with
    | some _ => some (satW (lookD s.bist.cnt o 0))
    | none => (inBank o 0x40 16).map (fun q => engMap (fun e => has s.bist.out e || has s.bist.failed e) q)

/-- The pair that SEXT_COEF_* show (R517): the value in force, or in mode 1 the selected set. -/
def shownPair (s : State) : BitVec 16 × BitVec 16 :=
  let i := fld s.sext.sel 6 0
  if bit s.sext.ctrl 1 then sextPair s i (fld s.sext.sel 9 8) else sextInForce s i

/-- SEXT (R517). -/
def readSext (s : State) (o : Nat) : Option Word :=
  let i := fld s.sext.sel 6 0
  match o with
  | 0x00 => some s.sext.ctrl
  | 0x04 => some (codeW s.sext.reason)
  | 0x08 => some s.sext.cfg
  | 0x0C => some (bitW 31 s.sext.clkOk ||| bitW 30 s.sext.voltOk ||| fldW 16 7 s.sext.next ||| fldW 0 16 s.sext.rounds)
  | 0x10 => some s.sext.sel
  | 0x14 => some ((shownPair s).1.zeroExtend 32)
  | 0x18 => some ((shownPair s).2.zeroExtend 32)
  | 0x1C => some (lookD s.sext.raw i 0)
  | 0x20 => some (bitW 31 (has s.sext.stale i) ||| fldW 0 8 (lookD s.sext.rejects i 0))
  | 0x30 => some (satW s.sext.accept)
  | 0x34 => some (satW s.sext.reject)
  | _ => none

/-- Is an engine's domain on (R519, R533)? An OFF engine's is not. -/
def engOn (s : State) (e : Nat) : Bool := decide ((lookD s.engines e Engine.reset).state ≠ 0) && !has s.pwr.gated e

/-- PWR (R533). -/
def readPwr (s : State) (o : Nat) : Option Word :=
  let i := fld s.pwr.sel 4 0
  match o with
  | 0x04 => some (codeW s.pwr.reason)
  | 0x08 => some s.pwr.cfg
  | 0x0C => some (pwrStatus s)
  | 0x10 => some s.pwr.therm
  | 0x14 => some s.pwr.therm2
  | 0x18 => some (fldW 16 5 s.pwr.tjSensor ||| s.pwr.tj.zeroExtend 32)
  | 0x1C => some s.pwr.sel
  | 0x20 => some (bitW 31 ((look s.pwr.temps i).isSome && !has s.pwr.ignored i) ||| (lookD s.pwr.temps i 0).zeroExtend 32)
  | 0x30 => some (satW s.pwr.wakeCount)
  | 0x48 => some (satW s.pwr.levelChg)
  | _ =>
    match inBank o 0x34 5 with
    | some k => some (satW (lookD s.pwr.entries k 0))
    | none => (inBank o 0x100 16).map (fun q => engMap (engOn s) q)

/-- SEC_STATUS (R557). -/
def secStatus (s : State) : Word :=
  bitW 15 s.sec.burning.isSome ||| bitW 14 s.sec.ready ||| bitW 13 Config.jtagOff ||| fldW 12 1 s.sec.helmSlot ||| fldW 11 1 s.sec.bootSlot |||
    fldW 8 3 (if s.sec.stage = 0 then 0 else s.sec.accepted.headD 7) ||| bitW 3 s.sec.dirInvalid ||| fldW 0 3 s.sec.stage

/-- SEC (R557). -/
def readSec (s : State) (o : Nat) : Option Word :=
  match o with
  | 0x00 => some (secStatus s)
  | 0x04 => some (codeW s.sec.bootReason)
  | 0x08 => some (fldW 0 2 s.sec.cause)
  | 0x0C => some (codeW s.sec.reason)
  | 0x10 => some (fldW 0 4 s.sec.svnSel)
  | 0x14 => some (fldW 0 7 (svnOf s s.sec.svnSel))
  | 0x18 => some s.sec.fuseSvnReg
  | 0x1C => some s.sec.ownerReg
  | 0x20 => some (s.sec.ownerBits.zeroExtend 32)
  | 0x24 => some (satW s.sec.keys.length)
  | 0x28 => some (fldW 0 3 s.sec.measSel)
  | 0x2C => some (fldW 0 1 s.sec.pubSel)
  | 0x200 => some s.sec.flashAddr
  | 0x204 => some (loW s.sec.flashHost)
  | 0x208 => some (hiW s.sec.flashHost)
  | 0x20C => some s.sec.flashLen
  | 0x210 => some 0
  | 0x214 => some (bitW 1 s.sec.flashErr ||| bitW 0 s.sec.flashOp.isSome)
  | _ =>
    match inBank o 0x40 12, inBank o 0x80 12, inBank o 0x100 24 with
    | some k, _, _ => some (lookD s.sec.hashRegs k 0)
    | _, some k, _ => some (wordAt (lookD s.sec.meas s.sec.measSel 0) k)
    | _, _, some k => some (wordAt (lookD s.sec.pubs s.sec.pubSel 0) k)
    | _, _, _ => none

/-- The retired page that MEMC_RETIRE_SEL names. -/
def selRetired (s : State) : Option Retired := s.memc.table[fld s.memc.retireSel 9 0]?

/-- MEMC global (R343). -/
def readMemc (s : State) (o : Nat) : Option Word :=
  let m := s.memc
  match o with
  | 0x00 => some (bitW 0 m.en)
  | 0x04 => some (codeW m.reason)
  | 0x08 => some (fldW 0 2 m.order)
  | 0x0C => some (fldW 12 4 m.speed ||| fldW 8 4 (usableRanks s) ||| fldW 4 4 m.ranks ||| bitW 3 m.dens32 ||| bitW 2 (bit m.retireCfg 8) ||| fldW 0 2 m.dpc)
  | 0x10 => some (fldW 8 12 m.failMask ||| fldW 2 2 m.trainSrc ||| fldW 0 2 m.trainState)
  | 0x14 => some (bitW 31 m.initDone ||| fldW 0 31 m.initGib)
  | 0x18 => some m.scrubCfg
  | 0x1C => some (fldW 16 16 m.passes ||| fldW 0 16 (m.scrubPos * 64 * 1000 / max 1 (capacity s)))
  | 0x20 => some m.rhCfg
  | 0x24 => some m.retireCfg
  | 0x28 => some (fldW 0 11 m.table.length)
  | 0x2C => some m.retireSel
  | 0x30 => some (match selRetired s with | none => 0 | some r => bitW 31 true ||| fldW 0 31 r.page)
  | 0x34 => some (match selRetired s with | none => 0 | some r => fldW 8 4 r.ch ||| fldW 4 3 r.rank ||| fldW 0 2 r.cause)
  | _ => none

/-- A memory channel (R344). -/
def readChan (s : State) (c o : Nat) : Option Word :=
  let x := chanOf s c
  match o with
  | 0x00 => some (fldW 12 4 x.spared ||| fldW 8 4 x.pauseRank ||| bitW 7 x.x2 ||| fldW 0 4 x.state)
  | 0x04 => some (satW x.ce)
  | 0x08 => some (satW x.ue)
  | 0x0C => some (satW x.rfm)
  | 0x10 => some (satW x.throttle)
  | 0x14 => some (satW x.retrain)
  | 0x18 => some (satW x.caRetry)
  | 0x1C => some x.lastErr
  | 0x20 => some x.lastThr
  | 0x24 => some x.drift
  | _ => (inBank o 0x40 8).map (fun r => satW (lookD x.rankCe r 0))

/-- A Quarter (R69, R120, R314). -/
def readQtr (s : State) (q o : Nat) : Option Word :=
  let t := qtrOf s q
  match o with
  | 0x00 => some (bitW 0 t.en)
  | 0x04 => some (fldW 4 4 (t.drain.getD t.state) ||| fldW 0 4 t.state)
  | 0x08 => some (codeW t.reason)
  | 0x0C => some 0
  | 0x10 => some (satW (s.sessions.filter (fun e => decide (planQuarter e.2 = q))).length)
  | 0x14 => some (satW t.detours)
  | 0x18 => some (satW t.sinks)
  | 0x1C => some (match t.mark with | none => 0 | some m => loW m.image)
  | 0x20 => some (match t.mark with | none => 0 | some m => hiW m.image)
  | 0x24 => some t.planId
  | 0x28 => some (fldW 0 4 t.mcSet)
  | 0x30 => some (fldW 0 11 t.weight)
  | 0x34 => some (satW (pixCap s q))
  | 0x38 => some (satW (((loadsOn s q none).map avgCost).sum / (8 * baseOf s)))
  | 0x3C => some (satW (pixPeak s q / 8))
  | 0x40 => some (satW (t.lastLoad / 8))
  | 0x44 => some (satW t.fbCount)
  | 0x48 => some (satW t.overcad)
  | 0x50 => some (satW t.shFrames)
  | 0x54 => some (satW t.shAband)
  | 0x58 => some (satW t.shMism)
  | _ => none

/-- An engine (R313). -/
def readEngine (s : State) (n o : Nat) : Option Word :=
  let e := engOf s n
  match o with
  | 0x00 => some (fldW 12 4 e.mcSet ||| fldW 8 4 (roleNow s n) ||| fldW 0 3 e.state)
  | 0x04 => some (fldW 16 13 e.saved ||| fldW 0 13 e.pc)
  | 0x08 => some (fldW 16 16 e.faultCount ||| fldW 0 4 e.faultKind)
  | 0x0C => some (match e.unit with | none => 0 | some u => bitW 31 true ||| fldW 24 7 u.band ||| fldW 0 18 u.handle)
  | 0x10 => some (satW e.marks)
  | 0x14 => some (fldW 24 8 e.evFault ||| fldW 16 8 e.evRezone ||| fldW 8 8 e.evDeadline ||| fldW 0 8 e.evCancel)
  | 0x18 => some (fldW 18 14 e.gapMax ||| fldW 8 6 e.hwm ||| fldW 0 6 (stagedCount e.staging))
  | 0x1C => some (satW e.busy)
  | _ => none

/-- Is the block of a window in its safe state of R488, as WATCH_SEVERITY.LEVEL shows it (R498)? -/
def blockIsSafe (s : State) (w : Nat) : Bool :=
  s.dev.safe || (decide (32 ≤ w) && decide ((qtrOf s (w - 32)).state = 7)) ||
  (decide (20 ≤ w) && decide (w < 32) && decide ((chanOf s (w - 20)).state = 6)) || (decide (w = winTandem) && s.tandem.dead)

/-- The history entry that WATCH_HIST_SEL names. -/
def selHist (x : Watch) : Option Hist := x.hist[fld x.histSel 2 0]?

/-- A watch (R498). -/
def readWatch (s : State) (w o : Nat) : Option Word :=
  let x := watchOf s w
  match o with
  | 0x00 => some (x.severe ++ x.seen)
  | 0x04 => some x.cfg
  | 0x08 => some x.ie
  | 0x0C => some (fldW 8 4 x.last ||| fldW 0 2 (if blockIsSafe s w then 3 else if x.severe ≠ 0 then 2 else if x.seen ≠ 0 then 1 else 0))
  | 0x10 => some x.histSel
  | 0x14 => some (match selHist x with | none => 0 | some h => loW h.mark.image)
  | 0x18 => some (match selHist x with | none => 0 | some h => hiW h.mark.image)
  | 0x1C => some (match selHist x with
      | none => 0
      | some h => bitW 31 true ||| bitW 30 h.inj ||| bitW 29 h.severe ||| fldW 20 4 h.kind ||| codeW h.code)
  | 0x20 => some x.inject
  | _ => (inBank o 0x40 16).map (fun k =>
      let c := lookD x.kinds k { start := 0, count := 0, total := 0 }
      fldW 24 8 c.count ||| fldW 0 24 c.total)

/-- A ring's register (R402): command ring or completion ring r of function f. -/
def readRing (s : State) (f r o : Nat) (cmd : Bool) : Option Word :=
  let a := cmdOf s f r
  let b := cqOf s f r
  match o with
  | 0x00 => some (loW (if cmd then a.base else b.base))
  | 0x04 => some (hiW (if cmd then a.base else b.base))
  | 0x08 => some (if cmd then a.cfg else b.cfg)
  | 0x0C => some (bitW 0 (if cmd then a.en else b.en))
  | 0x10 => some (codeW (if cmd then a.reason else b.reason))
  | 0x14 => some (if cmd then a.tail else b.head)
  | 0x18 => some (if cmd then a.head else b.tail)
  | 0x1C => some (if cmd then bitW 16 a.waiting ||| fldW 0 16 a.outstanding else bitW 1 b.fault ||| bitW 0 (cqFull b))
  | _ => none

/-- A source's configuration as a function's window shows it (R482). -/
def fnSrcWord (s : State) (f id : Nat) : Word :=
  let t := (routeOf s id).target
  if f = 0 then srcWord s id t
  else if targetVf t = some f then srcWord s id ((t - 0x1000) % 64) else srcWord s id 0 ||| bitW 16 true

/-- The event queue and the interrupt view of a function (R482), by the offset in their area; the claims are in readEffect. -/
def readEvq (s : State) (f o : Nat) : Option Word :=
  let e := (fnOf s f).ev
  match o with
  | 0x00 => some (loW e.base)
  | 0x04 => some (hiW e.base)
  | 0x08 => some e.cfg
  | 0x0C => some (bitW 0 e.en)
  | 0x10 => some (codeW e.reason)
  | 0x14 => some e.head
  | 0x18 => some e.tail
  | 0x1C => some (bitW 2 e.fault ||| bitW 1 e.overflow ||| bitW 0 (decide ((e.tail - e.head).toNat = e.size)))
  | 0x20 => some (satW e.lost)
  | 0x24 => some 0
  | _ =>
    match inBank o 0x100 15, inBank o 0x140 8, inBank o 0x200 128 with
    | some j, _, _ => some (fnSrcWord s f (fnSource f j))
    | _, some k, _ => some (match slotChannel s f k with | none => 0 | some c => fnSrcWord s f c)
    | _, _, some _ => if f = 0 then none else some 0
    | _, _, _ => none

/-- Word o / 4 of an MSI-X table entry. -/
def msixWord (x : MsixEntry) (k : Nat) : Word :=
  match k with
  | 0 => x.addrLo
  | 1 => x.addrHi
  | 2 => x.data
  | _ => bitW 0 x.mask

/-- A function window (R377). A fence doorbell is 8 bytes: each half shows its part of the last accepted value (R127). -/
def readFn (s : State) (f o : Nat) : Option Word :=
  if o < 0x200 then readRing s f (o / 0x40) (o % 0x40) true
  else if o < 0x400 then readRing s f ((o - 0x200) / 0x40) (o % 0x40) false
  else if 0x1000 ≤ o ∧ o < 0x1200 then
    (slotChannel s f ((o - 0x1000) / 0x40)).bind (fun c => readChannel s c (o % 0x40) true)
  else if 0x10000 ≤ o ∧ o < 0x18000 then
    some (wordAt (lookD s.ingest.doors (f * 4096 + (o - 0x10000) / 8) 0) ((o - 0x10000) / 4 % 2))
  else if 0x20000 ≤ o ∧ o < 0x21000 then readEvq s f (o - 0x20000)
  else if 0x30000 ≤ o ∧ o < 0x30200 then
    some (BitVec.ofNat 32 (lookD (fnOf s f).stats ((o - 0x30000) / 8) 0 / 2 ^ (32 * ((o - 0x30000) / 4 % 2))))
  else if f = 0 then none
  else if 0x3E000 ≤ o ∧ o < 0x3E400 then some (msixWord (msixOf s (vectorTarget f ((o - 0x3E000) / 16))) ((o - 0x3E000) / 4 % 4))
  else if 0x3F000 ≤ o ∧ o < 0x3F008 then
    some (srcMap (fun v => has s.irq.pba (vectorTarget f v)) ((o - 0x3F000) / 4))
  else none

/-- A block's register (R572). -/
def readBlock (s : State) (w o : Nat) : Option Word :=
  if 0xF000 ≤ o then readWatch s w (o - 0xF000)
  else if 32 ≤ w then readQtr s (w - 32) o
  else if 20 ≤ w then readChan s (w - 20) o
  else
    match w with
    | 0 => readDev s o
    | 1 => readRegif s o
    | 2 => readPlan s o
    | 3 => readSched s o
    | 4 => readSess s o
    | 5 => readIngest s o
    | 6 => readRc s o
    | 7 => readDec s o
    | 8 => readPool s o
    | 9 => readQueue s o
    | 10 => readDma s o
    | 11 => readNet s o
    | 12 => readTandem s o
    | 13 => readIrq s o
    | 14 => readHelm s o
    | 15 => readBist s o
    | 16 => readSext s o
    | 17 => readPwr s o
    | 18 => readSec s o
    | _ => readMemc s o

/-- The registers that only PF BAR0 shows (R98, R119, R231, R287, R370, R429). -/
def pfOnly (off : Nat) : Bool :=
  let o := off % 0x10000
  match off / 0x10000 with
  | 3 => decide (o = 0x50 ∨ o = 0x54)
  | 4 => decide (0x1000 ≤ o ∧ o < 0x2000)
  | 6 => decide (0x40 ≤ o ∧ o < 0x58)
  | 7 => decide (0x40 ≤ o ∧ o < 0x50)
  | 9 => decide (0x10 ≤ o ∧ o < 0x20)
  | 11 => decide (0x200 ≤ o ∧ o < 0x21C)
  | _ => false

/-- PF BAR0 (R571); pf is false for a Helm core. The Guard window reads 0. -/
def readPf (s : State) (pf : Bool) (off : Nat) : Option Word :=
  if off % 4 ≠ 0 ∨ (pf = false ∧ pfOnly off = true) then none
  else if off < 0x300000 then readBlock s (off / 0x10000) (off % 0x10000)
  else if off < 0x400000 then readEngine s ((off - 0x300000) / 0x800) (off % 0x800)
  else if 0x1000000 ≤ off ∧ off < 0x1400000 then some 0
  else if 0x2000000 ≤ off ∧ off < 0x2040000 then readFn s 0 (off - 0x2000000)
  else none

/-- A register of a space: none where the address is unimplemented (R563). -/
def readSpace (s : State) (sp : Space) (off : Nat) : Option Word :=
  match sp with
  | .pf => readPf s true off
  | .helm _ => readPf s false off
  | .vf f => if off % 4 ≠ 0 then none else readFn s f off

end Sys2Proof.Machine
end

