-- ==== Sys2Proof/Machine/RegWrite.lean ====
section
/-! DEFINITION. Register accesses: the log of refused accesses, guarded writes, and what a read or a write of each register does (R4, R5, R558 to
R568). The register tables are those that Registers.lean names. -/

namespace Sys2Proof.Machine

open Sys2Proof

/-- The outcome of an operation on registers. -/
abbrev Res := Host.Outcome State Fault Refusal

/-- One operation after another. -/
def chain (o : Res) (f : State → Res) : Res :=
  match o with
  | .next s => f s
  | .fault e => .fault e
  | .refused r => .refused r

/-! ### The log (R563, R564) -/

/-- SPACE and FUNCTION of an access (R570). -/
def spaceCode (sp : Space) : Nat × Nat :=
  match sp with
  | .pf => (0, 0)
  | .vf f => (1, f)
  | .helm c => (2, c)

/-- An access is logged with a code (R564). -/
def logAccess (code : Code) (a : Access) (s : State) : State :=
  { s with regif := { s.regif with
      reason := code, errAddr := BitVec.ofNat 32 a.offset, errCount := up s.regif.errCount 1,
      errLog := bitW 31 true ||| bitW 30 a.write ||| fldW 28 2 (spaceCode a.space).1 ||| fldW 16 8 (spaceCode a.space).2 ||| codeW code } }

/-- A PCIe access is a wake event (R525); a Helm core's access is none. -/
def wakeBy (sp : Space) (s : State) : State := match sp with | .helm _ => s | _ => wake s

/-- Does the interface serve the space? A VF's BAR answers while the function is enabled (R375). -/
def spaceOn (s : State) (sp : Space) : Bool :=
  match sp with
  | .pf => true
  | .helm c => decide (c < 4)
  | .vf f => decide (1 ≤ f) && fnOn s f

/-- In stage ROM and after a failed boot only DEV and SEC answer; an access to anything else reads 0 and leaves no log (R543, R544). -/
def visible (s : State) (a : Access) : Bool :=
  answers s ||
    (match a.space with
     | .vf _ => false
     | _ => decide (a.offset / 0x10000 = 0) || decide (a.offset / 0x10000 = 0x12))

/-- A read that returns w. -/
def readsAs (a : Access) (w : Word) (s : State) : State := if a.write then s else emit (.readData w) s

/-- An access of a space, once it is known to be served and to reach a window that answers. -/
def onAccess (a : Access) (s : State) (f : State → Res) : Res :=
  if s.dev.stopped || !s.dev.perstN || !spaceOn s a.space then .next s
  else if !visible s a then .next (readsAs a 0 (wakeBy a.space s))
  else f s

/-- ACCESS_SIZE_ERROR (R558). -/
def execAccessSizeError (a : Access) (s : State) : Res :=
  onAccess a s (fun s => .next (readsAs a 0 (logAccess 0x0B03 a (wakeBy a.space s))))

/-- UNIMPLEMENTED_ACCESS (R563); an access to a register is none. -/
def execUnimplementedAccess (a : Access) (s : State) : Res :=
  onAccess a s (fun s =>
    if (readSpace s a.space a.offset).isSome then .next s else .next (readsAs a 0 (logAccess 0x0B02 a (wakeBy a.space s))))

/-! ### Guarded writes (R566 to R568) -/

/-- The guarded registers (R566), by offset in PF BAR0. -/
def guarded (off : Nat) : Bool :=
  has [0x0000C, 0x20018, 0xC0008, 0x130008, 0x120018, 0x12001C] off ||
    (decide (off < 0x300000) && (decide (off % 0x10000 = 0xF020) || (decide (0x200000 ≤ off) && decide (off % 0x10000 = 0xC))))

/-- A write to a guarded register becomes the requester's pending write; an earlier one is rejected (R567, R568 cause 5). -/
def guardFirst (req off : Nat) (v : Word) (s : State) : State :=
  let s1 := match look s.regif.pending req with | none => s | some p => guardReject 5 req p.1 1 s
  { s1 with regif := { s1.regif with pending := put s1.regif.pending req (off, v) } }

/-- An accepted guarded write is counted (R568). -/
def guardCounted (s : State) : State := { s with regif := { s.regif with guardCount := up s.regif.guardCount 1 } }

/-- An accepted write of QTR_REZONE (R69): GO, then RETIRE. -/
def rezoneWrite (q : Nat) (v : Word) (s : State) : State :=
  when (bit v 1) (fun s => (rezoneRetire q s).2) (when (bit v 0) (fun s => (rezoneGo q s).2) s)

/-- An accepted write of SEC_FUSE_OWNER (R537, R557). -/
def fuseOwner (v : Word) (s : State) : State :=
  match fld v 31 30 with
  | 1 => ownerProgram (fld v 1 0) s
  | 2 => ownerRevoke (fld v 1 0) s
  | _ => secRefuse 0x0910 s

/-- An accepted value is applied (R567, R568): cause 6 rejects it, or it is counted and takes its effect. -/
def guardApply (req off : Nat) (v : Word) (s : State) : Res :=
  let t := guardCounted s
  if off % 0x10000 = 0xF020 then
    if injectBad (off / 0x10000) v then blockWrite 0x70FEFF00 v s (guardReject 6 req off 1) else execWatchInject (off / 0x10000) v t
  else
    match off with
    | 0x0000C => devWrite 0xFFFFFFFE v t (when (bit v 0) (fun s => fullReset 1 (noticeReset s)))
    | 0x20018 => blockWrite 0xFFFFFFFE v t (when (bit v 0) planApply)
    | 0xC0008 => execTandemRoleWrite v t
    | 0x130008 => execMemcMapWrite v t
    | 0x120018 => execSecFuseSvn v t
    | 0x12001C => devWrite 0x3FFFFFFC v t (fuseOwner v)
    | _ => blockWrite 0xFFFFFFFC v t (rezoneWrite (off / 0x10000 - 32) v)

/-- A Guard-window write of requester req for the register at off (R567, R568). -/
def guardSecond (req off : Nat) (v : Word) (s : State) : Res :=
  match look s.regif.pending req with
  | none => .next (guardReject 4 req off 1 s)
  | some (o, w) =>
    let s1 := { s with regif := { s.regif with pending := del s.regif.pending req } }
    if off ≠ o then .next (guardReject 3 req o 2 s1)
    else if v ≠ ~~~w then .next (guardReject 1 req o 2 s1)
    else guardApply req o w s1

/-- The space in which requester req writes. -/
def reqSpace (req : Nat) : Space := if req = 0 then .pf else .helm (req - 1)

/-- GUARDED_FIRST_WRITE (R567). -/
def execGuardedFirstWrite (req off : Nat) (value : Word) (s : State) : Res :=
  let a : Access := { space := reqSpace req, write := true, offset := off, value := value }
  onAccess a s (fun s => if guarded off then .next (guardFirst req off value (wakeBy a.space s)) else .next s)

/-- GUARD_WINDOW_WRITE (R567, R568): off is the offset that the Guard address shadows. The window itself answers from stage LOAD on (R543). -/
def execGuardWindowWrite (req off : Nat) (value : Word) (s : State) : Res :=
  let a : Access := { space := reqSpace req, write := true, offset := 0x1000000 + off, value := value }
  onAccess a s (fun s => if off < 0x400000 then guardSecond req off value (wakeBy a.space s) else .next s)

/-- GUARD_TIMEOUT (R568, cause 2). -/
def execGuardTimeout (req : Nat) (s : State) : Res :=
  live s (fun s =>
    match look s.regif.pending req with
    | none => s
    | some p => guardReject 2 req p.1 1 { s with regif := { s.regif with pending := del s.regif.pending req } })

/-! ### Reads -/

/-- A read of a claim register (R565). -/
def claimTarget (sp : Space) (off : Nat) : Option Nat :=
  match sp with
  | .vf f => if 0x20200 ≤ off ∧ off < 0x20400 ∧ off % 8 = 0 then some (vectorTarget f ((off - 0x20200) / 8)) else none
  | _ => if 0xD6000 ≤ off ∧ off < 0xDA020 ∧ off % 8 = 0 then some ((off - 0xD6000) / 8) else none

/-- What a read does (R5, R565). SCHED_BELL_TIME is time, a free value of its range (R32; log entry 4). -/
def readEffect (a : Access) (w : Word) (s : State) : State :=
  match claimTarget a.space a.offset with
  | some t => readClaim t s
  | none =>
    match a.space with
    | .vf _ => emit (.readData w) s
    | _ =>
      if a.offset = 0x30014 then
        let (r, s1) := takeFree s
        emit (.readData (BitVec.ofNat 32 (r.toNat % 1666668))) s1
      else emit (.readData w) s

/-! ### Writes -/

/-- A write of a register whose fields are all read-only: the reserved bits are those of resv (R4, R562). -/
def roWrite (resv v : Word) (s : State) : Res := blockWrite resv v s (fun s => s)

/-- DEV (R499, R533, R569). -/
def writeDev (o : Nat) (v : Word) (s : State) : Res :=
  match o with
  | 0x40 => execDevErrPinWrite v s
  | 0x50 => execDevLatencyTolWrite v s
  | 0x04 => devWrite 0xFFFF00F8 v s (fun s => s)
  | 0x08 => devWrite 0xFFFF0000 v s (fun s => s)
  | 0x48 => devWrite 0xFFFF0000 v s (fun s => s)
  | 0x58 => devWrite 0x0000FF00 v s (fun s => s)
  | _ => devWrite 0 v s (fun s => s)

/-- REGIF (R570). -/
def writeRegif (o : Nat) (v : Word) (s : State) : Res :=
  roWrite (match o with | 0x00 => 0xFFFF0000 | 0x04 => 0x0F000000 | 0x10 => 0x00C00000 | _ => 0) v s

/-- PLAN (R68): DISCARD acts before STAGE. -/
def writePlan (o : Nat) (v : Word) (s : State) : Res :=
  let p := fun (f : Plan → Plan) (s : State) => { s with plan := f s.plan }
  match o with
  | 0x00 => blockWrite 7 v s (p (fun x => { x with addr := hiW x.addr ++ v }))
  | 0x04 => blockWrite 0 v s (p (fun x => { x with addr := v ++ loW x.addr }))
  | 0x08 => blockWrite 0xFF800000 v s (p (fun x => { x with len := v }))
  | 0x0C =>
    chain (chain (roWrite 0xFFFFFFFC v s) (fun s => if bit v 1 then execPlanDiscard s else .next s))
      (fun s => if bit v 0 then execPlanStage s else .next s)
  | 0x10 => roWrite 0xFFFF0CE8 v s
  | 0x14 => roWrite 0xFFFF0000 v s
  | _ => roWrite 0 v s

/-- SCHED (R18, R32, R119). -/
def writeSched (o : Nat) (v : Word) (s : State) : Res :=
  let p := fun (f : Sched → Sched) (s : State) => { s with sched := f s.sched }
  match o with
  | 0x00 => execSchedBellCfgWrite v s
  | 0x20 => blockWrite 0xFFFFFF00 v s (fun s => when (decide (s.plan.cfg.headroom ≤ fld v 7 0) && decide (fld v 7 0 ≤ 95)) (p (fun x => { x with burst := v })) s)
  | 0x24 => blockWrite 0x0000FFFE v s (p (fun x => { x with effort := if fld v 31 16 = 0 then merge x.effort 0x0000FFFF v else v }))
  | 0x50 => blockWrite 0xFFFC0000 v s (p (fun x => { x with phaseSel := v }))
  | 0x04 => roWrite 0xFFFFFF80 v s
  | 0x0C => roWrite 0xFFFFFF00 v s
  | 0x28 => roWrite 0xFFFF00FC v s
  | 0x2C => roWrite 0xFFFFE000 v s
  | 0x54 => roWrite 0x7FFF0000 v s
  | _ => roWrite 0 v s

/-- SESS (R97, R98). -/
def writeSess (o : Nat) (v : Word) (s : State) : Res :=
  let p := fun (f : Sess → Sess) (s : State) => { s with sess := f s.sess }
  match o with
  | 0x00 => execSessCtrlWrite v s
  | 0x08 => execSessDepotWmWrite 0 v s
  | 0x0C => execSessDepotWmWrite 1 v s
  | 0x10 => execSessDepotWmWrite 2 v s
  | 0x14 => execSessDepotWmWrite 3 v s
  | 0x18 => blockWrite 0x000000FE v s (p (fun x => { x with migrate := if fld v 15 8 = 0 ∨ 50 < fld v 15 8 then merge v 0x0000FF00 0x00000A00 else v }))
  | 0x50 => execSessCtxSelWrite v s
  | 0x04 => roWrite 0xFFFF0000 v s
  | 0x34 => roWrite 0xE000E000 v s
  | 0x54 => roWrite 0xFFFFFFFC v s
  | _ =>
    match inBank o 0x400 256, inBank o 0x20 5 with
    | some f, _ => blockWrite 0xFFFC0000 v s (p (fun x => { x with fnLimit := put x.fnLimit f (fld v 17 0) }))
    | none, some _ => roWrite 0xFFFC0000 v s
    | none, none => roWrite 0 v s

/-- INGEST (R147). Whether BAR2 is placed (0x0D0F) is the host's configuration, which the write does not bring: a free bit (log entry 21). -/
def writeIngest (o : Nat) (v : Word) (s : State) : Res :=
  match o with
  | 0x00 =>
    let (w, s1) := takeFree s
    execIngestCtrlWrite v (bit w 0) s1
  | 0x08 => blockWrite 0xFFFFFFF8 v s (when (decide (1 ≤ fld v 2 0) && decide (fld v 2 0 ≤ 4)) (fun s => { s with ingest := { s.ingest with stall := v } }))
  | 0x04 => roWrite 0xFFFF0000 v s
  | 0x0C => roWrite 0xFFFE0000 v s
  | 0x20 => roWrite 0x000F0000 v s
  | 0x24 => roWrite 0xFFFFFF00 v s
  | _ => roWrite 0 v s

/-- RC (R231). -/
def writeRc (o : Nat) (v : Word) (s : State) : Res :=
  match o with
  | 0x00 => execRcCtrlWrite v s
  | 0x08 => execRcDefaultsWrite 0 v s
  | 0x0C => execRcDefaultsWrite 1 v s
  | 0x10 => execRcDefaultsWrite 2 v s
  | 0x40 => blockWrite 0xFFFC0000 v s (fun s => { s with rc := { s.rc with sel := v } })
  | 0x04 => roWrite 0xFFFF0000 v s
  | 0x44 => roWrite 0x7FFC00FE v s
  | 0x54 => roWrite 0xFFFF0000 v s
  | _ => roWrite 0 v s

/-- DEC (R287). -/
def writeDec (o : Nat) (v : Word) (s : State) : Res :=
  match o with
  | 0x00 => execDecCtrlWrite v s
  | 0x08 => blockWrite 0xFFFFFFE0 v s (when (decide (2 ≤ fld v 4 0) && decide (fld v 4 0 ≤ 16)) (fun s => { s with dec := { s.dec with cfg := v } }))
  | 0x40 => blockWrite 0xFFFC0000 v s (fun s => { s with dec := { s.dec with sel := v } })
  | 0x04 => roWrite 0xFFFF0000 v s
  | 0x38 => roWrite 0xFE000000 v s
  | 0x44 => roWrite 0x7FFFF0E4 v s
  | 0x48 => roWrite 0xFFFF0000 v s
  | _ => roWrite 0 v s

/-- POOL (R369). -/
def writePool (o : Nat) (v : Word) (s : State) : Res :=
  match o with
  | 0x00 => execPoolCtrlWrite v s
  | 0x04 => roWrite 0xFFFF0000 v s
  | 0x50 => roWrite 0xFFE00000 v s
  | 0x78 => roWrite 0x1FFC0000 v s
  | 0x7C => roWrite 0xFFFF0000 v s
  | _ =>
    match inBank o 0x1000 1024 with
    | some k => execPoolFnQuotaWrite (k / 8) (k % 8) v s
    | none => roWrite (if o < 0x50 ∨ (0x2000 ≤ o ∧ o < 0x3000) then 0xFE000000 else 0) v s

/-- QUEUE (R370). -/
def writeQueue (o : Nat) (v : Word) (s : State) : Res :=
  match o with
  | 0x00 => execQueueCtrlWrite v s
  | 0x10 => execQueueSelWrite v s
  | 0x14 => blockWrite 0xFFFFFFFE v s (fun s => let q := fld s.queue.sel 16 0; { s with queue := { s.queue with queues := put s.queue.queues q { queueOf s q with mode := some (bit v 0) } } })
  | 0x1C => execQueueFlush v s
  | 0x04 => roWrite 0xFFFF0000 v s
  | 0x08 => roWrite 0xFFF80000 v s
  | 0x18 => roWrite 0x01FE0000 v s
  | _ => roWrite 0 v s

/-- A channel of the DMA engine (R403). -/
def writeChannel (c o : Nat) (v : Word) (s : State) : Res :=
  match o with
  | 0x00 => chain (roWrite 0xFFFFFFFE v s) (if bit v 0 then execDmaChEnable c else execDmaChDisable c)
  | 0x04 => execDmaChOwnerWrite 0 c v s
  | 0x08 => blockWrite 0x1F v s (fun s => setDma s c (fun x => { x with chain := hiW x.chain ++ v }))
  | 0x0C => blockWrite 0 v s (fun s => setDma s c (fun x => { x with chain := v ++ loW x.chain }))
  | 0x10 => execDmaChDb c s
  | 0x14 => roWrite 0x7FFF7F08 v s
  | 0x18 => roWrite 0xFFFF0000 v s
  | 0x28 => roWrite 0xFF000000 v s
  | _ => roWrite 0 v s

/-- DMA (R403). -/
def writeDma (o : Nat) (v : Word) (s : State) : Res :=
  match o with
  | 0x00 => blockWrite 0xFFFFFFF8 v s (fun s => { s with dma := { s.dma with retryLimit := v } })
  | 0x04 => roWrite 0 v s
  | _ => writeChannel ((o - 0x100) / 0x40) ((o - 0x100) % 0x40) v s

/-- An Ethernet port (R429). -/
def writePort (p o : Nat) (v : Word) (s : State) : Res :=
  match o with
  | 0x00 => execNetPortCfgWrite p v s
  | 0x08 => blockWrite 0 v s (portAddr p (fun x => { x with macLo := v }))
  | 0x0C => blockWrite 0xFFFF0000 v s (portAddr p (fun x => { x with macHi := v }))
  | 0x10 => blockWrite 0 v s (portAddr p (fun x => { x with ipv4 := v }))
  | 0x04 => roWrite 0xFFFFFF7C v s
  | 0x28 => roWrite 0xFFFF0000 v s
  | 0x2C => roWrite 0xC0000000 v s
  | _ =>
    match inBank o 0x14 4 with
    | some k => blockWrite 0 v s (portAddr p (fun x => { x with ipv6 := put x.ipv6 k v }))
    | none => roWrite 0 v s

/-- NET (R429). -/
def writeNet (o : Nat) (v : Word) (s : State) : Res :=
  match o with
  | 0x00 => execNetCtrlWrite v s
  | 0x0C => execNetPtpLatch v s
  | 0x200 => blockWrite 0xFFFF0000 v s (fun s => { s with net := { s.net with sel := v } })
  | 0x04 => roWrite 0xFFFF0000 v s
  | 0x08 => roWrite 0xFFFE0000 v s
  | 0x204 => roWrite 0x0800FF00 v s
  | 0x208 => roWrite 0xFFFC0000 v s
  | _ => if 0x100 ≤ o ∧ o < 0x180 then writePort ((o - 0x100) / 0x40) ((o - 0x100) % 0x40) v s else roWrite 0 v s

/-- TANDEM (R461). -/
def writeTandem (o : Nat) (v : Word) (s : State) : Res :=
  let p := fun (f : Tandem → Tandem) (s : State) => setTan s f
  match o with
  | 0x00 => execTandemCtrlWrite v s
  | 0x1C => blockWrite 0x0000FFF8 v s (p (fun t => { t with hbCfg := v }))
  | 0x30 => blockWrite 0x0000FF00 v s (p (fun t => { t with violCfg := windowLimit t.violCfg v }))
  | 0x34 => blockWrite 0xFFFFFF00 v s (when (decide (5 ≤ fld v 7 0) && decide (fld v 7 0 ≤ 75)) (p (fun t => { t with syncCfg := v })))
  | 0x84 => blockWrite 0xFFFFFFC0 v s (p (fun t => { t with violSel := v }))
  | 0x04 => roWrite 0xFFFF0000 v s
  | 0x0C => roWrite 0xFFFF03F8 v s
  | 0x14 => roWrite 0xFFFFFF00 v s
  | 0x70 => roWrite 0xFFFC0000 v s
  | 0x74 => roWrite 0xFFFC0000 v s
  | 0x80 => roWrite 0x0000FF80 v s
  | 0x90 => roWrite 0x00FF0000 v s
  | _ =>
    match inBank o 0x20 4 with
    | some k => blockWrite 0 v s (p (fun t => { t with altIp := put t.altIp k v }))
    | none => roWrite 0 v s

/-- IRQ (R481). -/
def writeIrq (o : Nat) (v : Word) (s : State) : Res :=
  match o with
  | 0x00 => roWrite 0xFFFF0000 v s
  | 0x04 => execIrqPendSet v s
  | _ =>
    match inBank o 0x1000 0xFFE with
    | some id => execIrqSrcCfgWrite id v s
    | none =>
      if 0x6000 ≤ o then (if o % 8 = 0 then roWrite 0xFFFFF000 v s else execIrqComplete ((o - 0x6000) / 8) v s)
      else roWrite 0 v s

/-- HELM (R315). -/
def writeHelm (o : Nat) (v : Word) (s : State) : Res :=
  match o with
  | 0x104 => blockWrite 0xFFFFFF80 v s (when (decide (fld v 6 0 ≤ 95)) (fun s => { s with mclib := { s.mclib with sel := v } }))
  | 0x100 => roWrite 0xFF00FF80 v s
  | 0x108 => roWrite 0x7FF00000 v s
  | 0x140 => roWrite 0xFFFF0000 v s
  | _ => roWrite 0 v s

/-- An EVERY field in bits 7:0 that keeps its value when 0 is written (R516, R517). -/
def everyKept (old v : Word) : Word := if fld v 7 0 = 0 then merge v 0xFF old else v

/-- BIST (R516). -/
def writeBist (o : Nat) (v : Word) (s : State) : Res :=
  match o with
  | 0x00 => execBistCtrlWrite v s
  | 0x08 => blockWrite 0xFFFFFC00 v s (fun s => { s with bist := { s.bist with cfg := everyKept s.bist.cfg v } })
  | 0x04 => roWrite 0xFFFF0000 v s
  | 0x0C => roWrite 0xFFFF0000 v s
  | _ => roWrite 0 v s

/-- A write of SEXT_SEL (R517): SET 3 keeps the set, an INDEX above 95 the index. -/
def sextSel (old v : Word) : Word :=
  merge (merge old (if fld v 9 8 = 3 then 0 else 0x300) v) (if 95 < fld v 6 0 then 0 else 0x7F) v

/-- SEXT (R517). -/
def writeSext (o : Nat) (v : Word) (s : State) : Res :=
  match o with
  | 0x00 => execSextCtrlWrite v s
  | 0x08 => blockWrite 0xFFFFFF00 v s (fun s => { s with sext := { s.sext with cfg := everyKept s.sext.cfg v } })
  | 0x10 => blockWrite 0xFFFFFC80 v s (fun s => { s with sext := { s.sext with sel := sextSel s.sext.sel v } })
  | 0x14 => execSextCoefGainWrite v s
  | 0x18 => execSextCoefOffsetWrite v s
  | 0x04 => roWrite 0xFFFF0000 v s
  | 0x0C => roWrite 0x3F800000 v s
  | 0x20 => roWrite 0x7FFFFF00 v s
  | _ => roWrite 0 v s

/-- PWR (R533). -/
def writePwr (o : Nat) (v : Word) (s : State) : Res :=
  match o with
  | 0x08 => blockWrite 0xFF0000F8 v s (pwrCfg v)
  | 0x10 => blockWrite 0x0F000000 v s (pwrTherm v)
  | 0x14 => blockWrite 0xFFFC0000 v s (pwrTherm2 v)
  | 0x1C => blockWrite 0xFFFFFFE0 v s (fun s => { s with pwr := { s.pwr with sel := v } })
  | 0x04 => roWrite 0xFFFF0000 v s
  | 0x0C => roWrite 0xFFFF0F88 v s
  | 0x18 => roWrite 0xFFE00000 v s
  | 0x20 => roWrite 0x7FFF0000 v s
  | _ => roWrite 0 v s

/-- A write of SEC_FLASH_CTRL (R555, R557). The bytes that OP 2 reads from host memory, and whether the read fails, are not part of the write: free
values (log entry 21). -/
def flashCtrl (v : Word) (s : State) : State :=
  match fld v 1 0 with
  | 1 => startErase s
  | 2 =>
    let (w, s1) := takeFree s
    let k := s1.freeCtr
    startProgram (if bit w 0 then some ((List.range s1.sec.flashLen.toNat).map (fun i => Config.freeByte k i)) else none) { s1 with freeCtr := k + 1 }
  | _ => s

/-- SEC (R557). -/
def writeSec (o : Nat) (v : Word) (s : State) : Res :=
  let ro := fun (m : Word) => devWrite m v s (fun s => s)
  match o with
  | 0x10 => devWrite 0xFFFFFFF0 v s (when (decide (fld v 3 0 ≤ 8)) (fun s => setSec s (fun x => { x with svnSel := fld v 3 0 })))
  | 0x28 => devWrite 0xFFFFFFF8 v s (when (decide (fld v 2 0 ≤ 5)) (fun s => setSec s (fun x => { x with measSel := fld v 2 0 })))
  | 0x2C => devWrite 0xFFFFFFFE v s (fun s => setSec s (fun x => { x with pubSel := fld v 0 0 }))
  | 0x200 => devWrite 0xFC000000 v s (fun s => setSec s (fun x => { x with flashAddr := v }))
  | 0x204 => devWrite 0 v s (fun s => setSec s (fun x => { x with flashHost := hiW x.flashHost ++ v }))
  | 0x208 => devWrite 0 v s (fun s => setSec s (fun x => { x with flashHost := v ++ loW x.flashHost }))
  | 0x20C => devWrite 0xFFFE0000 v s (fun s => setSec s (fun x => { x with flashLen := v }))
  | 0x210 => devWrite 0xFFFFFFFC v s (flashCtrl v)
  | 0x00 => ro 0xFFFF00F0
  | 0x04 => ro 0xFFFF0000
  | 0x08 => ro 0xFFFFFFFC
  | 0x0C => ro 0xFFFF0000
  | 0x14 => ro 0xFFFFFF80
  | 0x20 => ro 0xFFFFFF00
  | 0x24 => ro 0xFFFE0000
  | 0x214 => ro 0xFFFFFFFC
  | _ =>
    match inBank o 0x40 12 with
    | some k => devWrite 0 v s (fun s => setSec s (fun x => { x with hashRegs := put x.hashRegs k v }))
    | none => ro 0

/-- A refused or out-of-range write of the memory controller (R343). -/
def memcRefuse (code : Code) (s : State) : State := { s with memc := { s.memc with reason := code } }

/-- May a spare rank be held (R329)? Before training finds the DIMMs the population is not known, and training checks it then (log entry 22). -/
def spareOk (s : State) : Bool :=
  decide (s.memc.dpc = 0) ||
    (decide (1 < s.memc.dpc * s.memc.ranks) && decide (384 * 10 ^ 9 ≤ 12 * (s.memc.dpc * s.memc.ranks - 1) * rankCap s))

/-- A write of MEMC_RETIRE_CFG (R329, R343): a LIMIT of 0 keeps the old limit. -/
def retireCfg (v : Word) (s : State) : State :=
  let w := if fld v 3 0 = 0 then merge v 0xF s.memc.retireCfg else v
  let keep := { s with memc := { s.memc with retireCfg := merge w 0x100 s.memc.retireCfg } }
  if bit v 8 = bit s.memc.retireCfg 8 then { s with memc := { s.memc with retireCfg := w } }
  else if s.memc.en then memcRefuse 0x0E06 keep
  else if bit v 8 && !spareOk s then memcRefuse 0x0E07 keep
  else { s with memc := { s.memc with retireCfg := w } }

/-- MEMC global (R343). -/
def writeMemc (o : Nat) (v : Word) (s : State) : Res :=
  match o with
  | 0x00 => execMemcCtrlWrite v s
  | 0x18 => blockWrite 0xFFFF00FE v s (fun s =>
      if fld v 15 8 = 0 ∨ 168 < fld v 15 8 then
        memcRefuse 0x0E09 { s with memc := { s.memc with scrubCfg := merge s.memc.scrubCfg 1 v } }
      else { s with memc := { s.memc with scrubCfg := v } })
  | 0x20 => blockWrite 0x7FFFC000 v s (fun s =>
      if fld v 13 0 < 512 ∨ 8192 < fld v 13 0 then
        memcRefuse 0x0E08 { s with memc := { s.memc with rhCfg := merge s.memc.rhCfg 0x80000000 v } }
      else { s with memc := { s.memc with rhCfg := v } })
  | 0x24 => blockWrite 0xFFFFFEF0 v s (retireCfg v)
  | 0x2C => blockWrite 0xFFFFFC00 v s (fun s => { s with memc := { s.memc with retireSel := v } })
  | 0x04 => roWrite 0xFFFF0000 v s
  | 0x0C => roWrite 0xFFFF0000 v s
  | 0x10 => roWrite 0xFFF000F0 v s
  | 0x28 => roWrite 0xFFFFF800 v s
  | 0x34 => roWrite 0xFFFFF08C v s
  | _ => roWrite 0 v s

/-- A memory channel (R344). -/
def writeChan (o : Nat) (v : Word) (s : State) : Res :=
  roWrite (match o with | 0x00 => 0xFFFF0070 | 0x1C => 0x00020000 | 0x20 => 0x00001FFE | 0x24 => 0xFF000000 | _ => 0) v s

/-- A Quarter (R69, R120, R314): a write of ENABLE's own value does nothing. -/
def writeQtr (q o : Nat) (v : Word) (s : State) : Res :=
  match o with
  | 0x00 =>
    chain (roWrite 0xFFFFFFFE v s) (fun s =>
      if !answers s || (bit v 0 == (qtrOf s q).en) then .next s else if bit v 0 then execQtrEnable q s else execQtrDisable q s)
  | 0x30 => blockWrite 0xFFFFF800 v s (when (decide (1 ≤ fld v 10 0) && decide (fld v 10 0 ≤ 1024)) (fun s => setQtr s q (fun t => { t with weight := fld v 10 0 })))
  | 0x04 => roWrite 0xFFFFFF00 v s
  | 0x08 => roWrite 0xFFFF0000 v s
  | 0x10 => roWrite 0xFFFC0000 v s
  | 0x28 => roWrite 0xFFFFFFF0 v s
  | _ => roWrite 0 v s

/-- An engine's registers are read-only (R313). -/
def writeEngine (o : Nat) (v : Word) (s : State) : Res :=
  roWrite (match o with
    | 0x00 => 0xFFFF00F8 | 0x04 => 0xE000E000 | 0x08 => 0x0000FFF0 | 0x0C => 0x00FC0000 | 0x18 => 0x0003C0C0 | _ => 0) v s

/-- A watch (R498). -/
def writeWatch (w o : Nat) (v : Word) (s : State) : Res :=
  match o with
  | 0x00 => execWatchStatusWrite w v s
  | 0x04 => execWatchCfgWrite w v s
  | 0x08 => blockWrite 0 v s (fun s => watchLevel w (setWatch s w (fun x => { x with ie := v })))
  | 0x10 => blockWrite 0xFFFFFFF8 v s (fun s => setWatch s w (fun x => { x with histSel := v }))
  | 0x0C => roWrite 0xFFFFF0FC v s
  | 0x1C => roWrite 0x1F0F0000 v s
  | _ => roWrite 0 v s

/-- A ring's BASE or CFG register (R378): refused while the ring is enabled. -/
def ringCfg (en : Bool) (no yes : State → State) (s : State) : State := if en then no s else yes s

/-- A command ring (R402). -/
def writeCmdRing (f r o : Nat) (v : Word) (s : State) : Res :=
  let x := cmdOf s f r
  let no := fun s => setCmd s f r (fun y => { y with reason := 0x0406 })
  match o with
  | 0x00 => fnWrite f 0xFFF v s (ringCfg x.en no (fun s => setCmd s f r (fun y => { y with base := hiW y.base ++ v })))
  | 0x04 => fnWrite f 0 v s (ringCfg x.en no (fun s => setCmd s f r (fun y => { y with base := v ++ loW y.base })))
  | 0x08 => fnWrite f 0xFFFFF8E0 v s (ringCfg x.en no (fun s => setCmd s f r (fun y => { y with cfg := v })))
  | 0x0C => execCmdqCtrlWrite f r v s
  | 0x14 => execCmdqTailDb f r v s
  | 0x10 => fnWrite f 0xFFFF0000 v s (fun s => s)
  | 0x1C => fnWrite f 0xFFFE0000 v s (fun s => s)
  | _ => fnWrite f 0 v s (fun s => s)

/-- A completion ring (R402). -/
def writeCqRing (f r o : Nat) (v : Word) (s : State) : Res :=
  let x := cqOf s f r
  let no := fun s => setCq s f r (fun y => { y with reason := 0x0406 })
  match o with
  | 0x00 => fnWrite f 0xFFF v s (ringCfg x.en no (fun s => setCq s f r (fun y => { y with base := hiW y.base ++ v })))
  | 0x04 => fnWrite f 0 v s (ringCfg x.en no (fun s => setCq s f r (fun y => { y with base := v ++ loW y.base })))
  | 0x08 => fnWrite f 0xFFFFFFE0 v s (ringCfg x.en no (fun s => setCq s f r (fun y => { y with cfg := v })))
  | 0x0C => execCqCtrlWrite f r v s
  | 0x14 => execCqHeadDb f r v s
  | 0x10 => fnWrite f 0xFFFF0000 v s (fun s => s)
  | 0x1C => fnWrite f 0xFFFFFFFC v s (fun s => s)
  | _ => fnWrite f 0 v s (fun s => s)

/-- The event queue and the interrupt view of a function (R482). -/
def writeEvq (f o : Nat) (v : Word) (s : State) : Res :=
  let e := (fnOf s f).ev
  let p := fun (g : EvQ → EvQ) => ringCfg e.en (evqRefuse f 0x0406) (fun s => setFn s f (fun x => { x with ev := g x.ev }))
  match o with
  | 0x00 => fnWrite f 0xFFF v s (p (fun e => { e with base := hiW e.base ++ v }))
  | 0x04 => fnWrite f 0 v s (p (fun e => { e with base := v ++ loW e.base }))
  | 0x08 => fnWrite f 0xFFFFFFE0 v s (p (fun e => { e with cfg := v }))
  | 0x0C => execEvqCtrlWrite f v s
  | 0x14 => execEvqHeadDb f v s
  | 0x24 => execFnIrqPendSet f v s
  | 0x10 => fnWrite f 0xFFFF0000 v s (fun s => s)
  | 0x1C => fnWrite f 0xFFFFFFF8 v s (fun s => s)
  | _ =>
    match inBank o 0x100 15, inBank o 0x140 8 with
    | some j, _ => execFnIrqSrcCfgWrite f j v s
    | none, some k => execFnIrqDmaCfgWrite f k v s
    | none, none => if 0x200 ≤ o ∧ o % 8 = 4 then execFnIrqComplete f ((o - 0x200) / 8) v s else fnWrite f 0 v s (fun s => s)

/-- A word of a VF's MSI-X table (R473). -/
def writeMsix (f vec k : Nat) (v : Word) (s : State) : Res :=
  let p := fun (g : MsixEntry → MsixEntry) (s : State) =>
    { s with irq := { s.irq with msix := put s.irq.msix (vectorTarget f vec) (g (msixOf s (vectorTarget f vec))) } }
  match k with
  | 0 => fnWrite f 0 v s (p (fun x => { x with addrLo := v }))
  | 1 => fnWrite f 0 v s (p (fun x => { x with addrHi := v }))
  | 2 => fnWrite f 0 v s (p (fun x => { x with data := v }))
  | _ => chain (fnWrite f 0xFFFFFFFE v s (fun s => s)) (execMsixMaskWrite f vec (bit v 0))

/-- A function window (R377). A 4-byte write of a fence doorbell is no fence (R127, R128). -/
def writeFn (f o : Nat) (v : Word) (s : State) : Res :=
  if o < 0x200 then writeCmdRing f (o / 0x40) (o % 0x40) v s
  else if o < 0x400 then writeCqRing f ((o - 0x200) / 0x40) (o % 0x40) v s
  else if o < 0x1200 then
    let k := (o - 0x1000) / 0x40
    match slotChannel s f k with
    | none => .next s
    | some c => if o % 0x40 = 4 then execDmaChOwnerWrite f (if f = 0 then c else k) v s else writeChannel c (o % 0x40) v s
  else if o < 0x18000 then execRowFence { fn := f, index := (o - 0x10000) / 8, value := v.zeroExtend 64, ok8 := false, rid := 0 } s
  else if o < 0x21000 then writeEvq f (o - 0x20000) v s
  else if 0x3E000 ≤ o ∧ o < 0x3E400 then writeMsix f ((o - 0x3E000) / 16) ((o - 0x3E000) / 4 % 4) v s
  else fnWrite f 0 v s (fun s => s)

/-- A block's register (R572). -/
def writeBlock (w o : Nat) (v : Word) (s : State) : Res :=
  if 0xF000 ≤ o then writeWatch w (o - 0xF000) v s
  else if 32 ≤ w then writeQtr (w - 32) o v s
  else if 20 ≤ w then writeChan o v s
  else
    match w with
    | 0 => writeDev o v s
    | 1 => writeRegif o v s
    | 2 => writePlan o v s
    | 3 => writeSched o v s
    | 4 => writeSess o v s
    | 5 => writeIngest o v s
    | 6 => writeRc o v s
    | 7 => writeDec o v s
    | 8 => writePool o v s
    | 9 => writeQueue o v s
    | 10 => writeDma o v s
    | 11 => writeNet o v s
    | 12 => writeTandem o v s
    | 13 => writeIrq o v s
    | 14 => writeHelm o v s
    | 15 => writeBist o v s
    | 16 => writeSext o v s
    | 17 => writePwr o v s
    | 18 => writeSec o v s
    | _ => writeMemc o v s

/-- A write through the map of PF BAR0 (R571) by guarded-write requester req. -/
def writePf (req off : Nat) (v : Word) (s : State) : Res :=
  if guarded off then .next (guardFirst req off v (wakeBy (reqSpace req) s))
  else if off < 0x300000 then writeBlock (off / 0x10000) (off % 0x10000) v s
  else if off < 0x400000 then writeEngine (off % 0x800) v s
  else if off < 0x1400000 then guardSecond req (off - 0x1000000) v (wakeBy (reqSpace req) s)
  else writeFn 0 (off - 0x2000000) v s

/-- A Helm core's access is no wake event (R525): what the write's own path took for a PCIe access is undone, unless an enabled source that was
not pending became pending, or the write named the wake itself. -/
def helmQuiet (off : Nat) (s t : State) : State :=
  if off = 0x50 ∨ t.irq.pend.any (fun i => (routeOf t i).en && !has s.irq.pend i) = true then t
  else { t with pwr := { t.pwr with exiting := s.pwr.exiting, exitTo := s.pwr.exitTo, wakeCount := s.pwr.wakeCount } }

/-- A write of a register of a space. -/
def writeSpace (a : Access) (s : State) : Res :=
  match a.space with
  | .pf => writePf 0 a.offset a.value s
  | .helm c => chain (writePf (c + 1) a.offset a.value s) (fun t => .next (helmQuiet a.offset s t))
  | .vf f => writeFn f a.offset a.value s

/-- REGISTER_WRITE (R4, R5, R558 to R563): one 32-bit access. -/
def execRegisterWrite (a : Access) (s : State) : Res :=
  onAccess a s (fun s =>
    if a.offset % 4 ≠ 0 then .next (readsAs a 0 (logAccess 0x0B03 a (wakeBy a.space s)))
    else
      match readSpace s a.space a.offset with
      | none => .next (readsAs a 0 (logAccess 0x0B02 a (wakeBy a.space s)))
      | some w => if a.write then writeSpace a s else .next (readEffect a w (wakeBy a.space s)))

end Sys2Proof.Machine
end

