-- ==== Sys2Proof/Machine/Dispatch.lean ====
section
/-! DEFINITION. The dispatch of the commands: one arm per constructor of Instr, each one direct call of its meaning. -/

namespace Sys2Proof.Machine

open Sys2Proof

def exec (i : Instr) (s : State) : Host.Outcome State Fault Refusal :=
  match i with
  | .bellStart env => Sys2Proof.Machine.execBellStart env s
  | .fenceCut => Sys2Proof.Machine.execFenceCut s
  | .guardOpen => Sys2Proof.Machine.execGuardOpen s
  | .retrainPause ch drift vref => Sys2Proof.Machine.execRetrainPause ch drift vref s
  | .pagingBurst bad => Sys2Proof.Machine.execPagingBurst bad s
  | .heartbeatSend => Sys2Proof.Machine.execHeartbeatSend s
  | .sextantApply => Sys2Proof.Machine.execSextantApply s
  | .bellInEdge offset => Sys2Proof.Machine.execBellInEdge offset s
  | .bellEdgeMissing => Sys2Proof.Machine.execBellEdgeMissing s
  | .schedBellCfgWrite value => Sys2Proof.Machine.execSchedBellCfgWrite value s
  | .helmHeartbeatTimeout core => Sys2Proof.Machine.execHelmHeartbeatTimeout core s
  | .boulevardRequest r => Sys2Proof.Machine.execBoulevardRequest r s
  | .requestRetryTimeout r => Sys2Proof.Machine.execRequestRetryTimeout r s
  | .detourReissue r => Sys2Proof.Machine.execDetourReissue r s
  | .drainedReplySink quarter mark => Sys2Proof.Machine.execDrainedReplySink quarter mark s
  | .planLoad h addr len pad => Sys2Proof.Machine.execPlanLoad h addr len pad s
  | .planStage => Sys2Proof.Machine.execPlanStage s
  | .planDiscard => Sys2Proof.Machine.execPlanDiscard s
  | .planCopyDone bytes => Sys2Proof.Machine.execPlanCopyDone bytes s
  | .planCheckDone line ecc => Sys2Proof.Machine.execPlanCheckDone line ecc s
  | .planApply => Sys2Proof.Machine.execPlanApply s
  | .planApplyTakeEffect => Sys2Proof.Machine.execPlanApplyTakeEffect s
  | .applyStepAdvance => Sys2Proof.Machine.execApplyStepAdvance s
  | .qtrEnable quarter => Sys2Proof.Machine.execQtrEnable quarter s
  | .qtrDisable quarter => Sys2Proof.Machine.execQtrDisable quarter s
  | .qtrRezoneGo quarter => Sys2Proof.Machine.execQtrRezoneGo quarter s
  | .qtrRezoneRetire quarter => Sys2Proof.Machine.execQtrRezoneRetire quarter s
  | .rezoneGo h quarter pad => Sys2Proof.Machine.execRezoneGo h quarter pad s
  | .rezoneRetire h quarter pad => Sys2Proof.Machine.execRezoneRetire h quarter pad s
  | .quarterClosingEdge quarter => Sys2Proof.Machine.execQuarterClosingEdge quarter s
  | .quarterDrained quarter => Sys2Proof.Machine.execQuarterDrained quarter s
  | .quarterEnterTarget quarter => Sys2Proof.Machine.execQuarterEnterTarget quarter s
  | .quarterLoadDone quarter ok => Sys2Proof.Machine.execQuarterLoadDone quarter ok s
  | .quarterBistDone quarter ok => Sys2Proof.Machine.execQuarterBistDone quarter ok s
  | .openSession h o => Sys2Proof.Machine.execOpenSession h o s
  | .configureStream h o pad => Sys2Proof.Machine.execConfigureStream h o pad s
  | .configureRate h o => Sys2Proof.Machine.execConfigureRate h o s
  | .configureResilience h o => Sys2Proof.Machine.execConfigureResilience h o s
  | .configureHostTransport h o => Sys2Proof.Machine.execConfigureHostTransport h o s
  | .submitFrameAperture h o => Sys2Proof.Machine.execSubmitFrameAperture h o s
  | .submitFrameHost h o => Sys2Proof.Machine.execSubmitFrameHost h o s
  | .park h pad => Sys2Proof.Machine.execPark h pad s
  | .parkCold h pad => Sys2Proof.Machine.execParkCold h pad s
  | .resume h pad => Sys2Proof.Machine.execResume h pad s
  | .close h pad => Sys2Proof.Machine.execClose h pad s
  | .setRateBounds h o => Sys2Proof.Machine.execSetRateBounds h o s
  | .feedbackAck h frame pad => Sys2Proof.Machine.execFeedbackAck h frame pad s
  | .feedbackLoss h frame pad => Sys2Proof.Machine.execFeedbackLoss h frame pad s
  | .feedbackKeyRequest h pad => Sys2Proof.Machine.execFeedbackKeyRequest h pad s
  | .feedbackRateReport h loss est pad => Sys2Proof.Machine.execFeedbackRateReport h loss est pad s
  | .keyLoad h o => Sys2Proof.Machine.execKeyLoad h o s
  | .keyErase h o => Sys2Proof.Machine.execKeyErase h o s
  | .attachReceiver h o => Sys2Proof.Machine.execAttachReceiver h o s
  | .attachIngress h o => Sys2Proof.Machine.execAttachIngress h o s
  | .bindRxQueue h o => Sys2Proof.Machine.execBindRxQueue h o s
  | .detachReceiver h flow pad => Sys2Proof.Machine.execDetachReceiver h flow pad s
  | .unbindRxQueue h queue pad => Sys2Proof.Machine.execUnbindRxQueue h queue pad s
  | .decodeBind h o => Sys2Proof.Machine.execDecodeBind h o s
  | .decodeData h o => Sys2Proof.Machine.execDecodeData h o s
  | .decodeRelease h index pad => Sys2Proof.Machine.execDecodeRelease h index pad s
  | .decodeFlush h pad => Sys2Proof.Machine.execDecodeFlush h pad s
  | .snapshotSession h addr pad => Sys2Proof.Machine.execSnapshotSession h addr pad s
  | .snapshotFunction h addr pad => Sys2Proof.Machine.execSnapshotFunction h addr pad s
  | .commandEntryInvalid e => Sys2Proof.Machine.execCommandEntryInvalid e s
  | .parkComplete handle => Sys2Proof.Machine.execParkComplete handle s
  | .closeComplete handle => Sys2Proof.Machine.execCloseComplete handle s
  | .resumeComplete handle => Sys2Proof.Machine.execResumeComplete handle s
  | .idleLimitReached handle => Sys2Proof.Machine.execIdleLimitReached handle s
  | .sessCtrlWrite value => Sys2Proof.Machine.execSessCtrlWrite value s
  | .sessDepotWmWrite which value => Sys2Proof.Machine.execSessDepotWmWrite which value s
  | .sessCtxSelWrite value => Sys2Proof.Machine.execSessCtxSelWrite value s
  | .sessCtxCopyDone => Sys2Proof.Machine.execSessCtxCopyDone s
  | .effortLower handle => Sys2Proof.Machine.execEffortLower handle s
  | .effortRaise handle => Sys2Proof.Machine.execEffortRaise handle s
  | .bucketBoundary handle => Sys2Proof.Machine.execBucketBoundary handle s
  | .workUnitStart u => Sys2Proof.Machine.execWorkUnitStart u s
  | .tileRowEntropyStart t engine => Sys2Proof.Machine.execTileRowEntropyStart t engine s
  | .tileRowCoded t res => Sys2Proof.Machine.execTileRowCoded t res s
  | .bandCheck handle res => Sys2Proof.Machine.execBandCheck handle res s
  | .fallbackBandCommit handle res => Sys2Proof.Machine.execFallbackBandCommit handle res s
  | .packetizeBand handle pkts => Sys2Proof.Machine.execPacketizeBand handle pkts s
  | .bandDone handle => Sys2Proof.Machine.execBandDone handle s
  | .frameDone handle => Sys2Proof.Machine.execFrameDone handle s
  | .apertureWrite w => Sys2Proof.Machine.execApertureWrite w s
  | .apertureRead page => Sys2Proof.Machine.execApertureRead page s
  | .rowFence f => Sys2Proof.Machine.execRowFence f s
  | .frameTruncate handle => Sys2Proof.Machine.execFrameTruncate handle s
  | .hostRowsRead handle rows ok pieces => Sys2Proof.Machine.execHostRowsRead handle rows ok pieces s
  | .ingestCtrlWrite value barOk => Sys2Proof.Machine.execIngestCtrlWrite value barOk s
  | .rcCtrlWrite value => Sys2Proof.Machine.execRcCtrlWrite value s
  | .rcDefaultsWrite which value => Sys2Proof.Machine.execRcDefaultsWrite which value s
  | .auReorderTimeout handle info => Sys2Proof.Machine.execAuReorderTimeout handle info s
  | .dataCopyDone handle info bytes => Sys2Proof.Machine.execDataCopyDone handle info bytes s
  | .decodeOutput handle pic => Sys2Proof.Machine.execDecodeOutput handle pic s
  | .protectedFillDone buf => Sys2Proof.Machine.execProtectedFillDone buf s
  | .decCtrlWrite value => Sys2Proof.Machine.execDecCtrlWrite value s
  | .microwordIssue engine mw => Sys2Proof.Machine.execMicrowordIssue engine mw s
  | .markWordComplete engine => Sys2Proof.Machine.execMarkWordComplete engine s
  | .markWatchdog engine => Sys2Proof.Machine.execMarkWatchdog engine s
  | .selfShadowCheck handle first second => Sys2Proof.Machine.execSelfShadowCheck handle first second s
  | .selfShadowAbandon handle => Sys2Proof.Machine.execSelfShadowAbandon handle s
  | .caParityError ch failed => Sys2Proof.Machine.execCaParityError ch failed s
  | .rankSpareCopyDone ch => Sys2Proof.Machine.execRankSpareCopyDone ch s
  | .refreshInterval ch => Sys2Proof.Machine.execRefreshInterval ch s
  | .dimmTempPoll ch hot => Sys2Proof.Machine.execDimmTempPoll ch hot s
  | .trackerWindowReset ch => Sys2Proof.Machine.execTrackerWindowReset ch s
  | .throttleExpiry ch req => Sys2Proof.Machine.execThrottleExpiry ch req s
  | .dramInitDone => Sys2Proof.Machine.execDramInitDone s
  | .scrubRead ecc => Sys2Proof.Machine.execScrubRead ecc s
  | .memcMapWrite value => Sys2Proof.Machine.execMemcMapWrite value s
  | .memcCtrlWrite value => Sys2Proof.Machine.execMemcCtrlWrite value s
  | .allocate id who size promote => Sys2Proof.Machine.execAllocate id who size promote s
  | .claim id who buf => Sys2Proof.Machine.execClaim id who buf s
  | .release id who buf token => Sys2Proof.Machine.execRelease id who buf token s
  | .poolRelayout => Sys2Proof.Machine.execPoolRelayout s
  | .queueBeatWrite queue producer start beat => Sys2Proof.Machine.execQueueBeatWrite queue producer start beat s
  | .queueRead queue => Sys2Proof.Machine.execQueueRead queue s
  | .queueStallRelease queue => Sys2Proof.Machine.execQueueStallRelease queue s
  | .queueReserve queue producer beats => Sys2Proof.Machine.execQueueReserve queue producer beats s
  | .queueFlush value => Sys2Proof.Machine.execQueueFlush value s
  | .flushEnd queue => Sys2Proof.Machine.execFlushEnd queue s
  | .poolCtrlWrite value => Sys2Proof.Machine.execPoolCtrlWrite value s
  | .poolFnQuotaWrite fn cls value => Sys2Proof.Machine.execPoolFnQuotaWrite fn cls value s
  | .queueCtrlWrite value => Sys2Proof.Machine.execQueueCtrlWrite value s
  | .queueSelWrite value => Sys2Proof.Machine.execQueueSelWrite value s
  | .vfEnable count => Sys2Proof.Machine.execVfEnable count s
  | .vfDisable => Sys2Proof.Machine.execVfDisable s
  | .cmdqCtrlWrite fn ring value => Sys2Proof.Machine.execCmdqCtrlWrite fn ring value s
  | .cqCtrlWrite fn ring value => Sys2Proof.Machine.execCqCtrlWrite fn ring value s
  | .cmdqTailDb fn ring value => Sys2Proof.Machine.execCmdqTailDb fn ring value s
  | .commandFetch fn ring count fence => Sys2Proof.Machine.execCommandFetch fn ring count fence s
  | .completionPost fn ring ok => Sys2Proof.Machine.execCompletionPost fn ring ok s
  | .cqHeadDb fn ring value => Sys2Proof.Machine.execCqHeadDb fn ring value s
  | .dmaChEnable ch => Sys2Proof.Machine.execDmaChEnable ch s
  | .dmaChDisable ch => Sys2Proof.Machine.execDmaChDisable ch s
  | .dmaChDb ch => Sys2Proof.Machine.execDmaChDb ch s
  | .descriptorFetched ch d => Sys2Proof.Machine.execDescriptorFetched ch d s
  | .descriptorComplete ch data diff => Sys2Proof.Machine.execDescriptorComplete ch data diff s
  | .dmaRetry ch => Sys2Proof.Machine.execDmaRetry ch s
  | .dmaChOwnerWrite fn ch value => Sys2Proof.Machine.execDmaChOwnerWrite fn ch value s
  | .linkStateChange port up => Sys2Proof.Machine.execLinkStateChange port up s
  | .rxFrame f => Sys2Proof.Machine.execRxFrame f s
  | .shaperRefill => Sys2Proof.Machine.execShaperRefill s
  | .policerRefill => Sys2Proof.Machine.execPolicerRefill s
  | .portTxSelect port => Sys2Proof.Machine.execPortTxSelect port s
  | .senderReportTimer => Sys2Proof.Machine.execSenderReportTimer s
  | .rxqRaiseHoldoff fn queue => Sys2Proof.Machine.execRxqRaiseHoldoff fn queue s
  | .detachComplete flow => Sys2Proof.Machine.execDetachComplete flow s
  | .netCtrlWrite value => Sys2Proof.Machine.execNetCtrlWrite value s
  | .netPortCfgWrite port value => Sys2Proof.Machine.execNetPortCfgWrite port value s
  | .netPtpLatch value => Sys2Proof.Machine.execNetPtpLatch value s
  | .ppsInEdge port => Sys2Proof.Machine.execPpsInEdge port s
  | .ppsOutSecond port => Sys2Proof.Machine.execPpsOutSecond port s
  | .tandemCtrlWrite value => Sys2Proof.Machine.execTandemCtrlWrite value s
  | .tandemRoleWrite value => Sys2Proof.Machine.execTandemRoleWrite value s
  | .tandemHello lanes => Sys2Proof.Machine.execTandemHello lanes s
  | .tandemAuth ok partnerBell => Sys2Proof.Machine.execTandemAuth ok partnerBell s
  | .authRetry => Sys2Proof.Machine.execAuthRetry s
  | .linkRetransmit seq => Sys2Proof.Machine.execLinkRetransmit seq s
  | .mirror m => Sys2Proof.Machine.execMirror m s
  | .shadowDecodeDone handle v => Sys2Proof.Machine.execShadowDecodeDone handle v s
  | .shadowRecheckDone handle v => Sys2Proof.Machine.execShadowRecheckDone handle v s
  | .tandemAck link handle frame kind => Sys2Proof.Machine.execTandemAck link handle frame kind s
  | .ackTimeout handle => Sys2Proof.Machine.execAckTimeout handle s
  | .tandemConfig link handle cmd => Sys2Proof.Machine.execTandemConfig link handle cmd s
  | .tandemConfigReply link handle code => Sys2Proof.Machine.execTandemConfigReply link handle code s
  | .tandemNak link code => Sys2Proof.Machine.execTandemNak link code s
  | .heartbeat m => Sys2Proof.Machine.execHeartbeat m s
  | .heartbeatMissed => Sys2Proof.Machine.execHeartbeatMissed s
  | .tandemNotice kind => Sys2Proof.Machine.execTandemNotice kind s
  | .takeover => Sys2Proof.Machine.execTakeover s
  | .shadowSync handle => Sys2Proof.Machine.execShadowSync handle s
  | .syncDone => Sys2Proof.Machine.execSyncDone s
  | .handover handle => Sys2Proof.Machine.execHandover handle s
  | .irqMessage target => Sys2Proof.Machine.execIrqMessage target s
  | .irqClaim target => Sys2Proof.Machine.execIrqClaim target s
  | .irqComplete target value => Sys2Proof.Machine.execIrqComplete target value s
  | .irqPendSet value => Sys2Proof.Machine.execIrqPendSet value s
  | .irqSrcCfgWrite id value => Sys2Proof.Machine.execIrqSrcCfgWrite id value s
  | .fnIrqClaim fn vec => Sys2Proof.Machine.execFnIrqClaim fn vec s
  | .fnIrqComplete fn vec value => Sys2Proof.Machine.execFnIrqComplete fn vec value s
  | .fnIrqPendSet fn value => Sys2Proof.Machine.execFnIrqPendSet fn value s
  | .fnIrqSrcCfgWrite fn src value => Sys2Proof.Machine.execFnIrqSrcCfgWrite fn src value s
  | .fnIrqDmaCfgWrite fn src value => Sys2Proof.Machine.execFnIrqDmaCfgWrite fn src value s
  | .msixMaskWrite fn vec mask => Sys2Proof.Machine.execMsixMaskWrite fn vec mask s
  | .evqCtrlWrite fn value => Sys2Proof.Machine.execEvqCtrlWrite fn value s
  | .evqHeadDb fn value => Sys2Proof.Machine.execEvqHeadDb fn value s
  | .eventRecordPost fn ok => Sys2Proof.Machine.execEventRecordPost fn ok s
  | .watchEvent watch kind code inj place => Sys2Proof.Machine.execWatchEvent watch kind code inj place s
  | .errPulseEnd => Sys2Proof.Machine.execErrPulseEnd s
  | .watchStatusWrite watch value => Sys2Proof.Machine.execWatchStatusWrite watch value s
  | .watchCfgWrite watch value => Sys2Proof.Machine.execWatchCfgWrite watch value s
  | .watchInject watch value => Sys2Proof.Machine.execWatchInject watch value s
  | .devErrPinWrite value => Sys2Proof.Machine.execDevErrPinWrite value s
  | .bistTargetDone r => Sys2Proof.Machine.execBistTargetDone r s
  | .sextantMeasure m => Sys2Proof.Machine.execSextantMeasure m s
  | .sextCoefGainWrite value => Sys2Proof.Machine.execSextCoefGainWrite value s
  | .sextCoefOffsetWrite value => Sys2Proof.Machine.execSextCoefOffsetWrite value s
  | .sextCtrlWrite value => Sys2Proof.Machine.execSextCtrlWrite value s
  | .bistCtrlWrite value => Sys2Proof.Machine.execBistCtrlWrite value s
  | .engineGate engine => Sys2Proof.Machine.execEngineGate engine s
  | .engineUngate engine => Sys2Proof.Machine.execEngineUngate engine s
  | .hoveToEnter enter => Sys2Proof.Machine.execHoveToEnter enter s
  | .powerExitDone => Sys2Proof.Machine.execPowerExitDone s
  | .devLatencyTolWrite value => Sys2Proof.Machine.execDevLatencyTolWrite value s
  | .thermtrip sensor => Sys2Proof.Machine.execThermtrip sensor s
  | .perstFall => Sys2Proof.Machine.execPerstFall s
  | .perstRise straps => Sys2Proof.Machine.execPerstRise straps s
  | .bootRomDone misread => Sys2Proof.Machine.execBootRomDone misread s
  | .bootLoadDone misread => Sys2Proof.Machine.execBootLoadDone misread s
  | .bootTrainDone env => Sys2Proof.Machine.execBootTrainDone env s
  | .bootInitDone misread => Sys2Proof.Machine.execBootInitDone misread s
  | .devReset => Sys2Proof.Machine.execDevReset s
  | .i3cTelemetry => Sys2Proof.Machine.execI3cTelemetry s
  | .i3cResetArm => Sys2Proof.Machine.execI3cResetArm s
  | .i3cResetGo nonce => Sys2Proof.Machine.execI3cResetGo nonce s
  | .getVersion via => Sys2Proof.Machine.execGetVersion via s
  | .getCapabilities via => Sys2Proof.Machine.execGetCapabilities via s
  | .negotiateAlgorithms via => Sys2Proof.Machine.execNegotiateAlgorithms via s
  | .getDigests via => Sys2Proof.Machine.execGetDigests via s
  | .getCertificate via => Sys2Proof.Machine.execGetCertificate via s
  | .challenge via => Sys2Proof.Machine.execChallenge via s
  | .getMeasurements via => Sys2Proof.Machine.execGetMeasurements via s
  | .secFuseSvn value => Sys2Proof.Machine.execSecFuseSvn value s
  | .fuseOwnerProgram slot => Sys2Proof.Machine.execFuseOwnerProgram slot s
  | .fuseOwnerRevoke slot => Sys2Proof.Machine.execFuseOwnerRevoke slot s
  | .fuseBurnDone => Sys2Proof.Machine.execFuseBurnDone s
  | .flashErase => Sys2Proof.Machine.execFlashErase s
  | .flashProgram data => Sys2Proof.Machine.execFlashProgram data s
  | .flashOpDone ok => Sys2Proof.Machine.execFlashOpDone ok s
  | .guardedFirstWrite req off value => Sys2Proof.Machine.execGuardedFirstWrite req off value s
  | .guardWindowWrite req off value => Sys2Proof.Machine.execGuardWindowWrite req off value s
  | .guardTimeout req => Sys2Proof.Machine.execGuardTimeout req s
  | .accessSizeError a => Sys2Proof.Machine.execAccessSizeError a s
  | .unimplementedAccess a => Sys2Proof.Machine.execUnimplementedAccess a s
  | .registerWrite a => Sys2Proof.Machine.execRegisterWrite a s
  | .tandemLinkTrainsAgain => Sys2Proof.Machine.execTandemLinkTrainsAgain s
  | .dmaBusError ch err => Sys2Proof.Machine.execDmaBusError ch err s
  | .powerCycle straps => Sys2Proof.Machine.execPowerCycle straps s

end Sys2Proof.Machine
end

