-- ==== Sys2Proof/Safety.lean ====
section
/-! DEFINITION. What a run is and what counts as a safe one. -/

namespace Sys2Proof.Machine

open Sys2Proof

/-- The part runs: it is not thermally stopped (R531) and PERST_N is high. -/
abbrev Runs (s : State) : Prop := s.dev.stopped = false ∧ s.dev.perstN = true

/-- The part runs and every register window answers (R543). -/
abbrev Serves (s : State) : Prop := Runs s ∧ answers s = true

/-- The command ends in a next state, and P holds of it. -/
def Completes (i : Instr) (s : State) (P : State → Prop) : Prop := ∃ t, exec i s = .next t ∧ P t

/-- The command ring of a function is served: the part runs and the function is on (R377). -/
abbrev Hears (s : State) (h : Hdr) : Prop := Runs s ∧ fnOn s h.fn = true

/-- A session command is taken at once: outside the Guard window (R74) and with the session unit enabled (R97). -/
abbrev Takes (s : State) (h : Hdr) : Prop := Hears s h ∧ s.bell.window ≠ .guard ∧ s.sess.en = true

/-- A step that neither faults nor is refused. -/
def StepSafe (s : State) : Prop := ∃ t, step s = .next t

/-- The states that steps lead to, commands being put into the queue between steps. -/
inductive Reaches : State → State → Prop
  | refl (s : State) : Reaches s s
  | step {s t u : State} : Reaches s t → Machine.step t = .next u → Reaches s u
  | send {s t : State} (i : Instr) : Reaches s t → Reaches s { t with pending := t.pending ++ [i] }

/-- What every step keeps: DRAM and the flash are listed in their canonical form. -/
def Inv (s : State) : Prop := Memory.wf s.mem = true ∧ cellsWf flashDefault s.sec.flash = true

/-- A safe run from s: no step of it ends in a fault or a refusal. -/
def Safe (s : State) : Prop := ∀ t, Reaches s t → StepSafe t

/-- A burn of an SVN counter under way goes to a higher value than the counter has (R557). -/
def BurnRises (s : State) : Prop := ∀ c v, s.sec.burning = some (.svn c v) → svnOf s c < v

/-- The commands that may end in a full device reset (R554), register writes among them. -/
def mayReset : Instr → Bool
  | .perstFall => true
  | .powerCycle _ => true
  | .devReset => true
  | .i3cResetGo _ => true
  | .guardWindowWrite _ _ _ => true
  | .registerWrite _ => true
  | _ => false

/-- The commands that store to DRAM: what lands from host memory or is copied, what an engine or a bus agent writes, and what writes Depot records,
surfaces, reconstructions and the staging buffer. -/
def storesDram : Instr → Bool
  | .boulevardRequest _ => true | .requestRetryTimeout _ => true | .detourReissue _ => true | .descriptorComplete _ _ _ => true
  | .markWordComplete _ => true | .apertureWrite _ => true | .hostRowsRead _ _ _ _ => true | .dataCopyDone _ _ _ => true
  | .protectedFillDone _ => true | .bandCheck _ _ => true | .fallbackBandCommit _ _ => true | .bellStart _ => true
  | .fenceCut => true | .frameTruncate _ => true | .openSession _ _ => true | .tandemConfig _ _ _ => true
  | .tandemConfigReply _ _ _ => true | .tandemAck _ _ _ _ => true | .ackTimeout _ => true | .heartbeatMissed => true
  | .takeover => true | .pagingBurst _ => true | .planCopyDone _ => true | .bootInitDone _ => true
  | _ => false

/-- The commands that write a register. -/
def writesRegister : Instr → Bool
  | .schedBellCfgWrite _ => true | .planStage => true | .planDiscard => true | .planApply => true
  | .qtrEnable _ => true | .qtrDisable _ => true | .qtrRezoneGo _ => true | .qtrRezoneRetire _ => true
  | .sessCtrlWrite _ => true | .sessDepotWmWrite _ _ => true | .sessCtxSelWrite _ => true | .ingestCtrlWrite _ _ => true
  | .rcCtrlWrite _ => true | .rcDefaultsWrite _ _ => true | .decCtrlWrite _ => true | .memcMapWrite _ => true
  | .memcCtrlWrite _ => true | .queueFlush _ => true | .poolCtrlWrite _ => true | .poolFnQuotaWrite _ _ _ => true
  | .queueCtrlWrite _ => true | .queueSelWrite _ => true | .cmdqCtrlWrite _ _ _ => true | .cqCtrlWrite _ _ _ => true
  | .cmdqTailDb _ _ _ => true | .cqHeadDb _ _ _ => true | .dmaChEnable _ => true | .dmaChDisable _ => true
  | .dmaChDb _ => true | .dmaChOwnerWrite _ _ _ => true | .netCtrlWrite _ => true | .netPortCfgWrite _ _ => true
  | .netPtpLatch _ => true | .tandemCtrlWrite _ => true | .tandemRoleWrite _ => true | .irqComplete _ _ => true
  | .irqPendSet _ => true | .irqSrcCfgWrite _ _ => true | .fnIrqComplete _ _ _ => true | .fnIrqPendSet _ _ => true
  | .fnIrqSrcCfgWrite _ _ _ => true | .fnIrqDmaCfgWrite _ _ _ => true | .evqCtrlWrite _ _ => true | .evqHeadDb _ _ => true
  | .watchStatusWrite _ _ => true | .watchCfgWrite _ _ => true | .watchInject _ _ => true | .devErrPinWrite _ => true
  | .sextCoefGainWrite _ => true | .sextCoefOffsetWrite _ => true | .sextCtrlWrite _ => true | .bistCtrlWrite _ => true
  | .devLatencyTolWrite _ => true | .devReset => true | .secFuseSvn _ => true | .fuseOwnerProgram _ => true
  | .fuseOwnerRevoke _ => true | .flashErase => true | .flashProgram _ => true | .guardWindowWrite _ _ _ => true
  | .registerWrite _ => true
  | _ => false

/-- The header and opcode of a session command (R74). -/
def sessionHdr : Instr → Option (Hdr × Nat)
  | .openSession h _ => some (h, 1)
  | .configureStream h _ _ => some (h, 2)
  | .configureRate h _ => some (h, 2)
  | .configureResilience h _ => some (h, 2)
  | .configureHostTransport h _ => some (h, 2)
  | .submitFrameAperture h _ => some (h, 3)
  | .submitFrameHost h _ => some (h, 3)
  | .park h _ => some (h, 4)
  | .parkCold h _ => some (h, 4)
  | .resume h _ => some (h, 5)
  | .close h _ => some (h, 6)
  | .setRateBounds h _ => some (h, 7)
  | .feedbackAck h _ _ => some (h, 8)
  | .feedbackLoss h _ _ => some (h, 8)
  | .feedbackKeyRequest h _ => some (h, 8)
  | .feedbackRateReport h _ _ _ => some (h, 8)
  | .keyLoad h _ => some (h, 9)
  | .keyErase h _ => some (h, 9)
  | .attachReceiver h _ => some (h, 0x0A)
  | .decodeBind h _ => some (h, 0x0C)
  | .decodeData h _ => some (h, 0x0C)
  | .decodeRelease h _ _ => some (h, 0x0C)
  | .decodeFlush h _ => some (h, 0x0C)
  | .snapshotSession h _ _ => some (h, 0x0D)
  | _ => none

/-- The session commands whose token is looked up before any other check (R72). -/
def needsToken : Instr → Bool
  | .configureStream _ _ _ => true
  | .configureRate _ _ => true
  | .configureResilience _ _ => true
  | .configureHostTransport _ _ => true
  | .submitFrameAperture _ _ => true
  | .submitFrameHost _ _ => true
  | .park _ _ => true
  | .parkCold _ _ => true
  | .resume _ _ => true
  | .close _ _ => true
  | .setRateBounds _ _ => true
  | .feedbackAck _ _ _ => true
  | .feedbackLoss _ _ _ => true
  | .feedbackKeyRequest _ _ => true
  | .feedbackRateReport _ _ _ _ => true
  | .attachReceiver _ _ => true
  | .decodeBind _ _ => true
  | .decodeData _ _ => true
  | .decodeRelease _ _ _ => true
  | .decodeFlush _ _ => true
  | .snapshotSession _ _ _ => true
  | _ => false

end Sys2Proof.Machine
end

