-- ==== Sys2Proof/Certificates/Slice0/Obligations.lean ====
section
/-! DEFINITION. The statements for the provers. Each is a conjunction of clauses; a clause names a command, hypotheses on the state and the
operands alone, and what its execution answers. An equation whose right side is the state with named fields replaced says that every other
field, DRAM among them, is unchanged. -/

section

open Sys2Proof Sys2Proof.Machine

/-- From every running state in which every task dispatched has committed, BELL_START raises the Bell number by one and opens the Dispatch window; while a
task has not committed, the next Bell does not start (DESIGN CHOICE, log entry 71). FENCE_CUT in a Dispatch window before its cut marks the cut, and
the Dispatch window goes on. GUARD_OPEN opens the Guard window; its paging burst, its heartbeat and its retraining pauses have not run, and each
Quarter whose drain was accepted before it may enter CLOSING. None of the three changes the flash, the fuses or the pins. A BELL_IN edge within 5 µs
of its expected time is accepted: it becomes the slew and clears HOLDOVER, LOST and the runs. An edge more than 5 µs off is rejected and counted; the
eighth of 8 rejected edges whose offsets agree within 1 µs is taken as the slew. A missing edge is counted and sets HOLDOVER, and the 64th in a row
sets LOST and the SCHED watch. SCHED_BELL_CFG takes the value written; of the reserved source 3 SRC reads back INTERNAL and the other bits are kept.
In the Guard window of its Bell a channel that has not paused takes its retraining pause on one rank and counts it, keeping the Vref step when drift
and step are in range. A paging burst with nothing to move is marked as run; one waiting page-in with a place in the context cache is served where its
record passes its check, and otherwise its session is asked to close; a second burst of one Guard window does nothing. A paired device sends its
heartbeat on the link, once per Guard window. The accepted Sextant result and the staged pairs take effect together.
Rules: R11, R12, R15, R17, R18, R22, R24, R25, R87, R337, R446, R511. -/
def Obligations.BellStartsWindowsAndSources : Prop :=
  (∀ (env : BellEnv) (s : State), Runs s → tasksDone s = true → Completes (.bellStart env) s (fun t => t.bell.num = s.bell.num + 1 ∧
     t.bell.window = .dispatch ∧ t.bell.cut = false ∧ t.bell.cfg = s.bell.cfg ∧ t.sec.flash = s.sec.flash ∧ t.sec.svn = s.sec.svn ∧
     t.dev.perstN = true)) ∧
  (∀ (env : BellEnv) (s : State), Runs s → tasksDone s = false → exec (.bellStart env) s = .next s) ∧
  (∀ (s : State), Runs s → s.bell.window = .dispatch → s.bell.cut = false → Completes .fenceCut s (fun t => t.bell.num = s.bell.num ∧
     t.bell.window = .dispatch ∧ t.bell.cut = true ∧ t.sec.flash = s.sec.flash ∧ t.sec.svn = s.sec.svn ∧ t.dev.perstN = true)) ∧
  (∀ (s : State), Runs s → s.bell.window ≠ .guard → Completes .guardOpen s (fun t => t.bell.num = s.bell.num ∧ t.bell.window = .guard ∧
     t.bell.cut = true ∧ t.sess.burst = false ∧ t.tandem.hbSent = false ∧ (∀ c, (chanOf t c).paused = false) ∧ (∀ q x, look t.quarters q = some x →
     x.edge = x.pend) ∧ t.mem = s.mem ∧ t.sec.flash = s.sec.flash ∧ t.sec.svn = s.sec.svn)) ∧
  (∀ (offset : Int) (s : State), Runs s → s.bell.srcAct = 1 → (offset - s.bell.slew).natAbs ≤ 5000 →
     exec (.bellInEdge offset) s = .next { s with bell := { s.bell with phase := BitVec.ofInt 32 offset, slew := offset, locked := decide (offset.natAbs ≤ 1000), missRun := 0, missed := false, holdover := false, lost := false, rejRun := [] } }) ∧
  (∀ (offset : Int) (s : State), Runs s → s.bell.srcAct = 1 → 5000 < (offset - s.bell.slew).natAbs → s.bell.rejRun.length < 7 →
     exec (.bellInEdge offset) s = .next { s with bell := { s.bell with rejected := min (s.bell.rejected + 1) 65535, rejRun := offset :: s.bell.rejRun } }) ∧
  (∀ (offset : Int) (s : State), Runs s → s.bell.srcAct = 1 → 5000 < (offset - s.bell.slew).natAbs → s.bell.rejRun.length = 7 →
     (∀ a ∈ s.bell.rejRun, a = offset) →
     exec (.bellInEdge offset) s = .next { s with bell := { s.bell with rejected := min (s.bell.rejected + 1) 65535, slew := offset, locked := false, missRun := 0, missed := false, holdover := false, lost := false, rejRun := [] } }) ∧
  (∀ (s : State), Runs s → s.bell.srcAct ≠ 0 → s.bell.missRun < 63 →
     exec .bellEdgeMissing s = .next { s with bell := { s.bell with missing := min (s.bell.missing + 1) 65535, missRun := s.bell.missRun + 1, missed := true, holdover := true, lost := false } }) ∧
  (∀ (s : State), Runs s → s.bell.srcAct ≠ 0 → s.bell.missRun = 63 →
     Completes .bellEdgeMissing s (fun t => t.bell.missing = min (s.bell.missing + 1) 65535 ∧ t.bell.holdover = true ∧ t.bell.lost = true ∧
     (watchOf t winSched).severe.getLsbD 0 = true ∧ t.mem = s.mem)) ∧
  (∀ (value : Word) (s : State), Serves s → value &&& 0xFFFFFFE0 = 0 → fld value 2 1 ≠ 3 →
     exec (.schedBellCfgWrite value) s = .next { wake s with bell := { s.bell with cfg := value } }) ∧
  (∀ (value : Word) (s : State), Serves s → value &&& 0xFFFFFFE0 = 0 → fld value 2 1 = 3 →
     exec (.schedBellCfgWrite value) s = .next { wake s with bell := { s.bell with cfg := value &&& 0x19 } }) ∧
  (∀ (ch : Nat) (drift vref : Int) (s : State), Runs s → s.bell.window = .guard → ch < 12 → s.bell.num.toNat % 256 = 16 * ch % 256 → chanUp s ch = true →
     s.pwr.state < 3 → (chanOf s ch).paused = false → drift.natAbs ≤ 32 →
     (lookD (chanOf s ch).vref (chanOf s ch).pauseRank 0 + max (-1) (min 1 vref)).natAbs ≤ 4 →
     Completes (.retrainPause ch drift vref) s (fun t => (chanOf t ch).retrain = up (chanOf s ch).retrain 1 ∧ (chanOf t ch).paused = true ∧
     (chanOf t ch).pauseRank = ((chanOf s ch).pauseRank + 1) % max 1 (s.memc.dpc * s.memc.ranks) ∧
     look (chanOf t ch).vref (chanOf s ch).pauseRank = some (lookD (chanOf s ch).vref (chanOf s ch).pauseRank 0 + max (-1) (min 1 vref)) ∧
     t = { s with memc := t.memc })) ∧
  (∀ (ch : Nat) (drift vref : Int) (s : State), Runs s → (chanOf s ch).paused = true → exec (.retrainPause ch drift vref) s = .next s) ∧
  (∀ (bad : List Nat) (s : State), Runs s → s.bell.window = .guard → s.sess.burst = false → (∀ q, q < 16 → (qtrOf s q).state ≠ 3) →
     (∀ e ∈ s.sessions, e.2.cause = none ∨ e.2.resident = true) →
     exec (.pagingBurst bad) s = .next { s with sess := { s.sess with burst := true, wakeDefer := min s.sess.wakeDefer 4294967295 } }) ∧
  (∀ (bad : List Nat) (m : Mark) (k n : Nat) (x : Session) (s : State), Runs s → s.bell.window = .guard → s.sess.burst = false → (∀ q, q < 16 →
     (qtrOf s q).state ≠ 3) → pageIns s = [(m, k, n)] → look s.sessions n = some x → x.resident = false → x.pend = none →
     (s.sessions.filter (fun e => e.2.resident)).length < 4096 → Completes (.pagingBurst bad) s (fun t => ∃ y, look t.sessions n = some y ∧
     y.cause = none ∧ t.sess.burst = true ∧ t.sess.pageIn = up s.sess.pageIn 1 ∧ t.mem = s.mem ∧ (n ∉ bad → recordOk s n = true → y.resident = true ∧
     y.pend = none) ∧ (n ∈ bad ∨ recordOk s n = false → y.resident = false ∧ ∃ p, y.pend = some p ∧ p.kind = 3))) ∧
  (∀ (bad : List Nat) (s : State), Runs s → s.sess.burst = true → exec (.pagingBurst bad) s = .next s) ∧
  (∀ (s : State), Runs s → s.tandem.state = 3 → s.tandem.dead = false → s.bell.window = .guard → s.tandem.hbSent = false → bit s.tandem.hbCfg 0 = false →
     exec .heartbeatSend s = .next { s with out := s.out ++ [.link (.heartbeat (s.bell.num + s.tandem.offset) s.tandem.side 3 s.tandem.violTot)], tandem := { s.tandem with hbSent := true, seqOut := s.tandem.seqOut + 1, sent := s.tandem.sent ++ [(s.tandem.seqOut, 0)] } }) ∧
  (∀ (s : State), Runs s → s.tandem.hbSent = true → exec .heartbeatSend s = .next s) ∧
  (∀ (s : State), Runs s → s.bell.window = .guard →
     exec .sextantApply s = .next { s with sext := { s.sext with values := s.sext.staged.foldl (fun m e => put m e.1 e.2) (match s.sext.result with | none => s.sext.values | some r => put s.sext.values r.1 (r.2.1, r.2.2)), staged := [], result := none } })

/-- A read of a DRAM line that is in capacity is answered with 64 bytes and changes no byte; a write changes the bytes it names and no other, and is
acknowledged, and so is the same write that its requester reissues after its timeout. New work for a session in a draining Quarter is sent a Detour
and counted. A request that changes a session in a Quarter in SERVICE is put at the head of the 16 pairs of the applied list and acknowledged; where
its pair is in the list it is acknowledged and applies nothing, as a reissue after a timeout or a Detour is, which goes to the Quarter that the
session is placed on now. A reply with an older mark at a Quarter with a drain mark is absorbed and counted. In the clauses that name the next state
in full, everything that is not named is as before.
Rules: R8, R63, R64, R65. -/
def Obligations.BoulevardRequests : Prop :=
  (∀ (r : BlvdReq) (a : Nat) (early raa : Bool) (s : State), Runs s → r.op = .dramRead a .clean false early raa → a < capacity s →
     chanUp s (locOf s a).ch = true →
     exec (.boulevardRequest r) s = .next { s with out := s.out ++ [.line r.req r.mark (rdCells memDefault s.mem (a / 64 * 64) 64) (has s.memc.poison (a / 64))] }) ∧
  (∀ (r : BlvdReq) (a : Nat) (bs : List Byte) (ecc : Ecc) (act early raa : Bool) (s : State), Runs s → r.op = .dramWrite a bs ecc act early raa →
     a < capacity s → chanUp s (locOf s a).ch = true → a % 64 + bs.length ≤ 64 →
     Completes (.boulevardRequest r) s (fun t => t.out.getLast? = some (.ack r.req r.mark) ∧ (∀ b, b < a ∨ a + bs.length ≤ b →
     readMem t b = readMem s b) ∧ t.mem = wrCells memDefault s.mem a bs ∧ t.sec.flash = s.sec.flash ∧ t.bell.num = s.bell.num)) ∧
  (∀ (r : BlvdReq) (q n : Nat) (newWork changes : Bool) (x : Session) (s : State), Runs s → r.op = .session q n newWork changes →
     look s.sessions n = some x → 3 ≤ (qtrOf s q).state → (qtrOf s q).state ≤ 6 → newWork = true ∨ planQuarter x ≠ q →
     exec (.boulevardRequest r) s = .next { s with quarters := put s.quarters q { qtrOf s q with detours := up (qtrOf s q).detours 1 }, out := s.out ++ [.detour r.req r.mark] }) ∧
  (∀ (r : BlvdReq) (q n : Nat) (newWork : Bool) (x : Session) (s : State), Runs s → r.op = .session q n newWork true → look s.sessions n = some x →
     (qtrOf s q).state = 1 → (r.req, r.mark) ∉ x.applied →
     exec (.boulevardRequest r) s = .next { s with sessions := alter s.sessions n (fun y => { y with applied := ((r.req, r.mark) :: y.applied).take 16 }), out := s.out ++ [.ack r.req r.mark] }) ∧
  (∀ (r : BlvdReq) (q n : Nat) (newWork changes : Bool) (x : Session) (s : State), Runs s → r.op = .session q n newWork changes →
     look s.sessions n = some x → (qtrOf s q).state = 1 → (r.req, r.mark) ∈ x.applied →
     exec (.requestRetryTimeout r) s = .next { s with out := s.out ++ [.ack r.req r.mark] }) ∧
  (∀ (r : BlvdReq) (a : Nat) (bs : List Byte) (ecc : Ecc) (act early raa : Bool) (s : State), Runs s → r.op = .dramWrite a bs ecc act early raa →
     a < capacity s → chanUp s (locOf s a).ch = true → a % 64 + bs.length ≤ 64 →
     Completes (.requestRetryTimeout r) s (fun t => t.out.getLast? = some (.ack r.req r.mark) ∧ t.mem = wrCells memDefault s.mem a bs ∧
     t.sec.flash = s.sec.flash ∧ t.bell.num = s.bell.num)) ∧
  (∀ (r : BlvdReq) (q n : Nat) (newWork : Bool) (x : Session) (s : State), Runs s → r.op = .session q n newWork true → look s.sessions n = some x →
     (qtrOf s (planQuarter x)).state = 1 → (r.req, r.mark) ∉ x.applied →
     exec (.detourReissue r) s = .next { s with sessions := alter s.sessions n (fun y => { y with applied := ((r.req, r.mark) :: y.applied).take 16 }), out := s.out ++ [.ack r.req r.mark] }) ∧
  (∀ (r : BlvdReq) (q n : Nat) (newWork changes : Bool) (x : Session) (s : State), Runs s → r.op = .session q n newWork changes →
     look s.sessions n = some x → (qtrOf s (planQuarter x)).state = 1 → (r.req, r.mark) ∈ x.applied →
     exec (.detourReissue r) s = .next { s with out := s.out ++ [.ack r.req r.mark] }) ∧
  (∀ (quarter : Nat) (mark : DWord) (m : Mark) (s : State), Runs s → (qtrOf s quarter).mark = some m → mark.toNat < m.image.toNat →
     exec (.drainedReplySink quarter mark) s = .next { s with quarters := put s.quarters quarter { qtrOf s quarter with sinks := up (qtrOf s quarter).sinks 1 } })

/-- ENABLE of an OFF Quarter with a District starts LOADING with the microcode set and weight of its District; DISABLE of a Quarter in SERVICE starts a
drain to OFF and of a SPARE one ends at OFF. A REZONE that R58 accepts loads a Quarter that serves nothing at once and starts a drain to LOADING of
one in SERVICE; a Quarter in another state is refused with 0x0121, then another busy Quarter with 0x0122, then no partial plan with 0x0120, and a
refusal changes only the reason register. RETIRE retires a SPARE, LOADING or TESTING Quarter at once and one in SERVICE or CLOSING by a drain to
RETIRED. The REZONE commands do the same and post their completion with the code. No other Quarter changes, and everything that is not named is as
before.
Rules: R57, R58, R69. -/
def Obligations.QuarterControl : Prop :=
  (∀ (q : Nat) (s : State), Serves s → q < 16 → (qtrOf s q).en = false → (qtrOf s q).state = 0 → allOff (districtOf s q) = false →
     Completes (.qtrEnable q) s (fun t => (qtrOf t q).state = 5 ∧ (qtrOf t q).en = ((qtrOf s q).en || !allOff (districtOf t q)) ∧
     (qtrOf t q).pend = false ∧ (qtrOf t q).drain = none ∧ (qtrOf t q).mcSet = (districtOf t q).mcSet ∧ (qtrOf t q).weight = (districtOf t q).weight ∧
     (∀ p, p ≠ q → qtrOf t p = qtrOf s p) ∧ t = { wake s with quarters := t.quarters, engines := t.engines, plan := t.plan })) ∧
  (∀ (q : Nat) (s : State), Serves s → q < 16 → (qtrOf s q).en = false → (qtrOf s q).state ≠ 0 ∨ allOff (districtOf s q) = true →
     exec (.qtrEnable q) s = .next { wake s with quarters := put s.quarters q { qtrOf s q with reason := 0x0121 } }) ∧
  (∀ (q : Nat) (s : State), Serves s → q < 16 → (qtrOf s q).en = true → (qtrOf s q).state = 2 →
     exec (.qtrDisable q) s = .next { wake s with quarters := put s.quarters q { qtrOf s q with en := false, state := 0 } }) ∧
  (∀ (q : Nat) (s : State), Serves s → q < 16 → (qtrOf s q).en = true → (qtrOf s q).state = 1 → (qtrOf s q).pend = false → otherBusy s q = false →
     Completes (.qtrDisable q) s (fun t => qtrOf t q = { qtrOf s q with en := false, drain := some 0, pend := true, edge := false, isRezone := false } ∧
     (∀ p, p ≠ q → qtrOf t p = qtrOf s p) ∧ t = { wake s with quarters := t.quarters })) ∧
  (∀ (q : Nat) (s : State), Serves s → q < 16 → rezoneCode (wake s) q false = none → (qtrOf s q).state ≠ 1 →
     Completes (.qtrRezoneGo q) s (fun t => (qtrOf t q).state = 5 ∧ (qtrOf t q).en = ((qtrOf s q).en || !allOff (districtOf t q)) ∧
     (qtrOf t q).pend = false ∧ (qtrOf t q).drain = none ∧ (qtrOf t q).mcSet = (districtOf t q).mcSet ∧ (qtrOf t q).weight = (districtOf t q).weight ∧
     (∀ p, p ≠ q → qtrOf t p = qtrOf s p) ∧ t = { wake s with quarters := t.quarters, engines := t.engines, plan := t.plan })) ∧
  (∀ (q : Nat) (s : State), Serves s → q < 16 → rezoneCode (wake s) q false = none → (qtrOf s q).state = 1 →
     exec (.qtrRezoneGo q) s = .next { wake s with quarters := put s.quarters q { qtrOf s q with drain := some 5, pend := true, edge := false, isRezone := true } }) ∧
  (∀ (q : Nat) (s : State), Serves s → q < 16 → 3 ≤ (qtrOf s q).state → (qtrOf s q).state ≤ 6 →
     exec (.qtrRezoneGo q) s = .next { wake s with quarters := put s.quarters q { qtrOf s q with reason := 0x0121 } }) ∧
  (∀ (q : Nat) (s : State), Serves s → q < 16 → (qtrOf s q).state = 2 ∨ (qtrOf s q).state = 7 → otherBusy s q = true →
     exec (.qtrRezoneGo q) s = .next { wake s with quarters := put s.quarters q { qtrOf s q with reason := 0x0122 } }) ∧
  (∀ (q : Nat) (s : State), Serves s → q < 16 → (qtrOf s q).state = 2 ∨ (qtrOf s q).state = 7 → otherBusy s q = false → s.plan.image = none →
     exec (.qtrRezoneGo q) s = .next { wake s with quarters := put s.quarters q { qtrOf s q with reason := 0x0120 } }) ∧
  (∀ (q : Nat) (s : State), Serves s → q < 16 → (qtrOf s q).state = 2 ∨ (qtrOf s q).state = 5 ∨ (qtrOf s q).state = 6 →
     exec (.qtrRezoneRetire q) s = .next { wake s with quarters := put s.quarters q { qtrOf s q with state := 7, drain := none, pend := false, isRezone := false } }) ∧
  (∀ (q : Nat) (s : State), Serves s → q < 16 → (qtrOf s q).state = 1 ∨ (qtrOf s q).state = 3 →
     exec (.qtrRezoneRetire q) s = .next { wake s with quarters := put s.quarters q { qtrOf s q with drain := some 7, pend := decide ((qtrOf s q).state = 1) || (qtrOf s q).pend, isRezone := false } }) ∧
  (∀ (h : Hdr) (q : Nat) (s : State), Hears s h → h.fn = 0 → h.token = 0 → q < 16 → rezoneCode s q false = none → (qtrOf s q).state ≠ 1 →
     Completes (.rezoneGo h q 0) s (fun t => ∃ pl e id, t = complete h 0x0E 0 [] { s with plan := pl, engines := e, quarters := put s.quarters q { qtrOf s q with planId := id, state := 5, pend := false, drain := none, isRezone := true, en := (qtrOf s q).en || !allOff (districtOf { s with plan := pl } q), mcSet := (districtOf { s with plan := pl } q).mcSet, weight := (districtOf { s with plan := pl } q).weight } })) ∧
  (∀ (h : Hdr) (q : Nat) (s : State), Hears s h → h.fn = 0 → h.token = 0 → q < 16 → rezoneCode s q false = none → (qtrOf s q).state = 1 →
     exec (.rezoneGo h q 0) s = .next (complete h 0x0E 0 [] { s with quarters := put s.quarters q { qtrOf s q with drain := some 5, pend := true, edge := false, isRezone := true } })) ∧
  (∀ (h : Hdr) (q : Nat) (s : State), Hears s h → h.fn = 0 → h.token = 0 → q < 16 → 3 ≤ (qtrOf s q).state → (qtrOf s q).state ≤ 6 →
     exec (.rezoneGo h q 0) s = .next (complete h 0x0E 0x0121 [] { s with quarters := put s.quarters q { qtrOf s q with reason := 0x0121 } })) ∧
  (∀ (h : Hdr) (q : Nat) (s : State), Hears s h → h.fn = 0 → h.token = 0 → q < 16 →
     (qtrOf s q).state = 2 ∨ (qtrOf s q).state = 5 ∨ (qtrOf s q).state = 6 →
     exec (.rezoneRetire h q 0) s = .next (complete h 0x0E 0 [] { s with quarters := put s.quarters q { qtrOf s q with state := 7, drain := none, pend := false, isRezone := false } })) ∧
  (∀ (h : Hdr) (q : Nat) (s : State), Hears s h → h.fn = 0 → h.token = 0 → q < 16 → (qtrOf s q).state = 1 ∨ (qtrOf s q).state = 3 →
     exec (.rezoneRetire h q 0) s = .next (complete h 0x0E 0 [] { s with quarters := put s.quarters q { qtrOf s q with drain := some 7, pend := decide ((qtrOf s q).state = 1) || (qtrOf s q).pend, isRezone := false } })) ∧
  (∀ (h : Hdr) (q : Nat) (s : State), Hears s h → h.fn = 0 → h.token = 0 → q < 16 →
     (qtrOf s q).state = 0 ∨ (qtrOf s q).state = 4 ∨ (qtrOf s q).state = 7 →
     exec (.rezoneRetire h q 0) s = .next (complete h 0x0E 0x0121 [] { s with quarters := put s.quarters q { qtrOf s q with reason := 0x0121 } }))

/-- A pending trigger makes a Quarter CLOSING as the Guard window opens, and a spare is called in for it; with no session and no task left on it it is
DRAINED with a log mark; at the next Bell start it takes its target; where the library holds every store of its microcode set its load leads to
TESTING, otherwise to RETIRED with 0x0124; a passed BIST leads to SPARE while fewer Quarters are SPARE than the plan keeps and to SERVICE otherwise, a
failed one to RETIRED with 0x0125. Everything that is not named is as before.
Rules: R57, R60, R62, R67. -/
def Obligations.QuarterLife : Prop :=
  (∀ (q : Nat) (s : State), Runs s → (qtrOf s q).state = 1 → (qtrOf s q).pend = true → (qtrOf s q).edge = true → s.bell.window = .guard → (∀ k, k < 16 →
     (qtrOf s k).state ≠ 2) →
     Completes (.quarterClosingEdge q) s (fun t => qtrOf t q = { qtrOf s q with state := 3, pend := false, edge := false, detours := 0 } ∧
     (∀ p, p ≠ q → qtrOf t p = qtrOf s p) ∧ t = { s with quarters := t.quarters, sessions := t.sessions })) ∧
  (∀ (q : Nat) (s : State), Runs s → (qtrOf s q).state = 3 → s.sessions.all (fun e => decide (planQuarter e.2 ≠ q)) = true → taskOn s q = false →
     exec (.quarterDrained q) s = .next { stamp s with quarters := put s.quarters q { qtrOf s q with state := 4, mark := some (nowMark s), sinks := 0 } }) ∧
  (∀ (q d : Nat) (m : Mark) (s : State), Runs s → (qtrOf s q).state = 4 → atStart s = true → (qtrOf s q).mark = some m → m.bell ≠ s.bell.num →
     (qtrOf s q).drain = some d → d ≠ 5 →
     exec (.quarterEnterTarget q) s = .next { s with quarters := put s.quarters q { qtrOf s q with state := d, drain := none, isRezone := false, passed := none } }) ∧
  (∀ (q : Nat) (m : Mark) (s : State), Runs s → (qtrOf s q).state = 4 → atStart s = true → (qtrOf s q).mark = some m → m.bell ≠ s.bell.num →
     (qtrOf s q).drain = some 5 → Completes (.quarterEnterTarget q) s (fun t => (qtrOf t q).state = 5 ∧
     (qtrOf t q).en = ((qtrOf s q).en || !allOff (districtOf t q)) ∧ (qtrOf t q).pend = false ∧ (qtrOf t q).drain = none ∧
     (qtrOf t q).mcSet = (districtOf t q).mcSet ∧ (qtrOf t q).weight = (districtOf t q).weight ∧ (∀ p, p ≠ q → qtrOf t p = qtrOf s p) ∧
     t = { s with quarters := t.quarters, engines := t.engines, plan := t.plan })) ∧
  (∀ (q : Nat) (s : State), Runs s → (qtrOf s q).state = 5 → storesFound s q = true →
     Completes (.quarterLoadDone q true) s (fun t => qtrOf t q = { qtrOf s q with state := 6, nano := (qtrOf t q).nano } ∧ (∀ p, p ≠ q →
     qtrOf t p = qtrOf s p) ∧ t = { s with quarters := t.quarters, engines := t.engines })) ∧
  (∀ (q : Nat) (ok : Bool) (s : State), Runs s → (qtrOf s q).state = 5 → ok = false ∨ storesFound s q = false →
     Completes (.quarterLoadDone q ok) s (fun t => qtrOf t q = { qtrOf s q with state := 7, reason := 0x0124, isRezone := false } ∧ (∀ p, p ≠ q →
     qtrOf t p = qtrOf s p) ∧ t = { s with quarters := t.quarters, sec := { s.sec with stage := t.sec.stage } })) ∧
  (∀ (q : Nat) (s : State), Runs s → (qtrOf s q).state = 6 → spareCount s < s.plan.cfg.spares →
     Completes (.quarterBistDone q true) s (fun t => qtrOf t q = { qtrOf s q with isRezone := false, passed := some s.bell.num, state := 2 } ∧
     (∀ p, p ≠ q → qtrOf t p = qtrOf s p) ∧ t = { s with quarters := t.quarters, engines := t.engines, sec := { s.sec with stage := t.sec.stage } })) ∧
  (∀ (q : Nat) (s : State), Runs s → (qtrOf s q).state = 6 → s.plan.cfg.spares ≤ spareCount s → lowerSpare s q = none →
     Completes (.quarterBistDone q true) s (fun t => qtrOf t q = { qtrOf s q with isRezone := false, passed := some s.bell.num, state := 1, fbCount := 0, overcad := 0 } ∧
     (∀ p, p ≠ q → qtrOf t p = qtrOf s p) ∧ t = { s with quarters := t.quarters, engines := t.engines, sec := { s.sec with stage := t.sec.stage } })) ∧
  (∀ (q : Nat) (s : State), Runs s → (qtrOf s q).state = 6 →
     Completes (.quarterBistDone q false) s (fun t => qtrOf t q = { qtrOf s q with state := 7, reason := 0x0125, isRezone := false } ∧ (∀ p, p ≠ q →
     qtrOf t p = qtrOf s p) ∧ t = { s with quarters := t.quarters, sec := { s.sec with stage := t.sec.stage } }))

/-- OPEN_SESSION on an unpaired session that passes its checks creates one OPEN session on the handle that has been free the longest, with the stream it
names, and writes no byte outside its Depot record; each CONFIGURE of a session that is not mirrored keeps the new values until the frame start that
takes them and posts a completion; what fails a check is refused with its code and changes no session. Mirrored sessions are the subject of
PairedCommandsAreForwarded.
Rules: R70, R79, R80, R225, R226, R252, R387. -/
def Obligations.SessionsOpenAndAreConfigured : Prop :=
  (∀ (h : Hdr) (o : OpenOps) (n : Nat) (s : State), Takes s h → openCode s h o = none → takeHandle s = some n → o.stream.flags.testBit 1 = false →
     Completes (.openSession h o) s (fun t => (∃ x, look t.sessions n = some x ∧ x.state = 1 ∧ x.fn = h.fn ∧ x.gen = lookD s.sess.gens n 0 ∧
     x.kind = o.kind ∧ x.stream = o.stream ∧ x.userTag = o.userTag ∧ x.tan.role = 0) ∧ (∀ m, m ≠ n → look t.sessions m = look s.sessions m) ∧
     (∀ a, a < recordAt s n ∨ recordAt s n + 4096 ≤ a → readMem t a = readMem s a) ∧ t.quarters = s.quarters ∧ t.engines = s.engines)) ∧
  (∀ (h : Hdr) (o : OpenOps) (c : Code) (s : State), Takes s h → openCode s h o = some c → exec (.openSession h o) s = .next (refuse h 1 c s)) ∧
  (∀ (h : Hdr) (n : Nat) (x : Session) (o : StreamOps) (s : State), Takes s h → tokenSession s h.fn h.token = some (n, x) → x.tan.role = 0 →
     streamCode s x o 0 = none →
     exec (.configureStream h o 0) s = .next (complete h 2 0 [] { s with sessions := alter s.sessions n (fun x => { x with newStream := some o, newOk := false, sizeNext := if (o.width, o.height) = (x.stream.width, x.stream.height) then none else some (o.width, o.height) }) })) ∧
  (∀ (h : Hdr) (n : Nat) (x : Session) (o : StreamOps) (pad : Nat) (c : Code) (s : State), Takes s h → tokenSession s h.fn h.token = some (n, x) →
     x.tan.role = 0 → streamCode s x o pad = some c → exec (.configureStream h o pad) s = .next (refuse h 2 c s)) ∧
  (∀ (h : Hdr) (n : Nat) (x : Session) (o : RateOps) (s : State), Takes s h → tokenSession s h.fn h.token = some (n, x) → x.tan.role = 0 →
     rateCfgCode s x o = none →
     exec (.configureRate h o) s = .next (complete h 2 0 [] { s with sessions := alter s.sessions n (fun x => { x with newRate := some o }) })) ∧
  (∀ (h : Hdr) (n : Nat) (x : Session) (o : RateOps) (c : Code) (s : State), Takes s h → tokenSession s h.fn h.token = some (n, x) → x.tan.role = 0 →
     rateCfgCode s x o = some c → exec (.configureRate h o) s = .next (refuse h 2 c s)) ∧
  (∀ (h : Hdr) (n : Nat) (x : Session) (o : ResOps) (s : State), Takes s h → tokenSession s h.fn h.token = some (n, x) → x.tan.role = 0 →
     resOk x o = true →
     exec (.configureResilience h o) s = .next (complete h 2 0 [] { s with sessions := alter s.sessions n (fun x => { x with newRes := some o }) })) ∧
  (∀ (h : Hdr) (n : Nat) (x : Session) (o : HtOps) (s : State), Takes s h → tokenSession s h.fn h.token = some (n, x) → x.tan.role = 0 →
     hostCode s x h o = none →
     exec (.configureHostTransport h o) s = .next (complete h 2 0 [] { s with sessions := alter s.sessions n (fun x => { x with ht := some { cq := o.cq, cmdRing := h.ring, fn := h.fn, size := o.ringSize, addr := o.ringAddr, w := 0, consumed := 0, waiting := [] } }) })) ∧
  (∀ (h : Hdr) (n : Nat) (x : Session) (o : BoundsOps) (s : State), Takes s h → tokenSession s h.fn h.token = some (n, x) → x.tan.role = 0 →
     boundsCode s x o = none →
     exec (.setRateBounds h o) s = .next (complete h 7 0 [BitVec.ofNat 32 (min (max (if o.rateStart = 0 then x.rate.rateNext else o.rateStart) o.rateMin) o.rateMax)] { s with sessions := alter s.sessions n (fun y => { y with newBounds := some o, rate := { y.rate with rateNext := nextRate y o } }) })) ∧
  (∀ (h : Hdr) (n : Nat) (x : Session) (o : BoundsOps) (c : Code) (s : State), Takes s h → tokenSession s h.fn h.token = some (n, x) → x.tan.role = 0 →
     boundsCode s x o = some c → exec (.setRateBounds h o) s = .next (refuse h 7 c s))

/-- PARK, PARK COLD, RESUME and CLOSE of a session that is not mirrored and may take them are pending from their Bell; at a later Bell start a pending
PARK with no frame, chunk or acknowledgement left makes the session PARKED or COLD and completes; a pending CLOSE frees the handle, raises its
generation and completes; RESUME waits for the record and then makes the session ACTIVE, or is refused with the admission code; a session without
frames for IDLE_LIMIT becomes IDLE. No other session changes.
Rules: R72, R73, R75, R76, R77, R78, R85, R95. -/
def Obligations.SessionsParkResumeAndClose : Prop :=
  (∀ (h : Hdr) (n : Nat) (x : Session) (s : State), Takes s h → tokenSessionPf s h.fn h.token = some (n, x) → x.tan.role = 0 →
     parkCode s n x false 0 = none →
     exec (.park h 0) s = .next { s with sessions := alter s.sessions n (fun x => { parkFrames x with pend := some { kind := 0, hdr := some h, bell := s.bell.num, prior := none } }) }) ∧
  (∀ (h : Hdr) (n : Nat) (x : Session) (s : State), Takes s h → tokenSessionPf s h.fn h.token = some (n, x) → x.tan.role = 0 →
     parkCode s n x true 0 = none →
     exec (.parkCold h 0) s = .next { s with sessions := alter s.sessions n (fun x => { parkFrames x with pend := some { kind := 1, hdr := some h, bell := s.bell.num, prior := none } }) }) ∧
  (∀ (h : Hdr) (n : Nat) (x : Session) (s : State), Takes s h → tokenSessionPf s h.fn h.token = some (n, x) → x.tan.role = 0 →
     resumeCode s n x 0 = none → Completes (.resume h 0) s (fun t => (∃ y, look t.sessions n = some y ∧
     y.pend = some { kind := 2, hdr := some h, bell := s.bell.num, prior := none } ∧ y.state = x.state ∧ y.frames = x.frames) ∧ (∀ m, m ≠ n →
     look t.sessions m = look s.sessions m) ∧ t = { stamp s with sessions := t.sessions, sess := { s.sess with clock := s.sess.clock + 1 } })) ∧
  (∀ (h : Hdr) (n : Nat) (x : Session) (s : State), Takes s h → tokenSessionPf s h.fn h.token = some (n, x) → x.tan.role = 0 →
     look s.sessions n = some x → closeAsked s n = false → x.pend = none →
     exec (.close h 0) s = .next { s with sessions := alter s.sessions n (fun x => { x with pend := some { kind := 3, hdr := some h, bell := s.bell.num, prior := none } }) }) ∧
  (∀ (n : Nat) (x : Session) (p : PendCmd) (h : Hdr) (s : State), Runs s → look s.sessions n = some x → x.pend = some p → p.bell ≠ s.bell.num →
     atStart s = true → p.kind = 0 ∨ p.kind = 1 → p.hdr = some h → x.frames.all frameOver = true → x.dec.queue = [] →
     x.tan.live = false ∨ x.tan.acks = [] → Completes (.parkComplete n) s (fun t => ∃ u y, t = complete h 4 0 [] u ∧ look u.sessions n = some y ∧
     y.state = (if p.kind = 1 then 5 else 4) ∧ y.pend = none ∧ y.pinned = false ∧ u.mem = s.mem)) ∧
  (∀ (n : Nat) (x : Session) (p : PendCmd) (s : State), Runs s → look s.sessions n = some x → x.pend = some p → p.bell ≠ s.bell.num → atStart s = true →
     p.kind = 4 → p.hdr = none → x.frames.all frameOver = true → x.dec.queue = [] → x.tan.live = false ∨ x.tan.acks = [] →
     Completes (.parkComplete n) s (fun t => (∃ y, look t.sessions n = some y ∧ y.state = 4 ∧ y.pend = none ∧ y.pinned = false) ∧ t.mem = s.mem)) ∧
  (∀ (n : Nat) (x : Session) (p : PendCmd) (h : Hdr) (s : State), Runs s → look s.sessions n = some x → x.pend = some p → p.bell ≠ s.bell.num →
     atStart s = true → p.kind = 3 → p.hdr = some h → Completes (.closeComplete n) s (fun t => ∃ u, t = complete h 6 0 [] u ∧
     u.sessions.map (fun e => e.1) = (del s.sessions n).map (fun e => e.1) ∧ ((x.gen + 1) % 16384 ≠ 0 → lookD u.sess.gens n 0 = (x.gen + 1) % 16384) ∧
     u.mem = s.mem)) ∧
  (∀ (n : Nat) (x : Session) (p : PendCmd) (s : State), Runs s → look s.sessions n = some x → x.pend = some p → p.bell ≠ s.bell.num → atStart s = true →
     p.kind = 3 → Completes (.closeComplete n) s (fun t => t.sessions.map (fun e => e.1) = (del s.sessions n).map (fun e => e.1) ∧
     ((x.gen + 1) % 16384 ≠ 0 → lookD t.sess.gens n 0 = (x.gen + 1) % 16384) ∧ t.mem = s.mem ∧ t.bell.num = s.bell.num)) ∧
  (∀ (n : Nat) (x : Session) (p : PendCmd) (h : Hdr) (s : State), Runs s → look s.sessions n = some x → x.pend = some p → p.bell ≠ s.bell.num →
     atStart s = true → p.kind = 2 → p.hdr = some h → x.tan.role = 0 → x.resident = true → takeFence s x.fn x.oldFence = none →
     exec (.resumeComplete n) s = .next (refuse h 5 0x0208 { s with sessions := alter s.sessions n (fun y => { y with pend := none }) })) ∧
  (∀ (n : Nat) (x : Session) (p : PendCmd) (h : Hdr) (c : Code) (f : Nat × List (Nat × Nat)) (s : State), Runs s → look s.sessions n = some x →
     x.pend = some p → p.bell ≠ s.bell.num → atStart s = true → p.kind = 2 → p.hdr = some h → x.tan.role = 0 → x.resident = true →
     takeFence s x.fn x.oldFence = some f → frameAdmit s n x (loadOf s x) = .error c →
     exec (.resumeComplete n) s = .next (refuse h 5 c { s with sessions := alter s.sessions n (fun y => { y with pend := none }) })) ∧
  (∀ (n : Nat) (x : Session) (p : PendCmd) (i q e : Nat) (l : List (Nat × Nat)) (s : State), Runs s → look s.sessions n = some x → x.pend = some p →
     p.bell ≠ s.bell.num → atStart s = true → p.kind = 2 → x.resident = true → takeFence s x.fn x.oldFence = some (i, l) →
     frameAdmit s n x (loadOf s x) = .ok (q, e) → Completes (.resumeComplete n) s (fun t => (∃ y, look t.sessions n = some y ∧ y.state = 2 ∧
     y.pend = none ∧ y.pinned = true ∧ y.quarter = q ∧ y.woken = some s.bell.num) ∧ t.mem = s.mem)) ∧
  (∀ (n : Nat) (x : Session) (b : BitVec 40) (s : State), Runs s → look s.sessions n = some x → x.tan.role = 0 →
     x.woken.orElse (fun _ => x.idleFrom) = some b → x.state = 2 → x.pend = none → 0 < x.stream.idleLimit → x.frames.all frameOver = true →
     x.dec.queue = [] → x.stream.idleLimit * framesF s x.stream.fps ≤ bellsFrom b s.bell.num →
     Completes (.idleLimitReached n) s (fun t => (∃ y, look t.sessions n = some y ∧ y.state = 3 ∧ y.pinned = false ∧ y.moveTo = none) ∧ (∀ m, m ≠ n →
     look t.sessions m = look s.sessions m) ∧ t = { s with sessions := t.sessions }))

/-- PLAN_LOAD by the PF and PLAN_CTRL.STAGE start the staging copy from the address and length given, while nothing is staged, checked, applied or
rezoned, and are refused with 0x0101 otherwise; DISCARD forgets the image. The copy writes the staging buffer in DRAM and leads to CHECKING, or fails
with 0x0102. The checks run over the bytes in the staging buffer (a corrected error in one of its lines is counted, and a poisoned line is the severe
event POISON of the SEC watch) and end at READY with the image they hold, or at FAILED with the first failing code in the reason register: 0x0103 for
a wrong magic, 0x0104 for a wrong format. A guarded write of APPLY accepts a staged full plan whose SVN is not below the counter and that fits the
capacity, and notes the Bell; it is refused with 0x0101 while an apply runs, with 0x0120 without a READY plan, with 0x0126 for a partial one, with
0x0109 and with 0x011F, and then changes the reason alone. At a later Bell start the plan-wide sections take effect and the Quarters to rezone are
those whose District or microcode differs; a released Quarter in SERVICE drains to SPARE; with nothing left to do the apply ends at DONE with the plan
active.
Rules: R34, R51, R52, R54, R55, R56, R68. -/
def Obligations.PlansAreStagedAndApplied : Prop :=
  (∀ (h : Hdr) (addr : DWord) (len : Nat) (s : State), Hears s h → h.fn = 0 → h.token = 0 → addr.toNat % 8 = 0 → stageBusy s = false →
     exec (.planLoad h addr len 0) s = .next { s with plan := { s.plan with stage := 1, srcAddr := addr, srcLen := len, cmd := some h, image := none, stagedId := 0 } }) ∧
  (∀ (h : Hdr) (addr : DWord) (len : Nat) (s : State), Hears s h → h.fn = 0 → h.token = 0 → addr.toNat % 8 = 0 → stageBusy s = true →
     exec (.planLoad h addr len 0) s = .next (refuse h 0x0F 0x0101 { s with plan := { s.plan with reason := 0x0101 } })) ∧
  (∀ (s : State), Serves s → s.pwr.state = 0 → stageBusy s = false →
     exec .planStage s = .next { s with plan := { s.plan with stage := 1, srcAddr := s.plan.addr, srcLen := s.plan.len.toNat, cmd := none, image := none, stagedId := 0 } }) ∧
  (∀ (s : State), Serves s → s.plan.stage ≠ 1 → s.plan.stage ≠ 2 → applyRuns s = false →
     exec .planDiscard s = .next { wake s with plan := { s.plan with stage := 0, srcLen := 0, cmd := none, image := none, stagedId := 0 } }) ∧
  (∀ (s : State), Serves s → s.plan.stage = 1 ∨ s.plan.stage = 2 ∨ applyRuns s = true →
     exec .planDiscard s = .next { wake s with plan := { s.plan with reason := 0x0101 } }) ∧
  (∀ (b : List Byte) (s : State), Runs s → s.plan.stage = 1 → b.length = s.plan.srcLen →
     exec (.planCopyDone (some b)) s = .next { s with plan := { s.plan with stage := 2 }, mem := wrCells memDefault s.mem (stageAt s) (b.take 4194304) }) ∧
  (∀ (s : State), Runs s → s.plan.stage = 1 → s.plan.cmd = none →
     Completes (.planCopyDone none) s (fun t => t.plan = { s.plan with stage := 4, reason := 0x0102, image := none, stagedId := 0 } ∧
     t = { s with plan := t.plan, irq := t.irq, pwr := t.pwr })) ∧
  (∀ (line : Nat) (ecc : Ecc) (s : State), Runs s → s.plan.stage = 2 → s.plan.cmd = none → s.plan.srcLen ≤ line * 64 ∨ (ecc = .clean ∧
     has s.memc.poison ((stageAt s + line * 64) / 64) = false) →
     Completes (.planCheckDone line ecc) s (fun t => t.plan.reason = (planCode s (stagedBytes s) false (parseImage (stagedBytes s))).getD 0 ∧
     t.plan.stage = (if planCode s (stagedBytes s) false (parseImage (stagedBytes s)) = none then 3 else 4) ∧
     t.plan.image = (if planCode s (stagedBytes s) false (parseImage (stagedBytes s)) = none then some (parseImage (stagedBytes s)) else none) ∧
     t = { s with plan := t.plan, irq := t.irq, pwr := t.pwr })) ∧
  (∀ (line : Nat) (ecc : Ecc) (s : State), Runs s → s.plan.stage = 2 → s.plan.cmd = none → s.plan.srcLen ≤ line * 64 ∨ (ecc = .clean ∧
     has s.memc.poison ((stageAt s + line * 64) / 64) = false) → slice (stagedBytes s) 0 4 ≠ [0x53, 0x54, 0x50, 0x4C] →
     Completes (.planCheckDone line ecc) s (fun t => t.plan = { s.plan with stage := 4, reason := 0x0103, image := none, stagedId := 0 } ∧
     t = { s with plan := t.plan, irq := t.irq, pwr := t.pwr })) ∧
  (∀ (line : Nat) (ecc : Ecc) (s : State), Runs s → s.plan.stage = 2 → s.plan.cmd = none → s.plan.srcLen ≤ line * 64 ∨ (ecc = .clean ∧
     has s.memc.poison ((stageAt s + line * 64) / 64) = false) → slice (stagedBytes s) 0 4 = [0x53, 0x54, 0x50, 0x4C] →
     slice (stagedBytes s) ((stagedBytes s).length - 128) 4 = [0x53, 0x49, 0x47, 0x4E] → le (stagedBytes s) 4 2 ≠ 0x0200 →
     Completes (.planCheckDone line ecc) s (fun t => t.plan = { s.plan with stage := 4, reason := 0x0104, image := none, stagedId := 0 } ∧
     t = { s with plan := t.plan, irq := t.irq, pwr := t.pwr })) ∧
  (∀ (line : Nat) (d : Nat) (s : State), Runs s → s.plan.stage = 2 → line * 64 < s.plan.srcLen →
     has s.memc.poison ((stageAt s + line * 64) / 64) = false →
     exec (.planCheckDone line (.corrected d)) s = .next (checkStaged (countCe ((stageAt s + line * 64) / 64 * 64) d s))) ∧
  (∀ (line : Nat) (s : State), Runs s → s.plan.stage = 2 → line * 64 < s.plan.srcLen →
     Completes (.planCheckDone line .uncorrectable) s (fun t => (watchOf t winSec).severe.getLsbD 0 = true ∧
     has t.memc.poison ((stageAt s + line * 64) / 64) = true ∧ t.mem = s.mem ∧ 3 ≤ t.plan.stage)) ∧
  (∀ (i : PlanImage) (s : State), Serves s → applyRuns s = false → s.plan.image = some i → i.partPlan = false → lookD s.sec.svn 2 0 ≤ i.svn →
     fullCapacityOk (wake s) i = true →
     exec .planApply s = .next { wake s with plan := { s.plan with reason := 0, accepted := true, acceptedAt := s.bell.num, applying := some i, applySt := 1, applyQ := 0 } }) ∧
  (∀ (s : State), Serves s → applyRuns s = false → s.plan.image = none →
     exec .planApply s = .next { wake s with plan := { s.plan with reason := 0x0120 } }) ∧
  (∀ (s : State), Serves s → applyRuns s = true → exec .planApply s = .next { wake s with plan := { s.plan with reason := 0x0101 } }) ∧
  (∀ (i : PlanImage) (s : State), Serves s → applyRuns s = false → s.plan.image = some i → i.partPlan = true →
     exec .planApply s = .next { wake s with plan := { s.plan with reason := 0x0126 } }) ∧
  (∀ (i : PlanImage) (s : State), Serves s → applyRuns s = false → s.plan.image = some i → i.partPlan = false → i.svn < lookD s.sec.svn 2 0 →
     exec .planApply s = .next { wake s with plan := { s.plan with reason := 0x0109 } }) ∧
  (∀ (i : PlanImage) (s : State), Runs s → s.plan.applying = some i → s.plan.accepted = true → s.plan.acceptedAt ≠ s.bell.num → atStart s = true →
     Completes .planApplyTakeEffect s (fun t => t.plan.accepted = false ∧ t.plan.cfg = i.cfg ∧ t.plan.priors = i.priors ∧
     t.plan.rezoning = (List.range 16).filter (districtDiffers s i) ∧
     t = { s with plan := t.plan, pool := t.pool, quarters := t.quarters, engines := t.engines })) ∧
  (∀ (i : PlanImage) (s : State), Runs s → s.plan.applySt = 1 → s.plan.accepted = false → s.plan.applyCur = none → s.plan.applying = some i →
     s.plan.releasing = [] → s.plan.rezoning = [] → Completes .applyStepAdvance s (fun t => t.plan.applySt = 2 ∧ t.plan.applying = none ∧
     t.plan.activeId = i.planId ∧ t.plan.activeSvn = i.svn ∧ t.plan.digest = i.digest ∧ t.plan.mc = i.mc ∧
     t = { s with plan := t.plan, irq := t.irq, pwr := t.pwr, sec := { s.sec with meas := t.sec.meas } })) ∧
  (∀ (i : PlanImage) (q : Nat) (l : List Nat) (s : State), Runs s → s.plan.applySt = 1 → s.plan.accepted = false → s.plan.applyCur = none →
     s.plan.applying = some i → s.plan.releasing = q :: l → (qtrOf s q).state = 1 → (qtrOf s q).pend = false →
     exec .applyStepAdvance s = .next { s with plan := { s.plan with releasing := l, applyCur := some q, applyRel := true }, quarters := put s.quarters q { qtrOf s q with drain := some 2, pend := true, edge := false, isRezone := false } })

/-- SUBMIT_FRAME of an aperture maps its surface sets and binds them for the next frames, answering with their first pages; of a host surface it admits
the frame, takes the buffers and starts the frame at once; what the checks, the mapping, the admission or the pool refuse completes with that code.
Rules: R123, R125, R126, R133, R136, R357. -/
def Obligations.FramesAreSubmitted : Prop :=
  (∀ (h : Hdr) (n : Nat) (x : Session) (o : SubmitOps) (sets : List (Nat × List Word)) (s : State), Takes s h →
     tokenSession s h.fn h.token = some (n, x) → submitGate s n x false o = none → (mapSets n o o.surfaces s).1 = .ok sets →
     exec (.submitFrameAperture h o) s = .next (complete h 3 0 (firstPages sets) (bindNext n o sets (mapSets n o o.surfaces s).2))) ∧
  (∀ (h : Hdr) (n : Nat) (x : Session) (o : SubmitOps) (c : Code) (s : State), Takes s h → tokenSession s h.fn h.token = some (n, x) →
     submitGate s n x false o = some c → exec (.submitFrameAperture h o) s = .next (refuse h 3 c s)) ∧
  (∀ (h : Hdr) (n : Nat) (x : Session) (o : SubmitOps) (c : Code) (s : State), Takes s h → tokenSession s h.fn h.token = some (n, x) →
     submitGate s n x false o = none → (mapSets n o o.surfaces s).1 = .error c →
     exec (.submitFrameAperture h o) s = .next (refuse h 3 c (mapSets n o o.surfaces s).2)) ∧
  (∀ (h : Hdr) (n : Nat) (x : Session) (o : SubmitOps) (bufs : List Word) (u : State) (s : State), Takes s h →
     tokenSession s h.fn h.token = some (n, x) → submitGate s n x true o = none → admitStart n o (nowMark s) s = .ok u →
     (allocMany (sessReq n) (2 ^ 20) (setPages o) u).1 = .ok bufs →
     exec (.submitFrameHost h o) s = .next (complete h 3 0 [] (startFrame n 1 o 0 0 0 (nowMark s) (stamp (emit (.hostRead x.fn o.hostAddr (!x.stream.flags.testBit 0)) (takeBinding n (setSess (allocMany (sessReq n) (2 ^ 20) (setPages o) u).2 n (fun x => { x with hostSet := x.hostSet ++ [(x.frameNum, bufs)], rate := { x.rate with pqNext := o.colour.testBit 2 } })))))))) ∧
  (∀ (h : Hdr) (n : Nat) (x : Session) (o : SubmitOps) (c : Code) (s : State), Takes s h → tokenSession s h.fn h.token = some (n, x) →
     submitGate s n x true o = none → admitStart n o (nowMark s) s = .error c → exec (.submitFrameHost h o) s = .next (refuse h 3 c s))

/-- A fence that starts a frame admits and starts it with its rows; a later fence raises the rows that have landed; a fence that a check refuses is
counted and recorded and starts nothing; rows read from host memory land in order, and a failed read makes the frame due for truncation at its
eligible Bell; in the Dispatch window after the fence cut a due frame is truncated and counted, and one session without a due frame is left as it is;
while frame ingest is enabled a write to a mapped page by the right requester reaches its buffer; while it is disabled it is dropped (INGEST_CTRL,
R147); a write to an unmapped page or of a wrong requester is a stray, counted and recorded, whether frame ingest is enabled or not, and a read
answers zeros and is counted as a stray; no other byte of memory changes.
Rules: R127, R128, R129, R130, R133, R134, R136. -/
def Obligations.RowsLandAndFramesEnd : Prop :=
  (∀ (f : Fence) (c : Code) (s : State), Serves s → fnOn s f.fn = true → fenceCode (wake s) f = some c →
     exec (.rowFence f) s = .next (rejectFence f c (wake s))) ∧
  (∀ (f : Fence) (n : Nat) (x : Session) (g : Frame) (s : State), Serves s → fnOn s f.fn = true → fenceCode (wake s) f = none →
     fenceSession s f.fn f.index = some (n, x) → isStart x f = false → openFrame x f = some g →
     exec (.rowFence f) s = .next (landRows n g.num (fenceRows f.value) (nowMark s) (stamp (acceptFence f (wake s))))) ∧
  (∀ (f : Fence) (n : Nat) (x : Session) (b : Binding) (u : State) (s : State), Serves s → fnOn s f.fn = true → fenceCode (wake s) f = none →
     fenceSession s f.fn f.index = some (n, x) → isStart x f = true → fenceBinding x f = some b → admitStart n b.ops (nowMark s) (wake s) = .ok u →
     exec (.rowFence f) s = .next (startFrame n 0 b.ops b.id (takeSet n (takeBinding n u)).1 (fenceRows f.value) (nowMark s) (stamp (acceptFence f (takeSet n (takeBinding n u)).2)))) ∧
  (∀ (n rows : Nat) (x : Session) (f : Frame) (pieces : List (DWord × List Byte)) (s : State), Runs s → look s.sessions n = some x →
     x.frames.find? (fun e => decide (e.source = 1) && e.ingest && !e.trunc && !e.failed) = some f →
     exec (.hostRowsRead n rows true pieces) s = .next (landRows n f.num (min rows f.ops.srcHeight) (nowMark s) (stamp (pieces.foldl (fun s p => landHost (lookD x.hostSet f.num []) f.ops p.1.toNat p.2 s) s)))) ∧
  (∀ (n rows : Nat) (x : Session) (f : Frame) (pieces : List (DWord × List Byte)) (s : State), Runs s → look s.sessions n = some x →
     x.frames.find? (fun e => decide (e.source = 1) && e.ingest && !e.trunc && !e.failed) = some f →
     exec (.hostRowsRead n rows false pieces) s = .next { s with sessions := alter s.sessions n (fun x => { x with frames := x.frames.map (fun g => if g.num = f.num then { g with failed := true, truncAt := some (eligBell s x) } else g) }) }) ∧
  (∀ (n : Nat) (x : Session) (s : State), Runs s → s.bell.cut = true → s.bell.window = .dispatch → look s.sessions n = some x →
     x.frames.find? (truncDue s x) = none → exec (.frameTruncate n) s = .next s) ∧
  (∀ (n : Nat) (x : Session) (f : Frame) (s : State), Runs s → s.bell.cut = true → s.bell.window = .dispatch → look s.sessions n = some x →
     x.frames.find? (truncDue s x) = some f → Completes (.frameTruncate n) s (fun t => t.ingest.trunc = Machine.up s.ingest.trunc 1 ∧
     t.bell.num = s.bell.num ∧ t.bell.window = s.bell.window ∧ ∃ y g, look t.sessions n = some y ∧ frameOf y f.num = some g ∧ g.trunc = true ∧
     g.ingest = false)) ∧
  (∀ (w : AptWrite) (a n : Nat) (x : Session) (b : Binding) (bufs : List Word) (s : State), Runs s → s.ingest.en = true →
     pageRun s w.page = some (a, n) → look s.sessions n = some x → runBinding x a = some (b, bufs) → ridBad b w.rid = false →
     Completes (.apertureWrite w) s (fun t => t = wake (writeSet bufs ((w.page - a) * 2 ^ 20 + w.off) w.bytes s) ∧
     (∀ k, (bufs[((w.page - a) * 2 ^ 20 + w.off) / 2 ^ 20]? = none ∨ ∃ v, bufs[((w.page - a) * 2 ^ 20 + w.off) / 2 ^ 20]? = some v ∧
     (k < bufAddr s (hClass v) (hIndex v) + w.off % 2 ^ 20 ∨ bufAddr s (hClass v) (hIndex v) + w.off % 2 ^ 20 + w.bytes.length ≤ k)) →
     readMem t k = readMem s k) ∧ t = { s with mem := t.mem, pwr := t.pwr, memc := { s.memc with poison := t.memc.poison } })) ∧
  (∀ (w : AptWrite) (s : State), Runs s → pageRun s w.page = none →
     exec (.apertureWrite w) s = .next { s with ingest := { s.ingest with stray := up s.ingest.stray 1, lastRej := 0xFFF00D09, lastFn := 0 } }) ∧
  (∀ (w : AptWrite) (a n : Nat) (x : Session) (b : Binding) (bufs : List Word) (s : State), Runs s → pageRun s w.page = some (a, n) →
     look s.sessions n = some x → runBinding x a = some (b, bufs) → ridBad b w.rid = true →
     exec (.apertureWrite w) s = .next { s with ingest := { s.ingest with stray := up s.ingest.stray 1, lastRej := 0xFFF00D09, lastFn := 0 } }) ∧
  (∀ (w : AptWrite) (a n : Nat) (x : Session) (b : Binding) (bufs : List Word) (s : State), Runs s → s.ingest.en = false →
     pageRun s w.page = some (a, n) → look s.sessions n = some x → runBinding x a = some (b, bufs) → ridBad b w.rid = false →
     exec (.apertureWrite w) s = .next s)

/-- On an encode session whose primary this device is, an ACK of a retained started frame is pending for the next frame start and one of a frame that is
gone is counted; LOSS keeps the oldest lost frame; KEY_REQUEST asks for a key frame or is counted as suppressed; RATE_REPORT updates the rate record;
each completes; a frame that has not started or a bad pad is refused with 0x0206 and changes nothing.
Rules: R222, R236, R237, R239, R240. -/
def Obligations.FeedbackIsTaken : Prop :=
  (∀ (h : Hdr) (n : Nat) (x : Session) (frame : Nat) (s : State), Takes s h → tokenSession s h.fn h.token = some (n, x) → x.tan.role ≠ 2 → x.kind = 0 →
     frameStarted x frame = true → exec (.feedbackAck h frame 0) s = .next (complete h 8 0 [] (feedAck n frame (stamp s)))) ∧
  (∀ (h : Hdr) (n : Nat) (x : Session) (frame pad : Nat) (s : State), Takes s h → tokenSession s h.fn h.token = some (n, x) → x.tan.role ≠ 2 →
     x.kind = 0 → pad ≠ 0 ∨ frameStarted x frame = false → exec (.feedbackAck h frame pad) s = .next (refuse h 8 0x0206 s)) ∧
  (∀ (h : Hdr) (n : Nat) (x : Session) (frame : Nat) (s : State), Takes s h → tokenSession s h.fn h.token = some (n, x) → x.tan.role ≠ 2 → x.kind = 0 →
     frameStarted x frame = true →
     exec (.feedbackLoss h frame 0) s = .next (complete h 8 0 [] { stamp s with sessions := alter s.sessions n (fun x => { x with ltr := { x.ltr with loss := match x.ltr.loss with | none => some frame | some g => if older frame g then some frame else some g } }) })) ∧
  (∀ (h : Hdr) (n : Nat) (x : Session) (s : State), Takes s h → tokenSession s h.fn h.token = some (n, x) → x.tan.role ≠ 2 → x.kind = 0 →
     exec (.feedbackKeyRequest h 0) s = .next (complete h 8 0 [] (feedKey n (stamp s)))) ∧
  (∀ (h : Hdr) (n : Nat) (x : Session) (loss est : Nat) (s : State), Takes s h → tokenSession s h.fn h.token = some (n, x) → x.tan.role ≠ 2 →
     x.kind = 0 → look s.sessions n = some x → x.rate.adapt = false → exec (.feedbackRateReport h loss est 0) s = .next (complete h 8 0 [] (stamp s))) ∧
  (∀ (h : Hdr) (n : Nat) (x : Session) (loss : Nat) (s : State), Takes s h → tokenSession s h.fn h.token = some (n, x) → x.tan.role ≠ 2 → x.kind = 0 →
     look s.sessions n = some x → x.rate.adapt = true → x.rate.lossHi ≤ loss → x.rate.lastDec = none → s.dev.safe = false →
     (32 ≤ (fnOf s x.fn).ev.front.length → (fnOf s x.fn).ev.room = true) →
     Completes (.feedbackRateReport h loss 0 0) s (fun t => t.rc.down = up s.rc.down 1 ∧ (∃ y, look t.sessions n = some y ∧
     y.rate.lastDec = some s.bell.num ∧ y.rate.rateNext = min (max (x.rate.rateNext * (512 - loss) / 512) x.rate.rateMin) x.rate.rateMax) ∧
     (fnOf t x.fn).ev.front.length = (fnOf s x.fn).ev.front.length + 1))

/-- KEY_LOAD of a well-formed blob takes its ephemeral point and the agreement key to a secret and unwraps the key with the KEK derived from it: a key of
the length the blob names goes into the lowest free slot for the owner and its session, and the slot is answered; a point that is not on the curve is
refused with 0x090D and a blob that does not unwrap, or to another length, with 0x090C; a blob of another length, magic, kind or key length is refused
with 0x090D; ERASE empties a slot of the owner that no flow and no binding uses, and is refused with 0x090E or 0x090F otherwise. No other slot
changes. SNAPSHOT to an aligned address writes the statistics with the next sequence number of the function and completes with it; an unaligned
address is refused with 0x0410; an entry whose opcode, flags, reserved bytes, token or authority is wrong is refused with the code of R381 in its
order, and a selector outside its values as its chapter says; in the Guard window such an entry that names a session waits for the next Bell start, in
its place among the session commands.
Rules: R381, R399, R400, R549, R550, R551, R552. -/
def Obligations.KeysSnapshotsAndInvalidEntries : Prop :=
  (∀ (h : Hdr) (o : KeyOps) (n k : Nat) (x : Session) (s : State), Takes s h → keyCode h o = none → keySession s h o = some (n, x) → x.tan.role = 0 →
     blobOk o = true → freeSlot s = some k →
     exec (.keyLoad h o) s = .next (match Config.ecdhX agreementKey (slice o.blob 8 96) with
      | none => refuse h 9 0x090D s
      | some p => match Config.keyUnwrap (kekOf h o p) (slice o.blob 0x70 (le o.blob 0x68 2)) with
      | none => refuse h 9 0x090C s
      | some m => if m.length = le o.blob 5 1 + (if o.kind = 1 then 12 else 0) then complete h 9 0 [BitVec.ofNat 32 k] { s with sec := { s.sec with keys := put s.sec.keys k { kind := o.kind, ownerFn := o.ownerFn, handle := some n, len := le o.blob 5 1, material := BitVec.ofNat 256 (leNat (m.take (le o.blob 5 1))), salt := if o.kind = 1 then BitVec.ofNat 96 (leNat (m.drop (le o.blob 5 1))) else 0 } } } else refuse h 9 0x090C s)) ∧
  (∀ (h : Hdr) (o : KeyOps) (n : Nat) (x : Session) (s : State), Takes s h → keyCode h o = none → keySession s h o = some (n, x) → x.tan.role ≠ 2 →
     o.blob.length ≠ 176 ∨ slice o.blob 0 4 ≠ [0x57, 0x4B, 0x45, 0x59] ∨ le o.blob 4 1 ≠ o.kind ∨ keyLenOk o.kind (le o.blob 5 1) = false ∨ 64 < le o.blob 0x68 2 →
     exec (.keyLoad h o) s = .next (refuse h 9 0x090D s)) ∧
  (∀ (h : Hdr) (o : KeyOps) (k : Key) (p : Nat × Session) (s : State), Takes s h → o.kind = 0 → o.ownerFn = h.fn → o.ownerFn ≤ 255 → o.pad = 0 →
     o.addr = 0 → keySession s h o = some p → look s.sec.keys o.slot = some k → k.ownerFn = o.ownerFn → keyInUse s o.slot = false →
     exec (.keyErase h o) s = .next (complete h 9 0 [BitVec.ofNat 32 o.slot] { s with sec := { s.sec with keys := del s.sec.keys o.slot } })) ∧
  (∀ (h : Hdr) (o : KeyOps) (k : Key) (p : Nat × Session) (s : State), Takes s h → o.kind = 0 → o.ownerFn = h.fn → o.ownerFn ≤ 255 → o.pad = 0 →
     o.addr = 0 → keySession s h o = some p → look s.sec.keys o.slot = some k → k.ownerFn ≠ o.ownerFn →
     exec (.keyErase h o) s = .next (refuse h 9 0x090E s)) ∧
  (∀ (h : Hdr) (n : Nat) (x : Session) (a : DWord) (s : State), Takes s h → tokenSession s h.fn h.token = some (n, x) → a.toNat % 64 = 0 →
     exec (.snapshotSession h a 0) s = .next (snapshot h a 0 h.token x.stats s)) ∧
  (∀ (h : Hdr) (n : Nat) (x : Session) (a : DWord) (pad : Nat) (s : State), Takes s h → tokenSession s h.fn h.token = some (n, x) →
     pad ≠ 0 ∨ a.toNat % 64 ≠ 0 → exec (.snapshotSession h a pad) s = .next (refuse h 0x0D 0x0410 s)) ∧
  (∀ (h : Hdr) (a : DWord) (s : State), Hears s h → h.token = 0 → a.toNat % 64 = 0 →
     exec (.snapshotFunction h a 0) s = .next (snapshot h a 1 0 (fnOf s h.fn).stats s)) ∧
  (∀ (e : RawEntry) (c : Code) (s : State), Runs s → fnOn s e.fn = true → sessionEntry e = false ∨ s.bell.window ≠ .guard → entryCode e = some c →
     exec (.commandEntryInvalid e) s = .next (refuse { fn := e.fn, ring := e.ring, cid := e.cid, token := e.token } e.opcode c s)) ∧
  (∀ (e : RawEntry) (n : Nat) (c : Code) (s : State), Runs s → fnOn s e.fn = true → sessionEntry e = false ∨ s.bell.window ≠ .guard →
     entryCode e = none → selectorCode e.opcode = some (n, c) → n < e.sel →
     exec (.commandEntryInvalid e) s = .next (refuseSelector { fn := e.fn, ring := e.ring, cid := e.cid, token := e.token } e.opcode c s)) ∧
  (∀ (e : RawEntry) (s : State), Runs s → fnOn s e.fn = true → sessionEntry e = true → s.bell.window = .guard →
     exec (.commandEntryInvalid e) s = .next { s with deferred := s.deferred ++ [.commandEntryInvalid e] })

/-- ATTACH_RECEIVER of KIND 0 that passes its checks puts a flow of the session on the lowest free index and joins it to the session; KIND 1 puts an
INGRESS flow there; KIND 2 binds the receive queue of the function; DETACH flushes a flow at once and its index is free at the Bell start after;
UNBIND removes the queue. Without NET_CTRL.ENABLE each is refused with 0x0701.
Rules: R405, R406, R407, R408, R425. -/
def Obligations.ReceiversAndReceiveQueues : Prop :=
  (∀ (h : Hdr) (n i : Nat) (x : Session) (o : AttachOps) (s : State), Takes s h → tokenSession s h.fn h.token = some (n, x) → x.tan.role = 0 →
     look s.sessions n = some x → attachCode s h.fn x o = none → freeFlow s = some i →
     Completes (.attachReceiver h o) s (fun t => (∃ f, look t.net.flows i = some f ∧ f.kind = 0 ∧ f.session = some n ∧ f.fn = h.fn ∧ f.port = o.port ∧
     f.localPort = o.localPort ∧ f.remoteIp = o.remoteIp ∧ f.remotePort = o.remotePort ∧ f.keySlot = o.keySlot ∧ f.suite = o.suite ∧
     f.detach = none) ∧ (∀ j, j ≠ i → look t.net.flows j = look s.net.flows j) ∧ (look t.sessions n).map (fun y => y.flows) = some (x.flows ++ [i]) ∧
     (∀ m, m ≠ n → look t.sessions m = look s.sessions m))) ∧
  (∀ (h : Hdr) (n : Nat) (x : Session) (o : AttachOps) (c : Code) (s : State), Takes s h → tokenSession s h.fn h.token = some (n, x) → x.tan.role ≠ 2 →
     attachCode s h.fn x o = some c → exec (.attachReceiver h o) s = .next (refuse h 0x0A c s)) ∧
  (∀ (h : Hdr) (i : Nat) (o : IngressOps) (s : State), Hears s h → ingressCode s h.fn h.token o = none → freeFlow s = some i →
     Completes (.attachIngress h o) s (fun t => (∃ f, look t.net.flows i = some f ∧ f.kind = 1 ∧ f.session = none ∧ f.fn = h.fn ∧ f.port = o.port ∧
     f.localPort = o.localPort ∧ f.remoteIp = o.remoteIp ∧ f.remotePort = o.remotePort ∧ f.polRate = o.policeRate ∧ f.polBurst = o.policeBurst) ∧
     (∀ j, j ≠ i → look t.net.flows j = look s.net.flows j) ∧ t.sessions = s.sessions)) ∧
  (∀ (h : Hdr) (o : RxqOps) (s : State), Hears s h → bit s.net.ctrl 0 = true → h.token = 0 → o.pad = 0 → o.queue < 8 → o.entry ≤ 1 →
     (List.range 11).any (fun k => decide (o.entries = 2 ^ (k + 6))) = true → o.ringAddr.toNat % 4096 = 0 →
     exec (.bindRxQueue h o) s = .next (complete h 0x0A 0 [] { s with net := { s.net with rxqs := put s.net.rxqs (h.fn * 8 + o.queue) { entry := if o.entry = 0 then 2048 else 16384, entries := o.entries, addr := o.ringAddr, n := 0, held := ((look s.net.rxqs (h.fn * 8 + o.queue)).map (fun r => r.held)).getD false, more := ((look s.net.rxqs (h.fn * 8 + o.queue)).map (fun r => r.more)).getD false } } })) ∧
  (∀ (h : Hdr) (i : Nat) (f : Flow) (s : State), Hears s h → bit s.net.ctrl 0 = true → h.token = 0 → look s.net.flows i = some f →
     f.fn = h.fn ∨ h.fn = 0 → f.detach = none → f.session = none ∨ f.kind ≠ 0 → exec (.detachReceiver h i 0) s = .next (startDetach i (some h) s)) ∧
  (∀ (h : Hdr) (i n : Nat) (f : Flow) (x : Session) (s : State), Hears s h → bit s.net.ctrl 0 = true → h.token = 0 → look s.net.flows i = some f →
     f.fn = h.fn ∨ h.fn = 0 → f.detach = none → f.session = some n → look s.sessions n = some x → x.tan.role = 0 →
     exec (.detachReceiver h i 0) s = .next (startDetach i (some h) s)) ∧
  (∀ (h : Hdr) (q : Nat) (r : RxQ) (s : State), Hears s h → bit s.net.ctrl 0 = true → h.token = 0 → q < 8 → look s.net.rxqs (h.fn * 8 + q) = some r →
     exec (.unbindRxQueue h q 0) s = .next (complete h 0x0B 0 [] { s with net := { s.net with rxqs := del s.net.rxqs (h.fn * 8 + q) } })) ∧
  (∀ (h : Hdr) (q pad : Nat) (s : State), Hears s h → bit s.net.ctrl 0 = false → exec (.unbindRxQueue h q pad) s = .next (refuse h 0x0B 0x0701 s)) ∧
  (∀ (i : Nat) (f : Flow) (h : Hdr) (s : State), Runs s → s.bell.window = .dispatch → look s.net.flows i = some f → f.detach = some (some h) →
     f.flushed = true → exec (.detachComplete i) s = .next (complete h 0x0B 0 [] (removeFlow i s)))

/-- On a decode session with the unit enabled: BIND that passes its checks sets the binding (and names the session on a peer flow); DATA that passes its
checks and gets a buffer becomes a copy in progress, past 64 chunks or 64 MiB it is refused with 0x0C06 and the access unit discarded; RELEASE returns
a held output buffer; FLUSH waits while a chunk, an access unit or a peer access unit is in progress, and where nothing is, it ends at once: no
picture is a reference any more, the stream must start anew, and it completes; a second FLUSH is refused with 0x0C10; every check that fails completes
with its code and changes nothing else.
Rules: R254, R255, R256, R257, R258, R259, R267, R270. -/
def Obligations.DecodeCommandsAreTaken : Prop :=
  (∀ (h : Hdr) (n : Nat) (x : Session) (o : BindOps) (s : State), Takes s h → tokenSession s h.fn h.token = some (n, x) → x.kind = 1 → s.dec.en = true →
     bindCode s n x o = none → o.use ≠ 1 →
     exec (.decodeBind h o) s = .next (complete h 0x0C 0 [] (sweepKeys { s with sessions := alter s.sessions n (fun x => { x with dec := { x.dec with bind := some o } }) }))) ∧
  (∀ (h : Hdr) (n : Nat) (x : Session) (o : BindOps) (s : State), Takes s h → tokenSession s h.fn h.token = some (n, x) → x.kind = 1 → s.dec.en = true →
     bindCode s n x o = none → o.use = 1 →
     exec (.decodeBind h o) s = .next (complete h 0x0C 0 [] (sweepKeys { s with sessions := alter s.sessions n (fun x => { x with dec := { x.dec with bind := some o } }), net := { s.net with flows := alter s.net.flows o.flow (fun f => { f with session := some n }) } }))) ∧
  (∀ (h : Hdr) (n : Nat) (x : Session) (o : BindOps) (c : Code) (s : State), Takes s h → tokenSession s h.fn h.token = some (n, x) → x.kind = 1 →
     s.dec.en = true → bindCode s n x o = some c → exec (.decodeBind h o) s = .next (refuse h 0x0C c s)) ∧
  (∀ (h : Hdr) (n : Nat) (x : Session) (o : DataOps) (c : Code) (s : State), Takes s h → tokenSession s h.fn h.token = some (n, x) → x.kind = 1 →
     s.dec.en = true → dataCode x o = some c → exec (.decodeData h o) s = .next (refuse h 0x0C c s)) ∧
  (∀ (h : Hdr) (n : Nat) (x : Session) (o : DataOps) (s : State), Takes s h → tokenSession s h.fn h.token = some (n, x) → x.kind = 1 → s.dec.en = true →
     dataCode x o = none → chunkLimit x.dec o = true →
     exec (.decodeData h o) s = .next (refuse h 0x0C 0x0C06 (decCount 0x24 1 (discardPart n true s)))) ∧
  (∀ (h : Hdr) (n : Nat) (x : Session) (o : DataOps) (w : Word) (u : State) (s : State), Takes s h → tokenSession s h.fn h.token = some (n, x) →
     x.kind = 1 → s.dec.en = true → dataCode x o = none → chunkLimit x.dec o = false → allocate (sessReq n) o.len true s = (.ok w, u) →
     exec (.decodeData h o) s = .next (setDec (if useProt x then markSecret w u else u) n (fun d => { d with chunks := d.chunks ++ [{ hdr := h, ops := o, bind := x.dec.bind, bufs := [w], dead := false }], nChunks := if o.flags.testBit 0 then 0 else d.nChunks + 1, nBytes := if o.flags.testBit 0 then 0 else d.nBytes + o.len }))) ∧
  (∀ (h : Hdr) (n : Nat) (x : Session) (i : Nat) (b : BindOps) (s : State), Takes s h → tokenSession s h.fn h.token = some (n, x) → x.kind = 1 →
     s.dec.en = true → x.dec.bind = some b → i < b.outCount → has x.dec.held i = true →
     exec (.decodeRelease h i 0) s = .next (complete h 0x0C 0 [] { s with sessions := alter s.sessions n (fun x => { x with dec := { x.dec with held := remS x.dec.held i } }) })) ∧
  (∀ (h : Hdr) (n : Nat) (x : Session) (b : BindOps) (s : State), Takes s h → tokenSession s h.fn h.token = some (n, x) → x.kind = 1 → s.dec.en = true →
     x.dec.bind = some b → x.dec.flush = none → look s.sessions n = some x → x.dec.chunks ≠ [] ∨ x.dec.queue ≠ [] ∨ x.dec.peer ≠ [] →
     exec (.decodeFlush h 0) s = .next { s with sessions := alter s.sessions n (fun x => { x with dec := { x.dec with flush := some h } }) }) ∧
  (∀ (h : Hdr) (n : Nat) (x : Session) (b : BindOps) (s : State), Takes s h → tokenSession s h.fn h.token = some (n, x) → x.kind = 1 → s.dec.en = true →
     x.dec.bind = some b → x.dec.flush = none → look s.sessions n = some x → x.dec.chunks = [] → x.dec.queue = [] → x.dec.peer = [] →
     x.pics.all (fun p => !p.2.shows) = true → Completes (.decodeFlush h 0) s (fun t => ∃ u, t = complete h 0x0C 0 [] u ∧
     ∃ y, look u.sessions n = some y ∧ y.dec.flush = none ∧ y.dec.synced = false ∧ y.dec.rasl = false ∧ y.dec.recover = none ∧ y.dec.bind = some b ∧
     y.pics.all (fun p => !p.2.refd) = true)) ∧
  (∀ (h : Hdr) (n : Nat) (x : Session) (b : BindOps) (k : Hdr) (s : State), Takes s h → tokenSession s h.fn h.token = some (n, x) → x.kind = 1 →
     s.dec.en = true → x.dec.bind = some b → x.dec.flush = some k → exec (.decodeFlush h 0) s = .next (refuse h 0x0C 0x0C10 s))

/-- A copied chunk completes, its bytes (those of an encrypted chunk opened with the content key of its binding) in its buffer: it extends the access
unit, or as the last one completes it; a failed read discards the access unit with 0x0C09 and a chunk of a discarded unit only completes; a peer
access unit past its reorder time is taken as it is; a decoded picture that is due is output and counted: of a protected binding it becomes the latest
picture, of a clear one it takes the next output buffer that is not held; a protected buffer that has been filled reads zero and is free again;
DEC_CTRL follows its checks.
Rules: R258, R261, R262, R263, R266, R270, R284. -/
def Obligations.DecodeWorkEnds : Prop :=
  (∀ (n : Nat) (x : Session) (info : AuInfo) (bytes : List Byte) (c : Chunk) (rest : List Chunk) (s : State), Runs s → look s.sessions n = some x →
     x.dec.chunks = c :: rest → c.dead = true →
     exec (.dataCopyDone n info bytes) s = .next (complete c.hdr 0x0C 0 [] (dropAll (sessReq n) c.bufs (setDec s n (fun d => { d with chunks := rest }))))) ∧
  (∀ (n : Nat) (x : Session) (info : AuInfo) (bytes : List Byte) (c : Chunk) (rest : List Chunk) (s : State), Runs s → look s.sessions n = some x →
     x.dec.chunks = c :: rest → c.dead = false → info.readFailed = true →
     exec (.dataCopyDone n info bytes) s = .next (refuse c.hdr 0x0C 0x0C09 (settleFlush n (dropAll (sessReq n) c.bufs (setDec (discardPart n false s) n (fun d => { d with chunks := d.chunks.drop 1 })))))) ∧
  (∀ (n : Nat) (x : Session) (info : AuInfo) (bytes : List Byte) (c : Chunk) (rest : List Chunk) (w : Word) (s : State), Runs s →
     look s.sessions n = some x → x.dec.chunks = c :: rest → c.dead = false → info.readFailed = false → c.bufs = [w] → x.dec.part = none →
     c.ops.flags.testBit 0 = false →
     exec (.dataCopyDone n info bytes) s = .next (setDec (complete c.hdr 0x0C 0 [] (storeMem (bufAddr s (hClass w) (hIndex w)) (chunkBytes s c (bytes.take c.ops.len)) s)) n (fun d => { d with chunks := rest, part := some (c.ops.tag, [w]) }))) ∧
  (∀ (n : Nat) (x : Session) (info : AuInfo) (bytes : List Byte) (c : Chunk) (rest : List Chunk) (w : Word) (s : State), Runs s →
     look s.sessions n = some x → x.dec.chunks = c :: rest → c.dead = false → info.readFailed = false → c.bufs = [w] → x.dec.part = none →
     c.ops.flags.testBit 0 = true →
     exec (.dataCopyDone n info bytes) s = .next (settleFlush n (auComplete n c.ops.tag [w] info (setDec (complete c.hdr 0x0C 0 [] (storeMem (bufAddr s (hClass w) (hIndex w)) (chunkBytes s c (bytes.take c.ops.len)) s)) n (fun d => { d with chunks := rest, part := none }))))) ∧
  (∀ (n : Nat) (x : Session) (info : AuInfo) (b : BindOps) (a : PeerAu) (s : State), Runs s → look s.sessions n = some x → x.dec.bind = some b →
     x.dec.peer = [a] → b.reorderBells ≤ bellsFrom a.first s.bell.num → x.state ≠ 4 → x.state ≠ 5 →
     exec (.auReorderTimeout n info) s = .next (settleFlush n (auComplete n a.ts [] info (takePeer n a s)))) ∧
  (∀ (n : Nat) (x : Session) (pic : OutPic) (b : BindOps) (p : Pic) (s : State), Runs s → look s.sessions n = some x → x.dec.bind = some b →
     look x.pics pic.desc = some p → p.whole = true → p.shows = true → Completes (.decodeOutput n pic) s (fun t => (∃ y, look t.sessions n = some y ∧
     y.dec.outputs = (x.dec.outputs + 1) % 2 ^ 32 ∧ y.state = x.state ∧ (b.use = 0 → y.dec.latest = some pic.desc ∧ y.dec.held = x.dec.held) ∧
     (b.use ≠ 0 → y.dec.latest = none ∧
     y.dec.held = (match nextBuffer x.dec b.outCount with
      | none => x.dec.held
      | some i => addS x.dec.held i))) ∧ t.mem = s.mem)) ∧
  (∀ (k : Nat) (s : State), Runs s → has s.pool.filling k = true → Completes (.protectedFillDone k) s (fun t => t.pool.filling = remS s.pool.filling k ∧
     (∀ a, bufAddr s (k / 2 ^ 25) (k % 2 ^ 25) ≤ a → a < bufAddr s (k / 2 ^ 25) (k % 2 ^ 25) + classSize (k / 2 ^ 25) → readMem t a = 0) ∧
     (∀ a, a < bufAddr s (k / 2 ^ 25) (k % 2 ^ 25) ∨ bufAddr s (k / 2 ^ 25) (k % 2 ^ 25) + classSize (k / 2 ^ 25) ≤ a → readMem t a = readMem s a) ∧
     t = { s with mem := t.mem, memc := { s.memc with poison := t.memc.poison }, pool := { s.pool with filling := t.pool.filling, free := t.pool.free } })) ∧
  (∀ (v : Word) (s : State), Serves s → v &&& 0xFFFFFFFE = 0 → bit v 0 = true → s.dec.en = true ∨ s.sec.ready = true →
     exec (.decCtrlWrite v) s = .next { wake s with dec := { s.dec with en := true } }) ∧
  (∀ (v : Word) (s : State), Serves s → v &&& 0xFFFFFFFE = 0 → bit v 0 = false → s.sessions.all (fun e => decide (e.2.kind ≠ 1)) = true →
     exec (.decCtrlWrite v) s = .next { wake s with dec := { s.dec with en := false } })

/-- An ACTIVE encode session past the demotion threshold asks for one effort lower, and one without recent fallback whose load fits asks for one higher;
the bucket boundary of its frame takes the rate, bounds and resilience values and (where no stream change waits) the effort that wait, and marks the
frame, and changes no byte of memory. A PIX unit of a dispatched band whose dependences are met starts on a free PIX engine of the band's Quarter
while dispatch runs, outside the Guard window, when its tile row is begun or holds a work buffer or finds one free (and, where its frame searches, the
row window has room) and no unit that comes before it in R113's order is ready; the tile row then holds a work buffer of the Quarter. A tile row whose
PIX work is done, of a band whose predecessor has committed, starts on a free ENT engine, in the Guard window only for a band past its deadline, and
the band notes it. The engine runs the unit and no other engine changes. The same holds of the units and the parse of a decode band. A coded tile row
is kept with its bytes, its coder state and the blocks of it that are in fallback, and a band all of whose rows are coded waits for its check; in the
Bell of its dispatch a coded band whose lowest branch fits the budget commits with that branch, the next band following or the frame ending, and
(where no replay of the next band is cancelled, that is with branch 0 or past a deadline) the bucket takes exactly its bits and the filler; one that
fits with none is coded again whole in fallback mode and counted; a fallback band commits without a check when it fits its bound and the bucket and
work buffers are free; packets of a committed band advance the sequence number by their count; BAND_DONE and FRAME_DONE entries leave in order.
Rules: R21, R25, R100, R101, R113, R115, R116, R117, R172, R201, R205, R210. -/
def Obligations.BandsAreDispatchedCodedAndCommitted : Prop :=
  (∀ (n : Nat) (x : Session) (s : State), Runs s → look s.sessions n = some x → bit s.sched.effort 0 = true → x.kind = 0 → x.state = 2 →
     x.effortTo = none → x.stream.effortMin < x.effort → s.plan.cfg.permil ≤ (x.recent.filter (fun b => b)).length →
     exec (.effortLower n) s = .next { s with sessions := alter s.sessions n (fun x => { x with effortTo := some (x.effort - 1) }) }) ∧
  (∀ (n : Nat) (x : Session) (s : State), Runs s → look s.sessions n = some x → bit s.sched.effort 0 = true → x.kind = 0 → x.state = 2 →
     x.effortTo = none → x.effort < x.stream.effortMax → fld s.sched.effort 31 16 ≤ bellsFrom x.lastFb s.bell.num →
     admits s (planQuarter x) (some n) { loadOf s x with effort := x.effort + 1 } x.phase = true →
     exec (.effortRaise n) s = .next { s with sessions := alter s.sessions n (fun x => { x with effortTo := some (x.effort + 1) }) }) ∧
  (∀ (n : Nat) (x : Session) (f : Frame) (s : State), Runs s → look s.sessions n = some x → x.frames.find? (fun f => !frameOver f) = some f →
     f.bounded = false → x.kind = 0 → Completes (.bucketBoundary n) s (fun t => (∃ y, look t.sessions n = some y ∧ y.newRate = none ∧
     y.newBounds = none ∧ y.newRes = none ∧ (x.newStream = none → y.effort = x.effortTo.getD x.effort ∧ y.effortTo = none) ∧
     y.frames.all (fun g => decide (g.num ≠ f.num) || g.bounded) = true) ∧ t.mem = s.mem)) ∧
  (∀ (u : UnitRef) (x : Session) (f : Frame) (b : Band) (s : State), Runs s → look s.sessions u.handle = some x → x.kind = 0 → x.tan.role ≠ 2 →
     frameOf x u.frame = some f → look f.bands u.band = some b → s.bell.window ≠ .guard → dispatches s = true → engineFree s u.engine 0 = true →
     u.engine / 32 = b.quarter → u.quarter = b.quarter → b.st = 1 → b.fb = false → b.deadline = false → u.branch ∈ branches b →
     u.col < tileCols x.stream.codec f.width → u.block < rowBlocks x f u.band u.col → u.stage < stagesOf x.effort →
     (u.branch, u.col, u.block, u.stage) ∉ b.units → unitRuns s u = false → unitReady x f b u = true →
     rowBegun s b { handle := u.handle, frame := u.frame, band := u.band, branch := u.branch, col := u.col } = true ∨ ((holdsWork s b.quarter { handle := u.handle, frame := u.frame, band := u.band, branch := u.branch, col := u.col } = true ∨ workUsed s b.quarter < 64) ∧
     (hasWindows f = false ∨ windowRows s b.quarter < 11)) → earlierUnit s b.quarter (groupOf u.branch b.cadence) b.mark = false →
     Completes (.workUnitStart u) s (fun t => (engOf t u.engine).state = 3 ∧ (engOf t u.engine).cancel = false ∧ (engOf t u.engine).unit = some u ∧
     (∀ k, k ≠ u.engine → engOf t k = engOf s k) ∧ t = { s with engines := t.engines, freeCtr := s.freeCtr + 1, quarters := t.quarters })) ∧
  (∀ (u : UnitRef) (x : Session) (a : Au) (b : DecBand) (s : State), Runs s → look s.sessions u.handle = some x → x.kind = 1 → x.tan.role ≠ 2 →
     decBandOf x u.frame u.band = some (a, b) → s.bell.window ≠ .guard → dispatches s = true → engineFree s u.engine 0 = true →
     u.engine / 32 = b.quarter → u.quarter = b.quarter → decUnitOpen s a b u = true → earlierUnit s b.quarter (groupOf 0 b.cadence) a.mark = false →
     Completes (.workUnitStart u) s (fun t => (engOf t u.engine).state = 3 ∧ (engOf t u.engine).cancel = false ∧ (engOf t u.engine).unit = some u ∧
     (∀ k, k ≠ u.engine → engOf t k = engOf s k) ∧ t = { s with engines := t.engines, freeCtr := s.freeCtr + 1 })) ∧
  (∀ (r : TileRef) (e : Nat) (x : Session) (f : Frame) (b : Band) (s : State), Runs s → look s.sessions r.handle = some x → x.kind = 0 → x.tan.role ≠ 2 →
     frameOf x r.frame = some f → look f.bands r.band = some b → dispatches s = true → engineFree s e 1 = true → e / 32 = b.quarter → b.st = 1 →
     b.fb = false →
     (match aboveBand f r.band with
      | none => r.band = 1
      | some p => p.st = 3) → s.bell.window ≠ .guard ∨ b.deadline = true → r.branch ∈ branches b → r.col < tileCols x.stream.codec f.width →
     (r.branch, r.col) ∉ b.ent → b.deadline = true ∨ pixDone x f r.band b r.branch r.col = true →
     earlierRow s b.quarter (groupOf r.branch b.cadence) b.mark = false → Completes (.tileRowEntropyStart r e) s (fun t => (engOf t e).state = 3 ∧
     (engOf t e).cancel = false ∧ (∃ u, (engOf t e).unit = some u ∧ u.handle = r.handle ∧ u.frame = r.frame ∧ u.band = r.band ∧ u.branch = r.branch ∧
     u.col = r.col ∧ u.stage = 99) ∧ (∃ y g c, look t.sessions r.handle = some y ∧ frameOf y r.frame = some g ∧ look g.bands r.band = some c ∧
     c.ent = b.ent ++ [(r.branch, r.col)] ∧ c.st = 1 ∧ c.units = b.units) ∧ (∀ k, k ≠ e → engOf t k = engOf s k) ∧
     t = { s with engines := t.engines, freeCtr := s.freeCtr + 1, sessions := t.sessions })) ∧
  (∀ (r : TileRef) (e : Nat) (x : Session) (a : Au) (b : DecBand) (s : State), Runs s → look s.sessions r.handle = some x → x.kind = 1 → x.tan.role ≠ 2 →
     decBandOf x r.frame r.band = some (a, b) → dispatches s = true → engineFree s e 1 = true → e / 32 = b.quarter → parseOpen s a b = true →
     earlierRow s b.quarter (groupOf 0 b.cadence) a.mark = false → Completes (.tileRowEntropyStart r e) s (fun t => (engOf t e).state = 3 ∧
     (engOf t e).cancel = false ∧ (∃ u, (engOf t e).unit = some u ∧ u.handle = r.handle ∧ u.frame = r.frame ∧ u.band = r.band ∧ u.branch = r.branch ∧
     u.col = r.col ∧ u.stage = 99) ∧ (∀ k, k ≠ e → engOf t k = engOf s k) ∧
     t = { s with engines := t.engines, freeCtr := s.freeCtr + 1, sessions := t.sessions })) ∧
  (∀ (r : TileRef) (res : TileResult) (x : Session) (f : Frame) (b : Band) (s : State), Runs s → look s.sessions r.handle = some x → x.kind = 0 →
     x.tan.role ≠ 2 → frameOf x r.frame = some f → look f.bands r.band = some b → b.st = 1 → (r.branch, r.col) ∈ b.ent →
     look b.rows (rowKey r.branch r.col) = none → outBufs res.bytes.length ≤ 8 → outUsed s b.quarter + outBufs res.bytes.length ≤ 512 →
     Completes (.tileRowCoded r res) s (fun t => (∃ y g c, look t.sessions r.handle = some y ∧ frameOf y r.frame = some g ∧
     look g.bands r.band = some c ∧ look c.rows (rowKey r.branch r.col) = some (res.bytes, rowFallback s x f r b res) ∧
     look c.ends (rowKey r.branch r.col) = some res.state ∧ (b.fb = false → allCoded y g c = true → c.st = 2)) ∧ t.mem = s.mem ∧ t.bell = s.bell)) ∧
  (∀ (n : Nat) (x : Session) (res : BandResult) (f : Frame) (k br : Nat) (b : Band) (s : State), Runs s → look s.sessions n = some x → x.kind = 0 →
     nextBand x = some (f, k, b) → frameOf x f.num = some f → b.bell = s.bell.num → b.st = 2 →
     (branches b).find? (fun r => decide (((codedOf n s x f k (branchResult x f b r) res.frame).coded + (codedOf n s x f k (branchResult x f b r) res.frame).frameBits) ≤ budgetOf x f k 0)) = some br →
     Completes (.bandCheck n res) s (fun t => (∃ y, look t.sessions n = some y ∧ (br = 0 ∨ b.deadline = true →
     y.rate.full = x.rate.full + (((codedOf n s x f k (branchResult x f b br) res.frame).coded + (codedOf n s x f k (branchResult x f b br) res.frame).frameBits) + fillerBits x f b k (x.rate.full + ((codedOf n s x f k (branchResult x f b br) res.frame).coded + (codedOf n s x f k (branchResult x f b br) res.frame).frameBits) * 256)) * 256) ∧
     (k < bandsOf f.height → ∃ g c, frameOf y f.num = some g ∧ g.next = k + 1 ∧ look g.bands k = some c ∧ c.st = 3) ∧ (k = bandsOf f.height →
     y.idleFrom = some s.bell.num ∧ ∃ e, y.doneWait = x.doneWait ++ [e] ∧ e.1 = f.num)) ∧ t.bell.num = s.bell.num)) ∧
  (∀ (n : Nat) (x : Session) (res : BandResult) (f : Frame) (k : Nat) (b : Band) (s : State), Runs s → look s.sessions n = some x → x.kind = 0 →
     nextBand x = some (f, k, b) → frameOf x f.num = some f → b.bell = s.bell.num → b.st = 2 → (∀ r, r ∈ branches b →
     budgetOf x f k 0 < ((codedOf n s x f k (branchResult x f b r) res.frame).coded + (codedOf n s x f k (branchResult x f b r) res.frame).frameBits)) →
     Completes (.bandCheck n res) s (fun t => (∃ y g c, look t.sessions n = some y ∧ frameOf y f.num = some g ∧ look g.bands k = some c ∧ c.st = 1 ∧
     c.fb = true ∧ c.nocheck = true ∧ c.q = fbQ x.stream.codec ∧ y.rate.full = x.rate.full) ∧ t.rc.reject = Machine.up s.rc.reject 1 ∧ t.mem = s.mem)) ∧
  (∀ (n : Nat) (x : Session) (res : BandResult) (f : Frame) (k : Nat) (b : Band) (s : State), Runs s → look s.sessions n = some x → x.kind = 0 →
     nextBand x = some (f, k, b) → frameOf x f.num = some f → b.bell = s.bell.num → b.st = 1 → b.nocheck = true →
     workUsed s b.quarter + workLacks s b.quarter (bandTags n f.num k 0 (tileCols x.stream.codec f.width)) ≤ 64 →
     (codedOf n s x f k (fallbackResult x f k b res) res.frame).coded * 256 ≤ bandBound (frameStream x f) x.rate.rateMax f.key k →
     x.rate.full + ((codedOf n s x f k (fallbackResult x f k b res) res.frame).coded + (codedOf n s x f k (fallbackResult x f k b res) res.frame).frameBits) * 256 ≤ x.rate.size →
     Completes (.fallbackBandCommit n res) s (fun t => (∃ y, look t.sessions n = some y ∧
     (y.rate.full = x.rate.full + (((codedOf n s x f k (fallbackResult x f k b res) res.frame).coded + (codedOf n s x f k (fallbackResult x f k b res) res.frame).frameBits) + fillerBits x f b k (x.rate.full + ((codedOf n s x f k (fallbackResult x f k b res) res.frame).coded + (codedOf n s x f k (fallbackResult x f k b res) res.frame).frameBits) * 256)) * 256) ∧
     (k < bandsOf f.height → ∃ g c, frameOf y f.num = some g ∧ g.next = k + 1 ∧ look g.bands k = some c ∧ c.st = 3) ∧ (k = bandsOf f.height →
     y.idleFrom = some s.bell.num ∧ ∃ e, y.doneWait = x.doneWait ++ [e] ∧ e.1 = f.num)) ∧ t.bell.num = s.bell.num)) ∧
  (∀ (n : Nat) (x : Session) (pkts : List Nat) (r : BandRec) (l : List BandRec) (s : State), Runs s → look s.sessions n = some x → x.recs = r :: l →
     pkts.all (fun m => decide (0 < m) && decide (m ≤ x.rtp.payMax)) = true → r.payload ≠ none ∨ pkts = [] → s.dev.safe = false →
     s.tandem.stopped = false ∨ x.tan.role = 0 → Completes (.packetizeBand n pkts) s (fun t => (∃ y, look t.sessions n = some y ∧ y.recs = l ∧
     y.rtp = { x.rtp with seq := BitVec.ofNat 16 (x.rtp.seq.toNat + pkts.length), roc := x.rtp.roc + BitVec.ofNat 32 ((x.rtp.seq.toNat + pkts.length) / 65536), packets := x.rtp.packets + pkts.length }) ∧
     t.mem = s.mem)) ∧
  (∀ (n : Nat) (x : Session) (h : Ht) (p : HtPart) (l : List HtPart) (s : State), Runs s → look s.sessions n = some x → x.ht = some h →
     h.waiting = p :: l → h.w + p.bytes - h.consumed ≤ h.size →
     Completes (.bandDone n) s (fun t => (∃ u, t = enqueueCqe h.fn h.cq { r0 := tokenOf n x.gen, r1 := BitVec.ofNat 32 p.frame, r2 := BitVec.ofNat 32 (h.w % max 1 h.size), r3 := BitVec.ofNat 32 p.bytes, mark := some p.mark, cid := BitVec.ofNat 16 p.band, status := BitVec.ofNat 16 p.flags, opcode := 0x7F, cmdRing := h.cmdRing, counts := false, bytes := some (n, p.bytes) } u ∧
     ∃ y, look u.sessions n = some y ∧ y.ht = some { h with w := h.w + p.bytes, waiting := l }) ∧ t.mem = s.mem)) ∧
  (∀ (n : Nat) (x : Session) (num bits flags : Nat) (l : List (Nat × Nat × Nat)) (s : State), Runs s → look s.sessions n = some x →
     x.doneWait = (num, bits, flags) :: l → flags < 8 ∨ x.tan.live = false →
     exec (.frameDone n) s = .next (enqueueCqe x.fn x.openCq { r0 := tokenOf n x.gen, r1 := BitVec.ofNat 32 num, r2 := BitVec.ofNat 32 bits, r3 := BitVec.ofNat 32 (flags % 8), mark := some (nowMark s), cid := 0xFFFF, status := 0, opcode := 0x7E, cmdRing := x.hdr.ring, counts := false, bytes := none } (stamp { s with sessions := alter s.sessions n (fun x => { x with doneWait := l }) })))

/-- ENABLE of frame ingest needs BAR2 set up, else it is refused with 0x0D0F; ENABLE of rate control clears only while no encode session exists, else
0x0309; a default inside its range is taken and any other refused with 0x0308. Everything else is as before. The interleave order changes while the
controller is disabled and is refused with 0x0E06 while it is enabled; ENABLE needs completed training, else 0x0E0E; a clear of ENABLE is refused with
0x0E06. Everything else is as before. ENABLE of the pool needs the enabled memory controller and an applied plan, else 0x050B, and clears only while
no buffer is allocated, else 0x050D; a function quota is taken up to the class count and refused with 0x050C above it (the functions 128 to 255 of the
table row are the DESIGN CHOICE of log entry 24); lowered counts are laid out when no buffer is allocated or being filled, without the buffers that
lie on retired pages. Everything else is as before. ENABLE needs trained memory and watermarks in order, else it is refused with its code; it clears
only while no session exists; a watermark pair in order is taken and any other refused with 0x020E; a write of the context selector starts a copy,
which ends valid with the 4096-byte record of an existing session and not valid for any other. Everything else is as before.
Rules: R97, R98, R147, R230, R231, R320, R342, R343, R351, R352, R369. -/
def Obligations.BlockRegistersAreConfigured : Prop :=
  (∀ (v : Word) (s : State), Serves s → v &&& 0xFFFFFFFE = 0 →
     exec (.ingestCtrlWrite v true) s = .next { wake s with ingest := { s.ingest with en := bit v 0 } }) ∧
  (∀ (v : Word) (s : State), Serves s → v &&& 0xFFFFFFFE = 0 → bit v 0 = true →
     exec (.ingestCtrlWrite v false) s = .next { wake s with ingest := { s.ingest with reason := 0x0D0F } }) ∧
  (∀ (v : Word) (s : State), Serves s → v &&& 0xFFFFFFFE = 0 → bit v 0 = true →
     exec (.rcCtrlWrite v) s = .next { wake s with rc := { s.rc with en := true } }) ∧
  (∀ (v : Word) (s : State), Serves s → v &&& 0xFFFFFFFE = 0 → bit v 0 = false → s.rc.en = true →
     s.sessions.any (fun e => decide (e.2.kind = 0)) = true → exec (.rcCtrlWrite v) s = .next { wake s with rc := { s.rc with reason := 0x0309 } }) ∧
  (∀ (v : Word) (s : State), Serves s → v &&& 0xFFFFFFFE = 0 → bit v 0 = false →
     s.rc.en = false ∨ s.sessions.any (fun e => decide (e.2.kind = 0)) = false →
     exec (.rcCtrlWrite v) s = .next { wake s with rc := { s.rc with en := false } }) ∧
  (∀ (v : Word) (s : State), Serves s → v &&& 0x00F000FE = 0 → rcDefaultOk 0 v = true →
     exec (.rcDefaultsWrite 0 v) s = .next { wake s with rc := { s.rc with fork := v } }) ∧
  (∀ (v : Word) (s : State), Serves s → rcDefaultOk 1 v = true → exec (.rcDefaultsWrite 1 v) s = .next { wake s with rc := { s.rc with adapt := v } }) ∧
  (∀ (v : Word) (s : State), Serves s → v &&& 0xFF000000 = 0 → rcDefaultOk 2 v = true →
     exec (.rcDefaultsWrite 2 v) s = .next { wake s with rc := { s.rc with model := v } }) ∧
  (∀ (k : Nat) (v : Word) (s : State), Serves s →
     v &&& (match k with
      | 0 => 0x00F000FE
      | 1 => 0
      | _ => 0xFF000000) = 0 → rcDefaultOk k v = false → exec (.rcDefaultsWrite k v) s = .next { wake s with rc := { s.rc with reason := 0x0308 } }) ∧
  (∀ (v : Word) (s : State), Serves s → v &&& 0xFFFFFFFC = 0 → s.memc.en = false →
     exec (.memcMapWrite v) s = .next { wake s with memc := { s.memc with order := fld v 1 0 } }) ∧
  (∀ (v : Word) (s : State), Serves s → v &&& 0xFFFFFFFC = 0 → s.memc.en = true →
     exec (.memcMapWrite v) s = .next { wake s with memc := { s.memc with reason := 0x0E06 } }) ∧
  (∀ (v : Word) (s : State), Serves s → v &&& 0xFFFFFFFE = 0 → bit v 0 = true → s.memc.en = false → s.memc.trainState = 2 →
     exec (.memcCtrlWrite v) s = .next { wake s with memc := { s.memc with en := true, chans := s.memc.chans.map (fun e => (e.1, if e.2.state = 6 then e.2 else { e.2 with state := 3 })) } }) ∧
  (∀ (v : Word) (s : State), Serves s → v &&& 0xFFFFFFFE = 0 → bit v 0 = true → s.memc.en = false → s.memc.trainState ≠ 2 →
     exec (.memcCtrlWrite v) s = .next { wake s with memc := { s.memc with reason := 0x0E0E } }) ∧
  (∀ (v : Word) (s : State), Serves s → v &&& 0xFFFFFFFE = 0 → bit v 0 = false → s.memc.en = true →
     exec (.memcCtrlWrite v) s = .next { wake s with memc := { s.memc with reason := 0x0E06 } }) ∧
  (∀ (v : Word) (s : State), Serves s → v &&& 0xFFFFFFFE = 0 → bit v 0 = true → s.pool.en = false → s.memc.en = true → s.plan.first = true →
     exec (.poolCtrlWrite v) s = .next { wake s with pool := { s.pool with en := true } }) ∧
  (∀ (v : Word) (s : State), Serves s → v &&& 0xFFFFFFFE = 0 → bit v 0 = true → s.pool.en = false → s.memc.en = false ∨ s.plan.first = false →
     exec (.poolCtrlWrite v) s = .next { wake s with pool := { s.pool with reason := 0x050B } }) ∧
  (∀ (v : Word) (s : State), Serves s → v &&& 0xFFFFFFFE = 0 → bit v 0 = false → s.pool.en = true → s.pool.bufs = [] →
     exec (.poolCtrlWrite v) s = .next { wake s with pool := { s.pool with en := false } }) ∧
  (∀ (v : Word) (s : State), Serves s → v &&& 0xFFFFFFFE = 0 → bit v 0 = false → s.pool.en = true → s.pool.bufs ≠ [] →
     exec (.poolCtrlWrite v) s = .next { wake s with pool := { s.pool with reason := 0x050D } }) ∧
  (∀ (f c : Nat) (v : Word) (s : State), Serves s → v &&& 0xFE000000 = 0 → f ≤ 255 → c ≤ 4 → fld v 24 0 ≤ lookD s.pool.count c 0 →
     exec (.poolFnQuotaWrite f c v) s = .next { wake s with pool := { s.pool with fnQuota := put s.pool.fnQuota (f * 8 + c) (fld v 24 0) } }) ∧
  (∀ (f c : Nat) (v : Word) (s : State), Serves s → v &&& 0xFE000000 = 0 → f ≤ 255 → c ≤ 4 → lookD s.pool.count c 0 < fld v 24 0 →
     exec (.poolFnQuotaWrite f c v) s = .next { wake s with pool := { s.pool with reason := 0x050C } }) ∧
  (∀ (m : NMap Nat) (s : State), Runs s → s.pool.nextCount = some m → s.pool.bufs = [] → s.pool.filling = [] →
     exec .poolRelayout s = .next (settleRetired (layPool m s))) ∧
  (∀ (m : NMap Nat) (s : State), Runs s → s.pool.nextCount = some m → s.pool.bufs = [] → s.pool.filling = [] → s.memc.table = [] →
     exec .poolRelayout s = .next { s with pool := { s.pool with count := m, nextCount := none, lay := layFrom m 0 [0, 1, 2, 3, 4], free := if s.memc.initDone then m.map (fun e => (e.1, [(0, e.2)])) else [], gone := [] } }) ∧
  (∀ (v : Word) (s : State), Serves s → v &&& 0xFFFFFFFE = 0 → bit v 0 = true → trained s = true → wmOk s s.sess.wm 0 = true →
     wmOk s s.sess.wm 1 = true → exec (.sessCtrlWrite v) s = .next { wake s with sess := { s.sess with en := true } }) ∧
  (∀ (v : Word) (s : State), Serves s → v &&& 0xFFFFFFFE = 0 → bit v 0 = true → trained s = false →
     exec (.sessCtrlWrite v) s = .next { wake s with sess := { s.sess with reason := 0x0205 } }) ∧
  (∀ (v : Word) (s : State), Serves s → v &&& 0xFFFFFFFE = 0 → bit v 0 = false → s.sessions = [] →
     exec (.sessCtrlWrite v) s = .next { wake s with sess := { s.sess with en := false } }) ∧
  (∀ (v : Word) (s : State), Serves s → v &&& 0xFFFFFFFE = 0 → bit v 0 = false → s.sessions ≠ [] →
     exec (.sessCtrlWrite v) s = .next { wake s with sess := { s.sess with reason := 0x020F } }) ∧
  (∀ (i : Nat) (v : Word) (s : State), Serves s → v &&& 0xFE000000 = 0 → i < 4 → wmOk s (put s.sess.wm i (fld v 24 0)) (i / 2) = true →
     exec (.sessDepotWmWrite i v) s = .next { wake s with sess := { s.sess with wm := put s.sess.wm i (fld v 24 0) } }) ∧
  (∀ (i : Nat) (v : Word) (s : State), Serves s → v &&& 0xFE000000 = 0 → i < 4 → wmOk s (put s.sess.wm i (fld v 24 0)) (i / 2) = false →
     exec (.sessDepotWmWrite i v) s = .next { wake s with sess := { s.sess with reason := 0x020E } }) ∧
  (∀ (v : Word) (s : State), Serves s → v &&& 0xFFFC0000 = 0 →
     exec (.sessCtxSelWrite v) s = .next { wake s with sess := { s.sess with ctxSel := v, ctxBusy := true, ctxDone := false } }) ∧
  (∀ (x : Session) (s : State), Runs s → s.sess.ctxBusy = true → look s.sessions (fld s.sess.ctxSel 17 0) = some x →
     exec .sessCtxCopyDone s = .next { s with sess := { s.sess with ctxBusy := false, ctxDone := true, ctxValid := true, ctxCopy := toWords 1024 (recImage s (fld s.sess.ctxSel 17 0) x) } }) ∧
  (∀ (s : State), Runs s → s.sess.ctxBusy = true → look s.sessions (fld s.sess.ctxSel 17 0) = none →
     exec .sessCtxCopyDone s = .next { s with sess := { s.sess with ctxBusy := false, ctxDone := true, ctxValid := false, ctxCopy := [] } })

/-- The engine runs the word of its micro-store at its micro-PC with the nano-word of its Quarter that the word names. A word without a fault runs: the
gap and the busy count take its stall and its cycles, the micro-PC goes on, branches, calls, returns, loops or resumes the abandoned unit as its NEXT
says, and at a mark word the engine waits for the mark; a word with a fault ends in the engine fault of its kind; a completed mark publishes the
staged writes and goes on, ends the unit, or, with a cancel or deadline pending, discards the writes and enters the handler; a gap past its limit is
an engine fault. No other engine changes. A sample that agrees ends with the frame counted on the primary Quarter; one that differs retires the
Quarter that the third decode finds wrong, both when neither agrees; a lost sample is abandoned and counted; an idle gang is gated when gating is on,
and work ungates it. A gating changes nothing else.
Rules: R289, R291, R292, R293, R296, R297, R298, R300, R310, R311, R519, R520. -/
def Obligations.EnginesRunAndAreChecked : Prop :=
  (∀ (e : Nat) (m : MicroIn) (s : State), Runs s → e < 512 → engRuns (engOf s e) = true → wordFault (engOf s e) (issueOf s e m) = none →
     stagedCount (nanoOps (issueOf s e m) s (e / 32) { engOf s e with stack := (sequence (engOf s e) (issueOf s e m)).2.1, lc := (sequence (engOf s e) (issueOf s e m)).2.2 }).staging ≤ 32 →
     (engOf s e).gap + (m.stall + cycles (field (issueOf s e m).micro 17 15)) < 8192 →
     ((issueOf s e m).micro.getLsbD 14 || decide (field (issueOf s e m).micro 28 26 = 5)) = false →
     Completes (.microwordIssue e m) s (fun t => (field (issueOf s e m).micro 28 26 = 0 → (engOf t e).pc = (engOf s e).pc + 1) ∧
     (field (issueOf s e m).micro 28 26 = 1 ∨ field (issueOf s e m).micro 28 26 = 2 → (engOf t e).pc = branchTo (engOf s e) (issueOf s e m)) ∧
     (field (issueOf s e m).micro 28 26 = 3 → (engOf t e).pc = (engOf s e).stack.headD 0) ∧ (field (issueOf s e m).micro 28 26 = 4 →
     (engOf t e).pc = if (engOf s e).lc = 0 ∨ (engOf s e).lc = 1 then (engOf s e).pc + 1 else branchTo (engOf s e) (issueOf s e m)) ∧
     (field (issueOf s e m).micro 28 26 = 6 → (engOf t e).pc = (engOf s e).saved ∧ (engOf t e).state = 3 ∧ (engOf t e).abandoned = false) ∧
     (engOf t e).inMark = none ∧ (engOf t e).gap = (engOf s e).gap + (m.stall + cycles (field (issueOf s e m).micro 17 15)) ∧
     (engOf t e).busyNow = (engOf s e).busyNow + (m.stall + cycles (field (issueOf s e m).micro 17 15)) ∧ (∀ k, k ≠ e → engOf t k = engOf s k) ∧
     t = { s with engines := t.engines, freeCtr := s.freeCtr + 4 })) ∧
  (∀ (e : Nat) (m : MicroIn) (s : State), Runs s → e < 512 → engRuns (engOf s e) = true → wordFault (engOf s e) (issueOf s e m) = none →
     stagedCount (nanoOps (issueOf s e m) s (e / 32) { engOf s e with stack := (sequence (engOf s e) (issueOf s e m)).2.1, lc := (sequence (engOf s e) (issueOf s e m)).2.2 }).staging ≤ 32 →
     (engOf s e).gap + (m.stall + cycles (field (issueOf s e m).micro 17 15)) < 8192 →
     ((issueOf s e m).micro.getLsbD 14 || decide (field (issueOf s e m).micro 28 26 = 5)) = true →
     Completes (.microwordIssue e m) s (fun t => (engOf t e).inMark = some (if field (issueOf s e m).micro 28 26 = 5 then .dispatch else .goto (sequence (engOf s e) (issueOf s e m)).1) ∧
     (engOf t e).gap = (engOf s e).gap + (m.stall + cycles (field (issueOf s e m).micro 17 15)) ∧ (∀ k, k ≠ e → engOf t k = engOf s k) ∧
     t = { s with engines := t.engines, freeCtr := s.freeCtr + 4 })) ∧
  (∀ (e : Nat) (m : MicroIn) (s : State), Runs s → e < 512 → engRuns (engOf s e) = true → wordFault (engOf s e) (issueOf s e m) = none →
     stagedCount (nanoOps (issueOf s e m) s (e / 32) { engOf s e with stack := (sequence (engOf s e) (issueOf s e m)).2.1, lc := (sequence (engOf s e) (issueOf s e m)).2.2 }).staging ≤ 32 →
     8192 ≤ (engOf s e).gap + (m.stall + cycles (field (issueOf s e m).micro 17 15)) → exec (.microwordIssue e m) s = .next (engFault e 1 s)) ∧
  (∀ (e k : Nat) (m : MicroIn) (s : State), Runs s → e < 512 → engRuns (engOf s e) = true → wordFault (engOf s e) (issueOf s e m) = some k →
     exec (.microwordIssue e m) s = .next (engFault e k s)) ∧
  (∀ (e p : Nat) (s : State), Runs s → (engOf s e).inMark = some (.goto p) → (engOf s e).cancel = false → (engOf s e).deadline = false →
     exec (.markWordComplete e) s = .next (setEng (publish (e / 32) (engOf s e).staging s) e (fun x => { x with staging := [], inMark := none, gapMax := max x.gapMax x.gap, gap := 0, marks := up x.marks 1, savedS := x.sregs, pc := p, saved := p }))) ∧
  (∀ (e : Nat) (u : UnitRef) (s : State), Runs s → (engOf s e).inMark = some .dispatch → (engOf s e).cancel = false → (engOf s e).deadline = false →
     (engOf s e).abandoned = false → (engOf s e).unit = some u →
     exec (.markWordComplete e) s = .next (unitDone u (setEng (publish (e / 32) (engOf s e).staging s) e (fun x => { x with staging := [], inMark := none, gapMax := max x.gapMax x.gap, gap := 0, marks := up x.marks 1, savedS := x.sregs, state := 2, unit := none, abandoned := false, cancel := false, deadline := false })))) ∧
  (∀ (e : Nat) (m : MarkNext) (s : State), Runs s → (engOf s e).inMark = some m → (engOf s e).cancel = true → (engOf s e).state = 3 →
     Completes (.markWordComplete e) s (fun t => (engOf t e).staging = [] ∧ (engOf t e).pc = 4 ∧ (engOf t e).state = 4 ∧
     (engOf t e).abandoned = true ∧ (∀ k, k ≠ e → engOf t k = engOf s k) ∧ t = { s with engines := t.engines })) ∧
  (∀ (e : Nat) (s : State), Runs s → e < 512 → (engOf s e).state = 3 ∨ (engOf s e).state = 4 →
     exec (.markWatchdog e) s = .next (engFault e 1 (setEng s e (fun x => { x with gap := max x.gap 8192 })))) ∧
  (∀ (n q : Nat) (l : List Nat) (x : Session) (v : Second) (s : State), Runs s → look s.sessions n = some x → shadowsOf s n = q :: l →
     exec (.selfShadowCheck n .agree v) s = .next (endSample n (setQtr s x.quarter (fun t => { t with shFrames := up t.shFrames 1 })))) ∧
  (∀ (n q : Nat) (l : List Nat) (x : Session) (v : Second) (s : State), Runs s → look s.sessions n = some x → shadowsOf s n = q :: l →
     exec (.selfShadowCheck n .lost v) s = .next (abandonSample n s)) ∧
  (∀ (n q : Nat) (l : List Nat) (x : Session) (s : State), Runs s → look s.sessions n = some x → shadowsOf s n = q :: l →
     exec (.selfShadowCheck n .differ .firstShadow) s = .next (retireByCheck x.quarter n (endSample n (setQtr s x.quarter (fun t => { t with shFrames := up t.shFrames 1 }))))) ∧
  (∀ (n q : Nat) (l : List Nat) (x : Session) (s : State), Runs s → look s.sessions n = some x → shadowsOf s n = q :: l →
     exec (.selfShadowCheck n .differ .record) s = .next (retireByCheck q n (endSample n (setQtr s x.quarter (fun t => { t with shFrames := up t.shFrames 1 }))))) ∧
  (∀ (n q : Nat) (l : List Nat) (x : Session) (s : State), Runs s → look s.sessions n = some x → shadowsOf s n = q :: l →
     exec (.selfShadowAbandon n) s = .next (endSample n (setQtr s x.quarter (fun t => { t with shAband := up t.shAband 1 })))) ∧
  (∀ (e : Nat) (s : State), Runs s → s.plan.cfg.gating = 1 → e < 512 → gangIdle s e = true →
     exec (.engineGate e) s = .next { s with pwr := { s.pwr with gated := (gangOf s e).foldl addS s.pwr.gated } }) ∧
  (∀ (e : Nat) (s : State), Runs s → e < 512 → gangWanted s e = true →
     exec (.engineUngate e) s = .next { s with pwr := { s.pwr with gated := (gangOf s e).foldl remS s.pwr.gated } }) ∧
  (∀ (e : Nat) (s : State), Runs s → 512 ≤ e ∨ gangWanted s e = false → exec (.engineUngate e) s = .next s)

/-- A CA parity error that its two retries clear is counted on the channel, and a third failure is the severe channel event; a finished spare copy ends
COPYING with the rank spared and the event 0x0E0C; a refresh interval refreshes an enabled channel and counts its throttles down; a DIMM poll sets the
refresh rate; the tracker window clears the activations; an expired throttle is removed; initialisation ends with every buffer free; a scrub read goes
on by one line and wraps with a pass. Everything that is not named is as before.
Rules: R326, R328, R329, R330, R331, R332, R333, R334, R335, R336, R340. -/
def Obligations.MemoryChannelsAreKept : Prop :=
  (∀ (c k : Nat) (s : State), Runs s → c < 12 → 1 ≤ k → k < 3 →
     exec (.caParityError c k) s = .next { s with memc := { s.memc with chans := put s.memc.chans c { chanOf s c with caRetry := up (chanOf s c).caRetry k } } }) ∧
  (∀ (c k : Nat) (s : State), Runs s → c < 12 → 3 ≤ k →
     exec (.caParityError c k) s = .next (raise (winChan c) 4 0 false (fun s => safeState (winChan c) (setChan s c (fun x => { x with state := 6 }))) (setChan s c (fun x => { x with caRetry := up x.caRetry 2 })))) ∧
  (∀ (c r : Nat) (s : State), Runs s → (chanOf s c).copying = some r →
     exec (.rankSpareCopyDone c) s = .next (deviceEvent 0x0E0C { s with memc := { s.memc with chans := put s.memc.chans c { chanOf s c with copying := none, spared := r, state := 3 } } })) ∧
  (∀ (c : Nat) (s : State), Runs s → chanUp s c = true →
     exec (.refreshInterval c) s = .next { s with out := s.out ++ [.refresh c (chanOf s c).x2], memc := { s.memc with chans := put s.memc.chans c { chanOf s c with throttled := (chanOf s c).throttled.map (fun e => (e.1, e.2 - 1)) } } }) ∧
  (∀ (c : Nat) (hot : Bool) (s : State), Runs s → chanUp s c = true →
     exec (.dimmTempPoll c hot) s = .next { s with memc := { s.memc with chans := put s.memc.chans c { chanOf s c with x2 := hot } } }) ∧
  (∀ (c : Nat) (s : State), Runs s → c < 12 →
     exec (.trackerWindowReset c) s = .next { s with memc := { s.memc with chans := put s.memc.chans c { chanOf s c with acts := [] } } }) ∧
  (∀ (c : Nat) (r : ReqId) (s : State), Runs s → look (chanOf s c).throttled r.toNat = some 0 → fld (chanOf s c).lastThr 31 22 ≠ r.toNat →
     exec (.throttleExpiry c r) s = .next { s with memc := { s.memc with chans := put s.memc.chans c { chanOf s c with throttled := del (chanOf s c).throttled r.toNat } } }) ∧
  (∀ (c : Nat) (r : ReqId) (s : State), Runs s → look (chanOf s c).throttled r.toNat = some 0 → fld (chanOf s c).lastThr 31 22 = r.toNat →
     exec (.throttleExpiry c r) s = .next { s with memc := { s.memc with chans := put s.memc.chans c { chanOf s c with throttled := del (chanOf s c).throttled r.toNat, lastThr := merge (chanOf s c).lastThr 1 0 } } }) ∧
  (∀ (s : State), Runs s → s.memc.initDone = false → s.sec.stage = 3 ∨ s.sec.stage = 4 → s.pool.gone = [] →
     exec .dramInitDone s = .next { s with memc := { s.memc with initDone := true, initGib := capacity s / 2 ^ 30 }, pool := { s.pool with free := s.pool.count.map (fun e => (e.1, [(0, e.2)])) } }) ∧
  (∀ (s : State), Runs s → bit s.memc.scrubCfg 0 = true → s.memc.en = true → s.pwr.state < 3 → s.memc.scrubPos * 64 + 64 < capacity s →
     exec (.scrubRead .clean) s = .next { s with memc := { s.memc with scrubPos := s.memc.scrubPos + 1 } }) ∧
  (∀ (s : State), Runs s → bit s.memc.scrubCfg 0 = true → s.memc.en = true → s.pwr.state < 3 → capacity s ≤ s.memc.scrubPos * 64 + 64 →
     exec (.scrubRead .clean) s = .next { s with memc := { s.memc with scrubPos := 0, passes := up16 s.memc.passes } })

/-- An allocation within its quota takes the first free buffer of its class, held by the requester with one reference; a claim by a requester that holds
none adds a reference under the lowest free token; releasing the last reference raises the generation and, unless the buffer must be filled, puts it
at the back of the free list; a repeated operation is answered as before and does nothing; everything else is as before.
Rules: R346, R347, R348, R349, R353, R354, R355, R358. -/
def Obligations.ThePoolAllocatesClaimsAndReleases : Prop :=
  (∀ (id : PoolId) (w : PoolReq) (n i : Nat) (p : Bool) (l : List (Nat × Nat)) (s : State), Runs s →
     (keptOps s).find? (fun e => decide (e.1 = id.req) && decide (e.2.1 = id.mark)) = none → 0 < n → n ≤ 8388608 → quotaCode s w (classFor n) = none →
     s.pool.en = true → popRun (lookD s.pool.free (classFor n) []) = some (i, l) →
     Completes (.allocate id w n p) s (fun t => t.out = s.out ++ [.poolReply id.req id.mark (.handle (mkHandle (classFor n) (lookD s.pool.gens (bufKey (classFor n) i) 0) i))] ∧
     lookD t.pool.free (classFor n) [] = l ∧ (∃ b, look t.pool.bufs (bufKey (classFor n) i) = some b ∧ b.owner = w ∧ b.hold = true ∧ b.refs = 1 ∧
     b.recs = [] ∧ b.secret = false ∧ b.gen = lookD s.pool.gens (bufKey (classFor n) i) 0) ∧ (∀ k, k ≠ bufKey (classFor n) i →
     look t.pool.bufs k = look s.pool.bufs k) ∧ t = { s with out := t.out, pool := t.pool })) ∧
  (∀ (id : PoolId) (w : PoolReq) (n : Nat) (p : Bool) (s : State), Runs s →
     (keptOps s).find? (fun e => decide (e.1 = id.req) && decide (e.2.1 = id.mark)) = none → n = 0 ∨ 8388608 < n → w.kind ≠ 0 →
     Completes (.allocate id w n p) s (fun t => t.out = s.out ++ [.poolReply id.req id.mark (.refused 0x0504)] ∧ t.pool.bufs = s.pool.bufs ∧
     t.pool.free = s.pool.free ∧ t = { s with out := t.out, pool := t.pool })) ∧
  (∀ (id : PoolId) (w : PoolReq) (n : Nat) (p : Bool) (e : ReqId × DWord × BitVec 40 × PoolReply) (s : State), Runs s →
     (keptOps s).find? (fun r => decide (r.1 = id.req) && decide (r.2.1 = id.mark)) = some e →
     exec (.allocate id w n p) s = .next { s with out := s.out ++ [.poolReply id.req id.mark e.2.2.2] }) ∧
  (∀ (id : PoolId) (w : PoolReq) (h : Word) (b : Buf) (k : Nat) (s : State), Runs s →
     (keptOps s).find? (fun e => decide (e.1 = id.req) && decide (e.2.1 = id.mark)) = none → wellFormed s h = true → currentBuf s h = some b →
     recOf b w = none → freeRec b = some k → 0 < s.pool.claimFree → b.refs < 65535 →
     Completes (.claim id w h) s (fun t => t.out = s.out ++ [.poolReply id.req id.mark (.token k)] ∧
     look t.pool.bufs (bufKey (hClass h) (hIndex h)) = some { b with refs := b.refs + 1, recs := put b.recs k (w, 1) } ∧
     t.pool.claimFree = s.pool.claimFree - 1 ∧ t = { s with out := t.out, pool := t.pool })) ∧
  (∀ (id : PoolId) (w : PoolReq) (h : Word) (s : State), Runs s → (keptOps s).find? (fun e => decide (e.1 = id.req) && decide (e.2.1 = id.mark)) = none →
     wellFormed s h = false → Completes (.claim id w h) s (fun t => t.out = s.out ++ [.poolReply id.req id.mark (.refused 0x0505)] ∧
     t.pool.bufs = s.pool.bufs ∧ t.pool.claimFree = s.pool.claimFree ∧ t = { s with out := t.out, pool := t.pool })) ∧
  (∀ (id : PoolId) (w : PoolReq) (h : Word) (b : Buf) (s : State), Runs s →
     (keptOps s).find? (fun e => decide (e.1 = id.req) && decide (e.2.1 = id.mark)) = none → wellFormed s h = true → currentBuf s h = some b →
     b.owner = w → b.hold = true → b.refs = 1 → b.secret = false → has s.pool.gone (bufKey (hClass h) (hIndex h)) = false → (b.gen + 1) % 16 ≠ 0 →
     Completes (.release id w h 0) s (fun t => t.out = s.out ++ [.poolReply id.req id.mark .done] ∧
     t.pool.bufs = del s.pool.bufs (bufKey (hClass h) (hIndex h)) ∧ lookD t.pool.gens (bufKey (hClass h) (hIndex h)) 0 = (b.gen + 1) % 16 ∧
     lookD t.pool.free (hClass h) [] = pushRun (lookD s.pool.free (hClass h) []) (hIndex h) ∧ t = { s with out := t.out, pool := t.pool }))

/-- A one-beat item written to an internal queue with room becomes the newest visible item; an item with a malformed header is discarded and counted; a
producer at a full queue stalls and is counted, and its beat is accepted when room exists; the reader gets the next beat of the item R362 names, or
ABORT; a reservation is granted whole or refused and counted. Everything that is not named is as before.
Rules: R359, R360, R361, R362, R363, R370. -/
def Obligations.QueuesCarryBeats : Prop :=
  (∀ (q pr : Nat) (hold : Option (Word × Nat)) (p : PoolReq) (b : BitVec 256) (x : Queue) (s : State), Runs s → s.queue.en = true →
     internalQueue q = true → look s.queue.queues q = some x → x.slot = true → x.blocks = 0 → x.stalled = [] → x.reserved = [] →
     partialOf x p = none → parseHeader b = some (pr, 1, hold) → beatsHeld x < 32 →
     Completes (.queueBeatWrite q p true b) s (fun t => ∃ y : Queue, look t.queue.queues q = some y ∧
     y.items = x.items ++ [{ producer := p, prio := pr, size := 1, hold := hold, beats := [b], written := 1, vis := some x.visSeq, taken := 0, cut := false }] ∧
     y.visSeq = x.visSeq + 1 ∧ y.blocks = 0 ∧ t = { s with queue := { s.queue with queues := put s.queue.queues q y, bad := up s.queue.bad 0 } })) ∧
  (∀ (q : Nat) (p : PoolReq) (b : BitVec 256) (s : State), Runs s → s.queue.en = true → queueId q = true → (queueOf s q).stalled = [] →
     beatRoom s q p (queueOf s q) = true → partialOf (queueOf s q) p = none → parseHeader b = none → (queueOf s q).reserved = [] →
     exec (.queueBeatWrite q p true b) s = .next (settleQueue q (queueOf s q) { s with queue := { s.queue with bad := up s.queue.bad 1 } })) ∧
  (∀ (q : Nat) (p : PoolReq) (st : Bool) (b : BitVec 256) (s : State), Runs s → s.queue.en = true → queueId q = true →
     (queueOf s q).stalled.any (fun e => decide (e.1 = p)) = false → beatRoom s q p (queueOf s q) = false →
     exec (.queueBeatWrite q p st b) s = .next { s with queue := { s.queue with bp := up s.queue.bp 1, queues := put s.queue.queues q { queueOf s q with stalled := (queueOf s q).stalled ++ [(p, st, b)] } } }) ∧
  (∀ (q : Nat) (s : State), Runs s → s.queue.en = true → (queueOf s q).aborted = true →
     exec (.queueRead q) s = .next { s with out := s.out ++ [.queueAbort q], queue := { s.queue with queues := put s.queue.queues q { queueOf s q with aborted := false } } }) ∧
  (∀ (q : Nat) (i : Item) (s : State), Runs s → s.queue.en = true → (queueOf s q).aborted = false → nextItem (queueOf s q) = some i →
     i.taken + 1 < i.size →
     exec (.queueRead q) s = .next (emit (.queueBeats q [i.beats.getD i.taken 0]) (settleQueue q { queueOf s q with items := (queueOf s q).items.map (fun j => if j = i then { i with taken := i.taken + 1 } else j) } s))) ∧
  (∀ (q : Nat) (i : Item) (s : State), Runs s → s.queue.en = true → (queueOf s q).aborted = false → nextItem (queueOf s q) = some i →
     i.taken + 1 = i.size →
     exec (.queueRead q) s = .next (emit (.queueBeats q [i.beats.getD i.taken 0]) (settleQueue q { queueOf s q with items := (queueOf s q).items.filter (fun j => j != i) } s))) ∧
  (∀ (q : Nat) (p : PoolReq) (st : Bool) (b : BitVec 256) (l : List (PoolReq × Bool × BitVec 256)) (s : State), Runs s → s.queue.en = true →
     (queueOf s q).stalled = (p, st, b) :: l → beatRoom s q p (queueOf s q) = true →
     exec (.queueStallRelease q) s = .next (acceptBeat q p st b { s with queue := { s.queue with queues := put s.queue.queues q { queueOf s q with stalled := l } } })) ∧
  (∀ (q n : Nat) (p : PoolReq) (t : State) (s : State), Runs s → s.queue.en = true → queueId q = true → 1 ≤ n → n ≤ 64 → reserveBeats q p n s = some t →
     exec (.queueReserve q p n) s = .next { t with out := t.out ++ [.reserve q p true] }) ∧
  (∀ (q n : Nat) (p : PoolReq) (s : State), Runs s → s.queue.en = true → queueId q = true → n = 0 ∨ 64 < n ∨ reserveBeats q p n s = none →
     exec (.queueReserve q p n) s = .next { s with out := s.out ++ [.reserve q p false], queue := { s.queue with rejCnt := up s.queue.rejCnt 1 } })

/-- A write of QUEUE_FLUSH with GO flushes the selected queue in the mode named, or its own mode for 0; mode 3 is refused with 0x0608 and a queue that is
flushing with 0x0602; without GO nothing happens. A flush whose last item is gone ends, is counted and releases the claims it held back. ENABLE needs
the enabled memory controller and an applied plan, else 0x0607; a selection that names no queue is refused with 0x0601. Everything that is not named
is as before.
Rules: R364, R365, R368, R370. -/
def Obligations.QueuesAreFlushedAndConfigured : Prop :=
  (∀ (v : Word) (s : State), Serves s → v &&& 0xFFFFFEFC = 0 → bit v 8 = false → exec (.queueFlush v) s = .next (wake s)) ∧
  (∀ (v : Word) (s : State), Serves s → v &&& 0xFFFFFEFC = 0 → bit v 8 = true → fld v 1 0 = 3 →
     exec (.queueFlush v) s = .next { wake s with queue := { s.queue with reason := 0x0608 } }) ∧
  (∀ (v : Word) (s : State), Serves s → v &&& 0xFFFFFEFC = 0 → bit v 8 = true → fld v 1 0 ≠ 3 →
     (queueOf s (fld s.queue.sel 16 0)).flushing.isSome = true →
     exec (.queueFlush v) s = .next { wake s with queue := { s.queue with reason := 0x0602 } }) ∧
  (∀ (v : Word) (s : State), Serves s → v &&& 0xFFFFFEFC = 0 → bit v 8 = true → fld v 1 0 = 0 → (queueOf s (fld s.queue.sel 16 0)).flushing = none →
     exec (.queueFlush v) s = .next (flushQueue (fld s.queue.sel 16 0) (queueMode (fld s.queue.sel 16 0) (queueOf s (fld s.queue.sel 16 0))) (wake s))) ∧
  (∀ (v : Word) (s : State), Serves s → v &&& 0xFFFFFEFC = 0 → bit v 8 = true → fld v 1 0 = 1 → (queueOf s (fld s.queue.sel 16 0)).flushing = none →
     exec (.queueFlush v) s = .next (flushQueue (fld s.queue.sel 16 0) false (wake s))) ∧
  (∀ (v : Word) (s : State), Serves s → v &&& 0xFFFFFEFC = 0 → bit v 8 = true → fld v 1 0 = 2 → (queueOf s (fld s.queue.sel 16 0)).flushing = none →
     exec (.queueFlush v) s = .next (flushQueue (fld s.queue.sel 16 0) true (wake s))) ∧
  (∀ (q : Nat) (s : State), Runs s → flushOver (queueOf s q) = true → (queueOf s q).rel = [] →
     exec (.flushEnd q) s = .next (settleQueue q { queueOf s q with flushing := none } { s with queue := { s.queue with flushCnt := up s.queue.flushCnt 1 } })) ∧
  (∀ (q : Nat) (s : State), Runs s → flushOver (queueOf s q) = false → exec (.flushEnd q) s = .next s) ∧
  (∀ (v : Word) (s : State), Serves s → v &&& 0xFFFFFFFE = 0 → bit v 0 = true → s.memc.en = true → s.plan.first = true →
     exec (.queueCtrlWrite v) s = .next { wake s with queue := { s.queue with en := true } }) ∧
  (∀ (v : Word) (s : State), Serves s → v &&& 0xFFFFFFFE = 0 → bit v 0 = true → s.memc.en = false ∨ s.plan.first = false →
     exec (.queueCtrlWrite v) s = .next { wake s with queue := { s.queue with reason := 0x0607 } }) ∧
  (∀ (v : Word) (s : State), Serves s → v &&& 0xFFFFFFFE = 0 → bit v 0 = false →
     exec (.queueCtrlWrite v) s = .next { wake s with queue := { s.queue with en := false } }) ∧
  (∀ (v : Word) (s : State), Serves s → v &&& 0xFFFE0000 = 0 → fld v 16 0 ≤ 0x11FFF →
     exec (.queueSelWrite v) s = .next { wake s with queue := { s.queue with sel := v } }) ∧
  (∀ (v : Word) (s : State), Serves s → v &&& 0xFFFE0000 = 0 → 0x11FFF < fld v 16 0 →
     exec (.queueSelWrite v) s = .next { wake s with queue := { s.queue with reason := 0x0601 } })

/-- Enabling VFs in a device that has none sets their number, gives every VF reset state, its SNAPSHOT SEQ kept, and 4,096 free fences; disabling them
leaves no VF and no VF state but SNAPSHOT SEQ, and memory as it was; both are ignored where the count allows neither. That the windows of a disabled
VF reset is the PRESUMED reading of PCIe SR-IOV that the log names. Enabling a command ring needs a good base and size, else 0x0404, an enabled
completion ring, else 0x0405, and no outstanding command, else 0x0406, and clears its head and tail; enabling a completion ring clears its head, tail
and fault; disabling one that an enabled command ring or a session uses is refused with 0x0406.
Rules: R372, R375, R377, R378. -/
def Obligations.FunctionsAndRingsAreEnabledAndDisabled : Prop :=
  (∀ (n : Nat) (s : State), Runs s → 1 ≤ n → n ≤ 255 → s.vfCount = 0 → Completes (.vfEnable n) s (fun t => t.vfCount = n ∧ (∀ f, f ≠ 0 →
     fnOf t f = { Fn.reset with seq := (fnOf s f).seq }) ∧ fnOf t 0 = fnOf s 0 ∧
     t = { s with vfCount := n, fns := t.fns, irq := t.irq, sess := t.sess })) ∧
  (∀ (n : Nat) (s : State), Runs s → n = 0 ∨ 255 < n ∨ s.vfCount ≠ 0 → exec (.vfEnable n) s = .next s) ∧
  (∀ (s : State), Runs s → Completes .vfDisable s (fun t => t.vfCount = 0 ∧ (∀ f, f ≠ 0 → ∃ n, fnOf t f = { Fn.reset with seq := n }))) ∧
  (∀ (f r : Nat) (v : Word) (s : State), Serves s → v &&& 0xFFFFFFFE = 0 → fnOn s f = true → r < 8 → bit v 0 = true → (cmdOf s f r).en = false →
     ringCfgOk (cmdOf s f r).base (cmdOf s f r).cfg = true → (cqOf s f (fld (cmdOf s f r).cfg 10 8)).en = true → (cmdOf s f r).outstanding = 0 →
     exec (.cmdqCtrlWrite f r v) s = .next (setCmd (wake s) f r (fun q => { q with en := true, head := 0, tail := 0 }))) ∧
  (∀ (f r : Nat) (v : Word) (s : State), Serves s → v &&& 0xFFFFFFFE = 0 → fnOn s f = true → r < 8 → bit v 0 = true → (cmdOf s f r).en = false →
     ringCfgOk (cmdOf s f r).base (cmdOf s f r).cfg = false →
     exec (.cmdqCtrlWrite f r v) s = .next (setCmd (wake s) f r (fun q => { q with reason := 0x0404 }))) ∧
  (∀ (f r : Nat) (v : Word) (s : State), Serves s → v &&& 0xFFFFFFFE = 0 → fnOn s f = true → r < 8 → bit v 0 = true → (cmdOf s f r).en = false →
     ringCfgOk (cmdOf s f r).base (cmdOf s f r).cfg = true → (cqOf s f (fld (cmdOf s f r).cfg 10 8)).en = false →
     exec (.cmdqCtrlWrite f r v) s = .next (setCmd (wake s) f r (fun q => { q with reason := 0x0405 }))) ∧
  (∀ (f r : Nat) (v : Word) (s : State), Serves s → v &&& 0xFFFFFFFE = 0 → fnOn s f = true → r < 8 → bit v 0 = true → (cmdOf s f r).en = false →
     ringCfgOk (cmdOf s f r).base (cmdOf s f r).cfg = true → (cqOf s f (fld (cmdOf s f r).cfg 10 8)).en = true → (cmdOf s f r).outstanding ≠ 0 →
     exec (.cmdqCtrlWrite f r v) s = .next (setCmd (wake s) f r (fun q => { q with reason := 0x0406 }))) ∧
  (∀ (f r : Nat) (v : Word) (s : State), Serves s → v &&& 0xFFFFFFFE = 0 → fnOn s f = true → r < 8 → bit v 0 = false → (cmdOf s f r).en = true →
     exec (.cmdqCtrlWrite f r v) s = .next (setCmd (wake s) f r (fun q => { q with en := false, waiting := false }))) ∧
  (∀ (f r : Nat) (v : Word) (s : State), Serves s → v &&& 0xFFFFFFFE = 0 → fnOn s f = true → r < 8 → bit v 0 = true → (cqOf s f r).en = false →
     ringCfgOk (cqOf s f r).base (cqOf s f r).cfg = true →
     exec (.cqCtrlWrite f r v) s = .next (setLevel (fnSource f r) false (setCq (wake s) f r (fun q => { q with en := true, head := 0, tail := 0, fault := false, unread := [] })))) ∧
  (∀ (f r : Nat) (v : Word) (s : State), Serves s → v &&& 0xFFFFFFFE = 0 → fnOn s f = true → r < 8 → bit v 0 = true → (cqOf s f r).en = false →
     ringCfgOk (cqOf s f r).base (cqOf s f r).cfg = false →
     exec (.cqCtrlWrite f r v) s = .next (setCq (wake s) f r (fun q => { q with reason := 0x0404 }))) ∧
  (∀ (f r : Nat) (v : Word) (s : State), Serves s → v &&& 0xFFFFFFFE = 0 → fnOn s f = true → r < 8 → bit v 0 = false → (cqOf s f r).en = true →
     cqUsed s f r = true → exec (.cqCtrlWrite f r v) s = .next (setCq (wake s) f r (fun q => { q with reason := 0x0406 }))) ∧
  (∀ (f r : Nat) (v : Word) (s : State), Serves s → v &&& 0xFFFFFFFE = 0 → fnOn s f = true → r < 8 → bit v 0 = false → (cqOf s f r).en = true →
     cqUsed s f r = false → exec (.cqCtrlWrite f r v) s = .next (setCq (wake s) f r (fun q => { q with en := false })))

/-- A tail doorbell inside the ring is taken, one beyond it is refused with 0x0605; a fetch of up to 8 entries moves the head and counts them outstanding,
and waits at a FENCE while any command is outstanding; a completion is written with its phase and the command ring head and raises the level source of
its ring; a write that fails after its retries faults the ring, counts, and posts the event record 0x0412; a head doorbell beyond the tail is refused
with 0x0605. Everything that is not named is as before.
Rules: R379, R380, R382, R383, R384, R385. -/
def Obligations.RingsCarryCommandsAndCompletions : Prop :=
  (∀ (f r : Nat) (v : Word) (s : State), Serves s → v &&& 0 = 0 → fnOn s f = true → r < 8 →
     ((cmdOf s f r).tail - (cmdOf s f r).head).toNat ≤ (v - (cmdOf s f r).head).toNat → (v - (cmdOf s f r).head).toNat ≤ ringSize (cmdOf s f r).cfg →
     exec (.cmdqTailDb f r v) s = .next (setCmd (wake s) f r (fun q => { q with tail := v }))) ∧
  (∀ (f r : Nat) (v : Word) (s : State), Serves s → v &&& 0 = 0 → fnOn s f = true → r < 8 →
     (v - (cmdOf s f r).head).toNat < ((cmdOf s f r).tail - (cmdOf s f r).head).toNat ∨ ringSize (cmdOf s f r).cfg < (v - (cmdOf s f r).head).toNat →
     exec (.cmdqTailDb f r v) s = .next (setCmd (wake s) f r (fun q => { q with reason := 0x0605 }))) ∧
  (∀ (f r n : Nat) (fence : Bool) (s : State), Runs s → r < 8 → fnOn s f = true → (cmdOf s f r).en = true → 0 < n → n ≤ 8 →
     n ≤ ((cmdOf s f r).tail - (cmdOf s f r).head).toNat → cqFull (cqOf s f (fld (cmdOf s f r).cfg 10 8)) = false →
     fence = false ∨ (cmdOf s f r).outstanding = 0 →
     exec (.commandFetch f r n fence) s = .next (setCmd s f r (fun q => { q with head := q.head + BitVec.ofNat 32 n, outstanding := q.outstanding + n, waiting := false }))) ∧
  (∀ (f r n : Nat) (s : State), Runs s → r < 8 → fnOn s f = true → (cmdOf s f r).en = true → 0 < n → n ≤ 8 →
     n ≤ ((cmdOf s f r).tail - (cmdOf s f r).head).toNat → cqFull (cqOf s f (fld (cmdOf s f r).cfg 10 8)) = false → (cmdOf s f r).outstanding ≠ 0 →
     exec (.commandFetch f r n true) s = .next (setCmd s f r (fun q => { q with waiting := true }))) ∧
  (∀ (f r : Nat) (e : Cqe) (l : List Cqe) (m : Mark) (s : State), Runs s → s.dev.safe = false → (cqOf s f r).front = e :: l →
     cqRoom (cqOf s f r) = true → e.mark = some m →
     Completes (.completionPost f r true) s (fun t => (∃ p, t.out = s.out ++ [.completion f r (cqOf s f r).tail (phaseOf (cqOf s f r).tail (ringSize (cqOf s f r).cfg)) (cmdOf s f e.cmdRing).head e] ∧
     (cqOf t f r).front = p ∧ p = l) ∧ (cqOf t f r).tail = (cqOf s f r).tail + 1 ∧ (e.counts = true →
     (cmdOf t f e.cmdRing).outstanding = (cmdOf s f e.cmdRing).outstanding - 1) ∧ (∀ g, g ≠ f → fnOf t g = fnOf s g) ∧
     t = { s with out := t.out, fns := t.fns, irq := t.irq, pwr := t.pwr })) ∧
  (∀ (f r : Nat) (e : Cqe) (l : List Cqe) (s : State), Runs s → s.dev.safe = false → (cqOf s f r).front = e :: l → cqRoom (cqOf s f r) = true →
     exec (.completionPost f r false) s = .next (post f 0 0x0412 0 [0, 0, 0, 0] { setCq s f r (fun q => { q with fault := true }) with dma := { s.dma with hostFail := up s.dma.hostFail 1 } })) ∧
  (∀ (f r : Nat) (v : Word) (s : State), Serves s → v &&& 0 = 0 → fnOn s f = true → r < 8 →
     (v - (cqOf s f r).head).toNat ≤ ((cqOf s f r).tail - (cqOf s f r).head).toNat → (cqOf s f r).unread = [] →
     exec (.cqHeadDb f r v) s = .next (setLevel (fnSource f r) (decide ((cqOf s f r).tail ≠ v)) (setCq (wake s) f r (fun q => { q with head := v })))) ∧
  (∀ (f r : Nat) (v : Word) (s : State), Serves s → v &&& 0 = 0 → fnOn s f = true → r < 8 →
     ((cqOf s f r).tail - (cqOf s f r).head).toNat < (v - (cqOf s f r).head).toNat →
     exec (.cqHeadDb f r v) s = .next (setCq (wake s) f r (fun q => { q with reason := 0x0605 })))

/-- Enabling a channel checks the chain address (0x0408), the owner (0x0407) and the channel (0x0409), then clears its counts and goes to fetch the chain;
disabling stops it at once, reads IDLE, and leaves its counts and DMA_CH_CUR open; a doorbell is counted, kept while the channel runs and re-reads
NEXT in WAIT_END; the owner is set only while the channel is disabled (0x040F) and within 8 channels a function (0x0416). Everything that is not named
is as before.
Rules: R388, R391, R392, R395, R403. -/
def Obligations.DmaChannelsAreControlled : Prop :=
  (∀ (c : Nat) (s : State), Serves s → c < 64 → (dmaOf s c).en = false → (dmaOf s c).chain ≠ 0 → (dmaOf s c).chain.toNat % 32 = 0 → c < 56 →
     48 ≤ c ∨ (bit (dmaOf s c).owner 8 = true ∧ fnOn s (fld (dmaOf s c).owner 7 0) = true) →
     exec (.dmaChEnable c) s = .next (setDma (wake s) c (fun x => { x with en := true, state := 1, done := 0, retries := 0, cmpOff := 0, cur := x.chain, busy := true, db := false, refetch := false, desc := none, errPend := none, tries := 0 }))) ∧
  (∀ (c : Nat) (s : State), Serves s → c < 64 → (dmaOf s c).en = false → (dmaOf s c).chain = 0 ∨ (dmaOf s c).chain.toNat % 32 ≠ 0 →
     exec (.dmaChEnable c) s = .next (setDma (wake s) c (fun x => { x with reason := 0x0408 }))) ∧
  (∀ (c : Nat) (s : State), Serves s → c < 64 → (dmaOf s c).en = false → (dmaOf s c).chain ≠ 0 → (dmaOf s c).chain.toNat % 32 = 0 → c < 48 →
     bit (dmaOf s c).owner 8 = false ∨ fnOn s (fld (dmaOf s c).owner 7 0) = false →
     exec (.dmaChEnable c) s = .next (setDma (wake s) c (fun x => { x with reason := 0x0407 }))) ∧
  (∀ (c : Nat) (s : State), Serves s → c < 64 → (dmaOf s c).en = false → (dmaOf s c).chain ≠ 0 → (dmaOf s c).chain.toNat % 32 = 0 → 56 ≤ c →
     exec (.dmaChEnable c) s = .next (setDma (wake s) c (fun x => { x with reason := 0x0409 }))) ∧
  (∀ (c : Nat) (s : State), Serves s → c < 64 → (dmaOf s c).en = true → Completes (.dmaChDisable c) s (fun t => (dmaOf t c).en = false ∧
     (dmaOf t c).state = 0 ∧ (dmaOf t c).busy = false ∧ (dmaOf t c).desc = none ∧ (∀ k, k ≠ c → dmaOf t k = dmaOf s k) ∧
     t = { wake s with dma := { s.dma with chans := t.dma.chans }, freeCtr := s.freeCtr + 4 })) ∧
  (∀ (c : Nat) (s : State), Serves s → c < 64 → (dmaOf s c).state = 1 →
     exec (.dmaChDb c) s = .next (setDma (wake s) c (fun x => { x with dbCount := up x.dbCount 1, db := true }))) ∧
  (∀ (c : Nat) (s : State), Serves s → c < 64 → (dmaOf s c).state = 2 →
     exec (.dmaChDb c) s = .next (setDma (wake s) c (fun x => { x with dbCount := up x.dbCount 1, state := 1, busy := true, refetch := true, db := false }))) ∧
  (∀ (c : Nat) (s : State), Serves s → c < 64 → (dmaOf s c).state ≠ 1 → (dmaOf s c).state ≠ 2 →
     exec (.dmaChDb c) s = .next (setDma (wake s) c (fun x => { x with dbCount := up x.dbCount 1 }))) ∧
  (∀ (c : Nat) (v : Word) (s : State), Serves s → v &&& 0xFFFFFE00 = 0 → c < 64 → (dmaOf s c).en = true →
     exec (.dmaChOwnerWrite 0 c v) s = .next (setDma (wake s) c (fun x => { x with reason := 0x040F }))) ∧
  (∀ (c : Nat) (v : Word) (s : State), Serves s → v &&& 0xFFFFFE00 = 0 → c < 48 → (dmaOf s c).en = false → bit v 8 = true →
     8 ≤ ((ownedBy s (fld v 7 0)).filter (fun k => k != c)).length →
     exec (.dmaChOwnerWrite 0 c v) s = .next (setDma (wake s) c (fun x => { x with reason := 0x0416 }))) ∧
  (∀ (c : Nat) (v : Word) (s : State), Serves s → v &&& 0xFFFFFE00 = 0 → c < 48 → (dmaOf s c).en = false →
     bit v 8 = false ∨ ((ownedBy s (fld v 7 0)).filter (fun k => k != c)).length < 8 →
     exec (.dmaChOwnerWrite 0 c v) s = .next (setDma (wake s) c (fun x => { x with owner := v })))

/-- A fetched descriptor is kept when it passes the checks of R390, and halts the channel with their code when it fails; a re-read of NEXT follows the
link, or waits at END; a completed descriptor writes its data, swapped as SWAP says, to device memory or to host memory with the read-back of R393,
and counts done; a COMPARE that differs halts with 0x040E and its offset; a bus error is retried until DMA_RETRY_LIMIT and then halts with 0x040D.
Everything that is not named is as before.
Rules: R389, R390, R392, R393, R394. -/
def Obligations.DmaDescriptorsRun : Prop :=
  (∀ (c : Nat) (d : Desc) (s : State), Runs s → (dmaOf s c).state = 1 → (dmaOf s c).errPend = none → (dmaOf s c).desc = none →
     (dmaOf s c).refetch = false → descCode s c d = none →
     exec (.descriptorFetched c d) s = .next (setDma (s) c (fun x => { x with desc := some d, tries := 0 }))) ∧
  (∀ (c : Nat) (d : Desc) (k : Code) (s : State), Runs s → (dmaOf s c).state = 1 → (dmaOf s c).errPend = none → (dmaOf s c).desc = none →
     (dmaOf s c).refetch = false → descCode s c d = some k →
     exec (.descriptorFetched c d) s = .next (setDma (s) c (fun x => { x with state := 3, reason := k, busy := false, db := false, refetch := false, desc := none, errPend := none }))) ∧
  (∀ (c : Nat) (d : Desc) (s : State), Runs s → (dmaOf s c).state = 1 → (dmaOf s c).errPend = none → (dmaOf s c).desc = none →
     (dmaOf s c).refetch = true → descEndBit d = false →
     exec (.descriptorFetched c d) s = .next (setDma (s) c (fun x => { x with cur := descLink d, refetch := false, db := false, desc := none, busy := true, tries := 0 }))) ∧
  (∀ (c : Nat) (d : Desc) (s : State), Runs s → (dmaOf s c).state = 1 → (dmaOf s c).errPend = none → (dmaOf s c).desc = none →
     (dmaOf s c).refetch = true → descEndBit d = true → (dmaOf s c).db = false →
     exec (.descriptorFetched c d) s = .next (setDma (s) c (fun x => { x with state := 2, refetch := false, desc := none, busy := false, tries := 0 }))) ∧
  (∀ (c : Nat) (d : Desc) (bs : List Byte) (s : State), Runs s → (dmaOf s c).state = 1 → (dmaOf s c).desc = some d → (dmaOf s c).errPend = none →
     bs.length = d.len → descSrcDev d = false → descDstDev d = true → descFill d = false → descCompare d = false → descIrq d = false →
     descEndBit d = false →
     exec (.descriptorComplete c bs none) s = .next (setDma (storeMem ((dmaAddr s c d.dst d.len).getD 0) (swapBytes (descSwap d) bs) s) c (fun x => { x with done := x.done + 1, cur := descLink d, refetch := false, db := false, desc := none, busy := true, tries := 0 }))) ∧
  (∀ (c : Nat) (d : Desc) (s : State), Runs s → (dmaOf s c).state = 1 → (dmaOf s c).desc = some d → (dmaOf s c).errPend = none → descSrcDev d = true →
     meetsPoison s ((dmaAddr s c d.src d.len).getD 0) d.len = false → descDstDev d = false → descFill d = false → descCompare d = false →
     descIrq d = false → descEndBit d = false →
     exec (.descriptorComplete c [] none) s = .next (setDma { s with out := s.out ++ [.hostBytes (dmaFn s c) d.dst (swapBytes (descSwap d) (rdCells memDefault s.mem ((dmaAddr s c d.src d.len).getD 0) d.len)), .hostFlush (dmaFn s c) (d.dst + BitVec.ofNat 64 (d.len - 1) &&& ~~~3#64)] } c (fun x => { x with done := x.done + 1, cur := descLink d, refetch := false, db := false, desc := none, busy := true, tries := 0 }))) ∧
  (∀ (c k : Nat) (d : Desc) (s : State), Runs s → (dmaOf s c).state = 1 → (dmaOf s c).desc = some d → (dmaOf s c).errPend = none → descSrcDev d = false →
     descDstDev d = false → descFill d = false → descCompare d = true →
     exec (.descriptorComplete c [] (some k)) s = .next (setDma (s) c (fun x => { x with state := 3, reason := 0x040E, busy := false, db := false, refetch := false, desc := none, errPend := none, cmpOff := k }))) ∧
  (∀ (c k : Nat) (s : State), Runs s → (dmaOf s c).errPend = some k → exec (.dmaRetry c) s = .next (setDma (s) c (fun x => { x with errPend := none }))) ∧
  (∀ (c : Nat) (e : BusErr) (s : State), Runs s → (dmaOf s c).state = 1 → (dmaOf s c).errPend = none → (dmaOf s c).tries < fld s.dma.retryLimit 2 0 →
     exec (.dmaBusError c e) s = .next (setDma (s) c (fun x => { x with errPend := some (errKindOf e), tries := x.tries + 1, retries := up x.retries 1 }))) ∧
  (∀ (c : Nat) (e : BusErr) (s : State), Runs s → (dmaOf s c).state = 1 → (dmaOf s c).errPend = none → fld s.dma.retryLimit 2 0 ≤ (dmaOf s c).tries →
     exec (.dmaBusError c e) s = .next (setDma (s) c (fun x => { x with state := 3, reason := 0x040D, busy := false, db := false, refetch := false, desc := none, errPend := none, errKind := errKindOf e })))

/-- A link change sets the rate of the port, from its configuration or none; a frame that is broken, short or long is counted under RX errors and dropped;
one that arrives in Laid-up waits while 8 MiB hold; ARP and neighbour messages are answered by the device; a frame of a flow whose policer has no
credit is dropped and counted for the flow; every other good frame is counted and classified. Everything that is not named is as before.
Rules: R404, R422, R423, R426, R428. -/
def Obligations.FramesArrive : Prop :=
  (∀ (p : Nat) (u : Bool) (s : State), Runs s → p < 2 →
     exec (.linkStateChange p u) s = .next { s with net := { s.net with ports := put s.net.ports p { portOf s p with link := if u then fld (portOf s p).cfg 1 0 else 0 } } }) ∧
  (∀ (f : RxFrame) (s : State), Runs s → 2 ≤ f.port ∨ (portOf s f.port).link = 0 ∨ bit s.net.ctrl 0 = false → exec (.rxFrame f) s = .next s) ∧
  (∀ (f : RxFrame) (s : State), Runs s → f.port < 2 → (portOf s f.port).link ≠ 0 → bit s.net.ctrl 0 = true →
     f.fcsOk = false ∨ f.len < 64 ∨ 9022 < f.len → exec (.rxFrame f) s = .next { s with net := { s.net with cnt := bump s.net.cnt 0x2C 1 } }) ∧
  (∀ (f : RxFrame) (s : State), Runs s → f.port < 2 → (portOf s f.port).link ≠ 0 → bit s.net.ctrl 0 = true → f.fcsOk = true → 64 ≤ f.len → f.len ≤ 9022 →
     s.pwr.state = 4 → rxWakes f s = false → (s.net.waiting.map (fun w => w.len)).sum + f.len ≤ 8388608 →
     exec (.rxFrame f) s = .next { s with net := { s.net with waiting := s.net.waiting ++ [f] } }) ∧
  (∀ (f : RxFrame) (s : State), Runs s → f.port < 2 → (portOf s f.port).link ≠ 0 → bit s.net.ctrl 0 = true → f.fcsOk = true → 64 ≤ f.len → f.len ≤ 9022 →
     s.pwr.state ≠ 4 → f.kind = .arpNdp →
     exec (.rxFrame f) s = .next { s with net := { s.net with cnt := bump s.net.cnt 0x28 1, ports := put s.net.ports f.port { portOf s f.port with ctl := (portOf s f.port).ctl ++ [.arp] } } }) ∧
  (∀ (f : RxFrame) (s : State), Runs s → f.port < 2 → (portOf s f.port).link ≠ 0 → bit s.net.ctrl 0 = true → f.fcsOk = true → 64 ≤ f.len → f.len ≤ 9022 →
     s.pwr.state ≠ 4 → f.kind = .macControl → exec (.rxFrame f) s = .next { s with net := { s.net with cnt := bump (bump s.net.cnt 0x28 1) 0x40 1 } }) ∧
  (∀ (f : RxFrame) (i vid lp rp ix : Nat) (ip : BitVec 128) (a : Bool) (b : RxBody) (g : Flow) (s : State), Runs s → f.port < 2 →
     (portOf s f.port).link ≠ 0 → bit s.net.ctrl 0 = true → f.fcsOk = true → 64 ≤ f.len → f.len ≤ 9022 → s.pwr.state ≠ 4 →
     f.kind = .udp vid lp ip rp a ix b → findFlow s f.port vid lp ip rp = some (i, g) → look s.net.flows i = some g →
     g.polCredit < (f.len + overhead s f.port) * 1000000 →
     exec (.rxFrame f) s = .next { wake s with net := { s.net with cnt := bump (bump s.net.cnt 0x28 1) 0x34 1, flows := alter s.net.flows i (fun x => { x with drops := up x.drops 1 }) } }) ∧
  (∀ (f : RxFrame) (s : State), Runs s → f.port < 2 → (portOf s f.port).link ≠ 0 → bit s.net.ctrl 0 = true → f.fcsOk = true → 64 ≤ f.len → f.len ≤ 9022 →
     s.pwr.state ≠ 4 → exec (.rxFrame f) s = .next (classify f (if rxWakes f s then wake s else s)))

/-- A shaper refill takes each new rate and adds credit up to the burst; a policer refill adds credit up to its burst; a port that is up sends a control
packet before any flow and otherwise the packet with the least start tag of the highest class that has one; a sender report is queued for each EGRESS
flow of a session that has sent. Everything that is not named is as before.
Rules: R415, R416, R417, R420, R421, R423. -/
def Obligations.PacketsLeave : Prop :=
  (∀ (s : State), Runs s → (∀ e ∈ s.net.flows, e.2.pkts = []) →
     exec .shaperRefill s = .next { s with net := { s.net with flows := s.net.flows.map (fun e => if e.2.kind = 0 then (e.1, { e.2 with rate := e.2.rateNext.getD e.2.rate, rateNext := none, credit := min (e.2.credit + e.2.rateNext.getD e.2.rate * 1024 / 1000000) (e.2.burst * 1024 * 1024) }) else e) } }) ∧
  (∀ (s : State), Runs s →
     exec .policerRefill s = .next { s with net := { s.net with flows := s.net.flows.map (fun e => (e.1, { e.2 with polCredit := min (e.2.polCredit + e.2.polRate) (e.2.polBurst * 1000000) })) } }) ∧
  (∀ (p : Nat) (c : Ctl) (l : List Ctl) (s : State), Runs s → p < 2 → (portOf s p).link ≠ 0 → s.pwr.state < 4 → (portOf s p).ctl = c :: l →
     exec (.portTxSelect p) s = .next (sendCtl p c (setPort s p (fun x => { x with ctl := l })))) ∧
  (∀ (p i : Nat) (f : Flow) (t : Rat) (s : State), Runs s → p < 2 → (portOf s p).link ≠ 0 → s.pwr.state < 4 → (portOf s p).ctl = [] →
     [6, 5, 4, 3, 2, 1, 0].findSome? (fun c => nextFlow s p c) = some (i, f, t) → exec (.portTxSelect p) s = .next (sendPacket i f t s)) ∧
  (∀ (p : Nat) (s : State), Runs s → 2 ≤ p ∨ (portOf s p).link = 0 ∨ 4 ≤ s.pwr.state → exec (.portTxSelect p) s = .next s) ∧
  (∀ (i h : Nat) (f : Flow) (x : Session) (s : State), Runs s → fld s.net.ctrl 15 8 ≠ 0 → s.net.flows = [(i, f)] → f.kind = 0 → f.detach = none →
     f.session = some h → f.sent = true → look s.sessions h = some x → x.tan.live = false →
     exec .senderReportTimer s = .next { s with net := { s.net with flows := [(i, { f with srtcp := f.srtcp + 1, sent := false })], ports := put s.net.ports f.port { portOf s f.port with ctl := (portOf s f.port).ctl ++ [.report i f.srtcp] } } }) ∧
  (∀ (s : State), Runs s → fld s.net.ctrl 15 8 = 0 → exec .senderReportTimer s = .next s) ∧
  (∀ (n q : Nat) (r : RxQ) (s : State), Runs s → q < 8 → look s.net.rxqs (n * 8 + q) = some r → r.held = true → r.more = false →
     exec (.rxqRaiseHoldoff n q) s = .next { s with net := { s.net with rxqs := put s.net.rxqs (n * 8 + q) { r with held := false } } }) ∧
  (∀ (n q : Nat) (r : RxQ) (s : State), Runs s → q < 8 → look s.net.rxqs (n * 8 + q) = some r → r.held = true → r.more = true →
     exec (.rxqRaiseHoldoff n q) s = .next (pulse (rxqSource n q) { s with net := { s.net with rxqs := put s.net.rxqs (n * 8 + q) { r with more := false } } }))

/-- ENABLE of the network needs a configured port with an address, else 0x070D, and clears only without flows, else 0x070C; a port mode changes only while
no flow uses the port, else 0x0709; NET_PTP_LATCH and a PPS edge latch both port clocks, whose nanoseconds the model leaves open (log entry 4), as 48
bits of seconds and 30 of nanoseconds; a PPS is sent on the port that BELL_CFG names. Everything that is not named is as before.
Rules: R405, R426, R429, R587. -/
def Obligations.NetRegistersAndClocks : Prop :=
  (∀ (v : Word) (s : State), Serves s → v &&& 0xFFFF00FC = 0 → bit v 0 = true → bit s.net.ctrl 0 = false →
     ([0, 1].filter (fun p => decide (portMode s p ≠ 0))).isEmpty = false →
     ([0, 1].filter (fun p => decide (portMode s p ≠ 0))).any (fun p => decide ((portOf s p).macLo = 0) && decide ((portOf s p).macHi = 0)) = false →
     exec (.netCtrlWrite v) s = .next { wake s with net := { s.net with ctrl := v } }) ∧
  (∀ (v : Word) (s : State), Serves s → v &&& 0xFFFF00FC = 0 → bit v 0 = true → bit s.net.ctrl 0 = false →
     ([0, 1].filter (fun p => decide (portMode s p ≠ 0))).isEmpty = true ∨ ([0, 1].filter (fun p => decide (portMode s p ≠ 0))).any (fun p => decide ((portOf s p).macLo = 0) && decide ((portOf s p).macHi = 0)) = true →
     exec (.netCtrlWrite v) s = .next { wake s with net := { s.net with reason := 0x070D } }) ∧
  (∀ (v : Word) (s : State), Serves s → v &&& 0xFFFF00FC = 0 → bit v 0 = false → bit s.net.ctrl 0 = true → s.net.flows ≠ [] →
     exec (.netCtrlWrite v) s = .next { wake s with net := { s.net with reason := 0x070C } }) ∧
  (∀ (v : Word) (s : State), Serves s → v &&& 0xFFFF00FC = 0 → bit v 0 = bit s.net.ctrl 0 ∨ (bit v 0 = false ∧ s.net.flows = []) →
     exec (.netCtrlWrite v) s = .next { wake s with net := { s.net with ctrl := v } }) ∧
  (∀ (p : Nat) (v : Word) (s : State), Serves s → v &&& 0x001FC0FC = 0 → p < 2 → fld v 1 0 ≠ 3 → fld v 1 0 ≠ fld (portOf s p).cfg 1 0 →
     portUsed s p = true → exec (.netPortCfgWrite p v) s = .next { wake s with net := { s.net with reason := 0x0709 } }) ∧
  (∀ (p : Nat) (v : Word) (s : State), Serves s → v &&& 0x001FC0FC = 0 → p < 2 → fld v 1 0 ≠ 3 → fld v 23 22 ≠ 3 → fld v 1 0 = fld (portOf s p).cfg 1 0 →
     exec (.netPortCfgWrite p v) s = .next { wake s with net := { s.net with ports := put s.net.ports p { portOf s p with cfg := merge v 3 (fldW 0 2 (fld v 1 0)), v := if fld (portOf s p).cfg 1 0 = 0 ∧ fld v 1 0 ≠ 0 then [] else (portOf s p).v } } }) ∧
  (∀ (v : Word) (s : State), Serves s → v &&& 0xFFFFFFFE = 0 → bit v 0 = true → Completes (.netPtpLatch v) s (fun t => (∀ p, p < 2 →
     portOf t p = { portOf s p with secLo := BitVec.ofNat 32 (Config.ptpClock p (s.freeCtr + p) / 10 ^ 9), secHi := fldW 0 16 (Config.ptpClock p (s.freeCtr + p) / 10 ^ 9 / 2 ^ 32), ns := fldW 0 30 (Config.ptpClock p (s.freeCtr + p) % 10 ^ 9) }) ∧
     t = { wake s with net := { s.net with ports := t.net.ports }, freeCtr := s.freeCtr + 2 })) ∧
  (∀ (v : Word) (s : State), Serves s → v &&& 0xFFFFFFFE = 0 → bit v 0 = false → exec (.netPtpLatch v) s = .next (wake s)) ∧
  (∀ (q : Nat) (s : State), Runs s → q < 2 → Completes (.ppsInEdge q) s (fun t => (∀ p, p < 2 →
     portOf t p = { portOf s p with secLo := BitVec.ofNat 32 (Config.ptpClock p (s.freeCtr + p) / 10 ^ 9), secHi := fldW 0 16 (Config.ptpClock p (s.freeCtr + p) / 10 ^ 9 / 2 ^ 32), ns := fldW 0 30 (Config.ptpClock p (s.freeCtr + p) % 10 ^ 9) }) ∧
     t = { s with net := { s.net with ports := t.net.ports }, freeCtr := s.freeCtr + 2 })) ∧
  (∀ (p : Nat) (s : State), Runs s → p = (if bit s.bell.cfg 3 then 1 else 0) → exec (.ppsOutSecond p) s = .next { s with out := s.out ++ [.ppsOut p] }) ∧
  (∀ (p : Nat) (s : State), Runs s → p ≠ (if bit s.bell.cfg 3 then 1 else 0) → exec (.ppsOutSecond p) s = .next s)

/-- ENABLE is checked (0x0801, 0x0803 or 0x0810) and then starts an unpaired link, and clears only without paired sessions, else 0x0809; the side changes
only while ENABLE is 0, else 0x0802; two to eight lanes begin the mutual authentication; its success pairs the devices, and on side 1 sets the Bell
offset; its failure is retried after 720 Bells; a lost flit is sent again up to 4 times; a STANDALONE device whose link trains again starts pairing.
Every change of the pair state raises source 0x072. Everything that is not named is as before.
Rules: R430, R431, R432, R433, R434, R461. -/
def Obligations.DevicesPair : Prop :=
  (∀ (v : Word) (s : State), Serves s → v &&& 0xFFFFFFFC = 0 → bit v 0 = true → bit s.tandem.ctrl 0 = false → tanEnableCode s = none →
     s.tandem.state = 0 →
     exec (.tandemCtrlWrite v) s = .next (pulse 0x072 { wake s with tandem := { freshLink s.tandem with ctrl := v, state := 1 } })) ∧
  (∀ (v : Word) (c : Code) (s : State), Serves s → v &&& 0xFFFFFFFC = 0 → bit v 0 = true → bit s.tandem.ctrl 0 = false → tanEnableCode s = some c →
     exec (.tandemCtrlWrite v) s = .next { wake s with tandem := { s.tandem with reason := c } }) ∧
  (∀ (v : Word) (s : State), Serves s → v &&& 0xFFFFFFFC = 0 → bit v 0 = false → bit s.tandem.ctrl 0 = true →
     s.sessions.any (fun e => decide (e.2.tan.role ≠ 0)) = true →
     exec (.tandemCtrlWrite v) s = .next { wake s with tandem := { s.tandem with reason := 0x0809 } }) ∧
  (∀ (v : Word) (s : State), Serves s → v &&& 0xFFFFFFFC = 0 → bit v 0 = false → bit s.tandem.ctrl 0 = true →
     s.sessions.any (fun e => decide (e.2.tan.role ≠ 0)) = false → s.tandem.state ≠ 0 →
     exec (.tandemCtrlWrite v) s = .next (pulse 0x072 { wake s with tandem := { freshLink s.tandem with ctrl := v, state := 0 } })) ∧
  (∀ (v : Word) (s : State), Serves s → v &&& 0xFFFFFFFC = 0 → bit v 0 = bit s.tandem.ctrl 0 →
     exec (.tandemCtrlWrite v) s = .next { wake s with tandem := { s.tandem with ctrl := v } }) ∧
  (∀ (v : Word) (s : State), Serves s → v &&& 0xFFFFFFFE = 0 → bit s.tandem.ctrl 0 = false →
     exec (.tandemRoleWrite v) s = .next { wake s with tandem := { s.tandem with side := fld v 0 0 } }) ∧
  (∀ (v : Word) (s : State), Serves s → v &&& 0xFFFFFFFE = 0 → bit s.tandem.ctrl 0 = true →
     exec (.tandemRoleWrite v) s = .next { wake s with tandem := { s.tandem with reason := 0x0802 } }) ∧
  (∀ (n : Nat) (s : State), Runs s → s.tandem.state = 1 → s.tandem.retryAt = none → 2 ≤ n → n ≤ 8 →
     exec (.tandemHello n) s = .next (pulse 0x072 { s with out := s.out ++ [.link .hello], tandem := { s.tandem with lanes := n, state := 2 } })) ∧
  (∀ (n : Nat) (s : State), Runs s → s.tandem.state ≠ 1 ∨ s.tandem.retryAt ≠ none ∨ n < 2 ∨ 8 < n → exec (.tandemHello n) s = .next s) ∧
  (∀ (b : BitVec 40) (s : State), Runs s → s.tandem.state = 2 →
     exec (.tandemAuth true b) s = .next (pulse 0x072 { s with out := s.out ++ [.link .authMsg], tandem := { freshLink s.tandem with lanes := s.tandem.lanes, offset := if s.tandem.side = 1 then b - s.bell.num else 0, state := 3 } })) ∧
  (∀ (b : BitVec 40) (s : State), Runs s → s.tandem.state = 2 →
     exec (.tandemAuth false b) s = .next (pulse 0x072 { s with out := s.out ++ [.link .authMsg], tandem := { s.tandem with reason := 0x0804, retryAt := some (s.bell.num + 720), state := 1 } })) ∧
  (∀ (b : BitVec 40) (s : State), Runs s → s.tandem.retryAt = some b → s.tandem.state = 1 → bellsFrom b s.bell.num < 549755813888 →
     exec .authRetry s = .next (pulse 0x072 { s with out := s.out ++ [.link .hello], tandem := { s.tandem with retryAt := none, state := 2 } })) ∧
  (∀ (s : State), Runs s → s.tandem.retryAt = none → exec .authRetry s = .next s) ∧
  (∀ (q : Word) (k : Nat) (s : State), Runs s → s.tandem.sent.find? (fun e => decide (e.1 = q)) = some (q, k) → s.tandem.dead = false → k < 4 →
     exec (.linkRetransmit q) s = .next { s with out := s.out ++ [.link (.again q)], tandem := { s.tandem with sent := s.tandem.sent.map (fun e => if e.1 = q then (q, k + 1) else e) } }) ∧
  (∀ (q : Word) (s : State), Runs s → s.tandem.sent.find? (fun e => decide (e.1 = q)) = some (q, 4) → s.tandem.dead = false →
     exec (.linkRetransmit q) s = .next { s with tandem := { s.tandem with sent := s.tandem.sent.filter (fun e => decide (e.1 ≠ q)) } }) ∧
  (∀ (s : State), Runs s → s.tandem.state = 4 →
     exec .tandemLinkTrainsAgain s = .next (pulse 0x072 { s with tandem := { freshLink s.tandem with state := 1 } }))

/-- A heartbeat that carries the pair Bell number within 5 us is heard and sets the skew; another is the violation 0x0825; a heartbeat missed on the link
alone, or on both paths, is counted, and the second miss on both paths in a row starts the takeover and posts 0x080C; FAULT and RESET notices start
the takeover at the next Bell start and UNSOUND ends the use of the link; a NAK is counted. A message wakes the device. Everything that is not named
is as before.
Rules: R434, R446, R447, R448, R449, R456. -/
def Obligations.PartnersAreHeard : Prop :=
  (∀ (m : HbMsg) (s : State), Runs s → s.tandem.dead = false → s.tandem.state = 3 → m.link.wellForm = true → m.link.authOk = true → m.link.seqOk = true →
     m.pairBell = pairBell s → m.skew.natAbs ≤ 5000 →
     exec (.heartbeat m) s = .next { wake s with tandem := { (wake s).tandem with gotLink := true, skew := m.skew } }) ∧
  (∀ (m : HbMsg) (s : State), Runs s → s.tandem.dead = false → s.tandem.state = 3 → m.link.wellForm = true → m.link.authOk = true → m.link.seqOk = true →
     m.pairBell ≠ pairBell s ∨ 5000 < m.skew.natAbs → exec (.heartbeat m) s = .next (violate 3 0x0825 m.link.seq (wake s))) ∧
  (∀ (s : State), Runs s → s.tandem.state = 3 → s.tandem.hbDue = true → s.tandem.linkOk = false → atStart s = true → s.tandem.altOk = true →
     s.tandem.missLink = 0 → exec .heartbeatMissed s = .next { s with tandem := { s.tandem with hbDue := false, missLink := 1, missBoth := 0 } }) ∧
  (∀ (s : State), Runs s → s.tandem.state = 3 → s.tandem.hbDue = true → s.tandem.linkOk = false → atStart s = true → s.tandem.altOk = false →
     s.tandem.missBoth = 0 →
     exec .heartbeatMissed s = .next { s with tandem := { s.tandem with hbDue := false, missLink := 0, missBoth := 1, cnt := bump s.tandem.cnt 0x48 1 } }) ∧
  (∀ (s : State), Runs s → s.tandem.state = 3 → s.tandem.hbDue = true → s.tandem.linkOk = false → atStart s = true → s.tandem.altOk = false →
     s.tandem.missBoth = 1 →
     exec .heartbeatMissed s = .next (wake (deviceEvent 0x080C { s with tandem := { s.tandem with hbDue := false, missLink := 0, missBoth := 2, cnt := bump s.tandem.cnt 0x48 1, takeover := some 0, takeGo := true } }))) ∧
  (∀ (s : State), Runs s → s.tandem.state = 3 →
     exec (.tandemNotice .fault) s = .next { wake s with tandem := { (wake s).tandem with takeover := some ((wake s).tandem.takeover.getD 1) } }) ∧
  (∀ (s : State), Runs s → s.tandem.state = 3 →
     exec (.tandemNotice .reset) s = .next { wake s with tandem := { (wake s).tandem with takeover := some ((wake s).tandem.takeover.getD 2) } }) ∧
  (∀ (s : State), Runs s → s.tandem.state = 3 → exec (.tandemNotice .unsound) s = .next { wake s with tandem := { (wake s).tandem with dead := true } }) ∧
  (∀ (k : NoticeKind) (s : State), Runs s → s.tandem.state ≠ 3 → exec (.tandemNotice k) s = .next s) ∧
  (∀ (l : LinkMeta) (c : Code) (s : State), Runs s → s.tandem.dead = false → s.tandem.state = 3 → l.wellForm = true → l.authOk = true → l.seqOk = true →
     exec (.tandemNak l c) s = .next { wake s with tandem := { (wake s).tandem with cnt := bump (wake s).tandem.cnt 0x5C 1 } }) ∧
  (∀ (l : LinkMeta) (c : Code) (s : State), Runs s → s.tandem.dead = false → s.tandem.state ≠ 0 → l.wellForm = true → l.authOk = false →
     exec (.tandemNak l c) s = .next (violate 9 0x0821 l.seq (wake s)))

/-- A MIRROR of the next band of a shadow moves the shadow to that band and takes on what it carries, and makes its decode due in the Bell in which it
would be eligible; out of order it is the violation 0x0827, for a primary 0x0824, for another session 0x0823; a decode whose units are all done and
that agrees completes the band (shown outright where the shadow holds no picture: an ACK with GOOD); one that was lost is acknowledged so and ends the
shadow; one that differs is decoded again; the second decode posts 0x080F, counts, and settles which Quarter is at fault; a partner that has mirrored
everything lands. A message wakes the device. In the clauses that name the next state in full, everything that is not named is as before.
Rules: R439, R440, R442, R443, R444, R445, R456. -/
def Obligations.ShadowsFollow : Prop :=
  (∀ (m : MirrorMsg) (x : Session) (s : State), Runs s → s.tandem.dead = false → s.tandem.state = 3 → m.link.wellForm = true → m.link.authOk = true →
     m.link.seqOk = true → look s.sessions m.handle = some x → x.tan.role = 2 → x.tan.shBands = 0 → m.band = 1 → m.last = false → m.desc < 16 →
     look x.pics m.desc = none → Completes (.mirror m) s (fun t => (∃ y : Session, look t.sessions m.handle = some y ∧ y.tan.shFrame = m.frame ∧
     y.tan.shBands = 1 ∧ y.tan.shLast = m.last ∧ y.tan.due = x.tan.due ++ [(m.frame, 1, eligBell (wake s) x)] ∧ y.rate = m.rate ∧
     y.frameNum = (m.frame + 1) % 4294967296 ∧ y.rtp = m.rtp ∧ y.tan.shDesc = m.desc ∧ y.tan.shMain = m.main ∧ y.tan.shSlot = m.slot ∧
     y.pics = shadowPics x m ∧ y.ltr = shadowLtr x m) ∧ (∀ k, k ≠ m.handle → look t.sessions k = look (wake s).sessions k) ∧
     t = { wake s with sessions := t.sessions })) ∧
  (∀ (m : MirrorMsg) (x : Session) (s : State), Runs s → s.tandem.dead = false → s.tandem.state = 3 → m.link.wellForm = true → m.link.authOk = true →
     m.link.seqOk = true → look s.sessions m.handle = some x → x.tan.role = 2 → x.tan.shBands ≠ 0 → x.tan.shLast = false →
     m.frame ≠ x.tan.shFrame ∨ m.band ≠ x.tan.shBands + 1 → exec (.mirror m) s = .next (violate 4 0x0827 m.link.seq (wake s))) ∧
  (∀ (m : MirrorMsg) (x : Session) (s : State), Runs s → s.tandem.dead = false → s.tandem.state = 3 → m.link.wellForm = true → m.link.authOk = true →
     m.link.seqOk = true → look s.sessions m.handle = some x → x.tan.role = 1 → exec (.mirror m) s = .next (violate 4 0x0824 m.link.seq (wake s))) ∧
  (∀ (m : MirrorMsg) (s : State), Runs s → s.tandem.dead = false → s.tandem.state = 3 → m.link.wellForm = true → m.link.authOk = true →
     m.link.seqOk = true → look s.sessions m.handle = none → exec (.mirror m) s = .next (violate 4 0x0823 m.link.seq (wake s))) ∧
  (∀ (h f k num : Nat) (b : DecBand) (e : BitVec 40) (r : List (Nat × DecBand)) (l : List (Nat × Nat × BitVec 40)) (x : Session) (s : State), Runs s →
     look s.sessions h = some x → x.tan.run = (num, b) :: r → x.tan.due = (f, k, e) :: l → x.tan.role = 2 → x.tan.recheck = none →
     shadowReady x num b = true → linkUp s = true →
     exec (.shadowDecodeDone h .agree) s = .next (shadowGood h f k { s with sessions := alter s.sessions h (fun x => { x with tan := { x.tan with due := l, run := r } }) })) ∧
  (∀ (h f k num : Nat) (b : DecBand) (e : BitVec 40) (r : List (Nat × DecBand)) (l : List (Nat × Nat × BitVec 40)) (x : Session) (s : State), Runs s →
     look s.sessions h = some x → x.tan.run = (num, b) :: r → x.tan.due = (f, k, e) :: l → x.tan.role = 2 → x.tan.recheck = none →
     shadowReady x num b = true → linkUp s = true → x.pics = [] →
     exec (.shadowDecodeDone h .agree) s = .next { s with out := s.out ++ [.link (.ack h f k .good)], tandem := { s.tandem with seqOut := s.tandem.seqOut + 1, sent := s.tandem.sent ++ [(s.tandem.seqOut, 0)] }, sessions := alter s.sessions h (fun x => { x with tan := { x.tan with due := l, run := r } }) }) ∧
  (∀ (h f k num : Nat) (b : DecBand) (e : BitVec 40) (r : List (Nat × DecBand)) (l : List (Nat × Nat × BitVec 40)) (x : Session) (s : State), Runs s →
     look s.sessions h = some x → x.tan.run = (num, b) :: r → x.tan.due = (f, k, e) :: l → x.tan.role = 2 → x.tan.recheck = none → linkUp s = true →
     Completes (.shadowDecodeDone h .lost) s (fun t => t.sessions.map (fun e => e.1) = (del s.sessions h).map (fun e => e.1) ∧
     (∃ o, t.out = s.out ++ [.link (.ack h f k .lost)] ++ o) ∧ (∀ n, n ≠ h →
     (look t.sessions n).map (fun y => y.state) = (look s.sessions n).map (fun y => y.state)))) ∧
  (∀ (h f k num : Nat) (b : DecBand) (e : BitVec 40) (r : List (Nat × DecBand)) (l : List (Nat × Nat × BitVec 40)) (x : Session) (s : State), Runs s →
     look s.sessions h = some x → x.tan.run = (num, b) :: r → x.tan.due = (f, k, e) :: l → x.tan.role = 2 → x.tan.recheck = none →
     shadowReady x num b = true →
     exec (.shadowDecodeDone h .differ) s = .next { s with sessions := alter s.sessions h (fun y => { y with tan := { y.tan with recheck := some b.quarter, run := r } }) }) ∧
  (∀ (h f k q : Nat) (b : BitVec 40) (l : List (Nat × Nat × BitVec 40)) (x : Session) (v : Second) (s : State), Runs s → look s.sessions h = some x →
     x.tan.recheck = some q → x.tan.due = (f, k, b) :: l →
     exec (.shadowRecheckDone h v) s = .next (match v with
      | .firstShadow => setTan (sendAck h f k .mismatch (tanCount 0x54 1 (notice h 0x080F (setTs s h (fun y => { y with recheck := none, due := l }))))) (fun t => { t with mismatch := addS t.mismatch h })
      | .record => retireShadows q (tanCount 0x54 1 (notice h 0x080F (setTs s h (fun y => { y with recheck := none, due := l }))))
      | .neither => retireShadows q (sendAck h f k .mismatch (tanCount 0x54 1 (notice h 0x080F (setTs s h (fun y => { y with recheck := none, due := l }))))))) ∧
  (∀ (s : State), Runs s → s.tandem.state = 3 →
     exec .syncDone s = .next { s with sessions := s.sessions.map (fun e => if e.2.tan.role = 2 then (e.1, { e.2 with tan := { e.2.tan with landed := true } }) else e) })

/-- An ACK of the first unacknowledged band of its frame counts the band and, with GOOD on the last band of a synchronising frame, makes the shadow live;
an ACK for a session that is not primary here is the violation 0x0823; a band without an ACK at the second Bell start loses the shadow; a CONFIG is
checked and applied to the shadow (shown for the rate, the close and the opening) and answered with its code; its reply applies the waiting command or
refuses it; a frame start synchronises a lost shadow; a takeover leaves the pair STANDALONE and makes every shadow primary; a handover moves a PARKED
session. A message wakes the device. In the clauses that name the next state in full, everything that is not named is as before.
Rules: R437, R440, R443, R444, R451, R456, R457, R458. -/
def Obligations.PrimariesTellAndTakeOver : Prop :=
  (∀ (l : LinkMeta) (h f k : Nat) (b : BitVec 40) (x : Session) (s : State), Runs s → s.tandem.dead = false → s.tandem.state = 3 → l.wellForm = true →
     l.authOk = true → l.seqOk = true → look s.sessions h = some x → x.tan.role = 1 → ackedBand x.tan f = some (f, k, b) → x.tan.held = [] →
     k ≠ bandsOf x.stream.height →
     exec (.tandemAck l h f .good) s = .next (stat h 28 1 { wake s with tandem := { (wake s).tandem with cnt := bump (wake s).tandem.cnt 0x44 1 }, sessions := alter (wake s).sessions h (fun x => { x with tan := { x.tan with acks := x.tan.acks.erase (f, k, b) } }) })) ∧
  (∀ (l : LinkMeta) (h f : Nat) (k : AckKind) (x : Session) (s : State), Runs s → s.tandem.dead = false → s.tandem.state = 3 → l.wellForm = true →
     l.authOk = true → l.seqOk = true → look s.sessions h = some x → x.tan.role ≠ 1 →
     exec (.tandemAck l h f k) s = .next (violate 5 0x0823 l.seq (wake s))) ∧
  (∀ (l : LinkMeta) (h f : Nat) (k : AckKind) (s : State), Runs s → s.tandem.dead = false → s.tandem.state = 3 → l.wellForm = true → l.authOk = true →
     l.seqOk = true → look s.sessions h = none → exec (.tandemAck l h f k) s = .next (violate 5 0x0823 l.seq (wake s))) ∧
  (∀ (h : Nat) (x : Session) (s : State), Runs s → look s.sessions h = some x → x.tan.role = 1 → x.tan.live = true →
     x.tan.acks.any (fun a => decide (2 ≤ bellsFrom a.2.2 s.bell.num)) = true → s.tandem.waiting.all (fun w => decide (w.handle ≠ h)) = true →
     Completes (.ackTimeout h) s (fun t => (∃ y, look t.sessions h = some y ∧
     y.tan = { TanSess.reset 1 with shFrame := x.tan.shFrame, shBands := x.tan.shBands, shLast := x.tan.shLast, slot0 := x.tan.slot0, shDesc := x.tan.shDesc, shMain := x.tan.shMain, shSlot := x.tan.shSlot } ∧
     y.state = x.state) ∧ (∃ o, t.out = s.out ++ (if linkUp s then [.link (.config h .close)] else []) ++ o) ∧ t.mem = s.mem)) ∧
  (∀ (h : Nat) (x : Session) (s : State), Runs s → look s.sessions h = some x →
     x.tan.acks.any (fun a => decide (2 ≤ bellsFrom a.2.2 s.bell.num)) = false → exec (.ackTimeout h) s = .next s) ∧
  (∀ (l : LinkMeta) (h : Nat) (o : RateOps) (x : Session) (s : State), Runs s → s.tandem.dead = false → s.tandem.state = 3 → l.wellForm = true →
     l.authOk = true → l.seqOk = true → look s.sessions h = some x → x.tan.role = 2 → linkUp s = true →
     exec (.tandemConfig l h (.rate o)) s = .next { wake s with out := (wake s).out ++ [.link (.reply h 0)], tandem := { (wake s).tandem with seqOut := (wake s).tandem.seqOut + 1, sent := (wake s).tandem.sent ++ [((wake s).tandem.seqOut, 0)] }, sessions := alter (wake s).sessions h (fun y => { y with newRate := some o }) }) ∧
  (∀ (l : LinkMeta) (h : Nat) (x : Session) (s : State), Runs s → s.tandem.dead = false → s.tandem.state = 3 → l.wellForm = true → l.authOk = true →
     l.seqOk = true → look s.sessions h = some x → x.tan.role = 2 → linkUp s = true →
     Completes (.tandemConfig l h .close) s (fun t => t.sessions.map (fun e => e.1) = (del (wake s).sessions h).map (fun e => e.1) ∧
     ((x.gen + 1) % 16384 ≠ 0 → lookD t.sess.gens h 0 = (x.gen + 1) % 16384) ∧ ∃ o, t.out = o ++ [.link (.reply h 0)])) ∧
  (∀ (l : LinkMeta) (h fn : Nat) (token tag : Word) (o : StreamOps) (s : State), Runs s → s.tandem.dead = false → s.tandem.state = 3 →
     l.wellForm = true → l.authOk = true → l.seqOk = true → look s.sessions h = none → linkUp s = true → fnOn s fn = true →
     Completes (.tandemConfig l h (.openShadow fn token o tag)) s (fun t => (∃ y, look t.sessions h = some y ∧ y.state = 1 ∧ y.kind = 0 ∧ y.fn = fn ∧
     y.stream = o ∧ y.userTag = tag ∧ y.tan.role = 2 ∧ y.gen = fld token 31 18) ∧ (∀ n, n ≠ h → look t.sessions n = look (wake s).sessions n) ∧
     ∃ q, t.out = q ++ [.link (.reply h 0)])) ∧
  (∀ (l : LinkMeta) (h fn : Nat) (token tag : Word) (o : StreamOps) (s : State), Runs s → s.tandem.dead = false → s.tandem.state = 3 →
     l.wellForm = true → l.authOk = true → l.seqOk = true → look s.sessions h = none → linkUp s = true → fnOn s fn = false →
     exec (.tandemConfig l h (.openShadow fn token o tag)) s = .next { wake s with out := (wake s).out ++ [.link (.reply h 0x0806)], tandem := { (wake s).tandem with seqOut := (wake s).tandem.seqOut + 1, sent := (wake s).tandem.sent ++ [((wake s).tandem.seqOut, 0)] } }) ∧
  (∀ (l : LinkMeta) (h : Nat) (c : FwdCmd) (x : Session) (s : State), Runs s → s.tandem.dead = false → s.tandem.state = 3 → l.wellForm = true →
     l.authOk = true → l.seqOk = true → look s.sessions h = some x → x.tan.role = 1 →
     exec (.tandemConfig l h c) s = .next (violate 6 0x0824 l.seq (wake s))) ∧
  (∀ (l : LinkMeta) (h : Nat) (k : Hdr) (o : RateOps) (d : FwdWait) (s : State), Runs s → s.tandem.dead = false → s.tandem.state = 3 →
     l.wellForm = true → l.authOk = true → l.seqOk = true → s.tandem.waiting.find? (fun w => decide (w.handle = h)) = some d →
     d.cmd = .configureRate k o →
     exec (.tandemConfigReply l h 0) s = .next (complete k 2 0 [] { wake s with tandem := { (wake s).tandem with waiting := (wake s).tandem.waiting.erase d }, sessions := alter (wake s).sessions h (fun y => { y with newRate := some o }) })) ∧
  (∀ (l : LinkMeta) (h p : Nat) (k : Hdr) (d : FwdWait) (x : Session) (s : State), Runs s → s.tandem.dead = false → s.tandem.state = 3 →
     l.wellForm = true → l.authOk = true → l.seqOk = true → s.tandem.waiting.find? (fun w => decide (w.handle = h)) = some d → d.cmd = .park k p →
     look s.sessions h = some x → Completes (.tandemConfigReply l h 0) s (fun t => (∃ y, look t.sessions h = some y ∧ y.state = x.state ∧
     y.pend = some { kind := 0, hdr := some k, bell := (wake s).bell.num, prior := none }) ∧
     t = { wake s with sessions := t.sessions, tandem := { (wake s).tandem with waiting := (wake s).tandem.waiting.erase d } })) ∧
  (∀ (l : LinkMeta) (h : Nat) (k : Hdr) (o : RateOps) (c : Code) (d : FwdWait) (s : State), Runs s → s.tandem.dead = false → s.tandem.state = 3 →
     l.wellForm = true → l.authOk = true → l.seqOk = true → s.tandem.waiting.find? (fun w => decide (w.handle = h)) = some d →
     d.cmd = .configureRate k o → c ≠ 0 →
     exec (.tandemConfigReply l h c) s = .next (refuse k 2 (if c = 0x0806 ∨ c = 0x0703 then c else 0x0808) { wake s with tandem := { (wake s).tandem with waiting := (wake s).tandem.waiting.erase d } })) ∧
  (∀ (c : Nat) (s : State), Runs s → s.tandem.takeGo = true → atStart s = true → s.tandem.takeover = some c → s.sessions = [] → s.tandem.state = 3 →
     exec .takeover s = .next (pulse 0x072 { s with tandem := { s.tandem with takeover := none, takeGo := false, mismatch := [], state := 4 } })) ∧
  (∀ (c h : Nat) (x : Session) (s : State), Runs s → s.tandem.takeGo = true → atStart s = true → s.tandem.takeover = some c → s.sessions = [(h, x)] →
     x.tan.role = 2 → s.tandem.state = 3 → Completes .takeover s (fun t => t.tandem.state = 4 ∧ t.tandem.takeover = none ∧ t.tandem.takeGo = false ∧
     ∃ y, look t.sessions h = some y ∧ y.state = x.state ∧
     y.tan = { TanSess.reset 1 with shFrame := x.tan.shFrame, shBands := x.tan.shBands, shLast := x.tan.shLast, slot0 := x.tan.slot0, shDesc := x.tan.shDesc, shMain := x.tan.shMain, shSlot := x.tan.shSlot } ∧
     y.frameNum = (if x.tan.shBands = 0 then x.frameNum else if x.tan.shLast then (x.tan.shFrame + 1) % 2 ^ 32 else x.tan.shFrame))) ∧
  (∀ (h : Nat) (f : Frame) (x : Session) (s : State), Runs s → look s.sessions h = some x → x.frames.getLast? = some f → x.tan.role = 1 →
     linkUp s = true → x.tan.live = false → x.tan.sync = none → f.next = 1 →
     exec (.shadowSync h) s = .next (tellPartner h 2 (tellPhase h (tellOpen h (linkSend (.sync h f.num) (setFrame h f.num (fun f => { f with mirrored := true }) (setTs s h (fun t => { TanSess.reset 1 with sync := some f.num, shFrame := t.shFrame, shBands := t.shBands, shLast := t.shLast })))))))) ∧
  (∀ (h : Nat) (x : Session) (s : State), Runs s → look s.sessions h = some x → atStart s = true → linkUp s = true → x.state = 4 → x.pend = none →
     x.tan.role = 2 → x.tan.landed = true → Completes (.handover h) s (fun t => (∃ y, look t.sessions h = some y ∧
     y.tan = { TanSess.reset 1 with live := true } ∧ y.state = 4) ∧ t.mem = s.mem)) ∧
  (∀ (h : Nat) (x : Session) (s : State), Runs s → look s.sessions h = some x → atStart s = true → linkUp s = true → x.state = 4 → x.pend = none →
     x.tan.role = 1 → bit s.tandem.ctrl 1 = true → x.tan.live = true → Completes (.handover h) s (fun t => ∃ y, look t.sessions h = some y ∧
     y.tan = { TanSess.reset 2 with landed := true } ∧ y.state = 4 ∧ y.fence = none ∧ y.doneWait = [] ∧ y.recs = []))

/-- A target with a claimable source is sent one message and disarmed; a masked vector sets its pending bit instead and is sent the message when the mask
is cleared; a claim answers the best source of its target, puts it in service and arms the target again, and answers 0xFFE for a withdrawn level or
0xFFF for nothing. Everything that is not named is as before.
Rules: R464, R465, R466, R467, R468, R469, R470, R473. -/
def Obligations.InterruptMessages : Prop :=
  (∀ (t i : Nat) (s : State), Runs s → has s.irq.disarmed t = false → bestSource s t = some i → s.pwr.exiting = false → t < 0x800 ∨ 0x803 < t →
     (msixOf s t).mask = false →
     exec (.irqMessage t) s = .next { s with out := s.out ++ [.msi t], irq := { s.irq with disarmed := addS s.irq.disarmed t, msgLevel := put s.irq.msgLevel t (s.irq.pend.filter (fun k => claimable s t k && decide (srcKind k = .level))), withdrawn := remS s.irq.withdrawn t } }) ∧
  (∀ (t i : Nat) (s : State), Runs s → has s.irq.disarmed t = false → bestSource s t = some i → s.pwr.exiting = false → t < 0x800 ∨ 0x803 < t →
     (msixOf s t).mask = true →
     exec (.irqMessage t) s = .next { s with irq := { s.irq with disarmed := addS s.irq.disarmed t, msgLevel := put s.irq.msgLevel t (s.irq.pend.filter (fun k => claimable s t k && decide (srcKind k = .level))), withdrawn := remS s.irq.withdrawn t, pba := addS s.irq.pba t } }) ∧
  (∀ (t i : Nat) (s : State), Runs s → has s.irq.disarmed t = false → bestSource s t = some i → s.pwr.exiting = false → 0x800 ≤ t → t ≤ 0x803 →
     exec (.irqMessage t) s = .next { s with out := s.out ++ [.helmIrq (t - 0x800)], irq := { s.irq with disarmed := addS s.irq.disarmed t, msgLevel := put s.irq.msgLevel t (s.irq.pend.filter (fun k => claimable s t k && decide (srcKind k = .level))), withdrawn := remS s.irq.withdrawn t } }) ∧
  (∀ (t : Nat) (s : State), Runs s → has s.irq.disarmed t = true ∨ bestSource s t = none ∨ s.pwr.exiting = true → exec (.irqMessage t) s = .next s) ∧
  (∀ (t i : Nat) (s : State), Serves s → t ≤ 0x803 → bestSource s t = some i →
     exec (.irqClaim t) s = .next { wake s with out := s.out ++ [.readData (BitVec.ofNat 32 i)], irq := { s.irq with disarmed := remS s.irq.disarmed t, msgLevel := del s.irq.msgLevel t, withdrawn := remS s.irq.withdrawn t, pend := remS s.irq.pend i, forced := remS s.irq.forced i, insvc := put s.irq.insvc i t } }) ∧
  (∀ (t : Nat) (s : State), Serves s → t ≤ 0x803 → bestSource s t = none → has s.irq.withdrawn t = true →
     exec (.irqClaim t) s = .next { wake s with out := s.out ++ [.readData 0xFFE], irq := { s.irq with disarmed := remS s.irq.disarmed t, msgLevel := del s.irq.msgLevel t, withdrawn := remS s.irq.withdrawn t, spurious := up s.irq.spurious 1 } }) ∧
  (∀ (t : Nat) (s : State), Serves s → t ≤ 0x803 → bestSource s t = none → has s.irq.withdrawn t = false →
     exec (.irqClaim t) s = .next { wake s with out := s.out ++ [.readData 0xFFF], irq := { s.irq with disarmed := remS s.irq.disarmed t, msgLevel := del s.irq.msgLevel t, withdrawn := remS s.irq.withdrawn t } }) ∧
  (∀ (f v i : Nat) (s : State), Serves s → 1 ≤ f → fnOn s f = true → v < 64 → bestSource s (vectorTarget f v) = some i →
     exec (.fnIrqClaim f v) s = .next { wake s with out := s.out ++ [.readData (BitVec.ofNat 32 i)], irq := { s.irq with disarmed := remS s.irq.disarmed (vectorTarget f v), msgLevel := del s.irq.msgLevel (vectorTarget f v), withdrawn := remS s.irq.withdrawn (vectorTarget f v), pend := remS s.irq.pend i, forced := remS s.irq.forced i, insvc := put s.irq.insvc i (vectorTarget f v) } }) ∧
  (∀ (f v : Nat) (s : State), Serves s → 1 ≤ f → fnOn s f = true → v < 64 → bestSource s (vectorTarget f v) = none →
     has s.irq.withdrawn (vectorTarget f v) = true →
     exec (.fnIrqClaim f v) s = .next { wake s with out := s.out ++ [.readData 0xFFE], irq := { s.irq with disarmed := remS s.irq.disarmed (vectorTarget f v), msgLevel := del s.irq.msgLevel (vectorTarget f v), withdrawn := remS s.irq.withdrawn (vectorTarget f v), spurious := up s.irq.spurious 1 } }) ∧
  (∀ (f v : Nat) (s : State), Serves s → 1 ≤ f → fnOn s f = true → v < 64 → bestSource s (vectorTarget f v) = none →
     has s.irq.withdrawn (vectorTarget f v) = false →
     exec (.fnIrqClaim f v) s = .next { wake s with out := s.out ++ [.readData 0xFFF], irq := { s.irq with disarmed := remS s.irq.disarmed (vectorTarget f v), msgLevel := del s.irq.msgLevel (vectorTarget f v), withdrawn := remS s.irq.withdrawn (vectorTarget f v) } }) ∧
  (∀ (f v : Nat) (s : State), Serves s → fnOn s f = true → v < (if f = 0 then 2048 else 64) →
     exec (.msixMaskWrite f v true) s = .next { wake s with irq := { s.irq with msix := put s.irq.msix (vectorTarget f v) { msixOf s (vectorTarget f v) with mask := true } } }) ∧
  (∀ (f v : Nat) (s : State), Serves s → fnOn s f = true → v < (if f = 0 then 2048 else 64) → has s.irq.pba (vectorTarget f v) = false →
     exec (.msixMaskWrite f v false) s = .next { wake s with irq := { s.irq with msix := put s.irq.msix (vectorTarget f v) { msixOf s (vectorTarget f v) with mask := false } } }) ∧
  (∀ (v : Nat) (s : State), Serves s → v < 2048 → has s.irq.pba v = true →
     exec (.msixMaskWrite 0 v false) s = .next { wake s with out := s.out ++ [if 0x800 ≤ v ∧ v ≤ 0x803 then .helmIrq (v - 0x800) else .msi v], irq := { s.irq with msix := put s.irq.msix v { msixOf s v with mask := false }, pba := remS s.irq.pba v } })

/-- A completion takes its source out of service, and a level source whose condition still holds is pending again; a completion of a source that is not in
service at that target is counted; a forced pending of a reserved source is refused with 0x0415; a route to a target the source may not use is refused
with 0x0414; a VF sets only the routes of its own sources to its own vectors. Everything that is not named is as before.
Rules: R463, R464, R465, R470, R471, R472, R482. -/
def Obligations.InterruptsComplete : Prop :=
  (∀ (t : Nat) (w : Word) (s : State), Serves s → w &&& 0xFFFFF000 = 0 → t ≤ 0x803 → look s.irq.insvc (fld w 11 0) = some t →
     has s.irq.cond (fld w 11 0) = false →
     exec (.irqComplete t w) s = .next { wake s with irq := { s.irq with insvc := del s.irq.insvc (fld w 11 0) } }) ∧
  (∀ (t : Nat) (w : Word) (s : State), Serves s → w &&& 0xFFFFF000 = 0 → t ≤ 0x803 → look s.irq.insvc (fld w 11 0) = some t →
     has s.irq.cond (fld w 11 0) = true →
     exec (.irqComplete t w) s = .next (setPend (fld w 11 0) { wake s with irq := { s.irq with insvc := del s.irq.insvc (fld w 11 0) } })) ∧
  (∀ (t : Nat) (w : Word) (s : State), Serves s → w &&& 0xFFFFF000 = 0 → t ≤ 0x803 → look s.irq.insvc (fld w 11 0) ≠ some t →
     exec (.irqComplete t w) s = .next { wake s with irq := { s.irq with badComplete := up s.irq.badComplete 1 } }) ∧
  (∀ (f v : Nat) (w : Word) (s : State), Serves s → w &&& 0xFFFFF000 = 0 → fnOn s f = true → 1 ≤ f → v < 64 →
     look s.irq.insvc (fld w 11 0) = some (vectorTarget f v) → has s.irq.cond (fld w 11 0) = false →
     exec (.fnIrqComplete f v w) s = .next { wake s with irq := { s.irq with insvc := del s.irq.insvc (fld w 11 0) } }) ∧
  (∀ (f v : Nat) (w : Word) (s : State), Serves s → w &&& 0xFFFFF000 = 0 → fnOn s f = true → 1 ≤ f → v < 64 →
     look s.irq.insvc (fld w 11 0) = some (vectorTarget f v) → has s.irq.cond (fld w 11 0) = true →
     exec (.fnIrqComplete f v w) s = .next (setPend (fld w 11 0) { wake s with irq := { s.irq with insvc := del s.irq.insvc (fld w 11 0) } })) ∧
  (∀ (f v : Nat) (w : Word) (s : State), Serves s → w &&& 0xFFFFF000 = 0 → fnOn s f = true → 1 ≤ f → v < 64 →
     look s.irq.insvc (fld w 11 0) ≠ some (vectorTarget f v) →
     exec (.fnIrqComplete f v w) s = .next { wake s with irq := { s.irq with badComplete := up s.irq.badComplete 1 } }) ∧
  (∀ (w : Word) (s : State), Serves s → w &&& 0xFFFFF000 = 0 → srcKind (fld w 11 0) = .reserved →
     exec (.irqPendSet w) s = .next { wake s with irq := { s.irq with reason := 0x0415 } }) ∧
  (∀ (w : Word) (s : State), Serves s → w &&& 0xFFFFF000 = 0 → srcKind (fld w 11 0) = .pulse →
     exec (.irqPendSet w) s = .next (setPend (fld w 11 0) (wake s))) ∧
  (∀ (w : Word) (s : State), Serves s → w &&& 0xFFFFF000 = 0 → srcKind (fld w 11 0) = .level →
     exec (.irqPendSet w) s = .next (setPend (fld w 11 0) { wake s with irq := { s.irq with forced := addS s.irq.forced (fld w 11 0) } })) ∧
  (∀ (i : Nat) (w : Word) (s : State), Serves s → w &&& 0x01FF0000 = 0 → srcKind i ≠ .reserved → routeOk s i (fld w 15 0) = true →
     exec (.irqSrcCfgWrite i w) s = .next { wake s with irq := { s.irq with route := put s.irq.route i { en := bit w 31, prio := fld w 30 28, target := fld w 15 0 } } }) ∧
  (∀ (i : Nat) (w : Word) (s : State), Serves s → w &&& 0x01FF0000 = 0 → srcKind i = .reserved →
     exec (.irqSrcCfgWrite i w) s = .next { wake s with irq := { s.irq with reason := 0x0415 } }) ∧
  (∀ (i : Nat) (w : Word) (s : State), Serves s → w &&& 0x01FF0000 = 0 → srcKind i ≠ .reserved → routeOk s i (fld w 15 0) = false →
     exec (.irqSrcCfgWrite i w) s = .next { wake s with irq := { s.irq with reason := 0x0414 } }) ∧
  (∀ (f : Nat) (w : Word) (s : State), Serves s → w &&& 0xFFFFFFF0 = 0 → fnOn s f = true → 8 < fld w 3 0 → fld w 3 0 ≤ 12 →
     srcKind (fnSource f (fld w 3 0)) = .pulse → exec (.fnIrqPendSet f w) s = .next (setPend (fnSource f (fld w 3 0)) (wake s))) ∧
  (∀ (f : Nat) (w : Word) (s : State), Serves s → w &&& 0xFFFFFFF0 = 0 → fnOn s f = true → 12 < fld w 3 0 →
     exec (.fnIrqPendSet f w) s = .next (setFn (wake s) f (fun x => { x with ev := { x.ev with reason := 0x0415 } }))) ∧
  (∀ (f k : Nat) (w : Word) (s : State), Serves s → w &&& 0x01FE0000 = 0 → 1 ≤ f → fnOn s f = true → k ≤ 12 →
     targetVf (routeOf s (fnSource f k)).target = some f →
     exec (.fnIrqSrcCfgWrite f k w) s = .next { wake s with irq := { s.irq with route := put s.irq.route (fnSource f k) { en := bit w 31, prio := fld w 30 28, target := vectorTarget f (fld w 5 0) } } }) ∧
  (∀ (f k : Nat) (w : Word) (s : State), Serves s → w &&& 0x01FE0000 = 0 → 1 ≤ f → fnOn s f = true → k ≤ 12 →
     targetVf (routeOf s (fnSource f k)).target ≠ some f →
     exec (.fnIrqSrcCfgWrite f k w) s = .next (setFn (wake s) f (fun x => { x with ev := { x.ev with reason := 0x0414 } }))) ∧
  (∀ (f k c : Nat) (w : Word) (s : State), Serves s → w &&& 0x01FE0000 = 0 → 1 ≤ f → fnOn s f = true → k < 8 → slotChannel s f k = some c →
     targetVf (routeOf s c).target = some f →
     exec (.fnIrqDmaCfgWrite f k w) s = .next { wake s with irq := { s.irq with route := put s.irq.route c { en := bit w 31, prio := fld w 30 28, target := vectorTarget f (fld w 5 0) } } }) ∧
  (∀ (f k : Nat) (w : Word) (s : State), Serves s → w &&& 0x01FE0000 = 0 → 1 ≤ f → fnOn s f = true → 8 ≤ k ∨ slotChannel s f k = none →
     exec (.fnIrqDmaCfgWrite f k w) s = .next (wake s))

/-- Enabling an event queue needs a ring size of 2^4 to 2^16, else 0x0404, and clears its indices and fault; disabling it drops and counts the records
that wait; a head doorbell within the records is taken and one beyond is refused with 0x0605; a record is written with its phase while the ring has
room; a write that fails faults the queue and is counted; when records were dropped and none waits, one record 0x0413 says how many. Everything that
is not named is as before.
Rules: R475, R476, R478, R479, R480, R482. -/
def Obligations.EventQueuesCarryRecords : Prop :=
  (∀ (f : Nat) (v : Word) (s : State), Serves s → v &&& 0xFFFFFFFE = 0 → fnOn s f = true → bit v 0 = true →
     (fnOf s f).ev.en = false ∨ (fnOf s f).ev.fault = true → 4 ≤ fld (fnOf s f).ev.cfg 4 0 → fld (fnOf s f).ev.cfg 4 0 ≤ 16 →
     exec (.evqCtrlWrite f v) s = .next (setLevel (fnSource f 8) false (setFn (wake s) f (fun x => { x with ev := { x.ev with en := true, fault := false, head := 0, tail := 0 } })))) ∧
  (∀ (f : Nat) (v : Word) (s : State), Serves s → v &&& 0xFFFFFFFE = 0 → fnOn s f = true → bit v 0 = true →
     (fnOf s f).ev.en = false ∨ (fnOf s f).ev.fault = true → fld (fnOf s f).ev.cfg 4 0 < 4 ∨ 16 < fld (fnOf s f).ev.cfg 4 0 →
     exec (.evqCtrlWrite f v) s = .next (setFn (wake s) f (fun x => { x with ev := { x.ev with reason := 0x0404 } }))) ∧
  (∀ (f : Nat) (v : Word) (s : State), Serves s → v &&& 0xFFFFFFFE = 0 → fnOn s f = true → bit v 0 = false → (fnOf s f).ev.en = true →
     exec (.evqCtrlWrite f v) s = .next (setFn (wake s) f (fun x => { x with ev := { x.ev with en := false, front := [], lost := up x.ev.lost (fnOf s f).ev.front.length, dropped := x.ev.dropped + (fnOf s f).ev.front.length, overflow := x.ev.overflow || decide (0 < (fnOf s f).ev.front.length) } }))) ∧
  (∀ (f : Nat) (v : Word) (s : State), Serves s → fnOn s f = true → (v - (fnOf s f).ev.head).toNat ≤ ((fnOf s f).ev.tail - (fnOf s f).ev.head).toNat →
     exec (.evqHeadDb f v) s = .next (setLevel (fnSource f 8) (decide ((fnOf s f).ev.tail ≠ v)) (setFn (wake s) f (fun x => { x with ev := { x.ev with head := v } })))) ∧
  (∀ (f : Nat) (v : Word) (s : State), Serves s → fnOn s f = true → ((fnOf s f).ev.tail - (fnOf s f).ev.head).toNat < (v - (fnOf s f).ev.head).toNat →
     exec (.evqHeadDb f v) s = .next (setFn (wake s) f (fun x => { x with ev := { x.ev with reason := 0x0605 } }))) ∧
  (∀ (f : Nat) (r : EvRec) (l : List EvRec) (s : State), Runs s → s.dev.safe = false → (fnOf s f).ev.room = true → (fnOf s f).ev.front = r :: l →
     exec (.eventRecordPost f true) s = .next (setLevel (fnSource f 8) (decide ((fnOf s f).ev.tail + 1 ≠ (fnOf s f).ev.head)) (emit (.event f (fnOf s f).ev.tail (phaseOf (fnOf s f).ev.tail (fnOf s f).ev.size) r) (setFn (s) f (fun x => { x with ev := { x.ev with front := l, tail := x.ev.tail + 1 } }))))) ∧
  (∀ (f : Nat) (r : EvRec) (l : List EvRec) (s : State), Runs s → s.dev.safe = false → (fnOf s f).ev.room = true → (fnOf s f).ev.front = r :: l →
     exec (.eventRecordPost f false) s = .next { s with fns := put s.fns f { fnOf s f with ev := { (fnOf s f).ev with fault := true } }, dma := { s.dma with hostFail := up s.dma.hostFail 1 } }) ∧
  (∀ (f : Nat) (s : State), Runs s → s.dev.safe = false → (fnOf s f).ev.room = true → (fnOf s f).ev.front = [] → (fnOf s f).ev.dropped ≠ 0 →
     exec (.eventRecordPost f true) s = .next (setLevel (fnSource f 8) (decide ((fnOf s f).ev.tail + 1 ≠ (fnOf s f).ev.head)) (emit (.event f (fnOf s f).ev.tail (phaseOf (fnOf s f).ev.tail (fnOf s f).ev.size) { typ := 6, code := 0x0413, token := 0, pay := [satW (fnOf s f).ev.dropped, 0, 0, 0], mark := nowMark s }) (setFn (stamp s) f (fun x => { x with ev := { x.ev with tail := x.ev.tail + 1, dropped := 0, overflow := false } }))))) ∧
  (∀ (f : Nat) (b : Bool) (s : State), Runs s → s.dev.safe = true ∨ (fnOf s f).ev.room = false → exec (.eventRecordPost f b) s = .next s)

/-- An event of a kind that its watch has is recorded there, and at the limit is severe: the reaction of its window starts; a kind the watch lacks, and an
injected event without an armed injection, has no effect; a write of WATCH_STATUS clears the bits written 1 and the counts of the severe kinds
cleared; a window or limit of 0 keeps the old value; a bad injection is refused with 0x0B01, cause 6; the paired pulse of ERR_N ends; DEV_ERR_PIN
drives ERR_N; a Helm core whose heartbeat stops is a severe event of the Helm watch. Everything that is not named is as before.
Rules: R483, R484, R485, R486, R487, R488, R490, R491, R493, R494, R496. -/
def Obligations.WatchesCountFaults : Prop :=
  (∀ (w k place : Nat) (c : Code) (s : State), Runs s → w < 48 → kindExists w k = true →
     exec (.watchEvent w k c false place) s = .next (raise w k c false (reaction w k place) s)) ∧
  (∀ (w k place : Nat) (c : Code) (s : State), Runs s → w < 48 → kindExists w k = true → bit (watchOf s w).inject 31 = true →
     injectedKind w (watchOf s w).inject = k →
     exec (.watchEvent w k c true place) s = .next (raise w k c true (reaction w k place) { s with watches := put s.watches w { watchOf s w with inject := spendInject (watchOf s w).inject } })) ∧
  (∀ (w k place : Nat) (c : Code) (i : Bool) (s : State), Runs s → 48 ≤ w ∨ kindExists w k = false → exec (.watchEvent w k c i place) s = .next s) ∧
  (∀ (s : State), Runs s → exec .errPulseEnd s = .next { s with dev := { s.dev with errPulse := false } }) ∧
  (∀ (w : Nat) (v : Word) (s : State), Serves s → w < 48 →
     exec (.watchStatusWrite w v) s = .next (watchLevel w { wake s with watches := put s.watches w { watchOf s w with severe := (watchOf s w).severe &&& ~~~((v >>> 16).truncate 16), seen := (watchOf s w).seen &&& ~~~(v.truncate 16), kinds := clearCounts ((watchOf s w).severe &&& (v >>> 16).truncate 16) (watchOf s w).kinds } })) ∧
  (∀ (w : Nat) (v : Word) (s : State), Serves s → w < 48 → v &&& 0x0000FF00 = 0 →
     exec (.watchCfgWrite w v) s = .next { wake s with watches := put s.watches w { watchOf s w with cfg := windowLimit (watchOf s w).cfg v } }) ∧
  (∀ (w : Nat) (v : Word) (s : State), Serves s → w < 48 → v &&& 0x70FEFF00 = 0 → injectBad w v = false →
     exec (.watchInject w v) s = .next { wake s with watches := put s.watches w { watchOf s w with inject := v } }) ∧
  (∀ (w : Nat) (v : Word) (s : State), Serves s → w < 48 → v &&& 0x70FEFF00 = 0 → injectBad w v = true →
     exec (.watchInject w v) s = .next (guardReject 6 0 (w * 65536 + 0xF020) 1 (wake s))) ∧
  (∀ (v : Word) (s : State), Serves s → v &&& 0xFFFFFFF0 = 0 →
     exec (.devErrPinWrite v) s = .next { wake s with dev := { s.dev with errDrive := bit v 0 } }) ∧
  (∀ (c : Nat) (s : State), Runs s → c < 4 →
     exec (.helmHeartbeatTimeout c) s = .next (raise winHelm 0 0 false (fun s => { s with stalled := addS s.stalled c }) s)) ∧
  (∀ (c : Nat) (s : State), Runs s → 4 ≤ c → exec (.helmHeartbeatTimeout c) s = .next s)

/-- In the BIST slice, the analogue target at the head is measured against its limits and the walk advances; a skipped one is counted; an engine target of
an engine taken out for test passes when its signature matches; a failed signature is the event 3 of the Quarter watch; outside the slice nothing is
tested. BIST needs an applied plan, else 0x0B30. Everything that is not named is as before.
Rules: R500, R501, R502, R503, R504, R506, R508, R509, R516. -/
def Obligations.SelfTestsAreJudged : Prop :=
  (∀ (r : BistRes) (lim : BitVec 64) (n : Nat) (s : State), Runs s → s.bist.slice = true → r.target ≤ 0x312 → 0x220 ≤ r.target → r.limit = some lim →
     bit s.bist.cfg 8 = true → s.bist.kept = [] → r.target = s.bist.head → r.skipped = false → anaSkips s r.target = false →
     s.bist.used + anaTime r.target ≤ 40 → measuredOk r.result lim = true → nextAna r.target = some n →
     exec (.bistTargetDone r) s = .next { s with bist := { s.bist with head := n, cnt := bump s.bist.cnt 0x20 1, used := s.bist.used + anaTime r.target } }) ∧
  (∀ (r : BistRes) (lim : BitVec 64) (n : Nat) (s : State), Runs s → s.bist.slice = true → r.target ≤ 0x312 → 0x100 ≤ r.target → r.limit = some lim →
     bit s.bist.cfg 8 = true → s.bist.kept = [] → r.target = s.bist.head → r.skipped = true → nextAna r.target = some n →
     exec (.bistTargetDone r) s = .next { s with bist := { s.bist with head := n, cnt := bump s.bist.cnt 0x28 1 } }) ∧
  (∀ (r : BistRes) (k : Nat) (v : BitVec 64) (s : State), Runs s → s.bist.slice = true → r.target = 0x400 + (32 * r.quarter + k) →
     look s.bist.standIn r.quarter = some k → bit s.bist.cfg 9 = true → has s.bist.out (32 * r.quarter + k) = true → r.limit = some v → v ≠ r.result →
     exec (.bistTargetDone r) s = .next (bistFail (winQtr ((32 * r.quarter + k) / 32)) 3 r.target r.variant 0 { s with bist := { s.bist with cnt := bump s.bist.cnt 0x20 1, failed := addS s.bist.failed (32 * r.quarter + k) } })) ∧
  (∀ (r : BistRes) (k : Nat) (s : State), Runs s → s.bist.slice = true → r.target = 0x400 + (32 * r.quarter + k) →
     look s.bist.standIn r.quarter = some k → bit s.bist.cfg 9 = true → has s.bist.out (32 * r.quarter + k) = true → r.limit = some r.result →
     has s.bist.scanOk (512 + (32 * r.quarter + k)) = false → k < 32 →
     exec (.bistTargetDone r) s = .next { s with bist := { s.bist with cnt := bump s.bist.cnt 0x20 1, scanOk := addS s.bist.scanOk (32 * r.quarter + k) } }) ∧
  (∀ (r : BistRes) (s : State), Runs s → s.bist.slice = false → exec (.bistTargetDone r) s = .next s) ∧
  (∀ (v : Word) (s : State), Serves s → v &&& 0xFFFFFFFE = 0 → bit v 0 = true → s.plan.first = false →
     exec (.bistCtrlWrite v) s = .next { wake s with bist := { s.bist with reason := 0x0B30 } }) ∧
  (∀ (v : Word) (s : State), Serves s → v &&& 0xFFFFFFFE = 0 → bit v 0 = false ∨ s.plan.first = true →
     exec (.bistCtrlWrite v) s = .next { wake s with bist := { s.bist with en := bit v 0 } })

/-- At its Bell a target is measured; near a reference temperature its coefficients are accepted when they are within the absolute and relative limits,
and counted; a voltage target without its reference is skipped; a coefficient written by its gain half and then its offset half is staged, or refused
with 0x0B32 outside the limits; SEXT_CTRL mode changes only while disabled, else 0x0B31. Everything that is not named is as before.
Rules: R510, R511, R512, R513, R514, R515, R517. -/
def Obligations.SextantCalibrates : Prop :=
  (∀ (m : SextMeas) (k : Nat) (s : State), Runs s → bit s.sext.ctrl 0 = true → bit s.sext.ctrl 1 = true →
     s.bell.num.toNat % max 1 (fld s.sext.cfg 7 0) = 0 → s.sext.result = none → s.pwr.state < 3 → m.clkOk = true → m.voltOk = true →
     s.sext.next < 95 → nearSet m.temp = some k → sextAbs s.sext.next m.gain m.offset = true →
     sextRel s.sext.next (sextPair s s.sext.next k) (m.gain, m.offset) = true →
     exec (.sextantMeasure m) s = .next { s with sext := { s.sext with clkOk := true, voltOk := true, next := s.sext.next + 1, raw := put s.sext.raw s.sext.next m.raw, temps := put s.sext.temps s.sext.next m.temp, result := some (4 * s.sext.next + k, m.gain, m.offset), stale := remS s.sext.stale s.sext.next, accept := up s.sext.accept 1 } }) ∧
  (∀ (m : SextMeas) (s : State), Runs s → bit s.sext.ctrl 0 = true → s.bell.num.toNat % max 1 (fld s.sext.cfg 7 0) = 0 → s.sext.result = none →
     s.pwr.state < 3 → m.clkOk = true → m.voltOk = false → s.sext.voltOk = false → s.sext.next < 80 →
     exec (.sextantMeasure m) s = .next { s with sext := { s.sext with clkOk := true, voltOk := false, next := s.sext.next + 1 } }) ∧
  (∀ (m : SextMeas) (s : State), Runs s →
     bit s.sext.ctrl 0 = false ∨ s.bell.num.toNat % max 1 (fld s.sext.cfg 7 0) ≠ 0 ∨ s.sext.result.isSome = true ∨ 3 ≤ s.pwr.state →
     exec (.sextantMeasure m) s = .next s) ∧
  (∀ (v : Word) (s : State), Serves s → v &&& 0xFFFF0000 = 0 →
     exec (.sextCoefGainWrite v) s = .next { wake s with sext := { s.sext with held := some (sextKey s, v.truncate 16) } }) ∧
  (∀ (v : Word) (g : BitVec 16) (s : State), Serves s → v &&& 0xFFFF0000 = 0 → s.sext.held = some (sextKey s, g) →
     sextAbs (sextKey s / 4) g (v.truncate 16) = true →
     exec (.sextCoefOffsetWrite v) s = .next { wake s with sext := { s.sext with held := none, staged := put s.sext.staged (sextKey s) (g, v.truncate 16) } }) ∧
  (∀ (v : Word) (g : BitVec 16) (s : State), Serves s → v &&& 0xFFFF0000 = 0 → s.sext.held = some (sextKey s, g) →
     sextAbs (sextKey s / 4) g (v.truncate 16) = false →
     exec (.sextCoefOffsetWrite v) s = .next { wake s with sext := { s.sext with held := none, reason := 0x0B32 } }) ∧
  (∀ (v : Word) (s : State), Serves s → v &&& 0xFFFFFFFC = 0 → bit s.sext.ctrl 0 = true → bit v 1 ≠ bit s.sext.ctrl 1 →
     exec (.sextCtrlWrite v) s = .next { wake s with sext := { s.sext with reason := 0x0B31 } }) ∧
  (∀ (v : Word) (s : State), Serves s → v &&& 0xFFFFFFFC = 0 → bit s.sext.ctrl 0 = false ∨ bit v 1 = bit s.sext.ctrl 1 →
     exec (.sextCtrlWrite v) s = .next { wake s with sext := { s.sext with ctrl := v } })

/-- An idle device with leave enters Hove-to and leaves it when work comes; a finished exit puts the device in the state it was leaving for; a latency
tolerance below the exit latency of the state starts an exit to the deepest state that fits, and any other only wakes the device. Everything that is
not named is as before.
Rules: R522, R523, R524, R525, R526, R527. -/
def Obligations.PowerStatesChange : Prop :=
  (∀ (s : State), Runs s → s.pwr.state = 0 → s.pwr.exiting = false → taskBusy s = false → allowed s 1 = true →
     exec (.hoveToEnter true) s = .next { s with pwr := { s.pwr with state := 1, entries := bump s.pwr.entries 1 1 } }) ∧
  (∀ (s : State), Runs s → s.pwr.state = 1 →
     exec (.hoveToEnter false) s = .next { s with pwr := { s.pwr with state := 0, exiting := false, entries := bump s.pwr.entries 0 1 } }) ∧
  (∀ (s : State), Runs s → s.pwr.exiting = true → s.pwr.state < 3 → s.pwr.exitTo < 4 → s.net.waiting = [] →
     exec .powerExitDone s = .next { s with pwr := { s.pwr with state := s.pwr.exitTo, exiting := false, entries := bump s.pwr.entries s.pwr.exitTo 1 } }) ∧
  (∀ (s : State), Runs s → s.pwr.exiting = true → 3 ≤ s.pwr.state → s.pwr.exitTo < 3 → s.net.waiting = [] →
     Completes .powerExitDone s (fun t => t = { s with pwr := { s.pwr with state := s.pwr.exitTo, exiting := false, entries := bump s.pwr.entries s.pwr.exitTo 1 }, freeCtr := t.freeCtr, memc := { s.memc with chans := t.memc.chans } })) ∧
  (∀ (s : State), Runs s → s.pwr.exiting = false → exec .powerExitDone s = .next s) ∧
  (∀ (v : Word) (s : State), Serves s → exitLatency s.pwr.state ≤ v.toNat →
     exec (.devLatencyTolWrite v) s = .next (wake { s with dev := { s.dev with latencyTol := v } })) ∧
  (∀ (v : Word) (s : State), Serves s → v.toNat < exitLatency s.pwr.state → s.pwr.exiting = false →
     exec (.devLatencyTolWrite v) s = .next { s with dev := { s.dev with latencyTol := v }, pwr := { s.pwr with exiting := true, exitTo := deepestFit v.toNat s.pwr.state, wakeCount := up s.pwr.wakeCount 1 } })

/-- THERMTRIP stops the device; each full reset, when no burn and no flash operation is cut short, leaves the reset state but for the fuses, the flash,
the straps and the cause (0 power or PERST_N, 1 DEV_RESET, 2 I3C); a paired device first sends its RESET notice on both paths; PERST_N low keeps the
device in reset until it rises; the I3C reset needs the nonce armed within the last second; a power cycle also ends THERMTRIP. That a cut-off burn or
flash write leaves open values is the free values of log entry 4.
Rules: R459, R531, R540, R553, R554, R578. -/
def Obligations.ResetsLeaveFusesAndFlash : Prop :=
  (∀ (k : Nat) (s : State), s.dev.stopped = false → k < 32 →
     exec (.thermtrip k) s = .next { s with out := s.out ++ [.thermtrip], dev := { s.dev with stopped := true } }) ∧
  (∀ (s : State), Runs s → s.sec.burning = none → s.sec.flashOp = none → s.tandem.state ≠ 3 →
     exec .perstFall s = .next { State.reset with pending := s.pending, out := s.out, freeCtr := s.freeCtr, dev := { Dev.reset with straps := s.dev.straps, perstN := false, stopped := false }, sec := { Sec.reset with svn := s.sec.svn, ownerBits := s.sec.ownerBits, ownerHash := s.sec.ownerHash, flash := s.sec.flash, cause := 0 } }) ∧
  (∀ (s : State), s.dev.perstN = true → s.dev.stopped = true → exec .perstFall s = .next { s with dev := { s.dev with perstN := false } }) ∧
  (∀ (k : Nat) (s : State), s.dev.perstN = false → exec (.perstRise k) s = .next { s with dev := { s.dev with perstN := true, straps := k } }) ∧
  (∀ (s : State), Serves s → s.sec.burning = none → s.sec.flashOp = none → s.tandem.state ≠ 3 →
     exec .devReset s = .next { State.reset with pending := s.pending, out := s.out, freeCtr := s.freeCtr, dev := { Dev.reset with straps := s.dev.straps, perstN := s.dev.perstN, stopped := s.dev.stopped }, sec := { Sec.reset with svn := s.sec.svn, ownerBits := s.sec.ownerBits, ownerHash := s.sec.ownerHash, flash := s.sec.flash, cause := 1 } }) ∧
  (∀ (s : State), Serves s → s.sec.burning = none → s.sec.flashOp = none → s.tandem.state = 3 →
     exec .devReset s = .next { State.reset with pending := s.pending, out := s.out ++ [.link .resetNotice, .altLink .resetNotice], freeCtr := s.freeCtr, dev := { Dev.reset with straps := s.dev.straps, perstN := s.dev.perstN, stopped := s.dev.stopped }, sec := { Sec.reset with svn := s.sec.svn, ownerBits := s.sec.ownerBits, ownerHash := s.sec.ownerHash, flash := s.sec.flash, cause := 1 } }) ∧
  (∀ (n : DWord) (b : BitVec 40) (s : State), Runs s → s.sec.nonce = some (n, b) → bellsFrom b s.bell.num < bellRate s → s.sec.burning = none →
     s.sec.flashOp = none → s.tandem.state ≠ 3 →
     exec (.i3cResetGo n) s = .next { State.reset with pending := s.pending, out := s.out, freeCtr := s.freeCtr, dev := { Dev.reset with straps := s.dev.straps, perstN := s.dev.perstN, stopped := s.dev.stopped }, sec := { Sec.reset with svn := s.sec.svn, ownerBits := s.sec.ownerBits, ownerHash := s.sec.ownerHash, flash := s.sec.flash, cause := 2 } }) ∧
  (∀ (n m : DWord) (b : BitVec 40) (s : State), Runs s → s.sec.nonce = some (m, b) → m ≠ n ∨ bellRate s ≤ bellsFrom b s.bell.num →
     exec (.i3cResetGo n) s = .next { s with out := s.out ++ [.i3cRefused] }) ∧
  (∀ (n : DWord) (s : State), Runs s → s.sec.nonce = none → exec (.i3cResetGo n) s = .next { s with out := s.out ++ [.i3cRefused] }) ∧
  (∀ (k : Nat) (s : State), s.sec.burning = none → s.sec.flashOp = none →
     exec (.powerCycle k) s = .next { State.reset with pending := s.pending, out := s.out, freeCtr := s.freeCtr, dev := { Dev.reset with straps := k, perstN := true, stopped := false }, sec := { Sec.reset with svn := s.sec.svn, ownerBits := s.sec.ownerBits, ownerHash := s.sec.ownerHash, flash := s.sec.flash, cause := 0 } })

/-- Each stage runs only from the stage before it. ROM measures the fuses, checks the vendor key of the manifest (0x0901) and takes the first boot slot
that passes its checks (0x0908 when none), measuring its image; LOAD builds the library (none where flash holds no package) and takes the first Helm
slot that passes (0x0909 when none), and the default plan, which must be found (0x090A) and pass its checks, else their code; TRAIN checks the memory
(0x0E01, 0x0E02) and, when every channel trained, keeps the controller ready; INIT reads the plan again into the staging buffer, needs the digest that
LOAD measured (0x090A), checks it, and applies it: every Quarter whose District is not all OFF loads. A stage that reads bytes of the flash otherwise
than they are stored (log entry 86) does what it does on a flash that holds those bytes, and leaves the flash as it is. A failed stage is stage 7 with
its code; BOOT_MODE halts with code 0 (log entry 19). Nothing else that the clauses name is touched.
Rules: R53, R535, R536, R538, R539, R540, R541, R542, R543, R545, R598. -/
def Obligations.BootStages : Prop :=
  (∀ (s : State), Runs s → s.sec.stage = 0 → bootHalt s = true →
     exec (.bootRomDone []) s = .next { s with sec := { s.sec with stage := 7, bootReason := 0, meas := put s.sec.meas 4 (Config.extendRecord (lookD s.sec.meas 4 0) (fuseRecord s)) } }) ∧
  (∀ (s : State), Runs s → s.sec.stage = 0 → bootHalt s = false →
     Completes (.bootRomDone []) s (fun t => lookD t.sec.meas 4 0 = Config.extendRecord (lookD s.sec.meas 4 0) (fuseRecord s) ∧
     t = { s with sec := t.sec } ∧ (if Config.sha384 (flashBytes s 0x10000 96) = Config.vendorKeyHash then t.sec.vendorKey = flashBytes s 0x10000 96 ∧
     t.sec.dirInvalid = (directory s).isNone ∧
     (match pickSlot (bootImage { s with sec := { s.sec with vendorKey := flashBytes s 0x10000 96 } }) (slotFirst s ((directory s).getD (0, 0)).1) with
      | none => t.sec.stage = 7 ∧ t.sec.bootReason = 0x0908
      | some (k, f) => t.sec.stage = 1 ∧ t.sec.bootSlot = k ∧ t.sec.bootSvn = f.svn ∧
        lookD t.sec.meas 0 0 = Config.extend (lookD s.sec.meas 0 0) f.digest) else t.sec.stage = 7 ∧ t.sec.bootReason = 0x0901))) ∧
  (∀ (s : State), Runs s → s.sec.stage = 1 → Completes (.bootLoadDone []) s (fun t => (flashBytes s 0x820000 4 ≠ [0x4D, 0x43, 0x50, 0x4B] →
     t.mclib = s.mclib) ∧
     (match pickSlot (helmImage s) (slotFirst s s.sec.helmFirst) with
      | none => t.sec.stage = 7 ∧ t.sec.bootReason = 0x0909
      | some (k, f) => t.sec.helmSlot = k ∧ t.sec.helmSvn = f.svn ∧ lookD t.sec.meas 1 0 = Config.extend (lookD s.sec.meas 1 0) f.digest ∧
        (if planFound s = false then t.sec.stage = 7 ∧
        t.sec.bootReason = 0x090A else match loadPlanCode (startHelm k f (buildLibrary s)) (defaultPlan s) with
      | some c => t.sec.stage = 7 ∧ t.sec.bootReason = c ∧ t.plan.reason = c
      | none => t.sec.stage = 2 ∧ t.plan.digest1 = (parseImage (defaultPlan s)).digest ∧ t.memc.trainState = 1 ∧ (∀ c, c < 12 →
        (chanOf t c).state = 1))) ∧ t = { s with sec := t.sec, mclib := t.mclib, plan := t.plan, memc := t.memc })) ∧
  (∀ (i : TrainIn) (s : State), Runs s → s.sec.stage = 2 → i.uniform = true → has [1, 2] i.dpc = true → has [1, 2, 4] i.ranks = true →
     4800 ≤ i.ratedMts → i.results = List.replicate 12 1 → bit s.memc.retireCfg 8 = false →
     384000000000 ≤ 12 * (i.dpc * i.ranks) * ((if i.dens32 then 64 else 32) * 1000000000) → i.retired = [] →
     Completes (.bootTrainDone i) s (fun t => t.sec.stage = 3 ∧ t.memc.trainState = 2 ∧ t.memc.en = true ∧ t.memc.speed = speedCode i.ratedMts i.dpc ∧
     t.memc.dpc = i.dpc ∧ t.memc.ranks = i.ranks ∧ t.memc.failMask = 0 ∧ t = { s with sec := { s.sec with stage := 3 }, memc := t.memc })) ∧
  (∀ (i : TrainIn) (s : State), Runs s → s.sec.stage = 2 → i.uniform = false ∨ has [1, 2] i.dpc = false ∨ has [1, 2, 4] i.ranks = false →
     exec (.bootTrainDone i) s = .next { s with memc := { s.memc with reason := 0x0E01, trainState := 3 }, sec := { s.sec with stage := 7, bootReason := 0x0E01 } }) ∧
  (∀ (i : TrainIn) (s : State), Runs s → s.sec.stage = 2 → i.uniform = true → has [1, 2] i.dpc = true → has [1, 2, 4] i.ranks = true →
     i.ratedMts < 4800 →
     exec (.bootTrainDone i) s = .next { s with memc := { s.memc with reason := 0x0E02, trainState := 3 }, sec := { s.sec with stage := 7, bootReason := 0x0E02 } }) ∧
  (∀ (s : State), Runs s → s.sec.stage = 3 → s.plan.first = false → planFound s = false →
     exec (.bootInitDone []) s = .next { s with sec := { s.sec with stage := 7, bootReason := 0x090A } }) ∧
  (∀ (s : State), Runs s → s.sec.stage = 3 → s.plan.first = false → planFound s = true →
     Completes (.bootInitDone []) s (fun t => (if (parseImage (defaultPlan s)).digest = s.plan.digest1 then (match planCode (writeMem (stageAt s) (defaultPlan s) s) (defaultPlan s) true (parseImage (defaultPlan s)) with
      | some c => t.sec.stage = 7 ∧ t.sec.bootReason = c ∧ t.plan.reason = c
      | none => t.plan.first = true ∧ t.plan.cfg = (parseImage (defaultPlan s)).cfg ∧ t.plan.activeId = (parseImage (defaultPlan s)).planId ∧
        t.plan.activeSvn = (parseImage (defaultPlan s)).svn ∧ t.plan.digest = (parseImage (defaultPlan s)).digest ∧ t.sec.ready = true ∧
        lookD t.sec.meas 3 0 = Config.extend (lookD s.sec.meas 3 0) (parseImage (defaultPlan s)).digest ∧ (∀ q d, q < 16 →
        look (parseImage (defaultPlan s)).districts q = some d → allOff d = false → (qtrOf t q).state = 5)) else t.sec.stage = 7 ∧
     t.sec.bootReason = 0x090A) ∧ (∀ a, a < stageAt s ∨ stageAt s + (defaultPlan s).length ≤ a → readMem t a = readMem s a))) ∧
  (∀ (l : List (Nat × Byte)) (s : State), Runs s → ∃ t, exec (.bootRomDone []) (misread l s) = .next t ∧
     exec (.bootRomDone l) s = .next { t with sec := { t.sec with flash := s.sec.flash } }) ∧
  (∀ (l : List (Nat × Byte)) (s : State), Runs s → ∃ t, exec (.bootLoadDone []) (misread l s) = .next t ∧
     exec (.bootLoadDone l) s = .next { t with sec := { t.sec with flash := s.sec.flash } }) ∧
  (∀ (l : List (Nat × Byte)) (s : State), Runs s → ∃ t, exec (.bootInitDone []) (misread l s) = .next t ∧
     exec (.bootInitDone l) s = .next { t with sec := { t.sec with flash := s.sec.flash } })

/-- Over each of the two paths, GET_VERSION, GET_CAPABILITIES and NEGOTIATE_ALGORITHMS come in that order and the other requests after them (the order
PRESUMED from DSP0274, log entry 17); a request out of order is answered with an error and changes nothing; the capabilities, the only algorithms, the
digest and chain of certificate slot 0, and the six measurement blocks with a signature are what the answers say; the I3C telemetry answers the
temperature, power and watch state; arming the I3C reset hands out a fresh nonce. Everything that is not named is as before.
Rules: R545, R547, R553. -/
def Obligations.AttestationIsAnswered : Prop :=
  (∀ (v : Spdm) (s : State), Runs s →
     exec (.getVersion v) s = .next { s with out := s.out ++ [.spdm v 0x84 (.version 1 2)], sec := if v = .doe then { s.sec with spdmDoe := 1 } else { s.sec with spdmI3c := 1 } }) ∧
  (∀ (v : Spdm) (s : State), Runs s → 1 ≤ (if v = .doe then s.sec.spdmDoe else s.sec.spdmI3c) →
     exec (.getCapabilities v) s = .next { s with out := s.out ++ [.spdm v 0xE1 (.capabilities true true true 14)], sec := if v = .doe then { s.sec with spdmDoe := max 2 (if v = .doe then s.sec.spdmDoe else s.sec.spdmI3c) } else { s.sec with spdmI3c := max 2 (if v = .doe then s.sec.spdmDoe else s.sec.spdmI3c) } }) ∧
  (∀ (v : Spdm) (s : State), Runs s → (if v = .doe then s.sec.spdmDoe else s.sec.spdmI3c) < 1 →
     exec (.getCapabilities v) s = .next { s with out := s.out ++ [.spdm v 0xE1 .error] }) ∧
  (∀ (v : Spdm) (s : State), Runs s → 2 ≤ (if v = .doe then s.sec.spdmDoe else s.sec.spdmI3c) →
     exec (.negotiateAlgorithms v) s = .next { s with out := s.out ++ [.spdm v 0xE3 .ecdsaP384Sha384], sec := if v = .doe then { s.sec with spdmDoe := 3 } else { s.sec with spdmI3c := 3 } }) ∧
  (∀ (v : Spdm) (s : State), Runs s → (if v = .doe then s.sec.spdmDoe else s.sec.spdmI3c) < 2 →
     exec (.negotiateAlgorithms v) s = .next { s with out := s.out ++ [.spdm v 0xE3 .error] }) ∧
  (∀ (v : Spdm) (s : State), Runs s → 3 ≤ (if v = .doe then s.sec.spdmDoe else s.sec.spdmI3c) →
     exec (.getDigests v) s = .next { s with out := s.out ++ [.spdm v 0x81 (.digest 0 (chainDigest s))] }) ∧
  (∀ (v : Spdm) (s : State), Runs s → (if v = .doe then s.sec.spdmDoe else s.sec.spdmI3c) < 3 →
     exec (.getDigests v) s = .next { s with out := s.out ++ [.spdm v 0x81 .error] }) ∧
  (∀ (v : Spdm) (s : State), Runs s → 3 ≤ (if v = .doe then s.sec.spdmDoe else s.sec.spdmI3c) →
     exec (.getCertificate v) s = .next { s with out := s.out ++ [.spdm v 0x82 (.certificates 0 (certificates s))] }) ∧
  (∀ (v : Spdm) (s : State), Runs s → (if v = .doe then s.sec.spdmDoe else s.sec.spdmI3c) < 3 →
     exec (.getCertificate v) s = .next { s with out := s.out ++ [.spdm v 0x82 .error] }) ∧
  (∀ (v : Spdm) (s : State), Runs s → 3 ≤ (if v = .doe then s.sec.spdmDoe else s.sec.spdmI3c) →
     exec (.challenge v) s = .next { s with out := s.out ++ [.spdm v 0x83 (.challenge 0 (chainDigest s) (spdmSign s))], freeCtr := s.freeCtr + 1 }) ∧
  (∀ (v : Spdm) (s : State), Runs s → (if v = .doe then s.sec.spdmDoe else s.sec.spdmI3c) < 3 →
     exec (.challenge v) s = .next { s with out := s.out ++ [.spdm v 0x83 .error] }) ∧
  (∀ (v : Spdm) (s : State), Runs s → 3 ≤ (if v = .doe then s.sec.spdmDoe else s.sec.spdmI3c) →
     exec (.getMeasurements v) s = .next { s with out := s.out ++ [.spdm v 0xE0 (.measurements [(1, false, lookD s.sec.meas 0 0), (2, false, lookD s.sec.meas 1 0), (3, false, lookD s.sec.meas 2 0), (4, false, lookD s.sec.meas 3 0), (5, false, lookD s.sec.meas 4 0), (6, true, lookD s.sec.meas 5 0)] (spdmSign s))], freeCtr := s.freeCtr + 1 }) ∧
  (∀ (v : Spdm) (s : State), Runs s → (if v = .doe then s.sec.spdmDoe else s.sec.spdmI3c) < 3 →
     exec (.getMeasurements v) s = .next { s with out := s.out ++ [.spdm v 0xE0 .error] }) ∧
  (∀ (s : State), Runs s →
     exec .i3cTelemetry s = .next { s with out := s.out ++ [.i3cTelemetry s.pwr.tj (pwrStatus s) (devState s) ((watchMap s).truncate 32) ((watchMap s >>> 32).truncate 32)] }) ∧
  (∀ (s : State), Runs s →
     exec .i3cResetArm s = .next { s with out := s.out ++ [.i3cNonce (Config.nonce s.freeCtr)], freeCtr := s.freeCtr + 1, sec := { s.sec with nonce := some (Config.nonce s.freeCtr, s.bell.num) } })

/-- A write of an anti-rollback counter starts a burn when nothing burns, the counter exists, the value rises to at most 64 and no running image would be
shut out, else it is refused with 0x0910 (a counter that does not exist: log entry 16); programming and revoking an owner slot likewise, and a
revocation drops the key at once; the end of the burn sets the fuse bits. Everything that is not named is as before.
Rules: R534, R535, R536, R537, R557. -/
def Obligations.FusesAreBurnt : Prop :=
  (∀ (v : Word) (s : State), Serves s → v &&& 0xFFF0FF80 = 0 → s.sec.burning = none → (fld v 19 16) ≤ 8 → svnOf s (fld v 19 16) < (fld v 6 0) →
     (fld v 6 0) ≤ 64 → aboveRunning s (fld v 19 16) (fld v 6 0) = false →
     exec (.secFuseSvn v) s = .next { wake s with sec := { s.sec with burning := some (.svn (fld v 19 16) (fld v 6 0)), fuseSvnReg := v } }) ∧
  (∀ (v : Word) (s : State), Serves s → v &&& 0xFFF0FF80 = 0 →
     s.sec.burning.isSome = true ∨ 8 < (fld v 19 16) ∨ (fld v 6 0) ≤ svnOf s (fld v 19 16) ∨ 64 < (fld v 6 0) ∨ aboveRunning s (fld v 19 16) (fld v 6 0) = true →
     exec (.secFuseSvn v) s = .next { wake s with sec := { s.sec with reason := 0x0910 } }) ∧
  (∀ (k : Nat) (s : State), Serves s → s.sec.burning = none → k ≤ 3 → ownerProg s k = false →
     exec (.fuseOwnerProgram k) s = .next { wake s with sec := { s.sec with burning := some (.program k (heldHash s)), ownerReg := ownerWord 1 k } }) ∧
  (∀ (k : Nat) (s : State), Serves s → s.sec.burning.isSome = true ∨ 3 < k ∨ ownerProg s k = true →
     exec (.fuseOwnerProgram k) s = .next { wake s with sec := { s.sec with reason := 0x0910 } }) ∧
  (∀ (k : Nat) (s : State), Serves s → s.sec.burning = none → k ≤ 3 →
     exec (.fuseOwnerRevoke k) s = .next { wake s with sec := { s.sec with burning := some (.revoke k), ownerReg := ownerWord 2 k, accepted := remS s.sec.accepted k, ownerKeys := s.sec.ownerKeys.filter (fun e => decide (e.1 ≠ k)) } }) ∧
  (∀ (k : Nat) (s : State), Serves s → s.sec.burning.isSome = true ∨ 3 < k →
     exec (.fuseOwnerRevoke k) s = .next { wake s with sec := { s.sec with reason := 0x0910 } }) ∧
  (∀ (c v : Nat) (s : State), Runs s → s.sec.burning = some (.svn c v) →
     exec .fuseBurnDone s = .next { s with sec := { s.sec with svn := put s.sec.svn c v, burning := none } }) ∧
  (∀ (k : Nat) (h : BitVec 384) (s : State), Runs s → s.sec.burning = some (.program k h) →
     exec .fuseBurnDone s = .next { s with sec := { s.sec with ownerBits := s.sec.ownerBits ||| (1#8 <<< (2 * k)), ownerHash := put s.sec.ownerHash k h, burning := none } }) ∧
  (∀ (k : Nat) (s : State), Runs s → s.sec.burning = some (.revoke k) →
     exec .fuseBurnDone s = .next { s with sec := { s.sec with ownerBits := s.sec.ownerBits ||| (1#8 <<< (2 * k + 1)), burning := none } })

/-- An erase of an aligned 64 KiB sector, or a program of 1 to 65,536 bytes, starts outside the locked ranges when no operation runs, else it is refused
with 0x0911 (log entry 16); a failed host read is 0x0912; the end of an erase leaves FFh bytes and of a program its bytes; a failed operation sets the
error 0x0912 and leaves the sectors open (free values, log entry 4). Everything that is not named is as before.
Rules: R538, R555, R557. -/
def Obligations.FlashIsWritten : Prop :=
  (∀ (s : State), Serves s → flashOk s s.sec.flashAddr.toNat 65536 true = true → s.sec.flashAddr.toNat % 65536 = 0 →
     exec .flashErase s = .next { wake s with sec := { s.sec with flashOp := some (.erase (s.sec.flashAddr.toNat / 65536)), flashErr := false } }) ∧
  (∀ (s : State), Serves s → s.sec.flashAddr.toNat % 65536 ≠ 0 → exec .flashErase s = .next { wake s with sec := { s.sec with reason := 0x0911 } }) ∧
  (∀ (bs : List Byte) (s : State), Serves s → flashOk s s.sec.flashAddr.toNat s.sec.flashLen.toNat true = true → bs.length = s.sec.flashLen.toNat →
     exec (.flashProgram (some bs)) s = .next { wake s with sec := { s.sec with flashOp := some (.program s.sec.flashAddr.toNat bs), flashErr := false } }) ∧
  (∀ (s : State), Serves s → flashOk s s.sec.flashAddr.toNat s.sec.flashLen.toNat true = true →
     exec (.flashProgram none) s = .next { wake s with sec := { s.sec with flashErr := true, reason := 0x0912 } }) ∧
  (∀ (d : Option (List Byte)) (s : State), Serves s → flashOk s s.sec.flashAddr.toNat s.sec.flashLen.toNat true = false →
     exec (.flashProgram d) s = .next { wake s with sec := { s.sec with reason := 0x0911 } }) ∧
  (∀ (k : Nat) (s : State), Runs s → s.sec.flashOp = some (.erase k) →
     exec (.flashOpDone true) s = .next { s with sec := { s.sec with flashOp := none, flash := wrCells flashDefault s.sec.flash (k * 65536) (List.replicate 65536 flashDefault) } }) ∧
  (∀ (a : Nat) (bs : List Byte) (s : State), Runs s → s.sec.flashOp = some (.program a bs) →
     exec (.flashOpDone true) s = .next { s with sec := { s.sec with flashOp := none, flash := wrCells flashDefault s.sec.flash a bs } }) ∧
  (∀ (o : FlashOp) (s : State), Runs s → s.sec.flashOp = some o → Completes (.flashOpDone false) s (fun t => t.sec.flashErr = true ∧
     t.sec.reason = 0x0912 ∧ t.sec.flashOp = none ∧
     t = { s with freeCtr := s.freeCtr + 1, sec := { s.sec with flashOp := none, flashErr := true, reason := 0x0912, flash := t.sec.flash } }))

/-- A read of an implemented register answers its value, a claim register answers a claim; a write acts as the register of its space says; an access of a
wrong size or alignment is 0x0B03 and an unimplemented address 0x0B02: it is logged, reads 0 and writes nothing; before stage LOAD only the DEV and
SEC blocks are seen by the PF and the Helm cores. Everything that is not named is as before.
Rules: R4, R5, R558, R559, R560, R561, R562, R563, R570. -/
def Obligations.RegistersAreAccessed : Prop :=
  (∀ (a : Access) (w : Word) (s : State), Runs s → spaceOn s a.space = true → visible s a = true → a.offset % 4 = 0 →
     readSpace s a.space a.offset = some w → a.write = false → claimTarget a.space a.offset = none → a.offset ≠ 0x30014 →
     exec (.registerWrite a) s = .next { wakeBy a.space s with out := s.out ++ [.readData w] }) ∧
  (∀ (v : Word) (s : State), Serves s → v &&& 0xFFFFFFF8 = 0 →
     exec (.registerWrite { space := .pf, write := true, offset := 0xA0000, value := v }) s = .next { wake s with dma := { s.dma with retryLimit := v } }) ∧
  (∀ (v : Word) (s : State), Serves s → v &&& 0xFFFFFFF8 ≠ 0 →
     exec (.registerWrite { space := .pf, write := true, offset := 0xA0000, value := v }) s = .fault .reservedBitWritten) ∧
  (∀ (a : Access) (w : Word) (s : State), Runs s → spaceOn s a.space = true → visible s a = true → a.offset % 4 = 0 →
     readSpace s a.space a.offset = some w → a.write = true → exec (.registerWrite a) s = writeSpace a s) ∧
  (∀ (a : Access) (s : State), Runs s → spaceOn s a.space = true → visible s a = true → a.offset % 4 = 0 → readSpace s a.space a.offset = none →
     exec (.registerWrite a) s = .next (readsAs a 0 (logAccess 0x0B02 a (wakeBy a.space s)))) ∧
  (∀ (a : Access) (s : State), Runs s → spaceOn s a.space = true → visible s a = true → a.offset % 4 ≠ 0 →
     exec (.registerWrite a) s = .next (readsAs a 0 (logAccess 0x0B03 a (wakeBy a.space s)))) ∧
  (∀ (a : Access) (s : State), Runs s → spaceOn s a.space = true → visible s a = false →
     exec (.registerWrite a) s = .next (readsAs a 0 (wakeBy a.space s))) ∧
  (∀ (a : Access) (s : State), Runs s → spaceOn s a.space = true → visible s a = true →
     exec (.accessSizeError a) s = .next (readsAs a 0 (logAccess 0x0B03 a (wakeBy a.space s)))) ∧
  (∀ (a : Access) (s : State), Runs s → spaceOn s a.space = true → visible s a = true → (readSpace s a.space a.offset).isSome = false →
     exec (.unimplementedAccess a) s = .next (readsAs a 0 (logAccess 0x0B02 a (wakeBy a.space s)))) ∧
  (∀ (a : Access) (s : State), Runs s → spaceOn s a.space = true → visible s a = true → (readSpace s a.space a.offset).isSome = true →
     exec (.unimplementedAccess a) s = .next s)

/-- A first write of a guarded register is held for its requester, and one already held is given up with cause 5; the second write through the Guard
window must name the same register (else cause 3) and carry the complement (else cause 1), and then the write is counted and acts; without a first
write it is cause 4; a first write that waited 1 ms is given up with cause 2. Each refusal is 0x0B01. Everything that is not named is as before.
Rules: R564, R566, R567, R568. -/
def Obligations.GuardedWritesNeedTwo : Prop :=
  (∀ (q o : Nat) (v : Word) (s : State), Runs s → q ≤ 4 → answers s = true → guarded o = true → look s.regif.pending q = none →
     exec (.guardedFirstWrite q o v) s = .next { (wakeBy (reqSpace q) s) with regif := { s.regif with pending := put s.regif.pending q (o, v) } }) ∧
  (∀ (q o : Nat) (v : Word) (x : Nat × Word) (s : State), Runs s → q ≤ 4 → answers s = true → guarded o = true → look s.regif.pending q = some x →
     exec (.guardedFirstWrite q o v) s = .next { (wakeBy (reqSpace q) s) with regif := { s.regif with reason := 0x0B01, guardRej := up s.regif.guardRej 1, guardLast := fldW 28 4 5 ||| fldW 24 4 q ||| fldW 0 22 x.1, pending := put s.regif.pending q (o, v) } }) ∧
  (∀ (q o : Nat) (v : Word) (s : State), Runs s → q ≤ 4 → answers s = true → o < 0x400000 → look s.regif.pending q = none →
     exec (.guardWindowWrite q o v) s = .next (guardReject 4 q o 1 (wakeBy (reqSpace q) s))) ∧
  (∀ (q o p : Nat) (v w : Word) (s : State), Runs s → q ≤ 4 → answers s = true → o < 0x400000 → look s.regif.pending q = some (p, w) → o ≠ p →
     exec (.guardWindowWrite q o v) s = .next (guardReject 3 q p 2 { (wakeBy (reqSpace q) s) with regif := { s.regif with pending := del s.regif.pending q } })) ∧
  (∀ (q o : Nat) (v w : Word) (s : State), Runs s → q ≤ 4 → answers s = true → o < 0x400000 → look s.regif.pending q = some (o, w) → v ≠ ~~~w →
     exec (.guardWindowWrite q o v) s = .next (guardReject 1 q o 2 { (wakeBy (reqSpace q) s) with regif := { s.regif with pending := del s.regif.pending q } })) ∧
  (∀ (w : Word) (s : State), Serves s → look s.regif.pending 0 = some (0xC0008, w) → w &&& 0xFFFFFFFE = 0 → bit s.tandem.ctrl 0 = false →
     Completes (.guardWindowWrite 0 0xC0008 (~~~w)) s (fun t => t.tandem = { s.tandem with side := fld w 0 0 } ∧
     t.regif = { s.regif with pending := del s.regif.pending 0, guardCount := up s.regif.guardCount 1 } ∧
     t = { s with regif := t.regif, tandem := t.tandem, pwr := t.pwr })) ∧
  (∀ (q : Nat) (x : Nat × Word) (s : State), Runs s → look s.regif.pending q = some x →
     exec (.guardTimeout q) s = .next (guardReject 2 q x.1 1 { s with regif := { s.regif with pending := del s.regif.pending q } })) ∧
  (∀ (q : Nat) (s : State), Runs s → look s.regif.pending q = none → exec (.guardTimeout q) s = .next s)

/-- A command that changes a session whose shadow follows it goes out to the partner over the link as it was accepted, and waits, changing nothing else,
until the partner has applied it; OPEN_SESSION with FLAGS.PAIRED takes its handle and waits in the same way.
Rules: R435, R436, R437, R78. -/
def Obligations.PairedCommandsAreForwarded : Prop :=
  (∀ (h : Hdr) (o : OpenOps) (n : Nat) (s : State), Takes s h → openCode s h o = none → takeHandle s = some n → o.stream.flags.testBit 1 = true →
     linkUp s = true →
     exec (.openSession h o) s = .next { s with out := s.out ++ [.link (.config n (.openShadow h.fn (tokenOf n (lookD s.sess.gens n 0)) o.stream o.userTag))], tandem := { s.tandem with waiting := s.tandem.waiting ++ [{ handle := n, cmd := .openSession h o, index := 0 }], seqOut := s.tandem.seqOut + 1, sent := s.tandem.sent ++ [(s.tandem.seqOut, 0)] }, sess := { s.sess with free := cutRun s.sess.free n } }) ∧
  (∀ (h : Hdr) (n : Nat) (x : Session) (o : StreamOps) (s : State), Takes s h → tokenSession s h.fn h.token = some (n, x) → x.tan.role = 1 →
     shadowed s x = true → streamCode s x o 0 = none →
     exec (.configureStream h o 0) s = .next { s with out := s.out ++ [.link (.config n (.stream o))], tandem := { s.tandem with waiting := s.tandem.waiting ++ [{ handle := n, cmd := .configureStream h o 0, index := 0 }], seqOut := s.tandem.seqOut + 1, sent := s.tandem.sent ++ [(s.tandem.seqOut, 0)] } }) ∧
  (∀ (h : Hdr) (n : Nat) (x : Session) (o : RateOps) (s : State), Takes s h → tokenSession s h.fn h.token = some (n, x) → x.tan.role = 1 →
     shadowed s x = true → rateCfgCode s x o = none →
     exec (.configureRate h o) s = .next { s with out := s.out ++ [.link (.config n (.rate o))], tandem := { s.tandem with waiting := s.tandem.waiting ++ [{ handle := n, cmd := .configureRate h o, index := 0 }], seqOut := s.tandem.seqOut + 1, sent := s.tandem.sent ++ [(s.tandem.seqOut, 0)] } }) ∧
  (∀ (h : Hdr) (n : Nat) (x : Session) (o : ResOps) (s : State), Takes s h → tokenSession s h.fn h.token = some (n, x) → x.tan.role = 1 →
     shadowed s x = true → resOk x o = true →
     exec (.configureResilience h o) s = .next { s with out := s.out ++ [.link (.config n (.resilience o))], tandem := { s.tandem with waiting := s.tandem.waiting ++ [{ handle := n, cmd := .configureResilience h o, index := 0 }], seqOut := s.tandem.seqOut + 1, sent := s.tandem.sent ++ [(s.tandem.seqOut, 0)] } }) ∧
  (∀ (h : Hdr) (n : Nat) (x : Session) (o : HtOps) (s : State), Takes s h → tokenSession s h.fn h.token = some (n, x) → x.tan.role = 1 →
     shadowed s x = true → hostCode s x h o = none →
     exec (.configureHostTransport h o) s = .next { s with out := s.out ++ [.link (.config n (.host h o))], tandem := { s.tandem with waiting := s.tandem.waiting ++ [{ handle := n, cmd := .configureHostTransport h o, index := 0 }], seqOut := s.tandem.seqOut + 1, sent := s.tandem.sent ++ [(s.tandem.seqOut, 0)] } }) ∧
  (∀ (h : Hdr) (n : Nat) (x : Session) (o : BoundsOps) (s : State), Takes s h → tokenSession s h.fn h.token = some (n, x) → x.tan.role = 1 →
     shadowed s x = true → boundsCode s x o = none →
     exec (.setRateBounds h o) s = .next { s with out := s.out ++ [.link (.config n (.bounds o))], tandem := { s.tandem with waiting := s.tandem.waiting ++ [{ handle := n, cmd := .setRateBounds h o, index := 0 }], seqOut := s.tandem.seqOut + 1, sent := s.tandem.sent ++ [(s.tandem.seqOut, 0)] } }) ∧
  (∀ (h : Hdr) (n : Nat) (x : Session) (s : State), Takes s h → tokenSessionPf s h.fn h.token = some (n, x) → x.tan.role = 1 → shadowed s x = true →
     parkCode s n x false 0 = none →
     exec (.park h 0) s = .next { s with out := s.out ++ [.link (.config n (.state 4))], tandem := { s.tandem with waiting := s.tandem.waiting ++ [{ handle := n, cmd := .park h 0, index := 0 }], seqOut := s.tandem.seqOut + 1, sent := s.tandem.sent ++ [(s.tandem.seqOut, 0)] } }) ∧
  (∀ (h : Hdr) (n : Nat) (x : Session) (s : State), Takes s h → tokenSessionPf s h.fn h.token = some (n, x) → x.tan.role = 1 → shadowed s x = true →
     parkCode s n x true 0 = none →
     exec (.parkCold h 0) s = .next { s with out := s.out ++ [.link (.config n (.state 5))], tandem := { s.tandem with waiting := s.tandem.waiting ++ [{ handle := n, cmd := .parkCold h 0, index := 0 }], seqOut := s.tandem.seqOut + 1, sent := s.tandem.sent ++ [(s.tandem.seqOut, 0)] } }) ∧
  (∀ (h : Hdr) (n : Nat) (x : Session) (s : State), Takes s h → tokenSessionPf s h.fn h.token = some (n, x) → x.tan.role = 1 → shadowed s x = true →
     resumeCode s n x 0 = none →
     exec (.resume h 0) s = .next { s with out := s.out ++ [.link (.config n (.state 2))], tandem := { s.tandem with waiting := s.tandem.waiting ++ [{ handle := n, cmd := .resume h 0, index := 0 }], seqOut := s.tandem.seqOut + 1, sent := s.tandem.sent ++ [(s.tandem.seqOut, 0)] } }) ∧
  (∀ (h : Hdr) (n : Nat) (x : Session) (s : State), Takes s h → tokenSessionPf s h.fn h.token = some (n, x) → x.tan.role = 1 → shadowed s x = true →
     closeCode s n x 0 = none →
     exec (.close h 0) s = .next { s with out := s.out ++ [.link (.config n (.close))], tandem := { s.tandem with waiting := s.tandem.waiting ++ [{ handle := n, cmd := .close h 0, index := 0 }], seqOut := s.tandem.seqOut + 1, sent := s.tandem.sent ++ [(s.tandem.seqOut, 0)] } }) ∧
  (∀ (h : Hdr) (n : Nat) (x : Session) (i : Nat) (o : AttachOps) (s : State), Takes s h → tokenSession s h.fn h.token = some (n, x) → x.tan.role = 1 →
     shadowed s x = true → attachCode s h.fn x o = none → freeFlow s = some i →
     exec (.attachReceiver h o) s = .next { s with out := s.out ++ [.link (.config n (.attach i o))], tandem := { s.tandem with waiting := s.tandem.waiting ++ [{ handle := n, cmd := .attachReceiver h o, index := i }], seqOut := s.tandem.seqOut + 1, sent := s.tandem.sent ++ [(s.tandem.seqOut, 0)] } }) ∧
  (∀ (h : Hdr) (i n : Nat) (f : Flow) (x : Session) (s : State), Hears s h → bit s.net.ctrl 0 = true → h.token = 0 → look s.net.flows i = some f →
     f.fn = h.fn ∨ h.fn = 0 → f.detach = none → f.kind = 0 → f.session = some n → look s.sessions n = some x → x.tan.role = 1 → shadowed s x = true →
     exec (.detachReceiver h i 0) s = .next { s with out := s.out ++ [.link (.config n (.detach i))], tandem := { s.tandem with waiting := s.tandem.waiting ++ [{ handle := n, cmd := .detachReceiver h i 0, index := 0 }], seqOut := s.tandem.seqOut + 1, sent := s.tandem.sent ++ [(s.tandem.seqOut, 0)] } })

/-- A read of any page through BAR2 completes with all-zero data and increments INGEST_STRAY_COUNT, and changes nothing else, whenever the part runs.
Rules: R122. -/
def Obligations.Bar2ReadsAnswerZero : Prop :=
  (∀ (page : Nat) (s : State), Runs s →
     exec (.apertureRead page) s = .next { s with out := s.out ++ [.apertureZeros page], ingest := { s.ingest with stray := up s.ingest.stray 1 } })

/-- An access of a wrong size or alignment, and an access of an unimplemented address, writes its code, space, function and direction to REGIF_ERR_LOG,
its offset to REGIF_ERR_ADDR, its code to REGIF_REASON, and raises REGIF_ERR_COUNT by one (it saturates, R570); nothing of an earlier entry stays.
Rules: R564. -/
def Obligations.AccessesAreLogged : Prop :=
  (∀ (a : Access) (s : State), Runs s → spaceOn s a.space = true → visible s a = true →
     Completes (.accessSizeError a) s (fun t => t.regif = { s.regif with reason := 0x0B03, errAddr := BitVec.ofNat 32 a.offset, errCount := up s.regif.errCount 1, errLog := bitW 31 true ||| bitW 30 a.write ||| fldW 28 2 (spaceCode a.space).1 ||| fldW 16 8 (spaceCode a.space).2 ||| 0x0B03 })) ∧
  (∀ (a : Access) (s : State), Runs s → spaceOn s a.space = true → visible s a = true → (readSpace s a.space a.offset).isSome = false →
     Completes (.unimplementedAccess a) s (fun t => t.regif = { s.regif with reason := 0x0B02, errAddr := BitVec.ofNat 32 a.offset, errCount := up s.regif.errCount 1, errLog := bitW 31 true ||| bitW 30 a.write ||| fldW 28 2 (spaceCode a.space).1 ||| fldW 16 8 (spaceCode a.space).2 ||| 0x0B02 }))

/-- After reset every register listed reads, in PF BAR0, the value its table gives; nothing waits in the queue, DRAM and the flash are in canonical form
and no fuse burn is under way.
Rules: R32, R68, R97, R119, R231, R343, R369, R402, R429, R461, R533, R569. -/
def Obligations.ResetLeavesTheRegistersAsTheirTablesSay : Prop :=
  State.reset.pending = [] ∧ Inv State.reset ∧ BurnRises State.reset ∧
  (∀ p ∈ ([(0x0, 0x1D5BE951), (0x4, 0xFF00), (0x8, 0x4131), (0x40, 0x8), (0x58, 0xFF), (0xF004, 0x2D00010), (0xF008, 0xFFFF), (0x30004, 0x8), (0x30020, 0x5E), (0x30024, 0x1C200001), (0x30028, 0x6400), (0x40008, 0x2000), (0x40018, 0x2D00A01), (0x40400, 0x30D40), (0x50008, 0x1), (0x5000C, 0x10000), (0x60008, 0x10031301), (0x6000C, 0x81A0564), (0x60010, 0x204020), (0x70008, 0x8), (0x80050, 0x100000), (0x90008, 0x40000), (0x90018, 0x40000000), (0xA0000, 0x3), (0xA0114, 0x80000000), (0xB0000, 0xA00), (0xB0100, 0x1400), (0xC0000, 0x2), (0xC0030, 0x2D00010), (0xC0034, 0x19), (0xF0008, 0x301), (0x100008, 0x1), (0x110008, 0x81404), (0x110010, 0x306C665F), (0x110014, 0x202D0), (0x130020, 0x80000800), (0x130024, 0x4), (0x140000, 0xF000), (0x2000008, 0x4), (0x2000208, 0x4), (0x2020008, 0x4)] : List (Nat × Nat)),
    readSpace State.reset .pf p.1 = some (BitVec.ofNat 32 p.2)) ∧
  (∀ o ∈ ([0xC, 0x44, 0x48, 0x50, 0xF000, 0xF00C, 0xF010, 0xF014, 0xF018, 0xF01C, 0xF020, 0xF040, 0x10000, 0x10004, 0x10008, 0x1000C, 0x10010, 0x10014, 0x10018, 0x20000, 0x20004, 0x20008, 0x2000C, 0x20010, 0x20014, 0x20018, 0x2001C, 0x20040, 0x30000, 0x30008, 0x3000C, 0x30010, 0x30014, 0x30018, 0x3002C, 0x40000, 0x40004, 0x40034, 0x41000, 0x50000] ++
    [0x50004, 0x50020, 0x50024, 0x60000, 0x60004, 0x60020, 0x70000, 0x70004, 0x70038, 0x80000, 0x80004, 0x80078, 0x83000, 0x90000, 0x90004, 0x90010, 0x9001C, 0xA0004, 0xA0100, 0xA0104, 0xA0108, 0xA010C, 0xA0110, 0xA0118, 0xA011C, 0xA0120, 0xA0124, 0xA0128, 0xA012C, 0xB0004, 0xB000C, 0xB0104, 0xB0108, 0xB010C, 0xB0110, 0xB0114, 0xB0118, 0xB011C, 0xB0120, 0xB0124] ++
    [0xB0128, 0xB012C, 0xB0130, 0xB0200, 0xB0204, 0xB0208, 0xB020C, 0xB0210, 0xB0214, 0xB0218, 0xC0004, 0xC0008, 0xC000C, 0xC0010, 0xC0014, 0xC0018, 0xC001C, 0xC0020, 0xC0024, 0xC0028, 0xC002C, 0xC0070, 0xC0074, 0xC0080, 0xC0084, 0xC0088, 0xC008C, 0xC0090, 0xC0094, 0xD0000, 0xD0004, 0xD0008, 0xD000C, 0xD5000, 0xD5200, 0xD6004, 0xE0100, 0xE0104, 0xE0108, 0xE010C] ++
    [0xE0110, 0xE0140, 0xF0000, 0xF0004, 0xF000C, 0xF0010, 0xF0040, 0x100000, 0x100004, 0x10000C, 0x100010, 0x10001C, 0x100020, 0x110004, 0x11000C, 0x110018, 0x11001C, 0x110020, 0x110100, 0x120004, 0x120008, 0x12000C, 0x120010, 0x120018, 0x12001C, 0x120024, 0x120028, 0x12002C, 0x120040, 0x120044, 0x120048, 0x12004C, 0x120050, 0x120054, 0x120058, 0x12005C, 0x120060, 0x120064, 0x120068, 0x12006C] ++
    [0x120080, 0x120084, 0x120088, 0x12008C, 0x120090, 0x120094, 0x120098, 0x12009C, 0x1200A0, 0x1200A4, 0x1200A8, 0x1200AC, 0x120100, 0x120104, 0x120108, 0x12010C, 0x120110, 0x120114, 0x120118, 0x12011C, 0x120120, 0x120124, 0x120128, 0x12012C, 0x120130, 0x120134, 0x120138, 0x12013C, 0x120140, 0x120144, 0x120148, 0x12014C, 0x120150, 0x120154, 0x120158, 0x12015C, 0x120200, 0x120204, 0x120208, 0x12020C] ++
    [0x120210, 0x120214, 0x130000, 0x130004, 0x130008, 0x13000C, 0x130010, 0x130014, 0x14001C, 0x140020, 0x140024, 0x200000, 0x200004, 0x200008, 0x20000C, 0x200010, 0x20001C, 0x200020, 0x200024, 0x200028, 0x200030, 0x200034, 0x200044, 0x200048, 0x300000, 0x300004, 0x300008, 0x30000C, 0x300010, 0x300014, 0x300018, 0x30001C, 0x2000000, 0x2000004, 0x200000C, 0x2000010, 0x2000014, 0x2000018, 0x200001C, 0x2000214] ++
    [0x2000218, 0x200021C, 0x2020000, 0x2020004, 0x202000C, 0x2020010, 0x2020014, 0x2020018, 0x202001C, 0x2020020, 0x2020024] : List Nat), readSpace State.reset .pf o = some 0)

/-- A step of a state with a command at the front of its queue is the command run on the state with the rest of the queue. With an empty queue the block
idles: in a running device the Dispatch window, once the fence cut has come, gives way to the Work window, and nothing else ever changes (a choice of
the model, log entry 5).
Rules: 98_reader.md, 00_scope.md. -/
def Obligations.StepRunsTheFrontCommand : Prop :=
  (∀ (i : Instr) (rest : List Instr) (s : State), s.pending = i :: rest → step s = exec i { s with pending := rest }) ∧
  (∀ s : State, s.pending = [] → Runs s → s.bell.cut = true → s.bell.window = .dispatch → step s = .next { s with bell := { s.bell with window := .work } }) ∧
  (∀ s : State, s.pending = [] → (¬ Runs s ∨ s.bell.cut = false ∨ s.bell.window ≠ .dispatch) → step s = .next s)

/-- From every state in which DRAM and the flash are listed in canonical form, a step that answers a next state gives one in which they still are.
Rules: 12_memory_system.md, R555. -/
def Obligations.EveryStepKeepsTheCellsCanonical : Prop :=
  ∀ s t : State, Inv s → step s = .next t → Inv t

/-- From every state in which a burn under way raises its counter (which every step keeps), a step leaves every SVN counter at its value or higher and
every PROG and REVOKED bit that was set still set, a reset and a burn cut short among them.
Rules: R534, R557. -/
def Obligations.FusesNeverGoBack : Prop :=
  ∀ s t : State, BurnRises s → step s = .next t →
    BurnRises t ∧ (∀ c, svnOf s c ≤ svnOf t c) ∧ s.sec.ownerBits &&& t.sec.ownerBits = s.sec.ownerBits

/-- A command that may not reset the device leaves every byte of DRAM as it was unless it is one of the 24 that may store into it (Safety.storesDram),
every byte of the flash unless it ends a flash operation, every fuse unless it ends a burn, the number of virtual functions unless it enables or
disables them, the Bell number unless it starts a Bell, and the pins unless it is a thermal trip or the rise of PERST_N.
Rules: R296, 12_memory_system.md, R390, R534, R555, R557. -/
def Obligations.OnlyNamedCommandsReachMemoryFlashAndFuses : Prop :=
  ∀ (i : Instr) (s t : State), mayReset i = false → exec i s = .next t →
    (storesDram i = false → ∀ a, readMem t a = readMem s a) ∧
    ((∀ ok, i ≠ .flashOpDone ok) → ∀ a, rdCell flashDefault t.sec.flash a = rdCell flashDefault s.sec.flash a) ∧
    (i ≠ .fuseBurnDone → t.sec.svn = s.sec.svn ∧ t.sec.ownerBits = s.sec.ownerBits ∧ t.sec.ownerHash = s.sec.ownerHash) ∧
    ((∀ n, i ≠ .vfEnable n) → i ≠ .vfDisable → t.vfCount = s.vfCount) ∧
    ((∀ e, i ≠ .bellStart e) → t.bell.num = s.bell.num) ∧
    ((∀ n, i ≠ .thermtrip n) → (∀ n, i ≠ .perstRise n) →
      t.dev.perstN = s.dev.perstN ∧ t.dev.stopped = s.dev.stopped ∧ t.dev.straps = s.dev.straps)

/-- Once the thermal comparators have stopped the part, no command but a power cycle and the edges of PERST_N does anything, and only a power cycle leaves
the state; while PERST_N is low nothing but its rise, a power cycle and the thermal trip does anything (log entry 1).
Rules: R531, R554, R541. -/
def Obligations.AStoppedDeviceDoesNothing : Prop :=
  (∀ (i : Instr) (s : State), s.dev.stopped = true → (∀ n, i ≠ .powerCycle n) → i ≠ .perstFall → (∀ n, i ≠ .perstRise n) → exec i s = .next s) ∧
  (∀ (i : Instr) (s : State), s.dev.perstN = false → (∀ n, i ≠ .powerCycle n) → (∀ n, i ≠ .perstRise n) → (∀ n, i ≠ .thermtrip n) → exec i s = .next s) ∧
  (∀ (i : Instr) (s t : State), s.dev.stopped = true → (∀ n, i ≠ .powerCycle n) → exec i s = .next t → t.dev.stopped = true) ∧
  (∀ (n : Nat) (s : State), Completes (.powerCycle n) s (fun t => t.dev.stopped = false ∧ t.dev.perstN = true))

/-- No command is refused; a command that is not a write of a register always answers a next state, and a fault is always that of a reserved bit changed,
while the part runs (the model's reading of the undefined effect of R562, log entry 7).
Rules: R562. -/
def Obligations.OnlyRegisterWritesFault : Prop :=
  (∀ (i : Instr) (s : State), writesRegister i = false → ∃ t, exec i s = .next t) ∧
  (∀ (i : Instr) (s : State) (f : Fault), exec i s = .fault f → writesRegister i = true ∧ Runs s) ∧
  (∀ (i : Instr) (s : State) (r : Refusal), exec i s ≠ .refused r)

/-- Of the register offsets below 0x0040_0000, exactly DEV_RESET, PLAN_APPLY, QTR_REZONE of every Quarter, TANDEM_ROLE, MEMC_MAP, SEC_FUSE_SVN,
SEC_FUSE_OWNER and WATCH_INJECT of every block window are guarded.
Rules: R566. -/
def Obligations.TheGuardedRegisters : Prop :=
  ∀ o : Nat, guarded o = true ↔
    o = 0x0000C ∨ o = 0x20018 ∨ o = 0xC0008 ∨ o = 0x130008 ∨ o = 0x120018 ∨ o = 0x12001C ∨
    (∃ w, w < 48 ∧ o = w * 0x10000 + 0xF020) ∨ (∃ q, q < 16 ∧ o = (32 + q) * 0x10000 + 0xC)

/-- A session command read in a Guard window waits for the next Bell start and changes nothing else; outside it, with the session unit off, it is refused
with 0x020D; from a function that is not on it does nothing; and one whose token names no session of its function is refused with 0x0201.
Rules: R72, R74, R97, R381. -/
def Obligations.SessionCommandsWaitAndNeedAToken : Prop :=
  (∀ (i : Instr) (h : Hdr) (op : Nat) (s : State), sessionHdr i = some (h, op) → Hears s h → s.bell.window = .guard →
      exec i s = .next { s with deferred := s.deferred ++ [i] }) ∧
  (∀ (i : Instr) (h : Hdr) (op : Nat) (s : State), sessionHdr i = some (h, op) → Hears s h → s.bell.window ≠ .guard → s.sess.en = false →
      exec i s = .next (refuse h op 0x020D s)) ∧
  (∀ (i : Instr) (h : Hdr) (op : Nat) (s : State), sessionHdr i = some (h, op) → fnOn s h.fn = false → exec i s = .next s) ∧
  (∀ (i : Instr) (h : Hdr) (op : Nat) (s : State), sessionHdr i = some (h, op) → needsToken i = true → Takes s h →
      tokenSessionPf s h.fn h.token = none → exec i s = .next (refuse h op 0x0201 s))

/-- In a canonical DRAM, bytes stored at an address read back at their places, every other byte reads as before, and the pages written lose their poison
alone; the list stays canonical.
Rules: 12_memory_system.md, R390. -/
def Obligations.DramReadsBackWhatWasStored : Prop :=
  ∀ (a : Nat) (bs : List Byte) (s : State), Memory.wf s.mem = true →
    Memory.wf (storeMem a bs s).mem = true ∧
    (∀ k b, bs[k]? = some b → readMem (storeMem a bs s) (a + k) = b) ∧
    (∀ x, x < a ∨ a + bs.length ≤ x → readMem (storeMem a bs s) x = readMem s x) ∧
    storeMem a bs s = { s with mem := (storeMem a bs s).mem, memc := { s.memc with poison := (storeMem a bs s).memc.poison } }

/-- In the device safe state a completion, a refusal and an event record leave every ring and event queue as it was; what is refused or completed changes
nothing at all.
Rules: R489. -/
def Obligations.TheSafeStatePostsNothing : Prop :=
  ∀ s : State, s.dev.safe = true →
    (∀ (h : Hdr) (op : Nat) (c : Code) (r : List Word), complete h op c r s = s ∧ refuse h op c s = s) ∧
    (∀ (f typ : Nat) (c : Code) (tok : Word) (pay : List Word), post f typ c tok pay s = stamp s ∧ (post f typ c tok pay s).fns = s.fns) ∧
    (∀ (h : Nat) (c : Code), (notice h c s).fns = s.fns)

end
end

