-- ==== Sys2Proof/Laws/Cells.lean ====
section
/-! SUPPORT. Writing a canonical list of cells keeps it canonical. -/

namespace Sys2Proof.Machine
open Sys2Proof

theorem cellsWf_tail {d : Byte} {p : Host.Cell} {m : List Host.Cell} (h : cellsWf d (p :: m) = true) : cellsWf d m = true := by
  cases m with
  | nil => rfl
  | cons q t => obtain ⟨a, v⟩ := p; obtain ⟨b, w⟩ := q; simp [cellsWf] at h ⊢; exact h.2

theorem cellsWf_cons {d : Byte} {a : Nat} {v : Byte} {m : List Host.Cell} :
    cellsWf d ((a, v) :: m) = true ↔ v ≠ d ∧ (∀ q ∈ m.head?, a < q.1) ∧ cellsWf d m = true := by
  cases m with
  | nil => simp [cellsWf]
  | cons q t => obtain ⟨b, w⟩ := q; simp [cellsWf]; tauto

theorem wrCell_head {d : Byte} {m : List Host.Cell} {a : Nat} {v : Byte} {k : Nat} (hk : k < a) (h : ∀ q ∈ m.head?, k < q.1)
    (hw : cellsWf d m = true) : ∀ q ∈ (wrCell d m a v).head?, k < q.1 := by
  cases m with
  | nil => unfold wrCell; split <;> simp [hk]
  | cons p t =>
    obtain ⟨i, b⟩ := p
    simp at h
    have ht := (cellsWf_cons.mp hw).2.1
    unfold wrCell
    (repeat' split) <;> simp_all
    intro x y hx; have := ht x y hx; omega

theorem wrCell_wf {d : Byte} {m : List Host.Cell} {a : Nat} {v : Byte} (h : cellsWf d m = true) : cellsWf d (wrCell d m a v) = true := by
  induction m with
  | nil => unfold wrCell; split <;> simp_all [cellsWf]
  | cons p t ih =>
    obtain ⟨i, b⟩ := p
    have h' := cellsWf_cons.mp h
    unfold wrCell
    split
    · split
      · exact h
      · rw [cellsWf_cons]; exact ⟨by assumption, by simpa using by assumption, h⟩
    · split
      · split
        · exact h'.2.2
        · rename_i h1 h2 h3; subst h2; rw [cellsWf_cons]; exact ⟨h3, h'.2⟩
      · rename_i h1 h2; rw [cellsWf_cons]
        exact ⟨h'.1, wrCell_head (by omega) h'.2.1 h'.2.2, ih h'.2.2⟩

theorem wrCells_wf {d : Byte} {m : List Host.Cell} {a : Nat} {bs : List Byte} (h : cellsWf d m = true) : cellsWf d (wrCells d m a bs) = true := by
  induction bs generalizing m a with
  | nil => exact h
  | cons b t ih => exact ih (wrCell_wf h)

theorem head_filter_lt {p : Host.Cell → Bool} {k : Nat} {d : Byte} {m : List Host.Cell} (hw : cellsWf d m = true) (h : ∀ q ∈ m.head?, k < q.1) :
    ∀ q ∈ (m.filter p).head?, k < q.1 := by
  induction m with
  | nil => simp
  | cons q t ih =>
    obtain ⟨i, b⟩ := q
    have hc := cellsWf_cons.mp hw
    simp at h
    by_cases hp : p (i, b) = true
    · simp [hp, h]
    · simp [hp]; simpa using ih hc.2.2 (fun x hx => Nat.lt_trans h (hc.2.1 x hx))

theorem filter_wf {p : Host.Cell → Bool} {d : Byte} {m : List Host.Cell} (h : cellsWf d m = true) : cellsWf d (m.filter p) = true := by
  induction m with
  | nil => rfl
  | cons q t ih =>
    obtain ⟨i, b⟩ := q
    have hc := cellsWf_cons.mp h
    by_cases hp : p (i, b) = true
    · simp [hp]; rw [cellsWf_cons]; exact ⟨hc.1, head_filter_lt hc.2.2 hc.2.1, ih hc.2.2⟩
    · simp [hp, ih hc.2.2]

/-- Below a canonical list's first address nothing is listed. -/
theorem rdCell_below {d : Byte} {m : List Host.Cell} {a : Nat} (h : ∀ q ∈ m.head?, a < q.1) (hw : cellsWf d m = true) : rdCell d m a = d := by
  induction m with
  | nil => rfl
  | cons p t ih =>
    obtain ⟨i, b⟩ := p
    simp at h
    have hc := cellsWf_cons.mp hw
    have : ¬ i = a := by omega
    simp only [rdCell, this, if_false]
    exact ih (fun q hq => Nat.lt_trans h (hc.2.1 q hq)) hc.2.2

/-- Reading the cell just written gives the value written. -/
theorem rdCell_wrCell_self {d : Byte} {m : List Host.Cell} {a : Nat} {v : Byte} (hw : cellsWf d m = true) : rdCell d (wrCell d m a v) a = v := by
  induction m with
  | nil => unfold wrCell; split <;> simp_all [rdCell]
  | cons p t ih =>
    obtain ⟨i, b⟩ := p
    have hc := cellsWf_cons.mp hw
    unfold wrCell
    (repeat' split)
    · subst v; exact rdCell_below (by simpa) hw
    · simp [rdCell]
    · subst v; rename_i h; subst h; exact rdCell_below hc.2.1 hc.2.2
    · simp [rdCell]
    · rename_i h; simp [rdCell, h, ih hc.2.2]

/-- Writing a cell leaves every other cell as it was. -/
theorem rdCell_wrCell_ne {d : Byte} {m : List Host.Cell} {a b : Nat} {v : Byte} (h : b ≠ a) : rdCell d (wrCell d m a v) b = rdCell d m b := by
  induction m with
  | nil => unfold wrCell; split <;> simp [rdCell]; omega
  | cons p t ih =>
    obtain ⟨i, c⟩ := p
    have h' : ¬ a = b := fun e => h e.symm
    unfold wrCell
    (repeat' split) <;> simp_all [rdCell]

theorem rdCell_wrCells_below {d : Byte} {m : List Host.Cell} {a b : Nat} {bs : List Byte} (h : b < a) : rdCell d (wrCells d m a bs) b = rdCell d m b := by
  induction bs generalizing m a with
  | nil => rfl
  | cons v t ih => simp only [wrCells]; rw [ih (by omega), rdCell_wrCell_ne (by omega)]

/-- Writing a run of cells leaves every cell outside it as it was. -/
theorem rdCell_wrCells_ne {d : Byte} {m : List Host.Cell} {a b : Nat} {bs : List Byte} (h : b < a ∨ a + bs.length ≤ b) :
    rdCell d (wrCells d m a bs) b = rdCell d m b := by
  induction bs generalizing m a with
  | nil => rfl
  | cons v t ih =>
    simp only [wrCells, List.length_cons] at *
    rw [ih (by omega), rdCell_wrCell_ne (by omega)]

/-- Reading a cell of the run just written gives the byte written there. -/
theorem rdCell_wrCells {d : Byte} {m : List Host.Cell} {a i : Nat} {bs : List Byte} (hw : cellsWf d m = true) (h : i < bs.length) :
    rdCell d (wrCells d m a bs) (a + i) = bs[i] := by
  induction bs generalizing m a i with
  | nil => simp at h
  | cons v t ih =>
    simp only [wrCells]
    cases i with
    | zero => exact (rdCell_wrCells_below (Nat.lt_succ_self a)).trans (rdCell_wrCell_self hw)
    | succ k =>
      rw [show a + (k + 1) = a + 1 + k by omega, ih (wrCell_wf hw) (by simpa using h)]; rfl

end Sys2Proof.Machine
end

