-- ==== Sys2Proof/Laws/Kept.lean ====
section
/-! SUPPORT. The part of the state that most commands leave alone, and how an outcome keeps it. -/

namespace Sys2Proof.Machine
open Sys2Proof

def coreBell (b : Bell) : BitVec 40 := b.num
@[simp] theorem coreBell_eq (b : Bell) : coreBell b = b.num := by cases b; rfl
def coreDev (b : Dev) : (Bool × Bool × Nat) := (b.perstN, b.stopped, b.straps)
@[simp] theorem coreDev_eq (b : Dev) : coreDev b = (b.perstN, b.stopped, b.straps) := by cases b; rfl
def coreSec (b : Sec) : (List Host.Cell × NMap Nat × BitVec 8 × NMap (BitVec 384) × Option Burn) := (b.flash, b.svn, b.ownerBits, b.ownerHash, b.burning)
@[simp] theorem coreSec_eq (b : Sec) : coreSec b = (b.flash, b.svn, b.ownerBits, b.ownerHash, b.burning) := by cases b; rfl
def confBell (b : Bell) : (Word × Window × Bool) := (b.cfg, b.window, b.cut)
@[simp] theorem confBell_eq (b : Bell) : confBell b = (b.cfg, b.window, b.cut) := by cases b; rfl
def confDev (b : Dev) : (Word × Bool) := (b.latencyTol, b.errDrive)
@[simp] theorem confDev_eq (b : Dev) : confDev b = (b.latencyTol, b.errDrive) := by cases b; rfl
def confSess (b : Sess) : (Bool × NMap Nat × Word × NMap Nat) := (b.en, b.wm, b.migrate, b.fnLimit)
@[simp] theorem confSess_eq (b : Sess) : confSess b = (b.en, b.wm, b.migrate, b.fnLimit) := by cases b; rfl
def confSched (b : Sched) : (Word × Word) := (b.burst, b.effort)
@[simp] theorem confSched_eq (b : Sched) : confSched b = (b.burst, b.effort) := by cases b; rfl
def confIngest (b : Ingest) : (Bool × Word) := (b.en, b.stall)
@[simp] theorem confIngest_eq (b : Ingest) : confIngest b = (b.en, b.stall) := by cases b; rfl
def confRcBlk (b : RcBlk) : (Bool × Word × Word × Word) := (b.en, b.fork, b.adapt, b.model)
@[simp] theorem confRcBlk_eq (b : RcBlk) : confRcBlk b = (b.en, b.fork, b.adapt, b.model) := by cases b; rfl
def confMemc (b : Memc) : (Word × Word) := (b.scrubCfg, b.rhCfg)
@[simp] theorem confMemc_eq (b : Memc) : confMemc b = (b.scrubCfg, b.rhCfg) := by cases b; rfl
def confPool (b : Pool) : Bool := b.en
@[simp] theorem confPool_eq (b : Pool) : confPool b = b.en := by cases b; rfl
def confQueueMgr (b : QueueMgr) : Bool := b.en
@[simp] theorem confQueueMgr_eq (b : QueueMgr) : confQueueMgr b = b.en := by cases b; rfl
def confNet (b : Net) : Word := b.ctrl
@[simp] theorem confNet_eq (b : Net) : confNet b = b.ctrl := by cases b; rfl
def confDecBlk (b : DecBlk) : (Bool × Word) := (b.en, b.cfg)
@[simp] theorem confDecBlk_eq (b : DecBlk) : confDecBlk b = (b.en, b.cfg) := by cases b; rfl
def confBist (b : Bist) : (Bool × Word) := (b.en, b.cfg)
@[simp] theorem confBist_eq (b : Bist) : confBist b = (b.en, b.cfg) := by cases b; rfl
def confSext (b : Sext) : (Word × Word) := (b.ctrl, b.cfg)
@[simp] theorem confSext_eq (b : Sext) : confSext b = (b.ctrl, b.cfg) := by cases b; rfl
def confPwr (b : Pwr) : (Word × Word × Word) := (b.cfg, b.therm, b.therm2)
@[simp] theorem confPwr_eq (b : Pwr) : confPwr b = (b.cfg, b.therm, b.therm2) := by cases b; rfl
/-- What no command but a DRAM writer, a reset, a Bell start, a fuse or flash operation changes: DRAM, the virtual functions, the Bell
number, the pins and the flash and fuses. -/
structure Core where
  mem : List Host.Cell
  vf : Nat
  bell : BitVec 40
  dev : (Bool × Bool × Nat)
  sec : (List Host.Cell × NMap Nat × BitVec 8 × NMap (BitVec 384) × Option Burn)
/-- Configuration that only register writes, resets and the Bell windows change. -/
structure Conf where
  bell : (Word × Window × Bool)
  dev : (Word × Bool)
  sess : (Bool × NMap Nat × Word × NMap Nat)
  sched : (Word × Word)
  ingest : (Bool × Word)
  rc : (Bool × Word × Word × Word)
  memc : (Word × Word)
  pool : Bool
  queue : Bool
  net : Word
  dec : (Bool × Word)
  bist : (Bool × Word)
  sext : (Word × Word)
  pwr : (Word × Word × Word)
/-- The part of the state that most commands leave alone. -/
structure Kept where
  core : Core
  conf : Conf
/-- The kept part of a state. -/
def kept (s : State) : Kept :=
  ⟨⟨s.mem, s.vfCount, coreBell s.bell, coreDev s.dev, coreSec s.sec⟩,
   ⟨confBell s.bell, confDev s.dev, confSess s.sess, confSched s.sched, confIngest s.ingest, confRcBlk s.rc, confMemc s.memc, confPool s.pool, confQueueMgr s.queue, confNet s.net, confDecBlk s.dec, confBist s.bist, confSext s.sext, confPwr s.pwr⟩⟩

@[simp] theorem kept_mk (X : State)
  (pending' deferred' out' freeCtr' bell' dev' regif' plan' quarters' sess' sessions' sched' ingest' rc' memc' ctxCache' pool' queue' v fns' dma' irq' watches' stalled' tandem' net' dec' engines' bist' sext' mclib' pwr' sec')
  (h5 : v = X.vfCount) (c0 : coreBell bell' = coreBell X.bell) (c1 : coreDev dev' = coreDev X.dev) (c2 : coreSec sec' = coreSec X.sec)
  (f0 : confBell bell' = confBell X.bell) (f1 : confDev dev' = confDev X.dev) (f3 : confSess sess' = confSess X.sess) (f4 : confSched sched' = confSched X.sched) (f5 : confIngest ingest' = confIngest X.ingest) (f6 : confRcBlk rc' = confRcBlk X.rc) (f7 : confMemc memc' = confMemc X.memc) (f8 : confPool pool' = confPool X.pool) (f9 : confQueueMgr queue' = confQueueMgr X.queue) (f12 : confNet net' = confNet X.net) (f13 : confDecBlk dec' = confDecBlk X.dec) (f14 : confBist bist' = confBist X.bist) (f15 : confSext sext' = confSext X.sext) (f16 : confPwr pwr' = confPwr X.pwr) :
  kept (State.mk pending' deferred' out' freeCtr' bell' dev' regif' plan' quarters' sess' sessions' sched' ingest' rc' memc' X.mem ctxCache' pool' queue' v fns' dma' irq' watches' stalled' tandem' net' dec' engines' bist' sext' mclib' pwr' sec') = kept X := by
  simp only [kept, h5, c0, c1, c2, f0, f1, f3, f4, f5, f6, f7, f8, f9, f12, f13, f14, f15, f16]
@[simp] theorem kept_core_mk (X : State)
  (pending' deferred' out' freeCtr' bell' dev' regif' plan' quarters' sess' sessions' sched' ingest' rc' memc' ctxCache' pool' queue' v fns' dma' irq' watches' stalled' tandem' net' dec' engines' bist' sext' mclib' pwr' sec')
  (h5 : v = X.vfCount) (c0 : coreBell bell' = coreBell X.bell) (c1 : coreDev dev' = coreDev X.dev) (c2 : coreSec sec' = coreSec X.sec) :
  (kept (State.mk pending' deferred' out' freeCtr' bell' dev' regif' plan' quarters' sess' sessions' sched' ingest' rc' memc' X.mem ctxCache' pool' queue' v fns' dma' irq' watches' stalled' tandem' net' dec' engines' bist' sext' mclib' pwr' sec')).core = (kept X).core := by
  simp only [kept, h5, c0, c1, c2]
@[simp] theorem kept_ite {c : Prop} [Decidable c] (a b : State) : kept (if c then a else b) = if c then kept a else kept b := apply_ite _ _ _ _
theorem kept_foldl {α : Type} (f : State → α → State) (h : ∀ s a, kept (f s a) = kept s) (l : List α) (s : State) : kept (l.foldl f s) = kept s := by
  induction l generalizing s with
  | nil => rfl
  | cons a t ih => simp [ih, h]
@[simp] theorem kept_foldl' {α : Type} (f : State → α → State) (l : List α) (s : State) (h : ∀ s a, kept (f s a) = kept s) : kept (l.foldl f s) = kept s := kept_foldl f h l s


/-- The core part of a state. -/
abbrev coreOf (s : State) : Core := (kept s).core
@[simp] theorem setSess_sess (s : State) (h : Nat) (g : Session → Session) : (setSess s h g).sess = s.sess := rfl
@[simp] theorem setSess_rc (s : State) (h : Nat) (g : Session → Session) : (setSess s h g).rc = s.rc := rfl

/-- Every next state has the kept part of `s`. -/
def Keeps (o : Host.Outcome State Fault Refusal) (s : State) : Prop := ∀ t, o = .next t → kept t = kept s
theorem Keeps.next {t s : State} (h : kept t = kept s) : Keeps (.next t) s := by
  intro u hu; cases hu; exact h
theorem Keeps.fault {r : Fault} {s : State} : Keeps (.fault r) s := by intro u hu; cases hu
theorem Keeps.trans {o : Host.Outcome State Fault Refusal} {s s' : State} (h : Keeps o s') (hk : kept s' = kept s) : Keeps o s := fun t ht => (h t ht).trans hk
@[simp] theorem Keeps.next_simp {t s : State} (h : kept t = kept s) : Keeps (.next t) s := Keeps.next h
@[simp] theorem Keeps.fault_simp {r : Fault} {s : State} : Keeps (.fault r) s := Keeps.fault
theorem Keeps.live {f : State → State} {s : State} (h : kept (f s) = kept s) : Keeps (live s f) s := by
  unfold Machine.live; split <;> first | exact Keeps.next rfl | exact Keeps.next h
theorem Keeps.always {f : State → State} {s : State} (h : kept (f s) = kept s) : Keeps (always s f) s := Keeps.next h
@[simp] theorem wake_keeps (s : State) : kept (wake s) = kept s := by unfold wake; split <;> simp
theorem Keeps.regWrite {r v : Word} {f : State → State} {s : State} (h : kept (f s) = kept s) : Keeps (regWrite r v s f) s := by
  unfold Machine.regWrite; (repeat' split) <;> first | exact Keeps.fault | exact Keeps.next rfl | exact Keeps.next h
theorem Keeps.blockWrite {r v : Word} {f : State → State} {s : State} (h : ∀ s, kept (f s) = kept s) : Keeps (blockWrite r v s f) s := by
  unfold Machine.blockWrite; apply Keeps.regWrite; (try beta_reduce); split <;> simp [h]
theorem Keeps.devWrite {r v : Word} {f : State → State} {s : State} (h : ∀ s, kept (f s) = kept s) : Keeps (devWrite r v s f) s := by
  unfold Machine.devWrite; apply Keeps.regWrite; simp [h]
theorem Keeps.fnWrite {n : Nat} {r v : Word} {f : State → State} {s : State} (h : ∀ s, kept (f s) = kept s) : Keeps (fnWrite n r v s f) s := by
  unfold Machine.fnWrite; apply Keeps.blockWrite; intro s; (try beta_reduce); split <;> simp [h]
theorem Keeps.plainCmd {d : Hdr} {f : State → State} {s : State} (h : kept (f s) = kept s) : Keeps (plainCmd d s f) s := by
  unfold Machine.plainCmd; apply Keeps.live; (try beta_reduce); split <;> simp [h]
theorem Keeps.onSession {n : Nat} {f : Session → State → State} {s : State} (h : ∀ x, kept (f x s) = kept s) : Keeps (onSession n s f) s := by
  unfold Machine.onSession; apply Keeps.live; (try beta_reduce); split <;> simp [h]
@[simp] theorem blockWrite_keeps {r v : Word} {f : State → State} {s u : State} (h : ∀ s, kept (f s) = kept s) (hu : kept s = kept u) : Keeps (blockWrite r v s f) u := (Keeps.blockWrite h).trans hu
@[simp] theorem devWrite_keeps {r v : Word} {f : State → State} {s u : State} (h : ∀ s, kept (f s) = kept s) (hu : kept s = kept u) : Keeps (devWrite r v s f) u := (Keeps.devWrite h).trans hu
@[simp] theorem fnWrite_keeps {n : Nat} {r v : Word} {f : State → State} {s u : State} (h : ∀ s, kept (f s) = kept s) (hu : kept s = kept u) : Keeps (fnWrite n r v s f) u := (Keeps.fnWrite h).trans hu
@[simp] theorem live_keeps {f : State → State} {s u : State} (h : kept (f s) = kept s) (hu : kept s = kept u) : Keeps (live s f) u := (Keeps.live h).trans hu
@[simp] theorem regWrite_keeps {r v : Word} {f : State → State} {s u : State} (h : kept (f s) = kept s) (hu : kept s = kept u) : Keeps (regWrite r v s f) u := (Keeps.regWrite h).trans hu
@[simp] theorem Keeps_ite {c : Prop} [Decidable c] {a b : Host.Outcome State Fault Refusal} {u : State} : Keeps (if c then a else b) u ↔ if c then Keeps a u else Keeps b u := by split <;> rfl
theorem chain_kept {o : Res} {f : State → Res} {u : State} (h : Keeps o u) (hf : ∀ y, kept y = kept u → Keeps (f y) u) : Keeps (chain o f) u := by
  unfold chain; split
  · exact hf _ (h _ rfl)
  · exact Keeps.fault
  · intro t ht; cases ht
/-- Every next state has the core part of `s`. -/
def KeepsCore (o : Host.Outcome State Fault Refusal) (s : State) : Prop := ∀ t, o = .next t → (kept t).core = (kept s).core
theorem KeepsCore.next {t s : State} (h : (kept t).core = (kept s).core) : KeepsCore (.next t) s := by
  intro u hu; cases hu; exact h
theorem KeepsCore.fault {r : Fault} {s : State} : KeepsCore (.fault r) s := by intro u hu; cases hu
theorem KeepsCore.trans {o : Host.Outcome State Fault Refusal} {s s' : State} (h : KeepsCore o s') (hk : (kept s').core = (kept s).core) : KeepsCore o s := fun t ht => (h t ht).trans hk
@[simp] theorem KeepsCore.next_simp {t s : State} (h : (kept t).core = (kept s).core) : KeepsCore (.next t) s := KeepsCore.next h
@[simp] theorem KeepsCore.fault_simp {r : Fault} {s : State} : KeepsCore (.fault r) s := KeepsCore.fault
theorem KeepsCore.live {f : State → State} {s : State} (h : (kept (f s)).core = (kept s).core) : KeepsCore (live s f) s := by
  unfold Machine.live; split <;> first | exact KeepsCore.next rfl | exact KeepsCore.next h
theorem KeepsCore.always {f : State → State} {s : State} (h : (kept (f s)).core = (kept s).core) : KeepsCore (always s f) s := KeepsCore.next h
theorem KeepsCore.regWrite {r v : Word} {f : State → State} {s : State} (h : (kept (f s)).core = (kept s).core) : KeepsCore (regWrite r v s f) s := by
  unfold Machine.regWrite; (repeat' split) <;> first | exact KeepsCore.fault | exact KeepsCore.next rfl | exact KeepsCore.next h
theorem KeepsCore.blockWrite {r v : Word} {f : State → State} {s : State} (h : ∀ s, (kept (f s)).core = (kept s).core) : KeepsCore (blockWrite r v s f) s := by
  unfold Machine.blockWrite; apply KeepsCore.regWrite; (try beta_reduce); split <;> simp [h]
theorem KeepsCore.devWrite {r v : Word} {f : State → State} {s : State} (h : ∀ s, (kept (f s)).core = (kept s).core) : KeepsCore (devWrite r v s f) s := by
  unfold Machine.devWrite; apply KeepsCore.regWrite; simp [h]
theorem KeepsCore.fnWrite {n : Nat} {r v : Word} {f : State → State} {s : State} (h : ∀ s, (kept (f s)).core = (kept s).core) : KeepsCore (fnWrite n r v s f) s := by
  unfold Machine.fnWrite; apply KeepsCore.blockWrite; intro s; (try beta_reduce); split <;> simp [h]
theorem KeepsCore.plainCmd {d : Hdr} {f : State → State} {s : State} (h : (kept (f s)).core = (kept s).core) : KeepsCore (plainCmd d s f) s := by
  unfold Machine.plainCmd; apply KeepsCore.live; (try beta_reduce); split <;> simp [h]
theorem KeepsCore.onSession {n : Nat} {f : Session → State → State} {s : State} (h : ∀ x, (kept (f x s)).core = (kept s).core) : KeepsCore (onSession n s f) s := by
  unfold Machine.onSession; apply KeepsCore.live; (try beta_reduce); split <;> simp [h]
@[simp] theorem blockWrite_keepsCore {r v : Word} {f : State → State} {s u : State} (h : ∀ s, (kept (f s)).core = (kept s).core) (hu : (kept s).core = (kept u).core) : KeepsCore (blockWrite r v s f) u := (KeepsCore.blockWrite h).trans hu
@[simp] theorem devWrite_keepsCore {r v : Word} {f : State → State} {s u : State} (h : ∀ s, (kept (f s)).core = (kept s).core) (hu : (kept s).core = (kept u).core) : KeepsCore (devWrite r v s f) u := (KeepsCore.devWrite h).trans hu
@[simp] theorem fnWrite_keepsCore {n : Nat} {r v : Word} {f : State → State} {s u : State} (h : ∀ s, (kept (f s)).core = (kept s).core) (hu : (kept s).core = (kept u).core) : KeepsCore (fnWrite n r v s f) u := (KeepsCore.fnWrite h).trans hu
@[simp] theorem live_keepsCore {f : State → State} {s u : State} (h : (kept (f s)).core = (kept s).core) (hu : (kept s).core = (kept u).core) : KeepsCore (live s f) u := (KeepsCore.live h).trans hu
@[simp] theorem regWrite_keepsCore {r v : Word} {f : State → State} {s u : State} (h : (kept (f s)).core = (kept s).core) (hu : (kept s).core = (kept u).core) : KeepsCore (regWrite r v s f) u := (KeepsCore.regWrite h).trans hu
@[simp] theorem KeepsCore_ite {c : Prop} [Decidable c] {a b : Host.Outcome State Fault Refusal} {u : State} : KeepsCore (if c then a else b) u ↔ if c then KeepsCore a u else KeepsCore b u := by split <;> rfl
theorem Keeps.core {o : Host.Outcome State Fault Refusal} {s : State} (h : Keeps o s) : KeepsCore o s := fun t ht => congrArg Kept.core (h t ht)
/-- What a kept core says field by field. -/
theorem of_core {t s : State} (h : (kept t).core = (kept s).core) :
    t.mem = s.mem ∧ t.vfCount = s.vfCount ∧ t.bell.num = s.bell.num ∧ t.dev.perstN = s.dev.perstN ∧ t.dev.stopped = s.dev.stopped ∧
    t.dev.straps = s.dev.straps ∧ t.sec.flash = s.sec.flash ∧ t.sec.svn = s.sec.svn ∧ t.sec.ownerBits = s.sec.ownerBits ∧
    t.sec.ownerHash = s.sec.ownerHash ∧ t.sec.burning = s.sec.burning := by
  simpa only [kept, Core.mk.injEq, coreBell_eq, coreDev_eq, coreSec_eq, Prod.mk.injEq, and_assoc] using h

/-- What a kept configuration says of the Bell. -/
theorem bell_of_kept {t s : State} (h : kept t = kept s) : t.bell.cfg = s.bell.cfg ∧ t.bell.window = s.bell.window ∧ t.bell.cut = s.bell.cut := by
  have h1 : confBell t.bell = confBell s.bell := congrArg (fun k => k.conf.bell) h
  simpa only [confBell_eq, Prod.mk.injEq] using h1

/-- A kept part without DRAM. -/
def erase (k : Kept) : Kept := { k with core := { k.core with mem := [] } }
/-- Of what is kept only DRAM may differ, and DRAM stays in canonical form. -/
structure OM (k k' : Kept) : Prop where
  rest : erase k' = erase k
  wf : Memory.wf k.core.mem = true → Memory.wf k'.core.mem = true
@[simp] theorem OM.refl (k : Kept) : OM k k := ⟨rfl, id⟩
theorem OM.of {k k' : Kept} (h : k' = k) : OM k k' := by rw [h]; exact OM.refl k
theorem OM.trans {k k' k'' : Kept} (h : OM k k') (g : OM k' k'') : OM k k'' := ⟨g.rest.trans h.rest, fun w => g.wf (h.wf w)⟩
@[simp] theorem OM.write {k : Kept} (a : Nat) (bs : List Byte) {s : State} (h : OM k (kept s)) : OM k (kept (writeMem a bs s)) :=
  h.trans ⟨rfl, fun w => wrCells_wf w⟩
theorem OM.foldl {k : Kept} {α : Type} {f : State → α → State} {l : List α} {s : State} (h : ∀ t a, OM k (kept t) → OM k (kept (f t a))) (hs : OM k (kept s)) :
    OM k (kept (l.foldl f s)) := by
  induction l generalizing s with
  | nil => exact hs
  | cons a t ih => exact ih (h s a hs)
/-- What only DRAM may differ in says field by field. -/
theorem OM.fields {t s : State} (h : OM (kept s) (kept t)) :
    t.vfCount = s.vfCount ∧ t.bell.num = s.bell.num ∧ t.dev.perstN = s.dev.perstN ∧ t.dev.stopped = s.dev.stopped ∧
    t.dev.straps = s.dev.straps ∧ t.sec.flash = s.sec.flash ∧ t.sec.svn = s.sec.svn ∧ t.sec.ownerBits = s.sec.ownerBits ∧
    t.sec.ownerHash = s.sec.ownerHash ∧ t.sec.burning = s.sec.burning := by
  have h1 : { (kept t).core with mem := [] } = { (kept s).core with mem := [] } := congrArg Kept.core h.rest
  simpa only [kept, Core.mk.injEq, coreBell_eq, coreDev_eq, coreSec_eq, Prod.mk.injEq, and_assoc, true_and] using h1
/-- Of every next state only DRAM may differ from `k`. -/
def KeepsMem (o : Host.Outcome State Fault Refusal) (k : Kept) : Prop := ∀ t, o = .next t → OM k (kept t)
theorem Keeps.mem {o : Host.Outcome State Fault Refusal} {s : State} (h : Keeps o s) : KeepsMem o (kept s) := fun t ht => OM.of (h t ht)
theorem KeepsMem.next {t : State} {k : Kept} (h : OM k (kept t)) : KeepsMem (.next t) k := by intro u hu; cases hu; exact h
theorem KeepsMem.live {f : State → State} {s : State} {k : Kept} (hs : OM k (kept s)) (h : OM k (kept (f s))) : KeepsMem (live s f) k := by
  unfold Machine.live; split
  · exact KeepsMem.next hs
  · exact KeepsMem.next h

end Sys2Proof.Machine
end

