-- ==== Sys2Proof/Laws/KeptOps.lean ====
section
/-! SUPPORT. What the definitions of Machine/Ops.lean keep of the state. -/

namespace Sys2Proof.Machine
open Sys2Proof

@[simp] theorem when_kept (c_0 : Bool) (f_1 : State → State) (s_2 : State) (hf_1 : ∀ y0, kept (f_1 y0) = kept y0) : kept (when c_0 f_1 s_2) = kept s_2 := by
  (unfold when; repeat' split) <;> simp [*]

@[simp] theorem when_om (c : Bool) (f : State → State) (s : State) {u : Kept} (hf : ∀ y, OM u (kept y) → OM u (kept (f y))) (h : OM u (kept s)) :
    OM u (kept (when c f s)) := by
  unfold when; split
  · exact hf s h
  · exact h

@[simp] theorem takeMark_kept (s_0 : State) : kept (takeMark s_0).2 = kept s_0 := by
  unfold takeMark; simp

@[simp] theorem stamp_kept (s_0 : State) : kept (stamp s_0) = kept s_0 := by
  unfold stamp; simp

@[simp] theorem takeFree_kept (s_0 : State) : kept (takeFree s_0).2 = kept s_0 := by
  unfold takeFree; simp

@[simp] theorem emit_kept (o_0 : Out) (s_1 : State) : kept (emit o_0 s_1) = kept s_1 := by
  unfold emit; simp

@[simp] theorem setFn_kept (s_0 : State) (f_1 : Nat) (g_2 : Fn → Fn) : kept (setFn s_0 f_1 g_2) = kept s_0 := by
  unfold setFn; simp

@[simp] theorem setWatch_kept (s_0 : State) (w_1 : Nat) (g_2 : Watch → Watch) : kept (setWatch s_0 w_1 g_2) = kept s_0 := by
  unfold setWatch; simp

@[simp] theorem setQtr_kept (s_0 : State) (q_1 : Nat) (g_2 : Quarter → Quarter) : kept (setQtr s_0 q_1 g_2) = kept s_0 := by
  unfold setQtr; simp

@[simp] theorem setSess_kept (s_0 : State) (h_1 : Nat) (g_2 : Session → Session) : kept (setSess s_0 h_1 g_2) = kept s_0 := by
  unfold setSess; simp

@[simp] theorem wake_kept (s_0 : State) : kept (wake s_0) = kept s_0 := by
  unfold wake; simp

@[simp] theorem setPend_kept (id_0 : Nat) (s_1 : State) : kept (setPend id_0 s_1) = kept s_1 := by
  unfold setPend; simp

@[simp] theorem pulse_kept (id_0 : Nat) (s_1 : State) : kept (pulse id_0 s_1) = kept s_1 := by
  unfold pulse; simp

@[simp] theorem setLevel_kept (id_0 : Nat) (c_1 : Bool) (s_2 : State) : kept (setLevel id_0 c_1 s_2) = kept s_2 := by
  unfold setLevel; simp

@[simp] theorem watchLevel_kept (win_0 : Nat) (s_1 : State) : kept (watchLevel win_0 s_1) = kept s_1 := by
  unfold watchLevel; simp

@[simp] theorem recordEvent_kept (win_0 : Nat) (kind_1 : Nat) (code_2 : Code) (inj_3 : Bool) (s_4 : State) : kept (recordEvent win_0 kind_1 code_2 inj_3 s_4).2 = kept s_4 := by
  unfold recordEvent; simp

@[simp] theorem safeState_kept (win_0 : Nat) (s_1 : State) : kept (safeState win_0 s_1) = kept s_1 := by
  unfold safeState; simp

@[simp] theorem retireQuarter_kept (q_0 : Nat) (s_1 : State) : kept (retireQuarter q_0 s_1) = kept s_1 := by
  unfold retireQuarter; simp

@[simp] theorem raise_kept (win_0 : Nat) (kind_1 : Nat) (code_2 : Code) (inj_3 : Bool) (react_4 : State → State) (s_5 : State) (hreact_4 : ∀ y0, kept (react_4 y0) = kept y0) : kept (raise win_0 kind_1 code_2 inj_3 react_4 s_5) = kept s_5 := by
  (unfold raise; simp; repeat' split) <;> simp [*]

@[simp] theorem fnStat_kept (f_0 : Nat) (i_1 : Nat) (n_2 : Nat) (s_3 : State) : kept (fnStat f_0 i_1 n_2 s_3) = kept s_3 := by
  unfold fnStat; simp

@[simp] theorem stat_kept (h_0 : Nat) (i_1 : Nat) (n_2 : Nat) (s_3 : State) : kept (stat h_0 i_1 n_2 s_3) = kept s_3 := by
  (unfold stat; repeat' split) <;> simp [*]

@[simp] theorem postRec_kept (f_0 : Nat) (r_1 : EvRec) (s_2 : State) : kept (postRec f_0 r_1 s_2) = kept s_2 := by
  unfold postRec; simp

@[simp] theorem post_kept (f_0 : Nat) (typ_1 : Nat) (code_2 : Code) (token_3 : Word) (pay_4 : List Word) (s_5 : State) : kept (post f_0 typ_1 code_2 token_3 pay_4 s_5) = kept s_5 := by
  unfold post; simp

@[simp] theorem notice_kept (h_0 : Nat) (code_1 : Code) (s_2 : State) : kept (notice h_0 code_1 s_2) = kept s_2 := by
  (unfold notice; repeat' split) <;> simp [*]

@[simp] theorem setCmd_kept (s_0 : State) (f_1 : Nat) (r_2 : Nat) (g_3 : CmdRing → CmdRing) : kept (setCmd s_0 f_1 r_2 g_3) = kept s_0 := by
  unfold setCmd; simp

@[simp] theorem setCq_kept (s_0 : State) (f_1 : Nat) (r_2 : Nat) (g_3 : CqRing → CqRing) : kept (setCq s_0 f_1 r_2 g_3) = kept s_0 := by
  unfold setCq; simp

@[simp] theorem enqueueCqe_kept (f_0 : Nat) (ring_1 : Nat) (e_2 : Cqe) (s_3 : State) : kept (enqueueCqe f_0 ring_1 e_2 s_3) = kept s_3 := by
  unfold enqueueCqe; simp

@[simp] theorem complete_kept (h_0 : Hdr) (opcode_1 : Nat) (code_2 : Code) (r_3 : List Word) (s_4 : State) : kept (complete h_0 opcode_1 code_2 r_3 s_4) = kept s_4 := by
  unfold complete; simp

@[simp] theorem refuse_kept (h_0 : Hdr) (opcode_1 : Nat) (code_2 : Code) (s_3 : State) : kept (refuse h_0 opcode_1 code_2 s_3) = kept s_3 := by
  unfold refuse; simp

end Sys2Proof.Machine
end

