-- ==== Sys2Proof/Laws/KeptOperands.lean ====
section
/-! SUPPORT. What the definitions of Machine/Operands.lean keep of the state. -/

namespace Sys2Proof.Machine
open Sys2Proof

theorem sessionCmd_kept (i : Instr) (h : Hdr) (o : Nat) (s : State) (f : State → State) (hf : ∀ s, kept (f s) = kept s) : Keeps (sessionCmd i h o s f) s := by
  unfold sessionCmd; apply Keeps.live; (try simp only []); (repeat' split) <;> simp [*, refuse, complete, enqueueCqe]
@[simp] theorem sessionCmd_keeps {i_0 : Instr} {h_1 : Hdr} {opcode_2 : Nat} {s_3 : State} {f_4 : State → State} {u : State} (hf_4 : ∀ y0, kept (f_4 y0) = kept y0) (hu : kept s_3 = kept u) : Keeps (sessionCmd i_0 h_1 opcode_2 s_3 f_4) u := Keeps.trans (sessionCmd_kept i_0 h_1 opcode_2 s_3 f_4 hf_4) hu

@[simp] theorem onToken_kept (h_0 : Hdr) (opcode_1 : Nat) (s_2 : State) (f_3 : Nat → Session → State → State) (hf_3 : ∀ y0 y1 y2, kept (f_3 y0 y1 y2) = kept y2) : kept (onToken h_0 opcode_1 s_2 f_3) = kept s_2 := by
  (unfold onToken; repeat' split) <;> simp [*]

end Sys2Proof.Machine
end

