-- ==== Sys2Proof/Laws/KeptPool.lean ====
section
/-! SUPPORT. What the definitions of Machine/Pool.lean keep of the state. -/

namespace Sys2Proof.Machine
open Sys2Proof

theorem takeBuf_kept (s_0 : State) (who_1 : PoolReq) (c_2 : Nat) : ∀ t, (takeBuf s_0 who_1 c_2) = some t → kept t.2 = kept s_0 := by
  (unfold takeBuf; repeat' split) <;> simp [*]
theorem takeBuf_kept' {s_0 : State} {who_1 : PoolReq} {c_2 : Nat}  {r t} (hq : (takeBuf s_0 who_1 c_2) = some (r, t)) : kept t = kept s_0 := takeBuf_kept s_0 who_1 c_2 _ hq

@[simp] theorem allocRefused_kept (who_0 : PoolReq) (code_1 : Code) (s_2 : State) : kept (allocRefused who_0 code_1 s_2) = kept s_2 := by
  unfold allocRefused; simp

@[simp] theorem allocate_kept (who_0 : PoolReq) (size_1 : Nat) (promote_2 : Bool) (s_3 : State) : kept (allocate who_0 size_1 promote_2 s_3).2 = kept s_3 := by
  unfold allocate; (try simp only []); (repeat' split) <;> (try simp) <;> ((repeat (first | with_reducible rfl | (simp; done) | refine Eq.trans (takeBuf_kept' (by assumption)) ?_)); done)
theorem allocate_kept' {who_0 : PoolReq} {size_1 : Nat} {promote_2 : Bool} {s_3 : State}  {r t} (hq : (allocate who_0 size_1 promote_2 s_3) = (r, t)) : kept t = kept s_3 := by have h0 := allocate_kept who_0 size_1 promote_2 s_3; rw [hq] at h0; exact h0

@[simp] theorem allocMany_kept (who : PoolReq) (size n : Nat) (s : State) : kept (allocMany who size n s).2 = kept s := by
  induction n generalizing s with
  | zero => rfl
  | succ n ih =>
    unfold allocMany
    (repeat' split)
    · exact allocate_kept' (by assumption)
    · rename_i h1 _ _ _ h2; exact ((congrArg (fun p => kept p.2) h2).symm.trans (ih _)).trans (allocate_kept' h1)
    · rename_i h1 _ _ _ h2; exact ((congrArg (fun p => kept p.2) h2).symm.trans (ih _)).trans (allocate_kept' h1)
theorem allocMany_kept' {who : PoolReq} {size n : Nat} {s : State} {r t} (hq : allocMany who size n s = (r, t)) : kept t = kept s := by
  have h0 := allocMany_kept who size n s; rw [hq] at h0; exact h0

@[simp] theorem freeBuf_kept (c_0 : Nat) (i_1 : Nat) (b_2 : Buf) (s_3 : State) : kept (freeBuf c_0 i_1 b_2 s_3) = kept s_3 := by
  unfold freeBuf; simp

@[simp] theorem misuse_kept (who_0 : PoolReq) (code_1 : Code) (h_2 : Word) (s_3 : State) : kept (misuse who_0 code_1 h_2 s_3) = kept s_3 := by
  unfold misuse; simp

@[simp] theorem setBuf_kept (h_0 : Word) (b_1 : Buf) (s_2 : State) : kept (setBuf h_0 b_1 s_2) = kept s_2 := by
  unfold setBuf; simp

@[simp] theorem claimBuf_kept (who_0 : PoolReq) (h_1 : Word) (s_2 : State) : kept (claimBuf who_0 h_1 s_2).2 = kept s_2 := by
  (unfold claimBuf; repeat' split) <;> simp [*]
theorem claimBuf_kept' {who_0 : PoolReq} {h_1 : Word} {s_2 : State}  {r t} (hq : (claimBuf who_0 h_1 s_2) = (r, t)) : kept t = kept s_2 := by have h0 := claimBuf_kept who_0 h_1 s_2; rw [hq] at h0; exact h0

@[simp] theorem settleBuf_kept (h_0 : Word) (b_1 : Buf) (s_2 : State) : kept (settleBuf h_0 b_1 s_2) = kept s_2 := by
  unfold settleBuf; simp

@[simp] theorem releaseBuf_kept (who_0 : PoolReq) (h_1 : Word) (token_2 : Nat) (s_3 : State) : kept (releaseBuf who_0 h_1 token_2 s_3).2 = kept s_3 := by
  (unfold releaseBuf; repeat' split) <;> simp [*]

@[simp] theorem drop_kept (who_0 : PoolReq) (h_1 : Word) (token_2 : Nat) (s_3 : State) : kept (drop who_0 h_1 token_2 s_3) = kept s_3 := by
  unfold drop; simp

@[simp] theorem dropAll_kept (who_0 : PoolReq) (hs_1 : List Word) (s_2 : State) : kept (dropAll who_0 hs_1 s_2) = kept s_2 := by
  unfold dropAll; simp

@[simp] theorem unchargeSession_kept (n_0 : Nat) (s_1 : State) : kept (unchargeSession n_0 s_1) = kept s_1 := by
  unfold unchargeSession; simp

@[simp] theorem pooled_kept (id_0 : PoolId) (op_1 : State → PoolReply × State) (s_2 : State) (hop_1 : ∀ y0, kept ((op_1 y0).2) = kept y0) : kept (pooled id_0 op_1 s_2) = kept s_2 := by
  (unfold pooled; simp; repeat' split) <;> simp [*]

theorem execAllocate_kept (id : PoolId) (who : PoolReq) (size : Nat) (promote : Bool) (s : State) : Keeps (execAllocate id who size promote s) s := by
  unfold execAllocate; apply Keeps.live; apply pooled_kept; intro s; (repeat' split) <;> (try simp) <;> ((repeat (first | with_reducible rfl | (simp; done) | refine Eq.trans (allocate_kept' (by assumption)) ?_)); done)

theorem execClaim_kept (id : PoolId) (who : PoolReq) (buf : Word) (s : State) : Keeps (execClaim id who buf s) s := by
  unfold execClaim; apply Keeps.live; apply pooled_kept; intro s; (repeat' split) <;> (try simp) <;> ((repeat (first | with_reducible rfl | (simp; done) | refine Eq.trans (claimBuf_kept' (by assumption)) ?_)); done)

theorem execRelease_kept (id_0 : PoolId) (who_1 : PoolReq) (buf_2 : Word) (token_3 : Nat) (s_4 : State) : Keeps (execRelease id_0 who_1 buf_2 token_3 s_4) s_4 := by
  unfold execRelease
  simp

@[simp] theorem layPool_kept (counts_0 : NMap Nat) (s_1 : State) : kept (layPool counts_0 s_1) = kept s_1 := by
  unfold layPool; simp

@[simp] theorem appendPool_kept (counts_0 : NMap Nat) (s_1 : State) : kept (appendPool counts_0 s_1) = kept s_1 := by
  unfold appendPool; simp

@[simp] theorem settleRetired_kept (s_0 : State) : kept (settleRetired s_0) = kept s_0 := by
  unfold settleRetired; simp

@[simp] theorem relayout_kept (s_0 : State) : kept (relayout s_0) = kept s_0 := by
  (unfold relayout; repeat' split) <;> simp [*]

theorem execPoolRelayout_kept (s_0 : State) : Keeps (execPoolRelayout s_0) s_0 := by
  unfold execPoolRelayout
  simp

@[simp] theorem poolCtrl_kept (on_0 : Bool) (s_1 : State) : coreOf (poolCtrl on_0 s_1) = coreOf s_1 := by
  (unfold poolCtrl; repeat' split) <;> simp [*]

theorem execPoolCtrlWrite_kept (value_0 : Word) (s_1 : State) : KeepsCore (execPoolCtrlWrite value_0 s_1) s_1 := by
  unfold execPoolCtrlWrite
  simp
@[simp] theorem execPoolCtrlWrite_keeps {value_0 : Word} {s_1 : State} {u : State}  (hu : coreOf s_1 = coreOf u) : KeepsCore (execPoolCtrlWrite value_0 s_1) u := KeepsCore.trans (execPoolCtrlWrite_kept value_0 s_1) hu

theorem execPoolFnQuotaWrite_kept (fn_0 : Nat) (cls_1 : Nat) (value_2 : Word) (s_3 : State) : Keeps (execPoolFnQuotaWrite fn_0 cls_1 value_2 s_3) s_3 := by
  unfold execPoolFnQuotaWrite
  simp
@[simp] theorem execPoolFnQuotaWrite_keeps {fn_0 : Nat} {cls_1 : Nat} {value_2 : Word} {s_3 : State} {u : State}  (hu : kept s_3 = kept u) : Keeps (execPoolFnQuotaWrite fn_0 cls_1 value_2 s_3) u := Keeps.trans (execPoolFnQuotaWrite_kept fn_0 cls_1 value_2 s_3) hu

end Sys2Proof.Machine
end

