-- ==== Sys2Proof/Laws/KeptQueue.lean ====
section
/-! SUPPORT. What the definitions of Machine/Queue.lean keep of the state. -/

namespace Sys2Proof.Machine
open Sys2Proof

@[simp] theorem settleQueue_kept (q_0 : Nat) (x_1 : Queue) (s_2 : State) : kept (settleQueue q_0 x_1 s_2) = kept s_2 := by
  unfold settleQueue; simp

@[simp] theorem acceptBeat_kept (q_0 : Nat) (p_1 : PoolReq) (start_2 : Bool) (b_3 : BitVec 256) (s_4 : State) : kept (acceptBeat q_0 p_1 start_2 b_3 s_4) = kept s_4 := by
  unfold acceptBeat; simp

theorem execQueueBeatWrite_kept (queue_0 : Nat) (producer_1 : PoolReq) (start_2 : Bool) (beat_3 : BitVec 256) (s_4 : State) : Keeps (execQueueBeatWrite queue_0 producer_1 start_2 beat_3 s_4) s_4 := by
  unfold execQueueBeatWrite
  simp

theorem execQueueStallRelease_kept (queue_0 : Nat) (s_1 : State) : Keeps (execQueueStallRelease queue_0 s_1) s_1 := by
  unfold execQueueStallRelease
  apply Keeps.live; simp only; (repeat' split) <;> simp [*]

theorem execQueueRead_kept (queue_0 : Nat) (s_1 : State) : Keeps (execQueueRead queue_0 s_1) s_1 := by
  unfold execQueueRead
  apply Keeps.live; simp only; (repeat' split) <;> simp [*]

theorem reserveBeats_kept (q_0 : Nat) (p_1 : PoolReq) (n_2 : Nat) (s_3 : State) : ∀ t, (reserveBeats q_0 p_1 n_2 s_3) = some t → kept t = kept s_3 := by
  unfold reserveBeats; simp
theorem reserveBeats_kept' {q_0 : Nat} {p_1 : PoolReq} {n_2 : Nat} {s_3 : State}  {t} (hq : (reserveBeats q_0 p_1 n_2 s_3) = some t) : kept t = kept s_3 := reserveBeats_kept q_0 p_1 n_2 s_3 _ hq

@[simp] theorem returnBeats_kept (q_0 : Nat) (p_1 : PoolReq) (n_2 : Nat) (s_3 : State) : kept (returnBeats q_0 p_1 n_2 s_3) = kept s_3 := by
  unfold returnBeats; simp

theorem execQueueReserve_kept (q : Nat) (p : PoolReq) (b : Nat) (s : State) : Keeps (execQueueReserve q p b s) s := by
  unfold execQueueReserve; apply Keeps.live; (try simp only [])
  split
  · rfl
  · split
    · rename_i hq; split at hq
      · simp; exact reserveBeats_kept _ _ _ _ _ hq
      · cases hq
    · simp

@[simp] theorem dropPackets_kept (q_0 : Nat) (s_1 : State) : kept (dropPackets q_0 s_1) = kept s_1 := by
  (unfold dropPackets; repeat' split) <;> simp [*]

@[simp] theorem flushQueue_kept (q_0 : Nat) (boundary_1 : Bool) (s0_2 : State) : kept (flushQueue q_0 boundary_1 s0_2) = kept s0_2 := by
  unfold flushQueue; simp

@[simp] theorem endFlush_kept (q_0 : Nat) (s_1 : State) : kept (endFlush q_0 s_1) = kept s_1 := by
  unfold endFlush; simp

theorem execFlushEnd_kept (queue_0 : Nat) (s_1 : State) : Keeps (execFlushEnd queue_0 s_1) s_1 := by
  unfold execFlushEnd
  simp

@[simp] theorem queueRefuse_kept (code_0 : Code) (s_1 : State) : kept (queueRefuse code_0 s_1) = kept s_1 := by
  unfold queueRefuse; simp

theorem execQueueFlush_kept (value_0 : Word) (s_1 : State) : Keeps (execQueueFlush value_0 s_1) s_1 := by
  unfold execQueueFlush
  simp
@[simp] theorem execQueueFlush_keeps {value_0 : Word} {s_1 : State} {u : State}  (hu : kept s_1 = kept u) : Keeps (execQueueFlush value_0 s_1) u := Keeps.trans (execQueueFlush_kept value_0 s_1) hu

theorem execQueueSelWrite_kept (value_0 : Word) (s_1 : State) : Keeps (execQueueSelWrite value_0 s_1) s_1 := by
  unfold execQueueSelWrite
  simp
@[simp] theorem execQueueSelWrite_keeps {value_0 : Word} {s_1 : State} {u : State}  (hu : kept s_1 = kept u) : Keeps (execQueueSelWrite value_0 s_1) u := Keeps.trans (execQueueSelWrite_kept value_0 s_1) hu

theorem execQueueCtrlWrite_kept (value_0 : Word) (s_1 : State) : KeepsCore (execQueueCtrlWrite value_0 s_1) s_1 := by
  unfold execQueueCtrlWrite
  apply KeepsCore.blockWrite; intro s; (try simp only []); (repeat' split) <;> simp [*]
@[simp] theorem execQueueCtrlWrite_keeps {value_0 : Word} {s_1 : State} {u : State}  (hu : coreOf s_1 = coreOf u) : KeepsCore (execQueueCtrlWrite value_0 s_1) u := KeepsCore.trans (execQueueCtrlWrite_kept value_0 s_1) hu

end Sys2Proof.Machine
end

