-- ==== Sys2Proof/Laws/KeptMemory.lean ====
section
/-! SUPPORT. What the definitions of Machine/Memory.lean keep of the state. -/

namespace Sys2Proof.Machine
open Sys2Proof

@[simp] theorem setChan_kept (s_0 : State) (c_1 : Nat) (g_2 : Chan → Chan) : kept (setChan s_0 c_1 g_2) = kept s_0 := by
  unfold setChan; simp

@[simp] theorem deviceEvent_kept (code_0 : Code) (s_1 : State) : kept (deviceEvent code_0 s_1) = kept s_1 := by
  unfold deviceEvent; simp

@[simp] theorem startSpare_kept (ch_0 : Nat) (rank_1 : Nat) (s_2 : State) : kept (startSpare ch_0 rank_1 s_2) = kept s_2 := by
  unfold startSpare; simp

@[simp] theorem withdraw_kept (page_0 : Nat) (s_1 : State) : kept (withdraw page_0 s_1) = kept s_1 := by
  unfold withdraw; simp

@[simp] theorem retirePage_kept (page_0 : Nat) (ch_1 : Nat) (rank_2 : Nat) (cause_3 : Nat) (s_4 : State) : kept (retirePage page_0 ch_1 rank_2 cause_3 s_4) = kept s_4 := by
  unfold retirePage; simp

@[simp] theorem countCe_kept (a_0 : Nat) (device_1 : Nat) (s_2 : State) : kept (countCe a_0 device_1 s_2) = kept s_2 := by
  unfold countCe; simp

@[simp] theorem countUe_kept (a_0 : Nat) (cause_1 : Nat) (s_2 : State) : kept (countUe a_0 cause_1 s_2) = kept s_2 := by
  unfold countUe; simp

@[simp] theorem activate_kept (req_0 : ReqId) (a_1 : Nat) (early_2 : Bool) (raa_3 : Bool) (s_4 : State) : kept (activate req_0 a_1 early_2 raa_3 s_4) = kept s_4 := by
  unfold activate; simp

@[simp] theorem readLine_kept (req_0 : ReqId) (a_1 : Nat) (ecc_2 : Ecc) (act_3 : Bool) (early_4 : Bool) (raa_5 : Bool) (s_6 : State) : kept (readLine req_0 a_1 ecc_2 act_3 early_4 raa_5 s_6).2 = kept s_6 := by
  (unfold readLine; repeat' split) <;> simp [*]

@[simp] theorem writeLine_om (r : ReqId) (a : Nat) (bs : List Byte) (e : Ecc) (x y z : Bool) (s : State) {u : Kept} (h : OM u (kept s)) :
    OM u (kept (writeLine r a bs e x y z s)) := by
  unfold writeLine; dsimp only; (repeat' split) <;> apply OM.write <;> simp [*]

theorem execRetrainPause_kept (ch_0 : Nat) (drift_1 : Int) (vref_2 : Int) (s_3 : State) : Keeps (execRetrainPause ch_0 drift_1 vref_2 s_3) s_3 := by
  unfold execRetrainPause
  simp

theorem execCaParityError_kept (ch_0 : Nat) (failed_1 : Nat) (s_2 : State) : Keeps (execCaParityError ch_0 failed_1 s_2) s_2 := by
  unfold execCaParityError
  simp

theorem execRankSpareCopyDone_kept (ch_0 : Nat) (s_1 : State) : Keeps (execRankSpareCopyDone ch_0 s_1) s_1 := by
  unfold execRankSpareCopyDone
  apply Keeps.live; (try simp only []); (repeat' split) <;> (try simp)

theorem execRefreshInterval_kept (ch_0 : Nat) (s_1 : State) : Keeps (execRefreshInterval ch_0 s_1) s_1 := by
  unfold execRefreshInterval
  simp

theorem execDimmTempPoll_kept (ch_0 : Nat) (hot_1 : Bool) (s_2 : State) : Keeps (execDimmTempPoll ch_0 hot_1 s_2) s_2 := by
  unfold execDimmTempPoll
  simp

theorem execTrackerWindowReset_kept (ch_0 : Nat) (s_1 : State) : Keeps (execTrackerWindowReset ch_0 s_1) s_1 := by
  unfold execTrackerWindowReset
  simp

theorem execThrottleExpiry_kept (ch_0 : Nat) (req_1 : ReqId) (s_2 : State) : Keeps (execThrottleExpiry ch_0 req_1 s_2) s_2 := by
  unfold execThrottleExpiry
  simp

theorem execDramInitDone_kept (s_0 : State) : Keeps (execDramInitDone s_0) s_0 := by
  unfold execDramInitDone
  simp

theorem execScrubRead_kept (ecc_0 : Ecc) (s_1 : State) : Keeps (execScrubRead ecc_0 s_1) s_1 := by
  unfold execScrubRead
  (repeat' split) <;> simp [*]

@[simp] theorem setMap_kept (value_0 : Word) (s_1 : State) : kept (setMap value_0 s_1) = kept s_1 := by
  unfold setMap; simp

theorem execMemcMapWrite_kept (value_0 : Word) (s_1 : State) : Keeps (execMemcMapWrite value_0 s_1) s_1 := by
  unfold execMemcMapWrite
  simp

@[simp] theorem execMemcMapWrite_keeps {value_0 : Word} {s_1 : State} {u : State}  (hu : kept s_1 = kept u) : Keeps (execMemcMapWrite value_0 s_1) u := Keeps.trans (execMemcMapWrite_kept value_0 s_1) hu

@[simp] theorem memcCtrl_kept (on_0 : Bool) (s_1 : State) : kept (memcCtrl on_0 s_1) = kept s_1 := by
  unfold memcCtrl; simp

theorem execMemcCtrlWrite_kept (value_0 : Word) (s_1 : State) : Keeps (execMemcCtrlWrite value_0 s_1) s_1 := by
  unfold execMemcCtrlWrite
  simp

@[simp] theorem execMemcCtrlWrite_keeps {value_0 : Word} {s_1 : State} {u : State}  (hu : kept s_1 = kept u) : Keeps (execMemcCtrlWrite value_0 s_1) u := Keeps.trans (execMemcCtrlWrite_kept value_0 s_1) hu

end Sys2Proof.Machine
end

