-- ==== Sys2Proof/Laws/KeptIrq.lean ====
section
/-! SUPPORT. What the definitions of Machine/Irq.lean keep of the state. -/

namespace Sys2Proof.Machine
open Sys2Proof

@[simp] theorem message_kept (t_0 : Nat) (s_1 : State) : kept (message t_0 s_1) = kept s_1 := by
  unfold message; simp

@[simp] theorem issueMessage_kept (t_0 : Nat) (s_1 : State) : kept (issueMessage t_0 s_1) = kept s_1 := by
  unfold issueMessage; simp

theorem execIrqMessage_kept (target_0 : Nat) (s_1 : State) : Keeps (execIrqMessage target_0 s_1) s_1 := by
  unfold execIrqMessage
  simp

@[simp] theorem claimAt_kept (t_0 : Nat) (s_1 : State) : kept (claimAt t_0 s_1).2 = kept s_1 := by
  (unfold claimAt; repeat' split) <;> simp [*]

@[simp] theorem readClaim_kept (t_0 : Nat) (s_1 : State) : kept (readClaim t_0 s_1) = kept s_1 := by
  unfold readClaim; simp

theorem execIrqClaim_kept (target_0 : Nat) (s_1 : State) : Keeps (execIrqClaim target_0 s_1) s_1 := by
  unfold execIrqClaim
  simp

@[simp] theorem completeAt_kept (t_0 : Nat) (id_1 : Nat) (s_2 : State) : kept (completeAt t_0 id_1 s_2) = kept s_2 := by
  unfold completeAt; simp

theorem execIrqComplete_kept (target_0 : Nat) (value_1 : Word) (s_2 : State) : Keeps (execIrqComplete target_0 value_1 s_2) s_2 := by
  unfold execIrqComplete
  simp
@[simp] theorem execIrqComplete_keeps {target_0 : Nat} {value_1 : Word} {s_2 : State} {u : State}  (hu : kept s_2 = kept u) : Keeps (execIrqComplete target_0 value_1 s_2) u := Keeps.trans (execIrqComplete_kept target_0 value_1 s_2) hu

@[simp] theorem forcePend_kept (id_0 : Nat) (s_1 : State) : kept (forcePend id_0 s_1) = kept s_1 := by
  unfold forcePend; simp

theorem execIrqPendSet_kept (value_0 : Word) (s_1 : State) : Keeps (execIrqPendSet value_0 s_1) s_1 := by
  unfold execIrqPendSet
  simp
@[simp] theorem execIrqPendSet_keeps {value_0 : Word} {s_1 : State} {u : State}  (hu : kept s_1 = kept u) : Keeps (execIrqPendSet value_0 s_1) u := Keeps.trans (execIrqPendSet_kept value_0 s_1) hu

@[simp] theorem setRoute_kept (id_0 : Nat) (r_1 : Route) (s_2 : State) : kept (setRoute id_0 r_1 s_2) = kept s_2 := by
  unfold setRoute; simp

@[simp] theorem evqRefuse_kept (fn_0 : Nat) (code_1 : Code) (s_2 : State) : kept (evqRefuse fn_0 code_1 s_2) = kept s_2 := by
  unfold evqRefuse; simp

theorem execIrqSrcCfgWrite_kept (id_0 : Nat) (value_1 : Word) (s_2 : State) : Keeps (execIrqSrcCfgWrite id_0 value_1 s_2) s_2 := by
  unfold execIrqSrcCfgWrite
  simp
@[simp] theorem execIrqSrcCfgWrite_keeps {id_0 : Nat} {value_1 : Word} {s_2 : State} {u : State}  (hu : kept s_2 = kept u) : Keeps (execIrqSrcCfgWrite id_0 value_1 s_2) u := Keeps.trans (execIrqSrcCfgWrite_kept id_0 value_1 s_2) hu

@[simp] theorem fnRouteWrite_kept (fn_0 : Nat) (id_1 : Nat) (value_2 : Word) (s_3 : State) : kept (fnRouteWrite fn_0 id_1 value_2 s_3) = kept s_3 := by
  unfold fnRouteWrite; simp

theorem execFnIrqSrcCfgWrite_kept (fn_0 : Nat) (src_1 : Nat) (value_2 : Word) (s_3 : State) : Keeps (execFnIrqSrcCfgWrite fn_0 src_1 value_2 s_3) s_3 := by
  unfold execFnIrqSrcCfgWrite
  simp
@[simp] theorem execFnIrqSrcCfgWrite_keeps {fn_0 : Nat} {src_1 : Nat} {value_2 : Word} {s_3 : State} {u : State}  (hu : kept s_3 = kept u) : Keeps (execFnIrqSrcCfgWrite fn_0 src_1 value_2 s_3) u := Keeps.trans (execFnIrqSrcCfgWrite_kept fn_0 src_1 value_2 s_3) hu

theorem execFnIrqDmaCfgWrite_kept (fn_0 : Nat) (src_1 : Nat) (value_2 : Word) (s_3 : State) : Keeps (execFnIrqDmaCfgWrite fn_0 src_1 value_2 s_3) s_3 := by
  unfold execFnIrqDmaCfgWrite
  apply Keeps.blockWrite; intro s; (try simp only []); (repeat' split) <;> simp [*]
@[simp] theorem execFnIrqDmaCfgWrite_keeps {fn_0 : Nat} {src_1 : Nat} {value_2 : Word} {s_3 : State} {u : State}  (hu : kept s_3 = kept u) : Keeps (execFnIrqDmaCfgWrite fn_0 src_1 value_2 s_3) u := Keeps.trans (execFnIrqDmaCfgWrite_kept fn_0 src_1 value_2 s_3) hu

theorem execFnIrqClaim_kept (fn_0 : Nat) (vec_1 : Nat) (s_2 : State) : Keeps (execFnIrqClaim fn_0 vec_1 s_2) s_2 := by
  unfold execFnIrqClaim
  simp

theorem execFnIrqComplete_kept (fn_0 : Nat) (vec_1 : Nat) (value_2 : Word) (s_3 : State) : Keeps (execFnIrqComplete fn_0 vec_1 value_2 s_3) s_3 := by
  unfold execFnIrqComplete
  simp
@[simp] theorem execFnIrqComplete_keeps {fn_0 : Nat} {vec_1 : Nat} {value_2 : Word} {s_3 : State} {u : State}  (hu : kept s_3 = kept u) : Keeps (execFnIrqComplete fn_0 vec_1 value_2 s_3) u := Keeps.trans (execFnIrqComplete_kept fn_0 vec_1 value_2 s_3) hu

theorem execFnIrqPendSet_kept (fn_0 : Nat) (value_1 : Word) (s_2 : State) : Keeps (execFnIrqPendSet fn_0 value_1 s_2) s_2 := by
  unfold execFnIrqPendSet
  simp
@[simp] theorem execFnIrqPendSet_keeps {fn_0 : Nat} {value_1 : Word} {s_2 : State} {u : State}  (hu : kept s_2 = kept u) : Keeps (execFnIrqPendSet fn_0 value_1 s_2) u := Keeps.trans (execFnIrqPendSet_kept fn_0 value_1 s_2) hu

@[simp] theorem setMask_kept (t_0 : Nat) (m_1 : Bool) (s_2 : State) : kept (setMask t_0 m_1 s_2) = kept s_2 := by
  unfold setMask; simp

theorem execMsixMaskWrite_kept (fn_0 : Nat) (vec_1 : Nat) (mask_2 : Bool) (s_3 : State) : Keeps (execMsixMaskWrite fn_0 vec_1 mask_2 s_3) s_3 := by
  unfold execMsixMaskWrite
  simp
@[simp] theorem execMsixMaskWrite_keeps {fn_0 : Nat} {vec_1 : Nat} {mask_2 : Bool} {s_3 : State} {u : State}  (hu : kept s_3 = kept u) : Keeps (execMsixMaskWrite fn_0 vec_1 mask_2 s_3) u := Keeps.trans (execMsixMaskWrite_kept fn_0 vec_1 mask_2 s_3) hu

@[simp] theorem evqLevel_kept (fn_0 : Nat) (s_1 : State) : kept (evqLevel fn_0 s_1) = kept s_1 := by
  unfold evqLevel; simp

@[simp] theorem evqEnable_kept (fn_0 : Nat) (on_1 : Bool) (s_2 : State) : kept (evqEnable fn_0 on_1 s_2) = kept s_2 := by
  unfold evqEnable; simp

theorem execEvqCtrlWrite_kept (fn_0 : Nat) (value_1 : Word) (s_2 : State) : Keeps (execEvqCtrlWrite fn_0 value_1 s_2) s_2 := by
  unfold execEvqCtrlWrite
  simp
@[simp] theorem execEvqCtrlWrite_keeps {fn_0 : Nat} {value_1 : Word} {s_2 : State} {u : State}  (hu : kept s_2 = kept u) : Keeps (execEvqCtrlWrite fn_0 value_1 s_2) u := Keeps.trans (execEvqCtrlWrite_kept fn_0 value_1 s_2) hu

theorem execEvqHeadDb_kept (fn_0 : Nat) (value_1 : Word) (s_2 : State) : Keeps (execEvqHeadDb fn_0 value_1 s_2) s_2 := by
  unfold execEvqHeadDb
  simp
@[simp] theorem execEvqHeadDb_keeps {fn_0 : Nat} {value_1 : Word} {s_2 : State} {u : State}  (hu : kept s_2 = kept u) : Keeps (execEvqHeadDb fn_0 value_1 s_2) u := Keeps.trans (execEvqHeadDb_kept fn_0 value_1 s_2) hu

theorem execEventRecordPost_kept (fn_0 : Nat) (ok_1 : Bool) (s_2 : State) : Keeps (execEventRecordPost fn_0 ok_1 s_2) s_2 := by
  unfold execEventRecordPost
  apply Keeps.live; simp only; (repeat' split) <;> simp [*]

end Sys2Proof.Machine
end

