-- ==== Sys2Proof/Laws/KeptHost.lean ====
section
/-! SUPPORT. What the definitions of Machine/Host.lean keep of the state. -/

namespace Sys2Proof.Machine
open Sys2Proof

@[simp] theorem storeMem_om (a : Nat) (bs : List Byte) (s : State) {u : Kept} (h : OM u (kept s)) : OM u (kept (storeMem a bs s)) := by
  unfold storeMem; (try dsimp only); (repeat' split) <;> simp (maxDischargeDepth := 30) [*]

@[simp] theorem cmdqEnable_kept (fn_0 : Nat) (r_1 : Nat) (on_2 : Bool) (s_3 : State) : kept (cmdqEnable fn_0 r_1 on_2 s_3) = kept s_3 := by
  unfold cmdqEnable; simp

theorem execCmdqCtrlWrite_kept (fn_0 : Nat) (ring_1 : Nat) (value_2 : Word) (s_3 : State) : Keeps (execCmdqCtrlWrite fn_0 ring_1 value_2 s_3) s_3 := by
  unfold execCmdqCtrlWrite
  simp

@[simp] theorem execCmdqCtrlWrite_keeps {fn_0 : Nat} {ring_1 : Nat} {value_2 : Word} {s_3 : State} {u : State}  (hu : kept s_3 = kept u) : Keeps (execCmdqCtrlWrite fn_0 ring_1 value_2 s_3) u := Keeps.trans (execCmdqCtrlWrite_kept fn_0 ring_1 value_2 s_3) hu

@[simp] theorem cqLevel_kept (fn_0 : Nat) (r_1 : Nat) (s_2 : State) : kept (cqLevel fn_0 r_1 s_2) = kept s_2 := by
  unfold cqLevel; simp

@[simp] theorem cqEnable_kept (fn_0 : Nat) (r_1 : Nat) (on_2 : Bool) (s_3 : State) : kept (cqEnable fn_0 r_1 on_2 s_3) = kept s_3 := by
  unfold cqEnable; simp

theorem execCqCtrlWrite_kept (fn_0 : Nat) (ring_1 : Nat) (value_2 : Word) (s_3 : State) : Keeps (execCqCtrlWrite fn_0 ring_1 value_2 s_3) s_3 := by
  unfold execCqCtrlWrite
  simp

@[simp] theorem execCqCtrlWrite_keeps {fn_0 : Nat} {ring_1 : Nat} {value_2 : Word} {s_3 : State} {u : State}  (hu : kept s_3 = kept u) : Keeps (execCqCtrlWrite fn_0 ring_1 value_2 s_3) u := Keeps.trans (execCqCtrlWrite_kept fn_0 ring_1 value_2 s_3) hu

theorem execCmdqTailDb_kept (fn_0 : Nat) (ring_1 : Nat) (value_2 : Word) (s_3 : State) : Keeps (execCmdqTailDb fn_0 ring_1 value_2 s_3) s_3 := by
  unfold execCmdqTailDb
  simp

@[simp] theorem execCmdqTailDb_keeps {fn_0 : Nat} {ring_1 : Nat} {value_2 : Word} {s_3 : State} {u : State}  (hu : kept s_3 = kept u) : Keeps (execCmdqTailDb fn_0 ring_1 value_2 s_3) u := Keeps.trans (execCmdqTailDb_kept fn_0 ring_1 value_2 s_3) hu

theorem execCommandFetch_kept (fn_0 : Nat) (ring_1 : Nat) (count_2 : Nat) (fence_3 : Bool) (s_4 : State) : Keeps (execCommandFetch fn_0 ring_1 count_2 fence_3 s_4) s_4 := by
  unfold execCommandFetch
  simp

theorem execCompletionPost_kept (fn_0 : Nat) (ring_1 : Nat) (ok_2 : Bool) (s_3 : State) : Keeps (execCompletionPost fn_0 ring_1 ok_2 s_3) s_3 := by
  unfold execCompletionPost
  apply Keeps.live; simp only; (repeat' split) <;> simp [*]

@[simp] theorem consume_kept (h_0 : Nat) (n_1 : Nat) (s_2 : State) : kept (consume h_0 n_1 s_2) = kept s_2 := by
  unfold consume; simp

theorem execCqHeadDb_kept (fn_0 : Nat) (ring_1 : Nat) (value_2 : Word) (s_3 : State) : Keeps (execCqHeadDb fn_0 ring_1 value_2 s_3) s_3 := by
  unfold execCqHeadDb
  simp

@[simp] theorem execCqHeadDb_keeps {fn_0 : Nat} {ring_1 : Nat} {value_2 : Word} {s_3 : State} {u : State}  (hu : kept s_3 = kept u) : Keeps (execCqHeadDb fn_0 ring_1 value_2 s_3) u := Keeps.trans (execCqHeadDb_kept fn_0 ring_1 value_2 s_3) hu

@[simp] theorem setDma_kept (s_0 : State) (c_1 : Nat) (g_2 : DmaCh → DmaCh) : kept (setDma s_0 c_1 g_2) = kept s_0 := by
  unfold setDma; simp

@[simp] theorem dmaRefuse_kept (c_0 : Nat) (code_1 : Code) (s_2 : State) : kept (dmaRefuse c_0 code_1 s_2) = kept s_2 := by
  unfold dmaRefuse; simp

@[simp] theorem dmaEnable_kept (c_0 : Nat) (s_1 : State) : kept (dmaEnable c_0 s_1) = kept s_1 := by
  unfold dmaEnable; simp

theorem execDmaChEnable_kept (ch_0 : Nat) (s_1 : State) : Keeps (execDmaChEnable ch_0 s_1) s_1 := by
  unfold execDmaChEnable
  simp

@[simp] theorem execDmaChEnable_keeps {ch_0 : Nat} {s_1 : State} {u : State}  (hu : kept s_1 = kept u) : Keeps (execDmaChEnable ch_0 s_1) u := Keeps.trans (execDmaChEnable_kept ch_0 s_1) hu

@[simp] theorem dmaDisable_kept (c_0 : Nat) (s_1 : State) : kept (dmaDisable c_0 s_1) = kept s_1 := by
  unfold dmaDisable; simp

theorem execDmaChDisable_kept (ch_0 : Nat) (s_1 : State) : Keeps (execDmaChDisable ch_0 s_1) s_1 := by
  unfold execDmaChDisable
  simp

@[simp] theorem execDmaChDisable_keeps {ch_0 : Nat} {s_1 : State} {u : State}  (hu : kept s_1 = kept u) : Keeps (execDmaChDisable ch_0 s_1) u := Keeps.trans (execDmaChDisable_kept ch_0 s_1) hu

theorem execDmaChDb_kept (ch_0 : Nat) (s_1 : State) : Keeps (execDmaChDb ch_0 s_1) s_1 := by
  unfold execDmaChDb
  apply Keeps.live; simp only; (repeat' split) <;> simp [*]

@[simp] theorem execDmaChDb_keeps {ch_0 : Nat} {s_1 : State} {u : State}  (hu : kept s_1 = kept u) : Keeps (execDmaChDb ch_0 s_1) u := Keeps.trans (execDmaChDb_kept ch_0 s_1) hu

@[simp] theorem dmaHalt_kept (c_0 : Nat) (code_1 : Code) (s_2 : State) : kept (dmaHalt c_0 code_1 s_2) = kept s_2 := by
  unfold dmaHalt; simp

@[simp] theorem dmaFollow_kept (c_0 : Nat) (d_1 : Desc) (s_2 : State) : kept (dmaFollow c_0 d_1 s_2) = kept s_2 := by
  unfold dmaFollow; simp

theorem execDescriptorFetched_kept (ch_0 : Nat) (d_1 : Desc) (s_2 : State) : Keeps (execDescriptorFetched ch_0 d_1 s_2) s_2 := by
  unfold execDescriptorFetched
  apply Keeps.live; simp only; (repeat' split) <;> simp [*]

@[simp] theorem descDone_kept (c_0 : Nat) (d_1 : Desc) (s_2 : State) : kept (descDone c_0 d_1 s_2) = kept s_2 := by
  unfold descDone; simp

theorem execDmaBusError_kept (ch_0 : Nat) (err_1 : BusErr) (s_2 : State) : Keeps (execDmaBusError ch_0 err_1 s_2) s_2 := by
  unfold execDmaBusError
  simp

theorem execDmaRetry_kept (ch_0 : Nat) (s_1 : State) : Keeps (execDmaRetry ch_0 s_1) s_1 := by
  unfold execDmaRetry
  simp

theorem execDmaChOwnerWrite_kept (fn_0 : Nat) (ch_1 : Nat) (value_2 : Word) (s_3 : State) : Keeps (execDmaChOwnerWrite fn_0 ch_1 value_2 s_3) s_3 := by
  unfold execDmaChOwnerWrite
  apply Keeps.blockWrite; intro s; (try simp only []); (repeat' split) <;> simp [*]

@[simp] theorem execDmaChOwnerWrite_keeps {fn_0 : Nat} {ch_1 : Nat} {value_2 : Word} {s_3 : State} {u : State}  (hu : kept s_3 = kept u) : Keeps (execDmaChOwnerWrite fn_0 ch_1 value_2 s_3) u := Keeps.trans (execDmaChOwnerWrite_kept fn_0 ch_1 value_2 s_3) hu

@[simp] theorem snapshot_kept (h_0 : Hdr) (addr_1 : DWord) (scope_2 : Nat) (token_3 : Word) (stats_4 : NMap Nat) (s_5 : State) : kept (snapshot h_0 addr_1 scope_2 token_3 stats_4 s_5) = kept s_5 := by
  unfold snapshot; simp

theorem execSnapshotSession_kept (h_0 : Hdr) (addr_1 : DWord) (pad_2 : Nat) (s_3 : State) : Keeps (execSnapshotSession h_0 addr_1 pad_2 s_3) s_3 := by
  unfold execSnapshotSession
  simp

@[simp] theorem execSnapshotSession_keeps {h_0 : Hdr} {addr_1 : DWord} {pad_2 : Nat} {s_3 : State} {u : State}  (hu : kept s_3 = kept u) : Keeps (execSnapshotSession h_0 addr_1 pad_2 s_3) u := Keeps.trans (execSnapshotSession_kept h_0 addr_1 pad_2 s_3) hu

theorem execSnapshotFunction_kept (h_0 : Hdr) (addr_1 : DWord) (pad_2 : Nat) (s_3 : State) : Keeps (execSnapshotFunction h_0 addr_1 pad_2 s_3) s_3 := by
  unfold execSnapshotFunction
  apply Keeps.live; simp only; (repeat' split) <;> simp [*]

theorem execDescriptorComplete_om (ch : Nat) (host : List Byte) (mis : Option Nat) (s : State) : KeepsMem (execDescriptorComplete ch host mis s) (kept s) := by
  unfold execDescriptorComplete
  apply KeepsMem.live (OM.refl _); dsimp only; (repeat' split) <;> simp (maxDischargeDepth := 30) [*]

end Sys2Proof.Machine
end

