-- ==== Sys2Proof/Laws/KeptWatch.lean ====
section
/-! SUPPORT. What the definitions of Machine/Watch.lean keep of the state. -/

namespace Sys2Proof.Machine
open Sys2Proof

@[simp] theorem linkUnsound_kept (s_0 : State) : kept (linkUnsound s_0) = kept s_0 := by
  unfold linkUnsound; simp

@[simp] theorem blockSafe_kept (win_0 : Nat) (s_1 : State) : kept (blockSafe win_0 s_1) = kept s_1 := by
  unfold blockSafe; simp

@[simp] theorem reaction_kept (win_0 : Nat) (kind_1 : Nat) (place_2 : Nat) (s_3 : State) : kept (reaction win_0 kind_1 place_2 s_3) = kept s_3 := by
  (unfold reaction; repeat' split) <;> simp [*]

theorem execWatchEvent_kept (watch_0 : Nat) (kind_1 : Nat) (code_2 : Code) (inj_3 : Bool) (place_4 : Nat) (s_5 : State) : Keeps (execWatchEvent watch_0 kind_1 code_2 inj_3 place_4 s_5) s_5 := by
  unfold execWatchEvent
  simp

theorem execErrPulseEnd_kept (s_0 : State) : Keeps (execErrPulseEnd s_0) s_0 := by
  unfold execErrPulseEnd
  simp

theorem execWatchStatusWrite_kept (watch_0 : Nat) (value_1 : Word) (s_2 : State) : Keeps (execWatchStatusWrite watch_0 value_1 s_2) s_2 := by
  unfold execWatchStatusWrite
  simp
@[simp] theorem execWatchStatusWrite_keeps {watch_0 : Nat} {value_1 : Word} {s_2 : State} {u : State}  (hu : kept s_2 = kept u) : Keeps (execWatchStatusWrite watch_0 value_1 s_2) u := Keeps.trans (execWatchStatusWrite_kept watch_0 value_1 s_2) hu

theorem execWatchCfgWrite_kept (watch_0 : Nat) (value_1 : Word) (s_2 : State) : Keeps (execWatchCfgWrite watch_0 value_1 s_2) s_2 := by
  unfold execWatchCfgWrite
  simp
@[simp] theorem execWatchCfgWrite_keeps {watch_0 : Nat} {value_1 : Word} {s_2 : State} {u : State}  (hu : kept s_2 = kept u) : Keeps (execWatchCfgWrite watch_0 value_1 s_2) u := Keeps.trans (execWatchCfgWrite_kept watch_0 value_1 s_2) hu

@[simp] theorem guardReject_kept (cause_0 : Nat) (req_1 : Nat) (off_2 : Nat) (n_3 : Nat) (s_4 : State) : kept (guardReject cause_0 req_1 off_2 n_3 s_4) = kept s_4 := by
  unfold guardReject; simp

theorem execWatchInject_kept (watch_0 : Nat) (value_1 : Word) (s_2 : State) : Keeps (execWatchInject watch_0 value_1 s_2) s_2 := by
  unfold execWatchInject
  simp
@[simp] theorem execWatchInject_keeps {watch_0 : Nat} {value_1 : Word} {s_2 : State} {u : State}  (hu : kept s_2 = kept u) : Keeps (execWatchInject watch_0 value_1 s_2) u := Keeps.trans (execWatchInject_kept watch_0 value_1 s_2) hu

theorem execDevErrPinWrite_kept (value_0 : Word) (s_1 : State) : KeepsCore (execDevErrPinWrite value_0 s_1) s_1 := by
  unfold execDevErrPinWrite
  simp
@[simp] theorem execDevErrPinWrite_keeps {value_0 : Word} {s_1 : State} {u : State}  (hu : coreOf s_1 = coreOf u) : KeepsCore (execDevErrPinWrite value_0 s_1) u := KeepsCore.trans (execDevErrPinWrite_kept value_0 s_1) hu

@[simp] theorem parityFail_kept (win_0 : Nat) (s_1 : State) : kept (parityFail win_0 s_1) = kept s_1 := by
  unfold parityFail; simp

end Sys2Proof.Machine
end

