-- ==== Sys2Proof/Laws/KeptPower.lean ====
section
/-! SUPPORT. What the definitions of Machine/Power.lean keep of the state. -/

namespace Sys2Proof.Machine
open Sys2Proof

@[simp] theorem enterPower_kept (k_0 : Nat) (s_1 : State) : kept (enterPower k_0 s_1) = kept s_1 := by
  unfold enterPower; simp

@[simp] theorem powerStep_kept (s_0 : State) : kept (powerStep s_0) = kept s_0 := by
  unfold powerStep; simp

@[simp] theorem thermalStep_kept (temps_0 : List (Nat × BitVec 16)) (throttleN_1 : Bool) (s_2 : State) : kept (thermalStep temps_0 throttleN_1 s_2) = kept s_2 := by
  unfold thermalStep; simp

@[simp] theorem sensorsLost_kept (before_0 : Nat) (s_1 : State) : kept (sensorsLost before_0 s_1) = kept s_1 := by
  unfold sensorsLost; simp

theorem execEngineGate_kept (engine_0 : Nat) (s_1 : State) : Keeps (execEngineGate engine_0 s_1) s_1 := by
  unfold execEngineGate
  simp

theorem execEngineUngate_kept (engine_0 : Nat) (s_1 : State) : Keeps (execEngineUngate engine_0 s_1) s_1 := by
  unfold execEngineUngate
  simp

theorem execHoveToEnter_kept (enter_0 : Bool) (s_1 : State) : Keeps (execHoveToEnter enter_0 s_1) s_1 := by
  unfold execHoveToEnter
  simp

theorem execDevLatencyTolWrite_kept (value : Word) (s : State) : KeepsCore (execDevLatencyTolWrite value s) s := by
  unfold execDevLatencyTolWrite; apply KeepsCore.regWrite; simp only []; split <;> simp
@[simp] theorem execDevLatencyTolWrite_keeps {value_0 : Word} {s_1 : State} {u : State}  (hu : coreOf s_1 = coreOf u) : KeepsCore (execDevLatencyTolWrite value_0 s_1) u := KeepsCore.trans (execDevLatencyTolWrite_kept value_0 s_1) hu

@[simp] theorem pwrCfg_kept (value_0 : Word) (s_1 : State) : coreOf (pwrCfg value_0 s_1) = coreOf s_1 := by
  (unfold pwrCfg; repeat' split) <;> simp [*]

@[simp] theorem pwrTherm_kept (value_0 : Word) (s_1 : State) : coreOf (pwrTherm value_0 s_1) = coreOf s_1 := by
  (unfold pwrTherm; repeat' split) <;> simp [*]

@[simp] theorem pwrTherm2_kept (value_0 : Word) (s_1 : State) : coreOf (pwrTherm2 value_0 s_1) = coreOf s_1 := by
  (unfold pwrTherm2; repeat' split) <;> simp [*]

end Sys2Proof.Machine
end

