-- ==== Sys2Proof/Laws/KeptEngine.lean ====
section
/-! SUPPORT. What the definitions of Machine/Engine.lean keep of the state. -/

namespace Sys2Proof.Machine
open Sys2Proof

@[simp] theorem setEng_kept (s_0 : State) (e_1 : Nat) (g_2 : Engine → Engine) : kept (setEng s_0 e_1 g_2) = kept s_0 := by
  unfold setEng; simp

@[simp] theorem engFault_kept (e kind : Nat) (s : State) : kept (engFault e kind s) = kept s := by
  unfold engFault; (try dsimp only); (repeat' split) <;> (first | rfl | (simp [*]; done) | (simp; rfl))

@[simp] theorem sramWrite_kept (q a : Nat) (bs : List Byte) (s : State) : kept (sramWrite q a bs s) = kept s := by
  unfold sramWrite; (try dsimp only); (repeat' split) <;> (first | rfl | (simp [*]; done) | (simp; rfl))

theorem kept_freeCtr (s : State) (n : Nat) : kept { s with freeCtr := n } = kept s := rfl

@[simp] theorem runWord_kept (engine : Nat) (w : Issue) (s : State) : kept (runWord engine w s) = kept s := by
  unfold runWord
  generalize sequence (engOf s engine) w = p
  obtain ⟨pc, stack, lc⟩ := p
  generalize (nanoOps w s (engine / 32)) = f
  dsimp only
  split
  · exact engFault_kept ..
  · split
    · exact engFault_kept ..
    · exact (kept_freeCtr _ _).trans (setEng_kept ..)

@[simp] theorem spaceWrite_om (q sp a : Nat) (bs : List Byte) (s : State) {u : Kept} (h : OM u (kept s)) : OM u (kept (spaceWrite q sp a bs s)) := by
  unfold spaceWrite; (try dsimp only); (repeat' split) <;> first | assumption | (simp (maxDischargeDepth := 30) [*]; done) | (refine OM.foldl (fun t a ht => ?_) ?_ <;> first | assumption | (simp (maxDischargeDepth := 30) [*]; done))

@[simp] theorem publishOne_om (q : Nat) (s : State) (w : Staged) {u : Kept} (h : OM u (kept s)) : OM u (kept (publishOne q s w)) := by
  unfold publishOne; (try dsimp only); (repeat' split) <;> first | assumption | (simp (maxDischargeDepth := 30) [*]; done) | (refine OM.foldl (fun t a ht => ?_) ?_ <;> first | assumption | (simp (maxDischargeDepth := 30) [*]; done))

@[simp] theorem publish_om (q : Nat) (l : List Staged) (s : State) {u : Kept} (h : OM u (kept s)) : OM u (kept (publish q l s)) := by
  unfold publish; (try dsimp only); (repeat' split) <;> first | assumption | (simp (maxDischargeDepth := 30) [*]; done) | (refine OM.foldl (fun t a ht => ?_) ?_ <;> first | assumption | (simp (maxDischargeDepth := 30) [*]; done))

@[simp] theorem loadMicro_kept (q k role : Nat) (s : State) : kept (loadMicro q k role s) = kept s := by
  unfold loadMicro; (try dsimp only); (repeat' split) <;> (first | rfl | (simp [*]; done) | (simp; rfl))

@[simp] theorem loadStores_kept (q : Nat) (s : State) : kept (loadStores q s) = kept s := by
  have h : ∀ t : State, kept ((List.range 32).foldl (fun s k => loadMicro q k (imageRole s q k) s) t) = kept t := fun t => by simp
  unfold loadStores; dsimp only; split
  · exact h s
  · exact (h _).trans (by simp)

theorem execMicrowordIssue_kept (engine_0 : Nat) (mw_1 : MicroIn) (s_2 : State) : Keeps (execMicrowordIssue engine_0 mw_1 s_2) s_2 := by
  unfold execMicrowordIssue
  apply Keeps.live; (repeat' split) <;> simp

@[simp] theorem unitDone_kept (u_0 : UnitRef) (s_1 : State) : kept (unitDone u_0 s_1) = kept s_1 := by
  unfold unitDone; simp

theorem execMarkWordComplete_om (engine_0 : Nat) (s_1 : State) : KeepsMem (execMarkWordComplete engine_0 s_1) (kept s_1) := by
  unfold execMarkWordComplete
  apply KeepsMem.live (OM.refl _); (try dsimp only []); (repeat' split) <;> first | exact OM.refl _ | (simp (maxDischargeDepth := 30); done)

theorem execMarkWatchdog_kept (engine_0 : Nat) (s_1 : State) : Keeps (execMarkWatchdog engine_0 s_1) s_1 := by
  unfold execMarkWatchdog
  simp

@[simp] theorem startUnit_kept (n_0 : Nat) (u_1 : UnitRef) (s_2 : State) : kept (startUnit n_0 u_1 s_2) = kept s_2 := by
  unfold startUnit; simp

@[simp] theorem pendEvent_kept (isCancel_0 : Bool) (p_1 : UnitRef → Bool) (s_2 : State) : kept (pendEvent isCancel_0 p_1 s_2) = kept s_2 := by
  unfold pendEvent; simp

@[simp] theorem rezoneEngines_kept (q_0 : Nat) (s_1 : State) : kept (rezoneEngines q_0 s_1) = kept s_1 := by
  unfold rezoneEngines; simp

@[simp] theorem wantKey_kept (h_0 : Nat) (s_1 : State) : kept (wantKey h_0 s_1) = kept s_1 := by
  unfold wantKey; simp

end Sys2Proof.Machine
end

