-- ==== Sys2Proof/Laws/KeptRate.lean ====
section
/-! SUPPORT. What the definitions of Machine/Rate.lean keep of the state. -/

namespace Sys2Proof.Machine
open Sys2Proof

@[simp] theorem rateReport_kept (n_0 : Nat) (loss_1 : Nat) (est_2 : Nat) (s_3 : State) : kept (rateReport n_0 loss_1 est_2 s_3) = kept s_3 := by
  (unfold rateReport; repeat' split) <;> simp [*]

theorem execRcCtrlWrite_kept (value_0 : Word) (s_1 : State) : KeepsCore (execRcCtrlWrite value_0 s_1) s_1 := by
  unfold execRcCtrlWrite
  apply KeepsCore.blockWrite; intro s; (try simp only []); (repeat' split) <;> simp [*]
@[simp] theorem execRcCtrlWrite_keeps {value_0 : Word} {s_1 : State} {u : State}  (hu : coreOf s_1 = coreOf u) : KeepsCore (execRcCtrlWrite value_0 s_1) u := KeepsCore.trans (execRcCtrlWrite_kept value_0 s_1) hu

theorem execRcDefaultsWrite_kept (which_0 : Nat) (value_1 : Word) (s_2 : State) : KeepsCore (execRcDefaultsWrite which_0 value_1 s_2) s_2 := by
  unfold execRcDefaultsWrite
  (try dsimp only []); (repeat' split) <;> first | (simp [*]; done) | (apply blockWrite_keepsCore <;> simp [*] <;> done) | (apply Keeps.core; simp [*]; done) | (apply Keeps.core; apply blockWrite_keeps <;> simp [*] <;> done) | (apply KeepsCore.trans (Keeps.core (by simp)) <;> simp <;> done)
@[simp] theorem execRcDefaultsWrite_keeps {which_0 : Nat} {value_1 : Word} {s_2 : State} {u : State}  (hu : coreOf s_2 = coreOf u) : KeepsCore (execRcDefaultsWrite which_0 value_1 s_2) u := KeepsCore.trans (execRcDefaultsWrite_kept which_0 value_1 s_2) hu

end Sys2Proof.Machine
end

