-- ==== Sys2Proof/Laws/KeptFrames.lean ====
section
/-! SUPPORT. What the definitions of Machine/Frames.lean keep of the state. -/

namespace Sys2Proof.Machine
open Sys2Proof

@[simp] theorem linkSend_kept (m_0 : LinkOut) (s_1 : State) : kept (linkSend m_0 s_1) = kept s_1 := by
  (unfold linkSend; split) <;> simp

@[simp] theorem tellShadow_kept (h : Nat) (c : Session → FwdCmd) (s : State) : kept (tellShadow h c s) = kept s := by
  (unfold tellShadow; repeat' split) <;> simp

@[simp] theorem tellPartner_kept (h st : Nat) (s : State) : kept (tellPartner h st s) = kept s := by
  unfold tellPartner; simp

@[simp] theorem tellPhase_kept (h : Nat) (s : State) : kept (tellPhase h s) = kept s := by
  unfold tellPhase; simp

@[simp] theorem mapSet_kept (h : Nat) (o : SubmitOps) (s : State) : kept (mapSet h o s).2 = kept s := by
  have hr := allocMany_kept (sessReq h) (2^20) (setPages o) s
  rw [mapSet]
  generalize allocMany (sessReq h) (2^20) (setPages o) s = r at *
  generalize setPages o = n
  generalize freeRun s.ingest.pages n 0 = q
  obtain ⟨r, t⟩ := r
  cases q with
  | none => rfl
  | some p =>
    cases r
    · exact allocRefused_kept _ _ _
    · exact (kept_mk t _ _ _ _ _ _ _ _ _ _ _ _ _ _ _ _ _ _ _ _ _ _ _ _ _ _ _ _ _ _ _ _ _ rfl rfl rfl rfl rfl rfl rfl rfl rfl rfl rfl rfl rfl rfl rfl rfl rfl rfl).trans hr

theorem mapSet_kept' {h : Nat} {o : SubmitOps} {s : State} {r t} (hq : mapSet h o s = (r, t)) : kept t = kept s := by
  have h0 := mapSet_kept h o s; rw [hq] at h0; exact h0

@[simp] theorem mapSets_kept (h : Nat) (o : SubmitOps) (n : Nat) (s : State) : kept (mapSets h o n s).2 = kept s := by
  induction n generalizing s with
  | zero => simp [mapSets]
  | succ n ih =>
    unfold mapSets
    split
    · exact mapSet_kept' (by assumption)
    · split
      · simp only; split <;> simp
      · rename_i h1 _ _ _ h2; exact ((congrArg (fun p => kept p.2) h2).symm.trans (ih _)).trans (mapSet_kept' h1)

theorem mapSets_kept' {h : Nat} {o : SubmitOps} {n : Nat} {s : State} {r t} (hq : mapSets h o n s = (r, t)) : kept t = kept s := by
  have h0 := mapSets_kept h o n s; rw [hq] at h0; exact h0

@[simp] theorem unmapSets_kept (h_0 : Nat) (sets_1 : List (Nat × List Word)) (s_2 : State) : kept (unmapSets h_0 sets_1 s_2) = kept s_2 := by
  unfold unmapSets; simp

@[simp] theorem sweepPics_kept (h_0 : Nat) (s_1 : State) : kept (sweepPics h_0 s_1) = kept s_1 := by
  (unfold sweepPics; repeat' split) <;> simp [*]

@[simp] theorem losePicture_kept (h_0 : Nat) (num_1 : Nat) (s_2 : State) : kept (losePicture h_0 num_1 s_2) = kept s_2 := by
  unfold losePicture; simp

@[simp] theorem feedAck_kept (h_0 : Nat) (frame_1 : Nat) (s_2 : State) : kept (feedAck h_0 frame_1 s_2) = kept s_2 := by
  (unfold feedAck; repeat' split) <;> simp [*]

@[simp] theorem feedLoss_kept (h_0 : Nat) (frame_1 : Nat) (s_2 : State) : kept (feedLoss h_0 frame_1 s_2) = kept s_2 := by
  unfold feedLoss; simp

@[simp] theorem feedKey_kept (h_0 : Nat) (s_1 : State) : kept (feedKey h_0 s_1) = kept s_1 := by
  (unfold feedKey; repeat' split) <;> simp [*]

@[simp] theorem sampleFrame_kept (h_0 : Nat) (num_1 : Nat) (s_2 : State) : kept (sampleFrame h_0 num_1 s_2) = kept s_2 := by
  (unfold sampleFrame; repeat' split) <;> simp [*]

@[simp] theorem claimPic_kept (h : Nat) (exts : List Word) (s : State) : kept (claimPic h exts s).2 = kept s := by
  have key : ∀ (l : List Word) (acc : List (Word × Nat) × State), kept (l.foldl (fun (acc : List (Word × Nat) × State) w =>
          match claimBuf (sessReq h) w acc.2 with
          | (.ok t, s1) => (acc.1 ++ [(w, t)], s1)
          | (.error _, s1) => (acc.1, s1)) acc).2 = kept acc.2 := by
    intro l
    induction l with
    | nil => intro acc; rfl
    | cons w l ih =>
      intro acc
      rw [List.foldl_cons, ih]
      split <;> exact claimBuf_kept' (by assumption)
  exact key _ _
@[simp] theorem markSecret_kept (w : Word) (s : State) : kept (markSecret w s) = kept s := by
  unfold markSecret; split <;> simp
@[simp] theorem allocSurface_kept (h bytes : Nat) (s : State) : kept (allocSurface h bytes s).2 = kept s := by
  have hr := allocMany_kept (sessReq h) (2^20) (cdiv bytes (2 ^ 20)) s
  unfold allocSurface
  generalize allocMany (sessReq h) (2^20) (cdiv bytes (2 ^ 20)) s = r at *
  obtain ⟨r, t⟩ := r
  cases r
  · simp
  · exact (kept_foldl _ (by intros; simp) _ _).trans hr
@[simp] theorem composite_kept (h : Nat) (x : Session) (o : SubmitOps) (s : State) : kept (composite h x o s).2 = kept s := by
  unfold composite
  split
  · rfl
  · (repeat' split) <;> first | exact claimPic_kept .. | (simp; done) | skip
    rename_i e
    exact (congrArg (fun c => kept c.2) e).symm.trans (claimPic_kept ..)

theorem composite_kept' {h : Nat} {x : Session} {o : SubmitOps} {s : State} {r t} (hq : composite h x o s = (r, t)) : kept t = kept s := by
  have h0 := composite_kept h x o s; rw [hq] at h0; exact h0

@[simp] theorem startFrame_kept (h source : Nat) (ops : SubmitOps) (bindId set rows : Nat) (m : Mark) (s : State) : kept (startFrame h source ops bindId set rows m s) = kept s := by
  unfold startFrame
  split
  · rfl
  · extract_lets g first resized size src x prev n f zero ts skip d band fr0
    generalize refsFor x g prev (first || resized) skip fr0 = r
    obtain ⟨fr1, ltr, act, sup, fbKey⟩ := r
    have hc := composite_kept h x ops s
    generalize composite h x ops s = c at *
    obtain ⟨⟨claims, pic⟩, s00⟩ := c
    dsimp only at hc ⊢
    generalize hb : size.1 * size.2 * 3 / 2 * (x.stream.depth + 1) = nb
    have ha : kept (if pic.isSome = true then allocSurface h nb s00 else (([] : List Word), s00)).2 = kept s := by
      split
      · exact (allocSurface_kept ..).trans hc
      · exact hc
    generalize (if pic.isSome = true then allocSurface h nb s00 else (([] : List Word), s00)) = a at *
    obtain ⟨surface, s0⟩ := a
    dsimp only at ha ⊢
    have h1 : ∀ m, kept { s0 with sessions := m } = kept s0 := fun _ => rfl
    cases act <;> simp [when, h1, ha]

end Sys2Proof.Machine
end

