-- ==== Sys2Proof/Laws/KeptIngest.lean ====
section
/-! SUPPORT. What the definitions of Machine/Ingest.lean keep of the state. -/

namespace Sys2Proof.Machine
open Sys2Proof

@[simp] theorem admissionEvent_kept (h_0 : Nat) (s_1 : State) : kept (admissionEvent h_0 s_1) = kept s_1 := by
  (unfold admissionEvent; repeat' split) <;> simp [*]

@[simp] theorem givePhase_kept (h_0 : Nat) (l_1 : Load) (s_2 : State) : kept (givePhase h_0 l_1 s_2) = kept s_2 := by
  (unfold givePhase; repeat' split) <;> simp [*]

@[simp] theorem touch_kept (h_0 : Nat) (s_1 : State) : kept (touch h_0 s_1) = kept s_1 := by
  unfold touch; simp

@[simp] theorem resizeActive_kept (h_0 : Nat) (conv_1 : Nat) (s_2 : State) : kept (resizeActive h_0 conv_1 s_2) = kept s_2 := by
  (unfold resizeActive; simp; repeat' split) <;> simp [*]

@[simp] theorem resumeConfig_kept (h : Nat) (ops : SubmitOps) (s : State) : kept (resumeConfig h ops s) = kept s := by
  unfold resumeConfig; (try dsimp only); (repeat' split) <;> (first | rfl | (simp [*]; done) | (simp; rfl))

theorem admitStart_kept (h_0 : Nat) (ops_1 : SubmitOps) (m_2 : Mark) (s_3 : State) : ∀ t, (admitStart h_0 ops_1 m_2 s_3) = .ok t → kept t = kept s_3 := by
  (unfold admitStart; simp; repeat' split) <;> simp [*]

theorem admitStart_kept' {h_0 : Nat} {ops_1 : SubmitOps} {m_2 : Mark} {s_3 : State}  {t} (hq : (admitStart h_0 ops_1 m_2 s_3) = .ok t) : kept t = kept s_3 := admitStart_kept h_0 ops_1 m_2 s_3 _ hq

@[simp] theorem freeBinds_kept (h_0 : Nat) (s_1 : State) : kept (freeBinds h_0 s_1) = kept s_1 := by
  (unfold freeBinds; repeat' split) <;> simp [*]

@[simp] theorem takeBinding_kept (h_0 : Nat) (s_1 : State) : kept (takeBinding h_0 s_1) = kept s_1 := by
  (unfold takeBinding; repeat' split) <;> simp [*]

@[simp] theorem takeSet_kept (h_0 : Nat) (s_1 : State) : kept (takeSet h_0 s_1).2 = kept s_1 := by
  (unfold takeSet; repeat' split) <;> simp [*]

theorem takeSet_kept' {h_0 : Nat} {s_1 : State}  {r t} (hq : (takeSet h_0 s_1) = (r, t)) : kept t = kept s_1 := by have h0 := takeSet_kept h_0 s_1; rw [hq] at h0; exact h0

@[simp] theorem bindNext_kept (h_0 : Nat) (o_1 : SubmitOps) (sets_2 : List (Nat × List Word)) (s_3 : State) : kept (bindNext h_0 o_1 sets_2 s_3) = kept s_3 := by
  (unfold bindNext; repeat' split) <;> simp [*]

@[simp] theorem rebind_kept (h_0 : Nat) (s_1 : State) : kept (rebind h_0 s_1) = kept s_1 := by
  unfold rebind; (try simp only []); (repeat' split) <;> (try simp) <;> ((repeat (first | with_reducible rfl | (simp; done) | refine Eq.trans (mapSets_kept' (by assumption)) ?_)); done)

@[simp] theorem unbind_kept (h : Nat) (s : State) : kept (unbind h s) = kept s := by
  unfold unbind
  split
  · with_reducible rfl
  · simp only [setSess_kept]
    rw [kept_foldl _ (by intro s a; simp), kept_foldl _ (by intro s a; simp)]

theorem execSubmitFrameAperture_kept (h : Hdr) (o : SubmitOps) (s : State) : Keeps (execSubmitFrameAperture h o s) s := by
  unfold execSubmitFrameAperture; apply sessionCmd_kept; intro s; apply onToken_kept; intro n x s; (repeat' split) <;> (try simp) <;> ((repeat (first | with_reducible rfl | (simp; done) | refine Eq.trans (mapSets_kept' (by assumption)) ?_)); done)

@[simp] theorem execSubmitFrameAperture_keeps {h_0 : Hdr} {o_1 : SubmitOps} {s_2 : State} {u : State}  (hu : kept s_2 = kept u) : Keeps (execSubmitFrameAperture h_0 o_1 s_2) u := Keeps.trans (execSubmitFrameAperture_kept h_0 o_1 s_2) hu

theorem execSubmitFrameHost_kept (h : Hdr) (o : SubmitOps) (s : State) : Keeps (execSubmitFrameHost h o s) s := by
  unfold execSubmitFrameHost; apply sessionCmd_kept; intro s; apply onToken_kept; intro n x s; (repeat' split) <;> (try simp) <;> ((repeat (first | with_reducible rfl | (simp; done) | refine Eq.trans (allocMany_kept' (by assumption)) ?_ | refine Eq.trans (admitStart_kept' (by assumption)) ?_)); done)

@[simp] theorem execSubmitFrameHost_keeps {h_0 : Hdr} {o_1 : SubmitOps} {s_2 : State} {u : State}  (hu : kept s_2 = kept u) : Keeps (execSubmitFrameHost h_0 o_1 s_2) u := Keeps.trans (execSubmitFrameHost_kept h_0 o_1 s_2) hu

@[simp] theorem stray_kept (s_0 : State) : kept (stray s_0) = kept s_0 := by
  unfold stray; simp

theorem execApertureRead_kept (page_0 : Nat) (s_1 : State) : Keeps (execApertureRead page_0 s_1) s_1 := by
  unfold execApertureRead
  simp

@[simp] theorem rejectFence_kept (f_0 : Fence) (code_1 : Code) (s_2 : State) : kept (rejectFence f_0 code_1 s_2) = kept s_2 := by
  (unfold rejectFence; repeat' split) <;> simp [*]

@[simp] theorem acceptFence_kept (f_0 : Fence) (s_1 : State) : kept (acceptFence f_0 s_1) = kept s_1 := by
  unfold acceptFence; simp

@[simp] theorem landRows_kept (h_0 : Nat) (num_1 : Nat) (rows_2 : Nat) (m_3 : Mark) (s_4 : State) : kept (landRows h_0 num_1 rows_2 m_3 s_4) = kept s_4 := by
  unfold landRows; simp

theorem execRowFence_kept (f_0 : Fence) (s_1 : State) : Keeps (execRowFence f_0 s_1) s_1 := by
  unfold execRowFence
  apply Keeps.live; (try simp only []); (repeat' split) <;> (try simp) <;> ((repeat (first | with_reducible rfl | (simp; done) | refine Eq.trans (admitStart_kept' (by assumption)) ?_ | refine Eq.trans (takeSet_kept' (by assumption)) ?_)); done)

@[simp] theorem execRowFence_keeps {f_0 : Fence} {s_1 : State} {u : State}  (hu : kept s_1 = kept u) : Keeps (execRowFence f_0 s_1) u := Keeps.trans (execRowFence_kept f_0 s_1) hu

theorem execIngestCtrlWrite_kept (value_0 : Word) (barOk_1 : Bool) (s_2 : State) : KeepsCore (execIngestCtrlWrite value_0 barOk_1 s_2) s_2 := by
  unfold execIngestCtrlWrite
  (try dsimp only []); (repeat' split) <;> first | (simp [*]; done) | (apply blockWrite_keepsCore <;> simp [*] <;> done) | (apply Keeps.core; simp [*]; done) | (apply Keeps.core; apply blockWrite_keeps <;> simp [*] <;> done) | (apply KeepsCore.trans (Keeps.core (by simp)) <;> simp <;> done)

@[simp] theorem execIngestCtrlWrite_keeps {value_0 : Word} {barOk_1 : Bool} {s_2 : State} {u : State}  (hu : coreOf s_2 = coreOf u) : KeepsCore (execIngestCtrlWrite value_0 barOk_1 s_2) u := KeepsCore.trans (execIngestCtrlWrite_kept value_0 barOk_1 s_2) hu

@[simp] theorem writeSet_om (bufs : List Word) (off : Nat) (bytes : List Byte) (s : State) {u : Kept} (h : OM u (kept s)) : OM u (kept (writeSet bufs off bytes s)) := by
  unfold writeSet; (try dsimp only); (repeat' split) <;> first | assumption | (simp (maxDischargeDepth := 30) [*]; done) | (refine OM.foldl (fun t a ht => ?_) ?_ <;> first | assumption | (simp (maxDischargeDepth := 30) [*]; done))

@[simp] theorem landHost_om (bufs : List Word) (ops : SubmitOps) (a : Nat) (bytes : List Byte) (s : State) {u : Kept} (h : OM u (kept s)) : OM u (kept (landHost bufs ops a bytes s)) := by
  induction bytes generalizing a s with
  | nil => exact h
  | cons b t ih =>
    unfold landHost
    apply ih
    (repeat' split) <;> first | assumption | (simp (maxDischargeDepth := 30) [*]; done)

theorem execApertureWrite_om (w : AptWrite) (s : State) : KeepsMem (execApertureWrite w s) (kept s) := by
  unfold execApertureWrite
  apply KeepsMem.live (OM.refl _); (try dsimp only []); (repeat' split) <;> first | exact OM.refl _ | (simp (maxDischargeDepth := 30); done)

theorem execHostRowsRead_om (handle rows : Nat) (ok : Bool) (pieces : List (DWord × List Byte)) (s : State) : KeepsMem (execHostRowsRead handle rows ok pieces s) (kept s) := by
  unfold execHostRowsRead Machine.onSession
  apply KeepsMem.live (OM.refl _)
  split
  · exact OM.refl _
  · dsimp only
    split
    · exact OM.refl _
    · split
      · simp only [landRows_kept, stamp_kept]
        exact OM.foldl (fun t a ht => landHost_om _ _ _ _ _ ht) (OM.refl _)
      · exact OM.of (by simp)

end Sys2Proof.Machine
end

