-- ==== Sys2Proof/Laws/KeptPixels.lean ====
section
/-! SUPPORT. Writing a picture's space and a protected surface changes DRAM alone (Machine/Lrc.lean, Machine/Pixels.lean). -/

namespace Sys2Proof.Machine
open Sys2Proof

@[simp] theorem spacePut_om (exts : List Word) (o : Nat) (b : List Byte) (s : State) {u : Kept} (h : OM u (kept s)) :
    OM u (kept (spacePut exts o b s)) := by
  induction exts generalizing o b s with
  | nil => exact h
  | cons w t ih =>
    unfold spacePut
    dsimp only
    split
    · exact ih _ _ _ h
    · exact ih _ _ _ (storeMem_om _ _ _ h)

@[simp] theorem writeUnits_om (exts : List Word) (at0 : Nat) (l : List (Nat × List Byte)) (s : State) {u : Kept} (h : OM u (kept s)) :
    OM u (kept (writeUnits exts at0 l s)) := by
  induction l generalizing at0 s with
  | nil => exact h
  | cons w t ih => exact ih _ _ (spacePut_om _ _ _ _ (spacePut_om _ _ _ _ h))

@[simp] theorem writeMotion_om (p : Shape) (exts : List Word) (l : List (Nat × Option (Int × Int))) (s : State) {u : Kept} (h : OM u (kept s)) :
    OM u (kept (writeMotion p exts l s)) := OM.foldl (fun _ _ ht => spacePut_om _ _ _ _ ht) h

@[simp] theorem putRun_om (bufs : List Word) (o : Nat) (b : List Byte) (s : State) {u : Kept} (h : OM u (kept s)) :
    OM u (kept (putRun bufs o b s)) := spacePut_om _ _ _ _ h

@[simp] theorem writeSurface_om (x : Session) (f : Frame) (k : Nat) (s : State) {u : Kept} (h : OM u (kept s)) :
    OM u (kept (writeSurface x f k s)) := by
  unfold writeSurface
  split
  · exact h
  · exact putRun_om _ _ _ _ (putRun_om _ _ _ _ h)

end Sys2Proof.Machine
end

