-- ==== Sys2Proof/Laws/KeptSched.lean ====
section
/-! SUPPORT. What the definitions of Machine/Sched.lean keep of the state. -/

namespace Sys2Proof.Machine
open Sys2Proof

@[simp] theorem setDec_kept (s_0 : State) (n_1 : Nat) (g_2 : Dec → Dec) : kept (setDec s_0 n_1 g_2) = kept s_0 := by
  unfold setDec; simp

@[simp] theorem setAu_kept (s_0 : State) (n_1 : Nat) (m_2 : Mark) (g_3 : Au → Au) : kept (setAu s_0 n_1 m_2 g_3) = kept s_0 := by
  unfold setAu; simp

@[simp] theorem decodeDeadlines_kept (s_0 : State) : kept (decodeDeadlines s_0) = kept s_0 := by
  unfold decodeDeadlines; simp

@[simp] theorem setFrame_kept (h_0 : Nat) (num_1 : Nat) (g_2 : Frame → Frame) (s_3 : State) : kept (setFrame h_0 num_1 g_2 s_3) = kept s_3 := by
  unfold setFrame; simp

@[simp] theorem setBand_kept (h_0 : Nat) (num_1 : Nat) (k_2 : Nat) (g_3 : Band → Band) (s_4 : State) : kept (setBand h_0 num_1 k_2 g_3 s_4) = kept s_4 := by
  unfold setBand; simp

@[simp] theorem countDirect_kept (h_0 : Nat) (s_1 : State) : kept (countDirect h_0 s_1) = kept s_1 := by
  unfold countDirect; simp

@[simp] theorem countTask_kept (h q cost : Nat) (cad : Bool) (s : State) : kept (countTask h q cost cad s) = kept s := by
  unfold countTask; (try dsimp only); (repeat' split) <;> (first | rfl | (simp [*]; done) | (simp; rfl))

@[simp] theorem startBand_om (h num k : Nat) (cad fb : Bool) (s : State) {u : Kept} (hu : OM u (kept s)) : OM u (kept (startBand h num k cad fb s)) := by
  have g : ∀ (c : Bool) (G : Frame → Frame) (B : Band → Band), OM u (kept (setBand h num k B (when c (setFrame h num G) s))) := by
    intro c G B; simpa using hu
  unfold startBand
  split
  · exact hu
  · split
    · exact hu
    · extract_lets direct whole q s0 s1 s2
      have h1 : OM u (kept s1) := g _ _ _
      have h2 : OM u (kept s2) := by simp only [s2, countTask_kept]; exact writeSurface_om _ _ _ _ h1
      split
      · simpa using h2
      · exact h2

@[simp] theorem startAu_kept (n : Nat) (x : Session) (a : Au) (s : State) : kept (startAu n x a s) = kept s := by
  unfold startAu; (try dsimp only); (repeat' split) <;> (first | rfl | (simp [*]; done) | (simp; rfl))

@[simp] theorem startDecBand_kept (n : Nat) (m : Mark) (k : Nat) (cad : Bool) (s : State) : kept (startDecBand n m k cad s) = kept s := by
  unfold startDecBand; dsimp only; (repeat' split) <;> simp

@[simp] theorem ungateFor_kept (ts : List Task) (s : State) : kept (ungateFor ts s) = kept s := by
  unfold ungateFor; (try dsimp only); (repeat' split) <;> (first | rfl | (simp [*]; done) | (simp; rfl))

@[simp] theorem takeWork_kept (q : Nat) (t : TileRef) (s : State) : kept (takeWork q t s) = kept s := by
  unfold takeWork; (try dsimp only); (repeat' split) <;> (first | rfl | (simp [*]; done) | (simp; rfl))

@[simp] theorem freeWork_kept (p : TileRef → Bool) (s : State) : kept (freeWork p s) = kept s := by
  unfold freeWork; (try dsimp only); (repeat' split) <;> (first | rfl | (simp [*]; done) | (simp; rfl))

@[simp] theorem takeWorks_kept (q : Nat) (l : List TileRef) (s : State) : kept (takeWorks q l s) = kept s := by
  unfold takeWorks; (try dsimp only); (repeat' split) <;> (first | rfl | (simp [*]; done) | (simp; rfl))

@[simp] theorem forkBand_kept (h num k : Nat) (s : State) : kept (forkBand h num k s) = kept s := by
  unfold forkBand; (try dsimp only); (repeat' split) <;> (first | rfl | (simp [*]; done) | (simp; rfl))

@[simp] theorem dispatchForks_kept (s : State) : kept (dispatchForks s) = kept s := by
  unfold dispatchForks
  apply kept_foldl
  intro t a
  split <;> simp

@[simp] theorem startTask_om (cad : Bool) (t : Task) (s : State) {u : Kept} (h : OM u (kept s)) : OM u (kept (startTask cad t s)) := by
  unfold startTask; split
  · exact startBand_om _ _ _ _ _ _ h
  · simpa using h

@[simp] theorem dispatchCadence_om (s : State) {u : Kept} (h : OM u (kept s)) : OM u (kept (dispatchCadence s)) := by
  unfold dispatchCadence; dsimp only
  exact OM.foldl (fun _ _ ht => startTask_om _ _ _ ht) (by simpa using h)

@[simp] theorem dispatchOver_om (s : State) {u : Kept} (h : OM u (kept s)) : OM u (kept (dispatchOver s)) := by
  unfold dispatchOver
  refine OM.foldl (fun t a ht => ?_) h
  (repeat' split) <;> first | exact ht | exact startTask_om _ _ _ ht

@[simp] theorem dispatchRest_om (h num : Nat) (p : Band → Bool) (s : State) {u : Kept} (hu : OM u (kept s)) : OM u (kept (dispatchRest h num p s)) := by
  unfold dispatchRest
  split
  · exact hu
  · split
    · exact hu
    · split
      · exact OM.foldl (fun t a ht => startBand_om _ _ _ _ _ _ ht) hu
      · exact hu

@[simp] theorem dispatchParked_om (s : State) {u : Kept} (h : OM u (kept s)) : OM u (kept (dispatchParked s)) := by
  unfold dispatchParked
  refine OM.foldl (fun t a ht => ?_) h
  split
  · split
    · exact OM.foldl (fun _ _ hx => dispatchRest_om _ _ _ _ hx) ht
    · exact ht
  · exact ht

@[simp] theorem truncateFrame_om (h : Nat) (s : State) {u : Kept} (hu : OM u (kept s)) : OM u (kept (truncateFrame h s)) := by
  have g : ∀ (n : Nat) (G : Frame → Frame) (S : Session → Session), OM u (kept (setSess (setFrame h n G s) h S)) := by
    intro n G S; simpa using hu
  have k : ∀ t n, kept { t with ingest := { t.ingest with trunc := n } } = kept t := fun t n => by simp
  unfold truncateFrame
  split
  · exact hu
  · split
    · exact hu
    · dsimp only
      rw [notice_kept, stat_kept, k]
      exact dispatchRest_om _ _ _ _ (g _ _ _)

@[simp] theorem truncateDue_om (s : State) {u : Kept} (h : OM u (kept s)) : OM u (kept (truncateDue s)) := by
  unfold truncateDue
  exact OM.foldl (fun _ _ ht => truncateFrame_om _ _ ht) h

theorem execFrameTruncate_om (handle : Nat) (s : State) : KeepsMem (execFrameTruncate handle s) (kept s) := by
  unfold execFrameTruncate
  apply KeepsMem.live (OM.refl _)
  split
  · exact truncateFrame_om _ _ (OM.refl _)
  · exact OM.refl _

@[simp] theorem startShadow_kept (n : Nat) (s : State) : kept (startShadow n s) = kept s := by
  unfold startShadow; (try dsimp only); (repeat' split) <;> (first | rfl | (simp [*]; done) | (simp; rfl))

@[simp] theorem dispatchShadows_kept (s : State) : kept (dispatchShadows s) = kept s := by
  unfold dispatchShadows; (try dsimp only); (repeat' split) <;> (first | rfl | (simp [*]; done) | (simp; rfl))

@[simp] theorem setShadow_kept (n num k : Nat) (g : DecBand → DecBand) (s : State) : kept (setShadow n num k g s) = kept s := by
  unfold setShadow; (try dsimp only); (repeat' split) <;> (first | rfl | (simp [*]; done) | (simp; rfl))

@[simp] theorem startRow_kept (u : UnitRef) (q : Nat) (s : State) : kept (startRow u q s) = kept s := by
  unfold startRow; (try dsimp only); (repeat' split) <;> (first | rfl | (simp [*]; done) | (simp; rfl))

theorem execWorkUnitStart_kept (u_0 : UnitRef) (s_1 : State) : Keeps (execWorkUnitStart u_0 s_1) s_1 := by
  unfold execWorkUnitStart
  apply Keeps.live; simp only; (repeat' split) <;> simp [*]

@[simp] theorem startEnt_kept (t : TileRef) (q engine : Nat) (s : State) : kept (startEnt t q engine s) = kept s := by
  unfold startEnt; (try dsimp only); (repeat' split) <;> (first | rfl | (simp [*]; done) | (simp; rfl))

theorem execTileRowEntropyStart_kept (t_0 : TileRef) (engine_1 : Nat) (s_2 : State) : Keeps (execTileRowEntropyStart t_0 engine_1 s_2) s_2 := by
  unfold execTileRowEntropyStart
  apply Keeps.live; simp only; (repeat' split) <;> simp [*]

@[simp] theorem freeEnt_kept (t_0 : TileRef) (s_1 : State) : kept (freeEnt t_0 s_1) = kept s_1 := by
  unfold freeEnt; simp

@[simp] theorem settleCoded_kept (h_0 : Nat) (num_1 : Nat) (k_2 : Nat) (s_3 : State) : kept (settleCoded h_0 num_1 k_2 s_3) = kept s_3 := by
  (unfold settleCoded; repeat' split) <;> simp [*]

@[simp] theorem cancelNext_kept (h num k : Nat) (s : State) : kept (cancelNext h num k s) = kept s := by
  unfold cancelNext; (try dsimp only); (repeat' split) <;> (first | rfl | (simp [*]; done) | (simp; rfl))

theorem execTileRowCoded_kept (t_0 : TileRef) (res_1 : TileResult) (s_2 : State) : Keeps (execTileRowCoded t_0 res_1 s_2) s_2 := by
  unfold execTileRowCoded
  apply Keeps.live; simp only; (repeat' split) <;> simp [*]

@[simp] theorem deadlines_kept (s : State) : kept (deadlines s) = kept s := by
  unfold deadlines
  simp only
  rw [kept_foldl _ (by intro s a; simp)]
  simp

end Sys2Proof.Machine
end

