-- ==== Sys2Proof/Laws/KeptCommit.lean ====
section
/-! SUPPORT. What the definitions of Machine/Commit.lean keep of the state. -/

namespace Sys2Proof.Machine
open Sys2Proof

@[simp] theorem replayNext_kept (h_0 : Nat) (num_1 : Nat) (k_2 : Nat) (s_3 : State) : kept (replayNext h_0 num_1 k_2 s_3) = kept s_3 := by
  (unfold replayNext; repeat' split) <;> simp [*]

@[simp] theorem accountBand_kept (h num k : Nat) (b : Band) (r : Result) (c : Coded) (s : State) : kept (accountBand h num k b r c s) = kept s := by
  unfold accountBand
  split
  · rfl
  · extract_lets full pad bits src rate0 inFb cI again s1 s2 s3 src2 s4 s5 s6 src3 s7
    have h1 : kept s1 = kept s := by simp [s1]
    have h2 : kept s2 = kept s := by simp [s2, h1]
    have h3 : kept s3 = kept s := by simp [s3, h2]
    have h4 : kept s4 = kept s := by simp [s4, src2, h3]
    have h5 : kept s5 = kept s := by simp [s5, h4]
    have h6 : kept s6 = kept s := by simp [s6, h5]
    have h7 : kept s7 = kept s := by simp only [s7, src3]; (repeat' split) <;> simp [h6]
    split <;> simp [h7]

@[simp] theorem fillExtents_kept (h num n : Nat) (s : State) : kept (fillExtents h num n s) = kept s := by
  induction n generalizing s with
  | zero => rfl
  | succ n ih => unfold fillExtents; (repeat' split) <;> (try simp [ih]) <;> ((repeat (first | with_reducible rfl | (simp; done) | refine Eq.trans (allocate_kept' (by assumption)) ?_)); done)

@[simp] theorem finalise_om (h num k q : Nat) (res : BandResult) (s : State) {u : Kept} (hu : OM u (kept s)) : OM u (kept (finalise h num k q res s)) := by
  unfold finalise
  split
  · exact hu
  · dsimp only
    split
    · simpa using hu
    · rw [setSess_kept]
      exact writeMotion_om _ _ _ _ (writeUnits_om _ _ _ _ (by simpa using hu))

@[simp] theorem releasePayload_om (h num : Nat) (data : List Byte) (s : State) {u : Kept} (hu : OM u (kept s)) : OM u (kept (releasePayload h num data s).2) := by
  unfold releasePayload
  dsimp only
  split
  · exact hu
  · split
    · exact hu
    · split
      · rename_i e
        exact storeMem_om _ _ _ (by rw [allocate_kept' e]; exact hu)
      · rename_i e
        simpa [allocate_kept' e] using hu

@[simp] theorem claimFor_kept (who_0 : PoolReq) (w_1 : Option Word) (s_2 : State) : kept (claimFor who_0 w_1 s_2).2 = kept s_2 := by
  unfold claimFor; (try simp only []); (repeat' split) <;> (try simp) <;> ((repeat (first | with_reducible rfl | (simp; done) | refine Eq.trans (claimBuf_kept' (by assumption)) ?_)); done)

theorem claimFor_kept' {who_0 : PoolReq} {w_1 : Option Word} {s_2 : State}  {r t} (hq : (claimFor who_0 w_1 s_2) = (r, t)) : kept t = kept s_2 := by have h0 := claimFor_kept who_0 w_1 s_2; rw [hq] at h0; exact h0

@[simp] theorem sendMirror_kept (h : Nat) (r : BandRec) (rtp : Rtp) (s : State) : kept (sendMirror h r rtp s) = kept s := by
  (unfold sendMirror; repeat' split) <;> simp

@[simp] theorem mirrorRec_kept (h : Nat) (r : BandRec) (s : State) : kept (mirrorRec h r s) = kept s := by
  unfold mirrorRec
  split
  · rfl
  · dsimp only
    split <;> simp

@[simp] theorem hostRec_kept (h_0 : Nat) (r_1 : BandRec) (s_2 : State) : kept (hostRec h_0 r_1 s_2) = kept s_2 := by
  (unfold hostRec; simp; repeat' split) <;> simp [*]

@[simp] theorem recordBand_kept (h num k : Nat) (b : Band) (r : Result) (payload : Option Word) (bytes : Nat) (dropped : Bool) (res : BandResult) (units bits : Nat) (s : State) :
    kept (recordBand h num k b r payload bytes dropped res units bits s) = kept s := by
  unfold recordBand
  split
  · rfl
  · extract_lets o n t m flags rec0 s1 s2 s3 s4
    have h1 : kept s1 = kept s := by simp [s1]
    have h2 : kept s2 = kept s := by simp [s2, h1]
    have h3 : kept s3 = kept s := by simp [s3, h2]
    have h4 : kept s4 = kept s := by simp [s4, h3]
    (repeat' split) <;> simp [h4]

@[simp] theorem freeSource_kept (h : Nat) (x : Session) (f : Frame) (s : State) : kept (freeSource h x f s) = kept s := by
  unfold freeSource; (try dsimp only); (repeat' split) <;> (first | rfl | (simp [*]; done) | (simp; rfl))

@[simp] theorem dropFrame_kept (h_0 : Nat) (num_1 : Nat) (s_2 : State) : kept (dropFrame h_0 num_1 s_2) = kept s_2 := by
  (unfold dropFrame; repeat' split) <;> simp [*]

@[simp] theorem endFrame_kept (h_0 : Nat) (num_1 : Nat) (s_2 : State) : kept (endFrame h_0 num_1 s_2) = kept s_2 := by
  (unfold endFrame; repeat' split) <;> simp [*]

@[simp] theorem testNext_kept (h_0 : Nat) (num_1 : Nat) (k_2 : Nat) (s_3 : State) : kept (testNext h_0 num_1 k_2 s_3) = kept s_3 := by
  (unfold testNext; repeat' split) <;> simp [*]

@[simp] theorem freeAt_kept (h num k n branch : Nat) (s : State) : kept (freeAt h num k n branch s) = kept s := by
  unfold freeAt; (try dsimp only); (repeat' split) <;> (first | rfl | (simp [*]; done) | (simp; rfl))

@[simp] theorem rejectBand_kept (h num k : Nat) (codec : Nat) (s : State) : kept (rejectBand h num k codec s) = kept s := by
  unfold rejectBand; (try dsimp only); (repeat' split) <;> (first | rfl | (simp [*]; done) | (simp; rfl))

@[simp] theorem commitBand_om (h num k : Nat) (b : Band) (r : Result) (res : BandResult) (s : State) {u : Kept} (hu : OM u (kept s)) : OM u (kept (commitBand h num k b r res s)) := by
  unfold commitBand
  split
  · exact hu
  · extract_lets c pad s1 s2
    have h2 : OM u (kept s2) := finalise_om _ _ _ _ _ _ (by simpa [s1] using hu)
    rename_i x f _
    have h3 := releasePayload_om h num (c.front ++ c.bytes ++ fillerUnit x.stream.codec (pad / 8)) s2 h2
    generalize releasePayload h num (c.front ++ c.bytes ++ fillerUnit x.stream.codec (pad / 8)) s2 = p at *
    obtain ⟨⟨w, n⟩, s3⟩ := p
    dsimp only at h3 ⊢
    split <;> simpa using h3

@[simp] theorem checkBand_om (h : Nat) (x : Session) (res : BandResult) (s : State) {u : Kept} (hu : OM u (kept s)) : OM u (kept (checkBand h x res s)) := by
  unfold checkBand
  split
  · exact hu
  · split
    · exact hu
    · dsimp only
      split
      · simpa using hu
      · apply commitBand_om
        split
        · simpa using hu
        · exact hu

theorem execFallbackBandCommit_om (handle : Nat) (res : BandResult) (s : State) : KeepsMem (execFallbackBandCommit handle res s) (kept s) := by
  unfold execFallbackBandCommit Machine.onSession
  apply KeepsMem.live (OM.refl _)
  split
  · exact OM.refl _
  · dsimp only
    split
    · exact OM.refl _
    · split
      · exact commitBand_om _ _ _ _ _ _ _ (OM.of (by simp))
      · exact OM.refl _

@[simp] theorem paceFlows_kept (x_0 : Session) (s_1 : State) : kept (paceFlows x_0 s_1) = kept s_1 := by
  unfold paceFlows; simp

@[simp] theorem rephase_kept (h : Nat) (s : State) : kept (rephase h s) = kept s := by
  unfold rephase; (try dsimp only); (repeat' split) <;> (first | rfl | (simp [*]; done) | (simp; rfl))

@[simp] theorem boundaryStream_kept (h_0 : Nat) (s_1 : State) : kept (boundaryStream h_0 s_1) = kept s_1 := by
  (unfold boundaryStream; simp; repeat' split) <;> simp [*]

@[simp] theorem boundaryEffort_kept (h_0 : Nat) (s_1 : State) : kept (boundaryEffort h_0 s_1) = kept s_1 := by
  (unfold boundaryEffort; repeat' split) <;> simp [*]

theorem execBucketBoundary_kept (handle_0 : Nat) (s_1 : State) : Keeps (execBucketBoundary handle_0 s_1) s_1 := by
  unfold execBucketBoundary
  apply Keeps.live; simp only; (repeat' split) <;> simp [*]

theorem execFrameDone_kept (handle_0 : Nat) (s_1 : State) : Keeps (execFrameDone handle_0 s_1) s_1 := by
  unfold execFrameDone
  apply Keeps.live; simp only; (repeat' split) <;> simp [*]

theorem execBandDone_kept (handle_0 : Nat) (s_1 : State) : Keeps (execBandDone handle_0 s_1) s_1 := by
  unfold execBandDone
  apply Keeps.live; simp only; (repeat' split) <;> simp [*]

theorem execEffortLower_kept (handle_0 : Nat) (s_1 : State) : Keeps (execEffortLower handle_0 s_1) s_1 := by
  unfold execEffortLower
  apply Keeps.live; simp only; (repeat' split) <;> simp [*]

theorem execEffortRaise_kept (handle_0 : Nat) (s_1 : State) : Keeps (execEffortRaise handle_0 s_1) s_1 := by
  unfold execEffortRaise
  apply Keeps.live; simp only; (repeat' split) <;> simp [*]

end Sys2Proof.Machine
end

