-- ==== Sys2Proof/Laws/KeptSelfShadow.lean ====
section
/-! SUPPORT. What the definitions of Machine/SelfShadow.lean keep of the state. -/

namespace Sys2Proof.Machine
open Sys2Proof

@[simp] theorem retireByCheck_kept (q_0 : Nat) (h_1 : Nat) (s_2 : State) : kept (retireByCheck q_0 h_1 s_2) = kept s_2 := by
  unfold retireByCheck; simp

@[simp] theorem endSample_kept (h_0 : Nat) (s_1 : State) : kept (endSample h_0 s_1) = kept s_1 := by
  (unfold endSample; repeat' split) <;> simp [*]

@[simp] theorem abandonSample_kept (h_0 : Nat) (s_1 : State) : kept (abandonSample h_0 s_1) = kept s_1 := by
  (unfold abandonSample; repeat' split) <;> simp [*]

theorem execSelfShadowAbandon_kept (handle_0 : Nat) (s_1 : State) : Keeps (execSelfShadowAbandon handle_0 s_1) s_1 := by
  unfold execSelfShadowAbandon
  simp

theorem execSelfShadowCheck_kept (handle_0 : Nat) (first_1 : Verdict) (second_2 : Second) (s_3 : State) : Keeps (execSelfShadowCheck handle_0 first_1 second_2 s_3) s_3 := by
  unfold execSelfShadowCheck
  apply Keeps.live; simp only; (repeat' split) <;> simp [*]

end Sys2Proof.Machine
end

