-- ==== Sys2Proof/Laws/KeptNet.lean ====
section
/-! SUPPORT. What the definitions of Machine/Net.lean keep of the state. -/

namespace Sys2Proof.Machine
open Sys2Proof

@[simp] theorem setFlow_kept (s_0 : State) (i_1 : Nat) (g_2 : Flow → Flow) : kept (setFlow s_0 i_1 g_2) = kept s_0 := by
  unfold setFlow; simp

@[simp] theorem netCount_kept (off_0 : Nat) (k_1 : Nat) (s_2 : State) : kept (netCount off_0 k_1 s_2) = kept s_2 := by
  unfold netCount; simp

@[simp] theorem setPort_kept (s_0 : State) (p_1 : Nat) (g_2 : NetPort → NetPort) : kept (setPort s_0 p_1 g_2) = kept s_0 := by
  unfold setPort; simp

@[simp] theorem readClock_kept (p : Nat) (s : State) : kept (readClock p s).2 = kept s := by
  unfold readClock; (try dsimp only); (repeat' split) <;> (first | rfl | (simp [*]; done) | (simp; rfl))

@[simp] theorem countDrop_kept (i_0 : Nat) (n_1 : Nat) (s_2 : State) : kept (countDrop i_0 n_1 s_2) = kept s_2 := by
  unfold countDrop; simp

@[simp] theorem popPacket_kept (i_0 : Nat) (s_1 : State) : kept (popPacket i_0 s_1) = kept s_1 := by
  (unfold popPacket; repeat' split) <;> simp [*]

@[simp] theorem dropLate_kept (n i : Nat) (s : State) : kept (dropLate n i s) = kept s := by
  induction n generalizing s with
  | zero => simp [dropLate]
  | succ n ih => unfold dropLate; (repeat' split) <;> (try simp [ih]) <;> done

@[simp] theorem tagHead_kept (i_0 : Nat) (s_1 : State) : kept (tagHead i_0 s_1) = kept s_1 := by
  (unfold tagHead; repeat' split) <;> simp [*]

@[simp] theorem newHead_kept (i_0 : Nat) (s_1 : State) : kept (newHead i_0 s_1) = kept s_1 := by
  (unfold newHead; repeat' split) <;> simp [*]

theorem execShaperRefill_kept (s_0 : State) : Keeps (execShaperRefill s_0) s_0 := by
  unfold execShaperRefill
  simp

theorem execPolicerRefill_kept (s_0 : State) : Keeps (execPolicerRefill s_0) s_0 := by
  unfold execPolicerRefill
  simp

@[simp] theorem sendPacket_kept (i_0 : Nat) (f_1 : Flow) (t_2 : ℚ) (s_3 : State) : kept (sendPacket i_0 f_1 t_2 s_3) = kept s_3 := by
  (unfold sendPacket; repeat' split) <;> simp [*]

@[simp] theorem sendCtl_kept (p_0 : Nat) (c_1 : Ctl) (s_2 : State) : kept (sendCtl p_0 c_1 s_2) = kept s_2 := by
  (unfold sendCtl; repeat' split) <;> simp [*]

theorem execPortTxSelect_kept (port_0 : Nat) (s_1 : State) : Keeps (execPortTxSelect port_0 s_1) s_1 := by
  unfold execPortTxSelect
  apply Keeps.live; (try simp only []); (repeat' split) <;> (try simp)

@[simp] theorem pushCtl_kept (p_0 : Nat) (c_1 : Ctl) (s_2 : State) : kept (pushCtl p_0 c_1 s_2) = kept s_2 := by
  unfold pushCtl; simp

@[simp] theorem reportFlow_kept (i_0 : Nat) (s_1 : State) : kept (reportFlow i_0 s_1) = kept s_1 := by
  (unfold reportFlow; repeat' split) <;> simp [*]

theorem execSenderReportTimer_kept (s_0 : State) : Keeps (execSenderReportTimer s_0) s_0 := by
  unfold execSenderReportTimer
  simp

@[simp] theorem queueFlow_kept (r_0 : BandRec) (sizes_1 : List Nat) (seq_2 : BitVec 16) (roc_3 : Word) (i_4 : Nat) (s_5 : State) : kept (queueFlow r_0 sizes_1 seq_2 roc_3 i_4 s_5) = kept s_5 := by
  unfold queueFlow; (try simp only []); (repeat' split) <;> (try simp) <;> ((repeat (first | with_reducible rfl | (simp; done) | refine Eq.trans (reserveBeats_kept' (by assumption)) ?_ | refine Eq.trans (claimFor_kept' (by assumption)) ?_)); done)

theorem execPacketizeBand_kept (handle_0 : Nat) (pkts_1 : List Nat) (s_2 : State) : Keeps (execPacketizeBand handle_0 pkts_1 s_2) s_2 := by
  unfold execPacketizeBand
  apply Keeps.live; simp only; (repeat' split) <;> simp [*]

@[simp] theorem sweepKeys_kept (s_0 : State) : kept (sweepKeys s_0) = kept s_0 := by
  unfold sweepKeys; simp

@[simp] theorem joinFlow_kept (i_0 : Nat) (n_1 : Nat) (fn_2 : Nat) (o_3 : AttachOps) (s_4 : State) : kept (joinFlow i_0 n_1 fn_2 o_3 s_4) = kept s_4 := by
  (unfold joinFlow; repeat' split) <;> simp [*]

theorem execAttachIngress_kept (h_0 : Hdr) (o_1 : IngressOps) (s_2 : State) : Keeps (execAttachIngress h_0 o_1 s_2) s_2 := by
  unfold execAttachIngress
  apply Keeps.live; simp only; (repeat' split) <;> simp [*]

@[simp] theorem bindRxq_kept (k : Nat) (o : RxqOps) (s : State) : kept (bindRxq k o s) = kept s := by
  unfold bindRxq; simp

theorem execBindRxQueue_kept (h_0 : Hdr) (o_1 : RxqOps) (s_2 : State) : Keeps (execBindRxQueue h_0 o_1 s_2) s_2 := by
  unfold execBindRxQueue
  apply Keeps.live; simp only; (repeat' split) <;> simp [*]

theorem execUnbindRxQueue_kept (h_0 : Hdr) (queue_1 : Nat) (pad_2 : Nat) (s_3 : State) : Keeps (execUnbindRxQueue h_0 queue_1 pad_2 s_3) s_3 := by
  unfold execUnbindRxQueue
  apply Keeps.live; simp only; (repeat' split) <;> simp [*]

@[simp] theorem startDetach_kept (i_0 : Nat) (hdr_1 : Option Hdr) (s_2 : State) : kept (startDetach i_0 hdr_1 s_2) = kept s_2 := by
  unfold startDetach; simp

@[simp] theorem removeFlow_kept (i_0 : Nat) (s_1 : State) : kept (removeFlow i_0 s_1) = kept s_1 := by
  (unfold removeFlow; repeat' split) <;> simp [*]

theorem execDetachComplete_kept (flow_0 : Nat) (s_1 : State) : Keeps (execDetachComplete flow_0 s_1) s_1 := by
  unfold execDetachComplete
  apply Keeps.live; simp only; (repeat' split) <;> simp [*]

@[simp] theorem closeFlows_kept (n_0 : Nat) (s_1 : State) : kept (closeFlows n_0 s_1) = kept s_1 := by
  (unfold closeFlows; repeat' split) <;> simp [*]

@[simp] theorem rxqRaise_kept (fn_0 : Nat) (q_1 : Nat) (s_2 : State) : kept (rxqRaise fn_0 q_1 s_2) = kept s_2 := by
  (unfold rxqRaise; simp; repeat' split) <;> simp [*]

@[simp] theorem writeEntry_kept (fn : Nat) (addr : DWord) (n flow port flags : Nat) (data : List Byte) (s : State) :
    kept (writeEntry fn addr n flow port flags data s) = kept s := by
  unfold writeEntry; simp

@[simp] theorem toRxq_kept (fn q flow port flags : Nat) (data : List Byte) (s : State) :
    kept (toRxq fn q flow port flags data s).2 = kept s := by
  (unfold toRxq; repeat' split) <;> simp

theorem execRxqRaiseHoldoff_kept (fn_0 : Nat) (queue_1 : Nat) (s_2 : State) : Keeps (execRxqRaiseHoldoff fn_0 queue_1 s_2) s_2 := by
  unfold execRxqRaiseHoldoff
  apply Keeps.live; simp only; (repeat' split) <;> simp [*]

theorem execLinkStateChange_kept (port_0 : Nat) (up_1 : Bool) (s_2 : State) : Keeps (execLinkStateChange port_0 up_1 s_2) s_2 := by
  unfold execLinkStateChange
  simp

@[simp] theorem netRefuse_kept (code_0 : Code) (s_1 : State) : kept (netRefuse code_0 s_1) = kept s_1 := by
  unfold netRefuse; simp

theorem execNetCtrlWrite_kept (value_0 : Word) (s_1 : State) : KeepsCore (execNetCtrlWrite value_0 s_1) s_1 := by
  unfold execNetCtrlWrite
  apply KeepsCore.blockWrite; intro s; (try simp only []); (repeat' split) <;> simp [*]

@[simp] theorem execNetCtrlWrite_keeps {value_0 : Word} {s_1 : State} {u : State}  (hu : coreOf s_1 = coreOf u) : KeepsCore (execNetCtrlWrite value_0 s_1) u := KeepsCore.trans (execNetCtrlWrite_kept value_0 s_1) hu

@[simp] theorem portCfg_kept (p_0 : Nat) (value_1 : Word) (s_2 : State) : kept (portCfg p_0 value_1 s_2) = kept s_2 := by
  unfold portCfg; simp

theorem execNetPortCfgWrite_kept (port_0 : Nat) (value_1 : Word) (s_2 : State) : Keeps (execNetPortCfgWrite port_0 value_1 s_2) s_2 := by
  unfold execNetPortCfgWrite
  simp

@[simp] theorem execNetPortCfgWrite_keeps {port_0 : Nat} {value_1 : Word} {s_2 : State} {u : State}  (hu : kept s_2 = kept u) : Keeps (execNetPortCfgWrite port_0 value_1 s_2) u := Keeps.trans (execNetPortCfgWrite_kept port_0 value_1 s_2) hu

@[simp] theorem portAddr_kept (p_0 : Nat) (g_1 : NetPort → NetPort) (s_2 : State) : kept (portAddr p_0 g_1 s_2) = kept s_2 := by
  unfold portAddr; simp

@[simp] theorem latchClocks_kept (s_0 : State) : kept (latchClocks s_0) = kept s_0 := by
  unfold latchClocks; simp

theorem execNetPtpLatch_kept (value_0 : Word) (s_1 : State) : Keeps (execNetPtpLatch value_0 s_1) s_1 := by
  unfold execNetPtpLatch
  simp

@[simp] theorem execNetPtpLatch_keeps {value_0 : Word} {s_1 : State} {u : State}  (hu : kept s_1 = kept u) : Keeps (execNetPtpLatch value_0 s_1) u := Keeps.trans (execNetPtpLatch_kept value_0 s_1) hu

theorem execPpsInEdge_kept (port_0 : Nat) (s_1 : State) : Keeps (execPpsInEdge port_0 s_1) s_1 := by
  unfold execPpsInEdge
  simp

theorem execPpsOutSecond_kept (port_0 : Nat) (s_1 : State) : Keeps (execPpsOutSecond port_0 s_1) s_1 := by
  unfold execPpsOutSecond
  simp

end Sys2Proof.Machine
end

