-- ==== Sys2Proof/Laws/KeptRecord.lean ====
section
/-! SUPPORT. What the definitions of Machine/Record.lean keep of the state. -/

namespace Sys2Proof.Machine
open Sys2Proof

@[simp] theorem writeRecord_om (n : Nat) (s : State) {u : Kept} (h : OM u (kept s)) : OM u (kept (writeRecord n s)) := by
  unfold writeRecord; (try dsimp only); (repeat' split) <;> first | with_reducible assumption | (simp (maxDischargeDepth := 30) [*]; done) | (refine OM.foldl (fun t a ht => ?_) ?_ <;> first | with_reducible assumption | (simp (maxDischargeDepth := 30) [*]; done))

theorem execSessCtxCopyDone_kept (s_0 : State) : Keeps (execSessCtxCopyDone s_0) s_0 := by
  unfold execSessCtxCopyDone
  apply Keeps.live; simp only; (repeat' split) <;> simp [*]

end Sys2Proof.Machine
end

