-- ==== Sys2Proof/Laws/KeptSessions.lean ====
section
/-! SUPPORT. What the definitions of Machine/Sessions.lean keep of the state. -/

namespace Sys2Proof.Machine
open Sys2Proof

@[simp] theorem setFences_kept (fn_0 : Nat) (l_1 : List (Nat × Nat)) (s_2 : State) : kept (setFences fn_0 l_1 s_2) = kept s_2 := by
  unfold setFences; simp

@[simp] theorem freeFence_kept (n_0 : Nat) (s_1 : State) : kept (freeFence n_0 s_1) = kept s_1 := by
  (unfold freeFence; repeat' split) <;> simp [*]

@[simp] theorem forward_kept (n index : Nat) (cmd : FwdCmd) (i : Instr) (s : State) : kept (forward n index cmd i s) = kept s := by
  unfold forward; simp

@[simp] theorem forwardOr_kept (n : Nat) (x : Session) (index : Nat) (cmd : FwdCmd) (i : Instr) (apply : State → State) (s : State) (happly : ∀ y0, kept (apply y0) = kept y0) : kept (forwardOr n x index cmd i apply s) = kept s := by
  unfold forwardOr; (repeat' split) <;> simp [*]

@[simp] theorem onPrimary_kept (h_0 : Hdr) (opcode_1 : Nat) (s_2 : State) (f_3 : Nat → Session → State → State) (hf_3 : ∀ y0 y1 y2, kept (f_3 y0 y1 y2) = kept y2) : kept (onPrimary h_0 opcode_1 s_2 f_3) = kept s_2 := by
  (unfold onPrimary; repeat' split) <;> simp [*]

@[simp] theorem onPrimaryPf_kept (h_0 : Hdr) (opcode_1 : Nat) (s_2 : State) (f_3 : Nat → Session → State → State) (hf_3 : ∀ y0 y1 y2, kept (f_3 y0 y1 y2) = kept y2) : kept (onPrimaryPf h_0 opcode_1 s_2 f_3) = kept s_2 := by
  (unfold onPrimaryPf; repeat' split) <;> simp [*]

@[simp] theorem addSession_om (n : Nat) (x : Session) (s : State) {u : Kept} (h : OM u (kept s)) : OM u (kept (addSession n x s)) := by
  unfold addSession
  apply writeRecord_om
  split <;> simpa using h

@[simp] theorem openAt_om (n : Nat) (h : Hdr) (o : OpenOps) (s : State) {u : Kept} (hu : OM u (kept s)) : OM u (kept (openAt n h o s)) := by
  unfold openAt
  split
  · unfold when; split <;> simpa using hu
  · rw [complete_kept]
    exact addSession_om _ _ _ (by simpa using hu)

theorem execOpenSession_om (h : Hdr) (o : OpenOps) (s : State) : KeepsMem (execOpenSession h o s) (kept s) := by
  unfold execOpenSession Machine.sessionCmd
  apply KeepsMem.live (OM.refl _)
  dsimp only
  (repeat' split) <;> first | with_reducible exact OM.refl _ | exact openAt_om _ _ _ _ (OM.refl _) | exact OM.of (by simp)

@[simp] theorem applyConfigureStream_kept (n_0 : Nat) (o_1 : StreamOps) (s_2 : State) : kept (applyConfigureStream n_0 o_1 s_2) = kept s_2 := by
  unfold applyConfigureStream; simp

theorem execConfigureStream_kept (h_0 : Hdr) (o_1 : StreamOps) (pad_2 : Nat) (s_3 : State) : Keeps (execConfigureStream h_0 o_1 pad_2 s_3) s_3 := by
  unfold execConfigureStream
  apply sessionCmd_kept; intro s; apply onPrimary_kept; intro n x s; (try simp only []); (repeat' split) <;> (try simp)

@[simp] theorem execConfigureStream_keeps {h_0 : Hdr} {o_1 : StreamOps} {pad_2 : Nat} {s_3 : State} {u : State}  (hu : kept s_3 = kept u) : Keeps (execConfigureStream h_0 o_1 pad_2 s_3) u := Keeps.trans (execConfigureStream_kept h_0 o_1 pad_2 s_3) hu

theorem execConfigureRate_kept (h_0 : Hdr) (o_1 : RateOps) (s_2 : State) : Keeps (execConfigureRate h_0 o_1 s_2) s_2 := by
  unfold execConfigureRate
  apply sessionCmd_kept; intro s; apply onPrimary_kept; intro n x s; (try simp only []); (repeat' split) <;> (try simp)

@[simp] theorem execConfigureRate_keeps {h_0 : Hdr} {o_1 : RateOps} {s_2 : State} {u : State}  (hu : kept s_2 = kept u) : Keeps (execConfigureRate h_0 o_1 s_2) u := Keeps.trans (execConfigureRate_kept h_0 o_1 s_2) hu

theorem execConfigureResilience_kept (h_0 : Hdr) (o_1 : ResOps) (s_2 : State) : Keeps (execConfigureResilience h_0 o_1 s_2) s_2 := by
  unfold execConfigureResilience
  apply Keeps.live; simp only; (repeat' split) <;> simp [*]

@[simp] theorem execConfigureResilience_keeps {h_0 : Hdr} {o_1 : ResOps} {s_2 : State} {u : State}  (hu : kept s_2 = kept u) : Keeps (execConfigureResilience h_0 o_1 s_2) u := Keeps.trans (execConfigureResilience_kept h_0 o_1 s_2) hu

@[simp] theorem applyHost_kept (n_0 : Nat) (h_1 : Hdr) (o_2 : HtOps) (s_3 : State) : kept (applyHost n_0 h_1 o_2 s_3) = kept s_3 := by
  unfold applyHost; simp

theorem execConfigureHostTransport_kept (h_0 : Hdr) (o_1 : HtOps) (s_2 : State) : Keeps (execConfigureHostTransport h_0 o_1 s_2) s_2 := by
  unfold execConfigureHostTransport
  apply sessionCmd_kept; intro s; apply onPrimary_kept; intro n x s; (try simp only []); (repeat' split) <;> (try simp)

@[simp] theorem execConfigureHostTransport_keeps {h_0 : Hdr} {o_1 : HtOps} {s_2 : State} {u : State}  (hu : kept s_2 = kept u) : Keeps (execConfigureHostTransport h_0 o_1 s_2) u := Keeps.trans (execConfigureHostTransport_kept h_0 o_1 s_2) hu

@[simp] theorem applyBounds_kept (n_0 : Nat) (o_1 : BoundsOps) (s_2 : State) : kept (applyBounds n_0 o_1 s_2) = kept s_2 := by
  unfold applyBounds; simp

theorem execSetRateBounds_kept (h_0 : Hdr) (o_1 : BoundsOps) (s_2 : State) : Keeps (execSetRateBounds h_0 o_1 s_2) s_2 := by
  unfold execSetRateBounds
  apply sessionCmd_kept; intro s; apply onPrimary_kept; intro n x s; (try simp only []); (repeat' split) <;> (try simp)

@[simp] theorem execSetRateBounds_keeps {h_0 : Hdr} {o_1 : BoundsOps} {s_2 : State} {u : State}  (hu : kept s_2 = kept u) : Keeps (execSetRateBounds h_0 o_1 s_2) u := Keeps.trans (execSetRateBounds_kept h_0 o_1 s_2) hu

@[simp] theorem feedback_kept (h_0 : Hdr) (ok_1 : Session → Bool) (f_2 : Nat → State → State) (s_3 : State) (hf_2 : ∀ y0 y1, kept (f_2 y0 y1) = kept y1) : kept (feedback h_0 ok_1 f_2 s_3) = kept s_3 := by
  (unfold feedback; repeat' split) <;> simp [*]

theorem execFeedbackAck_kept (h_0 : Hdr) (frame_1 : Nat) (pad_2 : Nat) (s_3 : State) : Keeps (execFeedbackAck h_0 frame_1 pad_2 s_3) s_3 := by
  unfold execFeedbackAck
  simp

@[simp] theorem execFeedbackAck_keeps {h_0 : Hdr} {frame_1 : Nat} {pad_2 : Nat} {s_3 : State} {u : State}  (hu : kept s_3 = kept u) : Keeps (execFeedbackAck h_0 frame_1 pad_2 s_3) u := Keeps.trans (execFeedbackAck_kept h_0 frame_1 pad_2 s_3) hu

theorem execFeedbackLoss_kept (h_0 : Hdr) (frame_1 : Nat) (pad_2 : Nat) (s_3 : State) : Keeps (execFeedbackLoss h_0 frame_1 pad_2 s_3) s_3 := by
  unfold execFeedbackLoss
  simp

@[simp] theorem execFeedbackLoss_keeps {h_0 : Hdr} {frame_1 : Nat} {pad_2 : Nat} {s_3 : State} {u : State}  (hu : kept s_3 = kept u) : Keeps (execFeedbackLoss h_0 frame_1 pad_2 s_3) u := Keeps.trans (execFeedbackLoss_kept h_0 frame_1 pad_2 s_3) hu

theorem execFeedbackKeyRequest_kept (h_0 : Hdr) (pad_1 : Nat) (s_2 : State) : Keeps (execFeedbackKeyRequest h_0 pad_1 s_2) s_2 := by
  unfold execFeedbackKeyRequest
  simp

@[simp] theorem execFeedbackKeyRequest_keeps {h_0 : Hdr} {pad_1 : Nat} {s_2 : State} {u : State}  (hu : kept s_2 = kept u) : Keeps (execFeedbackKeyRequest h_0 pad_1 s_2) u := Keeps.trans (execFeedbackKeyRequest_kept h_0 pad_1 s_2) hu

theorem execFeedbackRateReport_kept (h_0 : Hdr) (loss_1 : Nat) (est_2 : Nat) (pad_3 : Nat) (s_4 : State) : Keeps (execFeedbackRateReport h_0 loss_1 est_2 pad_3 s_4) s_4 := by
  unfold execFeedbackRateReport
  simp

@[simp] theorem execFeedbackRateReport_keeps {h_0 : Hdr} {loss_1 : Nat} {est_2 : Nat} {pad_3 : Nat} {s_4 : State} {u : State}  (hu : kept s_4 = kept u) : Keeps (execFeedbackRateReport h_0 loss_1 est_2 pad_3 s_4) u := Keeps.trans (execFeedbackRateReport_kept h_0 loss_1 est_2 pad_3 s_4) hu

@[simp] theorem attachAt_kept (i_0 : Nat) (n_1 : Nat) (h_2 : Hdr) (o_3 : AttachOps) (s_4 : State) : kept (attachAt i_0 n_1 h_2 o_3 s_4) = kept s_4 := by
  (unfold attachAt; simp; repeat' split) <;> simp [*]

theorem execAttachReceiver_kept (h_0 : Hdr) (o_1 : AttachOps) (s_2 : State) : Keeps (execAttachReceiver h_0 o_1 s_2) s_2 := by
  unfold execAttachReceiver
  apply sessionCmd_kept; intro s; apply onPrimary_kept; intro n x s; (try simp only []); (repeat' split) <;> (try simp)

@[simp] theorem execAttachReceiver_keeps {h_0 : Hdr} {o_1 : AttachOps} {s_2 : State} {u : State}  (hu : kept s_2 = kept u) : Keeps (execAttachReceiver h_0 o_1 s_2) u := Keeps.trans (execAttachReceiver_kept h_0 o_1 s_2) hu

theorem execDetachReceiver_kept (h_0 : Hdr) (flow_1 : Nat) (pad_2 : Nat) (s_3 : State) : Keeps (execDetachReceiver h_0 flow_1 pad_2 s_3) s_3 := by
  unfold execDetachReceiver
  apply Keeps.live; simp only; (repeat' split) <;> simp [*]

@[simp] theorem setPending_kept (n_0 : Nat) (kind_1 : Nat) (h_2 : Option Hdr) (prior_3 : Option (Nat × Hdr)) (s_4 : State) : kept (setPending n_0 kind_1 h_2 prior_3 s_4) = kept s_4 := by
  unfold setPending; simp

theorem execPark_kept (h_0 : Hdr) (pad_1 : Nat) (s_2 : State) : Keeps (execPark h_0 pad_1 s_2) s_2 := by
  unfold execPark
  apply sessionCmd_kept; intro s; apply onPrimaryPf_kept; intro n x s; (try simp only []); (repeat' split) <;> (try simp)

@[simp] theorem execPark_keeps {h_0 : Hdr} {pad_1 : Nat} {s_2 : State} {u : State}  (hu : kept s_2 = kept u) : Keeps (execPark h_0 pad_1 s_2) u := Keeps.trans (execPark_kept h_0 pad_1 s_2) hu

theorem execParkCold_kept (h_0 : Hdr) (pad_1 : Nat) (s_2 : State) : Keeps (execParkCold h_0 pad_1 s_2) s_2 := by
  unfold execParkCold
  apply sessionCmd_kept; intro s; apply onPrimaryPf_kept; intro n x s; (try simp only []); (repeat' split) <;> (try simp)

@[simp] theorem execParkCold_keeps {h_0 : Hdr} {pad_1 : Nat} {s_2 : State} {u : State}  (hu : kept s_2 = kept u) : Keeps (execParkCold h_0 pad_1 s_2) u := Keeps.trans (execParkCold_kept h_0 pad_1 s_2) hu

@[simp] theorem applyResume_kept (n_0 : Nat) (h_1 : Hdr) (s_2 : State) : kept (applyResume n_0 h_1 s_2) = kept s_2 := by
  unfold applyResume; simp

theorem execResume_kept (h_0 : Hdr) (pad_1 : Nat) (s_2 : State) : Keeps (execResume h_0 pad_1 s_2) s_2 := by
  unfold execResume
  apply sessionCmd_kept; intro s; apply onPrimaryPf_kept; intro n x s; (try simp only []); (repeat' split) <;> (try simp)

@[simp] theorem execResume_keeps {h_0 : Hdr} {pad_1 : Nat} {s_2 : State} {u : State}  (hu : kept s_2 = kept u) : Keeps (execResume h_0 pad_1 s_2) u := Keeps.trans (execResume_kept h_0 pad_1 s_2) hu

@[simp] theorem applyClose_kept (n_0 : Nat) (h_1 : Hdr) (s_2 : State) : kept (applyClose n_0 h_1 s_2) = kept s_2 := by
  (unfold applyClose; repeat' split) <;> simp [*]

theorem execClose_kept (h_0 : Hdr) (pad_1 : Nat) (s_2 : State) : Keeps (execClose h_0 pad_1 s_2) s_2 := by
  unfold execClose
  apply sessionCmd_kept; intro s; apply onPrimaryPf_kept; intro n x s; (try simp only []); (repeat' split) <;> (try simp)

@[simp] theorem execClose_keeps {h_0 : Hdr} {pad_1 : Nat} {s_2 : State} {u : State}  (hu : kept s_2 = kept u) : Keeps (execClose h_0 pad_1 s_2) u := Keeps.trans (execClose_kept h_0 pad_1 s_2) hu

@[simp] theorem replaceIdle_kept (n_0 : Nat) (s_1 : State) : kept (replaceIdle n_0 s_1) = kept s_1 := by
  (unfold replaceIdle; repeat' split) <;> simp [*]

@[simp] theorem freeRefs_kept (n_0 : Nat) (s_1 : State) : kept (freeRefs n_0 s_1) = kept s_1 := by
  (unfold freeRefs; repeat' split) <;> simp [*]

@[simp] theorem dropAu_kept (n_0 : Nat) (a_1 : Au) (s_2 : State) : kept (dropAu n_0 a_1 s_2) = kept s_2 := by
  unfold dropAu; simp

@[simp] theorem releaseAll_kept (n : Nat) (s : State) : kept (releaseAll n s) = kept s := by
  unfold releaseAll
  split
  · rfl
  · simp only [unchargeSession_kept, freeRefs_kept, unbind_kept]
    rw [kept_foldl _ (by intro s a; simp), kept_foldl _ (by intro s a; simp), dropAll_kept, kept_foldl _ (by intro s a; simp)]
    split
    · rw [kept_foldl _ (by intro s a; split <;> simp), kept_foldl _ (by intro s a; simp), freeWork_kept]
    · rw [kept_foldl _ (by intro s a; split <;> simp), kept_foldl _ (by intro s a; split <;> simp), kept_foldl _ (by intro s a; simp), freeWork_kept]

@[simp] theorem closeSession_kept (n_0 : Nat) (s_1 : State) : kept (closeSession n_0 s_1) = kept s_1 := by
  (unfold closeSession; repeat' split) <;> simp [*]

theorem execCloseComplete_kept (handle_0 : Nat) (s_1 : State) : Keeps (execCloseComplete handle_0 s_1) s_1 := by
  unfold execCloseComplete
  apply Keeps.live; simp only; (repeat' split) <;> simp [*]

@[simp] theorem parkSession_kept (n_0 : Nat) (cold_1 : Bool) (s_2 : State) : kept (parkSession n_0 cold_1 s_2) = kept s_2 := by
  unfold parkSession; simp

theorem execParkComplete_kept (handle_0 : Nat) (s_1 : State) : Keeps (execParkComplete handle_0 s_1) s_1 := by
  unfold execParkComplete
  apply Keeps.live; simp only; (repeat' split) <;> simp [*]

@[simp] theorem refuseResume_kept (n_0 : Nat) (h_1 : Option Hdr) (code_2 : Code) (s_3 : State) : kept (refuseResume n_0 h_1 code_2 s_3) = kept s_3 := by
  (unfold refuseResume; repeat' split) <;> simp [*]

theorem execResumeComplete_kept (handle_0 : Nat) (s_1 : State) : Keeps (execResumeComplete handle_0 s_1) s_1 := by
  unfold execResumeComplete
  apply Keeps.live; simp only; (repeat' split) <;> simp [*]

theorem execIdleLimitReached_kept (handle_0 : Nat) (s_1 : State) : Keeps (execIdleLimitReached handle_0 s_1) s_1 := by
  unfold execIdleLimitReached
  apply Keeps.live; simp only; (repeat' split) <;> simp [*]

@[simp] theorem sessRefuse_kept (code_0 : Code) (s_1 : State) : kept (sessRefuse code_0 s_1) = kept s_1 := by
  unfold sessRefuse; simp

theorem execSessCtrlWrite_kept (value_0 : Word) (s_1 : State) : KeepsCore (execSessCtrlWrite value_0 s_1) s_1 := by
  unfold execSessCtrlWrite
  apply KeepsCore.blockWrite; intro s; (try simp only []); (repeat' split) <;> simp [*]

@[simp] theorem execSessCtrlWrite_keeps {value_0 : Word} {s_1 : State} {u : State}  (hu : coreOf s_1 = coreOf u) : KeepsCore (execSessCtrlWrite value_0 s_1) u := KeepsCore.trans (execSessCtrlWrite_kept value_0 s_1) hu

theorem execSessDepotWmWrite_kept (which_0 : Nat) (value_1 : Word) (s_2 : State) : KeepsCore (execSessDepotWmWrite which_0 value_1 s_2) s_2 := by
  unfold execSessDepotWmWrite
  apply KeepsCore.blockWrite; intro s; (try simp only []); (repeat' split) <;> simp [*]

@[simp] theorem execSessDepotWmWrite_keeps {which_0 : Nat} {value_1 : Word} {s_2 : State} {u : State}  (hu : coreOf s_2 = coreOf u) : KeepsCore (execSessDepotWmWrite which_0 value_1 s_2) u := KeepsCore.trans (execSessDepotWmWrite_kept which_0 value_1 s_2) hu

theorem execSessCtxSelWrite_kept (value_0 : Word) (s_1 : State) : Keeps (execSessCtxSelWrite value_0 s_1) s_1 := by
  unfold execSessCtxSelWrite
  simp

@[simp] theorem execSessCtxSelWrite_keeps {value_0 : Word} {s_1 : State} {u : State}  (hu : kept s_1 = kept u) : Keeps (execSessCtxSelWrite value_0 s_1) u := Keeps.trans (execSessCtxSelWrite_kept value_0 s_1) hu

end Sys2Proof.Machine
end

