-- ==== Sys2Proof/Laws/KeptQuarters.lean ====
section
/-! SUPPORT. What the definitions of Machine/Quarters.lean keep of the state. -/

namespace Sys2Proof.Machine
open Sys2Proof

@[simp] theorem planRefuse_kept (code_0 : Code) (s_1 : State) : kept (planRefuse code_0 s_1) = kept s_1 := by
  unfold planRefuse; simp

@[simp] theorem startStage_kept (addr_0 : DWord) (len_1 : Nat) (cmd_2 : Option Hdr) (s_3 : State) : kept (startStage addr_0 len_1 cmd_2 s_3) = kept s_3 := by
  unfold startStage; simp

theorem execPlanStage_kept (s_0 : State) : Keeps (execPlanStage s_0) s_0 := by
  unfold execPlanStage
  simp

@[simp] theorem execPlanStage_keeps {s_0 : State} {u : State}  (hu : kept s_0 = kept u) : Keeps (execPlanStage s_0) u := Keeps.trans (execPlanStage_kept s_0) hu

theorem execPlanLoad_kept (h_0 : Hdr) (addr_1 : DWord) (len_2 : Nat) (pad_3 : Nat) (s_4 : State) : Keeps (execPlanLoad h_0 addr_1 len_2 pad_3 s_4) s_4 := by
  unfold execPlanLoad
  apply Keeps.live; simp only; (repeat' split) <;> simp [*]

theorem execPlanDiscard_kept (s_0 : State) : Keeps (execPlanDiscard s_0) s_0 := by
  unfold execPlanDiscard
  simp

@[simp] theorem execPlanDiscard_keeps {s_0 : State} {u : State}  (hu : kept s_0 = kept u) : Keeps (execPlanDiscard s_0) u := Keeps.trans (execPlanDiscard_kept s_0) hu

@[simp] theorem endStage_kept (code_0 : Code) (img_1 : Option PlanImage) (s_2 : State) : kept (endStage code_0 img_1 s_2) = kept s_2 := by
  (unfold endStage; simp; repeat' split) <;> simp [*]

theorem execPlanCopyDone_om (bytes : Option (List Byte)) (s : State) : KeepsMem (execPlanCopyDone bytes s) (kept s) := by
  unfold execPlanCopyDone
  apply KeepsMem.live (OM.refl _)
  dsimp only
  split
  · exact OM.refl _
  · split
    · exact OM.of (by simp)
    · split
      · apply OM.write; exact OM.of (by simp)
      · exact OM.refl _

@[simp] theorem checkStaged_kept (s : State) : kept (checkStaged s) = kept s := by
  unfold checkStaged; (try dsimp only); (repeat' split) <;> (first | with_reducible rfl | (simp [*]; done) | (simp; rfl))

@[simp] theorem readStaged_kept (line : Nat) (ecc : Ecc) (s : State) : kept (readStaged line ecc s) = kept s := by
  unfold readStaged; dsimp only; (repeat' split) <;> simp

theorem execPlanCheckDone_kept (line : Nat) (ecc : Ecc) (s : State) : Keeps (execPlanCheckDone line ecc s) s := by
  unfold execPlanCheckDone
  apply Keeps.live; split <;> simp

@[simp] theorem qtrRefuse_kept (q_0 : Nat) (code_1 : Code) (s_2 : State) : kept (qtrRefuse q_0 code_1 s_2) = kept s_2 := by
  unfold qtrRefuse; simp

@[simp] theorem enterLoading_kept (q_0 : Nat) (rezone_1 : Bool) (s_2 : State) : kept (enterLoading q_0 rezone_1 s_2) = kept s_2 := by
  (unfold enterLoading; repeat' split) <;> simp [*]

@[simp] theorem startDrain_kept (q_0 : Nat) (target_1 : Nat) (rezone_2 : Bool) (s_3 : State) : kept (startDrain q_0 target_1 rezone_2 s_3) = kept s_3 := by
  unfold startDrain; simp

@[simp] theorem startRezone_kept (q_0 : Nat) (s_1 : State) : kept (startRezone q_0 s_1) = kept s_1 := by
  unfold startRezone; simp

@[simp] theorem rezoneGo_kept (q_0 : Nat) (s_1 : State) : kept (rezoneGo q_0 s_1).2 = kept s_1 := by
  (unfold rezoneGo; repeat' split) <;> simp [*]

@[simp] theorem rezoneRetire_kept (q_0 : Nat) (s_1 : State) : kept (rezoneRetire q_0 s_1).2 = kept s_1 := by
  (unfold rezoneRetire; simp; repeat' split) <;> simp [*]

@[simp] theorem enterService_kept (q : Nat) (s : State) : kept (enterService q s) = kept s := by
  unfold enterService; (try dsimp only); (repeat' split) <;> (first | with_reducible rfl | (simp [*]; done) | (simp; rfl))

theorem execQtrRezoneGo_kept (quarter_0 : Nat) (s_1 : State) : Keeps (execQtrRezoneGo quarter_0 s_1) s_1 := by
  unfold execQtrRezoneGo
  simp

theorem execQtrRezoneRetire_kept (quarter_0 : Nat) (s_1 : State) : Keeps (execQtrRezoneRetire quarter_0 s_1) s_1 := by
  unfold execQtrRezoneRetire
  simp

@[simp] theorem rezoneCmd_kept (h_0 : Hdr) (quarter_1 : Nat) (pad_2 : Nat) (f_3 : State → Code × State) (s_4 : State) (hf_3 : ∀ y0, kept ((f_3 y0).2) = kept y0) : kept (rezoneCmd h_0 quarter_1 pad_2 f_3 s_4) = kept s_4 := by
  (unfold rezoneCmd; simp; repeat' split) <;> simp [*]

theorem execRezoneGo_kept (h_0 : Hdr) (quarter_1 : Nat) (pad_2 : Nat) (s_3 : State) : Keeps (execRezoneGo h_0 quarter_1 pad_2 s_3) s_3 := by
  unfold execRezoneGo
  apply Keeps.live; simp

theorem execRezoneRetire_kept (h_0 : Hdr) (quarter_1 : Nat) (pad_2 : Nat) (s_3 : State) : Keeps (execRezoneRetire h_0 quarter_1 pad_2 s_3) s_3 := by
  unfold execRezoneRetire
  apply Keeps.live; simp

theorem execQtrEnable_kept (quarter_0 : Nat) (s_1 : State) : Keeps (execQtrEnable quarter_0 s_1) s_1 := by
  unfold execQtrEnable
  simp

@[simp] theorem execQtrEnable_keeps {quarter_0 : Nat} {s_1 : State} {u : State}  (hu : kept s_1 = kept u) : Keeps (execQtrEnable quarter_0 s_1) u := Keeps.trans (execQtrEnable_kept quarter_0 s_1) hu

theorem execQtrDisable_kept (quarter_0 : Nat) (s_1 : State) : Keeps (execQtrDisable quarter_0 s_1) s_1 := by
  unfold execQtrDisable
  simp

@[simp] theorem execQtrDisable_keeps {quarter_0 : Nat} {s_1 : State} {u : State}  (hu : kept s_1 = kept u) : Keeps (execQtrDisable quarter_0 s_1) u := Keeps.trans (execQtrDisable_kept quarter_0 s_1) hu

theorem execQuarterClosingEdge_kept (quarter_0 : Nat) (s_1 : State) : Keeps (execQuarterClosingEdge quarter_0 s_1) s_1 := by
  unfold execQuarterClosingEdge
  apply Keeps.live; simp only; (repeat' split) <;> simp [*]

theorem execQuarterDrained_kept (quarter_0 : Nat) (s_1 : State) : Keeps (execQuarterDrained quarter_0 s_1) s_1 := by
  unfold execQuarterDrained
  simp

theorem execQuarterEnterTarget_kept (quarter_0 : Nat) (s_1 : State) : Keeps (execQuarterEnterTarget quarter_0 s_1) s_1 := by
  unfold execQuarterEnterTarget
  apply Keeps.live; simp only; (repeat' split) <;> simp [*]

@[simp] theorem extendMeas_kept (i_0 : Nat) (d_1 : BitVec 384) (s_2 : State) : kept (extendMeas i_0 d_1 s_2) = kept s_2 := by
  unfold extendMeas; simp

@[simp] theorem readiness_kept (s_0 : State) : kept (readiness s_0) = kept s_0 := by
  unfold readiness; simp

theorem execQuarterLoadDone_kept (quarter_0 : Nat) (ok_1 : Bool) (s_2 : State) : Keeps (execQuarterLoadDone quarter_0 ok_1 s_2) s_2 := by
  unfold execQuarterLoadDone
  simp

@[simp] theorem readyEngines_kept (q_0 : Nat) (s_1 : State) : kept (readyEngines q_0 s_1) = kept s_1 := by
  unfold readyEngines; simp

@[simp] theorem passBist_kept (q : Nat) (s : State) : kept (passBist q s) = kept s := by
  unfold passBist; (try dsimp only); (repeat' split) <;> (first | with_reducible rfl | (simp [*]; done) | (simp; rfl))

theorem execQuarterBistDone_kept (quarter : Nat) (ok : Bool) (s : State) : Keeps (execQuarterBistDone quarter ok s) s := by
  unfold execQuarterBistDone
  apply Keeps.live; (repeat' split) <;> simp

@[simp] theorem planApply_kept (s_0 : State) : kept (planApply s_0) = kept s_0 := by
  (unfold planApply; repeat' split) <;> simp [*]

theorem execPlanApply_kept (s_0 : State) : Keeps (execPlanApply s_0) s_0 := by
  unfold execPlanApply
  simp

@[simp] theorem takePools_kept (c_0 : PlanCfg) (s_1 : State) : kept (takePools c_0 s_1) = kept s_1 := by
  unfold takePools; simp

@[simp] theorem applyEnables_kept (i : PlanImage) (s : State) : kept (applyEnables i s) = kept s := by
  unfold applyEnables; (try dsimp only); (repeat' split) <;> (first | with_reducible rfl | (simp [*]; done) | (simp; rfl))

theorem execPlanApplyTakeEffect_kept (s_0 : State) : Keeps (execPlanApplyTakeEffect s_0) s_0 := by
  unfold execPlanApplyTakeEffect
  apply Keeps.live; simp only; (repeat' split) <;> simp [*]

@[simp] theorem endApply_kept (p_0 : Plan) (st_1 : Nat) (s_2 : State) : kept (endApply p_0 st_1 s_2) = kept s_2 := by
  unfold endApply; simp

@[simp] theorem nextStep_kept (s_0 : State) : kept (nextStep s_0) = kept s_0 := by
  (unfold nextStep; repeat' split) <;> simp [*]

theorem execApplyStepAdvance_kept (s_0 : State) : Keeps (execApplyStepAdvance s_0) s_0 := by
  unfold execApplyStepAdvance
  apply Keeps.live; simp only; (repeat' split) <;> simp [*]

@[simp] theorem migrate_kept (n_0 : Nat) (q_1 : Nat) (e_2 : Nat) (s_3 : State) : kept (migrate n_0 q_1 e_2 s_3) = kept s_3 := by
  unfold migrate; simp

@[simp] theorem lowerEfforts_kept (n q : Nat) (s : State) : kept (lowerEfforts n q s) = kept s := by
  induction n generalizing s with
  | zero => simp [lowerEfforts]
  | succ n ih => unfold lowerEfforts; (repeat' split) <;> (try simp [ih]) <;> done

@[simp] theorem relieve_kept (q : Nat) (hs : List Nat) (left : Nat) (s : State) : kept (relieve q hs left s).2 = kept s := by
  induction hs generalizing left s with
  | nil => rfl
  | cons a t ih => unfold relieve; (repeat' split) <;> simp [ih]

theorem relieve_kept' {q : Nat} {hs : List Nat} {left : Nat} {s : State} {r t} (hq : relieve q hs left s = (r, t)) : kept t = kept s := by
  have h0 := relieve_kept q hs left s; rw [hq] at h0; exact h0

@[simp] theorem balance_kept (n : Nat) (s : State) : kept (balance n s) = kept s := by
  induction n generalizing s with
  | zero => simp [balance]
  | succ n ih => unfold balance; (repeat' split) <;> (try simp [ih]) <;> done

theorem kept_foldl2 {α β : Type} (f : β × State → α → β × State) (h : ∀ p a, kept (f p a).2 = kept p.2) (l : List α) (p : β × State) : kept (l.foldl f p).2 = kept p.2 := by
  induction l generalizing p with
  | nil => rfl
  | cons a t ih => simp [ih, h]

@[simp] theorem rebalance_kept (s : State) : kept (rebalance s) = kept s := by
  unfold rebalance
  simp only []
  split <;> (try rw [balance_kept]) <;> rw [kept_foldl2 _ (by intro p a; simp)] <;> simp

@[simp] theorem takeMoves_kept (s_0 : State) : kept (takeMoves s_0) = kept s_0 := by
  unfold takeMoves; simp

@[simp] theorem demote_kept (n_0 : Nat) (s_1 : State) : kept (demote n_0 s_1) = kept s_1 := by
  unfold demote; simp

@[simp] theorem demoteUntil_kept (n c hi : Nat) (s : State) : kept (demoteUntil n c hi s) = kept s := by
  induction n generalizing s with
  | zero => simp [demoteUntil]
  | succ n ih => unfold demoteUntil; (repeat' split) <;> (try simp [ih]) <;> done

@[simp] theorem depotCheck_kept (s : State) : kept (depotCheck s) = kept s := by
  unfold depotCheck; apply kept_foldl; intro s a; (try simp only []); split <;> simp

@[simp] theorem leaveQuarter_kept (n_0 : Nat) (s_1 : State) : kept (leaveQuarter n_0 s_1) = kept s_1 := by
  (unfold leaveQuarter; repeat' split) <;> simp [*]

@[simp] theorem drainBurst_kept (s_0 : State) : kept (drainBurst s_0) = kept s_0 := by
  unfold drainBurst; simp

theorem makeRoom_om {s t : State} {u : Kept} (h : OM u (kept s)) (hq : makeRoom s = some t) : OM u (kept t) := by
  unfold makeRoom at hq
  split at hq
  · cases hq; exact h
  · split at hq
    · cases hq
    · cases hq
      apply writeRecord_om
      simpa using h

@[simp] theorem recordFails_kept (n : Nat) (s : State) : kept (recordFails n s) = kept s := by
  unfold recordFails; (try dsimp only); (repeat' split) <;> (first | with_reducible rfl | (simp [*]; done) | (simp; rfl))

@[simp] theorem pageIn_om (bad : List Nat) (n : Nat) (s : State) {u : Kept} (h : OM u (kept s)) : OM u (kept (pageIn bad n s)) := by
  unfold pageIn
  split
  · exact h
  · rename_i hq
    have h1 := makeRoom_om h hq
    dsimp only
    split <;> simpa using h1

theorem execPagingBurst_om (bad : List Nat) (s : State) : KeepsMem (execPagingBurst bad s) (kept s) := by
  unfold execPagingBurst
  apply KeepsMem.live (OM.refl _)
  split
  · exact OM.refl _
  · dsimp only
    exact OM.foldl (fun _ _ ht => pageIn_om _ _ _ ht) (OM.of (by simp))

@[simp] theorem sessionRequest_kept (r_0 : BlvdReq) (q_1 : Nat) (n_2 : Nat) (newWork_3 : Bool) (changes_4 : Bool) (s_5 : State) : kept (sessionRequest r_0 q_1 n_2 newWork_3 changes_4 s_5) = kept s_5 := by
  (unfold sessionRequest; repeat' split) <;> simp [*]

@[simp] theorem boulevard_om (r : BlvdReq) (s : State) {u : Kept} (h : OM u (kept s)) : OM u (kept (boulevard r s)) := by
  unfold boulevard
  split
  · rename_i a ecc act early raa _
    split
    · have h1 := readLine_kept r.req a ecc act early raa s
      generalize readLine r.req a ecc act early raa s = p at *
      obtain ⟨⟨d, q⟩, s1⟩ := p
      dsimp only at h1 ⊢
      rw [emit_kept, h1]; exact h
    · exact h
  · split
    · simp [h]
    · exact h
  · simp [h]

theorem execBoulevardRequest_om (r : BlvdReq) (s : State) : KeepsMem (execBoulevardRequest r s) (kept s) := KeepsMem.live (OM.refl _) (boulevard_om r s (OM.refl _))

theorem execRequestRetryTimeout_om (r : BlvdReq) (s : State) : KeepsMem (execRequestRetryTimeout r s) (kept s) := KeepsMem.live (OM.refl _) (boulevard_om r s (OM.refl _))

theorem execDetourReissue_om (r : BlvdReq) (s : State) : KeepsMem (execDetourReissue r s) (kept s) := by
  unfold execDetourReissue
  apply KeepsMem.live (OM.refl _)
  (repeat' split) <;> first | with_reducible exact OM.refl _ | exact boulevard_om _ _ (OM.refl _) | exact boulevard_om _ _ (OM.of (by simp))

theorem execDrainedReplySink_kept (quarter_0 : Nat) (mark_1 : DWord) (s_2 : State) : Keeps (execDrainedReplySink quarter_0 mark_1 s_2) s_2 := by
  unfold execDrainedReplySink
  apply Keeps.live; (try simp only []); (repeat' split) <;> (try simp)

end Sys2Proof.Machine
end

