-- ==== Sys2Proof/Laws/KeptDecoder.lean ====
section
/-! SUPPORT. What the definitions of Machine/Decoder.lean keep of the state. -/

namespace Sys2Proof.Machine
open Sys2Proof

@[simp] theorem decCount_kept (off_0 : Nat) (k_1 : Nat) (s_2 : State) : kept (decCount off_0 k_1 s_2) = kept s_2 := by
  unfold decCount; simp

@[simp] theorem decEvent_kept (n_0 : Nat) (code_1 : Code) (s_2 : State) : kept (decEvent n_0 code_1 s_2) = kept s_2 := by
  unfold decEvent; simp

@[simp] theorem onDecode_kept (h_0 : Hdr) (s_1 : State) (f_2 : Nat → Session → State → State) (hf_2 : ∀ y0 y1 y2, kept (f_2 y0 y1 y2) = kept y2) : kept (onDecode h_0 s_1 f_2) = kept s_1 := by
  (unfold onDecode; repeat' split) <;> simp [*]

theorem execDecodeBind_kept (h_0 : Hdr) (o_1 : BindOps) (s_2 : State) : Keeps (execDecodeBind h_0 o_1 s_2) s_2 := by
  unfold execDecodeBind
  apply sessionCmd_kept; intro s; apply onDecode_kept; intro n x s; (try simp only []); (repeat' split) <;> (try simp)

@[simp] theorem execDecodeBind_keeps {h_0 : Hdr} {o_1 : BindOps} {s_2 : State} {u : State}  (hu : kept s_2 = kept u) : Keeps (execDecodeBind h_0 o_1 s_2) u := Keeps.trans (execDecodeBind_kept h_0 o_1 s_2) hu

@[simp] theorem countDiscard_kept (n_0 : Nat) (s_1 : State) : kept (countDiscard n_0 s_1) = kept s_1 := by
  unfold countDiscard; simp

@[simp] theorem discardPart_kept (n_0 : Nat) (newest_1 : Bool) (s_2 : State) : kept (discardPart n_0 newest_1 s_2) = kept s_2 := by
  (unfold discardPart; simp; repeat' split) <;> simp [*]

theorem execDecodeData_kept (h_0 : Hdr) (o_1 : DataOps) (s_2 : State) : Keeps (execDecodeData h_0 o_1 s_2) s_2 := by
  unfold execDecodeData
  apply sessionCmd_kept; intro s; apply onDecode_kept; intro n x s; (try simp only []); (repeat' split) <;> (try simp) <;> ((repeat (first | with_reducible rfl | (simp; done) | refine Eq.trans (allocate_kept' (by assumption)) ?_)); done)

@[simp] theorem execDecodeData_keeps {h_0 : Hdr} {o_1 : DataOps} {s_2 : State} {u : State}  (hu : kept s_2 = kept u) : Keeps (execDecodeData h_0 o_1 s_2) u := Keeps.trans (execDecodeData_kept h_0 o_1 s_2) hu

theorem execDecodeRelease_kept (h_0 : Hdr) (index_1 : Nat) (pad_2 : Nat) (s_3 : State) : Keeps (execDecodeRelease h_0 index_1 pad_2 s_3) s_3 := by
  unfold execDecodeRelease
  apply sessionCmd_kept; intro s; apply onDecode_kept; intro n x s; (try simp only []); (repeat' split) <;> (try simp)

@[simp] theorem execDecodeRelease_keeps {h_0 : Hdr} {index_1 : Nat} {pad_2 : Nat} {s_3 : State} {u : State}  (hu : kept s_3 = kept u) : Keeps (execDecodeRelease h_0 index_1 pad_2 s_3) u := Keeps.trans (execDecodeRelease_kept h_0 index_1 pad_2 s_3) hu

@[simp] theorem settleFlush_kept (n_0 : Nat) (s_1 : State) : kept (settleFlush n_0 s_1) = kept s_1 := by
  (unfold settleFlush; repeat' split) <;> simp [*]

theorem execDecodeFlush_kept (h_0 : Hdr) (pad_1 : Nat) (s_2 : State) : Keeps (execDecodeFlush h_0 pad_1 s_2) s_2 := by
  unfold execDecodeFlush
  simp

@[simp] theorem execDecodeFlush_keeps {h_0 : Hdr} {pad_1 : Nat} {s_2 : State} {u : State}  (hu : kept s_2 = kept u) : Keeps (execDecodeFlush h_0 pad_1 s_2) u := Keeps.trans (execDecodeFlush_kept h_0 pad_1 s_2) hu

@[simp] theorem discardAu_kept (n_0 : Nat) (bufs_1 : List Word) (s_2 : State) : kept (discardAu n_0 bufs_1 s_2) = kept s_2 := by
  unfold discardAu; simp

theorem decodeStart_kept (n_0 : Nat) (m_1 : Mark) (s_2 : State) : ∀ t, (decodeStart n_0 m_1 s_2) = .ok t → kept t = kept s_2 := by
  (unfold decodeStart; simp; repeat' split) <;> simp [*]

theorem decodeStart_kept' {n_0 : Nat} {m_1 : Mark} {s_2 : State}  {t} (hq : (decodeStart n_0 m_1 s_2) = .ok t) : kept t = kept s_2 := decodeStart_kept n_0 m_1 s_2 _ hq

@[simp] theorem enqueueAu_kept (n : Nat) (tag : Word) (bufs : List Word) (info : AuInfo) (q : SeqInfo) (m : Mark) (s : State) : kept (enqueueAu n tag bufs info q m s) = kept s := by
  unfold enqueueAu; (try dsimp only); (repeat' split) <;> (first | with_reducible rfl | (simp [*]; done) | (simp; rfl))

@[simp] theorem takeAu_kept (n : Nat) (tag : Word) (bufs : List Word) (info : AuInfo) (q : SeqInfo) (s : State) : kept (takeAu n tag bufs info q s) = kept s := by
  unfold takeAu
  split
  · rfl
  · (repeat' split) <;> first | (simp; done) | skip
    dsimp only
    split
    · simp
    · rename_i e
      rw [enqueueAu_kept, decodeStart_kept' e, stamp_kept]

@[simp] theorem auComplete_kept (n : Nat) (tag : Word) (bufs : List Word) (info : AuInfo) (s : State) : kept (auComplete n tag bufs info s) = kept s := by
  unfold auComplete
  split
  · rfl
  · extract_lets s1
    have h1 : kept s1 = kept s := by simp only [s1]; split <;> simp
    (repeat' split) <;> simp only [discardAu_kept, decCount_kept, takeAu_kept, decEvent_kept, h1] <;> exact (setDec_kept ..).trans h1

theorem execDataCopyDone_om (handle : Nat) (info : AuInfo) (bytes : List Byte) (s : State) : KeepsMem (execDataCopyDone handle info bytes s) (kept s) := by
  unfold execDataCopyDone Machine.onSession
  apply KeepsMem.live (OM.refl _)
  split
  · exact OM.refl _
  · rename_i x _
    dsimp only
    split
    · exact OM.refl _
    · split
      · exact OM.of (by simp)
      · split
        · exact OM.of (by simp)
        · rename_i c _ _ _ _
          split <;> (simp only [settleFlush_kept, auComplete_kept, setDec_kept, complete_kept]; split) <;>
            first | exact storeMem_om _ _ _ (OM.refl _) | exact OM.refl _

@[simp] theorem takePeer_kept (n_0 : Nat) (a_1 : PeerAu) (s_2 : State) : kept (takePeer n_0 a_1 s_2) = kept s_2 := by
  unfold takePeer; simp

@[simp] theorem peerPacket_kept (n_0 : Nat) (ts_1 : Word) (seq_2 : Nat) (marker_3 : Bool) (ok_4 : Bool) (info_5 : AuInfo) (s_6 : State) : kept (peerPacket n_0 ts_1 seq_2 marker_3 ok_4 info_5 s_6) = kept s_6 := by
  (unfold peerPacket; repeat' split) <;> simp [*]

theorem execAuReorderTimeout_kept (handle_0 : Nat) (info_1 : AuInfo) (s_2 : State) : Keeps (execAuReorderTimeout handle_0 info_1 s_2) s_2 := by
  unfold execAuReorderTimeout
  apply Keeps.live; simp only; (repeat' split) <;> simp [*]

@[simp] theorem decExtents_kept (n d k : Nat) (s : State) : kept ((decExtents n d k s).2) = kept s := by
  induction k generalizing s with
  | zero => simp [decExtents]
  | succ n ih => unfold decExtents; (repeat' split) <;> (try simp [ih]) <;> ((repeat (first | with_reducible rfl | (simp; done) | refine Eq.trans (allocate_kept' (by assumption)) ?_)); done)

theorem decExtents_kept' {n d k : Nat} {s : State} {r t} (hq : decExtents n d k s = (r, t)) : kept t = kept s := by
  have h0 := decExtents_kept n d k s; rw [hq] at h0; exact h0

@[simp] theorem losePic_kept (n_0 : Nat) (a_1 : Au) (s_2 : State) : kept (losePic n_0 a_1 s_2) = kept s_2 := by
  (unfold losePic; repeat' split) <;> simp [*]

@[simp] theorem endPicture_kept (n_0 : Nat) (a_1 : Au) (s_2 : State) : kept (endPicture n_0 a_1 s_2) = kept s_2 := by
  (unfold endPicture; repeat' split) <;> simp [*]

@[simp] theorem countDecFb_kept (n k : Nat) (b : DecBand) (s : State) : kept (countDecFb n k b s) = kept s := by
  unfold countDecFb; (try dsimp only); (repeat' split) <;> (first | with_reducible rfl | (simp [*]; done) | (simp; rfl))

@[simp] theorem decFinalise_om (n : Nat) (a : Au) (k : Nat) (fin : Final) (lrc : List (Option (List Byte))) (s : State) {u : Kept} (h : OM u (kept s)) :
    OM u (kept (decFinalise n a k fin lrc s).2) := by
  unfold decFinalise
  split
  · exact h
  · rename_i p _
    extract_lets forms at0 total
    have h1 := decExtents_kept n a.desc (cdiv (64 * total) (classSize (extentClass p.width p.height)) - p.extents.length) s
    generalize decExtents n a.desc (cdiv (64 * total) (classSize (extentClass p.width p.height)) - p.extents.length) s = e at *
    obtain ⟨ok, s1⟩ := e
    dsimp only at h1 ⊢
    split
    · rw [h1]; exact h
    · dsimp only
      rw [setSess_kept]
      exact writeMotion_om _ _ _ _ (writeUnits_om _ _ _ _ (by rw [h1]; exact h))

@[simp] theorem decBandCommit_om (n : Nat) (x : Session) (res : BandResult) (s : State) {u : Kept} (hu : OM u (kept s)) : OM u (kept (decBandCommit n x res s)) := by
  unfold decBandCommit
  split
  · exact hu
  · split
    · exact hu
    · split
      · exact hu
      · rename_i a0 _ _ _ b t _ _
        extract_lets l a s1
        have h1 := decFinalise_om n a b.k (decFinal s x a b.k res.fin) res.lrc s1 (u := u) (by simpa [s1] using hu)
        generalize decFinalise n a b.k (decFinal s x a b.k res.fin) res.lrc s1 = e at *
        obtain ⟨ok, s2⟩ := e
        dsimp only at h1 ⊢
        (repeat' split) <;> simpa using h1

theorem execBandCheck_om (handle : Nat) (res : BandResult) (s : State) : KeepsMem (execBandCheck handle res s) (kept s) := by
  unfold execBandCheck Machine.onSession
  apply KeepsMem.live (OM.refl _)
  split
  · exact OM.refl _
  · dsimp only
    split
    · exact decBandCommit_om _ _ _ _ (OM.refl _)
    · exact checkBand_om _ _ _ _ (OM.refl _)

theorem execProtectedFillDone_om (buf : Nat) (s : State) : KeepsMem (execProtectedFillDone buf s) (kept s) := by
  unfold execProtectedFillDone
  apply KeepsMem.live (OM.refl _)
  split
  · exact ⟨rfl, fun h => filter_wf h⟩
  · exact OM.refl _

theorem execDecodeOutput_kept (handle_0 : Nat) (pic_1 : OutPic) (s_2 : State) : Keeps (execDecodeOutput handle_0 pic_1 s_2) s_2 := by
  unfold execDecodeOutput
  apply Keeps.live; simp only; (repeat' split) <;> simp [*]

@[simp] theorem decRefuse_kept (code_0 : Code) (s_1 : State) : kept (decRefuse code_0 s_1) = kept s_1 := by
  unfold decRefuse; simp

theorem execDecCtrlWrite_kept (value_0 : Word) (s_1 : State) : KeepsCore (execDecCtrlWrite value_0 s_1) s_1 := by
  unfold execDecCtrlWrite
  apply KeepsCore.blockWrite; intro s; (try simp only []); (repeat' split) <;> simp [*]

@[simp] theorem execDecCtrlWrite_keeps {value_0 : Word} {s_1 : State} {u : State}  (hu : coreOf s_1 = coreOf u) : KeepsCore (execDecCtrlWrite value_0 s_1) u := KeepsCore.trans (execDecCtrlWrite_kept value_0 s_1) hu

end Sys2Proof.Machine
end

