-- ==== Sys2Proof/Laws/KeptKeys.lean ====
section
/-! SUPPORT. What the definitions of Machine/Keys.lean keep of the state. -/

namespace Sys2Proof.Machine
open Sys2Proof

@[simp] theorem putKey_kept (slot_0 : Nat) (kind_1 : Nat) (owner_2 : Nat) (n_3 : Nat) (len_4 : Nat) (material_5 : BitVec 256) (salt_6 : BitVec 96) (s_7 : State) : kept (putKey slot_0 kind_1 owner_2 n_3 len_4 material_5 salt_6 s_7) = kept s_7 := by
  unfold putKey; simp

@[simp] theorem applyKey_kept (k n : Nat) (h : Hdr) (o : KeyOps) (s : State) : kept (applyKey k n h o s) = kept s := by
  unfold applyKey; (try dsimp only); (repeat' split) <;> (first | with_reducible rfl | (simp [*]; done) | (simp; rfl))

@[simp] theorem loadKey_kept (n : Nat) (x : Session) (h : Hdr) (o : KeyOps) (s : State) : kept (loadKey n x h o s) = kept s := by
  unfold loadKey; (try dsimp only); (repeat' split) <;> (first | with_reducible rfl | (simp [*]; done) | (simp; rfl))

theorem execKeyLoad_kept (h_0 : Hdr) (o_1 : KeyOps) (s_2 : State) : Keeps (execKeyLoad h_0 o_1 s_2) s_2 := by
  unfold execKeyLoad
  apply sessionCmd_kept; intro s; (repeat' split) <;> simp

@[simp] theorem execKeyLoad_keeps {h_0 : Hdr} {o_1 : KeyOps} {s_2 : State} {u : State}  (hu : kept s_2 = kept u) : Keeps (execKeyLoad h_0 o_1 s_2) u := Keeps.trans (execKeyLoad_kept h_0 o_1 s_2) hu

theorem execKeyErase_kept (h_0 : Hdr) (o_1 : KeyOps) (s_2 : State) : Keeps (execKeyErase h_0 o_1 s_2) s_2 := by
  unfold execKeyErase
  apply Keeps.live; simp only; (repeat' split) <;> simp [*]

@[simp] theorem execKeyErase_keeps {h_0 : Hdr} {o_1 : KeyOps} {s_2 : State} {u : State}  (hu : kept s_2 = kept u) : Keeps (execKeyErase h_0 o_1 s_2) u := Keeps.trans (execKeyErase_kept h_0 o_1 s_2) hu

end Sys2Proof.Machine
end

