-- ==== Sys2Proof/Laws/KeptTandem.lean ====
section
/-! SUPPORT. What the definitions of Machine/Tandem.lean keep of the state. -/

namespace Sys2Proof.Machine
open Sys2Proof

@[simp] theorem setTan_kept (s_0 : State) (g_1 : Tandem → Tandem) : kept (setTan s_0 g_1) = kept s_0 := by
  unfold setTan; simp

@[simp] theorem tanCount_kept (off_0 : Nat) (k_1 : Nat) (s_2 : State) : kept (tanCount off_0 k_1 s_2) = kept s_2 := by
  unfold tanCount; simp

@[simp] theorem tanRefuse_kept (code_0 : Code) (s_1 : State) : kept (tanRefuse code_0 s_1) = kept s_1 := by
  unfold tanRefuse; simp

@[simp] theorem pairState_kept (st_0 : Nat) (s_1 : State) : kept (pairState st_0 s_1) = kept s_1 := by
  unfold pairState; simp

@[simp] theorem setTs_kept (s_0 : State) (n_1 : Nat) (g_2 : TanSess → TanSess) : kept (setTs s_0 n_1 g_2) = kept s_0 := by
  unfold setTs; simp

theorem execTandemCtrlWrite_kept (value_0 : Word) (s_1 : State) : Keeps (execTandemCtrlWrite value_0 s_1) s_1 := by
  unfold execTandemCtrlWrite
  apply Keeps.blockWrite; intro s; (try simp only []); (repeat' split) <;> simp [*]

@[simp] theorem execTandemCtrlWrite_keeps {value_0 : Word} {s_1 : State} {u : State}  (hu : kept s_1 = kept u) : Keeps (execTandemCtrlWrite value_0 s_1) u := Keeps.trans (execTandemCtrlWrite_kept value_0 s_1) hu

theorem execTandemRoleWrite_kept (value_0 : Word) (s_1 : State) : Keeps (execTandemRoleWrite value_0 s_1) s_1 := by
  unfold execTandemRoleWrite
  simp

@[simp] theorem execTandemRoleWrite_keeps {value_0 : Word} {s_1 : State} {u : State}  (hu : kept s_1 = kept u) : Keeps (execTandemRoleWrite value_0 s_1) u := Keeps.trans (execTandemRoleWrite_kept value_0 s_1) hu

theorem execTandemHello_kept (lanes_0 : Nat) (s_1 : State) : Keeps (execTandemHello lanes_0 s_1) s_1 := by
  unfold execTandemHello
  simp

theorem execTandemAuth_kept (ok_0 : Bool) (partnerBell_1 : BitVec 40) (s_2 : State) : Keeps (execTandemAuth ok_0 partnerBell_1 s_2) s_2 := by
  unfold execTandemAuth
  simp

theorem execAuthRetry_kept (s_0 : State) : Keeps (execAuthRetry s_0) s_0 := by
  unfold execAuthRetry
  apply Keeps.live; (try simp only []); (repeat' split) <;> (try simp)

theorem execTandemLinkTrainsAgain_kept (s_0 : State) : Keeps (execTandemLinkTrainsAgain s_0) s_0 := by
  unfold execTandemLinkTrainsAgain
  simp

theorem execLinkRetransmit_kept (seq_0 : Word) (s_1 : State) : Keeps (execLinkRetransmit seq_0 s_1) s_1 := by
  unfold execLinkRetransmit
  apply Keeps.live; (try simp only []); (repeat' split) <;> (try simp)

@[simp] theorem violate_kept (typ_0 : Nat) (code_1 : Code) (seq_2 : Word) (s_3 : State) : kept (violate typ_0 code_1 seq_2 s_3) = kept s_3 := by
  unfold violate; (try simp only []); (repeat' split) <;> (try simp)

theorem tanMessage_kept (typ_0 : Nat) (m_1 : LinkMeta) (s_2 : State) (f_3 : State → State) (hf_3 : ∀ y0, kept (f_3 y0) = kept y0) : Keeps (tanMessage typ_0 m_1 s_2 f_3) s_2 := by
  unfold tanMessage
  (repeat' split) <;> simp [*]

@[simp] theorem tanMessage_keeps {typ_0 : Nat} {m_1 : LinkMeta} {s_2 : State} {f_3 : State → State} {u : State} (hf_3 : ∀ y0, kept (f_3 y0) = kept y0) (hu : kept s_2 = kept u) : Keeps (tanMessage typ_0 m_1 s_2 f_3) u := Keeps.trans (tanMessage_kept typ_0 m_1 s_2 f_3 hf_3) hu

theorem tanMessage_om (typ : Nat) (m : LinkMeta) (s : State) (f : State → State) (hf : ∀ y, OM (kept s) (kept y) → OM (kept s) (kept (f y))) :
    KeepsMem (tanMessage typ m s f) (kept s) := by
  unfold tanMessage
  apply KeepsMem.live (OM.refl _)
  dsimp only
  (repeat' split) <;> first | exact OM.refl _ | exact hf _ (OM.of (wake_kept s)) | exact OM.of (by simp)

theorem execTandemNak_kept (link_0 : LinkMeta) (_code_1 : Code) (s_2 : State) : Keeps (execTandemNak link_0 _code_1 s_2) s_2 := by
  unfold execTandemNak
  simp

@[simp] theorem applyForwarded_om (n k : Nat) (i : Instr) (s : State) {u : Kept} (h : OM u (kept s)) : OM u (kept (applyForwarded n k i s)) := by
  unfold applyForwarded
  split <;> (try split) <;> simp [h]

@[simp] theorem refuseForwarded_kept (n_0 : Nat) (i_1 : Instr) (code_2 : Code) (s_3 : State) : kept (refuseForwarded n_0 i_1 code_2 s_3) = kept s_3 := by
  (unfold refuseForwarded; repeat' split) <;> simp [*]

@[simp] theorem applyWaiting_om (n : Nat) (s : State) {u : Kept} (h : OM u (kept s)) : OM u (kept (applyWaiting n s)) := by
  unfold applyWaiting
  exact OM.foldl (fun _ _ ht => applyForwarded_om _ _ _ _ ht) (by simpa using h)

@[simp] theorem dropHeld_kept (n_0 : Nat) (s_1 : State) : kept (dropHeld n_0 s_1) = kept s_1 := by
  (unfold dropHeld; repeat' split) <;> simp [*]

@[simp] theorem loseShadow_om (tell : Bool) (n : Nat) (s : State) {u : Kept} (h : OM u (kept s)) : OM u (kept (loseShadow tell n s)) := by
  unfold loseShadow
  apply applyWaiting_om
  cases tell <;> simpa using h

@[simp] theorem freeShadow_kept (n_0 : Nat) (s_1 : State) : kept (freeShadow n_0 s_1) = kept s_1 := by
  (unfold freeShadow; repeat' split) <;> simp [*]

theorem execTandemConfigReply_om (link : LinkMeta) (handle : Nat) (code : Code) (s : State) : KeepsMem (execTandemConfigReply link handle code s) (kept s) := by
  unfold execTandemConfigReply
  apply tanMessage_om
  intro y hy
  (repeat' split) <;> first | with_reducible exact hy | simp [hy]

@[simp] theorem openShadow_om (n fn : Nat) (token : Word) (o : StreamOps) (userTag : Word) (s : State) {u : Kept} (h : OM u (kept s)) :
    OM u (kept (openShadow n fn token o userTag s).2) := by
  unfold openShadow
  split
  · exact h
  · exact addSession_om _ _ _ (by simpa using h)

@[simp] theorem activateShadow_kept (n : Nat) (x : Session) (s : State) : kept (activateShadow n x s).2 = kept s := by
  unfold activateShadow; simp only []; split <;> simp

theorem activateShadow_kept' {n : Nat} {x : Session} {s : State} {r t} (hq : activateShadow n x s = (r, t)) : kept t = kept s := by
  have h0 := activateShadow_kept n x s; rw [hq] at h0; exact h0

@[simp] theorem shadowApply_om (n : Nat) (x : Session) (c : FwdCmd) (s : State) {u : Kept} (h : OM u (kept s)) : OM u (kept (shadowApply n x c s).2) := by
  unfold shadowApply
  split <;> (try split) <;> (try dsimp only) <;> (try split) <;> first | with_reducible exact h | simp [h]

theorem execTandemConfig_om (link : LinkMeta) (handle : Nat) (cmd : FwdCmd) (s : State) : KeepsMem (execTandemConfig link handle cmd s) (kept s) := by
  unfold execTandemConfig
  apply tanMessage_om
  intro y hy
  dsimp only
  (repeat' split) <;> simp [hy]

@[simp] theorem clearDesc_kept (m : MirrorMsg) (x : Session) (s : State) : kept (clearDesc m x s) = kept s := by
  unfold clearDesc; split <;> simp

theorem execMirror_kept (m_0 : MirrorMsg) (s_1 : State) : Keeps (execMirror m_0 s_1) s_1 := by
  unfold execMirror
  apply tanMessage_kept; intro s; (try simp only []); (repeat' split) <;> (try simp)

@[simp] theorem sendAck_kept (n_0 : Nat) (frame_1 : Nat) (band_2 : Nat) (k_3 : AckKind) (s_4 : State) : kept (sendAck n_0 frame_1 band_2 k_3 s_4) = kept s_4 := by
  unfold sendAck; simp

@[simp] theorem shadowLost_kept (n_0 : Nat) (frame_1 : Nat) (band_2 : Nat) (s_3 : State) : kept (shadowLost n_0 frame_1 band_2 s_3) = kept s_3 := by
  unfold shadowLost; simp

@[simp] theorem shadowExtents_kept (n d k : Nat) (s : State) : kept (shadowExtents n d k s).2 = kept s := by
  induction k generalizing s with
  | zero => rfl
  | succ k ih =>
    unfold shadowExtents
    split
    · rfl
    · split
      · exact allocate_kept' (by assumption)
      · rw [ih, setSess_kept]; exact allocate_kept' (by assumption)

@[simp] theorem shadowFinal_kept (n frame k : Nat) (s : State) : kept (shadowFinal n frame k s).2 = kept s := by
  unfold shadowFinal
  split <;> simp

@[simp] theorem shadowGood_kept (n frame k : Nat) (s : State) : kept (shadowGood n frame k s) = kept s := by
  unfold shadowGood
  dsimp only
  split <;> simp

@[simp] theorem tellOpen_kept (h : Nat) (s : State) : kept (tellOpen h s) = kept s := by
  unfold tellOpen; simp

@[simp] theorem shadowsLate_kept (s : State) : kept (shadowsLate s) = kept s := by
  unfold shadowsLate
  refine kept_foldl _ (fun t a => ?_) _ s
  generalize a.2.tan.due = l
  cases l <;> simp

theorem execShadowDecodeDone_kept (handle_0 : Nat) (v_1 : Verdict) (s_2 : State) : Keeps (execShadowDecodeDone handle_0 v_1 s_2) s_2 := by
  unfold execShadowDecodeDone
  apply Keeps.live; simp only; (repeat' split) <;> simp [*]

@[simp] theorem retireShadows_kept (q_0 : Nat) (s_1 : State) : kept (retireShadows q_0 s_1) = kept s_1 := by
  unfold retireShadows; simp

theorem execShadowRecheckDone_kept (handle_0 : Nat) (v_1 : Second) (s_2 : State) : Keeps (execShadowRecheckDone handle_0 v_1 s_2) s_2 := by
  unfold execShadowRecheckDone
  apply Keeps.live; simp only; (repeat' split) <;> simp [*]

@[simp] theorem blamePrimary_kept (n_0 : Nat) (q_1 : Nat) (s_2 : State) : kept (blamePrimary n_0 q_1 s_2) = kept s_2 := by
  unfold blamePrimary; simp

theorem execTandemAck_om (link : LinkMeta) (handle frame : Nat) (kind : AckKind) (s : State) : KeepsMem (execTandemAck link handle frame kind s) (kept s) := by
  unfold execTandemAck
  apply tanMessage_om
  intro y hy
  dsimp only
  (repeat' split) <;> first | with_reducible exact hy | simp [hy]

theorem execAckTimeout_om (handle : Nat) (s : State) : KeepsMem (execAckTimeout handle s) (kept s) := by
  unfold execAckTimeout Machine.onSession
  apply KeepsMem.live (OM.refl _)
  split
  · exact OM.refl _
  · dsimp only
    split
    · exact loseShadow_om _ _ _ (OM.refl _)
    · exact OM.refl _

theorem execHeartbeatSend_kept (s_0 : State) : Keeps (execHeartbeatSend s_0) s_0 := by
  unfold execHeartbeatSend
  simp

theorem execHeartbeat_kept (m_0 : HbMsg) (s_1 : State) : Keeps (execHeartbeat m_0 s_1) s_1 := by
  unfold execHeartbeat
  simp

@[simp] theorem altHeartbeat_kept (b_0 : BitVec 40) (skew_1 : Int) (s_2 : State) : kept (altHeartbeat b_0 skew_1 s_2) = kept s_2 := by
  unfold altHeartbeat; simp

@[simp] theorem loseAll_om (s : State) {u : Kept} (h : OM u (kept s)) : OM u (kept (loseAll s)) := by
  unfold loseAll
  dsimp only
  exact OM.foldl (fun _ _ ht => by simpa using ht) (OM.foldl (fun _ _ ht => loseShadow_om _ _ _ ht) h)

theorem execHeartbeatMissed_om (s : State) : KeepsMem (execHeartbeatMissed s) (kept s) := by
  unfold execHeartbeatMissed
  apply KeepsMem.live (OM.refl _)
  dsimp only
  (repeat' split) <;> first | with_reducible exact OM.refl _ | simp

theorem execTandemNotice_kept (kind_0 : NoticeKind) (s_1 : State) : Keeps (execTandemNotice kind_0 s_1) s_1 := by
  unfold execTandemNotice
  (repeat' split) <;> simp [*]

@[simp] theorem takeoverRecord_kept (n_0 : Nat) (cause_1 : Nat) (frame_2 : Nat) (fence_3 : Nat) (first_4 : Nat) (flags_5 : Nat) (s_6 : State) : kept (takeoverRecord n_0 cause_1 frame_2 fence_3 first_4 flags_5 s_6) = kept s_6 := by
  (unfold takeoverRecord; repeat' split) <;> simp [*]

@[simp] theorem takeSession_kept (cause_0 : Nat) (n_1 : Nat) (s_2 : State) : kept (takeSession cause_0 n_1 s_2) = kept s_2 := by
  (unfold takeSession; simp; repeat' split) <;> simp [*]

theorem execTakeover_om (s : State) : KeepsMem (execTakeover s) (kept s) := by
  unfold execTakeover
  apply KeepsMem.live (OM.refl _)
  split
  · exact OM.refl _
  · split
    · exact OM.foldl (fun _ _ ht => by simpa using ht) (OM.foldl (fun _ _ ht => loseShadow_om _ _ _ ht) (OM.of (by simp)))
    · exact OM.of (by simp)

@[simp] theorem becomeShadow_kept (n_0 : Nat) (s_1 : State) : kept (becomeShadow n_0 s_1) = kept s_1 := by
  (unfold becomeShadow; repeat' split) <;> simp [*]

@[simp] theorem tandemBell_kept (s_0 : State) : kept (tandemBell s_0) = kept s_0 := by
  unfold tandemBell; simp

theorem execShadowSync_kept (handle_0 : Nat) (s_1 : State) : Keeps (execShadowSync handle_0 s_1) s_1 := by
  unfold execShadowSync
  apply Keeps.live; simp only; (repeat' split) <;> simp [*]

theorem execSyncDone_kept (s_0 : State) : Keeps (execSyncDone s_0) s_0 := by
  unfold execSyncDone
  simp

theorem execHandover_kept (handle_0 : Nat) (s_1 : State) : Keeps (execHandover handle_0 s_1) s_1 := by
  unfold execHandover
  apply Keeps.live; simp only; (repeat' split) <;> simp [*]

end Sys2Proof.Machine
end

