-- ==== Sys2Proof/Laws/KeptIngress.lean ====
section
/-! SUPPORT. What the definitions of Machine/Ingress.lean keep of the state. -/

namespace Sys2Proof.Machine
open Sys2Proof

@[simp] theorem setStale_kept (n_0 : Nat) (s_1 : State) : kept (setStale n_0 s_1) = kept s_1 := by
  unfold setStale; simp

@[simp] theorem setSpect_kept (n_0 : Nat) (s_1 : State) : kept (setSpect n_0 s_1) = kept s_1 := by
  unfold setSpect; simp

@[simp] theorem feedItem_kept (i n : Nat) (f : Flow) (item : Rtcp) (s : State) : kept (feedItem i n f item s) = kept s := by
  unfold feedItem
  split
  case h_2 =>
    split
    · apply kept_foldl; intro s a; split <;> simp
    · simp
  all_goals (repeat' split) <;> simp

@[simp] theorem unmatched_kept (f_0 : RxFrame) (s_1 : State) : kept (unmatched f_0 s_1) = kept s_1 := by
  unfold unmatched; simp

@[simp] theorem noteRx_kept (i : Nat) (s : State) : kept (noteRx i s) = kept s := by
  unfold noteRx; simp

@[simp] theorem flowRxq_kept (i : Nat) (f : Flow) (data : List Byte) (rtcp : Bool) (s : State) : kept (flowRxq i f data rtcp s) = kept s := by
  unfold flowRxq
  dsimp only
  (repeat' split) <;> simp

@[simp] theorem dropRx_kept (off_0 : Nat) (i_1 : Nat) (s_2 : State) : kept (dropRx off_0 i_1 s_2) = kept s_2 := by
  unfold dropRx; simp

@[simp] theorem dispatchRx_kept (i : Nat) (f : Flow) (b : List Byte) (authOk : Bool) (index : Nat) (body : RxBody) (s : State) :
    kept (dispatchRx i f b authOk index body s) = kept s := by
  unfold dispatchRx
  dsimp only
  (repeat' split) <;> simp

@[simp] theorem ptpMessage_kept (p_0 : Nat) (s_1 : State) : kept (ptpMessage p_0 s_1) = kept s_1 := by
  unfold ptpMessage
  dsimp only
  (repeat' split) <;> simp

@[simp] theorem classify_kept (f_0 : RxFrame) (s0_1 : State) : kept (classify f_0 s0_1) = kept s0_1 := by
  (unfold classify; simp; repeat' split) <;> simp [*]

theorem execRxFrame_kept (f_0 : RxFrame) (s_1 : State) : Keeps (execRxFrame f_0 s_1) s_1 := by
  unfold execRxFrame
  simp

@[simp] theorem recentre_kept (c_0 : Nat) (s_1 : State) : kept (recentre c_0 s_1) = kept s_1 := by
  unfold recentre; simp

theorem execPowerExitDone_kept (s_0 : State) : Keeps (execPowerExitDone s_0) s_0 := by
  unfold execPowerExitDone
  simp

end Sys2Proof.Machine
end

