-- ==== Sys2Proof/Laws/KeptSelfTest.lean ====
section
/-! SUPPORT. What the definitions of Machine/SelfTest.lean keep of the state. -/

namespace Sys2Proof.Machine
open Sys2Proof

@[simp] theorem bistCount_kept (off_0 : Nat) (s_1 : State) : kept (bistCount off_0 s_1) = kept s_1 := by
  unfold bistCount; simp

@[simp] theorem bistSlice_kept (s_0 : State) : kept (bistSlice s_0) = kept s_0 := by
  unfold bistSlice; simp

@[simp] theorem rotateLoad_kept (s : State) : kept (rotateLoad s) = kept s := by
  unfold rotateLoad
  split
  · refine kept_foldl _ (fun t q => ?_) _ s
    split
    · dsimp only
      generalize spareOf t q = k
      cases k <;> simp
    · rfl
  · rfl

@[simp] theorem rotateBell_kept (s : State) : kept (rotateBell s) = kept s := by
  unfold rotateBell
  refine (kept_foldl _ (fun t e => ?_) _ _).trans (by simp)
  generalize spareOf t (e / 32) = k
  cases k <;> simp

@[simp] theorem bistFail_kept (win_0 : Nat) (kind_1 : Nat) (target_2 : Nat) (variant_3 : Nat) (place_4 : Nat) (s_5 : State) : kept (bistFail win_0 kind_1 target_2 variant_3 place_4 s_5) = kept s_5 := by
  unfold bistFail; simp

@[simp] theorem anaAdvance_kept (t_0 : Nat) (s_1 : State) : kept (anaAdvance t_0 s_1) = kept s_1 := by
  (unfold anaAdvance; repeat' split) <;> simp [*]

@[simp] theorem anaDone_kept (r_0 : BistRes) (lim_1 : BitVec 64) (s_2 : State) : kept (anaDone r_0 lim_1 s_2) = kept s_2 := by
  unfold anaDone; simp

@[simp] theorem engDone_kept (r_0 : BistRes) (e_1 : Nat) (key_2 : Nat) (sig_3 : Option (BitVec 64)) (s_4 : State) : kept (engDone r_0 e_1 key_2 sig_3 s_4) = kept s_4 := by
  unfold engDone; simp

theorem execBistTargetDone_kept (r_0 : BistRes) (s_1 : State) : Keeps (execBistTargetDone r_0 s_1) s_1 := by
  unfold execBistTargetDone
  apply Keeps.live; simp only; (repeat' split) <;> simp [*]

theorem execBistCtrlWrite_kept (value_0 : Word) (s_1 : State) : KeepsCore (execBistCtrlWrite value_0 s_1) s_1 := by
  unfold execBistCtrlWrite
  apply KeepsCore.blockWrite; intro s; (try simp only []); (repeat' split) <;> simp [*]

@[simp] theorem execBistCtrlWrite_keeps {value_0 : Word} {s_1 : State} {u : State}  (hu : coreOf s_1 = coreOf u) : KeepsCore (execBistCtrlWrite value_0 s_1) u := KeepsCore.trans (execBistCtrlWrite_kept value_0 s_1) hu

@[simp] theorem sextRefs_kept (m_0 : SextMeas) (s_1 : State) : kept (sextRefs m_0 s_1) = kept s_1 := by
  unfold sextRefs; simp

@[simp] theorem sextNext_kept (s_0 : State) : kept (sextNext s_0) = kept s_0 := by
  unfold sextNext; simp

@[simp] theorem sextJudge_kept (i_0 : Nat) (m_1 : SextMeas) (s_2 : State) : kept (sextJudge i_0 m_1 s_2) = kept s_2 := by
  (unfold sextJudge; repeat' split) <;> simp [*]

theorem execSextantMeasure_kept (m_0 : SextMeas) (s_1 : State) : Keeps (execSextantMeasure m_0 s_1) s_1 := by
  unfold execSextantMeasure
  simp

theorem execSextantApply_kept (s_0 : State) : Keeps (execSextantApply s_0) s_0 := by
  unfold execSextantApply
  simp

theorem execSextCoefGainWrite_kept (value_0 : Word) (s_1 : State) : Keeps (execSextCoefGainWrite value_0 s_1) s_1 := by
  unfold execSextCoefGainWrite
  simp

@[simp] theorem execSextCoefGainWrite_keeps {value_0 : Word} {s_1 : State} {u : State}  (hu : kept s_1 = kept u) : Keeps (execSextCoefGainWrite value_0 s_1) u := Keeps.trans (execSextCoefGainWrite_kept value_0 s_1) hu

theorem execSextCoefOffsetWrite_kept (value_0 : Word) (s_1 : State) : Keeps (execSextCoefOffsetWrite value_0 s_1) s_1 := by
  unfold execSextCoefOffsetWrite
  apply Keeps.blockWrite; intro s; (try simp only []); (repeat' split) <;> simp [*]

@[simp] theorem execSextCoefOffsetWrite_keeps {value_0 : Word} {s_1 : State} {u : State}  (hu : kept s_1 = kept u) : Keeps (execSextCoefOffsetWrite value_0 s_1) u := Keeps.trans (execSextCoefOffsetWrite_kept value_0 s_1) hu

theorem execSextCtrlWrite_kept (value_0 : Word) (s_1 : State) : KeepsCore (execSextCtrlWrite value_0 s_1) s_1 := by
  unfold execSextCtrlWrite
  apply KeepsCore.blockWrite; intro s; (try simp only []); (repeat' split) <;> simp [*]

@[simp] theorem execSextCtrlWrite_keeps {value_0 : Word} {s_1 : State} {u : State}  (hu : coreOf s_1 = coreOf u) : KeepsCore (execSextCtrlWrite value_0 s_1) u := KeepsCore.trans (execSextCtrlWrite_kept value_0 s_1) hu

end Sys2Proof.Machine
end

