-- ==== Sys2Proof/Laws/KeptBell.lean ====
section
/-! SUPPORT. What the definitions of Machine/Bell.lean keep of the state. -/

namespace Sys2Proof.Machine
open Sys2Proof

@[simp] theorem setBell_kept (s : State) (g : Bell → Bell) (h : ∀ b, coreBell (g b) = coreBell b) (h2 : ∀ b, confBell (g b) = confBell b) : kept (setBell s g) = kept s := by
  unfold setBell; simp only [kept_mk, h, h2]

@[simp] theorem setBell_core (s : State) (g : Bell → Bell) (h : ∀ b, coreBell (g b) = coreBell b) : (kept (setBell s g)).core = (kept s).core := by
  unfold setBell; simp only [kept_core_mk, h]

@[simp] theorem rejectEdge_num (o : Int) (b : Bell) : coreBell (rejectEdge o b) = coreBell b := by unfold rejectEdge; (try simp only []); split <;> rfl

@[simp] theorem acceptEdge_num (o : Int) (b : Bell) : coreBell (acceptEdge o b) = coreBell b := rfl

@[simp] theorem rejectEdge_cfg (o : Int) (b : Bell) : confBell (rejectEdge o b) = confBell b := by unfold rejectEdge; (try simp only []); split <;> rfl

@[simp] theorem acceptEdge_cfg (o : Int) (b : Bell) : confBell (acceptEdge o b) = confBell b := rfl

theorem execBellInEdge_kept (o : Int) (s : State) : Keeps (execBellInEdge o s) s := by
  unfold execBellInEdge; apply Keeps.live; show kept (if _ then _ else _) = _; split
  · rfl
  · apply setBell_kept <;> intro b <;> split <;> first | exact rejectEdge_num _ _ | exact acceptEdge_num _ _ | exact rejectEdge_cfg _ _ | exact acceptEdge_cfg _ _

theorem execBellEdgeMissing_kept (s_0 : State) : Keeps (execBellEdgeMissing s_0) s_0 := by
  unfold execBellEdgeMissing
  simp

theorem execSchedBellCfgWrite_kept (value_0 : Word) (s_1 : State) : KeepsCore (execSchedBellCfgWrite value_0 s_1) s_1 := by
  unfold execSchedBellCfgWrite
  simp

@[simp] theorem execSchedBellCfgWrite_keeps {value_0 : Word} {s_1 : State} {u : State}  (hu : coreOf s_1 = coreOf u) : KeepsCore (execSchedBellCfgWrite value_0 s_1) u := KeepsCore.trans (execSchedBellCfgWrite_kept value_0 s_1) hu

@[simp] theorem ptpEdge_kept (s : State) : kept (ptpEdge s) = kept s := by
  unfold ptpEdge
  split
  · rfl
  · split
    · rw [setBell_kept] <;> intro b <;> rfl
    · simp only []; rw [setBell_kept]
      · exact takeFree_kept s
      · intro b; rfl
      · intro b; rfl

theorem takeSource_num (b : Bell) : (takeSource b).num = b.num ∧ confBell (takeSource b) = confBell b := by unfold takeSource; simp only []; split <;> exact ⟨rfl, rfl⟩

theorem advanceBell_num (s : State) : kept (advanceBell s) = ⟨{ (kept s).core with bell := s.bell.num + 1 }, { (kept s).conf with bell := (s.bell.cfg, .dispatch, false) }⟩ := by
  unfold advanceBell
  simp only []
  have h : ∀ t : State, kept (if bit (ptpEdge t).bell.cfg 4 then emit .bellOut (ptpEdge t) else ptpEdge t) = kept t := by
    intro t; split <;> simp
  rw [h]
  simp only [kept, setBell, coreBell, takeSource_num]; rfl

@[simp] theorem rollCounts_kept (cuts_0 : List (Nat × Nat)) (s_1 : State) : kept (rollCounts cuts_0 s_1) = kept s_1 := by
  unfold rollCounts; simp

@[simp] theorem takeEligible_kept (s_0 : State) : kept (takeEligible s_0) = kept s_0 := by
  unfold takeEligible; simp

@[simp] theorem parityCheck_kept (w_0 : Option Nat) (s_1 : State) : kept (parityCheck w_0 s_1) = kept s_1 := by
  (unfold parityCheck; repeat' split) <;> simp [*]

@[simp] theorem refuseSelector_kept (h_0 : Hdr) (opcode_1 : Nat) (code_2 : Code) (s_3 : State) : kept (refuseSelector h_0 opcode_1 code_2 s_3) = kept s_3 := by
  (unfold refuseSelector; repeat' split) <;> simp [*]

theorem execCommandEntryInvalid_kept (e : RawEntry) (s : State) : Keeps (execCommandEntryInvalid e s) s := by
  unfold execCommandEntryInvalid
  apply Keeps.plainCmd
  (repeat' split) <;> simp

theorem runSession_om (i : Instr) (s : State) : KeepsMem (runSession i s) (kept s) := by
  unfold runSession
  split
  · exact execOpenSession_om _ _ _
  · exact (execConfigureStream_kept _ _ _ _).mem
  · exact (execConfigureRate_kept _ _ _).mem
  · exact (execConfigureResilience_kept _ _ _).mem
  · exact (execConfigureHostTransport_kept _ _ _).mem
  · exact (execSubmitFrameAperture_kept _ _ _).mem
  · exact (execSubmitFrameHost_kept _ _ _).mem
  · exact (execPark_kept _ _ _).mem
  · exact (execParkCold_kept _ _ _).mem
  · exact (execResume_kept _ _ _).mem
  · exact (execClose_kept _ _ _).mem
  · exact (execSetRateBounds_kept _ _ _).mem
  · exact (execFeedbackAck_kept _ _ _ _).mem
  · exact (execFeedbackLoss_kept _ _ _ _).mem
  · exact (execFeedbackKeyRequest_kept _ _ _).mem
  · exact (execFeedbackRateReport_kept _ _ _ _ _).mem
  · exact (execKeyLoad_kept _ _ _).mem
  · exact (execKeyErase_kept _ _ _).mem
  · exact (execAttachReceiver_kept _ _ _).mem
  · exact (execDecodeBind_kept _ _ _).mem
  · exact (execDecodeData_kept _ _ _).mem
  · exact (execDecodeRelease_kept _ _ _ _).mem
  · exact (execDecodeFlush_kept _ _ _).mem
  · exact (execSnapshotSession_kept _ _ _ _).mem
  · exact (execCommandEntryInvalid_kept _ _).mem
  · exact KeepsMem.next (OM.refl _)

@[simp] theorem runDeferred_om (s : State) {u : Kept} (h : OM u (kept s)) : OM u (kept (runDeferred s)) := by
  unfold runDeferred
  refine OM.foldl (fun t a ht => ?_) (by simpa using h)
  split
  · exact ht.trans (runSession_om _ _ _ (by assumption))
  · exact ht

/-- The kept part of the machine whose next Bell starts. -/
def atBellStart (s : State) : Kept :=
  ⟨{ (kept s).core with bell := s.bell.num + 1 }, { (kept s).conf with bell := (s.bell.cfg, .dispatch, false) }⟩

@[simp] theorem atBellStart_dev (s : State) (d : Dev) (h : coreDev d = coreDev s.dev) (h' : confDev d = confDev s.dev) : atBellStart { s with dev := d } = atBellStart s := by
  simp only [atBellStart, kept, h, h']

theorem bellStart_om (env : BellEnv) (s : State) : OM (atBellStart s) (kept (bellStart env s)) := by
  unfold bellStart
  dsimp only
  simp only [dispatchShadows_kept]
  refine dispatchCadence_om _ (dispatchParked_om _ ?_)
  simp only [rotateBell_kept, rebalance_kept]
  refine runDeferred_om _ (OM.of ?_)
  simp only [depotCheck_kept, takeMoves_kept, tandemBell_kept]
  have hd : ∀ x : State, kept { x with dev := { x.dev with noDispatch := x.dev.safe } } = kept x := fun x => by simp
  rw [hd]
  simp only [parityCheck_kept, thermalStep_kept, takeEligible_kept, rollCounts_kept, advanceBell_num]
  have h := powerStep_kept { s with pwr := { s.pwr with aspmL1 := env.aspmL1 } }
  have hb := bell_of_kept h
  have hn := of_core (congrArg Kept.core h)
  rw [h, hb.1, hn.2.2.1]
  rfl

/-- Of what is kept a Bell start changes the number and the window, and DRAM. -/
theorem bellStart_fields (env : BellEnv) (s : State) :
    (bellStart env s).bell.num = s.bell.num + 1 ∧ (bellStart env s).bell.window = .dispatch ∧ (bellStart env s).bell.cut = false ∧
    (bellStart env s).bell.cfg = s.bell.cfg ∧ (bellStart env s).sec.flash = s.sec.flash ∧ (bellStart env s).sec.svn = s.sec.svn ∧
    (bellStart env s).dev.perstN = s.dev.perstN ∧ (bellStart env s).dev.stopped = s.dev.stopped := by
  have h := (bellStart_om env s).rest
  generalize bellStart env s = t at *
  have h3 := congrArg Kept.core h
  have h4 := congrArg Kept.conf h
  simp only [erase, atBellStart, kept, Core.mk.injEq, Conf.mk.injEq, coreBell_eq, coreDev_eq, coreSec_eq, confBell_eq, Prod.mk.injEq] at h3 h4
  exact ⟨h3.2.2.1, h4.1.2.1, h4.1.2.2, h4.1.1, h3.2.2.2.2.1, h3.2.2.2.2.2.1, h3.2.2.2.1.1, h3.2.2.2.1.2.1⟩

/-- A next state of BELL_START is the machine itself, where it is stopped or a task dispatched has not committed, or the next Bell's start. -/
theorem execBellStart_om (env : BellEnv) (s t : State) (h : execBellStart env s = .next t) : t = s ∨ OM (atBellStart s) (kept t) := by
  unfold execBellStart Machine.live at h
  split at h
  · cases h; exact .inl rfl
  · cases h
    beta_reduce
    split
    · exact .inr (bellStart_om env s)
    · exact .inl rfl

/-- The kept part of the machine in another window of its Bell. -/
def keptIn (w : Window) (s : State) : Kept := ⟨(kept s).core, { (kept s).conf with bell := (s.bell.cfg, w, true) }⟩

/-- What FENCE_CUT leaves of what is kept. -/
theorem execFenceCut_om (s : State) (hs : s.dev.stopped = false) (hp : s.dev.perstN = true) (hw : s.bell.window = .dispatch) (hc : s.bell.cut = false) :
    ∃ t, execFenceCut s = .next t ∧ OM (keptIn .dispatch s) (kept t) := by
  refine ⟨_, by simp only [execFenceCut, live, hs, hp, hw, hc]; rfl, ?_⟩
  refine dispatchOver_om _ ?_
  simp only [dispatchForks_kept, dispatchShadows_kept]
  refine dispatchCadence_om _ (truncateDue_om _ (OM.of ?_))
  simp only [keptIn, kept, setBell, coreBell_eq, confBell_eq, hw]

/-- What a fence cut does to what is kept, field by field. -/
theorem keptIn_fields {w : Window} {s t : State} (h : OM (keptIn w s) (kept t)) :
    t.bell.num = s.bell.num ∧ t.bell.window = w ∧ t.bell.cut = true ∧ t.bell.cfg = s.bell.cfg ∧ t.sec.flash = s.sec.flash ∧ t.sec.svn = s.sec.svn ∧
    t.dev.perstN = s.dev.perstN ∧ t.dev.stopped = s.dev.stopped := by
  have h3 := congrArg Kept.core h.rest
  have h4 := congrArg Kept.conf h.rest
  simp only [erase, keptIn, kept, Core.mk.injEq, Conf.mk.injEq, coreBell_eq, coreDev_eq, coreSec_eq, confBell_eq, Prod.mk.injEq] at h3 h4
  exact ⟨h3.2.2.1, h4.1.2.1, h4.1.2.2, h4.1.1, h3.2.2.2.2.1, h3.2.2.2.2.2.1, h3.2.2.2.1.1, h3.2.2.2.1.2.1⟩

/-- What GUARD_OPEN leaves of what is kept. -/
theorem execGuardOpen_kept (s : State) (hs : s.dev.stopped = false) (hp : s.dev.perstN = true) (hw : s.bell.window ≠ .guard) :
    ∃ t, execGuardOpen s = .next t ∧ kept t = keptIn .guard s ∧ t.sess.burst = false ∧ t.tandem.hbSent = false ∧
      (∃ l : NMap Chan, t.memc.chans = l.map (fun e => (e.1, { e.2 with paused := false }))) ∧
      (∃ l : NMap Quarter, t.quarters = l.map (fun e => (e.1, { e.2 with edge := e.2.pend }))) := by
  refine ⟨_, by simp only [execGuardOpen, live, hs, hp, hw]; rfl, ?_, rfl, rfl, ⟨_, rfl⟩, ⟨_, rfl⟩⟩
  have hg : ∀ x : State, kept { x with
      sess := { x.sess with burst := false }, tandem := { x.tandem with hbSent := false },
      memc := { x.memc with chans := x.memc.chans.map (fun e => (e.1, { e.2 with paused := false })) },
      quarters := x.quarters.map (fun e => (e.1, { e.2 with edge := e.2.pend })) } = kept x := fun x => by simp
  exact (hg _).trans (by simp; rfl)

/-- With no command waiting only the window may change. -/
theorem idle_kept (s : State) : kept (idle s) = kept s ∨ kept (idle s) = keptIn .work s := by
  unfold idle
  (repeat' split) <;> first | exact .inl rfl | skip
  rename_i h
  refine .inr ?_
  simp only [Bool.and_eq_true] at h
  simp only [keptIn, kept, setBell, confBell_eq, coreBell_eq, h.1]

theorem execHelmHeartbeatTimeout_kept (core_0 : Nat) (s_1 : State) : Keeps (execHelmHeartbeatTimeout core_0 s_1) s_1 := by
  unfold execHelmHeartbeatTimeout
  simp

end Sys2Proof.Machine
end

