-- ==== Sys2Proof/Laws/KeptSecurity.lean ====
section
/-! SUPPORT. What the definitions of Machine/Security.lean keep of the state. -/

namespace Sys2Proof.Machine
open Sys2Proof

@[simp] theorem setSec_kept (s : State) (g : Sec → Sec) (h : ∀ x, coreSec (g x) = coreSec x) : kept (setSec s g) = kept s := by
  unfold setSec; simp only [kept_mk, h]

@[simp] theorem secRefuse_kept (code_0 : Code) (s_1 : State) : kept (secRefuse code_0 s_1) = kept s_1 := by
  unfold secRefuse; simp

@[simp] theorem startErase_kept (s_0 : State) : kept (startErase s_0) = kept s_0 := by
  unfold startErase; simp

@[simp] theorem startProgram_kept (data_0 : Option (List Byte)) (s_1 : State) : kept (startProgram data_0 s_1) = kept s_1 := by
  (unfold startProgram; repeat' split) <;> simp [*]

theorem execFlashErase_kept (s_0 : State) : Keeps (execFlashErase s_0) s_0 := by
  unfold execFlashErase
  simp

theorem execFlashProgram_kept (data_0 : Option (List Byte)) (s_1 : State) : Keeps (execFlashProgram data_0 s_1) s_1 := by
  unfold execFlashProgram
  simp

@[simp] theorem setSpdm_kept (via_0 : Spdm) (n_1 : Nat) (s_2 : State) : kept (setSpdm via_0 n_1 s_2) = kept s_2 := by
  (unfold setSpdm; repeat' split) <;> simp [*]

@[simp] theorem drawn_kept (s : State) : kept (drawn s) = kept s := by
  unfold drawn; simp

theorem spdmAnswer_kept (via : Spdm) (r n : Nat) (body : State → SpdmBody) (s : State) (f : State → State) (hf : ∀ y, kept (f y) = kept y) :
    Keeps (spdmAnswer via r n body s f) s := by
  unfold spdmAnswer; apply Keeps.live; (try simp only []); split <;> simp [hf]
@[simp] theorem spdmAnswer_keeps {via : Spdm} {r n : Nat} {body : State → SpdmBody} {s : State} {f : State → State} {u : State} (hf : ∀ y, kept (f y) = kept y)
    (hu : kept s = kept u) : Keeps (spdmAnswer via r n body s f) u := Keeps.trans (spdmAnswer_kept via r n body s f hf) hu

theorem execGetVersion_kept (via_0 : Spdm) (s_1 : State) : Keeps (execGetVersion via_0 s_1) s_1 := by
  unfold execGetVersion
  simp

theorem execGetCapabilities_kept (via_0 : Spdm) (s_1 : State) : Keeps (execGetCapabilities via_0 s_1) s_1 := by
  unfold execGetCapabilities
  simp

theorem execNegotiateAlgorithms_kept (via_0 : Spdm) (s_1 : State) : Keeps (execNegotiateAlgorithms via_0 s_1) s_1 := by
  unfold execNegotiateAlgorithms
  simp

theorem execGetDigests_kept (via_0 : Spdm) (s_1 : State) : Keeps (execGetDigests via_0 s_1) s_1 := by
  unfold execGetDigests
  simp

theorem execGetCertificate_kept (via_0 : Spdm) (s_1 : State) : Keeps (execGetCertificate via_0 s_1) s_1 := by
  unfold execGetCertificate
  simp

theorem execChallenge_kept (via_0 : Spdm) (s_1 : State) : Keeps (execChallenge via_0 s_1) s_1 := by
  unfold execChallenge
  simp

theorem execGetMeasurements_kept (via_0 : Spdm) (s_1 : State) : Keeps (execGetMeasurements via_0 s_1) s_1 := by
  unfold execGetMeasurements
  simp

@[simp] theorem noticeReset_kept (s_0 : State) : kept (noticeReset s_0) = kept s_0 := by
  unfold noticeReset; simp

theorem execI3cTelemetry_kept (s_0 : State) : Keeps (execI3cTelemetry s_0) s_0 := by
  unfold execI3cTelemetry
  simp

theorem execI3cResetArm_kept (s_0 : State) : Keeps (execI3cResetArm s_0) s_0 := by
  unfold execI3cResetArm
  simp

end Sys2Proof.Machine
end

