-- ==== Sys2Proof/Laws/KeptFirmware.lean ====
section
/-! SUPPORT. What the definitions of Machine/Firmware.lean keep of the state. -/

namespace Sys2Proof.Machine
open Sys2Proof

@[simp] theorem takeKeys_kept (s : State) : kept (takeKeys s) = kept s := by
  unfold takeKeys; simp

@[simp] theorem takePackage_kept (p : List Byte) (s : State) : kept (takePackage p s) = kept s := by
  unfold takePackage; split <;> simp

@[simp] theorem takePackages_kept (n a : Nat) (s : State) : kept (takePackages n a s) = kept s := by
  induction n generalizing a s with
  | zero => rfl
  | succ n ih => unfold takePackages; split <;> simp [ih]

@[simp] theorem buildLibrary_kept (s : State) : kept (buildLibrary s) = kept s := takePackages_kept ..

end Sys2Proof.Machine
end

