-- ==== Sys2Proof/Laws/KeptBoot.lean ====
section
/-! SUPPORT. What the definitions of Machine/Boot.lean keep of the state. -/

namespace Sys2Proof.Machine
open Sys2Proof

@[simp] theorem failBoot_kept (code_0 : Code) (s_1 : State) : kept (failBoot code_0 s_1) = kept s_1 := by
  unfold failBoot; simp

@[simp] theorem failPlan_kept (code_0 : Code) (s_1 : State) : kept (failPlan code_0 s_1) = kept s_1 := by
  unfold failPlan; simp

@[simp] theorem startBoot_kept (k : Nat) (f : Firmware) (s : State) : kept (startBoot k f s) = kept s := by
  unfold startBoot; simp

@[simp] theorem romWork_kept (s : State) : kept (romWork s) = kept s := by
  unfold romWork; dsimp only; split <;> simp

/-- A kept part with other bytes of the flash. -/
def setFlash (k : Kept) (f : List Host.Cell) : Kept := { k with core := { k.core with sec := (f, k.core.sec.2) } }

theorem setFlash_kept (f : List Host.Cell) (s : State) : kept (setSec s (fun x => { x with flash := f })) = setFlash (kept s) f := by
  simp [setFlash, kept, setSec, coreSec]

theorem misread_kept (l : List (Nat × Byte)) (s : State) :
    kept (misread l s) = setFlash (kept s) (l.foldl (fun m e => wrCell flashDefault m e.1 e.2) s.sec.flash) := by
  simp [misread, setFlash, kept, setSec, coreSec]

/-- A boot stage keeps the flash, whatever it read of it. -/
theorem readFlash_kept {g : State → State} (h : ∀ y, kept (g y) = kept y) (l : List (Nat × Byte)) (s : State) : kept (readFlash l g s) = kept s := by
  unfold readFlash
  split
  · exact h s
  · rw [setFlash_kept, h, misread_kept]; rfl

theorem readFlash_om {g : State → State} (h : ∀ y, OM (kept y) (kept (g y))) (l : List (Nat × Byte)) (s : State) :
    OM (kept s) (kept (readFlash l g s)) := by
  unfold readFlash
  split
  · exact h s
  · rw [setFlash_kept]
    have h1 := h (misread l s)
    rw [misread_kept] at h1
    exact ⟨congrArg (setFlash · s.sec.flash) h1.rest, h1.wf⟩

@[simp] theorem romStage_kept (s : State) : kept (romStage s) = kept s := by
  unfold romStage; dsimp only; (repeat' split) <;> simp

theorem execBootRomDone_kept (l : List (Nat × Byte)) (s : State) : Keeps (execBootRomDone l s) s :=
  Keeps.live (readFlash_kept romStage_kept l s)

@[simp] theorem startHelm_kept (k : Nat) (f : Firmware) (s : State) : kept (startHelm k f s) = kept s := by
  unfold startHelm; simp

@[simp] theorem startTraining_kept (b : List Byte) (s : State) : kept (startTraining b s) = kept s := by
  unfold startTraining; simp

@[simp] theorem loadPlan_kept (s : State) : kept (loadPlan s) = kept s := by
  unfold loadPlan; (repeat' split) <;> simp

@[simp] theorem loadStage_kept (s : State) : kept (loadStage s) = kept s := by
  unfold loadStage; dsimp only; (repeat' split) <;> simp

theorem execBootLoadDone_kept (l : List (Nat × Byte)) (s : State) : Keeps (execBootLoadDone l s) s :=
  Keeps.live (readFlash_kept loadStage_kept l s)

@[simp] theorem failTrain_kept (code_0 : Code) (s_1 : State) : kept (failTrain code_0 s_1) = kept s_1 := by
  unfold failTrain; simp

@[simp] theorem withholdRecords_kept (s_0 : State) : kept (withholdRecords s_0) = kept s_0 := by
  unfold withholdRecords; simp

@[simp] theorem checkSpare_kept (s_0 : State) : kept (checkSpare s_0) = kept s_0 := by
  unfold checkSpare; simp

theorem execBootTrainDone_kept (i_0 : TrainIn) (s_1 : State) : Keeps (execBootTrainDone i_0 s_1) s_1 := by
  unfold execBootTrainDone
  simp

@[simp] theorem takeRoute_kept (r_0 : RouteEntry) (s_1 : State) : kept (takeRoute r_0 s_1) = kept s_1 := by
  unfold takeRoute; simp

@[simp] theorem dropRetired_kept (s_0 : State) : kept (dropRetired s_0) = kept s_0 := by
  unfold dropRetired; simp

@[simp] theorem firstPlan_kept (i : PlanImage) (s : State) : kept (firstPlan i s) = kept s := by
  unfold firstPlan; simp

@[simp] theorem loadKeys_kept (s : State) : kept (loadKeys s) = kept s := by
  unfold loadKeys; simp

@[simp] theorem stageDefault_om (s : State) {u : Kept} (h : OM u (kept s)) : OM u (kept (stageDefault s)) := by
  unfold stageDefault; simp [h]

theorem initStage_om (s : State) : OM (kept s) (kept (initStage s)) := by
  unfold initStage; dsimp only; (repeat' split) <;> simp

theorem execBootInitDone_om (l : List (Nat × Byte)) (s : State) : KeepsMem (execBootInitDone l s) (kept s) :=
  KeepsMem.live (OM.refl _) (readFlash_om initStage_om l s)

end Sys2Proof.Machine
end

