-- ==== Sys2Proof/Laws/KeptFunctions.lean ====
section
/-! SUPPORT. What the definitions of Machine/Functions.lean keep of the state. -/

namespace Sys2Proof.Machine
open Sys2Proof

@[simp] theorem closeVfSessions_kept (s_0 : State) : kept (closeVfSessions s_0) = kept s_0 := by
  unfold closeVfSessions; simp

@[simp] theorem clearVfIrq_kept (chs_0 : List Nat) (s_1 : State) : kept (clearVfIrq chs_0 s_1) = kept s_1 := by
  unfold clearVfIrq; simp

end Sys2Proof.Machine
end

