-- ==== Sys2Proof/Laws/KeptRegWrite.lean ====
section
/-! SUPPORT. What the definitions of Machine/RegWrite.lean keep of the state. -/

namespace Sys2Proof.Machine
open Sys2Proof

@[simp] theorem logAccess_kept (code_0 : Code) (a_1 : Access) (s_2 : State) : kept (logAccess code_0 a_1 s_2) = kept s_2 := by
  unfold logAccess; simp

@[simp] theorem wakeBy_kept (sp_0 : Space) (s_1 : State) : kept (wakeBy sp_0 s_1) = kept s_1 := by
  (unfold wakeBy; repeat' split) <;> simp [*]

@[simp] theorem readsAs_kept (a_0 : Access) (w_1 : Word) (s_2 : State) : kept (readsAs a_0 w_1 s_2) = kept s_2 := by
  unfold readsAs; simp

theorem onAccess_kept (a : Access) (s : State) (f : State → Res) (hf : ∀ y, Keeps (f y) y) : Keeps (onAccess a s f) s := by
  unfold onAccess; (repeat' split)
  · exact Keeps.next rfl
  · exact Keeps.next (by simp)
  · exact hf s
@[simp] theorem onAccess_keeps {a_0 : Access} {s_1 : State} {f_2 : State → Res} {u : State} (hf_2 : ∀ y0, Keeps (f_2 y0) y0) (hu : kept s_1 = kept u) : Keeps (onAccess a_0 s_1 f_2) u := Keeps.trans (onAccess_kept a_0 s_1 f_2 hf_2) hu

theorem execAccessSizeError_kept (a_0 : Access) (s_1 : State) : Keeps (execAccessSizeError a_0 s_1) s_1 := by
  unfold execAccessSizeError
  simp

theorem execUnimplementedAccess_kept (a_0 : Access) (s_1 : State) : Keeps (execUnimplementedAccess a_0 s_1) s_1 := by
  unfold execUnimplementedAccess
  simp

@[simp] theorem guardFirst_kept (req_0 : Nat) (off_1 : Nat) (v_2 : Word) (s_3 : State) : kept (guardFirst req_0 off_1 v_2 s_3) = kept s_3 := by
  (unfold guardFirst; repeat' split) <;> simp [*]

@[simp] theorem guardCounted_kept (s_0 : State) : kept (guardCounted s_0) = kept s_0 := by
  unfold guardCounted; simp

@[simp] theorem rezoneWrite_kept (q_0 : Nat) (v_1 : Word) (s_2 : State) : kept (rezoneWrite q_0 v_1 s_2) = kept s_2 := by
  unfold rezoneWrite; simp

theorem execGuardedFirstWrite_kept (req_0 : Nat) (off_1 : Nat) (value_2 : Word) (s_3 : State) : Keeps (execGuardedFirstWrite req_0 off_1 value_2 s_3) s_3 := by
  unfold execGuardedFirstWrite
  simp

theorem execGuardTimeout_kept (req_0 : Nat) (s_1 : State) : Keeps (execGuardTimeout req_0 s_1) s_1 := by
  unfold execGuardTimeout
  apply Keeps.live; simp only; (repeat' split) <;> simp [*]

@[simp] theorem readEffect_kept (a_0 : Access) (w_1 : Word) (s_2 : State) : kept (readEffect a_0 w_1 s_2) = kept s_2 := by
  (unfold readEffect; simp; repeat' split) <;> simp [*]

theorem roWrite_kept (resv_0 : Word) (v_1 : Word) (s_2 : State) : Keeps (roWrite resv_0 v_1 s_2) s_2 := by
  unfold roWrite
  simp
@[simp] theorem roWrite_keeps {resv_0 : Word} {v_1 : Word} {s_2 : State} {u : State}  (hu : kept s_2 = kept u) : Keeps (roWrite resv_0 v_1 s_2) u := Keeps.trans (roWrite_kept resv_0 v_1 s_2) hu

theorem writeDev_kept (o : Nat) (v : Word) (s : State) : KeepsCore (writeDev o v s) s := by
  unfold writeDev
  split
  all_goals first
  | (simp; done)
  | (apply Keeps.core; simp; done)
  | (apply blockWrite_keepsCore <;> simp <;> done)
  | (apply devWrite_keepsCore <;> simp <;> done)
  | (refine blockWrite_keepsCore (fun s => ?_) rfl; unfold when; split <;> simp <;> done)
  | (split <;> exact Keeps.core (by simp))
@[simp] theorem writeDev_keeps {o_0 : Nat} {v_1 : Word} {s_2 : State} {u : State}  (hu : coreOf s_2 = coreOf u) : KeepsCore (writeDev o_0 v_1 s_2) u := KeepsCore.trans (writeDev_kept o_0 v_1 s_2) hu

theorem writeRegif_kept (o_0 : Nat) (v_1 : Word) (s_2 : State) : Keeps (writeRegif o_0 v_1 s_2) s_2 := by
  unfold writeRegif
  simp
@[simp] theorem writeRegif_keeps {o_0 : Nat} {v_1 : Word} {s_2 : State} {u : State}  (hu : kept s_2 = kept u) : Keeps (writeRegif o_0 v_1 s_2) u := Keeps.trans (writeRegif_kept o_0 v_1 s_2) hu

theorem writePlan_kept (o : Nat) (v : Word) (s : State) : Keeps (writePlan o v s) s := by
  unfold writePlan
  simp only []
  split
  case h_4 => apply chain_kept (chain_kept (by simp) (by intro y hy; split <;> simp [hy])); intro y hy; split <;> simp [hy]
  all_goals first | (simp; done) | (apply blockWrite_keeps <;> simp <;> done)
@[simp] theorem writePlan_keeps {o_0 : Nat} {v_1 : Word} {s_2 : State} {u : State}  (hu : kept s_2 = kept u) : Keeps (writePlan o_0 v_1 s_2) u := Keeps.trans (writePlan_kept o_0 v_1 s_2) hu

theorem writeSched_kept (o : Nat) (v : Word) (s : State) : KeepsCore (writeSched o v s) s := by
  unfold writeSched
  simp only []
  split
  all_goals first
  | (simp; done)
  | (apply Keeps.core; simp; done)
  | (apply blockWrite_keepsCore <;> simp <;> done)
  | (apply devWrite_keepsCore <;> simp <;> done)
  | (refine blockWrite_keepsCore (fun s => ?_) rfl; unfold when; split <;> simp <;> done)
  | (split <;> exact Keeps.core (by simp))
@[simp] theorem writeSched_keeps {o_0 : Nat} {v_1 : Word} {s_2 : State} {u : State}  (hu : coreOf s_2 = coreOf u) : KeepsCore (writeSched o_0 v_1 s_2) u := KeepsCore.trans (writeSched_kept o_0 v_1 s_2) hu

theorem writeSess_kept (o_0 : Nat) (v_1 : Word) (s_2 : State) : KeepsCore (writeSess o_0 v_1 s_2) s_2 := by
  unfold writeSess
  (try dsimp only []); (repeat' split) <;> first | (simp [*]; done) | (apply blockWrite_keepsCore <;> simp [*] <;> done) | (apply Keeps.core; simp [*]; done) | (apply Keeps.core; apply blockWrite_keeps <;> simp [*] <;> done) | (apply KeepsCore.trans (Keeps.core (by simp)) <;> simp <;> done)
@[simp] theorem writeSess_keeps {o_0 : Nat} {v_1 : Word} {s_2 : State} {u : State}  (hu : coreOf s_2 = coreOf u) : KeepsCore (writeSess o_0 v_1 s_2) u := KeepsCore.trans (writeSess_kept o_0 v_1 s_2) hu

theorem writeIngest_kept (o : Nat) (v : Word) (s : State) : KeepsCore (writeIngest o v s) s := by
  unfold writeIngest
  split
  · exact KeepsCore.trans (execIngestCtrlWrite_kept _ _ _) (congrArg Kept.core (takeFree_kept s))
  all_goals first
  | (simp; done)
  | (apply Keeps.core; simp; done)
  | (apply blockWrite_keepsCore <;> simp <;> done)
  | (apply devWrite_keepsCore <;> simp <;> done)
  | (refine blockWrite_keepsCore (fun s => ?_) rfl; unfold when; split <;> simp <;> done)
  | (split <;> exact Keeps.core (by simp))
@[simp] theorem writeIngest_keeps {o_0 : Nat} {v_1 : Word} {s_2 : State} {u : State}  (hu : coreOf s_2 = coreOf u) : KeepsCore (writeIngest o_0 v_1 s_2) u := KeepsCore.trans (writeIngest_kept o_0 v_1 s_2) hu

theorem writeRc_kept (o_0 : Nat) (v_1 : Word) (s_2 : State) : KeepsCore (writeRc o_0 v_1 s_2) s_2 := by
  unfold writeRc
  (try dsimp only []); (repeat' split) <;> first | (simp [*]; done) | (apply blockWrite_keepsCore <;> simp [*] <;> done) | (apply Keeps.core; simp [*]; done) | (apply Keeps.core; apply blockWrite_keeps <;> simp [*] <;> done) | (apply KeepsCore.trans (Keeps.core (by simp)) <;> simp <;> done)
@[simp] theorem writeRc_keeps {o_0 : Nat} {v_1 : Word} {s_2 : State} {u : State}  (hu : coreOf s_2 = coreOf u) : KeepsCore (writeRc o_0 v_1 s_2) u := KeepsCore.trans (writeRc_kept o_0 v_1 s_2) hu

theorem writeDec_kept (o : Nat) (v : Word) (s : State) : KeepsCore (writeDec o v s) s := by
  unfold writeDec
  split
  all_goals first
  | (simp; done)
  | (apply Keeps.core; simp; done)
  | (apply blockWrite_keepsCore <;> simp <;> done)
  | (apply devWrite_keepsCore <;> simp <;> done)
  | (refine blockWrite_keepsCore (fun s => ?_) rfl; unfold when; split <;> simp <;> done)
  | (split <;> exact Keeps.core (by simp))
@[simp] theorem writeDec_keeps {o_0 : Nat} {v_1 : Word} {s_2 : State} {u : State}  (hu : coreOf s_2 = coreOf u) : KeepsCore (writeDec o_0 v_1 s_2) u := KeepsCore.trans (writeDec_kept o_0 v_1 s_2) hu

theorem writePool_kept (o_0 : Nat) (v_1 : Word) (s_2 : State) : KeepsCore (writePool o_0 v_1 s_2) s_2 := by
  unfold writePool
  (try dsimp only []); (repeat' split) <;> first | (simp [*]; done) | (apply blockWrite_keepsCore <;> simp [*] <;> done) | (apply Keeps.core; simp [*]; done) | (apply Keeps.core; apply blockWrite_keeps <;> simp [*] <;> done) | (apply KeepsCore.trans (Keeps.core (by simp)) <;> simp <;> done)
@[simp] theorem writePool_keeps {o_0 : Nat} {v_1 : Word} {s_2 : State} {u : State}  (hu : coreOf s_2 = coreOf u) : KeepsCore (writePool o_0 v_1 s_2) u := KeepsCore.trans (writePool_kept o_0 v_1 s_2) hu

theorem writeQueue_kept (o_0 : Nat) (v_1 : Word) (s_2 : State) : KeepsCore (writeQueue o_0 v_1 s_2) s_2 := by
  unfold writeQueue
  (try dsimp only []); (repeat' split) <;> first | (simp [*]; done) | (apply blockWrite_keepsCore <;> simp [*] <;> done) | (apply Keeps.core; simp [*]; done) | (apply Keeps.core; apply blockWrite_keeps <;> simp [*] <;> done) | (apply KeepsCore.trans (Keeps.core (by simp)) <;> simp <;> done)
@[simp] theorem writeQueue_keeps {o_0 : Nat} {v_1 : Word} {s_2 : State} {u : State}  (hu : coreOf s_2 = coreOf u) : KeepsCore (writeQueue o_0 v_1 s_2) u := KeepsCore.trans (writeQueue_kept o_0 v_1 s_2) hu

theorem writeChannel_kept (c o : Nat) (v : Word) (s : State) : Keeps (writeChannel c o v s) s := by
  unfold writeChannel
  split
  · apply chain_kept (by simp); intro y hy; split <;> simp [hy]
  all_goals first | (simp; done) | (apply blockWrite_keeps <;> simp <;> done)
@[simp] theorem writeChannel_keeps {c_0 : Nat} {o_1 : Nat} {v_2 : Word} {s_3 : State} {u : State}  (hu : kept s_3 = kept u) : Keeps (writeChannel c_0 o_1 v_2 s_3) u := Keeps.trans (writeChannel_kept c_0 o_1 v_2 s_3) hu

theorem writeDma_kept (o_0 : Nat) (v_1 : Word) (s_2 : State) : Keeps (writeDma o_0 v_1 s_2) s_2 := by
  unfold writeDma
  (repeat' split) <;> simp [*]
@[simp] theorem writeDma_keeps {o_0 : Nat} {v_1 : Word} {s_2 : State} {u : State}  (hu : kept s_2 = kept u) : Keeps (writeDma o_0 v_1 s_2) u := Keeps.trans (writeDma_kept o_0 v_1 s_2) hu

theorem writePort_kept (p_0 : Nat) (o_1 : Nat) (v_2 : Word) (s_3 : State) : Keeps (writePort p_0 o_1 v_2 s_3) s_3 := by
  unfold writePort
  (repeat' split) <;> simp [*]
@[simp] theorem writePort_keeps {p_0 : Nat} {o_1 : Nat} {v_2 : Word} {s_3 : State} {u : State}  (hu : kept s_3 = kept u) : Keeps (writePort p_0 o_1 v_2 s_3) u := Keeps.trans (writePort_kept p_0 o_1 v_2 s_3) hu

theorem writeNet_kept (o : Nat) (v : Word) (s : State) : KeepsCore (writeNet o v s) s := by
  unfold writeNet
  split
  all_goals first
  | (simp; done)
  | (apply Keeps.core; simp; done)
  | (apply blockWrite_keepsCore <;> simp <;> done)
  | (apply devWrite_keepsCore <;> simp <;> done)
  | (refine blockWrite_keepsCore (fun s => ?_) rfl; unfold when; split <;> simp <;> done)
  | (split <;> exact Keeps.core (by simp))
@[simp] theorem writeNet_keeps {o_0 : Nat} {v_1 : Word} {s_2 : State} {u : State}  (hu : coreOf s_2 = coreOf u) : KeepsCore (writeNet o_0 v_1 s_2) u := KeepsCore.trans (writeNet_kept o_0 v_1 s_2) hu

theorem writeTandem_kept (o_0 : Nat) (v_1 : Word) (s_2 : State) : Keeps (writeTandem o_0 v_1 s_2) s_2 := by
  unfold writeTandem
  (repeat' split) <;> simp [*]
@[simp] theorem writeTandem_keeps {o_0 : Nat} {v_1 : Word} {s_2 : State} {u : State}  (hu : kept s_2 = kept u) : Keeps (writeTandem o_0 v_1 s_2) u := Keeps.trans (writeTandem_kept o_0 v_1 s_2) hu

theorem writeIrq_kept (o_0 : Nat) (v_1 : Word) (s_2 : State) : Keeps (writeIrq o_0 v_1 s_2) s_2 := by
  unfold writeIrq
  (repeat' split) <;> simp [*]
@[simp] theorem writeIrq_keeps {o_0 : Nat} {v_1 : Word} {s_2 : State} {u : State}  (hu : kept s_2 = kept u) : Keeps (writeIrq o_0 v_1 s_2) u := Keeps.trans (writeIrq_kept o_0 v_1 s_2) hu

theorem writeHelm_kept (o_0 : Nat) (v_1 : Word) (s_2 : State) : Keeps (writeHelm o_0 v_1 s_2) s_2 := by
  unfold writeHelm
  (try dsimp only []); (repeat' split) <;> first | (simp [*]; done) | (apply blockWrite_keeps <;> simp <;> done) | (apply devWrite_keeps <;> simp <;> done) | (apply fnWrite_keeps <;> simp <;> done)
@[simp] theorem writeHelm_keeps {o_0 : Nat} {v_1 : Word} {s_2 : State} {u : State}  (hu : kept s_2 = kept u) : Keeps (writeHelm o_0 v_1 s_2) u := Keeps.trans (writeHelm_kept o_0 v_1 s_2) hu

theorem writeBist_kept (o_0 : Nat) (v_1 : Word) (s_2 : State) : KeepsCore (writeBist o_0 v_1 s_2) s_2 := by
  unfold writeBist
  (try dsimp only []); (repeat' split) <;> first | (simp [*]; done) | (apply blockWrite_keepsCore <;> simp [*] <;> done) | (apply Keeps.core; simp [*]; done) | (apply Keeps.core; apply blockWrite_keeps <;> simp [*] <;> done) | (apply KeepsCore.trans (Keeps.core (by simp)) <;> simp <;> done)
@[simp] theorem writeBist_keeps {o_0 : Nat} {v_1 : Word} {s_2 : State} {u : State}  (hu : coreOf s_2 = coreOf u) : KeepsCore (writeBist o_0 v_1 s_2) u := KeepsCore.trans (writeBist_kept o_0 v_1 s_2) hu

theorem writeSext_kept (o_0 : Nat) (v_1 : Word) (s_2 : State) : KeepsCore (writeSext o_0 v_1 s_2) s_2 := by
  unfold writeSext
  (try dsimp only []); (repeat' split) <;> first | (simp [*]; done) | (apply blockWrite_keepsCore <;> simp [*] <;> done) | (apply Keeps.core; simp [*]; done) | (apply Keeps.core; apply blockWrite_keeps <;> simp [*] <;> done) | (apply KeepsCore.trans (Keeps.core (by simp)) <;> simp <;> done)
@[simp] theorem writeSext_keeps {o_0 : Nat} {v_1 : Word} {s_2 : State} {u : State}  (hu : coreOf s_2 = coreOf u) : KeepsCore (writeSext o_0 v_1 s_2) u := KeepsCore.trans (writeSext_kept o_0 v_1 s_2) hu

theorem writePwr_kept (o_0 : Nat) (v_1 : Word) (s_2 : State) : KeepsCore (writePwr o_0 v_1 s_2) s_2 := by
  unfold writePwr
  (try dsimp only []); (repeat' split) <;> first | (simp [*]; done) | (apply blockWrite_keepsCore <;> simp [*] <;> done) | (apply Keeps.core; simp [*]; done) | (apply Keeps.core; apply blockWrite_keeps <;> simp [*] <;> done) | (apply KeepsCore.trans (Keeps.core (by simp)) <;> simp <;> done)
@[simp] theorem writePwr_keeps {o_0 : Nat} {v_1 : Word} {s_2 : State} {u : State}  (hu : coreOf s_2 = coreOf u) : KeepsCore (writePwr o_0 v_1 s_2) u := KeepsCore.trans (writePwr_kept o_0 v_1 s_2) hu

@[simp] theorem flashCtrl_kept (v_0 : Word) (s_1 : State) : kept (flashCtrl v_0 s_1) = kept s_1 := by
  (unfold flashCtrl; simp; repeat' split) <;> simp [*]

theorem writeSec_kept (o_0 : Nat) (v_1 : Word) (s_2 : State) : Keeps (writeSec o_0 v_1 s_2) s_2 := by
  unfold writeSec
  (try dsimp only []); (repeat' split) <;> first | (simp [*]; done) | (apply blockWrite_keeps <;> simp <;> done) | (apply devWrite_keeps <;> simp <;> done) | (apply fnWrite_keeps <;> simp <;> done)
@[simp] theorem writeSec_keeps {o_0 : Nat} {v_1 : Word} {s_2 : State} {u : State}  (hu : kept s_2 = kept u) : Keeps (writeSec o_0 v_1 s_2) u := Keeps.trans (writeSec_kept o_0 v_1 s_2) hu

@[simp] theorem memcRefuse_kept (code_0 : Code) (s_1 : State) : kept (memcRefuse code_0 s_1) = kept s_1 := by
  unfold memcRefuse; simp

@[simp] theorem retireCfg_kept (v_0 : Word) (s_1 : State) : kept (retireCfg v_0 s_1) = kept s_1 := by
  unfold retireCfg; simp

theorem writeMemc_kept (o_0 : Nat) (v_1 : Word) (s_2 : State) : KeepsCore (writeMemc o_0 v_1 s_2) s_2 := by
  unfold writeMemc
  (try dsimp only []); (repeat' split) <;> first | (simp [*]; done) | (apply blockWrite_keepsCore <;> simp [*] <;> done) | (apply Keeps.core; simp [*]; done) | (apply Keeps.core; apply blockWrite_keeps <;> simp [*] <;> done) | (apply KeepsCore.trans (Keeps.core (by simp)) <;> simp <;> done)
@[simp] theorem writeMemc_keeps {o_0 : Nat} {v_1 : Word} {s_2 : State} {u : State}  (hu : coreOf s_2 = coreOf u) : KeepsCore (writeMemc o_0 v_1 s_2) u := KeepsCore.trans (writeMemc_kept o_0 v_1 s_2) hu

theorem writeChan_kept (o_0 : Nat) (v_1 : Word) (s_2 : State) : Keeps (writeChan o_0 v_1 s_2) s_2 := by
  unfold writeChan
  simp
@[simp] theorem writeChan_keeps {o_0 : Nat} {v_1 : Word} {s_2 : State} {u : State}  (hu : kept s_2 = kept u) : Keeps (writeChan o_0 v_1 s_2) u := Keeps.trans (writeChan_kept o_0 v_1 s_2) hu

theorem writeQtr_kept (q o : Nat) (v : Word) (s : State) : Keeps (writeQtr q o v s) s := by
  unfold writeQtr
  split
  · apply chain_kept (by simp); intro y hy; (repeat' split) <;> simp [hy]
  all_goals first | (simp; done) | (apply blockWrite_keeps <;> simp <;> done)
@[simp] theorem writeQtr_keeps {q_0 : Nat} {o_1 : Nat} {v_2 : Word} {s_3 : State} {u : State}  (hu : kept s_3 = kept u) : Keeps (writeQtr q_0 o_1 v_2 s_3) u := Keeps.trans (writeQtr_kept q_0 o_1 v_2 s_3) hu

theorem writeEngine_kept (o_0 : Nat) (v_1 : Word) (s_2 : State) : Keeps (writeEngine o_0 v_1 s_2) s_2 := by
  unfold writeEngine
  simp
@[simp] theorem writeEngine_keeps {o_0 : Nat} {v_1 : Word} {s_2 : State} {u : State}  (hu : kept s_2 = kept u) : Keeps (writeEngine o_0 v_1 s_2) u := Keeps.trans (writeEngine_kept o_0 v_1 s_2) hu

theorem writeWatch_kept (w_0 : Nat) (o_1 : Nat) (v_2 : Word) (s_3 : State) : Keeps (writeWatch w_0 o_1 v_2 s_3) s_3 := by
  unfold writeWatch
  (repeat' split) <;> simp [*]
@[simp] theorem writeWatch_keeps {w_0 : Nat} {o_1 : Nat} {v_2 : Word} {s_3 : State} {u : State}  (hu : kept s_3 = kept u) : Keeps (writeWatch w_0 o_1 v_2 s_3) u := Keeps.trans (writeWatch_kept w_0 o_1 v_2 s_3) hu

@[simp] theorem ringCfg_kept (en_0 : Bool) (no_1 : State → State) (yes_2 : State → State) (s_3 : State) (hno_1 : ∀ y0, kept (no_1 y0) = kept y0) (hyes_2 : ∀ y0, kept (yes_2 y0) = kept y0) : kept (ringCfg en_0 no_1 yes_2 s_3) = kept s_3 := by
  (unfold ringCfg; repeat' split) <;> simp [*]

theorem writeCmdRing_kept (f_0 : Nat) (r_1 : Nat) (o_2 : Nat) (v_3 : Word) (s_4 : State) : Keeps (writeCmdRing f_0 r_1 o_2 v_3 s_4) s_4 := by
  unfold writeCmdRing
  (repeat' split) <;> simp [*]
@[simp] theorem writeCmdRing_keeps {f_0 : Nat} {r_1 : Nat} {o_2 : Nat} {v_3 : Word} {s_4 : State} {u : State}  (hu : kept s_4 = kept u) : Keeps (writeCmdRing f_0 r_1 o_2 v_3 s_4) u := Keeps.trans (writeCmdRing_kept f_0 r_1 o_2 v_3 s_4) hu

theorem writeCqRing_kept (f_0 : Nat) (r_1 : Nat) (o_2 : Nat) (v_3 : Word) (s_4 : State) : Keeps (writeCqRing f_0 r_1 o_2 v_3 s_4) s_4 := by
  unfold writeCqRing
  (repeat' split) <;> simp [*]
@[simp] theorem writeCqRing_keeps {f_0 : Nat} {r_1 : Nat} {o_2 : Nat} {v_3 : Word} {s_4 : State} {u : State}  (hu : kept s_4 = kept u) : Keeps (writeCqRing f_0 r_1 o_2 v_3 s_4) u := Keeps.trans (writeCqRing_kept f_0 r_1 o_2 v_3 s_4) hu

theorem writeEvq_kept (f_0 : Nat) (o_1 : Nat) (v_2 : Word) (s_3 : State) : Keeps (writeEvq f_0 o_1 v_2 s_3) s_3 := by
  unfold writeEvq
  (repeat' split) <;> simp [*]
@[simp] theorem writeEvq_keeps {f_0 : Nat} {o_1 : Nat} {v_2 : Word} {s_3 : State} {u : State}  (hu : kept s_3 = kept u) : Keeps (writeEvq f_0 o_1 v_2 s_3) u := Keeps.trans (writeEvq_kept f_0 o_1 v_2 s_3) hu

theorem writeMsix_kept (f vec k : Nat) (v : Word) (s : State) : Keeps (writeMsix f vec k v s) s := by
  unfold writeMsix
  simp only []
  split
  · apply fnWrite_keeps <;> simp
  · apply fnWrite_keeps <;> simp
  · apply fnWrite_keeps <;> simp
  · apply chain_kept (by simp); intro y hy; simp [hy]
@[simp] theorem writeMsix_keeps {f_0 : Nat} {vec_1 : Nat} {k_2 : Nat} {v_3 : Word} {s_4 : State} {u : State}  (hu : kept s_4 = kept u) : Keeps (writeMsix f_0 vec_1 k_2 v_3 s_4) u := Keeps.trans (writeMsix_kept f_0 vec_1 k_2 v_3 s_4) hu

theorem writeFn_kept (f_0 : Nat) (o_1 : Nat) (v_2 : Word) (s_3 : State) : Keeps (writeFn f_0 o_1 v_2 s_3) s_3 := by
  unfold writeFn
  (try dsimp only []); (repeat' split) <;> first | (simp [*]; done) | (apply blockWrite_keeps <;> simp <;> done) | (apply devWrite_keeps <;> simp <;> done) | (apply fnWrite_keeps <;> simp <;> done)
@[simp] theorem writeFn_keeps {f_0 : Nat} {o_1 : Nat} {v_2 : Word} {s_3 : State} {u : State}  (hu : kept s_3 = kept u) : Keeps (writeFn f_0 o_1 v_2 s_3) u := Keeps.trans (writeFn_kept f_0 o_1 v_2 s_3) hu

theorem writeBlock_kept (w o : Nat) (v : Word) (s : State) : KeepsCore (writeBlock w o v s) s := by
  unfold writeBlock
  split
  · exact Keeps.core (writeWatch_kept _ _ _ _)
  split
  · exact Keeps.core (writeQtr_kept _ _ _ _)
  split
  · exact Keeps.core (writeChan_kept _ _ _)
  split
  · exact writeDev_kept _ _ _
  · exact Keeps.core (writeRegif_kept _ _ _)
  · exact Keeps.core (writePlan_kept _ _ _)
  · exact writeSched_kept _ _ _
  · exact writeSess_kept _ _ _
  · exact writeIngest_kept _ _ _
  · exact writeRc_kept _ _ _
  · exact writeDec_kept _ _ _
  · exact writePool_kept _ _ _
  · exact writeQueue_kept _ _ _
  · exact Keeps.core (writeDma_kept _ _ _)
  · exact writeNet_kept _ _ _
  · exact Keeps.core (writeTandem_kept _ _ _)
  · exact Keeps.core (writeIrq_kept _ _ _)
  · exact Keeps.core (writeHelm_kept _ _ _)
  · exact writeBist_kept _ _ _
  · exact writeSext_kept _ _ _
  · exact writePwr_kept _ _ _
  · exact Keeps.core (writeSec_kept _ _ _)
  · exact writeMemc_kept _ _ _
@[simp] theorem writeBlock_keeps {w_0 : Nat} {o_1 : Nat} {v_2 : Word} {s_3 : State} {u : State}  (hu : coreOf s_3 = coreOf u) : KeepsCore (writeBlock w_0 o_1 v_2 s_3) u := KeepsCore.trans (writeBlock_kept w_0 o_1 v_2 s_3) hu

@[simp] theorem helmQuiet_kept (off_0 : Nat) (s_1 : State) (t_2 : State) : kept (helmQuiet off_0 s_1 t_2) = kept t_2 := by
  unfold helmQuiet; simp

end Sys2Proof.Machine
end

