-- ==== Sys2Proof/Laws/Maps.lean ====
section
/-! SUPPORT. What a map reads as after a put or a change of one key. -/

namespace Sys2Proof.Machine
open Sys2Proof

@[simp] theorem look_put_self {α : Type} (m : NMap α) (k : Nat) (a : α) : look (put m k a) k = some a := by
  induction m with
  | nil => simp [put, look]
  | cons p t ih =>
    obtain ⟨i, b⟩ := p
    unfold put
    (repeat' split) <;> simp_all [look]
theorem look_put_ne {α : Type} (m : NMap α) {k j : Nat} (a : α) (h : j ≠ k) : look (put m k a) j = look m j := by
  induction m with
  | nil => simp [put, look]; omega
  | cons p t ih =>
    obtain ⟨i, b⟩ := p
    unfold put
    split
    · have : ¬ k = j := fun e => h e.symm
      simp [look, this]
    · split
      · rename_i h1 h2; subst h2; have : ¬ i = j := fun e => h e.symm
        simp [look, this]
      · simp only [look, ih]

@[simp] theorem lookD_put_self {α : Type} (m : NMap α) (k : Nat) (a d : α) : lookD (put m k a) k d = a := by simp [lookD]
theorem lookD_put_ne {α : Type} (m : NMap α) {k j : Nat} (a d : α) (h : j ≠ k) : lookD (put m k a) j d = lookD m j d := by simp [lookD, look_put_ne m a h]
@[simp] theorem look_alter_self {α : Type} (m : NMap α) (k : Nat) (f : α → α) : look (alter m k f) k = (look m k).map f := by
  induction m with
  | nil => rfl
  | cons p t ih =>
    obtain ⟨i, b⟩ := p
    unfold alter
    split <;> simp_all [look]
theorem look_alter_ne {α : Type} (m : NMap α) {k j : Nat} (f : α → α) (h : j ≠ k) : look (alter m k f) j = look m j := by
  induction m with
  | nil => rfl
  | cons p t ih =>
    obtain ⟨i, b⟩ := p
    have h' : ¬ k = j := fun e => h e.symm
    unfold alter
    split <;> simp_all [look]
@[simp] theorem lookD_bump_self (m : NMap Nat) (k n : Nat) : lookD (bump m k n) k 0 = up (lookD m k 0) n := by simp [bump]
theorem lookD_bump_ne (m : NMap Nat) {k j : Nat} (n : Nat) (h : j ≠ k) : lookD (bump m k n) j 0 = lookD m j 0 := by simp [bump, lookD_put_ne _ _ _ h]
@[simp] theorem qtrOf_setQtr (s : State) (q : Nat) (g : Quarter → Quarter) : qtrOf (setQtr s q g) q = g (qtrOf s q) := by simp [qtrOf, setQtr]
theorem qtrOf_setQtr_ne (s : State) {q p : Nat} (g : Quarter → Quarter) (h : p ≠ q) : qtrOf (setQtr s q g) p = qtrOf s p := by simp [qtrOf, setQtr, lookD_put_ne _ _ _ h]
@[simp] theorem fnOf_setFn (s : State) (f : Nat) (g : Fn → Fn) : fnOf (setFn s f g) f = g (fnOf s f) := by simp [fnOf, setFn]
theorem fnOf_setFn_ne (s : State) {f k : Nat} (g : Fn → Fn) (h : k ≠ f) : fnOf (setFn s f g) k = fnOf s k := by simp [fnOf, setFn, lookD_put_ne _ _ _ h]
@[simp] theorem watchOf_setWatch (s : State) (w : Nat) (g : Watch → Watch) : watchOf (setWatch s w g) w = g (watchOf s w) := by simp [watchOf, setWatch]
theorem watchOf_setWatch_ne (s : State) {w k : Nat} (g : Watch → Watch) (h : k ≠ w) : watchOf (setWatch s w g) k = watchOf s k := by simp [watchOf, setWatch, lookD_put_ne _ _ _ h]
@[simp] theorem engOf_setEng (s : State) (e : Nat) (g : Engine → Engine) : engOf (setEng s e g) e = g (engOf s e) := by simp [engOf, setEng]
@[simp] theorem look_setSess (s : State) (h : Nat) (g : Session → Session) : look (setSess s h g).sessions h = (look s.sessions h).map g := by simp [setSess]
theorem look_setSess_ne (s : State) {h k : Nat} (g : Session → Session) (hk : k ≠ h) : look (setSess s h g).sessions k = look s.sessions k := by simp [setSess, look_alter_ne _ _ hk]

end Sys2Proof.Machine
end

