-- ==== Sys2Proof/Laws/State.lean ====
section
/-! SUPPORT. One lemma per field per update of the state: an update leaves every other field as it was (two of them stand in Kept.lean). -/

namespace Sys2Proof.Machine
open Sys2Proof

@[simp] theorem setBell_pending (s : State) (g : Bell → Bell) : (setBell s g).pending = s.pending := rfl
@[simp] theorem setBell_deferred (s : State) (g : Bell → Bell) : (setBell s g).deferred = s.deferred := rfl
@[simp] theorem setBell_out (s : State) (g : Bell → Bell) : (setBell s g).out = s.out := rfl
@[simp] theorem setBell_freeCtr (s : State) (g : Bell → Bell) : (setBell s g).freeCtr = s.freeCtr := rfl
@[simp] theorem setBell_dev (s : State) (g : Bell → Bell) : (setBell s g).dev = s.dev := rfl
@[simp] theorem setBell_regif (s : State) (g : Bell → Bell) : (setBell s g).regif = s.regif := rfl
@[simp] theorem setBell_plan (s : State) (g : Bell → Bell) : (setBell s g).plan = s.plan := rfl
@[simp] theorem setBell_quarters (s : State) (g : Bell → Bell) : (setBell s g).quarters = s.quarters := rfl
@[simp] theorem setBell_sess (s : State) (g : Bell → Bell) : (setBell s g).sess = s.sess := rfl
@[simp] theorem setBell_sessions (s : State) (g : Bell → Bell) : (setBell s g).sessions = s.sessions := rfl
@[simp] theorem setBell_sched (s : State) (g : Bell → Bell) : (setBell s g).sched = s.sched := rfl
@[simp] theorem setBell_ingest (s : State) (g : Bell → Bell) : (setBell s g).ingest = s.ingest := rfl
@[simp] theorem setBell_rc (s : State) (g : Bell → Bell) : (setBell s g).rc = s.rc := rfl
@[simp] theorem setBell_memc (s : State) (g : Bell → Bell) : (setBell s g).memc = s.memc := rfl
@[simp] theorem setBell_mem (s : State) (g : Bell → Bell) : (setBell s g).mem = s.mem := rfl
@[simp] theorem setBell_ctxCache (s : State) (g : Bell → Bell) : (setBell s g).ctxCache = s.ctxCache := rfl
@[simp] theorem setBell_pool (s : State) (g : Bell → Bell) : (setBell s g).pool = s.pool := rfl
@[simp] theorem setBell_queue (s : State) (g : Bell → Bell) : (setBell s g).queue = s.queue := rfl
@[simp] theorem setBell_vfCount (s : State) (g : Bell → Bell) : (setBell s g).vfCount = s.vfCount := rfl
@[simp] theorem setBell_fns (s : State) (g : Bell → Bell) : (setBell s g).fns = s.fns := rfl
@[simp] theorem setBell_dma (s : State) (g : Bell → Bell) : (setBell s g).dma = s.dma := rfl
@[simp] theorem setBell_irq (s : State) (g : Bell → Bell) : (setBell s g).irq = s.irq := rfl
@[simp] theorem setBell_watches (s : State) (g : Bell → Bell) : (setBell s g).watches = s.watches := rfl
@[simp] theorem setBell_stalled (s : State) (g : Bell → Bell) : (setBell s g).stalled = s.stalled := rfl
@[simp] theorem setBell_tandem (s : State) (g : Bell → Bell) : (setBell s g).tandem = s.tandem := rfl
@[simp] theorem setBell_net (s : State) (g : Bell → Bell) : (setBell s g).net = s.net := rfl
@[simp] theorem setBell_dec (s : State) (g : Bell → Bell) : (setBell s g).dec = s.dec := rfl
@[simp] theorem setBell_engines (s : State) (g : Bell → Bell) : (setBell s g).engines = s.engines := rfl
@[simp] theorem setBell_bist (s : State) (g : Bell → Bell) : (setBell s g).bist = s.bist := rfl
@[simp] theorem setBell_sext (s : State) (g : Bell → Bell) : (setBell s g).sext = s.sext := rfl
@[simp] theorem setBell_mclib (s : State) (g : Bell → Bell) : (setBell s g).mclib = s.mclib := rfl
@[simp] theorem setBell_pwr (s : State) (g : Bell → Bell) : (setBell s g).pwr = s.pwr := rfl
@[simp] theorem setBell_sec (s : State) (g : Bell → Bell) : (setBell s g).sec = s.sec := rfl

@[simp] theorem setEng_pending (s : State) (e : Nat) (g : Engine → Engine) : (setEng s e g).pending = s.pending := rfl
@[simp] theorem setEng_deferred (s : State) (e : Nat) (g : Engine → Engine) : (setEng s e g).deferred = s.deferred := rfl
@[simp] theorem setEng_out (s : State) (e : Nat) (g : Engine → Engine) : (setEng s e g).out = s.out := rfl
@[simp] theorem setEng_freeCtr (s : State) (e : Nat) (g : Engine → Engine) : (setEng s e g).freeCtr = s.freeCtr := rfl
@[simp] theorem setEng_bell (s : State) (e : Nat) (g : Engine → Engine) : (setEng s e g).bell = s.bell := rfl
@[simp] theorem setEng_dev (s : State) (e : Nat) (g : Engine → Engine) : (setEng s e g).dev = s.dev := rfl
@[simp] theorem setEng_regif (s : State) (e : Nat) (g : Engine → Engine) : (setEng s e g).regif = s.regif := rfl
@[simp] theorem setEng_plan (s : State) (e : Nat) (g : Engine → Engine) : (setEng s e g).plan = s.plan := rfl
@[simp] theorem setEng_quarters (s : State) (e : Nat) (g : Engine → Engine) : (setEng s e g).quarters = s.quarters := rfl
@[simp] theorem setEng_sess (s : State) (e : Nat) (g : Engine → Engine) : (setEng s e g).sess = s.sess := rfl
@[simp] theorem setEng_sessions (s : State) (e : Nat) (g : Engine → Engine) : (setEng s e g).sessions = s.sessions := rfl
@[simp] theorem setEng_sched (s : State) (e : Nat) (g : Engine → Engine) : (setEng s e g).sched = s.sched := rfl
@[simp] theorem setEng_ingest (s : State) (e : Nat) (g : Engine → Engine) : (setEng s e g).ingest = s.ingest := rfl
@[simp] theorem setEng_rc (s : State) (e : Nat) (g : Engine → Engine) : (setEng s e g).rc = s.rc := rfl
@[simp] theorem setEng_memc (s : State) (e : Nat) (g : Engine → Engine) : (setEng s e g).memc = s.memc := rfl
@[simp] theorem setEng_mem (s : State) (e : Nat) (g : Engine → Engine) : (setEng s e g).mem = s.mem := rfl
@[simp] theorem setEng_ctxCache (s : State) (e : Nat) (g : Engine → Engine) : (setEng s e g).ctxCache = s.ctxCache := rfl
@[simp] theorem setEng_pool (s : State) (e : Nat) (g : Engine → Engine) : (setEng s e g).pool = s.pool := rfl
@[simp] theorem setEng_queue (s : State) (e : Nat) (g : Engine → Engine) : (setEng s e g).queue = s.queue := rfl
@[simp] theorem setEng_vfCount (s : State) (e : Nat) (g : Engine → Engine) : (setEng s e g).vfCount = s.vfCount := rfl
@[simp] theorem setEng_fns (s : State) (e : Nat) (g : Engine → Engine) : (setEng s e g).fns = s.fns := rfl
@[simp] theorem setEng_dma (s : State) (e : Nat) (g : Engine → Engine) : (setEng s e g).dma = s.dma := rfl
@[simp] theorem setEng_irq (s : State) (e : Nat) (g : Engine → Engine) : (setEng s e g).irq = s.irq := rfl
@[simp] theorem setEng_watches (s : State) (e : Nat) (g : Engine → Engine) : (setEng s e g).watches = s.watches := rfl
@[simp] theorem setEng_stalled (s : State) (e : Nat) (g : Engine → Engine) : (setEng s e g).stalled = s.stalled := rfl
@[simp] theorem setEng_tandem (s : State) (e : Nat) (g : Engine → Engine) : (setEng s e g).tandem = s.tandem := rfl
@[simp] theorem setEng_net (s : State) (e : Nat) (g : Engine → Engine) : (setEng s e g).net = s.net := rfl
@[simp] theorem setEng_dec (s : State) (e : Nat) (g : Engine → Engine) : (setEng s e g).dec = s.dec := rfl
@[simp] theorem setEng_bist (s : State) (e : Nat) (g : Engine → Engine) : (setEng s e g).bist = s.bist := rfl
@[simp] theorem setEng_sext (s : State) (e : Nat) (g : Engine → Engine) : (setEng s e g).sext = s.sext := rfl
@[simp] theorem setEng_mclib (s : State) (e : Nat) (g : Engine → Engine) : (setEng s e g).mclib = s.mclib := rfl
@[simp] theorem setEng_pwr (s : State) (e : Nat) (g : Engine → Engine) : (setEng s e g).pwr = s.pwr := rfl
@[simp] theorem setEng_sec (s : State) (e : Nat) (g : Engine → Engine) : (setEng s e g).sec = s.sec := rfl

@[simp] theorem setDma_pending (s : State) (c : Nat) (g : DmaCh → DmaCh) : (setDma s c g).pending = s.pending := rfl
@[simp] theorem setDma_deferred (s : State) (c : Nat) (g : DmaCh → DmaCh) : (setDma s c g).deferred = s.deferred := rfl
@[simp] theorem setDma_out (s : State) (c : Nat) (g : DmaCh → DmaCh) : (setDma s c g).out = s.out := rfl
@[simp] theorem setDma_freeCtr (s : State) (c : Nat) (g : DmaCh → DmaCh) : (setDma s c g).freeCtr = s.freeCtr := rfl
@[simp] theorem setDma_bell (s : State) (c : Nat) (g : DmaCh → DmaCh) : (setDma s c g).bell = s.bell := rfl
@[simp] theorem setDma_dev (s : State) (c : Nat) (g : DmaCh → DmaCh) : (setDma s c g).dev = s.dev := rfl
@[simp] theorem setDma_regif (s : State) (c : Nat) (g : DmaCh → DmaCh) : (setDma s c g).regif = s.regif := rfl
@[simp] theorem setDma_plan (s : State) (c : Nat) (g : DmaCh → DmaCh) : (setDma s c g).plan = s.plan := rfl
@[simp] theorem setDma_quarters (s : State) (c : Nat) (g : DmaCh → DmaCh) : (setDma s c g).quarters = s.quarters := rfl
@[simp] theorem setDma_sess (s : State) (c : Nat) (g : DmaCh → DmaCh) : (setDma s c g).sess = s.sess := rfl
@[simp] theorem setDma_sessions (s : State) (c : Nat) (g : DmaCh → DmaCh) : (setDma s c g).sessions = s.sessions := rfl
@[simp] theorem setDma_sched (s : State) (c : Nat) (g : DmaCh → DmaCh) : (setDma s c g).sched = s.sched := rfl
@[simp] theorem setDma_ingest (s : State) (c : Nat) (g : DmaCh → DmaCh) : (setDma s c g).ingest = s.ingest := rfl
@[simp] theorem setDma_rc (s : State) (c : Nat) (g : DmaCh → DmaCh) : (setDma s c g).rc = s.rc := rfl
@[simp] theorem setDma_memc (s : State) (c : Nat) (g : DmaCh → DmaCh) : (setDma s c g).memc = s.memc := rfl
@[simp] theorem setDma_mem (s : State) (c : Nat) (g : DmaCh → DmaCh) : (setDma s c g).mem = s.mem := rfl
@[simp] theorem setDma_ctxCache (s : State) (c : Nat) (g : DmaCh → DmaCh) : (setDma s c g).ctxCache = s.ctxCache := rfl
@[simp] theorem setDma_pool (s : State) (c : Nat) (g : DmaCh → DmaCh) : (setDma s c g).pool = s.pool := rfl
@[simp] theorem setDma_queue (s : State) (c : Nat) (g : DmaCh → DmaCh) : (setDma s c g).queue = s.queue := rfl
@[simp] theorem setDma_vfCount (s : State) (c : Nat) (g : DmaCh → DmaCh) : (setDma s c g).vfCount = s.vfCount := rfl
@[simp] theorem setDma_fns (s : State) (c : Nat) (g : DmaCh → DmaCh) : (setDma s c g).fns = s.fns := rfl
@[simp] theorem setDma_irq (s : State) (c : Nat) (g : DmaCh → DmaCh) : (setDma s c g).irq = s.irq := rfl
@[simp] theorem setDma_watches (s : State) (c : Nat) (g : DmaCh → DmaCh) : (setDma s c g).watches = s.watches := rfl
@[simp] theorem setDma_stalled (s : State) (c : Nat) (g : DmaCh → DmaCh) : (setDma s c g).stalled = s.stalled := rfl
@[simp] theorem setDma_tandem (s : State) (c : Nat) (g : DmaCh → DmaCh) : (setDma s c g).tandem = s.tandem := rfl
@[simp] theorem setDma_net (s : State) (c : Nat) (g : DmaCh → DmaCh) : (setDma s c g).net = s.net := rfl
@[simp] theorem setDma_dec (s : State) (c : Nat) (g : DmaCh → DmaCh) : (setDma s c g).dec = s.dec := rfl
@[simp] theorem setDma_engines (s : State) (c : Nat) (g : DmaCh → DmaCh) : (setDma s c g).engines = s.engines := rfl
@[simp] theorem setDma_bist (s : State) (c : Nat) (g : DmaCh → DmaCh) : (setDma s c g).bist = s.bist := rfl
@[simp] theorem setDma_sext (s : State) (c : Nat) (g : DmaCh → DmaCh) : (setDma s c g).sext = s.sext := rfl
@[simp] theorem setDma_mclib (s : State) (c : Nat) (g : DmaCh → DmaCh) : (setDma s c g).mclib = s.mclib := rfl
@[simp] theorem setDma_pwr (s : State) (c : Nat) (g : DmaCh → DmaCh) : (setDma s c g).pwr = s.pwr := rfl
@[simp] theorem setDma_sec (s : State) (c : Nat) (g : DmaCh → DmaCh) : (setDma s c g).sec = s.sec := rfl

@[simp] theorem setRoute_pending (id : Nat) (r : Route) (s : State) : (setRoute id r s).pending = s.pending := rfl
@[simp] theorem setRoute_deferred (id : Nat) (r : Route) (s : State) : (setRoute id r s).deferred = s.deferred := rfl
@[simp] theorem setRoute_out (id : Nat) (r : Route) (s : State) : (setRoute id r s).out = s.out := rfl
@[simp] theorem setRoute_freeCtr (id : Nat) (r : Route) (s : State) : (setRoute id r s).freeCtr = s.freeCtr := rfl
@[simp] theorem setRoute_bell (id : Nat) (r : Route) (s : State) : (setRoute id r s).bell = s.bell := rfl
@[simp] theorem setRoute_dev (id : Nat) (r : Route) (s : State) : (setRoute id r s).dev = s.dev := rfl
@[simp] theorem setRoute_regif (id : Nat) (r : Route) (s : State) : (setRoute id r s).regif = s.regif := rfl
@[simp] theorem setRoute_plan (id : Nat) (r : Route) (s : State) : (setRoute id r s).plan = s.plan := rfl
@[simp] theorem setRoute_quarters (id : Nat) (r : Route) (s : State) : (setRoute id r s).quarters = s.quarters := rfl
@[simp] theorem setRoute_sess (id : Nat) (r : Route) (s : State) : (setRoute id r s).sess = s.sess := rfl
@[simp] theorem setRoute_sessions (id : Nat) (r : Route) (s : State) : (setRoute id r s).sessions = s.sessions := rfl
@[simp] theorem setRoute_sched (id : Nat) (r : Route) (s : State) : (setRoute id r s).sched = s.sched := rfl
@[simp] theorem setRoute_ingest (id : Nat) (r : Route) (s : State) : (setRoute id r s).ingest = s.ingest := rfl
@[simp] theorem setRoute_rc (id : Nat) (r : Route) (s : State) : (setRoute id r s).rc = s.rc := rfl
@[simp] theorem setRoute_memc (id : Nat) (r : Route) (s : State) : (setRoute id r s).memc = s.memc := rfl
@[simp] theorem setRoute_mem (id : Nat) (r : Route) (s : State) : (setRoute id r s).mem = s.mem := rfl
@[simp] theorem setRoute_ctxCache (id : Nat) (r : Route) (s : State) : (setRoute id r s).ctxCache = s.ctxCache := rfl
@[simp] theorem setRoute_pool (id : Nat) (r : Route) (s : State) : (setRoute id r s).pool = s.pool := rfl
@[simp] theorem setRoute_queue (id : Nat) (r : Route) (s : State) : (setRoute id r s).queue = s.queue := rfl
@[simp] theorem setRoute_vfCount (id : Nat) (r : Route) (s : State) : (setRoute id r s).vfCount = s.vfCount := rfl
@[simp] theorem setRoute_fns (id : Nat) (r : Route) (s : State) : (setRoute id r s).fns = s.fns := rfl
@[simp] theorem setRoute_dma (id : Nat) (r : Route) (s : State) : (setRoute id r s).dma = s.dma := rfl
@[simp] theorem setRoute_watches (id : Nat) (r : Route) (s : State) : (setRoute id r s).watches = s.watches := rfl
@[simp] theorem setRoute_stalled (id : Nat) (r : Route) (s : State) : (setRoute id r s).stalled = s.stalled := rfl
@[simp] theorem setRoute_tandem (id : Nat) (r : Route) (s : State) : (setRoute id r s).tandem = s.tandem := rfl
@[simp] theorem setRoute_net (id : Nat) (r : Route) (s : State) : (setRoute id r s).net = s.net := rfl
@[simp] theorem setRoute_dec (id : Nat) (r : Route) (s : State) : (setRoute id r s).dec = s.dec := rfl
@[simp] theorem setRoute_engines (id : Nat) (r : Route) (s : State) : (setRoute id r s).engines = s.engines := rfl
@[simp] theorem setRoute_bist (id : Nat) (r : Route) (s : State) : (setRoute id r s).bist = s.bist := rfl
@[simp] theorem setRoute_sext (id : Nat) (r : Route) (s : State) : (setRoute id r s).sext = s.sext := rfl
@[simp] theorem setRoute_mclib (id : Nat) (r : Route) (s : State) : (setRoute id r s).mclib = s.mclib := rfl
@[simp] theorem setRoute_pwr (id : Nat) (r : Route) (s : State) : (setRoute id r s).pwr = s.pwr := rfl
@[simp] theorem setRoute_sec (id : Nat) (r : Route) (s : State) : (setRoute id r s).sec = s.sec := rfl

@[simp] theorem setChan_pending (s : State) (c : Nat) (g : Chan → Chan) : (setChan s c g).pending = s.pending := rfl
@[simp] theorem setChan_deferred (s : State) (c : Nat) (g : Chan → Chan) : (setChan s c g).deferred = s.deferred := rfl
@[simp] theorem setChan_out (s : State) (c : Nat) (g : Chan → Chan) : (setChan s c g).out = s.out := rfl
@[simp] theorem setChan_freeCtr (s : State) (c : Nat) (g : Chan → Chan) : (setChan s c g).freeCtr = s.freeCtr := rfl
@[simp] theorem setChan_bell (s : State) (c : Nat) (g : Chan → Chan) : (setChan s c g).bell = s.bell := rfl
@[simp] theorem setChan_dev (s : State) (c : Nat) (g : Chan → Chan) : (setChan s c g).dev = s.dev := rfl
@[simp] theorem setChan_regif (s : State) (c : Nat) (g : Chan → Chan) : (setChan s c g).regif = s.regif := rfl
@[simp] theorem setChan_plan (s : State) (c : Nat) (g : Chan → Chan) : (setChan s c g).plan = s.plan := rfl
@[simp] theorem setChan_quarters (s : State) (c : Nat) (g : Chan → Chan) : (setChan s c g).quarters = s.quarters := rfl
@[simp] theorem setChan_sess (s : State) (c : Nat) (g : Chan → Chan) : (setChan s c g).sess = s.sess := rfl
@[simp] theorem setChan_sessions (s : State) (c : Nat) (g : Chan → Chan) : (setChan s c g).sessions = s.sessions := rfl
@[simp] theorem setChan_sched (s : State) (c : Nat) (g : Chan → Chan) : (setChan s c g).sched = s.sched := rfl
@[simp] theorem setChan_ingest (s : State) (c : Nat) (g : Chan → Chan) : (setChan s c g).ingest = s.ingest := rfl
@[simp] theorem setChan_rc (s : State) (c : Nat) (g : Chan → Chan) : (setChan s c g).rc = s.rc := rfl
@[simp] theorem setChan_mem (s : State) (c : Nat) (g : Chan → Chan) : (setChan s c g).mem = s.mem := rfl
@[simp] theorem setChan_ctxCache (s : State) (c : Nat) (g : Chan → Chan) : (setChan s c g).ctxCache = s.ctxCache := rfl
@[simp] theorem setChan_pool (s : State) (c : Nat) (g : Chan → Chan) : (setChan s c g).pool = s.pool := rfl
@[simp] theorem setChan_queue (s : State) (c : Nat) (g : Chan → Chan) : (setChan s c g).queue = s.queue := rfl
@[simp] theorem setChan_vfCount (s : State) (c : Nat) (g : Chan → Chan) : (setChan s c g).vfCount = s.vfCount := rfl
@[simp] theorem setChan_fns (s : State) (c : Nat) (g : Chan → Chan) : (setChan s c g).fns = s.fns := rfl
@[simp] theorem setChan_dma (s : State) (c : Nat) (g : Chan → Chan) : (setChan s c g).dma = s.dma := rfl
@[simp] theorem setChan_irq (s : State) (c : Nat) (g : Chan → Chan) : (setChan s c g).irq = s.irq := rfl
@[simp] theorem setChan_watches (s : State) (c : Nat) (g : Chan → Chan) : (setChan s c g).watches = s.watches := rfl
@[simp] theorem setChan_stalled (s : State) (c : Nat) (g : Chan → Chan) : (setChan s c g).stalled = s.stalled := rfl
@[simp] theorem setChan_tandem (s : State) (c : Nat) (g : Chan → Chan) : (setChan s c g).tandem = s.tandem := rfl
@[simp] theorem setChan_net (s : State) (c : Nat) (g : Chan → Chan) : (setChan s c g).net = s.net := rfl
@[simp] theorem setChan_dec (s : State) (c : Nat) (g : Chan → Chan) : (setChan s c g).dec = s.dec := rfl
@[simp] theorem setChan_engines (s : State) (c : Nat) (g : Chan → Chan) : (setChan s c g).engines = s.engines := rfl
@[simp] theorem setChan_bist (s : State) (c : Nat) (g : Chan → Chan) : (setChan s c g).bist = s.bist := rfl
@[simp] theorem setChan_sext (s : State) (c : Nat) (g : Chan → Chan) : (setChan s c g).sext = s.sext := rfl
@[simp] theorem setChan_mclib (s : State) (c : Nat) (g : Chan → Chan) : (setChan s c g).mclib = s.mclib := rfl
@[simp] theorem setChan_pwr (s : State) (c : Nat) (g : Chan → Chan) : (setChan s c g).pwr = s.pwr := rfl
@[simp] theorem setChan_sec (s : State) (c : Nat) (g : Chan → Chan) : (setChan s c g).sec = s.sec := rfl

@[simp] theorem setFlow_pending (s : State) (i : Nat) (g : Flow → Flow) : (setFlow s i g).pending = s.pending := rfl
@[simp] theorem setFlow_deferred (s : State) (i : Nat) (g : Flow → Flow) : (setFlow s i g).deferred = s.deferred := rfl
@[simp] theorem setFlow_out (s : State) (i : Nat) (g : Flow → Flow) : (setFlow s i g).out = s.out := rfl
@[simp] theorem setFlow_freeCtr (s : State) (i : Nat) (g : Flow → Flow) : (setFlow s i g).freeCtr = s.freeCtr := rfl
@[simp] theorem setFlow_bell (s : State) (i : Nat) (g : Flow → Flow) : (setFlow s i g).bell = s.bell := rfl
@[simp] theorem setFlow_dev (s : State) (i : Nat) (g : Flow → Flow) : (setFlow s i g).dev = s.dev := rfl
@[simp] theorem setFlow_regif (s : State) (i : Nat) (g : Flow → Flow) : (setFlow s i g).regif = s.regif := rfl
@[simp] theorem setFlow_plan (s : State) (i : Nat) (g : Flow → Flow) : (setFlow s i g).plan = s.plan := rfl
@[simp] theorem setFlow_quarters (s : State) (i : Nat) (g : Flow → Flow) : (setFlow s i g).quarters = s.quarters := rfl
@[simp] theorem setFlow_sess (s : State) (i : Nat) (g : Flow → Flow) : (setFlow s i g).sess = s.sess := rfl
@[simp] theorem setFlow_sessions (s : State) (i : Nat) (g : Flow → Flow) : (setFlow s i g).sessions = s.sessions := rfl
@[simp] theorem setFlow_sched (s : State) (i : Nat) (g : Flow → Flow) : (setFlow s i g).sched = s.sched := rfl
@[simp] theorem setFlow_ingest (s : State) (i : Nat) (g : Flow → Flow) : (setFlow s i g).ingest = s.ingest := rfl
@[simp] theorem setFlow_rc (s : State) (i : Nat) (g : Flow → Flow) : (setFlow s i g).rc = s.rc := rfl
@[simp] theorem setFlow_memc (s : State) (i : Nat) (g : Flow → Flow) : (setFlow s i g).memc = s.memc := rfl
@[simp] theorem setFlow_mem (s : State) (i : Nat) (g : Flow → Flow) : (setFlow s i g).mem = s.mem := rfl
@[simp] theorem setFlow_ctxCache (s : State) (i : Nat) (g : Flow → Flow) : (setFlow s i g).ctxCache = s.ctxCache := rfl
@[simp] theorem setFlow_pool (s : State) (i : Nat) (g : Flow → Flow) : (setFlow s i g).pool = s.pool := rfl
@[simp] theorem setFlow_queue (s : State) (i : Nat) (g : Flow → Flow) : (setFlow s i g).queue = s.queue := rfl
@[simp] theorem setFlow_vfCount (s : State) (i : Nat) (g : Flow → Flow) : (setFlow s i g).vfCount = s.vfCount := rfl
@[simp] theorem setFlow_fns (s : State) (i : Nat) (g : Flow → Flow) : (setFlow s i g).fns = s.fns := rfl
@[simp] theorem setFlow_dma (s : State) (i : Nat) (g : Flow → Flow) : (setFlow s i g).dma = s.dma := rfl
@[simp] theorem setFlow_irq (s : State) (i : Nat) (g : Flow → Flow) : (setFlow s i g).irq = s.irq := rfl
@[simp] theorem setFlow_watches (s : State) (i : Nat) (g : Flow → Flow) : (setFlow s i g).watches = s.watches := rfl
@[simp] theorem setFlow_stalled (s : State) (i : Nat) (g : Flow → Flow) : (setFlow s i g).stalled = s.stalled := rfl
@[simp] theorem setFlow_tandem (s : State) (i : Nat) (g : Flow → Flow) : (setFlow s i g).tandem = s.tandem := rfl
@[simp] theorem setFlow_dec (s : State) (i : Nat) (g : Flow → Flow) : (setFlow s i g).dec = s.dec := rfl
@[simp] theorem setFlow_engines (s : State) (i : Nat) (g : Flow → Flow) : (setFlow s i g).engines = s.engines := rfl
@[simp] theorem setFlow_bist (s : State) (i : Nat) (g : Flow → Flow) : (setFlow s i g).bist = s.bist := rfl
@[simp] theorem setFlow_sext (s : State) (i : Nat) (g : Flow → Flow) : (setFlow s i g).sext = s.sext := rfl
@[simp] theorem setFlow_mclib (s : State) (i : Nat) (g : Flow → Flow) : (setFlow s i g).mclib = s.mclib := rfl
@[simp] theorem setFlow_pwr (s : State) (i : Nat) (g : Flow → Flow) : (setFlow s i g).pwr = s.pwr := rfl
@[simp] theorem setFlow_sec (s : State) (i : Nat) (g : Flow → Flow) : (setFlow s i g).sec = s.sec := rfl

@[simp] theorem setPort_pending (s : State) (p : Nat) (g : NetPort → NetPort) : (setPort s p g).pending = s.pending := rfl
@[simp] theorem setPort_deferred (s : State) (p : Nat) (g : NetPort → NetPort) : (setPort s p g).deferred = s.deferred := rfl
@[simp] theorem setPort_out (s : State) (p : Nat) (g : NetPort → NetPort) : (setPort s p g).out = s.out := rfl
@[simp] theorem setPort_freeCtr (s : State) (p : Nat) (g : NetPort → NetPort) : (setPort s p g).freeCtr = s.freeCtr := rfl
@[simp] theorem setPort_bell (s : State) (p : Nat) (g : NetPort → NetPort) : (setPort s p g).bell = s.bell := rfl
@[simp] theorem setPort_dev (s : State) (p : Nat) (g : NetPort → NetPort) : (setPort s p g).dev = s.dev := rfl
@[simp] theorem setPort_regif (s : State) (p : Nat) (g : NetPort → NetPort) : (setPort s p g).regif = s.regif := rfl
@[simp] theorem setPort_plan (s : State) (p : Nat) (g : NetPort → NetPort) : (setPort s p g).plan = s.plan := rfl
@[simp] theorem setPort_quarters (s : State) (p : Nat) (g : NetPort → NetPort) : (setPort s p g).quarters = s.quarters := rfl
@[simp] theorem setPort_sess (s : State) (p : Nat) (g : NetPort → NetPort) : (setPort s p g).sess = s.sess := rfl
@[simp] theorem setPort_sessions (s : State) (p : Nat) (g : NetPort → NetPort) : (setPort s p g).sessions = s.sessions := rfl
@[simp] theorem setPort_sched (s : State) (p : Nat) (g : NetPort → NetPort) : (setPort s p g).sched = s.sched := rfl
@[simp] theorem setPort_ingest (s : State) (p : Nat) (g : NetPort → NetPort) : (setPort s p g).ingest = s.ingest := rfl
@[simp] theorem setPort_rc (s : State) (p : Nat) (g : NetPort → NetPort) : (setPort s p g).rc = s.rc := rfl
@[simp] theorem setPort_memc (s : State) (p : Nat) (g : NetPort → NetPort) : (setPort s p g).memc = s.memc := rfl
@[simp] theorem setPort_mem (s : State) (p : Nat) (g : NetPort → NetPort) : (setPort s p g).mem = s.mem := rfl
@[simp] theorem setPort_ctxCache (s : State) (p : Nat) (g : NetPort → NetPort) : (setPort s p g).ctxCache = s.ctxCache := rfl
@[simp] theorem setPort_pool (s : State) (p : Nat) (g : NetPort → NetPort) : (setPort s p g).pool = s.pool := rfl
@[simp] theorem setPort_queue (s : State) (p : Nat) (g : NetPort → NetPort) : (setPort s p g).queue = s.queue := rfl
@[simp] theorem setPort_vfCount (s : State) (p : Nat) (g : NetPort → NetPort) : (setPort s p g).vfCount = s.vfCount := rfl
@[simp] theorem setPort_fns (s : State) (p : Nat) (g : NetPort → NetPort) : (setPort s p g).fns = s.fns := rfl
@[simp] theorem setPort_dma (s : State) (p : Nat) (g : NetPort → NetPort) : (setPort s p g).dma = s.dma := rfl
@[simp] theorem setPort_irq (s : State) (p : Nat) (g : NetPort → NetPort) : (setPort s p g).irq = s.irq := rfl
@[simp] theorem setPort_watches (s : State) (p : Nat) (g : NetPort → NetPort) : (setPort s p g).watches = s.watches := rfl
@[simp] theorem setPort_stalled (s : State) (p : Nat) (g : NetPort → NetPort) : (setPort s p g).stalled = s.stalled := rfl
@[simp] theorem setPort_tandem (s : State) (p : Nat) (g : NetPort → NetPort) : (setPort s p g).tandem = s.tandem := rfl
@[simp] theorem setPort_dec (s : State) (p : Nat) (g : NetPort → NetPort) : (setPort s p g).dec = s.dec := rfl
@[simp] theorem setPort_engines (s : State) (p : Nat) (g : NetPort → NetPort) : (setPort s p g).engines = s.engines := rfl
@[simp] theorem setPort_bist (s : State) (p : Nat) (g : NetPort → NetPort) : (setPort s p g).bist = s.bist := rfl
@[simp] theorem setPort_sext (s : State) (p : Nat) (g : NetPort → NetPort) : (setPort s p g).sext = s.sext := rfl
@[simp] theorem setPort_mclib (s : State) (p : Nat) (g : NetPort → NetPort) : (setPort s p g).mclib = s.mclib := rfl
@[simp] theorem setPort_pwr (s : State) (p : Nat) (g : NetPort → NetPort) : (setPort s p g).pwr = s.pwr := rfl
@[simp] theorem setPort_sec (s : State) (p : Nat) (g : NetPort → NetPort) : (setPort s p g).sec = s.sec := rfl

@[simp] theorem emit_pending (o : Out) (s : State) : (emit o s).pending = s.pending := rfl
@[simp] theorem emit_deferred (o : Out) (s : State) : (emit o s).deferred = s.deferred := rfl
@[simp] theorem emit_freeCtr (o : Out) (s : State) : (emit o s).freeCtr = s.freeCtr := rfl
@[simp] theorem emit_bell (o : Out) (s : State) : (emit o s).bell = s.bell := rfl
@[simp] theorem emit_dev (o : Out) (s : State) : (emit o s).dev = s.dev := rfl
@[simp] theorem emit_regif (o : Out) (s : State) : (emit o s).regif = s.regif := rfl
@[simp] theorem emit_plan (o : Out) (s : State) : (emit o s).plan = s.plan := rfl
@[simp] theorem emit_quarters (o : Out) (s : State) : (emit o s).quarters = s.quarters := rfl
@[simp] theorem emit_sess (o : Out) (s : State) : (emit o s).sess = s.sess := rfl
@[simp] theorem emit_sessions (o : Out) (s : State) : (emit o s).sessions = s.sessions := rfl
@[simp] theorem emit_sched (o : Out) (s : State) : (emit o s).sched = s.sched := rfl
@[simp] theorem emit_ingest (o : Out) (s : State) : (emit o s).ingest = s.ingest := rfl
@[simp] theorem emit_rc (o : Out) (s : State) : (emit o s).rc = s.rc := rfl
@[simp] theorem emit_memc (o : Out) (s : State) : (emit o s).memc = s.memc := rfl
@[simp] theorem emit_mem (o : Out) (s : State) : (emit o s).mem = s.mem := rfl
@[simp] theorem emit_ctxCache (o : Out) (s : State) : (emit o s).ctxCache = s.ctxCache := rfl
@[simp] theorem emit_pool (o : Out) (s : State) : (emit o s).pool = s.pool := rfl
@[simp] theorem emit_queue (o : Out) (s : State) : (emit o s).queue = s.queue := rfl
@[simp] theorem emit_vfCount (o : Out) (s : State) : (emit o s).vfCount = s.vfCount := rfl
@[simp] theorem emit_fns (o : Out) (s : State) : (emit o s).fns = s.fns := rfl
@[simp] theorem emit_dma (o : Out) (s : State) : (emit o s).dma = s.dma := rfl
@[simp] theorem emit_irq (o : Out) (s : State) : (emit o s).irq = s.irq := rfl
@[simp] theorem emit_watches (o : Out) (s : State) : (emit o s).watches = s.watches := rfl
@[simp] theorem emit_stalled (o : Out) (s : State) : (emit o s).stalled = s.stalled := rfl
@[simp] theorem emit_tandem (o : Out) (s : State) : (emit o s).tandem = s.tandem := rfl
@[simp] theorem emit_net (o : Out) (s : State) : (emit o s).net = s.net := rfl
@[simp] theorem emit_dec (o : Out) (s : State) : (emit o s).dec = s.dec := rfl
@[simp] theorem emit_engines (o : Out) (s : State) : (emit o s).engines = s.engines := rfl
@[simp] theorem emit_bist (o : Out) (s : State) : (emit o s).bist = s.bist := rfl
@[simp] theorem emit_sext (o : Out) (s : State) : (emit o s).sext = s.sext := rfl
@[simp] theorem emit_mclib (o : Out) (s : State) : (emit o s).mclib = s.mclib := rfl
@[simp] theorem emit_pwr (o : Out) (s : State) : (emit o s).pwr = s.pwr := rfl
@[simp] theorem emit_sec (o : Out) (s : State) : (emit o s).sec = s.sec := rfl

@[simp] theorem setFn_pending (s : State) (f : Nat) (g : Fn → Fn) : (setFn s f g).pending = s.pending := rfl
@[simp] theorem setFn_deferred (s : State) (f : Nat) (g : Fn → Fn) : (setFn s f g).deferred = s.deferred := rfl
@[simp] theorem setFn_out (s : State) (f : Nat) (g : Fn → Fn) : (setFn s f g).out = s.out := rfl
@[simp] theorem setFn_freeCtr (s : State) (f : Nat) (g : Fn → Fn) : (setFn s f g).freeCtr = s.freeCtr := rfl
@[simp] theorem setFn_bell (s : State) (f : Nat) (g : Fn → Fn) : (setFn s f g).bell = s.bell := rfl
@[simp] theorem setFn_dev (s : State) (f : Nat) (g : Fn → Fn) : (setFn s f g).dev = s.dev := rfl
@[simp] theorem setFn_regif (s : State) (f : Nat) (g : Fn → Fn) : (setFn s f g).regif = s.regif := rfl
@[simp] theorem setFn_plan (s : State) (f : Nat) (g : Fn → Fn) : (setFn s f g).plan = s.plan := rfl
@[simp] theorem setFn_quarters (s : State) (f : Nat) (g : Fn → Fn) : (setFn s f g).quarters = s.quarters := rfl
@[simp] theorem setFn_sess (s : State) (f : Nat) (g : Fn → Fn) : (setFn s f g).sess = s.sess := rfl
@[simp] theorem setFn_sessions (s : State) (f : Nat) (g : Fn → Fn) : (setFn s f g).sessions = s.sessions := rfl
@[simp] theorem setFn_sched (s : State) (f : Nat) (g : Fn → Fn) : (setFn s f g).sched = s.sched := rfl
@[simp] theorem setFn_ingest (s : State) (f : Nat) (g : Fn → Fn) : (setFn s f g).ingest = s.ingest := rfl
@[simp] theorem setFn_rc (s : State) (f : Nat) (g : Fn → Fn) : (setFn s f g).rc = s.rc := rfl
@[simp] theorem setFn_memc (s : State) (f : Nat) (g : Fn → Fn) : (setFn s f g).memc = s.memc := rfl
@[simp] theorem setFn_mem (s : State) (f : Nat) (g : Fn → Fn) : (setFn s f g).mem = s.mem := rfl
@[simp] theorem setFn_ctxCache (s : State) (f : Nat) (g : Fn → Fn) : (setFn s f g).ctxCache = s.ctxCache := rfl
@[simp] theorem setFn_pool (s : State) (f : Nat) (g : Fn → Fn) : (setFn s f g).pool = s.pool := rfl
@[simp] theorem setFn_queue (s : State) (f : Nat) (g : Fn → Fn) : (setFn s f g).queue = s.queue := rfl
@[simp] theorem setFn_vfCount (s : State) (f : Nat) (g : Fn → Fn) : (setFn s f g).vfCount = s.vfCount := rfl
@[simp] theorem setFn_dma (s : State) (f : Nat) (g : Fn → Fn) : (setFn s f g).dma = s.dma := rfl
@[simp] theorem setFn_irq (s : State) (f : Nat) (g : Fn → Fn) : (setFn s f g).irq = s.irq := rfl
@[simp] theorem setFn_watches (s : State) (f : Nat) (g : Fn → Fn) : (setFn s f g).watches = s.watches := rfl
@[simp] theorem setFn_stalled (s : State) (f : Nat) (g : Fn → Fn) : (setFn s f g).stalled = s.stalled := rfl
@[simp] theorem setFn_tandem (s : State) (f : Nat) (g : Fn → Fn) : (setFn s f g).tandem = s.tandem := rfl
@[simp] theorem setFn_net (s : State) (f : Nat) (g : Fn → Fn) : (setFn s f g).net = s.net := rfl
@[simp] theorem setFn_dec (s : State) (f : Nat) (g : Fn → Fn) : (setFn s f g).dec = s.dec := rfl
@[simp] theorem setFn_engines (s : State) (f : Nat) (g : Fn → Fn) : (setFn s f g).engines = s.engines := rfl
@[simp] theorem setFn_bist (s : State) (f : Nat) (g : Fn → Fn) : (setFn s f g).bist = s.bist := rfl
@[simp] theorem setFn_sext (s : State) (f : Nat) (g : Fn → Fn) : (setFn s f g).sext = s.sext := rfl
@[simp] theorem setFn_mclib (s : State) (f : Nat) (g : Fn → Fn) : (setFn s f g).mclib = s.mclib := rfl
@[simp] theorem setFn_pwr (s : State) (f : Nat) (g : Fn → Fn) : (setFn s f g).pwr = s.pwr := rfl
@[simp] theorem setFn_sec (s : State) (f : Nat) (g : Fn → Fn) : (setFn s f g).sec = s.sec := rfl

@[simp] theorem setWatch_pending (s : State) (w : Nat) (g : Watch → Watch) : (setWatch s w g).pending = s.pending := rfl
@[simp] theorem setWatch_deferred (s : State) (w : Nat) (g : Watch → Watch) : (setWatch s w g).deferred = s.deferred := rfl
@[simp] theorem setWatch_out (s : State) (w : Nat) (g : Watch → Watch) : (setWatch s w g).out = s.out := rfl
@[simp] theorem setWatch_freeCtr (s : State) (w : Nat) (g : Watch → Watch) : (setWatch s w g).freeCtr = s.freeCtr := rfl
@[simp] theorem setWatch_bell (s : State) (w : Nat) (g : Watch → Watch) : (setWatch s w g).bell = s.bell := rfl
@[simp] theorem setWatch_dev (s : State) (w : Nat) (g : Watch → Watch) : (setWatch s w g).dev = s.dev := rfl
@[simp] theorem setWatch_regif (s : State) (w : Nat) (g : Watch → Watch) : (setWatch s w g).regif = s.regif := rfl
@[simp] theorem setWatch_plan (s : State) (w : Nat) (g : Watch → Watch) : (setWatch s w g).plan = s.plan := rfl
@[simp] theorem setWatch_quarters (s : State) (w : Nat) (g : Watch → Watch) : (setWatch s w g).quarters = s.quarters := rfl
@[simp] theorem setWatch_sess (s : State) (w : Nat) (g : Watch → Watch) : (setWatch s w g).sess = s.sess := rfl
@[simp] theorem setWatch_sessions (s : State) (w : Nat) (g : Watch → Watch) : (setWatch s w g).sessions = s.sessions := rfl
@[simp] theorem setWatch_sched (s : State) (w : Nat) (g : Watch → Watch) : (setWatch s w g).sched = s.sched := rfl
@[simp] theorem setWatch_ingest (s : State) (w : Nat) (g : Watch → Watch) : (setWatch s w g).ingest = s.ingest := rfl
@[simp] theorem setWatch_rc (s : State) (w : Nat) (g : Watch → Watch) : (setWatch s w g).rc = s.rc := rfl
@[simp] theorem setWatch_memc (s : State) (w : Nat) (g : Watch → Watch) : (setWatch s w g).memc = s.memc := rfl
@[simp] theorem setWatch_mem (s : State) (w : Nat) (g : Watch → Watch) : (setWatch s w g).mem = s.mem := rfl
@[simp] theorem setWatch_ctxCache (s : State) (w : Nat) (g : Watch → Watch) : (setWatch s w g).ctxCache = s.ctxCache := rfl
@[simp] theorem setWatch_pool (s : State) (w : Nat) (g : Watch → Watch) : (setWatch s w g).pool = s.pool := rfl
@[simp] theorem setWatch_queue (s : State) (w : Nat) (g : Watch → Watch) : (setWatch s w g).queue = s.queue := rfl
@[simp] theorem setWatch_vfCount (s : State) (w : Nat) (g : Watch → Watch) : (setWatch s w g).vfCount = s.vfCount := rfl
@[simp] theorem setWatch_fns (s : State) (w : Nat) (g : Watch → Watch) : (setWatch s w g).fns = s.fns := rfl
@[simp] theorem setWatch_dma (s : State) (w : Nat) (g : Watch → Watch) : (setWatch s w g).dma = s.dma := rfl
@[simp] theorem setWatch_irq (s : State) (w : Nat) (g : Watch → Watch) : (setWatch s w g).irq = s.irq := rfl
@[simp] theorem setWatch_stalled (s : State) (w : Nat) (g : Watch → Watch) : (setWatch s w g).stalled = s.stalled := rfl
@[simp] theorem setWatch_tandem (s : State) (w : Nat) (g : Watch → Watch) : (setWatch s w g).tandem = s.tandem := rfl
@[simp] theorem setWatch_net (s : State) (w : Nat) (g : Watch → Watch) : (setWatch s w g).net = s.net := rfl
@[simp] theorem setWatch_dec (s : State) (w : Nat) (g : Watch → Watch) : (setWatch s w g).dec = s.dec := rfl
@[simp] theorem setWatch_engines (s : State) (w : Nat) (g : Watch → Watch) : (setWatch s w g).engines = s.engines := rfl
@[simp] theorem setWatch_bist (s : State) (w : Nat) (g : Watch → Watch) : (setWatch s w g).bist = s.bist := rfl
@[simp] theorem setWatch_sext (s : State) (w : Nat) (g : Watch → Watch) : (setWatch s w g).sext = s.sext := rfl
@[simp] theorem setWatch_mclib (s : State) (w : Nat) (g : Watch → Watch) : (setWatch s w g).mclib = s.mclib := rfl
@[simp] theorem setWatch_pwr (s : State) (w : Nat) (g : Watch → Watch) : (setWatch s w g).pwr = s.pwr := rfl
@[simp] theorem setWatch_sec (s : State) (w : Nat) (g : Watch → Watch) : (setWatch s w g).sec = s.sec := rfl

@[simp] theorem setQtr_pending (s : State) (q : Nat) (g : Quarter → Quarter) : (setQtr s q g).pending = s.pending := rfl
@[simp] theorem setQtr_deferred (s : State) (q : Nat) (g : Quarter → Quarter) : (setQtr s q g).deferred = s.deferred := rfl
@[simp] theorem setQtr_out (s : State) (q : Nat) (g : Quarter → Quarter) : (setQtr s q g).out = s.out := rfl
@[simp] theorem setQtr_freeCtr (s : State) (q : Nat) (g : Quarter → Quarter) : (setQtr s q g).freeCtr = s.freeCtr := rfl
@[simp] theorem setQtr_bell (s : State) (q : Nat) (g : Quarter → Quarter) : (setQtr s q g).bell = s.bell := rfl
@[simp] theorem setQtr_dev (s : State) (q : Nat) (g : Quarter → Quarter) : (setQtr s q g).dev = s.dev := rfl
@[simp] theorem setQtr_regif (s : State) (q : Nat) (g : Quarter → Quarter) : (setQtr s q g).regif = s.regif := rfl
@[simp] theorem setQtr_plan (s : State) (q : Nat) (g : Quarter → Quarter) : (setQtr s q g).plan = s.plan := rfl
@[simp] theorem setQtr_sess (s : State) (q : Nat) (g : Quarter → Quarter) : (setQtr s q g).sess = s.sess := rfl
@[simp] theorem setQtr_sessions (s : State) (q : Nat) (g : Quarter → Quarter) : (setQtr s q g).sessions = s.sessions := rfl
@[simp] theorem setQtr_sched (s : State) (q : Nat) (g : Quarter → Quarter) : (setQtr s q g).sched = s.sched := rfl
@[simp] theorem setQtr_ingest (s : State) (q : Nat) (g : Quarter → Quarter) : (setQtr s q g).ingest = s.ingest := rfl
@[simp] theorem setQtr_rc (s : State) (q : Nat) (g : Quarter → Quarter) : (setQtr s q g).rc = s.rc := rfl
@[simp] theorem setQtr_memc (s : State) (q : Nat) (g : Quarter → Quarter) : (setQtr s q g).memc = s.memc := rfl
@[simp] theorem setQtr_mem (s : State) (q : Nat) (g : Quarter → Quarter) : (setQtr s q g).mem = s.mem := rfl
@[simp] theorem setQtr_ctxCache (s : State) (q : Nat) (g : Quarter → Quarter) : (setQtr s q g).ctxCache = s.ctxCache := rfl
@[simp] theorem setQtr_pool (s : State) (q : Nat) (g : Quarter → Quarter) : (setQtr s q g).pool = s.pool := rfl
@[simp] theorem setQtr_queue (s : State) (q : Nat) (g : Quarter → Quarter) : (setQtr s q g).queue = s.queue := rfl
@[simp] theorem setQtr_vfCount (s : State) (q : Nat) (g : Quarter → Quarter) : (setQtr s q g).vfCount = s.vfCount := rfl
@[simp] theorem setQtr_fns (s : State) (q : Nat) (g : Quarter → Quarter) : (setQtr s q g).fns = s.fns := rfl
@[simp] theorem setQtr_dma (s : State) (q : Nat) (g : Quarter → Quarter) : (setQtr s q g).dma = s.dma := rfl
@[simp] theorem setQtr_irq (s : State) (q : Nat) (g : Quarter → Quarter) : (setQtr s q g).irq = s.irq := rfl
@[simp] theorem setQtr_watches (s : State) (q : Nat) (g : Quarter → Quarter) : (setQtr s q g).watches = s.watches := rfl
@[simp] theorem setQtr_stalled (s : State) (q : Nat) (g : Quarter → Quarter) : (setQtr s q g).stalled = s.stalled := rfl
@[simp] theorem setQtr_tandem (s : State) (q : Nat) (g : Quarter → Quarter) : (setQtr s q g).tandem = s.tandem := rfl
@[simp] theorem setQtr_net (s : State) (q : Nat) (g : Quarter → Quarter) : (setQtr s q g).net = s.net := rfl
@[simp] theorem setQtr_dec (s : State) (q : Nat) (g : Quarter → Quarter) : (setQtr s q g).dec = s.dec := rfl
@[simp] theorem setQtr_engines (s : State) (q : Nat) (g : Quarter → Quarter) : (setQtr s q g).engines = s.engines := rfl
@[simp] theorem setQtr_bist (s : State) (q : Nat) (g : Quarter → Quarter) : (setQtr s q g).bist = s.bist := rfl
@[simp] theorem setQtr_sext (s : State) (q : Nat) (g : Quarter → Quarter) : (setQtr s q g).sext = s.sext := rfl
@[simp] theorem setQtr_mclib (s : State) (q : Nat) (g : Quarter → Quarter) : (setQtr s q g).mclib = s.mclib := rfl
@[simp] theorem setQtr_pwr (s : State) (q : Nat) (g : Quarter → Quarter) : (setQtr s q g).pwr = s.pwr := rfl
@[simp] theorem setQtr_sec (s : State) (q : Nat) (g : Quarter → Quarter) : (setQtr s q g).sec = s.sec := rfl

@[simp] theorem setSess_pending (s : State) (h : Nat) (g : Session → Session) : (setSess s h g).pending = s.pending := rfl
@[simp] theorem setSess_deferred (s : State) (h : Nat) (g : Session → Session) : (setSess s h g).deferred = s.deferred := rfl
@[simp] theorem setSess_out (s : State) (h : Nat) (g : Session → Session) : (setSess s h g).out = s.out := rfl
@[simp] theorem setSess_freeCtr (s : State) (h : Nat) (g : Session → Session) : (setSess s h g).freeCtr = s.freeCtr := rfl
@[simp] theorem setSess_bell (s : State) (h : Nat) (g : Session → Session) : (setSess s h g).bell = s.bell := rfl
@[simp] theorem setSess_dev (s : State) (h : Nat) (g : Session → Session) : (setSess s h g).dev = s.dev := rfl
@[simp] theorem setSess_regif (s : State) (h : Nat) (g : Session → Session) : (setSess s h g).regif = s.regif := rfl
@[simp] theorem setSess_plan (s : State) (h : Nat) (g : Session → Session) : (setSess s h g).plan = s.plan := rfl
@[simp] theorem setSess_quarters (s : State) (h : Nat) (g : Session → Session) : (setSess s h g).quarters = s.quarters := rfl
@[simp] theorem setSess_sched (s : State) (h : Nat) (g : Session → Session) : (setSess s h g).sched = s.sched := rfl
@[simp] theorem setSess_ingest (s : State) (h : Nat) (g : Session → Session) : (setSess s h g).ingest = s.ingest := rfl
@[simp] theorem setSess_memc (s : State) (h : Nat) (g : Session → Session) : (setSess s h g).memc = s.memc := rfl
@[simp] theorem setSess_mem (s : State) (h : Nat) (g : Session → Session) : (setSess s h g).mem = s.mem := rfl
@[simp] theorem setSess_ctxCache (s : State) (h : Nat) (g : Session → Session) : (setSess s h g).ctxCache = s.ctxCache := rfl
@[simp] theorem setSess_pool (s : State) (h : Nat) (g : Session → Session) : (setSess s h g).pool = s.pool := rfl
@[simp] theorem setSess_queue (s : State) (h : Nat) (g : Session → Session) : (setSess s h g).queue = s.queue := rfl
@[simp] theorem setSess_vfCount (s : State) (h : Nat) (g : Session → Session) : (setSess s h g).vfCount = s.vfCount := rfl
@[simp] theorem setSess_fns (s : State) (h : Nat) (g : Session → Session) : (setSess s h g).fns = s.fns := rfl
@[simp] theorem setSess_dma (s : State) (h : Nat) (g : Session → Session) : (setSess s h g).dma = s.dma := rfl
@[simp] theorem setSess_irq (s : State) (h : Nat) (g : Session → Session) : (setSess s h g).irq = s.irq := rfl
@[simp] theorem setSess_watches (s : State) (h : Nat) (g : Session → Session) : (setSess s h g).watches = s.watches := rfl
@[simp] theorem setSess_stalled (s : State) (h : Nat) (g : Session → Session) : (setSess s h g).stalled = s.stalled := rfl
@[simp] theorem setSess_tandem (s : State) (h : Nat) (g : Session → Session) : (setSess s h g).tandem = s.tandem := rfl
@[simp] theorem setSess_net (s : State) (h : Nat) (g : Session → Session) : (setSess s h g).net = s.net := rfl
@[simp] theorem setSess_dec (s : State) (h : Nat) (g : Session → Session) : (setSess s h g).dec = s.dec := rfl
@[simp] theorem setSess_engines (s : State) (h : Nat) (g : Session → Session) : (setSess s h g).engines = s.engines := rfl
@[simp] theorem setSess_bist (s : State) (h : Nat) (g : Session → Session) : (setSess s h g).bist = s.bist := rfl
@[simp] theorem setSess_sext (s : State) (h : Nat) (g : Session → Session) : (setSess s h g).sext = s.sext := rfl
@[simp] theorem setSess_mclib (s : State) (h : Nat) (g : Session → Session) : (setSess s h g).mclib = s.mclib := rfl
@[simp] theorem setSess_pwr (s : State) (h : Nat) (g : Session → Session) : (setSess s h g).pwr = s.pwr := rfl
@[simp] theorem setSess_sec (s : State) (h : Nat) (g : Session → Session) : (setSess s h g).sec = s.sec := rfl

@[simp] theorem setSec_pending (s : State) (g : Sec → Sec) : (setSec s g).pending = s.pending := rfl
@[simp] theorem setSec_deferred (s : State) (g : Sec → Sec) : (setSec s g).deferred = s.deferred := rfl
@[simp] theorem setSec_out (s : State) (g : Sec → Sec) : (setSec s g).out = s.out := rfl
@[simp] theorem setSec_freeCtr (s : State) (g : Sec → Sec) : (setSec s g).freeCtr = s.freeCtr := rfl
@[simp] theorem setSec_bell (s : State) (g : Sec → Sec) : (setSec s g).bell = s.bell := rfl
@[simp] theorem setSec_dev (s : State) (g : Sec → Sec) : (setSec s g).dev = s.dev := rfl
@[simp] theorem setSec_regif (s : State) (g : Sec → Sec) : (setSec s g).regif = s.regif := rfl
@[simp] theorem setSec_plan (s : State) (g : Sec → Sec) : (setSec s g).plan = s.plan := rfl
@[simp] theorem setSec_quarters (s : State) (g : Sec → Sec) : (setSec s g).quarters = s.quarters := rfl
@[simp] theorem setSec_sess (s : State) (g : Sec → Sec) : (setSec s g).sess = s.sess := rfl
@[simp] theorem setSec_sessions (s : State) (g : Sec → Sec) : (setSec s g).sessions = s.sessions := rfl
@[simp] theorem setSec_sched (s : State) (g : Sec → Sec) : (setSec s g).sched = s.sched := rfl
@[simp] theorem setSec_ingest (s : State) (g : Sec → Sec) : (setSec s g).ingest = s.ingest := rfl
@[simp] theorem setSec_rc (s : State) (g : Sec → Sec) : (setSec s g).rc = s.rc := rfl
@[simp] theorem setSec_memc (s : State) (g : Sec → Sec) : (setSec s g).memc = s.memc := rfl
@[simp] theorem setSec_mem (s : State) (g : Sec → Sec) : (setSec s g).mem = s.mem := rfl
@[simp] theorem setSec_ctxCache (s : State) (g : Sec → Sec) : (setSec s g).ctxCache = s.ctxCache := rfl
@[simp] theorem setSec_pool (s : State) (g : Sec → Sec) : (setSec s g).pool = s.pool := rfl
@[simp] theorem setSec_queue (s : State) (g : Sec → Sec) : (setSec s g).queue = s.queue := rfl
@[simp] theorem setSec_vfCount (s : State) (g : Sec → Sec) : (setSec s g).vfCount = s.vfCount := rfl
@[simp] theorem setSec_fns (s : State) (g : Sec → Sec) : (setSec s g).fns = s.fns := rfl
@[simp] theorem setSec_dma (s : State) (g : Sec → Sec) : (setSec s g).dma = s.dma := rfl
@[simp] theorem setSec_irq (s : State) (g : Sec → Sec) : (setSec s g).irq = s.irq := rfl
@[simp] theorem setSec_watches (s : State) (g : Sec → Sec) : (setSec s g).watches = s.watches := rfl
@[simp] theorem setSec_stalled (s : State) (g : Sec → Sec) : (setSec s g).stalled = s.stalled := rfl
@[simp] theorem setSec_tandem (s : State) (g : Sec → Sec) : (setSec s g).tandem = s.tandem := rfl
@[simp] theorem setSec_net (s : State) (g : Sec → Sec) : (setSec s g).net = s.net := rfl
@[simp] theorem setSec_dec (s : State) (g : Sec → Sec) : (setSec s g).dec = s.dec := rfl
@[simp] theorem setSec_engines (s : State) (g : Sec → Sec) : (setSec s g).engines = s.engines := rfl
@[simp] theorem setSec_bist (s : State) (g : Sec → Sec) : (setSec s g).bist = s.bist := rfl
@[simp] theorem setSec_sext (s : State) (g : Sec → Sec) : (setSec s g).sext = s.sext := rfl
@[simp] theorem setSec_mclib (s : State) (g : Sec → Sec) : (setSec s g).mclib = s.mclib := rfl
@[simp] theorem setSec_pwr (s : State) (g : Sec → Sec) : (setSec s g).pwr = s.pwr := rfl

@[simp] theorem setTan_pending (s : State) (g : Tandem → Tandem) : (setTan s g).pending = s.pending := rfl
@[simp] theorem setTan_deferred (s : State) (g : Tandem → Tandem) : (setTan s g).deferred = s.deferred := rfl
@[simp] theorem setTan_out (s : State) (g : Tandem → Tandem) : (setTan s g).out = s.out := rfl
@[simp] theorem setTan_freeCtr (s : State) (g : Tandem → Tandem) : (setTan s g).freeCtr = s.freeCtr := rfl
@[simp] theorem setTan_bell (s : State) (g : Tandem → Tandem) : (setTan s g).bell = s.bell := rfl
@[simp] theorem setTan_dev (s : State) (g : Tandem → Tandem) : (setTan s g).dev = s.dev := rfl
@[simp] theorem setTan_regif (s : State) (g : Tandem → Tandem) : (setTan s g).regif = s.regif := rfl
@[simp] theorem setTan_plan (s : State) (g : Tandem → Tandem) : (setTan s g).plan = s.plan := rfl
@[simp] theorem setTan_quarters (s : State) (g : Tandem → Tandem) : (setTan s g).quarters = s.quarters := rfl
@[simp] theorem setTan_sess (s : State) (g : Tandem → Tandem) : (setTan s g).sess = s.sess := rfl
@[simp] theorem setTan_sessions (s : State) (g : Tandem → Tandem) : (setTan s g).sessions = s.sessions := rfl
@[simp] theorem setTan_sched (s : State) (g : Tandem → Tandem) : (setTan s g).sched = s.sched := rfl
@[simp] theorem setTan_ingest (s : State) (g : Tandem → Tandem) : (setTan s g).ingest = s.ingest := rfl
@[simp] theorem setTan_rc (s : State) (g : Tandem → Tandem) : (setTan s g).rc = s.rc := rfl
@[simp] theorem setTan_memc (s : State) (g : Tandem → Tandem) : (setTan s g).memc = s.memc := rfl
@[simp] theorem setTan_mem (s : State) (g : Tandem → Tandem) : (setTan s g).mem = s.mem := rfl
@[simp] theorem setTan_ctxCache (s : State) (g : Tandem → Tandem) : (setTan s g).ctxCache = s.ctxCache := rfl
@[simp] theorem setTan_pool (s : State) (g : Tandem → Tandem) : (setTan s g).pool = s.pool := rfl
@[simp] theorem setTan_queue (s : State) (g : Tandem → Tandem) : (setTan s g).queue = s.queue := rfl
@[simp] theorem setTan_vfCount (s : State) (g : Tandem → Tandem) : (setTan s g).vfCount = s.vfCount := rfl
@[simp] theorem setTan_fns (s : State) (g : Tandem → Tandem) : (setTan s g).fns = s.fns := rfl
@[simp] theorem setTan_dma (s : State) (g : Tandem → Tandem) : (setTan s g).dma = s.dma := rfl
@[simp] theorem setTan_irq (s : State) (g : Tandem → Tandem) : (setTan s g).irq = s.irq := rfl
@[simp] theorem setTan_watches (s : State) (g : Tandem → Tandem) : (setTan s g).watches = s.watches := rfl
@[simp] theorem setTan_stalled (s : State) (g : Tandem → Tandem) : (setTan s g).stalled = s.stalled := rfl
@[simp] theorem setTan_net (s : State) (g : Tandem → Tandem) : (setTan s g).net = s.net := rfl
@[simp] theorem setTan_dec (s : State) (g : Tandem → Tandem) : (setTan s g).dec = s.dec := rfl
@[simp] theorem setTan_engines (s : State) (g : Tandem → Tandem) : (setTan s g).engines = s.engines := rfl
@[simp] theorem setTan_bist (s : State) (g : Tandem → Tandem) : (setTan s g).bist = s.bist := rfl
@[simp] theorem setTan_sext (s : State) (g : Tandem → Tandem) : (setTan s g).sext = s.sext := rfl
@[simp] theorem setTan_mclib (s : State) (g : Tandem → Tandem) : (setTan s g).mclib = s.mclib := rfl
@[simp] theorem setTan_pwr (s : State) (g : Tandem → Tandem) : (setTan s g).pwr = s.pwr := rfl
@[simp] theorem setTan_sec (s : State) (g : Tandem → Tandem) : (setTan s g).sec = s.sec := rfl

@[simp] theorem writeMem_pending (a : Nat) (bs : List Byte) (s : State) : (writeMem a bs s).pending = s.pending := rfl
@[simp] theorem writeMem_deferred (a : Nat) (bs : List Byte) (s : State) : (writeMem a bs s).deferred = s.deferred := rfl
@[simp] theorem writeMem_out (a : Nat) (bs : List Byte) (s : State) : (writeMem a bs s).out = s.out := rfl
@[simp] theorem writeMem_freeCtr (a : Nat) (bs : List Byte) (s : State) : (writeMem a bs s).freeCtr = s.freeCtr := rfl
@[simp] theorem writeMem_bell (a : Nat) (bs : List Byte) (s : State) : (writeMem a bs s).bell = s.bell := rfl
@[simp] theorem writeMem_dev (a : Nat) (bs : List Byte) (s : State) : (writeMem a bs s).dev = s.dev := rfl
@[simp] theorem writeMem_regif (a : Nat) (bs : List Byte) (s : State) : (writeMem a bs s).regif = s.regif := rfl
@[simp] theorem writeMem_plan (a : Nat) (bs : List Byte) (s : State) : (writeMem a bs s).plan = s.plan := rfl
@[simp] theorem writeMem_quarters (a : Nat) (bs : List Byte) (s : State) : (writeMem a bs s).quarters = s.quarters := rfl
@[simp] theorem writeMem_sess (a : Nat) (bs : List Byte) (s : State) : (writeMem a bs s).sess = s.sess := rfl
@[simp] theorem writeMem_sessions (a : Nat) (bs : List Byte) (s : State) : (writeMem a bs s).sessions = s.sessions := rfl
@[simp] theorem writeMem_sched (a : Nat) (bs : List Byte) (s : State) : (writeMem a bs s).sched = s.sched := rfl
@[simp] theorem writeMem_ingest (a : Nat) (bs : List Byte) (s : State) : (writeMem a bs s).ingest = s.ingest := rfl
@[simp] theorem writeMem_rc (a : Nat) (bs : List Byte) (s : State) : (writeMem a bs s).rc = s.rc := rfl
@[simp] theorem writeMem_memc (a : Nat) (bs : List Byte) (s : State) : (writeMem a bs s).memc = s.memc := rfl
@[simp] theorem writeMem_ctxCache (a : Nat) (bs : List Byte) (s : State) : (writeMem a bs s).ctxCache = s.ctxCache := rfl
@[simp] theorem writeMem_pool (a : Nat) (bs : List Byte) (s : State) : (writeMem a bs s).pool = s.pool := rfl
@[simp] theorem writeMem_queue (a : Nat) (bs : List Byte) (s : State) : (writeMem a bs s).queue = s.queue := rfl
@[simp] theorem writeMem_vfCount (a : Nat) (bs : List Byte) (s : State) : (writeMem a bs s).vfCount = s.vfCount := rfl
@[simp] theorem writeMem_fns (a : Nat) (bs : List Byte) (s : State) : (writeMem a bs s).fns = s.fns := rfl
@[simp] theorem writeMem_dma (a : Nat) (bs : List Byte) (s : State) : (writeMem a bs s).dma = s.dma := rfl
@[simp] theorem writeMem_irq (a : Nat) (bs : List Byte) (s : State) : (writeMem a bs s).irq = s.irq := rfl
@[simp] theorem writeMem_watches (a : Nat) (bs : List Byte) (s : State) : (writeMem a bs s).watches = s.watches := rfl
@[simp] theorem writeMem_stalled (a : Nat) (bs : List Byte) (s : State) : (writeMem a bs s).stalled = s.stalled := rfl
@[simp] theorem writeMem_tandem (a : Nat) (bs : List Byte) (s : State) : (writeMem a bs s).tandem = s.tandem := rfl
@[simp] theorem writeMem_net (a : Nat) (bs : List Byte) (s : State) : (writeMem a bs s).net = s.net := rfl
@[simp] theorem writeMem_dec (a : Nat) (bs : List Byte) (s : State) : (writeMem a bs s).dec = s.dec := rfl
@[simp] theorem writeMem_engines (a : Nat) (bs : List Byte) (s : State) : (writeMem a bs s).engines = s.engines := rfl
@[simp] theorem writeMem_bist (a : Nat) (bs : List Byte) (s : State) : (writeMem a bs s).bist = s.bist := rfl
@[simp] theorem writeMem_sext (a : Nat) (bs : List Byte) (s : State) : (writeMem a bs s).sext = s.sext := rfl
@[simp] theorem writeMem_mclib (a : Nat) (bs : List Byte) (s : State) : (writeMem a bs s).mclib = s.mclib := rfl
@[simp] theorem writeMem_pwr (a : Nat) (bs : List Byte) (s : State) : (writeMem a bs s).pwr = s.pwr := rfl
@[simp] theorem writeMem_sec (a : Nat) (bs : List Byte) (s : State) : (writeMem a bs s).sec = s.sec := rfl

@[simp] theorem setFences_pending (fn : Nat) (l : List (Nat × Nat)) (s : State) : (setFences fn l s).pending = s.pending := rfl
@[simp] theorem setFences_deferred (fn : Nat) (l : List (Nat × Nat)) (s : State) : (setFences fn l s).deferred = s.deferred := rfl
@[simp] theorem setFences_out (fn : Nat) (l : List (Nat × Nat)) (s : State) : (setFences fn l s).out = s.out := rfl
@[simp] theorem setFences_freeCtr (fn : Nat) (l : List (Nat × Nat)) (s : State) : (setFences fn l s).freeCtr = s.freeCtr := rfl
@[simp] theorem setFences_bell (fn : Nat) (l : List (Nat × Nat)) (s : State) : (setFences fn l s).bell = s.bell := rfl
@[simp] theorem setFences_dev (fn : Nat) (l : List (Nat × Nat)) (s : State) : (setFences fn l s).dev = s.dev := rfl
@[simp] theorem setFences_regif (fn : Nat) (l : List (Nat × Nat)) (s : State) : (setFences fn l s).regif = s.regif := rfl
@[simp] theorem setFences_plan (fn : Nat) (l : List (Nat × Nat)) (s : State) : (setFences fn l s).plan = s.plan := rfl
@[simp] theorem setFences_quarters (fn : Nat) (l : List (Nat × Nat)) (s : State) : (setFences fn l s).quarters = s.quarters := rfl
@[simp] theorem setFences_sessions (fn : Nat) (l : List (Nat × Nat)) (s : State) : (setFences fn l s).sessions = s.sessions := rfl
@[simp] theorem setFences_sched (fn : Nat) (l : List (Nat × Nat)) (s : State) : (setFences fn l s).sched = s.sched := rfl
@[simp] theorem setFences_ingest (fn : Nat) (l : List (Nat × Nat)) (s : State) : (setFences fn l s).ingest = s.ingest := rfl
@[simp] theorem setFences_rc (fn : Nat) (l : List (Nat × Nat)) (s : State) : (setFences fn l s).rc = s.rc := rfl
@[simp] theorem setFences_memc (fn : Nat) (l : List (Nat × Nat)) (s : State) : (setFences fn l s).memc = s.memc := rfl
@[simp] theorem setFences_mem (fn : Nat) (l : List (Nat × Nat)) (s : State) : (setFences fn l s).mem = s.mem := rfl
@[simp] theorem setFences_ctxCache (fn : Nat) (l : List (Nat × Nat)) (s : State) : (setFences fn l s).ctxCache = s.ctxCache := rfl
@[simp] theorem setFences_pool (fn : Nat) (l : List (Nat × Nat)) (s : State) : (setFences fn l s).pool = s.pool := rfl
@[simp] theorem setFences_queue (fn : Nat) (l : List (Nat × Nat)) (s : State) : (setFences fn l s).queue = s.queue := rfl
@[simp] theorem setFences_vfCount (fn : Nat) (l : List (Nat × Nat)) (s : State) : (setFences fn l s).vfCount = s.vfCount := rfl
@[simp] theorem setFences_fns (fn : Nat) (l : List (Nat × Nat)) (s : State) : (setFences fn l s).fns = s.fns := rfl
@[simp] theorem setFences_dma (fn : Nat) (l : List (Nat × Nat)) (s : State) : (setFences fn l s).dma = s.dma := rfl
@[simp] theorem setFences_irq (fn : Nat) (l : List (Nat × Nat)) (s : State) : (setFences fn l s).irq = s.irq := rfl
@[simp] theorem setFences_watches (fn : Nat) (l : List (Nat × Nat)) (s : State) : (setFences fn l s).watches = s.watches := rfl
@[simp] theorem setFences_stalled (fn : Nat) (l : List (Nat × Nat)) (s : State) : (setFences fn l s).stalled = s.stalled := rfl
@[simp] theorem setFences_tandem (fn : Nat) (l : List (Nat × Nat)) (s : State) : (setFences fn l s).tandem = s.tandem := rfl
@[simp] theorem setFences_net (fn : Nat) (l : List (Nat × Nat)) (s : State) : (setFences fn l s).net = s.net := rfl
@[simp] theorem setFences_dec (fn : Nat) (l : List (Nat × Nat)) (s : State) : (setFences fn l s).dec = s.dec := rfl
@[simp] theorem setFences_engines (fn : Nat) (l : List (Nat × Nat)) (s : State) : (setFences fn l s).engines = s.engines := rfl
@[simp] theorem setFences_bist (fn : Nat) (l : List (Nat × Nat)) (s : State) : (setFences fn l s).bist = s.bist := rfl
@[simp] theorem setFences_sext (fn : Nat) (l : List (Nat × Nat)) (s : State) : (setFences fn l s).sext = s.sext := rfl
@[simp] theorem setFences_mclib (fn : Nat) (l : List (Nat × Nat)) (s : State) : (setFences fn l s).mclib = s.mclib := rfl
@[simp] theorem setFences_pwr (fn : Nat) (l : List (Nat × Nat)) (s : State) : (setFences fn l s).pwr = s.pwr := rfl
@[simp] theorem setFences_sec (fn : Nat) (l : List (Nat × Nat)) (s : State) : (setFences fn l s).sec = s.sec := rfl

@[simp] theorem setBuf_pending (h : Word) (b : Buf) (s : State) : (setBuf h b s).pending = s.pending := rfl
@[simp] theorem setBuf_deferred (h : Word) (b : Buf) (s : State) : (setBuf h b s).deferred = s.deferred := rfl
@[simp] theorem setBuf_out (h : Word) (b : Buf) (s : State) : (setBuf h b s).out = s.out := rfl
@[simp] theorem setBuf_freeCtr (h : Word) (b : Buf) (s : State) : (setBuf h b s).freeCtr = s.freeCtr := rfl
@[simp] theorem setBuf_bell (h : Word) (b : Buf) (s : State) : (setBuf h b s).bell = s.bell := rfl
@[simp] theorem setBuf_dev (h : Word) (b : Buf) (s : State) : (setBuf h b s).dev = s.dev := rfl
@[simp] theorem setBuf_regif (h : Word) (b : Buf) (s : State) : (setBuf h b s).regif = s.regif := rfl
@[simp] theorem setBuf_plan (h : Word) (b : Buf) (s : State) : (setBuf h b s).plan = s.plan := rfl
@[simp] theorem setBuf_quarters (h : Word) (b : Buf) (s : State) : (setBuf h b s).quarters = s.quarters := rfl
@[simp] theorem setBuf_sess (h : Word) (b : Buf) (s : State) : (setBuf h b s).sess = s.sess := rfl
@[simp] theorem setBuf_sessions (h : Word) (b : Buf) (s : State) : (setBuf h b s).sessions = s.sessions := rfl
@[simp] theorem setBuf_sched (h : Word) (b : Buf) (s : State) : (setBuf h b s).sched = s.sched := rfl
@[simp] theorem setBuf_ingest (h : Word) (b : Buf) (s : State) : (setBuf h b s).ingest = s.ingest := rfl
@[simp] theorem setBuf_rc (h : Word) (b : Buf) (s : State) : (setBuf h b s).rc = s.rc := rfl
@[simp] theorem setBuf_memc (h : Word) (b : Buf) (s : State) : (setBuf h b s).memc = s.memc := rfl
@[simp] theorem setBuf_mem (h : Word) (b : Buf) (s : State) : (setBuf h b s).mem = s.mem := rfl
@[simp] theorem setBuf_ctxCache (h : Word) (b : Buf) (s : State) : (setBuf h b s).ctxCache = s.ctxCache := rfl
@[simp] theorem setBuf_queue (h : Word) (b : Buf) (s : State) : (setBuf h b s).queue = s.queue := rfl
@[simp] theorem setBuf_vfCount (h : Word) (b : Buf) (s : State) : (setBuf h b s).vfCount = s.vfCount := rfl
@[simp] theorem setBuf_fns (h : Word) (b : Buf) (s : State) : (setBuf h b s).fns = s.fns := rfl
@[simp] theorem setBuf_dma (h : Word) (b : Buf) (s : State) : (setBuf h b s).dma = s.dma := rfl
@[simp] theorem setBuf_irq (h : Word) (b : Buf) (s : State) : (setBuf h b s).irq = s.irq := rfl
@[simp] theorem setBuf_watches (h : Word) (b : Buf) (s : State) : (setBuf h b s).watches = s.watches := rfl
@[simp] theorem setBuf_stalled (h : Word) (b : Buf) (s : State) : (setBuf h b s).stalled = s.stalled := rfl
@[simp] theorem setBuf_tandem (h : Word) (b : Buf) (s : State) : (setBuf h b s).tandem = s.tandem := rfl
@[simp] theorem setBuf_net (h : Word) (b : Buf) (s : State) : (setBuf h b s).net = s.net := rfl
@[simp] theorem setBuf_dec (h : Word) (b : Buf) (s : State) : (setBuf h b s).dec = s.dec := rfl
@[simp] theorem setBuf_engines (h : Word) (b : Buf) (s : State) : (setBuf h b s).engines = s.engines := rfl
@[simp] theorem setBuf_bist (h : Word) (b : Buf) (s : State) : (setBuf h b s).bist = s.bist := rfl
@[simp] theorem setBuf_sext (h : Word) (b : Buf) (s : State) : (setBuf h b s).sext = s.sext := rfl
@[simp] theorem setBuf_mclib (h : Word) (b : Buf) (s : State) : (setBuf h b s).mclib = s.mclib := rfl
@[simp] theorem setBuf_pwr (h : Word) (b : Buf) (s : State) : (setBuf h b s).pwr = s.pwr := rfl
@[simp] theorem setBuf_sec (h : Word) (b : Buf) (s : State) : (setBuf h b s).sec = s.sec := rfl

@[simp] theorem setBell_bell (s : State) (g : Bell → Bell) : (setBell s g).bell = g s.bell := rfl
@[simp] theorem setSec_sec (s : State) (g : Sec → Sec) : (setSec s g).sec = g s.sec := rfl
@[simp] theorem setTan_tandem (s : State) (g : Tandem → Tandem) : (setTan s g).tandem = g s.tandem := rfl
@[simp] theorem emit_out (o : Out) (s : State) : (emit o s).out = s.out ++ [o] := rfl
@[simp] theorem writeMem_mem (a : Nat) (bs : List Byte) (s : State) : (writeMem a bs s).mem = wrCells memDefault s.mem a bs := rfl

/-! Waking changes the power records alone (R525). -/

@[simp] theorem wake_pending (s : State) : (wake s).pending = s.pending := by unfold wake; split <;> rfl
@[simp] theorem wake_deferred (s : State) : (wake s).deferred = s.deferred := by unfold wake; split <;> rfl
@[simp] theorem wake_out (s : State) : (wake s).out = s.out := by unfold wake; split <;> rfl
@[simp] theorem wake_freeCtr (s : State) : (wake s).freeCtr = s.freeCtr := by unfold wake; split <;> rfl
@[simp] theorem wake_bell (s : State) : (wake s).bell = s.bell := by unfold wake; split <;> rfl
@[simp] theorem wake_dev (s : State) : (wake s).dev = s.dev := by unfold wake; split <;> rfl
@[simp] theorem wake_regif (s : State) : (wake s).regif = s.regif := by unfold wake; split <;> rfl
@[simp] theorem wake_plan (s : State) : (wake s).plan = s.plan := by unfold wake; split <;> rfl
@[simp] theorem wake_quarters (s : State) : (wake s).quarters = s.quarters := by unfold wake; split <;> rfl
@[simp] theorem wake_sess (s : State) : (wake s).sess = s.sess := by unfold wake; split <;> rfl
@[simp] theorem wake_sessions (s : State) : (wake s).sessions = s.sessions := by unfold wake; split <;> rfl
@[simp] theorem wake_sched (s : State) : (wake s).sched = s.sched := by unfold wake; split <;> rfl
@[simp] theorem wake_ingest (s : State) : (wake s).ingest = s.ingest := by unfold wake; split <;> rfl
@[simp] theorem wake_rc (s : State) : (wake s).rc = s.rc := by unfold wake; split <;> rfl
@[simp] theorem wake_memc (s : State) : (wake s).memc = s.memc := by unfold wake; split <;> rfl
@[simp] theorem wake_mem (s : State) : (wake s).mem = s.mem := by unfold wake; split <;> rfl
@[simp] theorem wake_ctxCache (s : State) : (wake s).ctxCache = s.ctxCache := by unfold wake; split <;> rfl
@[simp] theorem wake_pool (s : State) : (wake s).pool = s.pool := by unfold wake; split <;> rfl
@[simp] theorem wake_queue (s : State) : (wake s).queue = s.queue := by unfold wake; split <;> rfl
@[simp] theorem wake_vfCount (s : State) : (wake s).vfCount = s.vfCount := by unfold wake; split <;> rfl
@[simp] theorem wake_fns (s : State) : (wake s).fns = s.fns := by unfold wake; split <;> rfl
@[simp] theorem wake_dma (s : State) : (wake s).dma = s.dma := by unfold wake; split <;> rfl
@[simp] theorem wake_irq (s : State) : (wake s).irq = s.irq := by unfold wake; split <;> rfl
@[simp] theorem wake_watches (s : State) : (wake s).watches = s.watches := by unfold wake; split <;> rfl
@[simp] theorem wake_stalled (s : State) : (wake s).stalled = s.stalled := by unfold wake; split <;> rfl
@[simp] theorem wake_tandem (s : State) : (wake s).tandem = s.tandem := by unfold wake; split <;> rfl
@[simp] theorem wake_net (s : State) : (wake s).net = s.net := by unfold wake; split <;> rfl
@[simp] theorem wake_dec (s : State) : (wake s).dec = s.dec := by unfold wake; split <;> rfl
@[simp] theorem wake_engines (s : State) : (wake s).engines = s.engines := by unfold wake; split <;> rfl
@[simp] theorem wake_bist (s : State) : (wake s).bist = s.bist := by unfold wake; split <;> rfl
@[simp] theorem wake_sext (s : State) : (wake s).sext = s.sext := by unfold wake; split <;> rfl
@[simp] theorem wake_mclib (s : State) : (wake s).mclib = s.mclib := by unfold wake; split <;> rfl
@[simp] theorem wake_sec (s : State) : (wake s).sec = s.sec := by unfold wake; split <;> rfl

end Sys2Proof.Machine
end

