-- ==== Sys2Proof/Laws/Events.lean ====
section
/-! SUPPORT. What raising an interrupt source or a watch can do. -/

namespace Sys2Proof.Machine

open Sys2Proof

/-- A pulse touches the interrupt state, and the wake condition of a routed source. -/
theorem pulse_frame (id : Nat) (s : State) : ∃ i p, pulse id s = { s with irq := i, pwr := p } := by
  unfold pulse setPend
  simp only []
  split
  · exact ⟨{ s.irq with pend := addS s.irq.pend id }, (wake { s with irq := { s.irq with pend := addS s.irq.pend id } }).pwr, by unfold wake; (repeat' split) <;> rfl⟩
  · exact ⟨{ s.irq with pend := addS s.irq.pend id }, s.pwr, rfl⟩

/-- A wake touches the power state only. -/
theorem wake_frame (s : State) : ∃ p, wake s = { s with pwr := p } := by
  unfold wake; (repeat' split) <;> exact ⟨_, rfl⟩

/-- A level source touches the interrupt state, and the wake condition of a routed source. -/
theorem setLevel_frame (id : Nat) (c : Bool) (s : State) : ∃ i p, setLevel id c s = { s with irq := i, pwr := p } := by
  unfold setLevel
  simp only []
  split
  · split
    · exact ⟨s.irq, s.pwr, rfl⟩
    · obtain ⟨i, p, h⟩ := pulse_frame id { s with irq := { s.irq with cond := addS s.irq.cond id } }
      exact ⟨i, p, h⟩
  · split
    · split <;> exact ⟨_, s.pwr, rfl⟩
    · exact ⟨s.irq, s.pwr, rfl⟩

/-- What recording a watch event touches: the watch, the mark sequence and the interrupt side of the watch. -/
theorem recordEvent_frame (win kind : Nat) (code : Code) (inj : Bool) (s : State) :
    ∃ w n i p, (recordEvent win kind code inj s).2 = { s with bell := { s.bell with markSeq := n }, watches := put s.watches win w, irq := i, pwr := p } ∧
      (directKind win kind = true → (recordEvent win kind code inj s).1.2 = true ∧ w.severe = (watchOf s win).severe ||| (1#16 <<< kind)) ∧
      w.seen = (watchOf s win).seen ||| (1#16 <<< kind) ∧ w.last = kind := by
  unfold recordEvent takeMark watchLevel
  simp only []
  generalize hw : ({ watchOf s win with seen := _, severe := _, last := _, hist := _, kinds := _ } : Watch) = w
  obtain ⟨i, p, h⟩ := setLevel_frame (0x40 + win) (watchCond (watchOf { s with bell := { s.bell with markSeq := s.bell.markSeq + 1 }, watches := put s.watches win w } win))
    { s with bell := { s.bell with markSeq := s.bell.markSeq + 1 }, watches := put s.watches win w }
  refine ⟨w, _, i, p, h, ?_, ?_, ?_⟩
  · intro hd; subst hw; simp [hd]
  · subst hw; rfl
  · subst hw; rfl

/-- What a raised event without a reaction touches. -/
theorem raise_frame (win kind : Nat) (code : Code) (inj : Bool) (s : State) :
    ∃ w n i p o d, raise win kind code inj (fun s => s) s =
        { s with bell := { s.bell with markSeq := n }, watches := put s.watches win w, irq := i, pwr := p, out := o, dev := { s.dev with errPulse := d } } ∧
      (directKind win kind = true → w.severe = (watchOf s win).severe ||| (1#16 <<< kind)) ∧
      w.seen = (watchOf s win).seen ||| (1#16 <<< kind) ∧ w.last = kind := by
  obtain ⟨w, n, i, p, h, h1, h2, h3⟩ := recordEvent_frame win kind code inj s
  unfold raise
  generalize recordEvent win kind code inj s = r at *
  obtain ⟨⟨st, sv⟩, t⟩ := r
  simp only at h h1 ⊢
  subst h
  refine ⟨w, n, i, p, ?_⟩
  simp only [ite_self, h2, h3, and_true]
  rw [← h2, ← h3] at *
  cases sv
  · exact ⟨_, s.dev.errPulse, rfl, fun h => (h1 h).2⟩
  · simp only [if_true]
    (repeat' split)
    all_goals exact ⟨_, _, rfl, fun h => (h1 h).2⟩

end Sys2Proof.Machine
end

