-- ==== Sys2Proof/Laws/Frames.lean ====
section
/-! SUPPORT. What each shared operation may change: a lemma <name>_frame says that the operation answers its state with the named fields
replaced and nothing else, and the lemmas after them read a field back through an operation. -/

namespace Sys2Proof.Machine
open Sys2Proof

theorem foldl_frame {α : Type} (f : State → α → State) (P : State → Prop) (l : List α) (s : State) (h : P s) (hs : ∀ t a, P t → P (f t a)) : P (l.foldl f s) := by
  induction l generalizing s with
  | nil => exact h
  | cons a l ih => exact ih _ (hs _ _ h)

theorem appendPool_frame (c : NMap Nat) (s : State) : ∃ p, appendPool c s = { s with pool := p } := by
  unfold appendPool
  refine foldl_frame _ (fun t => ∃ p, t = { s with pool := p }) _ _ ⟨_, rfl⟩ ?_
  rintro t a ⟨p, rfl⟩
  simp only []
  split <;> exact ⟨_, rfl⟩

theorem takePools_frame (c : PlanCfg) (s : State) : ∃ p, takePools c s = { s with pool := p } := by
  unfold takePools
  simp only []
  split
  · exact ⟨_, rfl⟩
  · obtain ⟨p, h⟩ := appendPool_frame ((List.range 5).map (fun k => (k, c.counts.getD k 0))) { s with pool := { s.pool with quota := (List.range 25).map (fun k => (k, c.quotas.getD k 0)), fnQuota := [] } }
    unfold settleRetired
    exact ⟨_, congrArg (fun t => ({ t with pool := { t.pool with
      gone := retiredBufs t, free := t.pool.free.map (fun e => (e.1, ((retiredBufs t).filter (fun k => decide (k / 2 ^ 25 = e.1))).foldl
        (fun r k => cutRun r (k % 2 ^ 25)) e.2)) } } : State)) h⟩

theorem rezoneEngines_frame (q : Nat) (s : State) : ∃ e, rezoneEngines q s = { s with engines := e } := by
  unfold rezoneEngines
  refine foldl_frame _ (fun t => ∃ e, t = { s with engines := e }) _ _ ⟨_, rfl⟩ ?_
  rintro t a ⟨p, rfl⟩
  exact ⟨_, rfl⟩

theorem readyEngines_frame (q : Nat) (s : State) : ∃ e, readyEngines q s = { s with engines := e } := by
  unfold readyEngines
  refine foldl_frame _ (fun t => ∃ e, t = { s with engines := e }) _ _ ⟨_, rfl⟩ ?_
  rintro t a ⟨p, rfl⟩
  exact ⟨_, rfl⟩

theorem readiness_frame (s : State) : ∃ n, readiness s = { s with sec := { s.sec with stage := n } } := by
  unfold readiness
  split <;> exact ⟨_, rfl⟩

theorem lookD_put {α : Type} (m : NMap α) (k j : Nat) (a d : α) : lookD (put m k a) j d = if j = k then a else lookD m j d := by
  split
  · subst j; simp
  · rename_i h; rw [lookD_put_ne _ _ _ h]

theorem look_put {α : Type} (m : NMap α) (k j : Nat) (a : α) : look (put m k a) j = if j = k then some a else look m j := by
  split
  · subst j; simp
  · rename_i h; rw [look_put_ne _ _ h]

theorem put_put {α : Type} (m : NMap α) (k : Nat) (a b : α) : put (put m k a) k b = put m k b := by
  induction m with
  | nil => simp [put]
  | cons hd t ih =>
    obtain ⟨i, c⟩ := hd
    simp only [put]
    repeat' (first | split | simp_all [put])

theorem loadEngines_frame (q : Nat) (f g : Quarter → Quarter) (s : State) :
    ∃ e, rezoneEngines q (setQtr (setQtr s q f) q g) = { s with engines := e, quarters := put s.quarters q (g (f (qtrOf s q))) } := by
  obtain ⟨e, he⟩ := rezoneEngines_frame q (setQtr (setQtr s q f) q g)
  refine ⟨e, he.trans ?_⟩
  simp only [setQtr, qtrOf, put_put, lookD_put_self]

/-- The quarter as it enters LOADING with a District. -/
def loadedQ (r : Bool) (d : District) (t : Quarter) : Quarter :=
  { t with en := t.en || !allOff d, state := 5, drain := none, pend := false, isRezone := r, mcSet := d.mcSet, weight := d.weight }

theorem enterLoading_frame (q : Nat) (r : Bool) (s : State) : ∃ pl e id, enterLoading q r s =
    { s with plan := pl, engines := e, quarters := put s.quarters q (loadedQ r (districtOf { s with plan := pl } q) { qtrOf s q with planId := id }) } := by
  unfold enterLoading
  cases loadingPlan s q r with
  | none =>
    obtain ⟨e, he⟩ := rezoneEngines_frame q (setQtr s q (loadedQ r (districtOf s q)))
    exact ⟨s.plan, e, (qtrOf s q).planId, he⟩
  | some i =>
    simp only []
    generalize hpl : ({ s.plan with districts := _, mc := _, bist := _ } : Plan) = pl
    obtain ⟨e, he⟩ := loadEngines_frame q (fun t => { t with planId := i.planId }) (loadedQ r (districtOf { s with plan := pl } q)) { s with plan := pl }
    exact ⟨pl, e, i.planId, he⟩

theorem answers_pwr (s : State) (p : Pwr) : answers { s with pwr := p } = answers s := rfl

structure SV where
  state : Nat
  pend : Option PendCmd
  gen : Nat
  fn : Nat
  pinned : Bool
  idleFrom : Option (BitVec 40)
  woken : Option (BitVec 40)
  recs : List BandRec
  rtp : Rtp
  doneWait : List (Nat × Nat × Nat)
  ht : Option Ht
  full : Nat

def svp (x : Session) : SV := ⟨x.state, x.pend, x.gen, x.fn, x.pinned, x.idleFrom, x.woken, x.recs, x.rtp, x.doneWait, x.ht, x.rate.full⟩
def sv (s : State) : List (Nat × SV) × NMap Nat := (s.sessions.map (fun e => (e.1, svp e.2)), s.sess.gens)

theorem sv_look {s t : State} (h : sv t = sv s) {n : Nat} {x : Session} (hx : look s.sessions n = some x) : ∃ y, look t.sessions n = some y ∧ svp y = svp x := by
  have h1 : t.sessions.map (fun e => (e.1, svp e.2)) = s.sessions.map (fun e => (e.1, svp e.2)) := congrArg Prod.fst h
  generalize s.sessions = a at *
  generalize t.sessions = b at *
  induction a generalizing b with
  | nil => simp [look] at hx
  | cons e a ih =>
    cases b with
    | nil => simp at h1
    | cons f b =>
      obtain ⟨i, y⟩ := f; obtain ⟨j, z⟩ := e
      simp only [List.map_cons, List.cons.injEq, Prod.mk.injEq] at h1
      obtain ⟨⟨rfl, h2⟩, h3⟩ := h1
      simp only [look] at *
      split
      · rename_i hh; simp [hh] at hx; subst hx; exact ⟨y, rfl, h2⟩
      · rename_i hh; simp [hh] at hx; exact ih hx _ h3

theorem sv_gens {s t : State} (h : sv t = sv s) : t.sess.gens = s.sess.gens := congrArg Prod.snd h

theorem sv_mk {s t : State} (h : t.sessions = s.sessions) (h2 : t.sess.gens = s.sess.gens) : sv t = sv s := by simp [sv, h, h2]

theorem sv_setSess (s : State) (n : Nat) (g : Session → Session) (h : ∀ x, svp (g x) = svp x) : sv (setSess s n g) = sv s := by
  simp only [sv, setSess]
  congr 1
  generalize s.sessions = l
  induction l with
  | nil => rfl
  | cons e l ih => obtain ⟨i, x⟩ := e; simp only [alter]; split <;> simp [h, ih]

theorem foldl_sv {α : Type} (f : State → α → State) (l : List α) (s : State) (h : ∀ t a, sv (f t a) = sv t) : sv (l.foldl f s) = sv s := by
  induction l generalizing s with
  | nil => rfl
  | cons a l ih => exact (ih _).trans (h s a)
@[simp] theorem stamp_sv (s : State) : sv (stamp s) = sv s := rfl
@[simp] theorem setFn_sv (s : State) (f : Nat) (g : Fn → Fn) : sv (setFn s f g) = sv s := rfl
@[simp] theorem emit_sv (o : Out) (s : State) : sv (emit o s) = sv s := rfl
@[simp] theorem fnStat_sv (f i n : Nat) (s : State) : sv (fnStat f i n s) = sv s := rfl
@[simp] theorem stat_sv (h i n : Nat) (s : State) : sv (stat h i n s) = sv s := by
  unfold stat; split
  · rfl
  · exact sv_setSess _ _ _ (fun _ => rfl)
@[simp] theorem postRec_sv (f : Nat) (r : EvRec) (s : State) : sv (postRec f r s) = sv s := by
  unfold postRec; (repeat' split) <;> first | rfl | (simp only []; split <;> rfl)
@[simp] theorem post_sv (f t : Nat) (c : Code) (k : Word) (p : List Word) (s : State) : sv (post f t c k p s) = sv s := by
  unfold post; rw [postRec_sv]; rfl
@[simp] theorem notice_sv (h : Nat) (c : Code) (s : State) : sv (notice h c s) = sv s := by
  unfold notice; split <;> simp
@[simp] theorem enqueueCqe_sv (f r : Nat) (e : Cqe) (s : State) : sv (enqueueCqe f r e s) = sv s := by
  unfold enqueueCqe; split <;> rfl
@[simp] theorem complete_sv (h : Hdr) (o : Nat) (c : Code) (r : List Word) (s : State) : sv (complete h o c r s) = sv s := by simp [complete]
@[simp] theorem refuse_sv (h : Hdr) (o : Nat) (c : Code) (s : State) : sv (refuse h o c s) = sv s := by simp [refuse]
@[simp] theorem linkSend_sv (m : LinkOut) (s : State) : sv (linkSend m s) = sv s := by unfold linkSend; split <;> rfl
@[simp] theorem tellShadow_sv (h : Nat) (c : Session → FwdCmd) (s : State) : sv (tellShadow h c s) = sv s := by unfold tellShadow; (repeat' split) <;> simp
@[simp] theorem tellPartner_sv (h st : Nat) (s : State) : sv (tellPartner h st s) = sv s := by unfold tellPartner; simp
@[simp] theorem tellPhase_sv (h : Nat) (s : State) : sv (tellPhase h s) = sv s := by unfold tellPhase; simp
@[simp] theorem replaceIdle_sv (n : Nat) (s : State) : sv (replaceIdle n s) = sv s := by
  unfold replaceIdle; (repeat' split) <;> first | rfl | exact sv_setSess _ _ _ (fun _ => rfl)
@[simp] theorem allocRefused_sv (w : PoolReq) (c : Code) (s : State) : sv (allocRefused w c s) = sv s := by
  unfold allocRefused; simp only []; (repeat' split) <;> first | rfl | (rw [stat_sv]; rfl) | (rw [stat_sv])
@[simp] theorem sweepKeys_sv (s : State) : sv (sweepKeys s) = sv s := rfl
@[simp] theorem touch_sv (n : Nat) (s : State) : sv (touch n s) = sv s := by
  unfold touch
  have := sv_setSess s n (fun x => { x with lru := s.sess.clock }) (fun _ => rfl)
  exact this
@[simp] theorem admissionEvent_sv (n : Nat) (s : State) : sv (admissionEvent n s) = sv s := by unfold admissionEvent; split <;> simp
@[simp] theorem givePhase_sv (n : Nat) (l : Load) (s : State) : sv (givePhase n l s) = sv s := by
  unfold givePhase; (repeat' split) <;> simp; exact sv_setSess _ _ _ (fun _ => rfl)
@[simp] theorem unchargeSession_sv (n : Nat) (s : State) : sv (unchargeSession n s) = sv s := rfl
@[simp] theorem freeFence_sv (n : Nat) (s : State) : sv (freeFence n s) = sv s := by
  unfold freeFence; (repeat' split) <;> first | rfl | (unfold setFences; exact sv_setSess _ _ _ (fun _ => rfl))
@[simp] theorem safeState_sv (w : Nat) (s : State) : sv (safeState w s) = sv s := by
  unfold safeState; (repeat' split) <;> first | rfl | (simp only []; split <;> rfl)
theorem raise_sv (w k : Nat) (c : Code) (i : Bool) (f : State → State) (s : State) (hf : ∀ t, sv (f t) = sv t) : sv (raise w k c i f s) = sv s := by
  obtain ⟨x, n, q, p, h, -⟩ := recordEvent_frame w k c i s
  unfold raise
  generalize recordEvent w k c i s = r at *
  obtain ⟨⟨st, sv'⟩, t⟩ := r
  simp only at h ⊢
  subst h
  (repeat' split) <;> (try rw [hf]) <;> rfl
@[simp] theorem misuse_sv (w : PoolReq) (c : Code) (h : Word) (s : State) : sv (misuse w c h s) = sv s := by
  unfold misuse; simp only []; (repeat' split) <;> first | rfl | (rw [stat_sv]; rfl) | (rw [raise_sv _ _ _ _ _ _ (fun t => by simp)]; rfl)
@[simp] theorem settleBuf_sv (h : Word) (b : Buf) (s : State) : sv (settleBuf h b s) = sv s := by
  unfold settleBuf; (try simp only []); (repeat' split) <;> (try simp) <;> rfl
@[simp] theorem drop_sv (w : PoolReq) (h : Word) (k : Nat) (s : State) : sv (drop w h k s) = sv s := by
  unfold drop releaseBuf; (try simp only []); (repeat' split) <;> (try simp) <;> (try rfl)
@[simp] theorem dropAll_sv (w : PoolReq) (l : List Word) (s : State) : sv (dropAll w l s) = sv s := by
  unfold dropAll; exact foldl_sv _ _ _ (fun _ _ => by simp)
@[simp] theorem unmapSets_sv (h : Nat) (l : List (Nat × List Word)) (s : State) : sv (unmapSets h l s) = sv s := by
  unfold unmapSets; exact foldl_sv _ _ _ (fun _ _ => by rw [dropAll_sv]; rfl)
@[simp] theorem unbind_sv (h : Nat) (s : State) : sv (unbind h s) = sv s := by
  unfold unbind; split
  · rfl
  · simp only []
    refine (sv_setSess _ _ _ ?_).trans ((foldl_sv _ _ _ ?_).trans (foldl_sv _ _ _ ?_)) <;> intros <;> first | rfl | simp
@[simp] theorem freeRefs_sv (h : Nat) (s : State) : sv (freeRefs h s) = sv s := by
  unfold freeRefs; split
  · rfl
  · refine (foldl_sv _ _ _ ?_).trans (sv_setSess _ _ _ ?_) <;> intros <;> first | rfl | simp
theorem takeBuf_sv {s t : State} {w : PoolReq} {c : Nat} {h : Word} (e : takeBuf s w c = some (h, t)) : sv t = sv s := by
  unfold takeBuf at e; simp only [] at e
  split at e
  · simp at e
  · split at e
    · simp at e
    · simp only [Option.some.injEq, Prod.mk.injEq] at e; obtain ⟨-, rfl⟩ := e; rfl
@[simp] theorem allocate_sv (w : PoolReq) (n : Nat) (b : Bool) (s : State) : sv (allocate w n b s).2 = sv s := by
  unfold allocate; simp only []
  (repeat' split) <;> (try simp) <;> (rename_i e; have h0 := takeBuf_sv e; exact h0)
@[simp] theorem allocMany_sv (w : PoolReq) (n k : Nat) (s : State) : sv (allocMany w n k s).2 = sv s := by
  induction k generalizing s with
  | zero => rfl
  | succ k ih =>
    unfold allocMany
    have h1 := allocate_sv w n false s
    split
    · rename_i e; rw [e] at h1; exact h1
    · rename_i h s1 e; rw [e] at h1
      have h2 := ih s1
      split <;> (rename_i e2; rw [e2] at h2; exact h2.trans h1)
@[simp] theorem mapSet_sv (h : Nat) (o : SubmitOps) (s : State) : sv (mapSet h o s).2 = sv s := by
  unfold mapSet; simp only []
  split
  · rfl
  · have h1 := allocMany_sv (sessReq h) (2 ^ 20) (setPages o) s
    split
    · simp
    · rename_i e; rw [e] at h1; exact h1
@[simp] theorem mapSets_sv (h : Nat) (o : SubmitOps) (n : Nat) (s : State) : sv (mapSets h o n s).2 = sv s := by
  induction n generalizing s with
  | zero => rfl
  | succ n ih =>
    unfold mapSets
    have h1 := mapSet_sv h o s
    split
    · rename_i e; rw [e] at h1; exact h1
    · rename_i a s1 e; rw [e] at h1
      have h2 := ih s1
      split
      · rename_i e2; simp only []; split <;> simp
      · rename_i e2; rw [e2] at h2; exact h2.trans h1
@[simp] theorem rebind_sv (h : Nat) (s : State) : sv (rebind h s) = sv s := by
  unfold rebind; split
  · rfl
  · split
    · rfl
    · rename_i x _ b _
      have h1 := mapSets_sv h b.ops b.ops.surfaces s
      simp only []
      split <;> (rename_i e; rw [e] at h1; rw [post_sv]; refine (sv_setSess _ _ _ ?_).trans h1; intros; rfl)
@[simp] theorem settleQueue_sv (q : Nat) (x : Queue) (s : State) : sv (settleQueue q x s) = sv s := by
  unfold settleQueue; simp only []
  (repeat' split) <;> first | rfl | (rw [raise_sv _ _ _ _ _ _ (fun _ => rfl)]; rfl)
@[simp] theorem returnBeats_sv (q : Nat) (p : PoolReq) (n : Nat) (s : State) : sv (returnBeats q p n s) = sv s := by
  unfold returnBeats; simp
@[simp] theorem dropPackets_sv (q : Nat) (s : State) : sv (dropPackets q s) = sv s := by
  unfold dropPackets; split
  · rfl
  · refine (foldl_sv _ _ _ ?_).trans ?_
    · intros; simp
    · rw [returnBeats_sv]; rfl
@[simp] theorem removeFlow_sv (i : Nat) (s : State) : sv (removeFlow i s) = sv s := by
  unfold removeFlow; split
  · rfl
  · rw [sweepKeys_sv]; split
    · rfl
    · exact sv_setSess _ _ _ (fun _ => rfl)
@[simp] theorem closeFlows_sv (n : Nat) (s : State) : sv (closeFlows n s) = sv s := by
  unfold closeFlows; split
  · rfl
  · exact foldl_sv _ _ _ (fun _ _ => by simp)
@[simp] theorem freeWork_sv (p : TileRef → Bool) (s : State) : sv (freeWork p s) = sv s := rfl
@[simp] theorem freeSource_sv (h : Nat) (x : Session) (f : Frame) (s : State) : sv (freeSource h x f s) = sv s := by
  unfold freeSource
  dsimp only
  refine (sv_setSess _ _ _ ?_).trans ?_
  · intro; rfl
  · rw [dropAll_sv, dropAll_sv]
    exact foldl_sv _ _ _ (fun _ _ => by simp)
@[simp] theorem dropAu_sv (n : Nat) (a : Au) (s : State) : sv (dropAu n a s) = sv s := by simp [dropAu]
@[simp] theorem releaseAll_sv (n : Nat) (s : State) : sv (releaseAll n s) = sv s := by
  unfold releaseAll; split
  · rfl
  · simp only [unchargeSession_sv, freeRefs_sv, unbind_sv]
    refine (foldl_sv _ _ _ (fun _ _ => by simp)).trans ((foldl_sv _ _ _ (fun _ _ => by simp)).trans ((dropAll_sv _ _ _).trans ((foldl_sv _ _ _ (fun _ _ => by simp)).trans ?_)))
    split
    · refine (foldl_sv _ _ _ (fun _ _ => by split <;> simp)).trans ?_
      exact (foldl_sv _ _ _ (fun _ _ => by simp)).trans (freeWork_sv _ _)
    · refine (foldl_sv _ _ _ (fun _ _ => by split <;> simp)).trans ?_
      refine (foldl_sv _ _ _ (fun _ _ => by split <;> simp)).trans ?_
      exact (foldl_sv _ _ _ (fun _ _ => by simp)).trans (freeWork_sv _ _)

theorem look_setSess_sv {s : State} {n : Nat} {x : Session} (g : Session → Session) (hx : look s.sessions n = some x) :
    look (setSess s n g).sessions n = some (g x) := by simp [hx]

theorem keys_del {α β : Type} (a : NMap α) (b : NMap β) (n : Nat) (h : a.map (fun e => e.1) = b.map (fun e => e.1)) : (del a n).map (fun e => e.1) = (del b n).map (fun e => e.1) := by
  induction a generalizing b with
  | nil => cases b with
    | nil => rfl
    | cons f b => simp at h
  | cons e a ih =>
    cases b with
    | nil => simp at h
    | cons f b =>
      obtain ⟨i, y⟩ := e; obtain ⟨j, z⟩ := f
      simp only [List.map_cons, List.cons.injEq] at h
      obtain ⟨rfl, h⟩ := h
      simp only [del]
      split
      · exact h
      · simp [ih _ h]

theorem sv_keys {s t : State} (h : sv t = sv s) : t.sessions.map (fun e => e.1) = s.sessions.map (fun e => e.1) := by
  have := congrArg (fun l : List (Nat × _) => l.map (fun e => e.1)) (congrArg Prod.fst h)
  simpa [sv, Function.comp_def] using this

theorem closeSession_end (n : Nat) (x : Session) (s : State) (hx : look s.sessions n = some x) :
    (closeSession n s).sessions.map (fun e => e.1) = (del s.sessions n).map (fun e => e.1) ∧
    ((x.gen + 1) % 16384 ≠ 0 → lookD (closeSession n s).sess.gens n 0 = (x.gen + 1) % 16384) := by
  unfold closeSession
  simp only [hx]
  generalize hr : freeFence n (releaseAll n (closeFlows n (pendEvent true (fun u => decide (u.handle = n)) s))) = r
  have h1 : sv r = sv s := by rw [← hr]; simp; rfl
  generalize hu : sweepKeys _ = u
  have hk : u.sessions.map (fun e => e.1) = (del s.sessions n).map (fun e => e.1) := by
    rw [← hu]; exact keys_del _ _ _ (sv_keys h1)
  have hg : (x.gen + 1) % 16384 ≠ 0 → lookD u.sess.gens n 0 = (x.gen + 1) % 16384 := by
    intro h; rw [← hu]; simp [sweepKeys, h]
  (repeat' split)
  · exact ⟨hk, hg⟩
  · exact ⟨hk, hg⟩
  · rename_i op q e
    have := refuse_sv q op 0x0204#16 u
    exact ⟨(sv_keys this).trans hk, fun h => (congrArg (fun g => lookD g n 0) (sv_gens this)).trans (hg h)⟩

theorem storeMem_frame (a : Nat) (bs : List Byte) (s : State) : ∃ p, storeMem a bs s = { s with mem := wrCells memDefault s.mem a bs, memc := { s.memc with poison := p } } := ⟨_, rfl⟩

theorem writeSet_frame (bufs : List Word) (off : Nat) (bs : List Byte) (s : State) : ∃ m p, writeSet bufs off bs s = { s with mem := m, memc := { s.memc with poison := p } } ∧
    ∀ k, (bufs[off / 2 ^ 20]? = none ∨ ∃ v, bufs[off / 2 ^ 20]? = some v ∧ (k < bufAddr s (hClass v) (hIndex v) + off % 2 ^ 20 ∨ bufAddr s (hClass v) (hIndex v) + off % 2 ^ 20 + bs.length ≤ k)) →
      rdCell memDefault m k = rdCell memDefault s.mem k := by
  unfold writeSet
  generalize 2 ^ 20 = c
  split
  · exact ⟨s.mem, s.memc.poison, rfl, fun _ _ => rfl⟩
  · rename_i w hw
    obtain ⟨p, hp⟩ := storeMem_frame (bufAddr s (hClass w) (hIndex w) + off % c) (bs.take (c - off % c)) s
    refine ⟨_, p, hp, fun k hk => ?_⟩
    rcases hk with hk | ⟨v, hv, hk⟩
    · rw [hw] at hk; cases hk
    · rw [hw] at hv; cases hv
      apply rdCell_wrCells_ne
      rw [List.length_take]
      omega

theorem rdCell_filter_out (p : Host.Cell → Bool) (m : List Host.Cell) (a : Nat) (h : ∀ b, p (a, b) = false) : rdCell memDefault (m.filter p) a = 0 := by
  induction m with
  | nil => rfl
  | cons e m ih =>
    obtain ⟨i, b⟩ := e
    simp only [List.filter]
    split
    · rename_i he
      simp only [rdCell]
      split
      · subst i; rw [h b] at he; cases he
      · exact ih
    · exact ih

theorem rdCell_filter_in (p : Host.Cell → Bool) (m : List Host.Cell) (a : Nat) (h : ∀ b, p (a, b) = true) : rdCell memDefault (m.filter p) a = rdCell memDefault m a := by
  induction m with
  | nil => rfl
  | cons e m ih =>
    obtain ⟨i, b⟩ := e
    simp only [List.filter]
    split
    · simp only [rdCell]; split
      · rfl
      · exact ih
    · rename_i he
      simp only [rdCell]
      split
      · subst i; rw [h b] at he; cases he
      · exact ih

@[simp] theorem sweepPics_sv (h : Nat) (s : State) : sv (sweepPics h s) = sv s := by
  unfold sweepPics; split
  · rfl
  · refine (foldl_sv _ _ _ ?_).trans (sv_setSess _ _ _ ?_) <;> intros <;> first | rfl | simp
@[simp] theorem settleFlush_sv (h : Nat) (s : State) : sv (settleFlush h s) = sv s := by
  unfold settleFlush; (repeat' split)
  · rfl
  · rfl
  · simp only [complete_sv, sweepPics_sv]; exact sv_setSess _ _ _ (fun _ => rfl)
  · rfl


@[simp] theorem setFlow_sv (s : State) (i : Nat) (g : Flow → Flow) : sv (setFlow s i g) = sv s := rfl
theorem foldl_sv2 {α : Type} (f : State → α → State) (l : List α) (s : State) (h : ∀ t a, sv (f t a) = sv t) : sv (l.foldl f s) = sv s := foldl_sv f l s h
theorem tr_pwr (s : State) (p : Pwr) : trained { s with pwr := p } = trained s := rfl
theorem wm_pwr (s : State) (p : Pwr) (m : NMap Nat) (k : Nat) : wmOk { s with pwr := p } m k = wmOk s m k := rfl
theorem engOf_setEng_ne (s : State) {e k : Nat} (g : Engine → Engine) (h : k ≠ e) : engOf (setEng s e g) k = engOf s k := by
  simp [engOf, setEng, lookD_put_ne _ _ _ h]
@[simp] theorem netCount_sv (o n : Nat) (s : State) : sv (netCount o n s) = sv s := rfl
@[simp] theorem countDrop_sv (i n : Nat) (s : State) : sv (countDrop i n s) = sv s := by simp [countDrop]
theorem reserveBeats_sv {q : Nat} {p : PoolReq} {n : Nat} {s t : State} (h : reserveBeats q p n s = some t) : sv t = sv s := by
  unfold reserveBeats at h; simp only [] at h
  split at h
  · simp only [Option.some.injEq] at h; rw [← h]; simp
  · simp at h
@[simp] theorem claimBuf_sv (w : PoolReq) (h : Word) (s : State) : sv (claimBuf w h s).2 = sv s := by
  unfold claimBuf; simp only []; (repeat' split) <;> rfl
@[simp] theorem claimFor_sv (w : PoolReq) (o : Option Word) (s : State) : sv (claimFor w o s).2 = sv s := by
  unfold claimFor
  split
  · rfl
  · rename_i h
    have h1 := claimBuf_sv w h s
    split <;> (rename_i e; rw [e] at h1; exact h1)
@[simp] theorem popPacket_sv (i : Nat) (s : State) : sv (popPacket i s) = sv s := by
  unfold popPacket; (repeat' split) <;> (try simp) <;> (try rfl)
@[simp] theorem dropLate_sv (n i : Nat) (s : State) : sv (dropLate n i s) = sv s := by
  induction n generalizing s with
  | zero => rfl
  | succ n ih => unfold dropLate; (repeat' split) <;> (try rw [ih]) <;> simp
@[simp] theorem tagHead_sv (i : Nat) (s : State) : sv (tagHead i s) = sv s := by
  unfold tagHead; (repeat' split) <;> (try rfl); simp only []; split <;> rfl
@[simp] theorem newHead_sv (i : Nat) (s : State) : sv (newHead i s) = sv s := by
  unfold newHead; split <;> simp
@[simp] theorem queueFlow_sv (r : BandRec) (l : List Nat) (q : BitVec 16) (o : Word) (i : Nat) (s : State) : sv (queueFlow r l q o i s) = sv s := by
  unfold queueFlow
  split
  · rfl
  · split
    · rfl
    · split
      · simp
      · rename_i s1 e
        have h1 := reserveBeats_sv e
        have h2 := claimFor_sv netReq r.payload s1
        simp only []
        split <;> (try simp only [newHead_sv, setFlow_sv]) <;> rw [h2, h1]
theorem look_filter_out {α : Type} (p : Nat × α → Bool) (m : NMap α) (k : Nat) (h : ∀ x, p (k, x) = false) : look (m.filter p) k = none := by
  induction m with
  | nil => rfl
  | cons a m ih =>
    obtain ⟨j, x⟩ := a
    by_cases e : j = k
    · subst e; simp [List.filter_cons, h, ih]
    · by_cases hp : p (j, x) = true
      · simp only [List.filter_cons, hp, if_true]; simp only [look] at *; simp [e, ih]
      · simp only [List.filter_cons, hp]; simpa using ih
theorem look_filter_in {α : Type} (p : Nat × α → Bool) (m : NMap α) (k : Nat) (h : ∀ x, p (k, x) = true) : look (m.filter p) k = look m k := by
  induction m with
  | nil => rfl
  | cons a m ih =>
    obtain ⟨j, x⟩ := a
    by_cases e : j = k
    · subst e; simp [List.filter_cons, h, look]
    · by_cases hp : p (j, x) = true
      · simp only [List.filter_cons, hp, if_true]; simp only [look] at *; simp [e, ih]
      · simp only [List.filter_cons, hp]; simp only [look] at *; simp [e, ih]
theorem cq_used_pwr (s : State) (p : Pwr) (f r : Nat) : cqUsed { s with pwr := p } f r = cqUsed s f r := rfl
theorem cqOf_setCq (s : State) (f r : Nat) (g : CqRing → CqRing) : cqOf (setCq s f r g) f r = g (cqOf s f r) := by
  simp [cqOf, setCq, fnOf, setFn]
theorem cmdOf_setCmd (s : State) (f r : Nat) (g : CmdRing → CmdRing) : cmdOf (setCmd s f r g) f r = g (cmdOf s f r) := by
  simp [cmdOf, setCmd, fnOf, setFn]
theorem cqOf_setCmd (s : State) (f r k : Nat) (g : CmdRing → CmdRing) : cqOf (setCmd s f r g) f k = cqOf s f k := by
  simp [cqOf, setCmd, fnOf, setFn]
theorem cmdOf_setCq (s : State) (f r k : Nat) (g : CqRing → CqRing) : cmdOf (setCq s f r g) f k = cmdOf s f k := by
  simp [cmdOf, setCq, fnOf, setFn]
theorem fnOf_setCq_ne (s : State) (f r k : Nat) (g : CqRing → CqRing) (h : k ≠ f) : fnOf (setCq s f r g) k = fnOf s k := fnOf_setFn_ne s _ h
theorem fnOf_setCmd_ne (s : State) (f r k : Nat) (g : CmdRing → CmdRing) (h : k ≠ f) : fnOf (setCmd s f r g) k = fnOf s k := fnOf_setFn_ne s _ h
theorem setCq_frame (s : State) (f r : Nat) (g : CqRing → CqRing) : ∃ m, setCq s f r g = { s with fns := m } := ⟨_, rfl⟩
theorem cqLevel_frame (f r : Nat) (s : State) : ∃ i p, cqLevel f r s = { s with irq := i, pwr := p } := setLevel_frame _ _ s
theorem cqOf_emit (o : Out) (s : State) (f r : Nat) : cqOf (emit o s) f r = cqOf s f r := rfl
theorem cmdOf_emit (o : Out) (s : State) (f r : Nat) : cmdOf (emit o s) f r = cmdOf s f r := rfl
theorem fnOf_emit (o : Out) (s : State) (f : Nat) : fnOf (emit o s) f = fnOf s f := rfl
@[simp] theorem dmaOf_setDma (s : State) (c : Nat) (g : DmaCh → DmaCh) : dmaOf (setDma s c g) c = g (dmaOf s c) := by simp [dmaOf, setDma]
theorem dmaOf_setDma_ne (s : State) {c k : Nat} (g : DmaCh → DmaCh) (h : k ≠ c) : dmaOf (setDma s c g) k = dmaOf s k := by simp [dmaOf, setDma, lookD_put_ne _ _ _ h]
@[simp] theorem setDma_setDma (s : State) (c : Nat) (g h : DmaCh → DmaCh) : setDma (setDma s c g) c h = setDma s c (fun x => h (g x)) := by simp [setDma, dmaOf, put_put]
theorem ownedBy_pwr (s : State) (p : Pwr) (f : Nat) : ownedBy { s with pwr := p } f = ownedBy s f := rfl
theorem dmaOf_storeMem (a : Nat) (bs : List Byte) (s : State) (c : Nat) : dmaOf (storeMem a bs s) c = dmaOf s c := rfl
theorem recentre_frame (c : Nat) (s : State) : ∃ n m, recentre c s = { s with freeCtr := n, memc := { s.memc with chans := m } } := by
  simp only [recentre]
  split
  · apply foldl_frame _ (fun t => ∃ n m, t = { s with freeCtr := n, memc := { s.memc with chans := m } })
    · exact ⟨_, _, rfl⟩
    · rintro t a ⟨n, m, rfl⟩; exact ⟨_, _, rfl⟩
  · exact ⟨_, _, rfl⟩
theorem has_addS (l : List Nat) (n k : Nat) : has (addS l n) k = (decide (k = n) || has l k) := by
  induction l with
  | nil => simp [addS, has]
  | cons a t ih =>
    simp only [addS]
    split
    · simp [has]
    · split
      · next h => subst h; simp only [has, List.contains_cons]; by_cases h2 : k = a <;> simp [h2]
      · simp only [has, List.contains_cons] at *; rw [ih]; cases (k == a) <;> simp

end Sys2Proof.Machine
end

