-- ==== Sys2Proof/Tests/Slice0.lean ====
section
/-! SUPPORT. Small tests: a state and operands that meet the hypotheses of each clause of the statements, the range checks of WellFormed, and
the decoder. -/

set_option maxRecDepth 100000

namespace Sys2Proof
open Sys2Proof.Machine

/-- A running device in stage READY. -/
def up : State := { State.reset with sec := { Sec.reset with stage := 4 } }

/-- The Bell-start environment with nothing to report. -/
def env0 : BellEnv := { temps := [], throttleN := true, sceneCuts := [], parityFail := none, aspmL1 := false }

/-- An OPEN encode session of the PF. -/
def se : Session := newSession State.reset 5 { fn := 0, ring := 0, cid := 0, token := 0 } 0 0
  { codec := 0, profile := 0, depth := 0, width := 1280, height := 720, fps := 60, content := 0, effortMin := 0, effortMax := 0, idleLimit := 0, ltrSlots := 0, flags := 0 } 0 0 0 none

/-- A running device with trained and enabled DRAM on every channel. -/
def ram : State :=
  { up with memc := { up.memc with en := true, dpc := 2, ranks := 2, chans := (List.range 12).map (fun c => (c, { Chan.reset with state := 3 })) } }

/-- A partial plan image of one DISTRICT section: Quarter 0, every engine OFF (R33 to R40). -/
def partImage : List Byte :=
  [0x53, 0x54, 0x50, 0x4C, 0, 2, 1, 0, 208, 0, 0, 0, 1, 0, 0, 0, 0, 0, 0, 0, 0x51, 0xE9, 0x5B, 0x1D, 0, 1, 0, 0, 0, 0, 0, 0] ++
  [1, 0, 0, 0, 0x30, 0, 0, 0, 0x20, 0, 0, 0, 1, 0, 0, 0] ++ ([0, 0, 1, 0, 0, 0, 0, 0] ++ List.replicate 16 0x66 ++ List.replicate 8 0) ++
  ([0x53, 0x49, 0x47, 0x4E] ++ List.replicate 124 0)

/-- A running device whose session unit, rate control and frame ingest are enabled, with one OPEN encode session. -/
def sx : State :=
  { up with sess := { up.sess with en := true }, rc := { up.rc with en := true }, ingest := { up.ingest with en := true }, sessions := [(5, se)],
            quarters := [(0, { Quarter.reset with state := 1 })] }

/-- An equation of results from its decidable form. -/
theorem ok_of {α : Type} {a : Except Code α} {v : α} (h : (match a with | .error _ => none | .ok q => some q) = some v) : a = .ok v := by
  cases a with
  | error e => simp at h
  | ok q => simp at h; rw [h]

/-- A small decode session that waits for its record. -/
def sd : Session :=
  { se with state := 4, resident := true, phase := some 0, kind := 1, stream := { se.stream with width := 320, height := 180 },
            pend := some { kind := 2, hdr := some { fn := 0, ring := 0, cid := 7, token := 5 }, bell := 3, prior := none } }

/-- A device with a District that carries work in Quarter 0. -/
def sw : State :=
  { sx with sessions := [(5, sd)], bell := { up.bell with num := 4 },
            plan := { up.plan with cfg := { up.plan.cfg with headroom := 90 },
                                   districts := [(0, { mcSet := 0, weight := 1, ctxSlots := 4, roles := (List.range 32).map (fun k => k % 6) })] } }

/-- A SUBMIT_FRAME of a 1280 by 720 surface pair. -/
def op : SubmitOps :=
  { format := 0, colour := 0, orient := 0, srcWidth := 1280, srcHeight := 720, hints := 0, surfaces := 2, writerRid := 0, flags := 0, roiTable := 0,
    compToken := 0, compX := 0, compY := 0, compMode := 0, hostAddr := 0, hostPitch := 0, frame := 0, pad := 0 }

/-- A frame that waits for rows. -/
def fr : Frame :=
  { ops := op, bindId := 1, ts := 0, cands := [], comp := [], num := 7, key := false, source := 0, set := 0, rows := 8, ingest := true, trunc := false,
    truncAt := none, parked := false, slot0 := 0, bells := 1, stall := 0, ref := none, slot := none, wave := 0, desc := 0, width := 1280, height := 720, next := 1,
    bounded := false, bits := 0, off := 0, anyFb := false, dropped := false, mirrored := false, failed := false, sampled := false, ibc := false,
    headers := [], compPic := none, surface := [], bands := [(1, newBand), (2, newBand)] }

/-- The session with a binding, one frame and a fence. -/
def sf : Session :=
  { se with state := 2, fence := some 3, frameNum := 8, frameMark := some { bell := 0, seq := 0 }, frames := [fr],
            binding := some { id := 1, ops := op, source := 0, valid := true, sets := [(4, [0x60000000])], count := 0 } }

/-- That session with a surface that only requester 0 may write. -/
def sfr : Session := { sf with binding := some { id := 1, ops := { op with flags := 1 }, source := 0, valid := true, sets := [(4, [0x60000000])], count := 0 } }

/-- A device with that session and a pool with buffers. -/
def sg : State :=
  { sx with sessions := [(5, sf)], pool := { up.pool with en := true, free := [(3, [(0, 64)])], count := [(3, 64)], lay := [(3, 0, 64, 0)], quota := (List.range 25).map (fun k => (k, 99)), claimFree := 9 },
            ingest := { sx.ingest with pages := [(4, 1, 5)] } }

/-- A SUBMIT_FRAME from host memory. -/
def opHost : SubmitOps := { op with surfaces := 0, hostPitch := 1280 }

/-- A refusal from its decidable form. -/
theorem error_of {α : Type} {a : Except Code α} {c : Code} (h : (match a with | .error e => some e | .ok _ => none) = some c) : a = .error c := by
  cases a with
  | error e => simp at h; rw [h]
  | ok q => simp at h

/-- A binding of four clear output buffers. -/
def bo : BindOps :=
  { use := 2, flags := 0, outCount := 4, flow := 0, outAddr := 4096, outPitch := 1280, outStride := 2097152, reorderBells := 0, crypt := 0, keySlot := 0,
    iv := 0, pad := 0 }

/-- An unfinished DATA chunk. -/
def da : DataOps := { flags := 1, tag := 9, addr := 0, len := 64, subsCount := 0, subsAddr := 0, subs := [], pad := 0 }

/-- What an access unit brings. -/
def au : AuInfo :=
  { readFailed := false, unit := 3, seq := none, width := 320, height := 180, order := 0, refs := [], primary := none, recovery := none, shows := true, drops := [] }

/-- A decode session with a binding. -/
def sb : Session := { sf with kind := 1, dec := { sf.dec with bind := some bo, held := [2] } }

/-- A device that decodes. -/
def dd (x : Session) : State := { sg with sessions := [(5, x)], dec := { sg.dec with en := true } }

/-- An INGRESS flow. -/
def fi : Flow := { newFlow 0 { port := 0, flags := 0, cls := 0, rxq := 0, rxqEn := false, vlan := 0, localPort := 9, remoteIp := 0, remotePort := 9, nextHop := 0, keySlot := 3, suite := 1, pt := 96, mtu := 1280, weight := 1, deadline := 0, paceMax := 1, paceMin := 1, burst := 9, pacePct := 0, policeRate := 1, policeBurst := 1, pad := 0 } 5 0 with kind := 1, session := none, detach := none }

/-- A band that may be worked on in Quarter 0. -/
def b1 : Band := { newBand with st := 1, q := 40 }

/-- The session whose band 1 is b, its frame at the first bucket boundary. -/
def sbd (b : Band) : Session := { sf with frames := [{ fr with bounded := true, bands := [(1, b), (2, newBand)] }] }

/-- A device at that band, its engine e ready in role r. -/
def sq (b : Band) (e r : Nat) : State :=
  { sg with sessions := [(5, sbd b)], bell := { up.bell with window := .work },
            engines := [(e, { Engine.reset with state := 2, role := r })] }

/-- What a band brings. -/
def br : BandResult :=
  { frame := [[1, 2, 3]], rows := [[4, 5]], states := [], pre := [], fin := [], lrc := [], blocks := [] }

/-- A committed band whose packets are not built yet. -/
def bandRec : BandRec :=
  { ts := 0, frame := 7, band := 1, flags := 0, branch := 0, q := 40, fbBlocks := 0, bits := 100, payload := some 0x60000000, bytes := 13, off := 0, pre := 0,
    final := 0, mark := { bell := 0, seq := 0 }, stripe := 0, units := 1, userTag := 0 }

/-- The k bytes of a number, the lowest first. -/
def bytesOf (k n : Nat) : List Byte :=
  match k with
  | 0 => []
  | k + 1 => BitVec.ofNat 8 n :: bytesOf k (n / 256)

/-- A full plan image (R33 to R50) as one number: header, 26 directory entries, 16 DISTRICT sections of which Quarter 0 has every role,
MICROCODE with set 0, WEIGHTS of 1, POOL with 64 buffers of each class, PRIORS, empty BIST and ROUTES, and the signature block. -/
def imageNat : Nat := 0x4E47495300000000000000000000000000000000000000000000000000000000000000000000000000000000000000000000000000000000000000000000000000000000000000000000000000000000000000000000000000000000000000000000000000000000000000000000000000000000000000000000000000000000000000000000000000000000000100010000010100010001000001010001000100000101000100010000010100010001000001010001000100000101000100010000010100010001000001010001000100000101000100010000010100010001000001010001000100000101000100010000010100010001000001010001000100000101000100010000010100010001000001010001000100000101000100010000010100010001000001010001000100000101000100010000010100010001000001010001000100000101000100010000010100010001000001010001000100000101000100010000010100010001000001010001000100000101000100010000010100010001000001010001000100000101000100010000010100010001000001010001000100000101000100010000010100010001000001010001000100000101000100010000010100010001000001010001000100000101000100010000010100010001000001010001000100000101000100010000010100010001000001010001000100000101000100010000010100010001000001010001000100000101000100010000010100010001000001010001000100000101000100010000010100010001000001010001000100000101000100010000010100010001000001010001000100000101000100010000010100010001000001010001000100000101000100010000010100010001000001010001000100000101000100010000010100010001000001010001000100000101000100010000010100010001000001010001000100000101000100010000010100010001000001010001000100000101000000000064005A00000000006400000000000000000100000000000000000000000040000000400000000000000000000000000000000000000000000000000000000000000000000000000000000000000000000000000000000000000000000000000000000000000000000000000000000000000000000000000000000000000000000000000000000000000000000000000000004000000040000000400000004000000040000000000000010101010101010101010000000000000000000000000000000000000000000000000000000000000000000000000000000000000000000000000000000000000F00000000000000000000000000000000000000000000000000000000000000000000000000000000000000000000000000000000000000040000000000000000000000000000000000000000000000000000000000000000000000000000000000000000000000000000000000000003000000000000000000000000000000000000000000000000000000000000000000000000000000000000000000000000000000000000000200000000000000000000000000000000000000000000000000000000000000000000000000000000000000000000000000000000000000010000000000000000000000000000000000000000000000000000000000000000000000000000000000000000000000000000000000000000000000000000000001000000000000000066666666666666666666666666666666000000100001000F000000000000000066666666666666666666666666666666000000100001000E000000000000000066666666666666666666666666666666000000100001000D000000000000000066666666666666666666666666666666000000100001000C000000000000000066666666666666666666666666666666000000100001000B000000000000000066666666666666666666666666666666000000100001000A00000000000000006666666666666666666666666666666600000010000100090000000000000000666666666666666666666666666666660000001000010008000000000000000066666666666666666666666666666666000000100001000700000000000000006666666666666666666666666666666600000010000100060000000000000000666666666666666666666666666666660000001000010005000000000000000066666666666666666666666666666666000000100001000400000000000000006666666666666666666666666666666600000010000100030000000000000000666666666666666666666666666666660000001000010002000000000000000066666666666666666666666666666666000000100001000100000000000000001054321054321054321054321054321000000010000100000000000100000008000008A80000000B0000000100000008000008A00000000A00000001000002D0000005D0000000090000000100000008000005C8000000080000000100000008000005C0000000070000000100000008000005B8000000060000000100000008000005B00000000500000001000000880000052800000004000000010000001000000518000000030000000100000158000003C0000000020000000100000020000003A0000F0001000000010000002000000380000E0001000000010000002000000360000D0001000000010000002000000340000C0001000000010000002000000320000B0001000000010000002000000300000A00010000000100000020000002E0000900010000000100000020000002C0000800010000000100000020000002A00007000100000001000000200000028000060001000000010000002000000260000500010000000100000020000002400004000100000001000000200000022000030001000000010000002000000200000200010000000100000020000001E0000100010000000100000020000001C00000000100000000000000001D5BE951000000000000000100000930001A02004C505453

/-- Its 2,352 bytes. -/
def fullImage : List Byte := bytesOf 2352 imageNat

theorem drop_bytesOf (o : Nat) : ∀ k n, (bytesOf k n).drop o = bytesOf (k - o) (n / 256 ^ o) := by
  induction o with
  | zero => intro k n; simp
  | succ o ih =>
    intro k n
    cases k with
    | zero => simp [bytesOf]
    | succ k => simp only [bytesOf, List.drop_succ_cons, ih, Nat.div_div_eq_div_mul, Nat.add_sub_add_right, Nat.pow_succ, Nat.mul_comm]

theorem take_bytesOf (m : Nat) : ∀ k n, (bytesOf k n).take m = bytesOf (min m k) n := by
  induction m with
  | zero => intro k n; simp [bytesOf]
  | succ m ih =>
    intro k n
    cases k with
    | zero => simp [bytesOf]
    | succ k => simp [bytesOf, ih, Nat.succ_min_succ]

theorem leNat_bytesOf (k : Nat) : ∀ n, leNat (bytesOf k n) = n % 256 ^ k := by
  induction k with
  | zero => intro n; simp [bytesOf, leNat, Nat.mod_one]
  | succ k ih =>
    intro n
    simp only [bytesOf, leNat, ih, BitVec.toNat_ofNat]
    rw [show (256 : Nat) ^ (k + 1) = 256 * 256 ^ k by rw [Nat.pow_succ, Nat.mul_comm], Nat.mod_mul]

theorem le_full (o n : Nat) : le fullImage o n = imageNat / 256 ^ o % 256 ^ (min n (2352 - o)) := by
  simp only [le, fullImage, drop_bytesOf, take_bytesOf, leNat_bytesOf]

theorem slice_full (o n : Nat) : slice fullImage o n = bytesOf (min n (2352 - o)) (imageNat / 256 ^ o) := by
  simp only [slice, fullImage, drop_bytesOf, take_bytesOf]

theorem length_full : fullImage.length = 2352 := by
  have h : ∀ k n, (bytesOf k n).length = k := by
    intro k
    induction k with
    | zero => intro n; rfl
    | succ k ih => intro n; simp [bytesOf, ih]
  exact h _ _

/-- A microcode library with one image of each role. -/
def lib : McLib := { State.reset.mclib with images := [0, 1, 2, 3, 4, 15].map (fun r => { role := r, imageId := 0, svn := 0, digest := 0, words := [] }) }

/-- A device in stage LOAD. -/
def loading : State := { State.reset with sec := { Sec.reset with stage := 1 }, mclib := lib }

/-- A device in stage INIT whose default plan was measured. -/
def initing : State := { ram with sec := { up.sec with stage := 3 }, plan := { ram.plan with digest1 := 9 }, mclib := lib }

/-- A well-formed key blob of kind 1 for a 16-byte key (R551); its point and its wrapped key are zeros. -/
def goodBlob : List Byte := [0x57, 0x4B, 0x45, 0x59, 1, 16, 0, 0] ++ (List.range 168).map (fun _ => 0)

/-- A sequence of 320 by 180 pictures. -/
def sq0 : SeqInfo :=
  { profile := 0, chroma := 1, depth := 8, level := 30, high := false, width := 320, height := 180, dpb := 1, block := 64, largeScale := false, layers := 1,
    fields := false }

/-- A decode band, its parse at stage p. -/
def db0 (p : Nat) : DecBand := { k := 1, quarter := 0, bell := 0, cadence := true, deadline := false, parse := p, units := [] }

/-- An access unit with that band. -/
def da0 (p : Nat) : Au :=
  { tag := 9, bufs := [], info := au, seq := sq0, mark := { bell := 0, seq := 0 }, elig := 0, slot0 := 0, desc := 1, refs := [], sent := 1, cadBell := 0,
    cadNow := 0, run := [db0 p], vecs := [], missing := [] }

/-- A decode session with that access unit. -/
def sdb (p : Nat) : Session := { sb with dec := { sb.dec with queue := [da0 p] }, pics := [(1, newPic 7)] }

/-- A device with that session, its engine e ready in role r. -/
def sqd (p e r : Nat) : State :=
  { dd (sdb p) with bell := { up.bell with window := .work }, engines := [(e, { Engine.reset with state := 2, role := r })] }

/-- A CONFIGURE RATE that leaves every field at 0. -/
def rops : RateOps :=
  { mode := 0, latFrames := 0, flags := 0, bucketBits := 0, peak := 0, initFull := 0, qpMin := 0, qpMax := 0, forkDq := 0, uThresh := 0, keyMult := 0, dqBand := 0, incPct := 0, lossLo := 0, lossHi := 0, pad := 0 }

/-! Hypotheses of BellStartsWindowsAndSources are met. -/

theorem test_met_bellStart :
    (Runs (up : State)) ∧ (tasksDone (up : State) = true) := by
  refine ⟨?_, ?_⟩ <;> first | decide | rfl | (apply ok_of; decide +kernel)

theorem test_met_bellStart_2 :
    (Runs ({ up with sessions := [(5, sbd b1)] } : State)) ∧ (tasksDone ({ up with sessions := [(5, sbd b1)] } : State) = false) := by
  refine ⟨?_, ?_⟩ <;> first | decide | rfl | (apply ok_of; decide +kernel)

theorem test_met_fenceCut :
    (Runs (up : State)) ∧ ((up : State).bell.window = .dispatch) ∧ ((up : State).bell.cut = false) := by
  refine ⟨?_, ?_, ?_⟩ <;> first | decide | rfl | (apply ok_of; decide +kernel)

theorem test_met_guardOpen :
    (Runs (up : State)) ∧ ((up : State).bell.window ≠ .guard) := by
  refine ⟨?_, ?_⟩ <;> first | decide | rfl | (apply ok_of; decide +kernel)

theorem test_met_bellInEdge :
    (Runs ({ up with bell := { up.bell with srcAct := 1 } } : State)) ∧ (({ up with bell := { up.bell with srcAct := 1 } } : State).bell.srcAct = 1) ∧
    (((5000 : Int) - ({ up with bell := { up.bell with srcAct := 1 } } : State).bell.slew).natAbs ≤ 5000) := by
  refine ⟨?_, ?_, ?_⟩ <;> first | decide | rfl | (apply ok_of; decide +kernel)

theorem test_met_bellInEdge_2 :
    (Runs ({ up with bell := { up.bell with srcAct := 1 } } : State)) ∧ (({ up with bell := { up.bell with srcAct := 1 } } : State).bell.srcAct = 1) ∧
    (5000 < ((5001 : Int) - ({ up with bell := { up.bell with srcAct := 1 } } : State).bell.slew).natAbs) ∧
    (({ up with bell := { up.bell with srcAct := 1 } } : State).bell.rejRun.length < 7) := by
  refine ⟨?_, ?_, ?_, ?_⟩ <;> first | decide | rfl | (apply ok_of; decide +kernel)

theorem test_met_bellInEdge_3 :
    (Runs ({ up with bell := { up.bell with srcAct := 1, rejRun := [5001, 5001, 5001, 5001, 5001, 5001, 5001] } } : State)) ∧
    (({ up with bell := { up.bell with srcAct := 1, rejRun := [5001, 5001, 5001, 5001, 5001, 5001, 5001] } } : State).bell.srcAct = 1) ∧
    (5000 < ((5001 : Int) - ({ up with bell := { up.bell with srcAct := 1, rejRun := [5001, 5001, 5001, 5001, 5001, 5001, 5001] } } : State).bell.slew).natAbs) ∧
    (({ up with bell := { up.bell with srcAct := 1, rejRun := [5001, 5001, 5001, 5001, 5001, 5001, 5001] } } : State).bell.rejRun.length = 7) ∧
    (∀ a ∈ ({ up with bell := { up.bell with srcAct := 1, rejRun := [5001, 5001, 5001, 5001, 5001, 5001, 5001] } } : State).bell.rejRun, a = (5001 : Int)) := by
  refine ⟨?_, ?_, ?_, ?_, ?_⟩ <;> first | decide | rfl | (apply ok_of; decide +kernel)

theorem test_met_bellEdgeMissing :
    (Runs ({ up with bell := { up.bell with srcAct := 1, missRun := 62 } } : State)) ∧
    (({ up with bell := { up.bell with srcAct := 1, missRun := 62 } } : State).bell.srcAct ≠ 0) ∧
    (({ up with bell := { up.bell with srcAct := 1, missRun := 62 } } : State).bell.missRun < 63) := by
  refine ⟨?_, ?_, ?_⟩ <;> first | decide | rfl | (apply ok_of; decide +kernel)

theorem test_met_bellEdgeMissing_2 :
    (Runs ({ up with bell := { up.bell with srcAct := 2, missRun := 63 } } : State)) ∧
    (({ up with bell := { up.bell with srcAct := 2, missRun := 63 } } : State).bell.srcAct ≠ 0) ∧
    (({ up with bell := { up.bell with srcAct := 2, missRun := 63 } } : State).bell.missRun = 63) := by
  refine ⟨?_, ?_, ?_⟩ <;> first | decide | rfl | (apply ok_of; decide +kernel)

theorem test_met_schedBellCfgWrite :
    (Serves (up : State)) ∧ ((0x1D : Word) &&& 0xFFFFFFE0 = 0) ∧ (fld (0x1D : Word) 2 1 ≠ 3) := by
  refine ⟨?_, ?_, ?_⟩ <;> first | decide | rfl | (apply ok_of; decide +kernel)

theorem test_met_schedBellCfgWrite_2 :
    (Serves (up : State)) ∧ ((0x1F : Word) &&& 0xFFFFFFE0 = 0) ∧ (fld (0x1F : Word) 2 1 = 3) := by
  refine ⟨?_, ?_, ?_⟩ <;> first | decide | rfl | (apply ok_of; decide +kernel)

theorem test_met_retrainPause :
    (Runs ({ up with bell := { up.bell with window := .guard }, memc := { up.memc with en := true, dpc := 1, ranks := 2, chans := [(0, { Chan.reset with state := 3, vref := [(0, 3)] })] } } : State)) ∧
    (({ up with bell := { up.bell with window := .guard }, memc := { up.memc with en := true, dpc := 1, ranks := 2, chans := [(0, { Chan.reset with state := 3, vref := [(0, 3)] })] } } : State).bell.window = .guard) ∧
    ((0 : Nat) < 12) ∧
    (({ up with bell := { up.bell with window := .guard }, memc := { up.memc with en := true, dpc := 1, ranks := 2, chans := [(0, { Chan.reset with state := 3, vref := [(0, 3)] })] } } : State).bell.num.toNat % 256 = 16 * (0 : Nat) % 256) ∧
    (chanUp ({ up with bell := { up.bell with window := .guard }, memc := { up.memc with en := true, dpc := 1, ranks := 2, chans := [(0, { Chan.reset with state := 3, vref := [(0, 3)] })] } } : State) (0 : Nat) = true) ∧
    (({ up with bell := { up.bell with window := .guard }, memc := { up.memc with en := true, dpc := 1, ranks := 2, chans := [(0, { Chan.reset with state := 3, vref := [(0, 3)] })] } } : State).pwr.state < 3) ∧
    ((chanOf ({ up with bell := { up.bell with window := .guard }, memc := { up.memc with en := true, dpc := 1, ranks := 2, chans := [(0, { Chan.reset with state := 3, vref := [(0, 3)] })] } } : State) (0 : Nat)).paused = false) ∧
    ((32 : Int).natAbs ≤ 32) ∧
    ((lookD (chanOf ({ up with bell := { up.bell with window := .guard }, memc := { up.memc with en := true, dpc := 1, ranks := 2, chans := [(0, { Chan.reset with state := 3, vref := [(0, 3)] })] } } : State) (0 : Nat)).vref (chanOf ({ up with bell := { up.bell with window := .guard }, memc := { up.memc with en := true, dpc := 1, ranks := 2, chans := [(0, { Chan.reset with state := 3, vref := [(0, 3)] })] } } : State) (0 : Nat)).pauseRank 0 + max (-1) (min 1 (4 : Int))).natAbs ≤ 4) := by
  refine ⟨?_, ?_, ?_, ?_, ?_, ?_, ?_, ?_, ?_⟩ <;> first | decide | rfl | (apply ok_of; decide +kernel)

theorem test_met_retrainPause_2 :
    (Runs ({ up with memc := { up.memc with chans := [(0, { Chan.reset with paused := true })] } } : State)) ∧
    ((chanOf ({ up with memc := { up.memc with chans := [(0, { Chan.reset with paused := true })] } } : State) (0 : Nat)).paused = true) := by
  refine ⟨?_, ?_⟩ <;> first | decide | rfl | (apply ok_of; decide +kernel)

theorem test_met_pagingBurst :
    (Runs ({ up with bell := { up.bell with window := .guard } } : State)) ∧
    (({ up with bell := { up.bell with window := .guard } } : State).bell.window = .guard) ∧
    (({ up with bell := { up.bell with window := .guard } } : State).sess.burst = false) ∧ (∀ q, q < 16 →
    (qtrOf ({ up with bell := { up.bell with window := .guard } } : State) q).state ≠ 3) ∧
    (∀ e ∈ ({ up with bell := { up.bell with window := .guard } } : State).sessions, e.2.cause = none ∨ e.2.resident = true) := by
  refine ⟨?_, ?_, ?_, ?_, ?_⟩ <;> first | decide | rfl | (apply ok_of; decide +kernel)

theorem test_met_pagingBurst_2 :
    (Runs ({ up with bell := { up.bell with window := .guard }, sessions := [(5, { se with cause := some ({ bell := 1, seq := 0 }, 0) })] } : State)) ∧
    (({ up with bell := { up.bell with window := .guard }, sessions := [(5, { se with cause := some ({ bell := 1, seq := 0 }, 0) })] } : State).bell.window = .guard) ∧
    (({ up with bell := { up.bell with window := .guard }, sessions := [(5, { se with cause := some ({ bell := 1, seq := 0 }, 0) })] } : State).sess.burst = false) ∧
    (∀ q, q < 16 →
    (qtrOf ({ up with bell := { up.bell with window := .guard }, sessions := [(5, { se with cause := some ({ bell := 1, seq := 0 }, 0) })] } : State) q).state ≠ 3) ∧
    (pageIns ({ up with bell := { up.bell with window := .guard }, sessions := [(5, { se with cause := some ({ bell := 1, seq := 0 }, 0) })] } : State) = [(({ bell := 1, seq := 0 } : Mark), (0 : Nat), (5 : Nat))]) ∧
    (look ({ up with bell := { up.bell with window := .guard }, sessions := [(5, { se with cause := some ({ bell := 1, seq := 0 }, 0) })] } : State).sessions (5 : Nat) = some ({ se with cause := some ({ bell := 1, seq := 0 }, 0) } : Session)) ∧
    (({ se with cause := some ({ bell := 1, seq := 0 }, 0) } : Session).resident = false) ∧
    (({ se with cause := some ({ bell := 1, seq := 0 }, 0) } : Session).pend = none) ∧
    ((({ up with bell := { up.bell with window := .guard }, sessions := [(5, { se with cause := some ({ bell := 1, seq := 0 }, 0) })] } : State).sessions.filter (fun e => e.2.resident)).length < 4096) := by
  refine ⟨?_, ?_, ?_, ?_, ?_, ?_, ?_, ?_, ?_⟩ <;> first | decide | rfl | (apply ok_of; decide +kernel)

theorem test_met_pagingBurst_3 :
    (Runs ({ up with sess := { up.sess with burst := true } } : State)) ∧ (({ up with sess := { up.sess with burst := true } } : State).sess.burst = true) := by
  refine ⟨?_, ?_⟩ <;> first | decide | rfl | (apply ok_of; decide +kernel)

theorem test_met_heartbeatSend :
    (Runs ({ up with bell := { up.bell with window := .guard }, tandem := { up.tandem with state := 3 } } : State)) ∧
    (({ up with bell := { up.bell with window := .guard }, tandem := { up.tandem with state := 3 } } : State).tandem.state = 3) ∧
    (({ up with bell := { up.bell with window := .guard }, tandem := { up.tandem with state := 3 } } : State).tandem.dead = false) ∧
    (({ up with bell := { up.bell with window := .guard }, tandem := { up.tandem with state := 3 } } : State).bell.window = .guard) ∧
    (({ up with bell := { up.bell with window := .guard }, tandem := { up.tandem with state := 3 } } : State).tandem.hbSent = false) ∧
    (bit ({ up with bell := { up.bell with window := .guard }, tandem := { up.tandem with state := 3 } } : State).tandem.hbCfg 0 = false) := by
  refine ⟨?_, ?_, ?_, ?_, ?_, ?_⟩ <;> first | decide | rfl | (apply ok_of; decide +kernel)

theorem test_met_heartbeatSend_2 :
    (Runs ({ up with tandem := { up.tandem with hbSent := true } } : State)) ∧
    (({ up with tandem := { up.tandem with hbSent := true } } : State).tandem.hbSent = true) := by
  refine ⟨?_, ?_⟩ <;> first | decide | rfl | (apply ok_of; decide +kernel)

theorem test_met_sextantApply :
    (Runs ({ up with bell := { up.bell with window := .guard } } : State)) ∧
    (({ up with bell := { up.bell with window := .guard } } : State).bell.window = .guard) := by
  refine ⟨?_, ?_⟩ <;> first | decide | rfl | (apply ok_of; decide +kernel)

/-! Hypotheses of BoulevardRequests are met. -/

theorem test_met_boulevardRequest :
    (Runs (ram : State)) ∧
    (({ req := 0, mark := 0, op := .dramRead 64 .clean false false false } : BlvdReq).op = .dramRead (64 : Nat) .clean false (false : Bool) (false : Bool)) ∧
    ((64 : Nat) < capacity (ram : State)) ∧ (chanUp (ram : State) (locOf (ram : State) (64 : Nat)).ch = true) := by
  refine ⟨?_, ?_, ?_, ?_⟩ <;> first | decide | rfl | (apply ok_of; decide +kernel)

theorem test_met_boulevardRequest_2 :
    (Runs (ram : State)) ∧
    (({ req := 0, mark := 0, op := .dramWrite 4 [7, 8] .clean false false false } : BlvdReq).op = .dramWrite (4 : Nat) ([7, 8] : List Byte) (.clean : Ecc) (false : Bool) (false : Bool) (false : Bool)) ∧
    ((4 : Nat) < capacity (ram : State)) ∧ (chanUp (ram : State) (locOf (ram : State) (4 : Nat)).ch = true) ∧
    ((4 : Nat) % 64 + ([7, 8] : List Byte).length ≤ 64) := by
  refine ⟨?_, ?_, ?_, ?_, ?_⟩ <;> first | decide | rfl | (apply ok_of; decide +kernel)

theorem test_met_boulevardRequest_3 :
    (Runs ({ up with quarters := [(2, { Quarter.reset with state := 3 })], sessions := [(5, { se with quarter := 2 })] } : State)) ∧
    (({ req := 0, mark := 0, op := .session 2 5 true false } : BlvdReq).op = .session (2 : Nat) (5 : Nat) (true : Bool) (false : Bool)) ∧
    (look ({ up with quarters := [(2, { Quarter.reset with state := 3 })], sessions := [(5, { se with quarter := 2 })] } : State).sessions (5 : Nat) = some ({ se with quarter := 2 } : Session)) ∧
    (3 ≤ (qtrOf ({ up with quarters := [(2, { Quarter.reset with state := 3 })], sessions := [(5, { se with quarter := 2 })] } : State) (2 : Nat)).state) ∧
    ((qtrOf ({ up with quarters := [(2, { Quarter.reset with state := 3 })], sessions := [(5, { se with quarter := 2 })] } : State) (2 : Nat)).state ≤ 6) ∧
    ((true : Bool) = true ∨ planQuarter ({ se with quarter := 2 } : Session) ≠ (2 : Nat)) := by
  refine ⟨?_, ?_, ?_, ?_, ?_, ?_⟩ <;> first | decide | rfl | (apply ok_of; decide +kernel)

theorem test_met_boulevardRequest_4 :
    (Runs ({ up with quarters := [(2, { Quarter.reset with state := 1 })], sessions := [(5, { se with quarter := 2, applied := [(9, 3)] })] } : State)) ∧
    (({ req := 9, mark := 4, op := .session 2 5 true true } : BlvdReq).op = .session (2 : Nat) (5 : Nat) (true : Bool) true) ∧
    (look ({ up with quarters := [(2, { Quarter.reset with state := 1 })], sessions := [(5, { se with quarter := 2, applied := [(9, 3)] })] } : State).sessions (5 : Nat) = some ({ se with quarter := 2, applied := [(9, 3)] } : Session)) ∧
    ((qtrOf ({ up with quarters := [(2, { Quarter.reset with state := 1 })], sessions := [(5, { se with quarter := 2, applied := [(9, 3)] })] } : State) (2 : Nat)).state = 1) ∧
    ((({ req := 9, mark := 4, op := .session 2 5 true true } : BlvdReq).req, ({ req := 9, mark := 4, op := .session 2 5 true true } : BlvdReq).mark) ∉ ({ se with quarter := 2, applied := [(9, 3)] } : Session).applied) := by
  refine ⟨?_, ?_, ?_, ?_, ?_⟩ <;> first | decide | rfl | (apply ok_of; decide +kernel)

theorem test_met_requestRetryTimeout :
    (Runs ({ up with quarters := [(2, { Quarter.reset with state := 1 })], sessions := [(5, { se with quarter := 2, applied := [(9, 3)] })] } : State)) ∧
    (({ req := 9, mark := 3, op := .session 2 5 true true } : BlvdReq).op = .session (2 : Nat) (5 : Nat) (true : Bool) (true : Bool)) ∧
    (look ({ up with quarters := [(2, { Quarter.reset with state := 1 })], sessions := [(5, { se with quarter := 2, applied := [(9, 3)] })] } : State).sessions (5 : Nat) = some ({ se with quarter := 2, applied := [(9, 3)] } : Session)) ∧
    ((qtrOf ({ up with quarters := [(2, { Quarter.reset with state := 1 })], sessions := [(5, { se with quarter := 2, applied := [(9, 3)] })] } : State) (2 : Nat)).state = 1) ∧
    ((({ req := 9, mark := 3, op := .session 2 5 true true } : BlvdReq).req, ({ req := 9, mark := 3, op := .session 2 5 true true } : BlvdReq).mark) ∈ ({ se with quarter := 2, applied := [(9, 3)] } : Session).applied) := by
  refine ⟨?_, ?_, ?_, ?_, ?_⟩ <;> first | decide | rfl | (apply ok_of; decide +kernel)

theorem test_met_requestRetryTimeout_2 :
    (Runs (ram : State)) ∧
    (({ req := 0, mark := 0, op := .dramWrite 4 [7, 8] .clean false false false } : BlvdReq).op = .dramWrite (4 : Nat) ([7, 8] : List Byte) (.clean : Ecc) (false : Bool) (false : Bool) (false : Bool)) ∧
    ((4 : Nat) < capacity (ram : State)) ∧ (chanUp (ram : State) (locOf (ram : State) (4 : Nat)).ch = true) ∧
    ((4 : Nat) % 64 + ([7, 8] : List Byte).length ≤ 64) := by
  refine ⟨?_, ?_, ?_, ?_, ?_⟩ <;> first | decide | rfl | (apply ok_of; decide +kernel)

theorem test_met_detourReissue :
    (Runs ({ up with quarters := [(2, { Quarter.reset with state := 1 })], sessions := [(5, { se with quarter := 2, applied := [(9, 3)] })] } : State)) ∧
    (({ req := 9, mark := 4, op := .session 7 5 true true } : BlvdReq).op = .session (7 : Nat) (5 : Nat) (true : Bool) true) ∧
    (look ({ up with quarters := [(2, { Quarter.reset with state := 1 })], sessions := [(5, { se with quarter := 2, applied := [(9, 3)] })] } : State).sessions (5 : Nat) = some ({ se with quarter := 2, applied := [(9, 3)] } : Session)) ∧
    ((qtrOf ({ up with quarters := [(2, { Quarter.reset with state := 1 })], sessions := [(5, { se with quarter := 2, applied := [(9, 3)] })] } : State) (planQuarter ({ se with quarter := 2, applied := [(9, 3)] } : Session))).state = 1) ∧
    ((({ req := 9, mark := 4, op := .session 7 5 true true } : BlvdReq).req, ({ req := 9, mark := 4, op := .session 7 5 true true } : BlvdReq).mark) ∉ ({ se with quarter := 2, applied := [(9, 3)] } : Session).applied) := by
  refine ⟨?_, ?_, ?_, ?_, ?_⟩ <;> first | decide | rfl | (apply ok_of; decide +kernel)

theorem test_met_detourReissue_2 :
    (Runs ({ up with quarters := [(2, { Quarter.reset with state := 1 })], sessions := [(5, { se with quarter := 2, applied := [(9, 3)] })] } : State)) ∧
    (({ req := 9, mark := 3, op := .session 7 5 true true } : BlvdReq).op = .session (7 : Nat) (5 : Nat) (true : Bool) (true : Bool)) ∧
    (look ({ up with quarters := [(2, { Quarter.reset with state := 1 })], sessions := [(5, { se with quarter := 2, applied := [(9, 3)] })] } : State).sessions (5 : Nat) = some ({ se with quarter := 2, applied := [(9, 3)] } : Session)) ∧
    ((qtrOf ({ up with quarters := [(2, { Quarter.reset with state := 1 })], sessions := [(5, { se with quarter := 2, applied := [(9, 3)] })] } : State) (planQuarter ({ se with quarter := 2, applied := [(9, 3)] } : Session))).state = 1) ∧
    ((({ req := 9, mark := 3, op := .session 7 5 true true } : BlvdReq).req, ({ req := 9, mark := 3, op := .session 7 5 true true } : BlvdReq).mark) ∈ ({ se with quarter := 2, applied := [(9, 3)] } : Session).applied) := by
  refine ⟨?_, ?_, ?_, ?_, ?_⟩ <;> first | decide | rfl | (apply ok_of; decide +kernel)

theorem test_met_drainedReplySink : Runs { up with quarters := [(2, { Quarter.reset with mark := some { bell := 1, seq := 0 } })] } ∧
    (qtrOf { up with quarters := [(2, { Quarter.reset with mark := some { bell := 1, seq := 0 } })] } 2).mark = some { bell := 1, seq := 0 } ∧
    ((0 : DWord).toNat < (Mark.image { bell := 1, seq := 0 }).toNat) := ⟨by decide, by decide, by
  have h : (2 : Nat) ^ 24 ≤ (Mark.image { bell := 1, seq := 0 }).toNat := by
    simp only [Mark.image, BitVec.toNat_append]; exact Nat.left_le_or
  exact Nat.lt_of_lt_of_le (by decide) h⟩

/-! Hypotheses of QuarterControl are met. -/

theorem test_met_qtrEnable :
    (Serves ({ up with quarters := [(2, { Quarter.reset with state := 0 })], plan := { up.plan with districts := [(2, { mcSet := 3, weight := 1, ctxSlots := 0, roles := [0] })] } } : State)) ∧
    ((2 : Nat) < 16) ∧
    ((qtrOf ({ up with quarters := [(2, { Quarter.reset with state := 0 })], plan := { up.plan with districts := [(2, { mcSet := 3, weight := 1, ctxSlots := 0, roles := [0] })] } } : State) (2 : Nat)).en = false) ∧
    ((qtrOf ({ up with quarters := [(2, { Quarter.reset with state := 0 })], plan := { up.plan with districts := [(2, { mcSet := 3, weight := 1, ctxSlots := 0, roles := [0] })] } } : State) (2 : Nat)).state = 0) ∧
    (allOff (districtOf ({ up with quarters := [(2, { Quarter.reset with state := 0 })], plan := { up.plan with districts := [(2, { mcSet := 3, weight := 1, ctxSlots := 0, roles := [0] })] } } : State) (2 : Nat)) = false) := by
  refine ⟨?_, ?_, ?_, ?_, ?_⟩ <;> first | decide | rfl | (apply ok_of; decide +kernel)

theorem test_met_qtrEnable_2 :
    (Serves (up : State)) ∧ ((2 : Nat) < 16) ∧ ((qtrOf (up : State) (2 : Nat)).en = false) ∧
    ((qtrOf (up : State) (2 : Nat)).state ≠ 0 ∨ allOff (districtOf (up : State) (2 : Nat)) = true) := by
  refine ⟨?_, ?_, ?_, ?_⟩ <;> first | decide | rfl | (apply ok_of; decide +kernel)

theorem test_met_qtrDisable :
    (Serves ({ up with quarters := [(2, { Quarter.reset with state := 2, en := true })] } : State)) ∧ ((2 : Nat) < 16) ∧
    ((qtrOf ({ up with quarters := [(2, { Quarter.reset with state := 2, en := true })] } : State) (2 : Nat)).en = true) ∧
    ((qtrOf ({ up with quarters := [(2, { Quarter.reset with state := 2, en := true })] } : State) (2 : Nat)).state = 2) := by
  refine ⟨?_, ?_, ?_, ?_⟩ <;> first | decide | rfl | (apply ok_of; decide +kernel)

theorem test_met_qtrDisable_2 :
    (Serves ({ up with quarters := [(2, { Quarter.reset with state := 1, en := true })] } : State)) ∧ ((2 : Nat) < 16) ∧
    ((qtrOf ({ up with quarters := [(2, { Quarter.reset with state := 1, en := true })] } : State) (2 : Nat)).en = true) ∧
    ((qtrOf ({ up with quarters := [(2, { Quarter.reset with state := 1, en := true })] } : State) (2 : Nat)).state = 1) ∧
    ((qtrOf ({ up with quarters := [(2, { Quarter.reset with state := 1, en := true })] } : State) (2 : Nat)).pend = false) ∧
    (otherBusy ({ up with quarters := [(2, { Quarter.reset with state := 1, en := true })] } : State) (2 : Nat) = false) := by
  refine ⟨?_, ?_, ?_, ?_, ?_, ?_⟩ <;> first | decide | rfl | (apply ok_of; decide +kernel)

theorem test_met_qtrRezoneGo :
    (Serves ({ up with quarters := [(2, { Quarter.reset with state := 7 })], plan := { up.plan with image := some { parseImage [] with partPlan := true, districts := [(2, { mcSet := 3, weight := 1, ctxSlots := 0, roles := [] })] } } } : State)) ∧
    ((2 : Nat) < 16) ∧
    (rezoneCode (wake ({ up with quarters := [(2, { Quarter.reset with state := 7 })], plan := { up.plan with image := some { parseImage [] with partPlan := true, districts := [(2, { mcSet := 3, weight := 1, ctxSlots := 0, roles := [] })] } } } : State)) (2 : Nat) false = none) ∧
    ((qtrOf ({ up with quarters := [(2, { Quarter.reset with state := 7 })], plan := { up.plan with image := some { parseImage [] with partPlan := true, districts := [(2, { mcSet := 3, weight := 1, ctxSlots := 0, roles := [] })] } } } : State) (2 : Nat)).state ≠ 1) := by
  refine ⟨?_, ?_, ?_, ?_⟩ <;> first | decide | rfl | (apply ok_of; decide +kernel)

theorem test_met_qtrRezoneGo_2 :
    (Serves ({ up with quarters := [(2, { Quarter.reset with state := 1 })], plan := { up.plan with image := some { parseImage [] with partPlan := true, districts := [(2, { mcSet := 3, weight := 1, ctxSlots := 0, roles := [] })] } } } : State)) ∧
    ((2 : Nat) < 16) ∧
    (rezoneCode (wake ({ up with quarters := [(2, { Quarter.reset with state := 1 })], plan := { up.plan with image := some { parseImage [] with partPlan := true, districts := [(2, { mcSet := 3, weight := 1, ctxSlots := 0, roles := [] })] } } } : State)) (2 : Nat) false = none) ∧
    ((qtrOf ({ up with quarters := [(2, { Quarter.reset with state := 1 })], plan := { up.plan with image := some { parseImage [] with partPlan := true, districts := [(2, { mcSet := 3, weight := 1, ctxSlots := 0, roles := [] })] } } } : State) (2 : Nat)).state = 1) := by
  refine ⟨?_, ?_, ?_, ?_⟩ <;> first | decide | rfl | (apply ok_of; decide +kernel)

theorem test_met_qtrRezoneGo_3 :
    (Serves ({ up with quarters := [(2, { Quarter.reset with state := 3 })] } : State)) ∧ ((2 : Nat) < 16) ∧
    (3 ≤ (qtrOf ({ up with quarters := [(2, { Quarter.reset with state := 3 })] } : State) (2 : Nat)).state) ∧
    ((qtrOf ({ up with quarters := [(2, { Quarter.reset with state := 3 })] } : State) (2 : Nat)).state ≤ 6) := by
  refine ⟨?_, ?_, ?_, ?_⟩ <;> first | decide | rfl | (apply ok_of; decide +kernel)

theorem test_met_qtrRezoneGo_4 :
    (Serves ({ up with quarters := [(2, { Quarter.reset with state := 2 }), (4, { Quarter.reset with state := 6 })] } : State)) ∧ ((2 : Nat) < 16) ∧
    ((qtrOf ({ up with quarters := [(2, { Quarter.reset with state := 2 }), (4, { Quarter.reset with state := 6 })] } : State) (2 : Nat)).state = 2 ∨ (qtrOf ({ up with quarters := [(2, { Quarter.reset with state := 2 }), (4, { Quarter.reset with state := 6 })] } : State) (2 : Nat)).state = 7) ∧
    (otherBusy ({ up with quarters := [(2, { Quarter.reset with state := 2 }), (4, { Quarter.reset with state := 6 })] } : State) (2 : Nat) = true) := by
  refine ⟨?_, ?_, ?_, ?_⟩ <;> first | decide | rfl | (apply ok_of; decide +kernel)

theorem test_met_qtrRezoneGo_5 :
    (Serves ({ up with quarters := [(2, { Quarter.reset with state := 2 })] } : State)) ∧ ((2 : Nat) < 16) ∧
    ((qtrOf ({ up with quarters := [(2, { Quarter.reset with state := 2 })] } : State) (2 : Nat)).state = 2 ∨ (qtrOf ({ up with quarters := [(2, { Quarter.reset with state := 2 })] } : State) (2 : Nat)).state = 7) ∧
    (otherBusy ({ up with quarters := [(2, { Quarter.reset with state := 2 })] } : State) (2 : Nat) = false) ∧
    (({ up with quarters := [(2, { Quarter.reset with state := 2 })] } : State).plan.image = none) := by
  refine ⟨?_, ?_, ?_, ?_, ?_⟩ <;> first | decide | rfl | (apply ok_of; decide +kernel)

theorem test_met_qtrRezoneRetire :
    (Serves ({ up with quarters := [(2, { Quarter.reset with state := 2 })] } : State)) ∧ ((2 : Nat) < 16) ∧
    ((qtrOf ({ up with quarters := [(2, { Quarter.reset with state := 2 })] } : State) (2 : Nat)).state = 2 ∨ (qtrOf ({ up with quarters := [(2, { Quarter.reset with state := 2 })] } : State) (2 : Nat)).state = 5 ∨ (qtrOf ({ up with quarters := [(2, { Quarter.reset with state := 2 })] } : State) (2 : Nat)).state = 6) := by
  refine ⟨?_, ?_, ?_⟩ <;> first | decide | rfl | (apply ok_of; decide +kernel)

theorem test_met_qtrRezoneRetire_2 :
    (Serves ({ up with quarters := [(2, { Quarter.reset with state := 3 })] } : State)) ∧ ((2 : Nat) < 16) ∧
    ((qtrOf ({ up with quarters := [(2, { Quarter.reset with state := 3 })] } : State) (2 : Nat)).state = 1 ∨ (qtrOf ({ up with quarters := [(2, { Quarter.reset with state := 3 })] } : State) (2 : Nat)).state = 3) := by
  refine ⟨?_, ?_, ?_⟩ <;> first | decide | rfl | (apply ok_of; decide +kernel)

theorem test_met_rezoneGo :
    (Hears ({ up with quarters := [(2, { Quarter.reset with state := 7 })], plan := { up.plan with image := some { parseImage [] with partPlan := true, districts := [(2, { mcSet := 3, weight := 1, ctxSlots := 0, roles := [] })] } } } : State) ({ fn := 0, ring := 0, cid := 7, token := 0 } : Hdr)) ∧
    (({ fn := 0, ring := 0, cid := 7, token := 0 } : Hdr).fn = 0) ∧ (({ fn := 0, ring := 0, cid := 7, token := 0 } : Hdr).token = 0) ∧
    ((2 : Nat) < 16) ∧
    (rezoneCode ({ up with quarters := [(2, { Quarter.reset with state := 7 })], plan := { up.plan with image := some { parseImage [] with partPlan := true, districts := [(2, { mcSet := 3, weight := 1, ctxSlots := 0, roles := [] })] } } } : State) (2 : Nat) false = none) ∧
    ((qtrOf ({ up with quarters := [(2, { Quarter.reset with state := 7 })], plan := { up.plan with image := some { parseImage [] with partPlan := true, districts := [(2, { mcSet := 3, weight := 1, ctxSlots := 0, roles := [] })] } } } : State) (2 : Nat)).state ≠ 1) := by
  refine ⟨?_, ?_, ?_, ?_, ?_, ?_⟩ <;> first | decide | rfl | (apply ok_of; decide +kernel)

theorem test_met_rezoneGo_2 :
    (Hears ({ up with quarters := [(2, { Quarter.reset with state := 1 })], plan := { up.plan with image := some { parseImage [] with partPlan := true, districts := [(2, { mcSet := 3, weight := 1, ctxSlots := 0, roles := [] })] } } } : State) ({ fn := 0, ring := 0, cid := 7, token := 0 } : Hdr)) ∧
    (({ fn := 0, ring := 0, cid := 7, token := 0 } : Hdr).fn = 0) ∧ (({ fn := 0, ring := 0, cid := 7, token := 0 } : Hdr).token = 0) ∧
    ((2 : Nat) < 16) ∧
    (rezoneCode ({ up with quarters := [(2, { Quarter.reset with state := 1 })], plan := { up.plan with image := some { parseImage [] with partPlan := true, districts := [(2, { mcSet := 3, weight := 1, ctxSlots := 0, roles := [] })] } } } : State) (2 : Nat) false = none) ∧
    ((qtrOf ({ up with quarters := [(2, { Quarter.reset with state := 1 })], plan := { up.plan with image := some { parseImage [] with partPlan := true, districts := [(2, { mcSet := 3, weight := 1, ctxSlots := 0, roles := [] })] } } } : State) (2 : Nat)).state = 1) := by
  refine ⟨?_, ?_, ?_, ?_, ?_, ?_⟩ <;> first | decide | rfl | (apply ok_of; decide +kernel)

theorem test_met_rezoneGo_3 :
    (Hears ({ up with quarters := [(2, { Quarter.reset with state := 3 })] } : State) ({ fn := 0, ring := 0, cid := 7, token := 0 } : Hdr)) ∧
    (({ fn := 0, ring := 0, cid := 7, token := 0 } : Hdr).fn = 0) ∧ (({ fn := 0, ring := 0, cid := 7, token := 0 } : Hdr).token = 0) ∧
    ((2 : Nat) < 16) ∧ (3 ≤ (qtrOf ({ up with quarters := [(2, { Quarter.reset with state := 3 })] } : State) (2 : Nat)).state) ∧
    ((qtrOf ({ up with quarters := [(2, { Quarter.reset with state := 3 })] } : State) (2 : Nat)).state ≤ 6) := by
  refine ⟨?_, ?_, ?_, ?_, ?_, ?_⟩ <;> first | decide | rfl | (apply ok_of; decide +kernel)

theorem test_met_rezoneRetire :
    (Hears ({ up with quarters := [(2, { Quarter.reset with state := 2 })] } : State) ({ fn := 0, ring := 0, cid := 7, token := 0 } : Hdr)) ∧
    (({ fn := 0, ring := 0, cid := 7, token := 0 } : Hdr).fn = 0) ∧ (({ fn := 0, ring := 0, cid := 7, token := 0 } : Hdr).token = 0) ∧
    ((2 : Nat) < 16) ∧
    ((qtrOf ({ up with quarters := [(2, { Quarter.reset with state := 2 })] } : State) (2 : Nat)).state = 2 ∨ (qtrOf ({ up with quarters := [(2, { Quarter.reset with state := 2 })] } : State) (2 : Nat)).state = 5 ∨ (qtrOf ({ up with quarters := [(2, { Quarter.reset with state := 2 })] } : State) (2 : Nat)).state = 6) := by
  refine ⟨?_, ?_, ?_, ?_, ?_⟩ <;> first | decide | rfl | (apply ok_of; decide +kernel)

theorem test_met_rezoneRetire_2 :
    (Hears ({ up with quarters := [(2, { Quarter.reset with state := 3 })] } : State) ({ fn := 0, ring := 0, cid := 7, token := 0 } : Hdr)) ∧
    (({ fn := 0, ring := 0, cid := 7, token := 0 } : Hdr).fn = 0) ∧ (({ fn := 0, ring := 0, cid := 7, token := 0 } : Hdr).token = 0) ∧
    ((2 : Nat) < 16) ∧
    ((qtrOf ({ up with quarters := [(2, { Quarter.reset with state := 3 })] } : State) (2 : Nat)).state = 1 ∨ (qtrOf ({ up with quarters := [(2, { Quarter.reset with state := 3 })] } : State) (2 : Nat)).state = 3) := by
  refine ⟨?_, ?_, ?_, ?_, ?_⟩ <;> first | decide | rfl | (apply ok_of; decide +kernel)

theorem test_met_rezoneRetire_3 :
    (Hears ({ up with quarters := [(2, { Quarter.reset with state := 7 })] } : State) ({ fn := 0, ring := 0, cid := 7, token := 0 } : Hdr)) ∧
    (({ fn := 0, ring := 0, cid := 7, token := 0 } : Hdr).fn = 0) ∧ (({ fn := 0, ring := 0, cid := 7, token := 0 } : Hdr).token = 0) ∧
    ((2 : Nat) < 16) ∧
    ((qtrOf ({ up with quarters := [(2, { Quarter.reset with state := 7 })] } : State) (2 : Nat)).state = 0 ∨ (qtrOf ({ up with quarters := [(2, { Quarter.reset with state := 7 })] } : State) (2 : Nat)).state = 4 ∨ (qtrOf ({ up with quarters := [(2, { Quarter.reset with state := 7 })] } : State) (2 : Nat)).state = 7) := by
  refine ⟨?_, ?_, ?_, ?_, ?_⟩ <;> first | decide | rfl | (apply ok_of; decide +kernel)

/-! Hypotheses of QuarterLife are met. -/

theorem test_met_quarterClosingEdge :
    (Runs ({ up with quarters := [(2, { Quarter.reset with state := 1, pend := true, edge := true, drain := some 5 })], bell := { up.bell with window := .guard, num := 9 } } : State)) ∧
    ((qtrOf ({ up with quarters := [(2, { Quarter.reset with state := 1, pend := true, edge := true, drain := some 5 })], bell := { up.bell with window := .guard, num := 9 } } : State) (2 : Nat)).state = 1) ∧
    ((qtrOf ({ up with quarters := [(2, { Quarter.reset with state := 1, pend := true, edge := true, drain := some 5 })], bell := { up.bell with window := .guard, num := 9 } } : State) (2 : Nat)).pend = true) ∧
    ((qtrOf ({ up with quarters := [(2, { Quarter.reset with state := 1, pend := true, edge := true, drain := some 5 })], bell := { up.bell with window := .guard, num := 9 } } : State) (2 : Nat)).edge = true) ∧
    (({ up with quarters := [(2, { Quarter.reset with state := 1, pend := true, edge := true, drain := some 5 })], bell := { up.bell with window := .guard, num := 9 } } : State).bell.window = .guard) ∧
    (∀ k, k < 16 →
    (qtrOf ({ up with quarters := [(2, { Quarter.reset with state := 1, pend := true, edge := true, drain := some 5 })], bell := { up.bell with window := .guard, num := 9 } } : State) k).state ≠ 2) := by
  refine ⟨?_, ?_, ?_, ?_, ?_, ?_⟩ <;> first | decide | rfl | (apply ok_of; decide +kernel)

theorem test_met_quarterDrained :
    (Runs ({ up with quarters := [(2, { Quarter.reset with state := 3 })] } : State)) ∧
    ((qtrOf ({ up with quarters := [(2, { Quarter.reset with state := 3 })] } : State) (2 : Nat)).state = 3) ∧
    (({ up with quarters := [(2, { Quarter.reset with state := 3 })] } : State).sessions.all (fun e => decide (planQuarter e.2 ≠ (2 : Nat))) = true) ∧
    (taskOn ({ up with quarters := [(2, { Quarter.reset with state := 3 })] } : State) (2 : Nat) = false) := by
  refine ⟨?_, ?_, ?_, ?_⟩ <;> first | decide | rfl | (apply ok_of; decide +kernel)

theorem test_met_quarterEnterTarget :
    (Runs ({ up with quarters := [(2, { Quarter.reset with state := 4, drain := some 7, mark := some { bell := 8, seq := 3 } })], bell := { up.bell with window := .dispatch, num := 9 } } : State)) ∧
    ((qtrOf ({ up with quarters := [(2, { Quarter.reset with state := 4, drain := some 7, mark := some { bell := 8, seq := 3 } })], bell := { up.bell with window := .dispatch, num := 9 } } : State) (2 : Nat)).state = 4) ∧
    (atStart ({ up with quarters := [(2, { Quarter.reset with state := 4, drain := some 7, mark := some { bell := 8, seq := 3 } })], bell := { up.bell with window := .dispatch, num := 9 } } : State) = true) ∧
    ((qtrOf ({ up with quarters := [(2, { Quarter.reset with state := 4, drain := some 7, mark := some { bell := 8, seq := 3 } })], bell := { up.bell with window := .dispatch, num := 9 } } : State) (2 : Nat)).mark = some ({ bell := 8, seq := 3 } : Mark)) ∧
    (({ bell := 8, seq := 3 } : Mark).bell ≠ ({ up with quarters := [(2, { Quarter.reset with state := 4, drain := some 7, mark := some { bell := 8, seq := 3 } })], bell := { up.bell with window := .dispatch, num := 9 } } : State).bell.num) ∧
    ((qtrOf ({ up with quarters := [(2, { Quarter.reset with state := 4, drain := some 7, mark := some { bell := 8, seq := 3 } })], bell := { up.bell with window := .dispatch, num := 9 } } : State) (2 : Nat)).drain = some (7 : Nat)) ∧
    ((7 : Nat) ≠ 5) := by
  refine ⟨?_, ?_, ?_, ?_, ?_, ?_, ?_⟩ <;> first | decide | rfl | (apply ok_of; decide +kernel)

theorem test_met_quarterEnterTarget_2 :
    (Runs ({ up with quarters := [(2, { Quarter.reset with state := 4, drain := some 5, mark := some { bell := 8, seq := 3 } })], bell := { up.bell with window := .dispatch, num := 9 } } : State)) ∧
    ((qtrOf ({ up with quarters := [(2, { Quarter.reset with state := 4, drain := some 5, mark := some { bell := 8, seq := 3 } })], bell := { up.bell with window := .dispatch, num := 9 } } : State) (2 : Nat)).state = 4) ∧
    (atStart ({ up with quarters := [(2, { Quarter.reset with state := 4, drain := some 5, mark := some { bell := 8, seq := 3 } })], bell := { up.bell with window := .dispatch, num := 9 } } : State) = true) ∧
    ((qtrOf ({ up with quarters := [(2, { Quarter.reset with state := 4, drain := some 5, mark := some { bell := 8, seq := 3 } })], bell := { up.bell with window := .dispatch, num := 9 } } : State) (2 : Nat)).mark = some ({ bell := 8, seq := 3 } : Mark)) ∧
    (({ bell := 8, seq := 3 } : Mark).bell ≠ ({ up with quarters := [(2, { Quarter.reset with state := 4, drain := some 5, mark := some { bell := 8, seq := 3 } })], bell := { up.bell with window := .dispatch, num := 9 } } : State).bell.num) ∧
    ((qtrOf ({ up with quarters := [(2, { Quarter.reset with state := 4, drain := some 5, mark := some { bell := 8, seq := 3 } })], bell := { up.bell with window := .dispatch, num := 9 } } : State) (2 : Nat)).drain = some 5) := by
  refine ⟨?_, ?_, ?_, ?_, ?_, ?_⟩ <;> first | decide | rfl | (apply ok_of; decide +kernel)

theorem test_met_quarterLoadDone :
    (Runs ({ up with quarters := [(2, { Quarter.reset with state := 5 })], mclib := lib, plan := { up.plan with districts := [(2, { mcSet := 3, weight := 1, ctxSlots := 0, roles := List.replicate 32 6 })], mc := [{ set := 3, role := 15, imageId := 0, svn := 0, digest := 0 }] } } : State)) ∧
    ((qtrOf ({ up with quarters := [(2, { Quarter.reset with state := 5 })], mclib := lib, plan := { up.plan with districts := [(2, { mcSet := 3, weight := 1, ctxSlots := 0, roles := List.replicate 32 6 })], mc := [{ set := 3, role := 15, imageId := 0, svn := 0, digest := 0 }] } } : State) (2 : Nat)).state = 5) ∧
    (storesFound ({ up with quarters := [(2, { Quarter.reset with state := 5 })], mclib := lib, plan := { up.plan with districts := [(2, { mcSet := 3, weight := 1, ctxSlots := 0, roles := List.replicate 32 6 })], mc := [{ set := 3, role := 15, imageId := 0, svn := 0, digest := 0 }] } } : State) (2 : Nat) = true) := by
  refine ⟨?_, ?_, ?_⟩ <;> first | decide | rfl | (apply ok_of; decide +kernel)

theorem test_met_quarterLoadDone_2 :
    (Runs ({ up with quarters := [(2, { Quarter.reset with state := 5 })] } : State)) ∧
    ((qtrOf ({ up with quarters := [(2, { Quarter.reset with state := 5 })] } : State) (2 : Nat)).state = 5) ∧
    ((true : Bool) = false ∨ storesFound ({ up with quarters := [(2, { Quarter.reset with state := 5 })] } : State) (2 : Nat) = false) := by
  refine ⟨?_, ?_, ?_⟩ <;> first | decide | rfl | (apply ok_of; decide +kernel)

theorem test_met_quarterBistDone :
    (Runs ({ up with quarters := [(2, { Quarter.reset with state := 6 })], plan := { up.plan with cfg := { up.plan.cfg with spares := 1 } } } : State)) ∧
    ((qtrOf ({ up with quarters := [(2, { Quarter.reset with state := 6 })], plan := { up.plan with cfg := { up.plan.cfg with spares := 1 } } } : State) (2 : Nat)).state = 6) ∧
    (spareCount ({ up with quarters := [(2, { Quarter.reset with state := 6 })], plan := { up.plan with cfg := { up.plan.cfg with spares := 1 } } } : State) < ({ up with quarters := [(2, { Quarter.reset with state := 6 })], plan := { up.plan with cfg := { up.plan.cfg with spares := 1 } } } : State).plan.cfg.spares) := by
  refine ⟨?_, ?_, ?_⟩ <;> first | decide | rfl | (apply ok_of; decide +kernel)

theorem test_met_quarterBistDone_2 :
    (Runs ({ up with quarters := [(2, { Quarter.reset with state := 6 })] } : State)) ∧
    ((qtrOf ({ up with quarters := [(2, { Quarter.reset with state := 6 })] } : State) (2 : Nat)).state = 6) ∧
    (({ up with quarters := [(2, { Quarter.reset with state := 6 })] } : State).plan.cfg.spares ≤ spareCount ({ up with quarters := [(2, { Quarter.reset with state := 6 })] } : State)) ∧
    (lowerSpare ({ up with quarters := [(2, { Quarter.reset with state := 6 })] } : State) (2 : Nat) = none) := by
  refine ⟨?_, ?_, ?_, ?_⟩ <;> first | decide | rfl | (apply ok_of; decide +kernel)

theorem test_met_quarterBistDone_3 :
    (Runs ({ up with quarters := [(2, { Quarter.reset with state := 6 })] } : State)) ∧
    ((qtrOf ({ up with quarters := [(2, { Quarter.reset with state := 6 })] } : State) (2 : Nat)).state = 6) := by
  refine ⟨?_, ?_⟩ <;> first | decide | rfl | (apply ok_of; decide +kernel)

/-! Hypotheses of SessionsOpenAndAreConfigured are met. -/

theorem test_met_openSession :
    (Takes ({ sx with dec := { up.dec with en := true }, quarters := [(0, { Quarter.reset with state := 1 })] } : State) ({ fn := 0, ring := 0, cid := 7, token := 0 } : Hdr)) ∧
    (openCode ({ sx with dec := { up.dec with en := true }, quarters := [(0, { Quarter.reset with state := 1 })] } : State) ({ fn := 0, ring := 0, cid := 7, token := 0 } : Hdr) ({ kind := 1, stream := se.stream, fenceHint := 9, userTag := 0, pad := 0 } : OpenOps) = none) ∧
    (takeHandle ({ sx with dec := { up.dec with en := true }, quarters := [(0, { Quarter.reset with state := 1 })] } : State) = some (0 : Nat)) ∧
    (({ kind := 1, stream := se.stream, fenceHint := 9, userTag := 0, pad := 0 } : OpenOps).stream.flags.testBit 1 = false) := by
  refine ⟨?_, ?_, ?_, ?_⟩ <;> first | decide | rfl | (apply ok_of; decide +kernel)

theorem test_met_openSession_2 :
    (Takes (sx : State) ({ fn := 0, ring := 0, cid := 7, token := 0 } : Hdr)) ∧
    (openCode (sx : State) ({ fn := 0, ring := 0, cid := 7, token := 0 } : Hdr) ({ kind := 1, stream := se.stream, fenceHint := 9, userTag := 0, pad := 0 } : OpenOps) = some (0x0C0E : Code)) := by
  refine ⟨?_, ?_⟩ <;> first | decide | rfl | (apply ok_of; decide +kernel)

theorem test_met_configureStream :
    (Takes ({ sx with sessions := [(5, { se with kind := 1 })] } : State) ({ fn := 0, ring := 0, cid := 7, token := 5 } : Hdr)) ∧
    (tokenSession ({ sx with sessions := [(5, { se with kind := 1 })] } : State) ({ fn := 0, ring := 0, cid := 7, token := 5 } : Hdr).fn ({ fn := 0, ring := 0, cid := 7, token := 5 } : Hdr).token = some ((5 : Nat), ({ se with kind := 1 } : Session))) ∧
    (({ se with kind := 1 } : Session).tan.role = 0) ∧
    (streamCode ({ sx with sessions := [(5, { se with kind := 1 })] } : State) ({ se with kind := 1 } : Session) (se.stream : StreamOps) 0 = none) := by
  refine ⟨?_, ?_, ?_, ?_⟩ <;> first | decide | rfl | (apply ok_of; decide +kernel)

theorem test_met_configureStream_2 :
    (Takes ({ sx with sessions := [(5, se)] } : State) ({ fn := 0, ring := 0, cid := 7, token := 5 } : Hdr)) ∧
    (tokenSession ({ sx with sessions := [(5, se)] } : State) ({ fn := 0, ring := 0, cid := 7, token := 5 } : Hdr).fn ({ fn := 0, ring := 0, cid := 7, token := 5 } : Hdr).token = some ((5 : Nat), (se : Session))) ∧
    ((se : Session).tan.role = 0) ∧
    (streamCode ({ sx with sessions := [(5, se)] } : State) (se : Session) (se.stream : StreamOps) (1 : Nat) = some (0x0206 : Code)) := by
  refine ⟨?_, ?_, ?_, ?_⟩ <;> first | decide | rfl | (apply ok_of; decide +kernel)

theorem test_met_configureRate :
    (Takes ({ sx with sessions := [(5, se)] } : State) ({ fn := 0, ring := 0, cid := 7, token := 5 } : Hdr)) ∧
    (tokenSession ({ sx with sessions := [(5, se)] } : State) ({ fn := 0, ring := 0, cid := 7, token := 5 } : Hdr).fn ({ fn := 0, ring := 0, cid := 7, token := 5 } : Hdr).token = some ((5 : Nat), (se : Session))) ∧
    ((se : Session).tan.role = 0) ∧ (rateCfgCode ({ sx with sessions := [(5, se)] } : State) (se : Session) (openRateCfg 0 : RateOps) = none) := by
  refine ⟨?_, ?_, ?_, ?_⟩ <;> first | decide | rfl | (apply ok_of; decide +kernel)

theorem test_met_configureRate_2 :
    (Takes ({ sx with sessions := [(5, { se with kind := 1 })] } : State) ({ fn := 0, ring := 0, cid := 7, token := 5 } : Hdr)) ∧
    (tokenSession ({ sx with sessions := [(5, { se with kind := 1 })] } : State) ({ fn := 0, ring := 0, cid := 7, token := 5 } : Hdr).fn ({ fn := 0, ring := 0, cid := 7, token := 5 } : Hdr).token = some ((5 : Nat), ({ se with kind := 1 } : Session))) ∧
    (({ se with kind := 1 } : Session).tan.role = 0) ∧
    (rateCfgCode ({ sx with sessions := [(5, { se with kind := 1 })] } : State) ({ se with kind := 1 } : Session) (openRateCfg 0 : RateOps) = some (0x030B : Code)) := by
  refine ⟨?_, ?_, ?_, ?_⟩ <;> first | decide | rfl | (apply ok_of; decide +kernel)

theorem test_met_configureResilience :
    (Takes ({ sx with sessions := [(5, se)] } : State) ({ fn := 0, ring := 0, cid := 7, token := 5 } : Hdr)) ∧
    (tokenSession ({ sx with sessions := [(5, se)] } : State) ({ fn := 0, ring := 0, cid := 7, token := 5 } : Hdr).fn ({ fn := 0, ring := 0, cid := 7, token := 5 } : Hdr).token = some ((5 : Nat), (se : Session))) ∧
    ((se : Session).tan.role = 0) ∧
    (resOk (se : Session) ({ ltrPeriod := 9, refreshFrames := 4, keyHold := 3, spectKeyInterval := 8, flags := 1, pad := 0 } : ResOps) = true) := by
  refine ⟨?_, ?_, ?_, ?_⟩ <;> first | decide | rfl | (apply ok_of; decide +kernel)

theorem test_met_configureHostTransport :
    (Takes ({ sx with sessions := [(5, { se with stream := { se.stream with flags := 4 } })], fns := [(0, { Fn.reset with cq := [(3, { CqRing.reset with en := true })] })] } : State) ({ fn := 0, ring := 0, cid := 7, token := 5 } : Hdr)) ∧
    (tokenSession ({ sx with sessions := [(5, { se with stream := { se.stream with flags := 4 } })], fns := [(0, { Fn.reset with cq := [(3, { CqRing.reset with en := true })] })] } : State) ({ fn := 0, ring := 0, cid := 7, token := 5 } : Hdr).fn ({ fn := 0, ring := 0, cid := 7, token := 5 } : Hdr).token = some ((5 : Nat), ({ se with stream := { se.stream with flags := 4 } } : Session))) ∧
    (({ se with stream := { se.stream with flags := 4 } } : Session).tan.role = 0) ∧
    (hostCode ({ sx with sessions := [(5, { se with stream := { se.stream with flags := 4 } })], fns := [(0, { Fn.reset with cq := [(3, { CqRing.reset with en := true })] })] } : State) ({ se with stream := { se.stream with flags := 4 } } : Session) ({ fn := 0, ring := 0, cid := 7, token := 5 } : Hdr) ({ cq := 3, ringSize := 65536, ringAddr := 4096, pad := 0 } : HtOps) = none) := by
  refine ⟨?_, ?_, ?_, ?_⟩ <;> first | decide | rfl | (apply ok_of; decide +kernel)

theorem test_met_setRateBounds :
    (Takes ({ sx with sessions := [(5, se)] } : State) ({ fn := 0, ring := 0, cid := 7, token := 5 } : Hdr)) ∧
    (tokenSession ({ sx with sessions := [(5, se)] } : State) ({ fn := 0, ring := 0, cid := 7, token := 5 } : Hdr).fn ({ fn := 0, ring := 0, cid := 7, token := 5 } : Hdr).token = some ((5 : Nat), (se : Session))) ∧
    ((se : Session).tan.role = 0) ∧
    (boundsCode ({ sx with sessions := [(5, se)] } : State) (se : Session) ({ rateMin := 4000000, rateMax := 8000000, rateStart := 5000000, flags := 0, pad := 0 } : BoundsOps) = none) := by
  refine ⟨?_, ?_, ?_, ?_⟩ <;> first | decide | rfl | (apply ok_of; decide +kernel)

theorem test_met_setRateBounds_2 :
    (Takes ({ sx with sessions := [(5, { se with kind := 1 })] } : State) ({ fn := 0, ring := 0, cid := 7, token := 5 } : Hdr)) ∧
    (tokenSession ({ sx with sessions := [(5, { se with kind := 1 })] } : State) ({ fn := 0, ring := 0, cid := 7, token := 5 } : Hdr).fn ({ fn := 0, ring := 0, cid := 7, token := 5 } : Hdr).token = some ((5 : Nat), ({ se with kind := 1 } : Session))) ∧
    (({ se with kind := 1 } : Session).tan.role = 0) ∧
    (boundsCode ({ sx with sessions := [(5, { se with kind := 1 })] } : State) ({ se with kind := 1 } : Session) ({ rateMin := 0, rateMax := 0, rateStart := 0, flags := 0, pad := 0 } : BoundsOps) = some (0x030B : Code)) := by
  refine ⟨?_, ?_, ?_, ?_⟩ <;> first | decide | rfl | (apply ok_of; decide +kernel)

/-! Hypotheses of SessionsParkResumeAndClose are met. -/

theorem test_met_park :
    (Takes ({ sx with sessions := [(5, { se with state := 2 })] } : State) ({ fn := 0, ring := 0, cid := 7, token := 5 } : Hdr)) ∧
    (tokenSessionPf ({ sx with sessions := [(5, { se with state := 2 })] } : State) ({ fn := 0, ring := 0, cid := 7, token := 5 } : Hdr).fn ({ fn := 0, ring := 0, cid := 7, token := 5 } : Hdr).token = some ((5 : Nat), ({ se with state := 2 } : Session))) ∧
    (({ se with state := 2 } : Session).tan.role = 0) ∧
    (parkCode ({ sx with sessions := [(5, { se with state := 2 })] } : State) (5 : Nat) ({ se with state := 2 } : Session) false 0 = none) := by
  refine ⟨?_, ?_, ?_, ?_⟩ <;> first | decide | rfl | (apply ok_of; decide +kernel)

theorem test_met_parkCold :
    (Takes ({ sx with sessions := [(5, { se with state := 4 })] } : State) ({ fn := 0, ring := 0, cid := 7, token := 5 } : Hdr)) ∧
    (tokenSessionPf ({ sx with sessions := [(5, { se with state := 4 })] } : State) ({ fn := 0, ring := 0, cid := 7, token := 5 } : Hdr).fn ({ fn := 0, ring := 0, cid := 7, token := 5 } : Hdr).token = some ((5 : Nat), ({ se with state := 4 } : Session))) ∧
    (({ se with state := 4 } : Session).tan.role = 0) ∧
    (parkCode ({ sx with sessions := [(5, { se with state := 4 })] } : State) (5 : Nat) ({ se with state := 4 } : Session) true 0 = none) := by
  refine ⟨?_, ?_, ?_, ?_⟩ <;> first | decide | rfl | (apply ok_of; decide +kernel)

theorem test_met_resume :
    (Takes ({ sx with sessions := [(5, { se with state := 4 })] } : State) ({ fn := 0, ring := 0, cid := 7, token := 5 } : Hdr)) ∧
    (tokenSessionPf ({ sx with sessions := [(5, { se with state := 4 })] } : State) ({ fn := 0, ring := 0, cid := 7, token := 5 } : Hdr).fn ({ fn := 0, ring := 0, cid := 7, token := 5 } : Hdr).token = some ((5 : Nat), ({ se with state := 4 } : Session))) ∧
    (({ se with state := 4 } : Session).tan.role = 0) ∧
    (resumeCode ({ sx with sessions := [(5, { se with state := 4 })] } : State) (5 : Nat) ({ se with state := 4 } : Session) 0 = none) := by
  refine ⟨?_, ?_, ?_, ?_⟩ <;> first | decide | rfl | (apply ok_of; decide +kernel)

theorem test_met_close :
    (Takes ({ sx with sessions := [(5, { se with state := 2 })] } : State) ({ fn := 0, ring := 0, cid := 7, token := 5 } : Hdr)) ∧
    (tokenSessionPf ({ sx with sessions := [(5, { se with state := 2 })] } : State) ({ fn := 0, ring := 0, cid := 7, token := 5 } : Hdr).fn ({ fn := 0, ring := 0, cid := 7, token := 5 } : Hdr).token = some ((5 : Nat), ({ se with state := 2 } : Session))) ∧
    (({ se with state := 2 } : Session).tan.role = 0) ∧
    (look ({ sx with sessions := [(5, { se with state := 2 })] } : State).sessions (5 : Nat) = some ({ se with state := 2 } : Session)) ∧
    (closeAsked ({ sx with sessions := [(5, { se with state := 2 })] } : State) (5 : Nat) = false) ∧ (({ se with state := 2 } : Session).pend = none) := by
  refine ⟨?_, ?_, ?_, ?_, ?_, ?_⟩ <;> first | decide | rfl | (apply ok_of; decide +kernel)

theorem test_met_parkComplete :
    (Runs ({ sx with sessions := [(5, { se with state := 2, pend := some { kind := 1, hdr := some { fn := 0, ring := 0, cid := 7, token := 5 }, bell := 3, prior := none } })], bell := { up.bell with num := 4 } } : State)) ∧
    (look ({ sx with sessions := [(5, { se with state := 2, pend := some { kind := 1, hdr := some { fn := 0, ring := 0, cid := 7, token := 5 }, bell := 3, prior := none } })], bell := { up.bell with num := 4 } } : State).sessions (5 : Nat) = some ({ se with state := 2, pend := some { kind := 1, hdr := some { fn := 0, ring := 0, cid := 7, token := 5 }, bell := 3, prior := none } } : Session)) ∧
    (({ se with state := 2, pend := some { kind := 1, hdr := some { fn := 0, ring := 0, cid := 7, token := 5 }, bell := 3, prior := none } } : Session).pend = some ({ kind := 1, hdr := some { fn := 0, ring := 0, cid := 7, token := 5 }, bell := 3, prior := none } : PendCmd)) ∧
    (({ kind := 1, hdr := some { fn := 0, ring := 0, cid := 7, token := 5 }, bell := 3, prior := none } : PendCmd).bell ≠ ({ sx with sessions := [(5, { se with state := 2, pend := some { kind := 1, hdr := some { fn := 0, ring := 0, cid := 7, token := 5 }, bell := 3, prior := none } })], bell := { up.bell with num := 4 } } : State).bell.num) ∧
    (atStart ({ sx with sessions := [(5, { se with state := 2, pend := some { kind := 1, hdr := some { fn := 0, ring := 0, cid := 7, token := 5 }, bell := 3, prior := none } })], bell := { up.bell with num := 4 } } : State) = true) ∧
    (({ kind := 1, hdr := some { fn := 0, ring := 0, cid := 7, token := 5 }, bell := 3, prior := none } : PendCmd).kind = 0 ∨ ({ kind := 1, hdr := some { fn := 0, ring := 0, cid := 7, token := 5 }, bell := 3, prior := none } : PendCmd).kind = 1) ∧
    (({ kind := 1, hdr := some { fn := 0, ring := 0, cid := 7, token := 5 }, bell := 3, prior := none } : PendCmd).hdr = some ({ fn := 0, ring := 0, cid := 7, token := 5 } : Hdr)) ∧
    (({ se with state := 2, pend := some { kind := 1, hdr := some { fn := 0, ring := 0, cid := 7, token := 5 }, bell := 3, prior := none } } : Session).frames.all frameOver = true) ∧
    (({ se with state := 2, pend := some { kind := 1, hdr := some { fn := 0, ring := 0, cid := 7, token := 5 }, bell := 3, prior := none } } : Session).dec.queue = []) ∧
    (({ se with state := 2, pend := some { kind := 1, hdr := some { fn := 0, ring := 0, cid := 7, token := 5 }, bell := 3, prior := none } } : Session).tan.live = false ∨ ({ se with state := 2, pend := some { kind := 1, hdr := some { fn := 0, ring := 0, cid := 7, token := 5 }, bell := 3, prior := none } } : Session).tan.acks = []) := by
  refine ⟨?_, ?_, ?_, ?_, ?_, ?_, ?_, ?_, ?_, ?_⟩ <;> first | decide | rfl | (apply ok_of; decide +kernel)

theorem test_met_parkComplete_2 :
    (Runs ({ sx with sessions := [(5, { se with state := 2, pend := some { kind := 4, hdr := none, bell := 3, prior := none } })], bell := { up.bell with num := 4 } } : State)) ∧
    (look ({ sx with sessions := [(5, { se with state := 2, pend := some { kind := 4, hdr := none, bell := 3, prior := none } })], bell := { up.bell with num := 4 } } : State).sessions (5 : Nat) = some ({ se with state := 2, pend := some { kind := 4, hdr := none, bell := 3, prior := none } } : Session)) ∧
    (({ se with state := 2, pend := some { kind := 4, hdr := none, bell := 3, prior := none } } : Session).pend = some ({ kind := 4, hdr := none, bell := 3, prior := none } : PendCmd)) ∧
    (({ kind := 4, hdr := none, bell := 3, prior := none } : PendCmd).bell ≠ ({ sx with sessions := [(5, { se with state := 2, pend := some { kind := 4, hdr := none, bell := 3, prior := none } })], bell := { up.bell with num := 4 } } : State).bell.num) ∧
    (atStart ({ sx with sessions := [(5, { se with state := 2, pend := some { kind := 4, hdr := none, bell := 3, prior := none } })], bell := { up.bell with num := 4 } } : State) = true) ∧
    (({ kind := 4, hdr := none, bell := 3, prior := none } : PendCmd).kind = 4) ∧
    (({ kind := 4, hdr := none, bell := 3, prior := none } : PendCmd).hdr = none) ∧
    (({ se with state := 2, pend := some { kind := 4, hdr := none, bell := 3, prior := none } } : Session).frames.all frameOver = true) ∧
    (({ se with state := 2, pend := some { kind := 4, hdr := none, bell := 3, prior := none } } : Session).dec.queue = []) ∧
    (({ se with state := 2, pend := some { kind := 4, hdr := none, bell := 3, prior := none } } : Session).tan.live = false ∨ ({ se with state := 2, pend := some { kind := 4, hdr := none, bell := 3, prior := none } } : Session).tan.acks = []) := by
  refine ⟨?_, ?_, ?_, ?_, ?_, ?_, ?_, ?_, ?_, ?_⟩ <;> first | decide | rfl | (apply ok_of; decide +kernel)

theorem test_met_closeComplete :
    (Runs ({ sx with sessions := [(5, { se with state := 2, pend := some { kind := 3, hdr := some { fn := 0, ring := 0, cid := 7, token := 5 }, bell := 3, prior := none } })], bell := { up.bell with num := 4 } } : State)) ∧
    (look ({ sx with sessions := [(5, { se with state := 2, pend := some { kind := 3, hdr := some { fn := 0, ring := 0, cid := 7, token := 5 }, bell := 3, prior := none } })], bell := { up.bell with num := 4 } } : State).sessions (5 : Nat) = some ({ se with state := 2, pend := some { kind := 3, hdr := some { fn := 0, ring := 0, cid := 7, token := 5 }, bell := 3, prior := none } } : Session)) ∧
    (({ se with state := 2, pend := some { kind := 3, hdr := some { fn := 0, ring := 0, cid := 7, token := 5 }, bell := 3, prior := none } } : Session).pend = some ({ kind := 3, hdr := some { fn := 0, ring := 0, cid := 7, token := 5 }, bell := 3, prior := none } : PendCmd)) ∧
    (({ kind := 3, hdr := some { fn := 0, ring := 0, cid := 7, token := 5 }, bell := 3, prior := none } : PendCmd).bell ≠ ({ sx with sessions := [(5, { se with state := 2, pend := some { kind := 3, hdr := some { fn := 0, ring := 0, cid := 7, token := 5 }, bell := 3, prior := none } })], bell := { up.bell with num := 4 } } : State).bell.num) ∧
    (atStart ({ sx with sessions := [(5, { se with state := 2, pend := some { kind := 3, hdr := some { fn := 0, ring := 0, cid := 7, token := 5 }, bell := 3, prior := none } })], bell := { up.bell with num := 4 } } : State) = true) ∧
    (({ kind := 3, hdr := some { fn := 0, ring := 0, cid := 7, token := 5 }, bell := 3, prior := none } : PendCmd).kind = 3) ∧
    (({ kind := 3, hdr := some { fn := 0, ring := 0, cid := 7, token := 5 }, bell := 3, prior := none } : PendCmd).hdr = some ({ fn := 0, ring := 0, cid := 7, token := 5 } : Hdr)) := by
  refine ⟨?_, ?_, ?_, ?_, ?_, ?_, ?_⟩ <;> first | decide | rfl | (apply ok_of; decide +kernel)

theorem test_met_closeComplete_2 :
    (Runs ({ sx with sessions := [(5, { se with state := 2, pend := some { kind := 3, hdr := none, bell := 3, prior := none } })], bell := { up.bell with num := 4 } } : State)) ∧
    (look ({ sx with sessions := [(5, { se with state := 2, pend := some { kind := 3, hdr := none, bell := 3, prior := none } })], bell := { up.bell with num := 4 } } : State).sessions (5 : Nat) = some ({ se with state := 2, pend := some { kind := 3, hdr := none, bell := 3, prior := none } } : Session)) ∧
    (({ se with state := 2, pend := some { kind := 3, hdr := none, bell := 3, prior := none } } : Session).pend = some ({ kind := 3, hdr := none, bell := 3, prior := none } : PendCmd)) ∧
    (({ kind := 3, hdr := none, bell := 3, prior := none } : PendCmd).bell ≠ ({ sx with sessions := [(5, { se with state := 2, pend := some { kind := 3, hdr := none, bell := 3, prior := none } })], bell := { up.bell with num := 4 } } : State).bell.num) ∧
    (atStart ({ sx with sessions := [(5, { se with state := 2, pend := some { kind := 3, hdr := none, bell := 3, prior := none } })], bell := { up.bell with num := 4 } } : State) = true) ∧
    (({ kind := 3, hdr := none, bell := 3, prior := none } : PendCmd).kind = 3) := by
  refine ⟨?_, ?_, ?_, ?_, ?_, ?_⟩ <;> first | decide | rfl | (apply ok_of; decide +kernel)

theorem test_met_resumeComplete :
    (Runs ({ sx with sessions := [(5, { se with state := 2, pend := some { kind := 2, hdr := some { fn := 0, ring := 0, cid := 7, token := 5 }, bell := 3, prior := none }, resident := true })], bell := { up.bell with num := 4 }, sess := { sx.sess with fences := [] } } : State)) ∧
    (look ({ sx with sessions := [(5, { se with state := 2, pend := some { kind := 2, hdr := some { fn := 0, ring := 0, cid := 7, token := 5 }, bell := 3, prior := none }, resident := true })], bell := { up.bell with num := 4 }, sess := { sx.sess with fences := [] } } : State).sessions (5 : Nat) = some ({ se with state := 2, pend := some { kind := 2, hdr := some { fn := 0, ring := 0, cid := 7, token := 5 }, bell := 3, prior := none }, resident := true } : Session)) ∧
    (({ se with state := 2, pend := some { kind := 2, hdr := some { fn := 0, ring := 0, cid := 7, token := 5 }, bell := 3, prior := none }, resident := true } : Session).pend = some ({ kind := 2, hdr := some { fn := 0, ring := 0, cid := 7, token := 5 }, bell := 3, prior := none } : PendCmd)) ∧
    (({ kind := 2, hdr := some { fn := 0, ring := 0, cid := 7, token := 5 }, bell := 3, prior := none } : PendCmd).bell ≠ ({ sx with sessions := [(5, { se with state := 2, pend := some { kind := 2, hdr := some { fn := 0, ring := 0, cid := 7, token := 5 }, bell := 3, prior := none }, resident := true })], bell := { up.bell with num := 4 }, sess := { sx.sess with fences := [] } } : State).bell.num) ∧
    (atStart ({ sx with sessions := [(5, { se with state := 2, pend := some { kind := 2, hdr := some { fn := 0, ring := 0, cid := 7, token := 5 }, bell := 3, prior := none }, resident := true })], bell := { up.bell with num := 4 }, sess := { sx.sess with fences := [] } } : State) = true) ∧
    (({ kind := 2, hdr := some { fn := 0, ring := 0, cid := 7, token := 5 }, bell := 3, prior := none } : PendCmd).kind = 2) ∧
    (({ kind := 2, hdr := some { fn := 0, ring := 0, cid := 7, token := 5 }, bell := 3, prior := none } : PendCmd).hdr = some ({ fn := 0, ring := 0, cid := 7, token := 5 } : Hdr)) ∧
    (({ se with state := 2, pend := some { kind := 2, hdr := some { fn := 0, ring := 0, cid := 7, token := 5 }, bell := 3, prior := none }, resident := true } : Session).tan.role = 0) ∧
    (({ se with state := 2, pend := some { kind := 2, hdr := some { fn := 0, ring := 0, cid := 7, token := 5 }, bell := 3, prior := none }, resident := true } : Session).resident = true) ∧
    (takeFence ({ sx with sessions := [(5, { se with state := 2, pend := some { kind := 2, hdr := some { fn := 0, ring := 0, cid := 7, token := 5 }, bell := 3, prior := none }, resident := true })], bell := { up.bell with num := 4 }, sess := { sx.sess with fences := [] } } : State) ({ se with state := 2, pend := some { kind := 2, hdr := some { fn := 0, ring := 0, cid := 7, token := 5 }, bell := 3, prior := none }, resident := true } : Session).fn ({ se with state := 2, pend := some { kind := 2, hdr := some { fn := 0, ring := 0, cid := 7, token := 5 }, bell := 3, prior := none }, resident := true } : Session).oldFence = none) := by
  refine ⟨?_, ?_, ?_, ?_, ?_, ?_, ?_, ?_, ?_, ?_⟩ <;> first | decide | rfl | (apply ok_of; decide +kernel)

theorem test_met_resumeComplete_2 :
    (Runs ({ sx with sessions := [(5, { se with state := 2, pend := some { kind := 2, hdr := some { fn := 0, ring := 0, cid := 7, token := 5 }, bell := 3, prior := none }, resident := true })], bell := { up.bell with num := 4 } } : State)) ∧
    (look ({ sx with sessions := [(5, { se with state := 2, pend := some { kind := 2, hdr := some { fn := 0, ring := 0, cid := 7, token := 5 }, bell := 3, prior := none }, resident := true })], bell := { up.bell with num := 4 } } : State).sessions (5 : Nat) = some ({ se with state := 2, pend := some { kind := 2, hdr := some { fn := 0, ring := 0, cid := 7, token := 5 }, bell := 3, prior := none }, resident := true } : Session)) ∧
    (({ se with state := 2, pend := some { kind := 2, hdr := some { fn := 0, ring := 0, cid := 7, token := 5 }, bell := 3, prior := none }, resident := true } : Session).pend = some ({ kind := 2, hdr := some { fn := 0, ring := 0, cid := 7, token := 5 }, bell := 3, prior := none } : PendCmd)) ∧
    (({ kind := 2, hdr := some { fn := 0, ring := 0, cid := 7, token := 5 }, bell := 3, prior := none } : PendCmd).bell ≠ ({ sx with sessions := [(5, { se with state := 2, pend := some { kind := 2, hdr := some { fn := 0, ring := 0, cid := 7, token := 5 }, bell := 3, prior := none }, resident := true })], bell := { up.bell with num := 4 } } : State).bell.num) ∧
    (atStart ({ sx with sessions := [(5, { se with state := 2, pend := some { kind := 2, hdr := some { fn := 0, ring := 0, cid := 7, token := 5 }, bell := 3, prior := none }, resident := true })], bell := { up.bell with num := 4 } } : State) = true) ∧
    (({ kind := 2, hdr := some { fn := 0, ring := 0, cid := 7, token := 5 }, bell := 3, prior := none } : PendCmd).kind = 2) ∧
    (({ kind := 2, hdr := some { fn := 0, ring := 0, cid := 7, token := 5 }, bell := 3, prior := none } : PendCmd).hdr = some ({ fn := 0, ring := 0, cid := 7, token := 5 } : Hdr)) ∧
    (({ se with state := 2, pend := some { kind := 2, hdr := some { fn := 0, ring := 0, cid := 7, token := 5 }, bell := 3, prior := none }, resident := true } : Session).tan.role = 0) ∧
    (({ se with state := 2, pend := some { kind := 2, hdr := some { fn := 0, ring := 0, cid := 7, token := 5 }, bell := 3, prior := none }, resident := true } : Session).resident = true) ∧
    (takeFence ({ sx with sessions := [(5, { se with state := 2, pend := some { kind := 2, hdr := some { fn := 0, ring := 0, cid := 7, token := 5 }, bell := 3, prior := none }, resident := true })], bell := { up.bell with num := 4 } } : State) ({ se with state := 2, pend := some { kind := 2, hdr := some { fn := 0, ring := 0, cid := 7, token := 5 }, bell := 3, prior := none }, resident := true } : Session).fn ({ se with state := 2, pend := some { kind := 2, hdr := some { fn := 0, ring := 0, cid := 7, token := 5 }, bell := 3, prior := none }, resident := true } : Session).oldFence = some ((0, [(1, 4095)]) : Nat × List (Nat × Nat))) ∧
    (frameAdmit ({ sx with sessions := [(5, { se with state := 2, pend := some { kind := 2, hdr := some { fn := 0, ring := 0, cid := 7, token := 5 }, bell := 3, prior := none }, resident := true })], bell := { up.bell with num := 4 } } : State) (5 : Nat) ({ se with state := 2, pend := some { kind := 2, hdr := some { fn := 0, ring := 0, cid := 7, token := 5 }, bell := 3, prior := none }, resident := true } : Session) (loadOf ({ sx with sessions := [(5, { se with state := 2, pend := some { kind := 2, hdr := some { fn := 0, ring := 0, cid := 7, token := 5 }, bell := 3, prior := none }, resident := true })], bell := { up.bell with num := 4 } } : State) ({ se with state := 2, pend := some { kind := 2, hdr := some { fn := 0, ring := 0, cid := 7, token := 5 }, bell := 3, prior := none }, resident := true } : Session)) = .error (0x020A : Code)) := by
  refine ⟨?_, ?_, ?_, ?_, ?_, ?_, ?_, ?_, ?_, ?_, ?_⟩ <;> first | decide | rfl | (apply error_of; decide +kernel)

theorem test_met_resumeComplete_3 :
    (Runs (sw : State)) ∧ (look (sw : State).sessions (5 : Nat) = some (sd : Session)) ∧
    ((sd : Session).pend = some ({ kind := 2, hdr := some { fn := 0, ring := 0, cid := 7, token := 5 }, bell := 3, prior := none } : PendCmd)) ∧
    (({ kind := 2, hdr := some { fn := 0, ring := 0, cid := 7, token := 5 }, bell := 3, prior := none } : PendCmd).bell ≠ (sw : State).bell.num) ∧
    (atStart (sw : State) = true) ∧
    (({ kind := 2, hdr := some { fn := 0, ring := 0, cid := 7, token := 5 }, bell := 3, prior := none } : PendCmd).kind = 2) ∧
    ((sd : Session).resident = true) ∧
    (takeFence (sw : State) (sd : Session).fn (sd : Session).oldFence = some ((0 : Nat), ([(1, 4095)] : List (Nat × Nat)))) ∧
    (frameAdmit (sw : State) (5 : Nat) (sd : Session) (loadOf (sw : State) (sd : Session)) = .ok ((0 : Nat), (0 : Nat))) := by
  refine ⟨?_, ?_, ?_, ?_, ?_, ?_, ?_, ?_, ?_⟩ <;> first | decide | rfl | (apply ok_of; decide +kernel)

theorem test_met_idleLimitReached :
    (Runs ({ sx with sessions := [(5, { se with state := 2, idleFrom := some 0, stream := { se.stream with idleLimit := 1 } })], bell := { up.bell with num := 4000 } } : State)) ∧
    (look ({ sx with sessions := [(5, { se with state := 2, idleFrom := some 0, stream := { se.stream with idleLimit := 1 } })], bell := { up.bell with num := 4000 } } : State).sessions (5 : Nat) = some ({ se with state := 2, idleFrom := some 0, stream := { se.stream with idleLimit := 1 } } : Session)) ∧
    (({ se with state := 2, idleFrom := some 0, stream := { se.stream with idleLimit := 1 } } : Session).tan.role = 0) ∧
    (({ se with state := 2, idleFrom := some 0, stream := { se.stream with idleLimit := 1 } } : Session).woken.orElse (fun _ => ({ se with state := 2, idleFrom := some 0, stream := { se.stream with idleLimit := 1 } } : Session).idleFrom) = some (0 : BitVec 40)) ∧
    (({ se with state := 2, idleFrom := some 0, stream := { se.stream with idleLimit := 1 } } : Session).state = 2) ∧
    (({ se with state := 2, idleFrom := some 0, stream := { se.stream with idleLimit := 1 } } : Session).pend = none) ∧
    (0 < ({ se with state := 2, idleFrom := some 0, stream := { se.stream with idleLimit := 1 } } : Session).stream.idleLimit) ∧
    (({ se with state := 2, idleFrom := some 0, stream := { se.stream with idleLimit := 1 } } : Session).frames.all frameOver = true) ∧
    (({ se with state := 2, idleFrom := some 0, stream := { se.stream with idleLimit := 1 } } : Session).dec.queue = []) ∧
    (({ se with state := 2, idleFrom := some 0, stream := { se.stream with idleLimit := 1 } } : Session).stream.idleLimit * framesF ({ sx with sessions := [(5, { se with state := 2, idleFrom := some 0, stream := { se.stream with idleLimit := 1 } })], bell := { up.bell with num := 4000 } } : State) ({ se with state := 2, idleFrom := some 0, stream := { se.stream with idleLimit := 1 } } : Session).stream.fps ≤ bellsFrom (0 : BitVec 40) ({ sx with sessions := [(5, { se with state := 2, idleFrom := some 0, stream := { se.stream with idleLimit := 1 } })], bell := { up.bell with num := 4000 } } : State).bell.num) := by
  refine ⟨?_, ?_, ?_, ?_, ?_, ?_, ?_, ?_, ?_, ?_⟩ <;> first | decide | rfl | (apply ok_of; decide +kernel)

/-! Hypotheses of PlansAreStagedAndApplied are met. -/

theorem test_met_planLoad :
    (Hears (up : State) ({ fn := 0, ring := 0, cid := 7, token := 0 } : Hdr)) ∧ (({ fn := 0, ring := 0, cid := 7, token := 0 } : Hdr).fn = 0) ∧
    (({ fn := 0, ring := 0, cid := 7, token := 0 } : Hdr).token = 0) ∧ ((8 : DWord).toNat % 8 = 0) ∧ (stageBusy (up : State) = false) := by
  refine ⟨?_, ?_, ?_, ?_, ?_⟩ <;> first | decide | rfl | (apply ok_of; decide +kernel)

theorem test_met_planLoad_2 :
    (Hears ({ up with plan := { up.plan with stage := 1 } } : State) ({ fn := 0, ring := 0, cid := 7, token := 0 } : Hdr)) ∧
    (({ fn := 0, ring := 0, cid := 7, token := 0 } : Hdr).fn = 0) ∧ (({ fn := 0, ring := 0, cid := 7, token := 0 } : Hdr).token = 0) ∧
    ((8 : DWord).toNat % 8 = 0) ∧ (stageBusy ({ up with plan := { up.plan with stage := 1 } } : State) = true) := by
  refine ⟨?_, ?_, ?_, ?_, ?_⟩ <;> first | decide | rfl | (apply ok_of; decide +kernel)

theorem test_met_planStage :
    (Serves (up : State)) ∧ ((up : State).pwr.state = 0) ∧ (stageBusy (up : State) = false) := by
  refine ⟨?_, ?_, ?_⟩ <;> first | decide | rfl | (apply ok_of; decide +kernel)

theorem test_met_planDiscard :
    (Serves ({ up with plan := { up.plan with stage := 3 } } : State)) ∧ (({ up with plan := { up.plan with stage := 3 } } : State).plan.stage ≠ 1) ∧
    (({ up with plan := { up.plan with stage := 3 } } : State).plan.stage ≠ 2) ∧
    (applyRuns ({ up with plan := { up.plan with stage := 3 } } : State) = false) := by
  refine ⟨?_, ?_, ?_, ?_⟩ <;> first | decide | rfl | (apply ok_of; decide +kernel)

theorem test_met_planDiscard_2 :
    (Serves ({ up with plan := { up.plan with stage := 2 } } : State)) ∧
    (({ up with plan := { up.plan with stage := 2 } } : State).plan.stage = 1 ∨ ({ up with plan := { up.plan with stage := 2 } } : State).plan.stage = 2 ∨ applyRuns ({ up with plan := { up.plan with stage := 2 } } : State) = true) := by
  refine ⟨?_, ?_⟩ <;> first | decide | rfl | (apply ok_of; decide +kernel)

theorem test_met_planCopyDone :
    (Runs ({ up with plan := { up.plan with stage := 1, srcLen := 1 } } : State)) ∧
    (({ up with plan := { up.plan with stage := 1, srcLen := 1 } } : State).plan.stage = 1) ∧
    (([1] : List Byte).length = ({ up with plan := { up.plan with stage := 1, srcLen := 1 } } : State).plan.srcLen) := by
  refine ⟨?_, ?_, ?_⟩ <;> first | decide | rfl | (apply ok_of; decide +kernel)

theorem test_met_planCopyDone_2 :
    (Runs ({ up with plan := { up.plan with stage := 1 } } : State)) ∧ (({ up with plan := { up.plan with stage := 1 } } : State).plan.stage = 1) ∧
    (({ up with plan := { up.plan with stage := 1 } } : State).plan.cmd = none) := by
  refine ⟨?_, ?_, ?_⟩ <;> first | decide | rfl | (apply ok_of; decide +kernel)

theorem test_met_planCheckDone :
    (Runs ({ up with plan := { up.plan with stage := 2 } } : State)) ∧ (({ up with plan := { up.plan with stage := 2 } } : State).plan.stage = 2) ∧
    (({ up with plan := { up.plan with stage := 2 } } : State).plan.cmd = none) ∧
    (({ up with plan := { up.plan with stage := 2 } } : State).plan.srcLen ≤ (0 : Nat) * 64 ∨ ((.clean : Ecc) = .clean ∧
    has ({ up with plan := { up.plan with stage := 2 } } : State).memc.poison ((stageAt ({ up with plan := { up.plan with stage := 2 } } : State) + (0 : Nat) * 64) / 64) = false)) := by
  refine ⟨?_, ?_, ?_, ?_⟩ <;> first | decide | rfl | (apply ok_of; decide +kernel)

theorem test_met_planCheckDone_2 :
    (Runs ({ up with plan := { up.plan with stage := 2 } } : State)) ∧ (({ up with plan := { up.plan with stage := 2 } } : State).plan.stage = 2) ∧
    (({ up with plan := { up.plan with stage := 2 } } : State).plan.cmd = none) ∧
    (({ up with plan := { up.plan with stage := 2 } } : State).plan.srcLen ≤ (0 : Nat) * 64 ∨ ((.clean : Ecc) = .clean ∧
    has ({ up with plan := { up.plan with stage := 2 } } : State).memc.poison ((stageAt ({ up with plan := { up.plan with stage := 2 } } : State) + (0 : Nat) * 64) / 64) = false)) ∧
    (slice (stagedBytes ({ up with plan := { up.plan with stage := 2 } } : State)) 0 4 ≠ [0x53, 0x54, 0x50, 0x4C]) := by
  refine ⟨?_, ?_, ?_, ?_, ?_⟩ <;> first | decide | rfl | (apply ok_of; decide +kernel)

theorem test_met_planCheckDone_3 :
    (Runs (writeMem (stageAt up) [0x53, 0x54, 0x50, 0x4C, 0x53, 0x49, 0x47, 0x4E] { up with plan := { up.plan with stage := 2, srcLen := 132 } } : State)) ∧
    ((writeMem (stageAt up) [0x53, 0x54, 0x50, 0x4C, 0x53, 0x49, 0x47, 0x4E] { up with plan := { up.plan with stage := 2, srcLen := 132 } } : State).plan.stage = 2) ∧
    ((writeMem (stageAt up) [0x53, 0x54, 0x50, 0x4C, 0x53, 0x49, 0x47, 0x4E] { up with plan := { up.plan with stage := 2, srcLen := 132 } } : State).plan.cmd = none) ∧
    ((writeMem (stageAt up) [0x53, 0x54, 0x50, 0x4C, 0x53, 0x49, 0x47, 0x4E] { up with plan := { up.plan with stage := 2, srcLen := 132 } } : State).plan.srcLen ≤ (0 : Nat) * 64 ∨ ((.clean : Ecc) = .clean ∧
    has (writeMem (stageAt up) [0x53, 0x54, 0x50, 0x4C, 0x53, 0x49, 0x47, 0x4E] { up with plan := { up.plan with stage := 2, srcLen := 132 } } : State).memc.poison ((stageAt (writeMem (stageAt up) [0x53, 0x54, 0x50, 0x4C, 0x53, 0x49, 0x47, 0x4E] { up with plan := { up.plan with stage := 2, srcLen := 132 } } : State) + (0 : Nat) * 64) / 64) = false)) ∧
    (slice (stagedBytes (writeMem (stageAt up) [0x53, 0x54, 0x50, 0x4C, 0x53, 0x49, 0x47, 0x4E] { up with plan := { up.plan with stage := 2, srcLen := 132 } } : State)) 0 4 = [0x53, 0x54, 0x50, 0x4C]) ∧
    (slice (stagedBytes (writeMem (stageAt up) [0x53, 0x54, 0x50, 0x4C, 0x53, 0x49, 0x47, 0x4E] { up with plan := { up.plan with stage := 2, srcLen := 132 } } : State)) ((stagedBytes (writeMem (stageAt up) [0x53, 0x54, 0x50, 0x4C, 0x53, 0x49, 0x47, 0x4E] { up with plan := { up.plan with stage := 2, srcLen := 132 } } : State)).length - 128) 4 = [0x53, 0x49, 0x47, 0x4E]) ∧
    (le (stagedBytes (writeMem (stageAt up) [0x53, 0x54, 0x50, 0x4C, 0x53, 0x49, 0x47, 0x4E] { up with plan := { up.plan with stage := 2, srcLen := 132 } } : State)) 4 2 ≠ 0x0200) := by
  refine ⟨?_, ?_, ?_, ?_, ?_, ?_, ?_⟩ <;> first | decide | rfl | (apply ok_of; decide +kernel)

theorem test_met_planCheckDone_4 :
    (Runs ({ up with plan := { up.plan with stage := 2, srcLen := 64 } } : State)) ∧
    (({ up with plan := { up.plan with stage := 2, srcLen := 64 } } : State).plan.stage = 2) ∧
    ((0 : Nat) * 64 < ({ up with plan := { up.plan with stage := 2, srcLen := 64 } } : State).plan.srcLen) ∧
    (has ({ up with plan := { up.plan with stage := 2, srcLen := 64 } } : State).memc.poison ((stageAt ({ up with plan := { up.plan with stage := 2, srcLen := 64 } } : State) + (0 : Nat) * 64) / 64) = false) := by
  refine ⟨?_, ?_, ?_, ?_⟩ <;> first | decide | rfl | (apply ok_of; decide +kernel)

theorem test_met_planCheckDone_5 :
    (Runs ({ up with plan := { up.plan with stage := 2, srcLen := 64 } } : State)) ∧
    (({ up with plan := { up.plan with stage := 2, srcLen := 64 } } : State).plan.stage = 2) ∧
    ((0 : Nat) * 64 < ({ up with plan := { up.plan with stage := 2, srcLen := 64 } } : State).plan.srcLen) := by
  refine ⟨?_, ?_, ?_⟩ <;> first | decide | rfl | (apply ok_of; decide +kernel)

theorem test_met_planApply :
    (Serves ({ up with plan := { up.plan with stage := 3, image := some (parseImage []) } } : State)) ∧
    (applyRuns ({ up with plan := { up.plan with stage := 3, image := some (parseImage []) } } : State) = false) ∧
    (({ up with plan := { up.plan with stage := 3, image := some (parseImage []) } } : State).plan.image = some (parseImage [] : PlanImage)) ∧
    ((parseImage [] : PlanImage).partPlan = false) ∧
    (lookD ({ up with plan := { up.plan with stage := 3, image := some (parseImage []) } } : State).sec.svn 2 0 ≤ (parseImage [] : PlanImage).svn) ∧
    (fullCapacityOk (wake ({ up with plan := { up.plan with stage := 3, image := some (parseImage []) } } : State)) (parseImage [] : PlanImage) = true) := by
  refine ⟨?_, ?_, ?_, ?_, ?_, ?_⟩ <;> first | decide | rfl | (apply ok_of; decide +kernel)

theorem test_met_planApply_2 :
    (Serves (up : State)) ∧ (applyRuns (up : State) = false) ∧ ((up : State).plan.image = none) := by
  refine ⟨?_, ?_, ?_⟩ <;> first | decide | rfl | (apply ok_of; decide +kernel)

theorem test_met_planApply_3 :
    (Serves ({ up with plan := { up.plan with applySt := 1 } } : State)) ∧ (applyRuns ({ up with plan := { up.plan with applySt := 1 } } : State) = true) := by
  refine ⟨?_, ?_⟩ <;> first | decide | rfl | (apply ok_of; decide +kernel)

theorem test_met_planApply_4 :
    (Serves ({ up with plan := { up.plan with stage := 3, image := some { parseImage [] with partPlan := true } } } : State)) ∧
    (applyRuns ({ up with plan := { up.plan with stage := 3, image := some { parseImage [] with partPlan := true } } } : State) = false) ∧
    (({ up with plan := { up.plan with stage := 3, image := some { parseImage [] with partPlan := true } } } : State).plan.image = some ({ parseImage [] with partPlan := true } : PlanImage)) ∧
    (({ parseImage [] with partPlan := true } : PlanImage).partPlan = true) := by
  refine ⟨?_, ?_, ?_, ?_⟩ <;> first | decide | rfl | (apply ok_of; decide +kernel)

theorem test_met_planApply_5 :
    (Serves ({ up with plan := { up.plan with stage := 3, image := some (parseImage []) }, sec := { up.sec with svn := [(2, 3)] } } : State)) ∧
    (applyRuns ({ up with plan := { up.plan with stage := 3, image := some (parseImage []) }, sec := { up.sec with svn := [(2, 3)] } } : State) = false) ∧
    (({ up with plan := { up.plan with stage := 3, image := some (parseImage []) }, sec := { up.sec with svn := [(2, 3)] } } : State).plan.image = some (parseImage [] : PlanImage)) ∧
    ((parseImage [] : PlanImage).partPlan = false) ∧
    ((parseImage [] : PlanImage).svn < lookD ({ up with plan := { up.plan with stage := 3, image := some (parseImage []) }, sec := { up.sec with svn := [(2, 3)] } } : State).sec.svn 2 0) := by
  refine ⟨?_, ?_, ?_, ?_, ?_⟩ <;> first | decide | rfl | (apply ok_of; decide +kernel)

theorem test_met_planApplyTakeEffect :
    (Runs ({ up with bell := { up.bell with num := 1 }, plan := { up.plan with accepted := true, applySt := 1, applying := some (parseImage []) } } : State)) ∧
    (({ up with bell := { up.bell with num := 1 }, plan := { up.plan with accepted := true, applySt := 1, applying := some (parseImage []) } } : State).plan.applying = some (parseImage [] : PlanImage)) ∧
    (({ up with bell := { up.bell with num := 1 }, plan := { up.plan with accepted := true, applySt := 1, applying := some (parseImage []) } } : State).plan.accepted = true) ∧
    (({ up with bell := { up.bell with num := 1 }, plan := { up.plan with accepted := true, applySt := 1, applying := some (parseImage []) } } : State).plan.acceptedAt ≠ ({ up with bell := { up.bell with num := 1 }, plan := { up.plan with accepted := true, applySt := 1, applying := some (parseImage []) } } : State).bell.num) ∧
    (atStart ({ up with bell := { up.bell with num := 1 }, plan := { up.plan with accepted := true, applySt := 1, applying := some (parseImage []) } } : State) = true) := by
  refine ⟨?_, ?_, ?_, ?_, ?_⟩ <;> first | decide | rfl | (apply ok_of; decide +kernel)

theorem test_met_applyStepAdvance :
    (Runs ({ up with plan := { up.plan with applySt := 1, applying := some (parseImage []) } } : State)) ∧
    (({ up with plan := { up.plan with applySt := 1, applying := some (parseImage []) } } : State).plan.applySt = 1) ∧
    (({ up with plan := { up.plan with applySt := 1, applying := some (parseImage []) } } : State).plan.accepted = false) ∧
    (({ up with plan := { up.plan with applySt := 1, applying := some (parseImage []) } } : State).plan.applyCur = none) ∧
    (({ up with plan := { up.plan with applySt := 1, applying := some (parseImage []) } } : State).plan.applying = some (parseImage [] : PlanImage)) ∧
    (({ up with plan := { up.plan with applySt := 1, applying := some (parseImage []) } } : State).plan.releasing = []) ∧
    (({ up with plan := { up.plan with applySt := 1, applying := some (parseImage []) } } : State).plan.rezoning = []) := by
  refine ⟨?_, ?_, ?_, ?_, ?_, ?_, ?_⟩ <;> first | decide | rfl | (apply ok_of; decide +kernel)

theorem test_met_applyStepAdvance_2 :
    (Runs ({ up with plan := { up.plan with applySt := 1, releasing := [4], applying := some (parseImage []) }, quarters := [(4, { Quarter.reset with state := 1 })] } : State)) ∧
    (({ up with plan := { up.plan with applySt := 1, releasing := [4], applying := some (parseImage []) }, quarters := [(4, { Quarter.reset with state := 1 })] } : State).plan.applySt = 1) ∧
    (({ up with plan := { up.plan with applySt := 1, releasing := [4], applying := some (parseImage []) }, quarters := [(4, { Quarter.reset with state := 1 })] } : State).plan.accepted = false) ∧
    (({ up with plan := { up.plan with applySt := 1, releasing := [4], applying := some (parseImage []) }, quarters := [(4, { Quarter.reset with state := 1 })] } : State).plan.applyCur = none) ∧
    (({ up with plan := { up.plan with applySt := 1, releasing := [4], applying := some (parseImage []) }, quarters := [(4, { Quarter.reset with state := 1 })] } : State).plan.applying = some (parseImage [] : PlanImage)) ∧
    (({ up with plan := { up.plan with applySt := 1, releasing := [4], applying := some (parseImage []) }, quarters := [(4, { Quarter.reset with state := 1 })] } : State).plan.releasing = (4 : Nat) :: ([] : List Nat)) ∧
    ((qtrOf ({ up with plan := { up.plan with applySt := 1, releasing := [4], applying := some (parseImage []) }, quarters := [(4, { Quarter.reset with state := 1 })] } : State) (4 : Nat)).state = 1) ∧
    ((qtrOf ({ up with plan := { up.plan with applySt := 1, releasing := [4], applying := some (parseImage []) }, quarters := [(4, { Quarter.reset with state := 1 })] } : State) (4 : Nat)).pend = false) := by
  refine ⟨?_, ?_, ?_, ?_, ?_, ?_, ?_, ?_⟩ <;> first | decide | rfl | (apply ok_of; decide +kernel)

/-! Hypotheses of FramesAreSubmitted are met. -/

theorem test_met_submitFrameAperture : ∃ sets, (mapSets 5 op op.surfaces sg).1 = .ok sets ∧ Takes sg { fn := 0, ring := 0, cid := 7, token := 5 } ∧ tokenSession sg 0 5 = some (5, sf) ∧ submitGate sg 5 sf false op = none := by
  refine ⟨_, ok_of (v := [(0, [0x60000000, 0x60000001]), (2, [0x60000002, 0x60000003])]) ?_, by decide, rfl, by decide⟩; decide +kernel

theorem test_met_submitFrameAperture_2 :
    (Takes (sg : State) ({ fn := 0, ring := 0, cid := 7, token := 5 } : Hdr)) ∧
    (tokenSession (sg : State) ({ fn := 0, ring := 0, cid := 7, token := 5 } : Hdr).fn ({ fn := 0, ring := 0, cid := 7, token := 5 } : Hdr).token = some ((5 : Nat), (sf : Session))) ∧
    (submitGate (sg : State) (5 : Nat) (sf : Session) false ({ op with pad := 1 } : SubmitOps) = some (0x0206 : Code)) := by
  refine ⟨?_, ?_, ?_⟩ <;> first | decide | rfl | (apply ok_of; decide +kernel)

theorem test_met_submitFrameAperture_3 : (∃ c, (mapSets 5 op op.surfaces { sg with pool := up.pool }).1 = .error c) ∧ submitGate { sg with pool := up.pool } 5 sf false op = none := ⟨⟨0x0502, error_of (by decide +kernel)⟩, by decide⟩

theorem test_met_submitFrameHost : ∃ u bufs, admitStart 5 opHost (nowMark sg) sg = .ok u ∧ (allocMany (sessReq 5) (2 ^ 20) (setPages opHost) u).1 = .ok bufs ∧ submitGate sg 5 sf true opHost = none := by
  refine ⟨_, _, rfl, ok_of (v := [0x60000000, 0x60000001]) ?_, by decide⟩; decide +kernel

theorem test_met_submitFrameHost_2 : admitStart 5 opHost (nowMark { sg with sessions := [(5, { sf with stream := { sf.stream with flags := 4 } })] }) { sg with sessions := [(5, { sf with stream := { sf.stream with flags := 4 } })] } = .error 0x0206 ∧ submitGate { sg with sessions := [(5, { sf with stream := { sf.stream with flags := 4 } })] } 5 { sf with stream := { sf.stream with flags := 4 } } true opHost = none := by
  refine ⟨rfl, by decide⟩

/-! Hypotheses of RowsLandAndFramesEnd are met. -/

theorem test_met_rowFence :
    (Serves (sg : State)) ∧ (fnOn (sg : State) ({ fn := 0, index := 3, value := 0, ok8 := false, rid := 0 } : Fence).fn = true) ∧
    (fenceCode (wake (sg : State)) ({ fn := 0, index := 3, value := 0, ok8 := false, rid := 0 } : Fence) = some (0x0D04 : Code)) := by
  refine ⟨?_, ?_, ?_⟩ <;> first | decide | rfl | (apply ok_of; decide +kernel)

theorem test_met_rowFence_2 :
    (Serves (sg : State)) ∧ (fnOn (sg : State) ({ fn := 0, index := 3, value := 0x70010, ok8 := true, rid := 0 } : Fence).fn = true) ∧
    (fenceCode (wake (sg : State)) ({ fn := 0, index := 3, value := 0x70010, ok8 := true, rid := 0 } : Fence) = none) ∧
    (fenceSession (sg : State) ({ fn := 0, index := 3, value := 0x70010, ok8 := true, rid := 0 } : Fence).fn ({ fn := 0, index := 3, value := 0x70010, ok8 := true, rid := 0 } : Fence).index = some ((5 : Nat), (sf : Session))) ∧
    (isStart (sf : Session) ({ fn := 0, index := 3, value := 0x70010, ok8 := true, rid := 0 } : Fence) = false) ∧
    (openFrame (sf : Session) ({ fn := 0, index := 3, value := 0x70010, ok8 := true, rid := 0 } : Fence) = some (fr : Frame)) := by
  refine ⟨?_, ?_, ?_, ?_, ?_, ?_⟩ <;> first | decide | rfl | (apply ok_of; decide +kernel)

theorem test_met_rowFence_3 : ∃ u, admitStart 5 op (nowMark sg) (wake sg) = .ok u ∧ fenceCode (wake sg) { fn := 0, index := 3, value := 0x80010, ok8 := true, rid := 0 } = none := ⟨_, rfl, by decide⟩

theorem test_met_hostRowsRead :
    (Runs ({ sg with sessions := [(5, { sf with frames := [{ fr with source := 1 }] })] } : State)) ∧
    (look ({ sg with sessions := [(5, { sf with frames := [{ fr with source := 1 }] })] } : State).sessions (5 : Nat) = some ({ sf with frames := [{ fr with source := 1 }] } : Session)) ∧
    (({ sf with frames := [{ fr with source := 1 }] } : Session).frames.find? (fun e => decide (e.source = 1) && e.ingest && !e.trunc && !e.failed) = some ({ fr with source := 1 } : Frame)) := by
  refine ⟨?_, ?_, ?_⟩ <;> first | decide | rfl | (apply ok_of; decide +kernel)

theorem test_met_hostRowsRead_2 :
    (Runs ({ sg with sessions := [(5, { sf with frames := [{ fr with source := 1 }] })] } : State)) ∧
    (look ({ sg with sessions := [(5, { sf with frames := [{ fr with source := 1 }] })] } : State).sessions (5 : Nat) = some ({ sf with frames := [{ fr with source := 1 }] } : Session)) ∧
    (({ sf with frames := [{ fr with source := 1 }] } : Session).frames.find? (fun e => decide (e.source = 1) && e.ingest && !e.trunc && !e.failed) = some ({ fr with source := 1 } : Frame)) := by
  refine ⟨?_, ?_, ?_⟩ <;> first | decide | rfl | (apply ok_of; decide +kernel)

theorem test_met_frameTruncate :
    (Runs ({ sg with bell := { up.bell with cut := true, window := .dispatch } } : State)) ∧
    (({ sg with bell := { up.bell with cut := true, window := .dispatch } } : State).bell.cut = true) ∧
    (({ sg with bell := { up.bell with cut := true, window := .dispatch } } : State).bell.window = .dispatch) ∧
    (look ({ sg with bell := { up.bell with cut := true, window := .dispatch } } : State).sessions (5 : Nat) = some (sf : Session)) ∧
    ((sf : Session).frames.find? (truncDue ({ sg with bell := { up.bell with cut := true, window := .dispatch } } : State) (sf : Session)) = none) := by
  refine ⟨?_, ?_, ?_, ?_, ?_⟩ <;> first | decide | rfl | (apply ok_of; decide +kernel)

theorem test_met_frameTruncate_2 :
    (Runs ({ sg with bell := { up.bell with cut := true, window := .dispatch, num := 9 } } : State)) ∧
    (({ sg with bell := { up.bell with cut := true, window := .dispatch, num := 9 } } : State).bell.cut = true) ∧
    (({ sg with bell := { up.bell with cut := true, window := .dispatch, num := 9 } } : State).bell.window = .dispatch) ∧
    (look ({ sg with bell := { up.bell with cut := true, window := .dispatch, num := 9 } } : State).sessions (5 : Nat) = some (sf : Session)) ∧
    ((sf : Session).frames.find? (truncDue ({ sg with bell := { up.bell with cut := true, window := .dispatch, num := 9 } } : State) (sf : Session)) = some (fr : Frame)) := by
  refine ⟨?_, ?_, ?_, ?_, ?_⟩ <;> first | decide | rfl | (apply ok_of; decide +kernel)

theorem test_met_apertureWrite :
    (Runs (sg : State)) ∧ ((sg : State).ingest.en = true) ∧
    (pageRun (sg : State) ({ page := 4, off := 16, rid := 9, bytes := [1, 2] } : AptWrite).page = some ((4 : Nat), (5 : Nat))) ∧
    (look (sg : State).sessions (5 : Nat) = some (sf : Session)) ∧
    (runBinding (sf : Session) (4 : Nat) = some (({ id := 1, ops := op, source := 0, valid := true, sets := [(4, [0x60000000])], count := 0 } : Binding), ([0x60000000] : List Word))) ∧
    (ridBad ({ id := 1, ops := op, source := 0, valid := true, sets := [(4, [0x60000000])], count := 0 } : Binding) ({ page := 4, off := 16, rid := 9, bytes := [1, 2] } : AptWrite).rid = false) := by
  refine ⟨?_, ?_, ?_, ?_, ?_, ?_⟩ <;> first | decide | rfl | (apply ok_of; decide +kernel)

theorem test_met_apertureWrite_2 :
    (Runs (State.reset : State)) ∧ (pageRun (State.reset : State) ({ page := 5, off := 16, rid := 9, bytes := [1, 2] } : AptWrite).page = none) := by
  refine ⟨?_, ?_⟩ <;> first | decide | rfl | (apply ok_of; decide +kernel)

theorem test_met_apertureWrite_3 :
    (Runs ({ sg with sessions := [(5, sfr)] } : State)) ∧
    (pageRun ({ sg with sessions := [(5, sfr)] } : State) ({ page := 4, off := 16, rid := 9, bytes := [1, 2] } : AptWrite).page = some ((4 : Nat), (5 : Nat))) ∧
    (look ({ sg with sessions := [(5, sfr)] } : State).sessions (5 : Nat) = some (sfr : Session)) ∧
    (runBinding (sfr : Session) (4 : Nat) = some (({ id := 1, ops := { op with flags := 1 }, source := 0, valid := true, sets := [(4, [0x60000000])], count := 0 } : Binding), ([0x60000000] : List Word))) ∧
    (ridBad ({ id := 1, ops := { op with flags := 1 }, source := 0, valid := true, sets := [(4, [0x60000000])], count := 0 } : Binding) ({ page := 4, off := 16, rid := 9, bytes := [1, 2] } : AptWrite).rid = true) := by
  refine ⟨?_, ?_, ?_, ?_, ?_⟩ <;> first | decide | rfl | (apply ok_of; decide +kernel)

theorem test_met_apertureWrite_4 :
    (Runs ({ sg with ingest := { sg.ingest with en := false } } : State)) ∧
    (({ sg with ingest := { sg.ingest with en := false } } : State).ingest.en = false) ∧
    (pageRun ({ sg with ingest := { sg.ingest with en := false } } : State) ({ page := 4, off := 16, rid := 9, bytes := [1, 2] } : AptWrite).page = some ((4 : Nat), (5 : Nat))) ∧
    (look ({ sg with ingest := { sg.ingest with en := false } } : State).sessions (5 : Nat) = some (sf : Session)) ∧
    (runBinding (sf : Session) (4 : Nat) = some (({ id := 1, ops := op, source := 0, valid := true, sets := [(4, [0x60000000])], count := 0 } : Binding), ([0x60000000] : List Word))) ∧
    (ridBad ({ id := 1, ops := op, source := 0, valid := true, sets := [(4, [0x60000000])], count := 0 } : Binding) ({ page := 4, off := 16, rid := 9, bytes := [1, 2] } : AptWrite).rid = false) := by
  refine ⟨?_, ?_, ?_, ?_, ?_, ?_⟩ <;> first | decide | rfl | (apply ok_of; decide +kernel)

/-! Hypotheses of FeedbackIsTaken are met. -/

theorem test_met_feedbackAck :
    (Takes (sg : State) ({ fn := 0, ring := 0, cid := 7, token := 5 } : Hdr)) ∧
    (tokenSession (sg : State) ({ fn := 0, ring := 0, cid := 7, token := 5 } : Hdr).fn ({ fn := 0, ring := 0, cid := 7, token := 5 } : Hdr).token = some ((5 : Nat), (sf : Session))) ∧
    ((sf : Session).tan.role ≠ 2) ∧ ((sf : Session).kind = 0) ∧ (frameStarted (sf : Session) (7 : Nat) = true) := by
  refine ⟨?_, ?_, ?_, ?_, ?_⟩ <;> first | decide | rfl | (apply ok_of; decide +kernel)

theorem test_met_feedbackAck_2 :
    (Takes (sg : State) ({ fn := 0, ring := 0, cid := 7, token := 5 } : Hdr)) ∧
    (tokenSession (sg : State) ({ fn := 0, ring := 0, cid := 7, token := 5 } : Hdr).fn ({ fn := 0, ring := 0, cid := 7, token := 5 } : Hdr).token = some ((5 : Nat), (sf : Session))) ∧
    ((sf : Session).tan.role ≠ 2) ∧ ((sf : Session).kind = 0) ∧ ((0 : Nat) ≠ 0 ∨ frameStarted (sf : Session) (8 : Nat) = false) := by
  refine ⟨?_, ?_, ?_, ?_, ?_⟩ <;> first | decide | rfl | (apply ok_of; decide +kernel)

theorem test_met_feedbackLoss :
    (Takes ({ sg with sessions := [(5, { sf with ltr := { sf.ltr with loss := some 7 } })] } : State) ({ fn := 0, ring := 0, cid := 7, token := 5 } : Hdr)) ∧
    (tokenSession ({ sg with sessions := [(5, { sf with ltr := { sf.ltr with loss := some 7 } })] } : State) ({ fn := 0, ring := 0, cid := 7, token := 5 } : Hdr).fn ({ fn := 0, ring := 0, cid := 7, token := 5 } : Hdr).token = some ((5 : Nat), ({ sf with ltr := { sf.ltr with loss := some 7 } } : Session))) ∧
    (({ sf with ltr := { sf.ltr with loss := some 7 } } : Session).tan.role ≠ 2) ∧
    (({ sf with ltr := { sf.ltr with loss := some 7 } } : Session).kind = 0) ∧
    (frameStarted ({ sf with ltr := { sf.ltr with loss := some 7 } } : Session) (6 : Nat) = true) := by
  refine ⟨?_, ?_, ?_, ?_, ?_⟩ <;> first | decide | rfl | (apply ok_of; decide +kernel)

theorem test_met_feedbackKeyRequest :
    (Takes (sg : State) ({ fn := 0, ring := 0, cid := 7, token := 5 } : Hdr)) ∧
    (tokenSession (sg : State) ({ fn := 0, ring := 0, cid := 7, token := 5 } : Hdr).fn ({ fn := 0, ring := 0, cid := 7, token := 5 } : Hdr).token = some ((5 : Nat), (sf : Session))) ∧
    ((sf : Session).tan.role ≠ 2) ∧ ((sf : Session).kind = 0) := by
  refine ⟨?_, ?_, ?_, ?_⟩ <;> first | decide | rfl | (apply ok_of; decide +kernel)

theorem test_met_feedbackRateReport :
    (Takes (sg : State) ({ fn := 0, ring := 0, cid := 7, token := 5 } : Hdr)) ∧
    (tokenSession (sg : State) ({ fn := 0, ring := 0, cid := 7, token := 5 } : Hdr).fn ({ fn := 0, ring := 0, cid := 7, token := 5 } : Hdr).token = some ((5 : Nat), (sf : Session))) ∧
    ((sf : Session).tan.role ≠ 2) ∧ ((sf : Session).kind = 0) ∧ (look (sg : State).sessions (5 : Nat) = some (sf : Session)) ∧
    ((sf : Session).rate.adapt = false) := by
  refine ⟨?_, ?_, ?_, ?_, ?_, ?_⟩ <;> first | decide | rfl | (apply ok_of; decide +kernel)

theorem test_met_feedbackRateReport_2 :
    (Takes ({ sg with sessions := [(5, { sf with rate := { sf.rate with adapt := true } })] } : State) ({ fn := 0, ring := 0, cid := 7, token := 5 } : Hdr)) ∧
    (tokenSession ({ sg with sessions := [(5, { sf with rate := { sf.rate with adapt := true } })] } : State) ({ fn := 0, ring := 0, cid := 7, token := 5 } : Hdr).fn ({ fn := 0, ring := 0, cid := 7, token := 5 } : Hdr).token = some ((5 : Nat), ({ sf with rate := { sf.rate with adapt := true } } : Session))) ∧
    (({ sf with rate := { sf.rate with adapt := true } } : Session).tan.role ≠ 2) ∧
    (({ sf with rate := { sf.rate with adapt := true } } : Session).kind = 0) ∧
    (look ({ sg with sessions := [(5, { sf with rate := { sf.rate with adapt := true } })] } : State).sessions (5 : Nat) = some ({ sf with rate := { sf.rate with adapt := true } } : Session)) ∧
    (({ sf with rate := { sf.rate with adapt := true } } : Session).rate.adapt = true) ∧
    (({ sf with rate := { sf.rate with adapt := true } } : Session).rate.lossHi ≤ (255 : Nat)) ∧
    (({ sf with rate := { sf.rate with adapt := true } } : Session).rate.lastDec = none) ∧
    (({ sg with sessions := [(5, { sf with rate := { sf.rate with adapt := true } })] } : State).dev.safe = false) ∧
    (32 ≤ (fnOf ({ sg with sessions := [(5, { sf with rate := { sf.rate with adapt := true } })] } : State) ({ sf with rate := { sf.rate with adapt := true } } : Session).fn).ev.front.length →
    (fnOf ({ sg with sessions := [(5, { sf with rate := { sf.rate with adapt := true } })] } : State) ({ sf with rate := { sf.rate with adapt := true } } : Session).fn).ev.room = true) := by
  refine ⟨?_, ?_, ?_, ?_, ?_, ?_, ?_, ?_, ?_, ?_⟩ <;> first | decide | rfl | (apply ok_of; decide +kernel)

/-! Hypotheses of KeysSnapshotsAndInvalidEntries are met. -/

theorem test_met_keyLoad :
    (Takes (sg : State) ({ fn := 0, ring := 0, cid := 7, token := 5 } : Hdr)) ∧
    (keyCode ({ fn := 0, ring := 0, cid := 7, token := 5 } : Hdr) ({ kind := 1, ownerFn := 0, slot := 0, addr := 8, blob := goodBlob, pad := 0 } : KeyOps) = none) ∧
    (keySession (sg : State) ({ fn := 0, ring := 0, cid := 7, token := 5 } : Hdr) ({ kind := 1, ownerFn := 0, slot := 0, addr := 8, blob := goodBlob, pad := 0 } : KeyOps) = some ((5 : Nat), (sf : Session))) ∧
    ((sf : Session).tan.role = 0) ∧ (blobOk ({ kind := 1, ownerFn := 0, slot := 0, addr := 8, blob := goodBlob, pad := 0 } : KeyOps) = true) ∧
    (freeSlot (sg : State) = some (0 : Nat)) := by
  refine ⟨?_, ?_, ?_, ?_, ?_, ?_⟩ <;> first | decide | rfl | (decide +kernel)

theorem test_met_keyLoad_2 :
    (Takes (sg : State) ({ fn := 0, ring := 0, cid := 7, token := 5 } : Hdr)) ∧
    (keyCode ({ fn := 0, ring := 0, cid := 7, token := 5 } : Hdr) ({ kind := 1, ownerFn := 0, slot := 0, addr := 8, blob := [], pad := 0 } : KeyOps) = none) ∧
    (keySession (sg : State) ({ fn := 0, ring := 0, cid := 7, token := 5 } : Hdr) ({ kind := 1, ownerFn := 0, slot := 0, addr := 8, blob := [], pad := 0 } : KeyOps) = some ((5 : Nat), (sf : Session))) ∧
    ((sf : Session).tan.role ≠ 2) ∧
    (({ kind := 1, ownerFn := 0, slot := 0, addr := 8, blob := [], pad := 0 } : KeyOps).blob.length ≠ 176 ∨ slice ({ kind := 1, ownerFn := 0, slot := 0, addr := 8, blob := [], pad := 0 } : KeyOps).blob 0 4 ≠ [0x57, 0x4B, 0x45, 0x59] ∨ le ({ kind := 1, ownerFn := 0, slot := 0, addr := 8, blob := [], pad := 0 } : KeyOps).blob 4 1 ≠ ({ kind := 1, ownerFn := 0, slot := 0, addr := 8, blob := [], pad := 0 } : KeyOps).kind ∨ keyLenOk ({ kind := 1, ownerFn := 0, slot := 0, addr := 8, blob := [], pad := 0 } : KeyOps).kind (le ({ kind := 1, ownerFn := 0, slot := 0, addr := 8, blob := [], pad := 0 } : KeyOps).blob 5 1) = false ∨ 64 < le ({ kind := 1, ownerFn := 0, slot := 0, addr := 8, blob := [], pad := 0 } : KeyOps).blob 0x68 2) := by
  refine ⟨?_, ?_, ?_, ?_, ?_⟩ <;> first | decide | rfl | (apply ok_of; decide +kernel)

theorem test_met_keyErase :
    (Takes ({ sg with sec := { sg.sec with keys := [(3, { kind := 0, ownerFn := 0, handle := some 5, len := 16, material := 9, salt := 0 })] } } : State) ({ fn := 0, ring := 0, cid := 7, token := 5 } : Hdr)) ∧
    (({ kind := 0, ownerFn := 0, slot := 3, addr := 0, blob := [], pad := 0 } : KeyOps).kind = 0) ∧
    (({ kind := 0, ownerFn := 0, slot := 3, addr := 0, blob := [], pad := 0 } : KeyOps).ownerFn = ({ fn := 0, ring := 0, cid := 7, token := 5 } : Hdr).fn) ∧
    (({ kind := 0, ownerFn := 0, slot := 3, addr := 0, blob := [], pad := 0 } : KeyOps).ownerFn ≤ 255) ∧
    (({ kind := 0, ownerFn := 0, slot := 3, addr := 0, blob := [], pad := 0 } : KeyOps).pad = 0) ∧
    (({ kind := 0, ownerFn := 0, slot := 3, addr := 0, blob := [], pad := 0 } : KeyOps).addr = 0) ∧
    (keySession ({ sg with sec := { sg.sec with keys := [(3, { kind := 0, ownerFn := 0, handle := some 5, len := 16, material := 9, salt := 0 })] } } : State) ({ fn := 0, ring := 0, cid := 7, token := 5 } : Hdr) ({ kind := 0, ownerFn := 0, slot := 3, addr := 0, blob := [], pad := 0 } : KeyOps) = some ((5, sf) : Nat × Session)) ∧
    (look ({ sg with sec := { sg.sec with keys := [(3, { kind := 0, ownerFn := 0, handle := some 5, len := 16, material := 9, salt := 0 })] } } : State).sec.keys ({ kind := 0, ownerFn := 0, slot := 3, addr := 0, blob := [], pad := 0 } : KeyOps).slot = some ({ kind := 0, ownerFn := 0, handle := some 5, len := 16, material := 9, salt := 0 } : Key)) ∧
    (({ kind := 0, ownerFn := 0, handle := some 5, len := 16, material := 9, salt := 0 } : Key).ownerFn = ({ kind := 0, ownerFn := 0, slot := 3, addr := 0, blob := [], pad := 0 } : KeyOps).ownerFn) ∧
    (keyInUse ({ sg with sec := { sg.sec with keys := [(3, { kind := 0, ownerFn := 0, handle := some 5, len := 16, material := 9, salt := 0 })] } } : State) ({ kind := 0, ownerFn := 0, slot := 3, addr := 0, blob := [], pad := 0 } : KeyOps).slot = false) := by
  refine ⟨?_, ?_, ?_, ?_, ?_, ?_, ?_, ?_, ?_, ?_⟩ <;> first | decide | rfl | (apply ok_of; decide +kernel)

theorem test_met_keyErase_2 :
    (Takes ({ sg with sec := { sg.sec with keys := [(3, { kind := 0, ownerFn := 2, handle := some 5, len := 16, material := 9, salt := 0 })] } } : State) ({ fn := 0, ring := 0, cid := 7, token := 5 } : Hdr)) ∧
    (({ kind := 0, ownerFn := 0, slot := 3, addr := 0, blob := [], pad := 0 } : KeyOps).kind = 0) ∧
    (({ kind := 0, ownerFn := 0, slot := 3, addr := 0, blob := [], pad := 0 } : KeyOps).ownerFn = ({ fn := 0, ring := 0, cid := 7, token := 5 } : Hdr).fn) ∧
    (({ kind := 0, ownerFn := 0, slot := 3, addr := 0, blob := [], pad := 0 } : KeyOps).ownerFn ≤ 255) ∧
    (({ kind := 0, ownerFn := 0, slot := 3, addr := 0, blob := [], pad := 0 } : KeyOps).pad = 0) ∧
    (({ kind := 0, ownerFn := 0, slot := 3, addr := 0, blob := [], pad := 0 } : KeyOps).addr = 0) ∧
    (keySession ({ sg with sec := { sg.sec with keys := [(3, { kind := 0, ownerFn := 2, handle := some 5, len := 16, material := 9, salt := 0 })] } } : State) ({ fn := 0, ring := 0, cid := 7, token := 5 } : Hdr) ({ kind := 0, ownerFn := 0, slot := 3, addr := 0, blob := [], pad := 0 } : KeyOps) = some ((5, sf) : Nat × Session)) ∧
    (look ({ sg with sec := { sg.sec with keys := [(3, { kind := 0, ownerFn := 2, handle := some 5, len := 16, material := 9, salt := 0 })] } } : State).sec.keys ({ kind := 0, ownerFn := 0, slot := 3, addr := 0, blob := [], pad := 0 } : KeyOps).slot = some ({ kind := 0, ownerFn := 2, handle := some 5, len := 16, material := 9, salt := 0 } : Key)) ∧
    (({ kind := 0, ownerFn := 2, handle := some 5, len := 16, material := 9, salt := 0 } : Key).ownerFn ≠ ({ kind := 0, ownerFn := 0, slot := 3, addr := 0, blob := [], pad := 0 } : KeyOps).ownerFn) := by
  refine ⟨?_, ?_, ?_, ?_, ?_, ?_, ?_, ?_, ?_⟩ <;> first | decide | rfl | (apply ok_of; decide +kernel)

theorem test_met_snapshotSession :
    (Takes (dd (sb) : State) ({ fn := 0, ring := 0, cid := 7, token := 5 } : Hdr)) ∧
    (tokenSession (dd (sb) : State) ({ fn := 0, ring := 0, cid := 7, token := 5 } : Hdr).fn ({ fn := 0, ring := 0, cid := 7, token := 5 } : Hdr).token = some ((5 : Nat), (sb : Session))) ∧
    ((128 : DWord).toNat % 64 = 0) := by
  refine ⟨?_, ?_, ?_⟩ <;> first | decide | rfl | (apply ok_of; decide +kernel)

theorem test_met_snapshotSession_2 :
    (Takes (dd (sb) : State) ({ fn := 0, ring := 0, cid := 7, token := 5 } : Hdr)) ∧
    (tokenSession (dd (sb) : State) ({ fn := 0, ring := 0, cid := 7, token := 5 } : Hdr).fn ({ fn := 0, ring := 0, cid := 7, token := 5 } : Hdr).token = some ((5 : Nat), (sb : Session))) ∧
    ((0 : Nat) ≠ 0 ∨ (8 : DWord).toNat % 64 ≠ 0) := by
  refine ⟨?_, ?_, ?_⟩ <;> first | decide | rfl | (apply ok_of; decide +kernel)

theorem test_met_snapshotFunction :
    (Hears (sg : State) ({ fn := 0, ring := 0, cid := 7, token := 0 } : Hdr)) ∧ (({ fn := 0, ring := 0, cid := 7, token := 0 } : Hdr).token = 0) ∧
    ((128 : DWord).toNat % 64 = 0) := by
  refine ⟨?_, ?_, ?_⟩ <;> first | decide | rfl | (apply ok_of; decide +kernel)

theorem test_met_commandEntryInvalid :
    (Runs (sg : State)) ∧
    (fnOn (sg : State) ({ fn := 0, ring := 0, cid := 3, opcode := 0x10, flags := 0, token := 0, resv := 0, sel := 0, keyKind := 0, keyFn := 0 } : RawEntry).fn = true) ∧
    (sessionEntry ({ fn := 0, ring := 0, cid := 3, opcode := 0x10, flags := 0, token := 0, resv := 0, sel := 0, keyKind := 0, keyFn := 0 } : RawEntry) = false ∨ (sg : State).bell.window ≠ .guard) ∧
    (entryCode ({ fn := 0, ring := 0, cid := 3, opcode := 0x10, flags := 0, token := 0, resv := 0, sel := 0, keyKind := 0, keyFn := 0 } : RawEntry) = some (0x0401 : Code)) := by
  refine ⟨?_, ?_, ?_, ?_⟩ <;> first | decide | rfl | (apply ok_of; decide +kernel)

theorem test_met_commandEntryInvalid_2 :
    (Runs (sg : State)) ∧
    (fnOn (sg : State) ({ fn := 0, ring := 0, cid := 3, opcode := 0x02, flags := 0, token := 5, resv := 0, sel := 4, keyKind := 0, keyFn := 0 } : RawEntry).fn = true) ∧
    (sessionEntry ({ fn := 0, ring := 0, cid := 3, opcode := 0x02, flags := 0, token := 5, resv := 0, sel := 4, keyKind := 0, keyFn := 0 } : RawEntry) = false ∨ (sg : State).bell.window ≠ .guard) ∧
    (entryCode ({ fn := 0, ring := 0, cid := 3, opcode := 0x02, flags := 0, token := 5, resv := 0, sel := 4, keyKind := 0, keyFn := 0 } : RawEntry) = none) ∧
    (selectorCode ({ fn := 0, ring := 0, cid := 3, opcode := 0x02, flags := 0, token := 5, resv := 0, sel := 4, keyKind := 0, keyFn := 0 } : RawEntry).opcode = some ((3 : Nat), (0x0206 : Code))) ∧
    ((3 : Nat) < ({ fn := 0, ring := 0, cid := 3, opcode := 0x02, flags := 0, token := 5, resv := 0, sel := 4, keyKind := 0, keyFn := 0 } : RawEntry).sel) := by
  refine ⟨?_, ?_, ?_, ?_, ?_, ?_⟩ <;> first | decide | rfl | (apply ok_of; decide +kernel)

theorem test_met_commandEntryInvalid_3 :
    (Runs ({ sg with bell := { sg.bell with window := .guard } } : State)) ∧
    (fnOn ({ sg with bell := { sg.bell with window := .guard } } : State) ({ fn := 0, ring := 0, cid := 3, opcode := 0x02, flags := 0, token := 5, resv := 0, sel := 4, keyKind := 0, keyFn := 0 } : RawEntry).fn = true) ∧
    (sessionEntry ({ fn := 0, ring := 0, cid := 3, opcode := 0x02, flags := 0, token := 5, resv := 0, sel := 4, keyKind := 0, keyFn := 0 } : RawEntry) = true) ∧
    (({ sg with bell := { sg.bell with window := .guard } } : State).bell.window = .guard) := by
  refine ⟨?_, ?_, ?_, ?_⟩ <;> first | decide | rfl | (apply ok_of; decide +kernel)

/-! Hypotheses of ReceiversAndReceiveQueues are met. -/

theorem test_met_attachReceiver :
    (Takes ({ sg with net := { sg.net with ctrl := 1, ports := [(0, { NetPort.reset with cfg := 1, ipv4 := 1 })] }, sec := { sg.sec with keys := [(3, { kind := 1, ownerFn := 0, handle := some 5, len := 16, material := 9, salt := 8 })] } } : State) ({ fn := 0, ring := 0, cid := 7, token := 5 } : Hdr)) ∧
    (tokenSession ({ sg with net := { sg.net with ctrl := 1, ports := [(0, { NetPort.reset with cfg := 1, ipv4 := 1 })] }, sec := { sg.sec with keys := [(3, { kind := 1, ownerFn := 0, handle := some 5, len := 16, material := 9, salt := 8 })] } } : State) ({ fn := 0, ring := 0, cid := 7, token := 5 } : Hdr).fn ({ fn := 0, ring := 0, cid := 7, token := 5 } : Hdr).token = some ((5 : Nat), (sf : Session))) ∧
    ((sf : Session).tan.role = 0) ∧
    (look ({ sg with net := { sg.net with ctrl := 1, ports := [(0, { NetPort.reset with cfg := 1, ipv4 := 1 })] }, sec := { sg.sec with keys := [(3, { kind := 1, ownerFn := 0, handle := some 5, len := 16, material := 9, salt := 8 })] } } : State).sessions (5 : Nat) = some (sf : Session)) ∧
    (attachCode ({ sg with net := { sg.net with ctrl := 1, ports := [(0, { NetPort.reset with cfg := 1, ipv4 := 1 })] }, sec := { sg.sec with keys := [(3, { kind := 1, ownerFn := 0, handle := some 5, len := 16, material := 9, salt := 8 })] } } : State) ({ fn := 0, ring := 0, cid := 7, token := 5 } : Hdr).fn (sf : Session) ({ port := 0, flags := 0, cls := 0, rxq := 0, rxqEn := false, vlan := 0, localPort := 9, remoteIp := 0, remotePort := 9, nextHop := 0, keySlot := 3, suite := 1, pt := 96, mtu := 1280, weight := 1, deadline := 0, paceMax := 1, paceMin := 1, burst := 9, pacePct := 0, policeRate := 1, policeBurst := 1, pad := 0 } : AttachOps) = none) ∧
    (freeFlow ({ sg with net := { sg.net with ctrl := 1, ports := [(0, { NetPort.reset with cfg := 1, ipv4 := 1 })] }, sec := { sg.sec with keys := [(3, { kind := 1, ownerFn := 0, handle := some 5, len := 16, material := 9, salt := 8 })] } } : State) = some (0 : Nat)) := by
  refine ⟨?_, ?_, ?_, ?_, ?_, ?_⟩ <;> first | decide | rfl | (apply ok_of; decide +kernel)

theorem test_met_attachReceiver_2 :
    (Takes (sg : State) ({ fn := 0, ring := 0, cid := 7, token := 5 } : Hdr)) ∧
    (tokenSession (sg : State) ({ fn := 0, ring := 0, cid := 7, token := 5 } : Hdr).fn ({ fn := 0, ring := 0, cid := 7, token := 5 } : Hdr).token = some ((5 : Nat), (sf : Session))) ∧
    ((sf : Session).tan.role ≠ 2) ∧
    (attachCode (sg : State) ({ fn := 0, ring := 0, cid := 7, token := 5 } : Hdr).fn (sf : Session) ({ port := 0, flags := 0, cls := 0, rxq := 0, rxqEn := false, vlan := 0, localPort := 9, remoteIp := 0, remotePort := 9, nextHop := 0, keySlot := 3, suite := 1, pt := 96, mtu := 1280, weight := 1, deadline := 0, paceMax := 1, paceMin := 1, burst := 9, pacePct := 0, policeRate := 1, policeBurst := 1, pad := 0 } : AttachOps) = some (0x0701 : Code)) := by
  refine ⟨?_, ?_, ?_, ?_⟩ <;> first | decide | rfl | (apply ok_of; decide +kernel)

theorem test_met_attachIngress :
    (Hears ({ sg with net := { sg.net with ctrl := 1, ports := [(0, { NetPort.reset with cfg := 1, ipv4 := 1 })] }, sec := { sg.sec with keys := [(3, { kind := 1, ownerFn := 0, handle := some 5, len := 16, material := 9, salt := 8 })] } } : State) ({ fn := 0, ring := 0, cid := 7, token := 0 } : Hdr)) ∧
    (ingressCode ({ sg with net := { sg.net with ctrl := 1, ports := [(0, { NetPort.reset with cfg := 1, ipv4 := 1 })] }, sec := { sg.sec with keys := [(3, { kind := 1, ownerFn := 0, handle := some 5, len := 16, material := 9, salt := 8 })] } } : State) ({ fn := 0, ring := 0, cid := 7, token := 0 } : Hdr).fn ({ fn := 0, ring := 0, cid := 7, token := 0 } : Hdr).token ({ port := 0, flags := 0, rxq := 0, rxqEn := false, vlan := 0, localPort := 9, remoteIp := 0, remotePort := 9, keySlot := 0, suite := 0, policeRate := 64000, policeBurst := 2048, pad := 0 } : IngressOps) = none) ∧
    (freeFlow ({ sg with net := { sg.net with ctrl := 1, ports := [(0, { NetPort.reset with cfg := 1, ipv4 := 1 })] }, sec := { sg.sec with keys := [(3, { kind := 1, ownerFn := 0, handle := some 5, len := 16, material := 9, salt := 8 })] } } : State) = some (0 : Nat)) := by
  refine ⟨?_, ?_, ?_⟩ <;> first | decide | rfl | (apply ok_of; decide +kernel)

theorem test_met_bindRxQueue :
    (Hears ({ sg with net := { sg.net with ctrl := 1 }, sec := { sg.sec with keys := [(3, { kind := 1, ownerFn := 0, handle := some 5, len := 16, material := 9, salt := 8 })] } } : State) ({ fn := 0, ring := 0, cid := 7, token := 0 } : Hdr)) ∧
    (bit ({ sg with net := { sg.net with ctrl := 1 }, sec := { sg.sec with keys := [(3, { kind := 1, ownerFn := 0, handle := some 5, len := 16, material := 9, salt := 8 })] } } : State).net.ctrl 0 = true) ∧
    (({ fn := 0, ring := 0, cid := 7, token := 0 } : Hdr).token = 0) ∧
    (({ queue := 7, entry := 1, entries := 64, ringAddr := 4096, pad := 0 } : RxqOps).pad = 0) ∧
    (({ queue := 7, entry := 1, entries := 64, ringAddr := 4096, pad := 0 } : RxqOps).queue < 8) ∧
    (({ queue := 7, entry := 1, entries := 64, ringAddr := 4096, pad := 0 } : RxqOps).entry ≤ 1) ∧
    ((List.range 11).any (fun k => decide (({ queue := 7, entry := 1, entries := 64, ringAddr := 4096, pad := 0 } : RxqOps).entries = 2 ^ (k + 6))) = true) ∧
    (({ queue := 7, entry := 1, entries := 64, ringAddr := 4096, pad := 0 } : RxqOps).ringAddr.toNat % 4096 = 0) := by
  refine ⟨?_, ?_, ?_, ?_, ?_, ?_, ?_, ?_⟩ <;> first | decide | rfl | (apply ok_of; decide +kernel)

theorem test_met_detachReceiver :
    (Hears ({ sg with net := { sg.net with ctrl := 1, flows := [(2, { newFlow 0 { port := 0, flags := 0, cls := 0, rxq := 0, rxqEn := false, vlan := 0, localPort := 9, remoteIp := 0, remotePort := 9, nextHop := 0, keySlot := 3, suite := 1, pt := 96, mtu := 1280, weight := 1, deadline := 0, paceMax := 1, paceMin := 1, burst := 9, pacePct := 0, policeRate := 1, policeBurst := 1, pad := 0 } 5 0 with kind := 1, detach := none })] }, sec := { sg.sec with keys := [(3, { kind := 1, ownerFn := 0, handle := some 5, len := 16, material := 9, salt := 8 })] } } : State) ({ fn := 0, ring := 0, cid := 7, token := 0 } : Hdr)) ∧
    (bit ({ sg with net := { sg.net with ctrl := 1, flows := [(2, { newFlow 0 { port := 0, flags := 0, cls := 0, rxq := 0, rxqEn := false, vlan := 0, localPort := 9, remoteIp := 0, remotePort := 9, nextHop := 0, keySlot := 3, suite := 1, pt := 96, mtu := 1280, weight := 1, deadline := 0, paceMax := 1, paceMin := 1, burst := 9, pacePct := 0, policeRate := 1, policeBurst := 1, pad := 0 } 5 0 with kind := 1, detach := none })] }, sec := { sg.sec with keys := [(3, { kind := 1, ownerFn := 0, handle := some 5, len := 16, material := 9, salt := 8 })] } } : State).net.ctrl 0 = true) ∧
    (({ fn := 0, ring := 0, cid := 7, token := 0 } : Hdr).token = 0) ∧
    (look ({ sg with net := { sg.net with ctrl := 1, flows := [(2, { newFlow 0 { port := 0, flags := 0, cls := 0, rxq := 0, rxqEn := false, vlan := 0, localPort := 9, remoteIp := 0, remotePort := 9, nextHop := 0, keySlot := 3, suite := 1, pt := 96, mtu := 1280, weight := 1, deadline := 0, paceMax := 1, paceMin := 1, burst := 9, pacePct := 0, policeRate := 1, policeBurst := 1, pad := 0 } 5 0 with kind := 1, detach := none })] }, sec := { sg.sec with keys := [(3, { kind := 1, ownerFn := 0, handle := some 5, len := 16, material := 9, salt := 8 })] } } : State).net.flows (2 : Nat) = some ({ newFlow 0 { port := 0, flags := 0, cls := 0, rxq := 0, rxqEn := false, vlan := 0, localPort := 9, remoteIp := 0, remotePort := 9, nextHop := 0, keySlot := 3, suite := 1, pt := 96, mtu := 1280, weight := 1, deadline := 0, paceMax := 1, paceMin := 1, burst := 9, pacePct := 0, policeRate := 1, policeBurst := 1, pad := 0 } 5 0 with kind := 1, detach := none } : Flow)) ∧
    (({ newFlow 0 { port := 0, flags := 0, cls := 0, rxq := 0, rxqEn := false, vlan := 0, localPort := 9, remoteIp := 0, remotePort := 9, nextHop := 0, keySlot := 3, suite := 1, pt := 96, mtu := 1280, weight := 1, deadline := 0, paceMax := 1, paceMin := 1, burst := 9, pacePct := 0, policeRate := 1, policeBurst := 1, pad := 0 } 5 0 with kind := 1, detach := none } : Flow).fn = ({ fn := 0, ring := 0, cid := 7, token := 0 } : Hdr).fn ∨ ({ fn := 0, ring := 0, cid := 7, token := 0 } : Hdr).fn = 0) ∧
    (({ newFlow 0 { port := 0, flags := 0, cls := 0, rxq := 0, rxqEn := false, vlan := 0, localPort := 9, remoteIp := 0, remotePort := 9, nextHop := 0, keySlot := 3, suite := 1, pt := 96, mtu := 1280, weight := 1, deadline := 0, paceMax := 1, paceMin := 1, burst := 9, pacePct := 0, policeRate := 1, policeBurst := 1, pad := 0 } 5 0 with kind := 1, detach := none } : Flow).detach = none) ∧
    (({ newFlow 0 { port := 0, flags := 0, cls := 0, rxq := 0, rxqEn := false, vlan := 0, localPort := 9, remoteIp := 0, remotePort := 9, nextHop := 0, keySlot := 3, suite := 1, pt := 96, mtu := 1280, weight := 1, deadline := 0, paceMax := 1, paceMin := 1, burst := 9, pacePct := 0, policeRate := 1, policeBurst := 1, pad := 0 } 5 0 with kind := 1, detach := none } : Flow).session = none ∨ ({ newFlow 0 { port := 0, flags := 0, cls := 0, rxq := 0, rxqEn := false, vlan := 0, localPort := 9, remoteIp := 0, remotePort := 9, nextHop := 0, keySlot := 3, suite := 1, pt := 96, mtu := 1280, weight := 1, deadline := 0, paceMax := 1, paceMin := 1, burst := 9, pacePct := 0, policeRate := 1, policeBurst := 1, pad := 0 } 5 0 with kind := 1, detach := none } : Flow).kind ≠ 0) := by
  refine ⟨?_, ?_, ?_, ?_, ?_, ?_, ?_⟩ <;> first | decide | rfl | (apply ok_of; decide +kernel)

theorem test_met_detachReceiver_2 :
    (Hears ({ sg with net := { sg.net with ctrl := 1, flows := [(2, { newFlow 0 { port := 0, flags := 0, cls := 0, rxq := 0, rxqEn := false, vlan := 0, localPort := 9, remoteIp := 0, remotePort := 9, nextHop := 0, keySlot := 3, suite := 1, pt := 96, mtu := 1280, weight := 1, deadline := 0, paceMax := 1, paceMin := 1, burst := 9, pacePct := 0, policeRate := 1, policeBurst := 1, pad := 0 } 5 0 with detach := none })] }, sec := { sg.sec with keys := [(3, { kind := 1, ownerFn := 0, handle := some 5, len := 16, material := 9, salt := 8 })] } } : State) ({ fn := 0, ring := 0, cid := 7, token := 0 } : Hdr)) ∧
    (bit ({ sg with net := { sg.net with ctrl := 1, flows := [(2, { newFlow 0 { port := 0, flags := 0, cls := 0, rxq := 0, rxqEn := false, vlan := 0, localPort := 9, remoteIp := 0, remotePort := 9, nextHop := 0, keySlot := 3, suite := 1, pt := 96, mtu := 1280, weight := 1, deadline := 0, paceMax := 1, paceMin := 1, burst := 9, pacePct := 0, policeRate := 1, policeBurst := 1, pad := 0 } 5 0 with detach := none })] }, sec := { sg.sec with keys := [(3, { kind := 1, ownerFn := 0, handle := some 5, len := 16, material := 9, salt := 8 })] } } : State).net.ctrl 0 = true) ∧
    (({ fn := 0, ring := 0, cid := 7, token := 0 } : Hdr).token = 0) ∧
    (look ({ sg with net := { sg.net with ctrl := 1, flows := [(2, { newFlow 0 { port := 0, flags := 0, cls := 0, rxq := 0, rxqEn := false, vlan := 0, localPort := 9, remoteIp := 0, remotePort := 9, nextHop := 0, keySlot := 3, suite := 1, pt := 96, mtu := 1280, weight := 1, deadline := 0, paceMax := 1, paceMin := 1, burst := 9, pacePct := 0, policeRate := 1, policeBurst := 1, pad := 0 } 5 0 with detach := none })] }, sec := { sg.sec with keys := [(3, { kind := 1, ownerFn := 0, handle := some 5, len := 16, material := 9, salt := 8 })] } } : State).net.flows (2 : Nat) = some ({ newFlow 0 { port := 0, flags := 0, cls := 0, rxq := 0, rxqEn := false, vlan := 0, localPort := 9, remoteIp := 0, remotePort := 9, nextHop := 0, keySlot := 3, suite := 1, pt := 96, mtu := 1280, weight := 1, deadline := 0, paceMax := 1, paceMin := 1, burst := 9, pacePct := 0, policeRate := 1, policeBurst := 1, pad := 0 } 5 0 with detach := none } : Flow)) ∧
    (({ newFlow 0 { port := 0, flags := 0, cls := 0, rxq := 0, rxqEn := false, vlan := 0, localPort := 9, remoteIp := 0, remotePort := 9, nextHop := 0, keySlot := 3, suite := 1, pt := 96, mtu := 1280, weight := 1, deadline := 0, paceMax := 1, paceMin := 1, burst := 9, pacePct := 0, policeRate := 1, policeBurst := 1, pad := 0 } 5 0 with detach := none } : Flow).fn = ({ fn := 0, ring := 0, cid := 7, token := 0 } : Hdr).fn ∨ ({ fn := 0, ring := 0, cid := 7, token := 0 } : Hdr).fn = 0) ∧
    (({ newFlow 0 { port := 0, flags := 0, cls := 0, rxq := 0, rxqEn := false, vlan := 0, localPort := 9, remoteIp := 0, remotePort := 9, nextHop := 0, keySlot := 3, suite := 1, pt := 96, mtu := 1280, weight := 1, deadline := 0, paceMax := 1, paceMin := 1, burst := 9, pacePct := 0, policeRate := 1, policeBurst := 1, pad := 0 } 5 0 with detach := none } : Flow).detach = none) ∧
    (({ newFlow 0 { port := 0, flags := 0, cls := 0, rxq := 0, rxqEn := false, vlan := 0, localPort := 9, remoteIp := 0, remotePort := 9, nextHop := 0, keySlot := 3, suite := 1, pt := 96, mtu := 1280, weight := 1, deadline := 0, paceMax := 1, paceMin := 1, burst := 9, pacePct := 0, policeRate := 1, policeBurst := 1, pad := 0 } 5 0 with detach := none } : Flow).session = some (5 : Nat)) ∧
    (look ({ sg with net := { sg.net with ctrl := 1, flows := [(2, { newFlow 0 { port := 0, flags := 0, cls := 0, rxq := 0, rxqEn := false, vlan := 0, localPort := 9, remoteIp := 0, remotePort := 9, nextHop := 0, keySlot := 3, suite := 1, pt := 96, mtu := 1280, weight := 1, deadline := 0, paceMax := 1, paceMin := 1, burst := 9, pacePct := 0, policeRate := 1, policeBurst := 1, pad := 0 } 5 0 with detach := none })] }, sec := { sg.sec with keys := [(3, { kind := 1, ownerFn := 0, handle := some 5, len := 16, material := 9, salt := 8 })] } } : State).sessions (5 : Nat) = some (sf : Session)) ∧
    ((sf : Session).tan.role = 0) := by
  refine ⟨?_, ?_, ?_, ?_, ?_, ?_, ?_, ?_, ?_⟩ <;> first | decide | rfl | (apply ok_of; decide +kernel)

theorem test_met_unbindRxQueue :
    (Hears ({ sg with net := { sg.net with ctrl := 1, rxqs := [(7, { entry := 2048, entries := 64, addr := 0, n := 0, held := false, more := false })] }, sec := { sg.sec with keys := [(3, { kind := 1, ownerFn := 0, handle := some 5, len := 16, material := 9, salt := 8 })] } } : State) ({ fn := 0, ring := 0, cid := 7, token := 0 } : Hdr)) ∧
    (bit ({ sg with net := { sg.net with ctrl := 1, rxqs := [(7, { entry := 2048, entries := 64, addr := 0, n := 0, held := false, more := false })] }, sec := { sg.sec with keys := [(3, { kind := 1, ownerFn := 0, handle := some 5, len := 16, material := 9, salt := 8 })] } } : State).net.ctrl 0 = true) ∧
    (({ fn := 0, ring := 0, cid := 7, token := 0 } : Hdr).token = 0) ∧ ((7 : Nat) < 8) ∧
    (look ({ sg with net := { sg.net with ctrl := 1, rxqs := [(7, { entry := 2048, entries := 64, addr := 0, n := 0, held := false, more := false })] }, sec := { sg.sec with keys := [(3, { kind := 1, ownerFn := 0, handle := some 5, len := 16, material := 9, salt := 8 })] } } : State).net.rxqs (({ fn := 0, ring := 0, cid := 7, token := 0 } : Hdr).fn * 8 + (7 : Nat)) = some ({ entry := 2048, entries := 64, addr := 0, n := 0, held := false, more := false } : RxQ)) := by
  refine ⟨?_, ?_, ?_, ?_, ?_⟩ <;> first | decide | rfl | (apply ok_of; decide +kernel)

theorem test_met_unbindRxQueue_2 :
    (Hears (sg : State) ({ fn := 0, ring := 0, cid := 7, token := 0 } : Hdr)) ∧ (bit (sg : State).net.ctrl 0 = false) := by
  refine ⟨?_, ?_⟩ <;> first | decide | rfl | (apply ok_of; decide +kernel)

theorem test_met_detachComplete :
    (Runs ({ sg with net := { sg.net with ctrl := 1, flows := [(2, { newFlow 0 { port := 0, flags := 0, cls := 0, rxq := 0, rxqEn := false, vlan := 0, localPort := 9, remoteIp := 0, remotePort := 9, nextHop := 0, keySlot := 3, suite := 1, pt := 96, mtu := 1280, weight := 1, deadline := 0, paceMax := 1, paceMin := 1, burst := 9, pacePct := 0, policeRate := 1, policeBurst := 1, pad := 0 } 5 0 with detach := some (some { fn := 0, ring := 0, cid := 7, token := 0 }), flushed := true })] }, sec := { sg.sec with keys := [(3, { kind := 1, ownerFn := 0, handle := some 5, len := 16, material := 9, salt := 8 })] } } : State)) ∧
    (({ sg with net := { sg.net with ctrl := 1, flows := [(2, { newFlow 0 { port := 0, flags := 0, cls := 0, rxq := 0, rxqEn := false, vlan := 0, localPort := 9, remoteIp := 0, remotePort := 9, nextHop := 0, keySlot := 3, suite := 1, pt := 96, mtu := 1280, weight := 1, deadline := 0, paceMax := 1, paceMin := 1, burst := 9, pacePct := 0, policeRate := 1, policeBurst := 1, pad := 0 } 5 0 with detach := some (some { fn := 0, ring := 0, cid := 7, token := 0 }), flushed := true })] }, sec := { sg.sec with keys := [(3, { kind := 1, ownerFn := 0, handle := some 5, len := 16, material := 9, salt := 8 })] } } : State).bell.window = .dispatch) ∧
    (look ({ sg with net := { sg.net with ctrl := 1, flows := [(2, { newFlow 0 { port := 0, flags := 0, cls := 0, rxq := 0, rxqEn := false, vlan := 0, localPort := 9, remoteIp := 0, remotePort := 9, nextHop := 0, keySlot := 3, suite := 1, pt := 96, mtu := 1280, weight := 1, deadline := 0, paceMax := 1, paceMin := 1, burst := 9, pacePct := 0, policeRate := 1, policeBurst := 1, pad := 0 } 5 0 with detach := some (some { fn := 0, ring := 0, cid := 7, token := 0 }), flushed := true })] }, sec := { sg.sec with keys := [(3, { kind := 1, ownerFn := 0, handle := some 5, len := 16, material := 9, salt := 8 })] } } : State).net.flows (2 : Nat) = some ({ newFlow 0 { port := 0, flags := 0, cls := 0, rxq := 0, rxqEn := false, vlan := 0, localPort := 9, remoteIp := 0, remotePort := 9, nextHop := 0, keySlot := 3, suite := 1, pt := 96, mtu := 1280, weight := 1, deadline := 0, paceMax := 1, paceMin := 1, burst := 9, pacePct := 0, policeRate := 1, policeBurst := 1, pad := 0 } 5 0 with detach := some (some { fn := 0, ring := 0, cid := 7, token := 0 }), flushed := true } : Flow)) ∧
    (({ newFlow 0 { port := 0, flags := 0, cls := 0, rxq := 0, rxqEn := false, vlan := 0, localPort := 9, remoteIp := 0, remotePort := 9, nextHop := 0, keySlot := 3, suite := 1, pt := 96, mtu := 1280, weight := 1, deadline := 0, paceMax := 1, paceMin := 1, burst := 9, pacePct := 0, policeRate := 1, policeBurst := 1, pad := 0 } 5 0 with detach := some (some { fn := 0, ring := 0, cid := 7, token := 0 }), flushed := true } : Flow).detach = some (some ({ fn := 0, ring := 0, cid := 7, token := 0 } : Hdr))) ∧
    (({ newFlow 0 { port := 0, flags := 0, cls := 0, rxq := 0, rxqEn := false, vlan := 0, localPort := 9, remoteIp := 0, remotePort := 9, nextHop := 0, keySlot := 3, suite := 1, pt := 96, mtu := 1280, weight := 1, deadline := 0, paceMax := 1, paceMin := 1, burst := 9, pacePct := 0, policeRate := 1, policeBurst := 1, pad := 0 } 5 0 with detach := some (some { fn := 0, ring := 0, cid := 7, token := 0 }), flushed := true } : Flow).flushed = true) := by
  refine ⟨?_, ?_, ?_, ?_, ?_⟩ <;> first | decide | rfl | (apply ok_of; decide +kernel)

/-! Hypotheses of DecodeCommandsAreTaken are met. -/

theorem test_met_decodeBind :
    (Takes (dd ({ sb with state := 1, dec := sf.dec }) : State) ({ fn := 0, ring := 0, cid := 7, token := 5 } : Hdr)) ∧
    (tokenSession (dd ({ sb with state := 1, dec := sf.dec }) : State) ({ fn := 0, ring := 0, cid := 7, token := 5 } : Hdr).fn ({ fn := 0, ring := 0, cid := 7, token := 5 } : Hdr).token = some ((5 : Nat), ({ sb with state := 1, dec := sf.dec } : Session))) ∧
    (({ sb with state := 1, dec := sf.dec } : Session).kind = 1) ∧ ((dd ({ sb with state := 1, dec := sf.dec }) : State).dec.en = true) ∧
    (bindCode (dd ({ sb with state := 1, dec := sf.dec }) : State) (5 : Nat) ({ sb with state := 1, dec := sf.dec } : Session) (bo : BindOps) = none) ∧
    ((bo : BindOps).use ≠ 1) := by
  refine ⟨?_, ?_, ?_, ?_, ?_, ?_⟩ <;> first | decide | rfl | (apply ok_of; decide +kernel)

theorem test_met_decodeBind_2 :
    (Takes ({ dd { sb with state := 1, dec := sf.dec } with net := { sg.net with flows := [(2, fi)] } } : State) ({ fn := 0, ring := 0, cid := 7, token := 5 } : Hdr)) ∧
    (tokenSession ({ dd { sb with state := 1, dec := sf.dec } with net := { sg.net with flows := [(2, fi)] } } : State) ({ fn := 0, ring := 0, cid := 7, token := 5 } : Hdr).fn ({ fn := 0, ring := 0, cid := 7, token := 5 } : Hdr).token = some ((5 : Nat), ({ sb with state := 1, dec := sf.dec } : Session))) ∧
    (({ sb with state := 1, dec := sf.dec } : Session).kind = 1) ∧
    (({ dd { sb with state := 1, dec := sf.dec } with net := { sg.net with flows := [(2, fi)] } } : State).dec.en = true) ∧
    (bindCode ({ dd { sb with state := 1, dec := sf.dec } with net := { sg.net with flows := [(2, fi)] } } : State) (5 : Nat) ({ sb with state := 1, dec := sf.dec } : Session) ({ bo with use := 1, flow := 2, reorderBells := 2 } : BindOps) = none) ∧
    (({ bo with use := 1, flow := 2, reorderBells := 2 } : BindOps).use = 1) := by
  refine ⟨?_, ?_, ?_, ?_, ?_, ?_⟩ <;> first | decide | rfl | (apply ok_of; decide +kernel)

theorem test_met_decodeBind_3 :
    (Takes (dd (sb) : State) ({ fn := 0, ring := 0, cid := 7, token := 5 } : Hdr)) ∧
    (tokenSession (dd (sb) : State) ({ fn := 0, ring := 0, cid := 7, token := 5 } : Hdr).fn ({ fn := 0, ring := 0, cid := 7, token := 5 } : Hdr).token = some ((5 : Nat), (sb : Session))) ∧
    ((sb : Session).kind = 1) ∧ ((dd (sb) : State).dec.en = true) ∧
    (bindCode (dd (sb) : State) (5 : Nat) (sb : Session) ({ bo with pad := 1 } : BindOps) = some (0x0C02 : Code)) := by
  refine ⟨?_, ?_, ?_, ?_, ?_⟩ <;> first | decide | rfl | (apply ok_of; decide +kernel)

theorem test_met_decodeData :
    (Takes (dd (sb) : State) ({ fn := 0, ring := 0, cid := 7, token := 5 } : Hdr)) ∧
    (tokenSession (dd (sb) : State) ({ fn := 0, ring := 0, cid := 7, token := 5 } : Hdr).fn ({ fn := 0, ring := 0, cid := 7, token := 5 } : Hdr).token = some ((5 : Nat), (sb : Session))) ∧
    ((sb : Session).kind = 1) ∧ ((dd (sb) : State).dec.en = true) ∧ (dataCode (sb : Session) ({ da with len := 0 } : DataOps) = some (0x0C06 : Code)) := by
  refine ⟨?_, ?_, ?_, ?_, ?_⟩ <;> first | decide | rfl | (apply ok_of; decide +kernel)

theorem test_met_decodeData_2 :
    (Takes (dd ({ sb with dec := { sb.dec with nChunks := 64 } }) : State) ({ fn := 0, ring := 0, cid := 7, token := 5 } : Hdr)) ∧
    (tokenSession (dd ({ sb with dec := { sb.dec with nChunks := 64 } }) : State) ({ fn := 0, ring := 0, cid := 7, token := 5 } : Hdr).fn ({ fn := 0, ring := 0, cid := 7, token := 5 } : Hdr).token = some ((5 : Nat), ({ sb with dec := { sb.dec with nChunks := 64 } } : Session))) ∧
    (({ sb with dec := { sb.dec with nChunks := 64 } } : Session).kind = 1) ∧
    ((dd ({ sb with dec := { sb.dec with nChunks := 64 } }) : State).dec.en = true) ∧
    (dataCode ({ sb with dec := { sb.dec with nChunks := 64 } } : Session) (da : DataOps) = none) ∧
    (chunkLimit ({ sb with dec := { sb.dec with nChunks := 64 } } : Session).dec (da : DataOps) = true) := by
  refine ⟨?_, ?_, ?_, ?_, ?_, ?_⟩ <;> first | decide | rfl | (apply ok_of; decide +kernel)

theorem test_met_decodeData_3 : (∃ w u, allocate (sessReq 5) da.len true { dd sb with pool := { sg.pool with free := [(0, [(0, 64)])], count := [(0, 64)] } } = (.ok w, u)) ∧ dataCode sb da = none ∧ chunkLimit sb.dec da = false := ⟨⟨_, _, rfl⟩, by decide, by decide⟩

theorem test_met_decodeRelease :
    (Takes (dd (sb) : State) ({ fn := 0, ring := 0, cid := 7, token := 5 } : Hdr)) ∧
    (tokenSession (dd (sb) : State) ({ fn := 0, ring := 0, cid := 7, token := 5 } : Hdr).fn ({ fn := 0, ring := 0, cid := 7, token := 5 } : Hdr).token = some ((5 : Nat), (sb : Session))) ∧
    ((sb : Session).kind = 1) ∧ ((dd (sb) : State).dec.en = true) ∧ ((sb : Session).dec.bind = some (bo : BindOps)) ∧
    ((2 : Nat) < (bo : BindOps).outCount) ∧ (has (sb : Session).dec.held (2 : Nat) = true) := by
  refine ⟨?_, ?_, ?_, ?_, ?_, ?_, ?_⟩ <;> first | decide | rfl | (apply ok_of; decide +kernel)

theorem test_met_decodeFlush :
    (Takes (dd ({ sb with dec := { sb.dec with chunks := [{ hdr := { fn := 0, ring := 0, cid := 7, token := 5 }, ops := da, bind := some bo, bufs := [], dead := false }] } }) : State) ({ fn := 0, ring := 0, cid := 7, token := 5 } : Hdr)) ∧
    (tokenSession (dd ({ sb with dec := { sb.dec with chunks := [{ hdr := { fn := 0, ring := 0, cid := 7, token := 5 }, ops := da, bind := some bo, bufs := [], dead := false }] } }) : State) ({ fn := 0, ring := 0, cid := 7, token := 5 } : Hdr).fn ({ fn := 0, ring := 0, cid := 7, token := 5 } : Hdr).token = some ((5 : Nat), ({ sb with dec := { sb.dec with chunks := [{ hdr := { fn := 0, ring := 0, cid := 7, token := 5 }, ops := da, bind := some bo, bufs := [], dead := false }] } } : Session))) ∧
    (({ sb with dec := { sb.dec with chunks := [{ hdr := { fn := 0, ring := 0, cid := 7, token := 5 }, ops := da, bind := some bo, bufs := [], dead := false }] } } : Session).kind = 1) ∧
    ((dd ({ sb with dec := { sb.dec with chunks := [{ hdr := { fn := 0, ring := 0, cid := 7, token := 5 }, ops := da, bind := some bo, bufs := [], dead := false }] } }) : State).dec.en = true) ∧
    (({ sb with dec := { sb.dec with chunks := [{ hdr := { fn := 0, ring := 0, cid := 7, token := 5 }, ops := da, bind := some bo, bufs := [], dead := false }] } } : Session).dec.bind = some (bo : BindOps)) ∧
    (({ sb with dec := { sb.dec with chunks := [{ hdr := { fn := 0, ring := 0, cid := 7, token := 5 }, ops := da, bind := some bo, bufs := [], dead := false }] } } : Session).dec.flush = none) ∧
    (look (dd ({ sb with dec := { sb.dec with chunks := [{ hdr := { fn := 0, ring := 0, cid := 7, token := 5 }, ops := da, bind := some bo, bufs := [], dead := false }] } }) : State).sessions (5 : Nat) = some ({ sb with dec := { sb.dec with chunks := [{ hdr := { fn := 0, ring := 0, cid := 7, token := 5 }, ops := da, bind := some bo, bufs := [], dead := false }] } } : Session)) ∧
    (({ sb with dec := { sb.dec with chunks := [{ hdr := { fn := 0, ring := 0, cid := 7, token := 5 }, ops := da, bind := some bo, bufs := [], dead := false }] } } : Session).dec.chunks ≠ [] ∨ ({ sb with dec := { sb.dec with chunks := [{ hdr := { fn := 0, ring := 0, cid := 7, token := 5 }, ops := da, bind := some bo, bufs := [], dead := false }] } } : Session).dec.queue ≠ [] ∨ ({ sb with dec := { sb.dec with chunks := [{ hdr := { fn := 0, ring := 0, cid := 7, token := 5 }, ops := da, bind := some bo, bufs := [], dead := false }] } } : Session).dec.peer ≠ []) := by
  refine ⟨?_, ?_, ?_, ?_, ?_, ?_, ?_, ?_⟩ <;> first | decide | rfl | (apply ok_of; decide +kernel)

theorem test_met_decodeFlush_2 :
    (Takes (dd (sb) : State) ({ fn := 0, ring := 0, cid := 7, token := 5 } : Hdr)) ∧
    (tokenSession (dd (sb) : State) ({ fn := 0, ring := 0, cid := 7, token := 5 } : Hdr).fn ({ fn := 0, ring := 0, cid := 7, token := 5 } : Hdr).token = some ((5 : Nat), (sb : Session))) ∧
    ((sb : Session).kind = 1) ∧ ((dd (sb) : State).dec.en = true) ∧ ((sb : Session).dec.bind = some (bo : BindOps)) ∧
    ((sb : Session).dec.flush = none) ∧ (look (dd (sb) : State).sessions (5 : Nat) = some (sb : Session)) ∧ ((sb : Session).dec.chunks = []) ∧
    ((sb : Session).dec.queue = []) ∧ ((sb : Session).dec.peer = []) ∧ ((sb : Session).pics.all (fun p => !p.2.shows) = true) := by
  refine ⟨?_, ?_, ?_, ?_, ?_, ?_, ?_, ?_, ?_, ?_, ?_⟩ <;> first | decide | rfl | (apply ok_of; decide +kernel)

theorem test_met_decodeFlush_3 :
    (Takes (dd ({ sb with dec := { sb.dec with flush := some { fn := 0, ring := 0, cid := 7, token := 5 } } }) : State) ({ fn := 0, ring := 0, cid := 7, token := 5 } : Hdr)) ∧
    (tokenSession (dd ({ sb with dec := { sb.dec with flush := some { fn := 0, ring := 0, cid := 7, token := 5 } } }) : State) ({ fn := 0, ring := 0, cid := 7, token := 5 } : Hdr).fn ({ fn := 0, ring := 0, cid := 7, token := 5 } : Hdr).token = some ((5 : Nat), ({ sb with dec := { sb.dec with flush := some { fn := 0, ring := 0, cid := 7, token := 5 } } } : Session))) ∧
    (({ sb with dec := { sb.dec with flush := some { fn := 0, ring := 0, cid := 7, token := 5 } } } : Session).kind = 1) ∧
    ((dd ({ sb with dec := { sb.dec with flush := some { fn := 0, ring := 0, cid := 7, token := 5 } } }) : State).dec.en = true) ∧
    (({ sb with dec := { sb.dec with flush := some { fn := 0, ring := 0, cid := 7, token := 5 } } } : Session).dec.bind = some (bo : BindOps)) ∧
    (({ sb with dec := { sb.dec with flush := some { fn := 0, ring := 0, cid := 7, token := 5 } } } : Session).dec.flush = some ({ fn := 0, ring := 0, cid := 7, token := 5 } : Hdr)) := by
  refine ⟨?_, ?_, ?_, ?_, ?_, ?_⟩ <;> first | decide | rfl | (apply ok_of; decide +kernel)

/-! Hypotheses of DecodeWorkEnds are met. -/

theorem test_met_dataCopyDone :
    (Runs (dd ({ sb with dec := { sb.dec with chunks := [{ hdr := { fn := 0, ring := 0, cid := 7, token := 5 }, ops := da, bind := some bo, bufs := [0x60000000], dead := true }] } }) : State)) ∧
    (look (dd ({ sb with dec := { sb.dec with chunks := [{ hdr := { fn := 0, ring := 0, cid := 7, token := 5 }, ops := da, bind := some bo, bufs := [0x60000000], dead := true }] } }) : State).sessions (5 : Nat) = some ({ sb with dec := { sb.dec with chunks := [{ hdr := { fn := 0, ring := 0, cid := 7, token := 5 }, ops := da, bind := some bo, bufs := [0x60000000], dead := true }] } } : Session)) ∧
    (({ sb with dec := { sb.dec with chunks := [{ hdr := { fn := 0, ring := 0, cid := 7, token := 5 }, ops := da, bind := some bo, bufs := [0x60000000], dead := true }] } } : Session).dec.chunks = ({ hdr := { fn := 0, ring := 0, cid := 7, token := 5 }, ops := da, bind := some bo, bufs := [0x60000000], dead := true } : Chunk) :: ([] : List Chunk)) ∧
    (({ hdr := { fn := 0, ring := 0, cid := 7, token := 5 }, ops := da, bind := some bo, bufs := [0x60000000], dead := true } : Chunk).dead = true) := by
  refine ⟨?_, ?_, ?_, ?_⟩ <;> first | decide | rfl | (apply ok_of; decide +kernel)

theorem test_met_dataCopyDone_2 :
    (Runs (dd ({ sb with dec := { sb.dec with chunks := [{ hdr := { fn := 0, ring := 0, cid := 7, token := 5 }, ops := da, bind := some bo, bufs := [0x60000000], dead := false }] } }) : State)) ∧
    (look (dd ({ sb with dec := { sb.dec with chunks := [{ hdr := { fn := 0, ring := 0, cid := 7, token := 5 }, ops := da, bind := some bo, bufs := [0x60000000], dead := false }] } }) : State).sessions (5 : Nat) = some ({ sb with dec := { sb.dec with chunks := [{ hdr := { fn := 0, ring := 0, cid := 7, token := 5 }, ops := da, bind := some bo, bufs := [0x60000000], dead := false }] } } : Session)) ∧
    (({ sb with dec := { sb.dec with chunks := [{ hdr := { fn := 0, ring := 0, cid := 7, token := 5 }, ops := da, bind := some bo, bufs := [0x60000000], dead := false }] } } : Session).dec.chunks = ({ hdr := { fn := 0, ring := 0, cid := 7, token := 5 }, ops := da, bind := some bo, bufs := [0x60000000], dead := false } : Chunk) :: ([] : List Chunk)) ∧
    (({ hdr := { fn := 0, ring := 0, cid := 7, token := 5 }, ops := da, bind := some bo, bufs := [0x60000000], dead := false } : Chunk).dead = false) ∧
    (({ au with readFailed := true } : AuInfo).readFailed = true) := by
  refine ⟨?_, ?_, ?_, ?_, ?_⟩ <;> first | decide | rfl | (apply ok_of; decide +kernel)

theorem test_met_dataCopyDone_3 :
    (Runs (dd ({ sb with dec := { sb.dec with chunks := [{ ({ hdr := { fn := 0, ring := 0, cid := 7, token := 5 }, ops := da, bind := some bo, bufs := [0x60000000], dead := false } : Chunk) with ops := { da with flags := 0 } }] } }) : State)) ∧
    (look (dd ({ sb with dec := { sb.dec with chunks := [{ ({ hdr := { fn := 0, ring := 0, cid := 7, token := 5 }, ops := da, bind := some bo, bufs := [0x60000000], dead := false } : Chunk) with ops := { da with flags := 0 } }] } }) : State).sessions (5 : Nat) = some ({ sb with dec := { sb.dec with chunks := [{ ({ hdr := { fn := 0, ring := 0, cid := 7, token := 5 }, ops := da, bind := some bo, bufs := [0x60000000], dead := false } : Chunk) with ops := { da with flags := 0 } }] } } : Session)) ∧
    (({ sb with dec := { sb.dec with chunks := [{ ({ hdr := { fn := 0, ring := 0, cid := 7, token := 5 }, ops := da, bind := some bo, bufs := [0x60000000], dead := false } : Chunk) with ops := { da with flags := 0 } }] } } : Session).dec.chunks = ({ ({ hdr := { fn := 0, ring := 0, cid := 7, token := 5 }, ops := da, bind := some bo, bufs := [0x60000000], dead := false } : Chunk) with ops := { da with flags := 0 } } : Chunk) :: ([] : List Chunk)) ∧
    (({ ({ hdr := { fn := 0, ring := 0, cid := 7, token := 5 }, ops := da, bind := some bo, bufs := [0x60000000], dead := false } : Chunk) with ops := { da with flags := 0 } } : Chunk).dead = false) ∧
    ((au : AuInfo).readFailed = false) ∧
    (({ ({ hdr := { fn := 0, ring := 0, cid := 7, token := 5 }, ops := da, bind := some bo, bufs := [0x60000000], dead := false } : Chunk) with ops := { da with flags := 0 } } : Chunk).bufs = [(0x60000000 : Word)]) ∧
    (({ sb with dec := { sb.dec with chunks := [{ ({ hdr := { fn := 0, ring := 0, cid := 7, token := 5 }, ops := da, bind := some bo, bufs := [0x60000000], dead := false } : Chunk) with ops := { da with flags := 0 } }] } } : Session).dec.part = none) ∧
    (({ ({ hdr := { fn := 0, ring := 0, cid := 7, token := 5 }, ops := da, bind := some bo, bufs := [0x60000000], dead := false } : Chunk) with ops := { da with flags := 0 } } : Chunk).ops.flags.testBit 0 = false) := by
  refine ⟨?_, ?_, ?_, ?_, ?_, ?_, ?_, ?_⟩ <;> first | decide | rfl | (apply ok_of; decide +kernel)

theorem test_met_dataCopyDone_4 :
    (Runs (dd ({ sb with dec := { sb.dec with chunks := [{ hdr := { fn := 0, ring := 0, cid := 7, token := 5 }, ops := da, bind := some bo, bufs := [0x60000000], dead := false }] } }) : State)) ∧
    (look (dd ({ sb with dec := { sb.dec with chunks := [{ hdr := { fn := 0, ring := 0, cid := 7, token := 5 }, ops := da, bind := some bo, bufs := [0x60000000], dead := false }] } }) : State).sessions (5 : Nat) = some ({ sb with dec := { sb.dec with chunks := [{ hdr := { fn := 0, ring := 0, cid := 7, token := 5 }, ops := da, bind := some bo, bufs := [0x60000000], dead := false }] } } : Session)) ∧
    (({ sb with dec := { sb.dec with chunks := [{ hdr := { fn := 0, ring := 0, cid := 7, token := 5 }, ops := da, bind := some bo, bufs := [0x60000000], dead := false }] } } : Session).dec.chunks = ({ hdr := { fn := 0, ring := 0, cid := 7, token := 5 }, ops := da, bind := some bo, bufs := [0x60000000], dead := false } : Chunk) :: ([] : List Chunk)) ∧
    (({ hdr := { fn := 0, ring := 0, cid := 7, token := 5 }, ops := da, bind := some bo, bufs := [0x60000000], dead := false } : Chunk).dead = false) ∧
    ((au : AuInfo).readFailed = false) ∧
    (({ hdr := { fn := 0, ring := 0, cid := 7, token := 5 }, ops := da, bind := some bo, bufs := [0x60000000], dead := false } : Chunk).bufs = [(0x60000000 : Word)]) ∧
    (({ sb with dec := { sb.dec with chunks := [{ hdr := { fn := 0, ring := 0, cid := 7, token := 5 }, ops := da, bind := some bo, bufs := [0x60000000], dead := false }] } } : Session).dec.part = none) ∧
    (({ hdr := { fn := 0, ring := 0, cid := 7, token := 5 }, ops := da, bind := some bo, bufs := [0x60000000], dead := false } : Chunk).ops.flags.testBit 0 = true) := by
  refine ⟨?_, ?_, ?_, ?_, ?_, ?_, ?_, ?_⟩ <;> first | decide | rfl | (apply ok_of; decide +kernel)

theorem test_met_auReorderTimeout :
    (Runs (dd { sb with dec := { sb.dec with peer := [{ ts := 4, seqs := [], mark := none, gap := false, first := 0, later := none }] } } : State)) ∧
    (look (dd { sb with dec := { sb.dec with peer := [{ ts := 4, seqs := [], mark := none, gap := false, first := 0, later := none }] } } : State).sessions (5 : Nat) = some ({ sb with dec := { sb.dec with peer := [{ ts := 4, seqs := [], mark := none, gap := false, first := 0, later := none }] } } : Session)) ∧
    (({ sb with dec := { sb.dec with peer := [{ ts := 4, seqs := [], mark := none, gap := false, first := 0, later := none }] } } : Session).dec.bind = some (bo : BindOps)) ∧
    (({ sb with dec := { sb.dec with peer := [{ ts := 4, seqs := [], mark := none, gap := false, first := 0, later := none }] } } : Session).dec.peer = [({ ts := 4, seqs := [], mark := none, gap := false, first := 0, later := none } : PeerAu)]) ∧
    ((bo : BindOps).reorderBells ≤ bellsFrom ({ ts := 4, seqs := [], mark := none, gap := false, first := 0, later := none } : PeerAu).first (dd { sb with dec := { sb.dec with peer := [{ ts := 4, seqs := [], mark := none, gap := false, first := 0, later := none }] } } : State).bell.num) ∧
    (({ sb with dec := { sb.dec with peer := [{ ts := 4, seqs := [], mark := none, gap := false, first := 0, later := none }] } } : Session).state ≠ 4) ∧
    (({ sb with dec := { sb.dec with peer := [{ ts := 4, seqs := [], mark := none, gap := false, first := 0, later := none }] } } : Session).state ≠ 5) := by
  refine ⟨?_, ?_, ?_, ?_, ?_, ?_, ?_⟩ <;> first | decide | rfl | (apply ok_of; decide +kernel)

theorem test_met_decodeOutput :
    (Runs (dd ({ sb with pics := [(1, { newPic 7 with whole := true, shows := true })] }) : State)) ∧
    (look (dd ({ sb with pics := [(1, { newPic 7 with whole := true, shows := true })] }) : State).sessions (5 : Nat) = some ({ sb with pics := [(1, { newPic 7 with whole := true, shows := true })] } : Session)) ∧
    (({ sb with pics := [(1, { newPic 7 with whole := true, shows := true })] } : Session).dec.bind = some (bo : BindOps)) ∧
    (look ({ sb with pics := [(1, { newPic 7 with whole := true, shows := true })] } : Session).pics ({ desc := 1, tag := none } : OutPic).desc = some ({ newPic 7 with whole := true, shows := true } : Pic)) ∧
    (({ newPic 7 with whole := true, shows := true } : Pic).whole = true) ∧ (({ newPic 7 with whole := true, shows := true } : Pic).shows = true) := by
  refine ⟨?_, ?_, ?_, ?_, ?_, ?_⟩ <;> first | decide | rfl | (apply ok_of; decide +kernel)

theorem test_met_protectedFillDone :
    (Runs ({ sg with pool := { sg.pool with filling := [3] } } : State)) ∧
    (has ({ sg with pool := { sg.pool with filling := [3] } } : State).pool.filling (3 : Nat) = true) := by
  refine ⟨?_, ?_⟩ <;> first | decide | rfl | (apply ok_of; decide +kernel)

theorem test_met_decCtrlWrite :
    (Serves (dd sb : State)) ∧ ((1 : Word) &&& 0xFFFFFFFE = 0) ∧ (bit (1 : Word) 0 = true) ∧
    ((dd sb : State).dec.en = true ∨ (dd sb : State).sec.ready = true) := by
  refine ⟨?_, ?_, ?_, ?_⟩ <;> first | decide | rfl | (apply ok_of; decide +kernel)

theorem test_met_decCtrlWrite_2 :
    (Serves (sg : State)) ∧ ((0 : Word) &&& 0xFFFFFFFE = 0) ∧ (bit (0 : Word) 0 = false) ∧
    ((sg : State).sessions.all (fun e => decide (e.2.kind ≠ 1)) = true) := by
  refine ⟨?_, ?_, ?_, ?_⟩ <;> first | decide | rfl | (apply ok_of; decide +kernel)

/-! Hypotheses of BandsAreDispatchedCodedAndCommitted are met. -/

theorem test_met_effortLower :
    (Runs ({ sg with sessions := [(5, { sf with stream := { sf.stream with effortMax := 2 }, effort := 1, recent := [true], lastFb := 0, phase := some 0 })], sched := { up.sched with effort := 1 }, bell := { up.bell with num := 10 }, plan := { up.plan with cfg := { up.plan.cfg with permil := 1 } } } : State)) ∧
    (look ({ sg with sessions := [(5, { sf with stream := { sf.stream with effortMax := 2 }, effort := 1, recent := [true], lastFb := 0, phase := some 0 })], sched := { up.sched with effort := 1 }, bell := { up.bell with num := 10 }, plan := { up.plan with cfg := { up.plan.cfg with permil := 1 } } } : State).sessions (5 : Nat) = some ({ sf with stream := { sf.stream with effortMax := 2 }, effort := 1, recent := [true], lastFb := 0, phase := some 0 } : Session)) ∧
    (bit ({ sg with sessions := [(5, { sf with stream := { sf.stream with effortMax := 2 }, effort := 1, recent := [true], lastFb := 0, phase := some 0 })], sched := { up.sched with effort := 1 }, bell := { up.bell with num := 10 }, plan := { up.plan with cfg := { up.plan.cfg with permil := 1 } } } : State).sched.effort 0 = true) ∧
    (({ sf with stream := { sf.stream with effortMax := 2 }, effort := 1, recent := [true], lastFb := 0, phase := some 0 } : Session).kind = 0) ∧
    (({ sf with stream := { sf.stream with effortMax := 2 }, effort := 1, recent := [true], lastFb := 0, phase := some 0 } : Session).state = 2) ∧
    (({ sf with stream := { sf.stream with effortMax := 2 }, effort := 1, recent := [true], lastFb := 0, phase := some 0 } : Session).effortTo = none) ∧
    (({ sf with stream := { sf.stream with effortMax := 2 }, effort := 1, recent := [true], lastFb := 0, phase := some 0 } : Session).stream.effortMin < ({ sf with stream := { sf.stream with effortMax := 2 }, effort := 1, recent := [true], lastFb := 0, phase := some 0 } : Session).effort) ∧
    (({ sg with sessions := [(5, { sf with stream := { sf.stream with effortMax := 2 }, effort := 1, recent := [true], lastFb := 0, phase := some 0 })], sched := { up.sched with effort := 1 }, bell := { up.bell with num := 10 }, plan := { up.plan with cfg := { up.plan.cfg with permil := 1 } } } : State).plan.cfg.permil ≤ (({ sf with stream := { sf.stream with effortMax := 2 }, effort := 1, recent := [true], lastFb := 0, phase := some 0 } : Session).recent.filter (fun b => b)).length) := by
  refine ⟨?_, ?_, ?_, ?_, ?_, ?_, ?_, ?_⟩ <;> first | decide | rfl | (apply ok_of; decide +kernel)

theorem test_met_effortRaise :
    (Runs ({ sw with sessions := [(5, { sd with kind := 0, state := 2, quarter := 0, pend := none, tan := TanSess.reset 0, stream := { sd.stream with effortMax := 2 }, effort := 1, lastFb := 0 })], sched := { up.sched with effort := 1 }, bell := { up.bell with num := 10 } } : State)) ∧
    (look ({ sw with sessions := [(5, { sd with kind := 0, state := 2, quarter := 0, pend := none, tan := TanSess.reset 0, stream := { sd.stream with effortMax := 2 }, effort := 1, lastFb := 0 })], sched := { up.sched with effort := 1 }, bell := { up.bell with num := 10 } } : State).sessions (5 : Nat) = some ({ sd with kind := 0, state := 2, quarter := 0, pend := none, tan := TanSess.reset 0, stream := { sd.stream with effortMax := 2 }, effort := 1, lastFb := 0 } : Session)) ∧
    (bit ({ sw with sessions := [(5, { sd with kind := 0, state := 2, quarter := 0, pend := none, tan := TanSess.reset 0, stream := { sd.stream with effortMax := 2 }, effort := 1, lastFb := 0 })], sched := { up.sched with effort := 1 }, bell := { up.bell with num := 10 } } : State).sched.effort 0 = true) ∧
    (({ sd with kind := 0, state := 2, quarter := 0, pend := none, tan := TanSess.reset 0, stream := { sd.stream with effortMax := 2 }, effort := 1, lastFb := 0 } : Session).kind = 0) ∧
    (({ sd with kind := 0, state := 2, quarter := 0, pend := none, tan := TanSess.reset 0, stream := { sd.stream with effortMax := 2 }, effort := 1, lastFb := 0 } : Session).state = 2) ∧
    (({ sd with kind := 0, state := 2, quarter := 0, pend := none, tan := TanSess.reset 0, stream := { sd.stream with effortMax := 2 }, effort := 1, lastFb := 0 } : Session).effortTo = none) ∧
    (({ sd with kind := 0, state := 2, quarter := 0, pend := none, tan := TanSess.reset 0, stream := { sd.stream with effortMax := 2 }, effort := 1, lastFb := 0 } : Session).effort < ({ sd with kind := 0, state := 2, quarter := 0, pend := none, tan := TanSess.reset 0, stream := { sd.stream with effortMax := 2 }, effort := 1, lastFb := 0 } : Session).stream.effortMax) ∧
    (fld ({ sw with sessions := [(5, { sd with kind := 0, state := 2, quarter := 0, pend := none, tan := TanSess.reset 0, stream := { sd.stream with effortMax := 2 }, effort := 1, lastFb := 0 })], sched := { up.sched with effort := 1 }, bell := { up.bell with num := 10 } } : State).sched.effort 31 16 ≤ bellsFrom ({ sd with kind := 0, state := 2, quarter := 0, pend := none, tan := TanSess.reset 0, stream := { sd.stream with effortMax := 2 }, effort := 1, lastFb := 0 } : Session).lastFb ({ sw with sessions := [(5, { sd with kind := 0, state := 2, quarter := 0, pend := none, tan := TanSess.reset 0, stream := { sd.stream with effortMax := 2 }, effort := 1, lastFb := 0 })], sched := { up.sched with effort := 1 }, bell := { up.bell with num := 10 } } : State).bell.num) ∧
    (admits ({ sw with sessions := [(5, { sd with kind := 0, state := 2, quarter := 0, pend := none, tan := TanSess.reset 0, stream := { sd.stream with effortMax := 2 }, effort := 1, lastFb := 0 })], sched := { up.sched with effort := 1 }, bell := { up.bell with num := 10 } } : State) (planQuarter ({ sd with kind := 0, state := 2, quarter := 0, pend := none, tan := TanSess.reset 0, stream := { sd.stream with effortMax := 2 }, effort := 1, lastFb := 0 } : Session)) (some (5 : Nat)) { loadOf ({ sw with sessions := [(5, { sd with kind := 0, state := 2, quarter := 0, pend := none, tan := TanSess.reset 0, stream := { sd.stream with effortMax := 2 }, effort := 1, lastFb := 0 })], sched := { up.sched with effort := 1 }, bell := { up.bell with num := 10 } } : State) ({ sd with kind := 0, state := 2, quarter := 0, pend := none, tan := TanSess.reset 0, stream := { sd.stream with effortMax := 2 }, effort := 1, lastFb := 0 } : Session) with effort := ({ sd with kind := 0, state := 2, quarter := 0, pend := none, tan := TanSess.reset 0, stream := { sd.stream with effortMax := 2 }, effort := 1, lastFb := 0 } : Session).effort + 1 } ({ sd with kind := 0, state := 2, quarter := 0, pend := none, tan := TanSess.reset 0, stream := { sd.stream with effortMax := 2 }, effort := 1, lastFb := 0 } : Session).phase = true) := by
  refine ⟨?_, ?_, ?_, ?_, ?_, ?_, ?_, ?_, ?_⟩ <;> first | decide | rfl | (apply ok_of; decide +kernel)

theorem test_met_bucketBoundary :
    (Runs (sg : State)) ∧ (look (sg : State).sessions (5 : Nat) = some (sf : Session)) ∧
    ((sf : Session).frames.find? (fun (fr : Frame) => !frameOver (fr : Frame)) = some (fr : Frame)) ∧ ((fr : Frame).bounded = false) ∧
    ((sf : Session).kind = 0) := by
  refine ⟨?_, ?_, ?_, ?_, ?_⟩ <;> first | decide | rfl | (apply ok_of; decide +kernel)

theorem test_met_workUnitStart :
    (Runs (sq b1 3 0 : State)) ∧
    (look (sq b1 3 0 : State).sessions ({ quarter := 0, engine := 3, handle := 5, frame := 7, band := 1, branch := 0, col := 0, block := 0, stage := 0 } : UnitRef).handle = some (sbd b1 : Session)) ∧
    ((sbd b1 : Session).kind = 0) ∧ ((sbd b1 : Session).tan.role ≠ 2) ∧
    (frameOf (sbd b1 : Session) ({ quarter := 0, engine := 3, handle := 5, frame := 7, band := 1, branch := 0, col := 0, block := 0, stage := 0 } : UnitRef).frame = some ({ fr with bounded := true, bands := [(1, b1), (2, newBand)] } : Frame)) ∧
    (look ({ fr with bounded := true, bands := [(1, b1), (2, newBand)] } : Frame).bands ({ quarter := 0, engine := 3, handle := 5, frame := 7, band := 1, branch := 0, col := 0, block := 0, stage := 0 } : UnitRef).band = some (b1 : Band)) ∧
    ((sq b1 3 0 : State).bell.window ≠ .guard) ∧ (dispatches (sq b1 3 0 : State) = true) ∧
    (engineFree (sq b1 3 0 : State) ({ quarter := 0, engine := 3, handle := 5, frame := 7, band := 1, branch := 0, col := 0, block := 0, stage := 0 } : UnitRef).engine 0 = true) ∧
    (({ quarter := 0, engine := 3, handle := 5, frame := 7, band := 1, branch := 0, col := 0, block := 0, stage := 0 } : UnitRef).engine / 32 = (b1 : Band).quarter) ∧
    (({ quarter := 0, engine := 3, handle := 5, frame := 7, band := 1, branch := 0, col := 0, block := 0, stage := 0 } : UnitRef).quarter = (b1 : Band).quarter) ∧
    ((b1 : Band).st = 1) ∧ ((b1 : Band).fb = false) ∧ ((b1 : Band).deadline = false) ∧
    (({ quarter := 0, engine := 3, handle := 5, frame := 7, band := 1, branch := 0, col := 0, block := 0, stage := 0 } : UnitRef).branch ∈ branches (b1 : Band)) ∧
    (({ quarter := 0, engine := 3, handle := 5, frame := 7, band := 1, branch := 0, col := 0, block := 0, stage := 0 } : UnitRef).col < tileCols (sbd b1 : Session).stream.codec ({ fr with bounded := true, bands := [(1, b1), (2, newBand)] } : Frame).width) ∧
    (({ quarter := 0, engine := 3, handle := 5, frame := 7, band := 1, branch := 0, col := 0, block := 0, stage := 0 } : UnitRef).block < rowBlocks (sbd b1 : Session) ({ fr with bounded := true, bands := [(1, b1), (2, newBand)] } : Frame) ({ quarter := 0, engine := 3, handle := 5, frame := 7, band := 1, branch := 0, col := 0, block := 0, stage := 0 } : UnitRef).band ({ quarter := 0, engine := 3, handle := 5, frame := 7, band := 1, branch := 0, col := 0, block := 0, stage := 0 } : UnitRef).col) ∧
    (({ quarter := 0, engine := 3, handle := 5, frame := 7, band := 1, branch := 0, col := 0, block := 0, stage := 0 } : UnitRef).stage < stagesOf (sbd b1 : Session).effort) ∧
    ((({ quarter := 0, engine := 3, handle := 5, frame := 7, band := 1, branch := 0, col := 0, block := 0, stage := 0 } : UnitRef).branch, ({ quarter := 0, engine := 3, handle := 5, frame := 7, band := 1, branch := 0, col := 0, block := 0, stage := 0 } : UnitRef).col, ({ quarter := 0, engine := 3, handle := 5, frame := 7, band := 1, branch := 0, col := 0, block := 0, stage := 0 } : UnitRef).block, ({ quarter := 0, engine := 3, handle := 5, frame := 7, band := 1, branch := 0, col := 0, block := 0, stage := 0 } : UnitRef).stage) ∉ (b1 : Band).units) ∧
    (unitRuns (sq b1 3 0 : State) ({ quarter := 0, engine := 3, handle := 5, frame := 7, band := 1, branch := 0, col := 0, block := 0, stage := 0 } : UnitRef) = false) ∧
    (unitReady (sbd b1 : Session) ({ fr with bounded := true, bands := [(1, b1), (2, newBand)] } : Frame) (b1 : Band) ({ quarter := 0, engine := 3, handle := 5, frame := 7, band := 1, branch := 0, col := 0, block := 0, stage := 0 } : UnitRef) = true) ∧
    (rowBegun (sq b1 3 0 : State) (b1 : Band) { handle := ({ quarter := 0, engine := 3, handle := 5, frame := 7, band := 1, branch := 0, col := 0, block := 0, stage := 0 } : UnitRef).handle, frame := ({ quarter := 0, engine := 3, handle := 5, frame := 7, band := 1, branch := 0, col := 0, block := 0, stage := 0 } : UnitRef).frame, band := ({ quarter := 0, engine := 3, handle := 5, frame := 7, band := 1, branch := 0, col := 0, block := 0, stage := 0 } : UnitRef).band, branch := ({ quarter := 0, engine := 3, handle := 5, frame := 7, band := 1, branch := 0, col := 0, block := 0, stage := 0 } : UnitRef).branch, col := ({ quarter := 0, engine := 3, handle := 5, frame := 7, band := 1, branch := 0, col := 0, block := 0, stage := 0 } : UnitRef).col } = true ∨ ((holdsWork (sq b1 3 0 : State) (b1 : Band).quarter { handle := ({ quarter := 0, engine := 3, handle := 5, frame := 7, band := 1, branch := 0, col := 0, block := 0, stage := 0 } : UnitRef).handle, frame := ({ quarter := 0, engine := 3, handle := 5, frame := 7, band := 1, branch := 0, col := 0, block := 0, stage := 0 } : UnitRef).frame, band := ({ quarter := 0, engine := 3, handle := 5, frame := 7, band := 1, branch := 0, col := 0, block := 0, stage := 0 } : UnitRef).band, branch := ({ quarter := 0, engine := 3, handle := 5, frame := 7, band := 1, branch := 0, col := 0, block := 0, stage := 0 } : UnitRef).branch, col := ({ quarter := 0, engine := 3, handle := 5, frame := 7, band := 1, branch := 0, col := 0, block := 0, stage := 0 } : UnitRef).col } = true ∨ workUsed (sq b1 3 0 : State) (b1 : Band).quarter < 64) ∧
    (hasWindows ({ fr with bounded := true, bands := [(1, b1), (2, newBand)] } : Frame) = false ∨ windowRows (sq b1 3 0 : State) (b1 : Band).quarter < 11))) ∧
    (earlierUnit (sq b1 3 0 : State) (b1 : Band).quarter (groupOf ({ quarter := 0, engine := 3, handle := 5, frame := 7, band := 1, branch := 0, col := 0, block := 0, stage := 0 } : UnitRef).branch (b1 : Band).cadence) (b1 : Band).mark = false) := by
  refine ⟨?_, ?_, ?_, ?_, ?_, ?_, ?_, ?_, ?_, ?_, ?_, ?_, ?_, ?_, ?_, ?_, ?_, ?_, ?_, ?_, ?_, ?_, ?_⟩ <;> first | decide | rfl | (apply ok_of; decide +kernel)

theorem test_met_workUnitStart_2 :
    (Runs (sqd 2 3 0 : State)) ∧
    (look (sqd 2 3 0 : State).sessions ({ quarter := 0, engine := 3, handle := 5, frame := 7, band := 1, branch := 0, col := 0, block := 0, stage := 0 } : UnitRef).handle = some (sdb 2 : Session)) ∧
    ((sdb 2 : Session).kind = 1) ∧ ((sdb 2 : Session).tan.role ≠ 2) ∧
    (decBandOf (sdb 2 : Session) ({ quarter := 0, engine := 3, handle := 5, frame := 7, band := 1, branch := 0, col := 0, block := 0, stage := 0 } : UnitRef).frame ({ quarter := 0, engine := 3, handle := 5, frame := 7, band := 1, branch := 0, col := 0, block := 0, stage := 0 } : UnitRef).band = some ((da0 2 : Au), (db0 2 : DecBand))) ∧
    ((sqd 2 3 0 : State).bell.window ≠ .guard) ∧ (dispatches (sqd 2 3 0 : State) = true) ∧
    (engineFree (sqd 2 3 0 : State) ({ quarter := 0, engine := 3, handle := 5, frame := 7, band := 1, branch := 0, col := 0, block := 0, stage := 0 } : UnitRef).engine 0 = true) ∧
    (({ quarter := 0, engine := 3, handle := 5, frame := 7, band := 1, branch := 0, col := 0, block := 0, stage := 0 } : UnitRef).engine / 32 = (db0 2 : DecBand).quarter) ∧
    (({ quarter := 0, engine := 3, handle := 5, frame := 7, band := 1, branch := 0, col := 0, block := 0, stage := 0 } : UnitRef).quarter = (db0 2 : DecBand).quarter) ∧
    (decUnitOpen (sqd 2 3 0 : State) (da0 2 : Au) (db0 2 : DecBand) ({ quarter := 0, engine := 3, handle := 5, frame := 7, band := 1, branch := 0, col := 0, block := 0, stage := 0 } : UnitRef) = true) ∧
    (earlierUnit (sqd 2 3 0 : State) (db0 2 : DecBand).quarter (groupOf 0 (db0 2 : DecBand).cadence) (da0 2 : Au).mark = false) := by
  refine ⟨?_, ?_, ?_, ?_, ?_, ?_, ?_, ?_, ?_, ?_, ?_, ?_⟩ <;> first | decide | rfl | (apply ok_of; decide +kernel)

theorem test_met_tileRowEntropyStart :
    (Runs (sq { b1 with deadline := true } 4 1 : State)) ∧
    (look (sq { b1 with deadline := true } 4 1 : State).sessions ({ handle := 5, frame := 7, band := 1, branch := 0, col := 0 } : TileRef).handle = some (sbd { b1 with deadline := true } : Session)) ∧
    ((sbd { b1 with deadline := true } : Session).kind = 0) ∧ ((sbd { b1 with deadline := true } : Session).tan.role ≠ 2) ∧
    (frameOf (sbd { b1 with deadline := true } : Session) ({ handle := 5, frame := 7, band := 1, branch := 0, col := 0 } : TileRef).frame = some ({ fr with bounded := true, bands := [(1, { b1 with deadline := true }), (2, newBand)] } : Frame)) ∧
    (look ({ fr with bounded := true, bands := [(1, { b1 with deadline := true }), (2, newBand)] } : Frame).bands ({ handle := 5, frame := 7, band := 1, branch := 0, col := 0 } : TileRef).band = some ({ b1 with deadline := true } : Band)) ∧
    (dispatches (sq { b1 with deadline := true } 4 1 : State) = true) ∧
    (engineFree (sq { b1 with deadline := true } 4 1 : State) (4 : Nat) 1 = true) ∧ ((4 : Nat) / 32 = ({ b1 with deadline := true } : Band).quarter) ∧
    (({ b1 with deadline := true } : Band).st = 1) ∧ (({ b1 with deadline := true } : Band).fb = false) ∧
    ((match aboveBand ({ fr with bounded := true, bands := [(1, { b1 with deadline := true }), (2, newBand)] } : Frame) ({ handle := 5, frame := 7, band := 1, branch := 0, col := 0 } : TileRef).band with
     | none => ({ handle := 5, frame := 7, band := 1, branch := 0, col := 0 } : TileRef).band = 1
     | some p => p.st = 3)) ∧
    ((sq { b1 with deadline := true } 4 1 : State).bell.window ≠ .guard ∨ ({ b1 with deadline := true } : Band).deadline = true) ∧
    (({ handle := 5, frame := 7, band := 1, branch := 0, col := 0 } : TileRef).branch ∈ branches ({ b1 with deadline := true } : Band)) ∧
    (({ handle := 5, frame := 7, band := 1, branch := 0, col := 0 } : TileRef).col < tileCols (sbd { b1 with deadline := true } : Session).stream.codec ({ fr with bounded := true, bands := [(1, { b1 with deadline := true }), (2, newBand)] } : Frame).width) ∧
    ((({ handle := 5, frame := 7, band := 1, branch := 0, col := 0 } : TileRef).branch, ({ handle := 5, frame := 7, band := 1, branch := 0, col := 0 } : TileRef).col) ∉ ({ b1 with deadline := true } : Band).ent) ∧
    (({ b1 with deadline := true } : Band).deadline = true ∨ pixDone (sbd { b1 with deadline := true } : Session) ({ fr with bounded := true, bands := [(1, { b1 with deadline := true }), (2, newBand)] } : Frame) ({ handle := 5, frame := 7, band := 1, branch := 0, col := 0 } : TileRef).band ({ b1 with deadline := true } : Band) ({ handle := 5, frame := 7, band := 1, branch := 0, col := 0 } : TileRef).branch ({ handle := 5, frame := 7, band := 1, branch := 0, col := 0 } : TileRef).col = true) ∧
    (earlierRow (sq { b1 with deadline := true } 4 1 : State) ({ b1 with deadline := true } : Band).quarter (groupOf ({ handle := 5, frame := 7, band := 1, branch := 0, col := 0 } : TileRef).branch ({ b1 with deadline := true } : Band).cadence) ({ b1 with deadline := true } : Band).mark = false) := by
  refine ⟨?_, ?_, ?_, ?_, ?_, ?_, ?_, ?_, ?_, ?_, ?_, ?_, ?_, ?_, ?_, ?_, ?_, ?_⟩ <;> first | decide | rfl | (apply ok_of; decide +kernel)

theorem test_met_tileRowEntropyStart_2 :
    (Runs (sqd 0 4 1 : State)) ∧
    (look (sqd 0 4 1 : State).sessions ({ handle := 5, frame := 7, band := 1, branch := 0, col := 0 } : TileRef).handle = some (sdb 0 : Session)) ∧
    ((sdb 0 : Session).kind = 1) ∧ ((sdb 0 : Session).tan.role ≠ 2) ∧
    (decBandOf (sdb 0 : Session) ({ handle := 5, frame := 7, band := 1, branch := 0, col := 0 } : TileRef).frame ({ handle := 5, frame := 7, band := 1, branch := 0, col := 0 } : TileRef).band = some ((da0 0 : Au), (db0 0 : DecBand))) ∧
    (dispatches (sqd 0 4 1 : State) = true) ∧ (engineFree (sqd 0 4 1 : State) (4 : Nat) 1 = true) ∧ ((4 : Nat) / 32 = (db0 0 : DecBand).quarter) ∧
    (parseOpen (sqd 0 4 1 : State) (da0 0 : Au) (db0 0 : DecBand) = true) ∧
    (earlierRow (sqd 0 4 1 : State) (db0 0 : DecBand).quarter (groupOf 0 (db0 0 : DecBand).cadence) (da0 0 : Au).mark = false) := by
  refine ⟨?_, ?_, ?_, ?_, ?_, ?_, ?_, ?_, ?_, ?_⟩ <;> first | decide | rfl | (apply ok_of; decide +kernel)

theorem test_met_tileRowCoded :
    (Runs (sq { b1 with ent := [(0, 0)] } 4 1 : State)) ∧
    (look (sq { b1 with ent := [(0, 0)] } 4 1 : State).sessions ({ handle := 5, frame := 7, band := 1, branch := 0, col := 0 } : TileRef).handle = some (sbd { b1 with ent := [(0, 0)] } : Session)) ∧
    ((sbd { b1 with ent := [(0, 0)] } : Session).kind = 0) ∧ ((sbd { b1 with ent := [(0, 0)] } : Session).tan.role ≠ 2) ∧
    (frameOf (sbd { b1 with ent := [(0, 0)] } : Session) ({ handle := 5, frame := 7, band := 1, branch := 0, col := 0 } : TileRef).frame = some ({ fr with bounded := true, bands := [(1, { b1 with ent := [(0, 0)] }), (2, newBand)] } : Frame)) ∧
    (look ({ fr with bounded := true, bands := [(1, { b1 with ent := [(0, 0)] }), (2, newBand)] } : Frame).bands ({ handle := 5, frame := 7, band := 1, branch := 0, col := 0 } : TileRef).band = some ({ b1 with ent := [(0, 0)] } : Band)) ∧
    (({ b1 with ent := [(0, 0)] } : Band).st = 1) ∧
    ((({ handle := 5, frame := 7, band := 1, branch := 0, col := 0 } : TileRef).branch, ({ handle := 5, frame := 7, band := 1, branch := 0, col := 0 } : TileRef).col) ∈ ({ b1 with ent := [(0, 0)] } : Band).ent) ∧
    (look ({ b1 with ent := [(0, 0)] } : Band).rows (rowKey ({ handle := 5, frame := 7, band := 1, branch := 0, col := 0 } : TileRef).branch ({ handle := 5, frame := 7, band := 1, branch := 0, col := 0 } : TileRef).col) = none) ∧
    (outBufs ({ bytes := [1, 2], fbBlocks := 0, state := [] } : TileResult).bytes.length ≤ 8) ∧
    (outUsed (sq { b1 with ent := [(0, 0)] } 4 1 : State) ({ b1 with ent := [(0, 0)] } : Band).quarter + outBufs ({ bytes := [1, 2], fbBlocks := 0, state := [] } : TileResult).bytes.length ≤ 512) := by
  refine ⟨?_, ?_, ?_, ?_, ?_, ?_, ?_, ?_, ?_, ?_, ?_⟩ <;> first | decide | rfl | (apply ok_of; decide +kernel)

theorem test_met_bandCheck :
    (Runs ({ sq b1 3 0 with sessions := [(5, { sbd { b1 with st := 2 } with rate := { se.rate with size := 2 ^ 40 } })] } : State)) ∧
    (look ({ sq b1 3 0 with sessions := [(5, { sbd { b1 with st := 2 } with rate := { se.rate with size := 2 ^ 40 } })] } : State).sessions (5 : Nat) = some ({ sbd { b1 with st := 2 } with rate := { se.rate with size := 2 ^ 40 } } : Session)) ∧
    (({ sbd { b1 with st := 2 } with rate := { se.rate with size := 2 ^ 40 } } : Session).kind = 0) ∧
    (nextBand ({ sbd { b1 with st := 2 } with rate := { se.rate with size := 2 ^ 40 } } : Session) = some (({ fr with bounded := true, bands := [(1, { b1 with st := 2 }), (2, newBand)] } : Frame), (1 : Nat), ({ b1 with st := 2 } : Band))) ∧
    (frameOf ({ sbd { b1 with st := 2 } with rate := { se.rate with size := 2 ^ 40 } } : Session) ({ fr with bounded := true, bands := [(1, { b1 with st := 2 }), (2, newBand)] } : Frame).num = some ({ fr with bounded := true, bands := [(1, { b1 with st := 2 }), (2, newBand)] } : Frame)) ∧
    (({ b1 with st := 2 } : Band).bell = ({ sq b1 3 0 with sessions := [(5, { sbd { b1 with st := 2 } with rate := { se.rate with size := 2 ^ 40 } })] } : State).bell.num) ∧
    (({ b1 with st := 2 } : Band).st = 2) ∧
    ((branches ({ b1 with st := 2 } : Band)).find? (fun r => decide (((codedOf (5 : Nat) ({ sq b1 3 0 with sessions := [(5, { sbd { b1 with st := 2 } with rate := { se.rate with size := 2 ^ 40 } })] } : State) ({ sbd { b1 with st := 2 } with rate := { se.rate with size := 2 ^ 40 } } : Session) ({ fr with bounded := true, bands := [(1, { b1 with st := 2 }), (2, newBand)] } : Frame) (1 : Nat) (branchResult ({ sbd { b1 with st := 2 } with rate := { se.rate with size := 2 ^ 40 } } : Session) ({ fr with bounded := true, bands := [(1, { b1 with st := 2 }), (2, newBand)] } : Frame) ({ b1 with st := 2 } : Band) r) (br : BandResult).frame).coded + (codedOf (5 : Nat) ({ sq b1 3 0 with sessions := [(5, { sbd { b1 with st := 2 } with rate := { se.rate with size := 2 ^ 40 } })] } : State) ({ sbd { b1 with st := 2 } with rate := { se.rate with size := 2 ^ 40 } } : Session) ({ fr with bounded := true, bands := [(1, { b1 with st := 2 }), (2, newBand)] } : Frame) (1 : Nat) (branchResult ({ sbd { b1 with st := 2 } with rate := { se.rate with size := 2 ^ 40 } } : Session) ({ fr with bounded := true, bands := [(1, { b1 with st := 2 }), (2, newBand)] } : Frame) ({ b1 with st := 2 } : Band) r) (br : BandResult).frame).frameBits) ≤ budgetOf ({ sbd { b1 with st := 2 } with rate := { se.rate with size := 2 ^ 40 } } : Session) ({ fr with bounded := true, bands := [(1, { b1 with st := 2 }), (2, newBand)] } : Frame) (1 : Nat) 0)) = some (0 : Nat)) := by
  refine ⟨?_, ?_, ?_, ?_, ?_, ?_, ?_, ?_⟩ <;> first | decide | rfl | (apply ok_of; decide +kernel)

theorem test_met_bandCheck_2 : nextBand { sbd { b1 with st := 2 } with rate := { se.rate with size := 0 } } = some ({ fr with bounded := true, bands := [(1, { b1 with st := 2 }), (2, newBand)] }, 1, { b1 with st := 2 }) ∧ (∀ r, r ∈ branches { b1 with st := 2 } → budgetOf { sbd { b1 with st := 2 } with rate := { se.rate with size := 0 } } { fr with bounded := true, bands := [(1, { b1 with st := 2 }), (2, newBand)] } 1 0 < (codedOf 5 { sq b1 3 0 with sessions := [(5, { sbd { b1 with st := 2 } with rate := { se.rate with size := 0 } })] } { sbd { b1 with st := 2 } with rate := { se.rate with size := 0 } } { fr with bounded := true, bands := [(1, { b1 with st := 2 }), (2, newBand)] } 1 (branchResult { sbd { b1 with st := 2 } with rate := { se.rate with size := 0 } } { fr with bounded := true, bands := [(1, { b1 with st := 2 }), (2, newBand)] } { b1 with st := 2 } r) br.frame).coded + (codedOf 5 { sq b1 3 0 with sessions := [(5, { sbd { b1 with st := 2 } with rate := { se.rate with size := 0 } })] } { sbd { b1 with st := 2 } with rate := { se.rate with size := 0 } } { fr with bounded := true, bands := [(1, { b1 with st := 2 }), (2, newBand)] } 1 (branchResult { sbd { b1 with st := 2 } with rate := { se.rate with size := 0 } } { fr with bounded := true, bands := [(1, { b1 with st := 2 }), (2, newBand)] } { b1 with st := 2 } r) br.frame).frameBits) := by
  refine ⟨rfl, ?_⟩
  intro r hr
  have : budgetOf { sbd { b1 with st := 2 } with rate := { se.rate with size := 0 } } { fr with bounded := true, bands := [(1, { b1 with st := 2 }), (2, newBand)] } 1 0 = 0 := by simp [budgetOf]
  rw [this]; simp only [branches, newBand, b1] at hr; fin_cases hr; decide +kernel

theorem test_met_fallbackBandCommit :
    (Runs ({ sq b1 3 0 with sessions := [(5, { sbd { b1 with nocheck := true } with rate := { se.rate with size := 2 ^ 40 } })] } : State)) ∧
    (look ({ sq b1 3 0 with sessions := [(5, { sbd { b1 with nocheck := true } with rate := { se.rate with size := 2 ^ 40 } })] } : State).sessions (5 : Nat) = some ({ sbd { b1 with nocheck := true } with rate := { se.rate with size := 2 ^ 40 } } : Session)) ∧
    (({ sbd { b1 with nocheck := true } with rate := { se.rate with size := 2 ^ 40 } } : Session).kind = 0) ∧
    (nextBand ({ sbd { b1 with nocheck := true } with rate := { se.rate with size := 2 ^ 40 } } : Session) = some (({ fr with bounded := true, bands := [(1, { b1 with nocheck := true }), (2, newBand)] } : Frame), (1 : Nat), ({ b1 with nocheck := true } : Band))) ∧
    (frameOf ({ sbd { b1 with nocheck := true } with rate := { se.rate with size := 2 ^ 40 } } : Session) ({ fr with bounded := true, bands := [(1, { b1 with nocheck := true }), (2, newBand)] } : Frame).num = some ({ fr with bounded := true, bands := [(1, { b1 with nocheck := true }), (2, newBand)] } : Frame)) ∧
    (({ b1 with nocheck := true } : Band).bell = ({ sq b1 3 0 with sessions := [(5, { sbd { b1 with nocheck := true } with rate := { se.rate with size := 2 ^ 40 } })] } : State).bell.num) ∧
    (({ b1 with nocheck := true } : Band).st = 1) ∧ (({ b1 with nocheck := true } : Band).nocheck = true) ∧
    (workUsed ({ sq b1 3 0 with sessions := [(5, { sbd { b1 with nocheck := true } with rate := { se.rate with size := 2 ^ 40 } })] } : State) ({ b1 with nocheck := true } : Band).quarter + workLacks ({ sq b1 3 0 with sessions := [(5, { sbd { b1 with nocheck := true } with rate := { se.rate with size := 2 ^ 40 } })] } : State) ({ b1 with nocheck := true } : Band).quarter (bandTags (5 : Nat) ({ fr with bounded := true, bands := [(1, { b1 with nocheck := true }), (2, newBand)] } : Frame).num (1 : Nat) 0 (tileCols ({ sbd { b1 with nocheck := true } with rate := { se.rate with size := 2 ^ 40 } } : Session).stream.codec ({ fr with bounded := true, bands := [(1, { b1 with nocheck := true }), (2, newBand)] } : Frame).width)) ≤ 64) ∧
    ((codedOf (5 : Nat) ({ sq b1 3 0 with sessions := [(5, { sbd { b1 with nocheck := true } with rate := { se.rate with size := 2 ^ 40 } })] } : State) ({ sbd { b1 with nocheck := true } with rate := { se.rate with size := 2 ^ 40 } } : Session) ({ fr with bounded := true, bands := [(1, { b1 with nocheck := true }), (2, newBand)] } : Frame) (1 : Nat) (fallbackResult ({ sbd { b1 with nocheck := true } with rate := { se.rate with size := 2 ^ 40 } } : Session) ({ fr with bounded := true, bands := [(1, { b1 with nocheck := true }), (2, newBand)] } : Frame) (1 : Nat) ({ b1 with nocheck := true } : Band) ({ br with rows := [[4]] } : BandResult)) ({ br with rows := [[4]] } : BandResult).frame).coded * 256 ≤ bandBound (frameStream ({ sbd { b1 with nocheck := true } with rate := { se.rate with size := 2 ^ 40 } } : Session) ({ fr with bounded := true, bands := [(1, { b1 with nocheck := true }), (2, newBand)] } : Frame)) ({ sbd { b1 with nocheck := true } with rate := { se.rate with size := 2 ^ 40 } } : Session).rate.rateMax ({ fr with bounded := true, bands := [(1, { b1 with nocheck := true }), (2, newBand)] } : Frame).key (1 : Nat)) ∧
    (({ sbd { b1 with nocheck := true } with rate := { se.rate with size := 2 ^ 40 } } : Session).rate.full + ((codedOf (5 : Nat) ({ sq b1 3 0 with sessions := [(5, { sbd { b1 with nocheck := true } with rate := { se.rate with size := 2 ^ 40 } })] } : State) ({ sbd { b1 with nocheck := true } with rate := { se.rate with size := 2 ^ 40 } } : Session) ({ fr with bounded := true, bands := [(1, { b1 with nocheck := true }), (2, newBand)] } : Frame) (1 : Nat) (fallbackResult ({ sbd { b1 with nocheck := true } with rate := { se.rate with size := 2 ^ 40 } } : Session) ({ fr with bounded := true, bands := [(1, { b1 with nocheck := true }), (2, newBand)] } : Frame) (1 : Nat) ({ b1 with nocheck := true } : Band) ({ br with rows := [[4]] } : BandResult)) ({ br with rows := [[4]] } : BandResult).frame).coded + (codedOf (5 : Nat) ({ sq b1 3 0 with sessions := [(5, { sbd { b1 with nocheck := true } with rate := { se.rate with size := 2 ^ 40 } })] } : State) ({ sbd { b1 with nocheck := true } with rate := { se.rate with size := 2 ^ 40 } } : Session) ({ fr with bounded := true, bands := [(1, { b1 with nocheck := true }), (2, newBand)] } : Frame) (1 : Nat) (fallbackResult ({ sbd { b1 with nocheck := true } with rate := { se.rate with size := 2 ^ 40 } } : Session) ({ fr with bounded := true, bands := [(1, { b1 with nocheck := true }), (2, newBand)] } : Frame) (1 : Nat) ({ b1 with nocheck := true } : Band) ({ br with rows := [[4]] } : BandResult)) ({ br with rows := [[4]] } : BandResult).frame).frameBits) * 256 ≤ ({ sbd { b1 with nocheck := true } with rate := { se.rate with size := 2 ^ 40 } } : Session).rate.size) := by
  refine ⟨?_, ?_, ?_, ?_, ?_, ?_, ?_, ?_, ?_, ?_, ?_⟩ <;> first | decide | rfl | (apply ok_of; decide +kernel)

theorem test_met_packetizeBand :
    (Runs ({ sg with sessions := [(5, { sf with recs := [bandRec], rtp := { sf.rtp with payMax := 1200 } })] } : State)) ∧
    (look ({ sg with sessions := [(5, { sf with recs := [bandRec], rtp := { sf.rtp with payMax := 1200 } })] } : State).sessions (5 : Nat) = some ({ sf with recs := [bandRec], rtp := { sf.rtp with payMax := 1200 } } : Session)) ∧
    (({ sf with recs := [bandRec], rtp := { sf.rtp with payMax := 1200 } } : Session).recs = (bandRec : BandRec) :: ([] : List BandRec)) ∧
    (([1200, 5] : List Nat).all (fun m => decide (0 < m) && decide (m ≤ ({ sf with recs := [bandRec], rtp := { sf.rtp with payMax := 1200 } } : Session).rtp.payMax)) = true) ∧
    ((bandRec : BandRec).payload ≠ none ∨ ([1200, 5] : List Nat) = []) ∧
    (({ sg with sessions := [(5, { sf with recs := [bandRec], rtp := { sf.rtp with payMax := 1200 } })] } : State).dev.safe = false) ∧
    (({ sg with sessions := [(5, { sf with recs := [bandRec], rtp := { sf.rtp with payMax := 1200 } })] } : State).tandem.stopped = false ∨ ({ sf with recs := [bandRec], rtp := { sf.rtp with payMax := 1200 } } : Session).tan.role = 0) := by
  refine ⟨?_, ?_, ?_, ?_, ?_, ?_, ?_⟩ <;> first | decide | rfl | (apply ok_of; decide +kernel)

theorem test_met_bandDone :
    (Runs ({ sg with sessions := [(5, { sf with ht := some { cq := 1, cmdRing := 0, fn := 0, size := 65536, addr := 0, w := 100, consumed := 0, waiting := [{ frame := 7, band := 1, flags := 0, bytes := 64, mark := { bell := 0, seq := 0 }, lastPart := true, payload := none }] } })] } : State)) ∧
    (look ({ sg with sessions := [(5, { sf with ht := some { cq := 1, cmdRing := 0, fn := 0, size := 65536, addr := 0, w := 100, consumed := 0, waiting := [{ frame := 7, band := 1, flags := 0, bytes := 64, mark := { bell := 0, seq := 0 }, lastPart := true, payload := none }] } })] } : State).sessions (5 : Nat) = some ({ sf with ht := some { cq := 1, cmdRing := 0, fn := 0, size := 65536, addr := 0, w := 100, consumed := 0, waiting := [{ frame := 7, band := 1, flags := 0, bytes := 64, mark := { bell := 0, seq := 0 }, lastPart := true, payload := none }] } } : Session)) ∧
    (({ sf with ht := some { cq := 1, cmdRing := 0, fn := 0, size := 65536, addr := 0, w := 100, consumed := 0, waiting := [{ frame := 7, band := 1, flags := 0, bytes := 64, mark := { bell := 0, seq := 0 }, lastPart := true, payload := none }] } } : Session).ht = some ({ cq := 1, cmdRing := 0, fn := 0, size := 65536, addr := 0, w := 100, consumed := 0, waiting := [{ frame := 7, band := 1, flags := 0, bytes := 64, mark := { bell := 0, seq := 0 }, lastPart := true, payload := none }] } : Ht)) ∧
    (({ cq := 1, cmdRing := 0, fn := 0, size := 65536, addr := 0, w := 100, consumed := 0, waiting := [{ frame := 7, band := 1, flags := 0, bytes := 64, mark := { bell := 0, seq := 0 }, lastPart := true, payload := none }] } : Ht).waiting = ({ frame := 7, band := 1, flags := 0, bytes := 64, mark := { bell := 0, seq := 0 }, lastPart := true, payload := none } : HtPart) :: ([] : List HtPart)) ∧
    (({ cq := 1, cmdRing := 0, fn := 0, size := 65536, addr := 0, w := 100, consumed := 0, waiting := [{ frame := 7, band := 1, flags := 0, bytes := 64, mark := { bell := 0, seq := 0 }, lastPart := true, payload := none }] } : Ht).w + ({ frame := 7, band := 1, flags := 0, bytes := 64, mark := { bell := 0, seq := 0 }, lastPart := true, payload := none } : HtPart).bytes - ({ cq := 1, cmdRing := 0, fn := 0, size := 65536, addr := 0, w := 100, consumed := 0, waiting := [{ frame := 7, band := 1, flags := 0, bytes := 64, mark := { bell := 0, seq := 0 }, lastPart := true, payload := none }] } : Ht).consumed ≤ ({ cq := 1, cmdRing := 0, fn := 0, size := 65536, addr := 0, w := 100, consumed := 0, waiting := [{ frame := 7, band := 1, flags := 0, bytes := 64, mark := { bell := 0, seq := 0 }, lastPart := true, payload := none }] } : Ht).size) := by
  refine ⟨?_, ?_, ?_, ?_, ?_⟩ <;> first | decide | rfl | (apply ok_of; decide +kernel)

theorem test_met_frameDone :
    (Runs ({ sg with sessions := [(5, { sf with doneWait := [(7, 100, 1)] })] } : State)) ∧
    (look ({ sg with sessions := [(5, { sf with doneWait := [(7, 100, 1)] })] } : State).sessions (5 : Nat) = some ({ sf with doneWait := [(7, 100, 1)] } : Session)) ∧
    (({ sf with doneWait := [(7, 100, 1)] } : Session).doneWait = ((7 : Nat), (100 : Nat), (1 : Nat)) :: ([] : List (Nat × Nat × Nat))) ∧
    ((1 : Nat) < 8 ∨ ({ sf with doneWait := [(7, 100, 1)] } : Session).tan.live = false) := by
  refine ⟨?_, ?_, ?_, ?_⟩ <;> first | decide | rfl | (apply ok_of; decide +kernel)

/-! Hypotheses of BlockRegistersAreConfigured are met. -/

theorem test_met_ingestCtrlWrite :
    (Serves (up : State)) ∧ ((1 : Word) &&& 0xFFFFFFFE = 0) := by
  refine ⟨?_, ?_⟩ <;> first | decide | rfl | (apply ok_of; decide +kernel)

theorem test_met_ingestCtrlWrite_2 :
    (Serves (up : State)) ∧ ((1 : Word) &&& 0xFFFFFFFE = 0) ∧ (bit (1 : Word) 0 = true) := by
  refine ⟨?_, ?_, ?_⟩ <;> first | decide | rfl | (apply ok_of; decide +kernel)

theorem test_met_rcCtrlWrite :
    (Serves (up : State)) ∧ ((1 : Word) &&& 0xFFFFFFFE = 0) ∧ (bit (1 : Word) 0 = true) := by
  refine ⟨?_, ?_, ?_⟩ <;> first | decide | rfl | (apply ok_of; decide +kernel)

theorem test_met_rcCtrlWrite_2 :
    (Serves (sg : State)) ∧ ((0 : Word) &&& 0xFFFFFFFE = 0) ∧ (bit (0 : Word) 0 = false) ∧ ((sg : State).rc.en = true) ∧
    ((sg : State).sessions.any (fun e => decide (e.2.kind = 0)) = true) := by
  refine ⟨?_, ?_, ?_, ?_, ?_⟩ <;> first | decide | rfl | (apply ok_of; decide +kernel)

theorem test_met_rcCtrlWrite_3 :
    (Serves (up : State)) ∧ ((0 : Word) &&& 0xFFFFFFFE = 0) ∧ (bit (0 : Word) 0 = false) ∧
    ((up : State).rc.en = false ∨ (up : State).sessions.any (fun e => decide (e.2.kind = 0)) = false) := by
  refine ⟨?_, ?_, ?_, ?_⟩ <;> first | decide | rfl | (apply ok_of; decide +kernel)

theorem test_met_rcDefaultsWrite :
    (Serves (up : State)) ∧ ((0x40010100 : Word) &&& 0x00F000FE = 0) ∧ (rcDefaultOk 0 (0x40010100 : Word) = true) := by
  refine ⟨?_, ?_, ?_⟩ <;> first | decide | rfl | (apply ok_of; decide +kernel)

theorem test_met_rcDefaultsWrite_2 :
    (Serves (up : State)) ∧ (rcDefaultOk 1 (0x32020101 : Word) = true) := by
  refine ⟨?_, ?_⟩ <;> first | decide | rfl | (apply ok_of; decide +kernel)

theorem test_met_rcDefaultsWrite_3 :
    (Serves (up : State)) ∧ ((0x101 : Word) &&& 0xFF000000 = 0) ∧ (rcDefaultOk 2 (0x101 : Word) = true) := by
  refine ⟨?_, ?_, ?_⟩ <;> first | decide | rfl | (apply ok_of; decide +kernel)

theorem test_met_rcDefaultsWrite_4 :
    (Serves (up : State)) ∧
    ((0 : Word) &&& (match (1 : Nat) with
     | 0 => 0x00F000FE
     | 1 => 0
     | _ => 0xFF000000) = 0) ∧ (rcDefaultOk (1 : Nat) (0 : Word) = false) := by
  refine ⟨?_, ?_, ?_⟩ <;> first | decide | rfl | (apply ok_of; decide +kernel)

theorem test_met_memcMapWrite :
    (Serves (up : State)) ∧ ((2 : Word) &&& 0xFFFFFFFC = 0) ∧ ((up : State).memc.en = false) := by
  refine ⟨?_, ?_, ?_⟩ <;> first | decide | rfl | (apply ok_of; decide +kernel)

theorem test_met_memcMapWrite_2 :
    (Serves (ram : State)) ∧ ((2 : Word) &&& 0xFFFFFFFC = 0) ∧ ((ram : State).memc.en = true) := by
  refine ⟨?_, ?_, ?_⟩ <;> first | decide | rfl | (apply ok_of; decide +kernel)

theorem test_met_memcCtrlWrite :
    (Serves ({ up with memc := { up.memc with trainState := 2 } } : State)) ∧ ((1 : Word) &&& 0xFFFFFFFE = 0) ∧ (bit (1 : Word) 0 = true) ∧
    (({ up with memc := { up.memc with trainState := 2 } } : State).memc.en = false) ∧
    (({ up with memc := { up.memc with trainState := 2 } } : State).memc.trainState = 2) := by
  refine ⟨?_, ?_, ?_, ?_, ?_⟩ <;> first | decide | rfl | (apply ok_of; decide +kernel)

theorem test_met_memcCtrlWrite_2 :
    (Serves (up : State)) ∧ ((1 : Word) &&& 0xFFFFFFFE = 0) ∧ (bit (1 : Word) 0 = true) ∧ ((up : State).memc.en = false) ∧
    ((up : State).memc.trainState ≠ 2) := by
  refine ⟨?_, ?_, ?_, ?_, ?_⟩ <;> first | decide | rfl | (apply ok_of; decide +kernel)

theorem test_met_memcCtrlWrite_3 :
    (Serves (ram : State)) ∧ ((0 : Word) &&& 0xFFFFFFFE = 0) ∧ (bit (0 : Word) 0 = false) ∧ ((ram : State).memc.en = true) := by
  refine ⟨?_, ?_, ?_, ?_⟩ <;> first | decide | rfl | (apply ok_of; decide +kernel)

theorem test_met_poolCtrlWrite :
    (Serves ({ ram with plan := { ram.plan with first := true } } : State)) ∧ ((1 : Word) &&& 0xFFFFFFFE = 0) ∧ (bit (1 : Word) 0 = true) ∧
    (({ ram with plan := { ram.plan with first := true } } : State).pool.en = false) ∧
    (({ ram with plan := { ram.plan with first := true } } : State).memc.en = true) ∧
    (({ ram with plan := { ram.plan with first := true } } : State).plan.first = true) := by
  refine ⟨?_, ?_, ?_, ?_, ?_, ?_⟩ <;> first | decide | rfl | (apply ok_of; decide +kernel)

theorem test_met_poolCtrlWrite_2 :
    (Serves (up : State)) ∧ ((1 : Word) &&& 0xFFFFFFFE = 0) ∧ (bit (1 : Word) 0 = true) ∧ ((up : State).pool.en = false) ∧
    ((up : State).memc.en = false ∨ (up : State).plan.first = false) := by
  refine ⟨?_, ?_, ?_, ?_, ?_⟩ <;> first | decide | rfl | (apply ok_of; decide +kernel)

theorem test_met_poolCtrlWrite_3 :
    (Serves (sg : State)) ∧ ((0 : Word) &&& 0xFFFFFFFE = 0) ∧ (bit (0 : Word) 0 = false) ∧ ((sg : State).pool.en = true) ∧ ((sg : State).pool.bufs = []) := by
  refine ⟨?_, ?_, ?_, ?_, ?_⟩ <;> first | decide | rfl | (apply ok_of; decide +kernel)

theorem test_met_poolCtrlWrite_4 :
    (Serves ({ sg with pool := { sg.pool with bufs := [(bufKey 3 0, { gen := 0, owner := { kind := 0, index := 5 }, fn := 0, hold := true, refs := 1, recs := [], secret := false, charged := true })] } } : State)) ∧
    ((0 : Word) &&& 0xFFFFFFFE = 0) ∧ (bit (0 : Word) 0 = false) ∧
    (({ sg with pool := { sg.pool with bufs := [(bufKey 3 0, { gen := 0, owner := { kind := 0, index := 5 }, fn := 0, hold := true, refs := 1, recs := [], secret := false, charged := true })] } } : State).pool.en = true) ∧
    (({ sg with pool := { sg.pool with bufs := [(bufKey 3 0, { gen := 0, owner := { kind := 0, index := 5 }, fn := 0, hold := true, refs := 1, recs := [], secret := false, charged := true })] } } : State).pool.bufs ≠ []) := by
  refine ⟨?_, ?_, ?_, ?_, ?_⟩ <;> first | decide | rfl | (apply ok_of; decide +kernel)

theorem test_met_poolFnQuotaWrite :
    (Serves (sg : State)) ∧ ((64 : Word) &&& 0xFE000000 = 0) ∧ ((255 : Nat) ≤ 255) ∧ ((3 : Nat) ≤ 4) ∧
    (fld (64 : Word) 24 0 ≤ lookD (sg : State).pool.count (3 : Nat) 0) := by
  refine ⟨?_, ?_, ?_, ?_, ?_⟩ <;> first | decide | rfl | (apply ok_of; decide +kernel)

theorem test_met_poolFnQuotaWrite_2 :
    (Serves (sg : State)) ∧ ((65 : Word) &&& 0xFE000000 = 0) ∧ ((255 : Nat) ≤ 255) ∧ ((3 : Nat) ≤ 4) ∧
    (lookD (sg : State).pool.count (3 : Nat) 0 < fld (65 : Word) 24 0) := by
  refine ⟨?_, ?_, ?_, ?_, ?_⟩ <;> first | decide | rfl | (apply ok_of; decide +kernel)

theorem test_met_poolRelayout :
    (Runs ({ sg with pool := { sg.pool with nextCount := some [(3, 8)] } } : State)) ∧
    (({ sg with pool := { sg.pool with nextCount := some [(3, 8)] } } : State).pool.nextCount = some ([(3, 8)] : NMap Nat)) ∧
    (({ sg with pool := { sg.pool with nextCount := some [(3, 8)] } } : State).pool.bufs = []) ∧
    (({ sg with pool := { sg.pool with nextCount := some [(3, 8)] } } : State).pool.filling = []) := by
  refine ⟨?_, ?_, ?_, ?_⟩ <;> first | decide | rfl | (apply ok_of; decide +kernel)

theorem test_met_poolRelayout_2 :
    (Runs ({ sg with pool := { sg.pool with nextCount := some [(3, 8)] } } : State)) ∧
    (({ sg with pool := { sg.pool with nextCount := some [(3, 8)] } } : State).pool.nextCount = some ([(3, 8)] : NMap Nat)) ∧
    (({ sg with pool := { sg.pool with nextCount := some [(3, 8)] } } : State).pool.bufs = []) ∧
    (({ sg with pool := { sg.pool with nextCount := some [(3, 8)] } } : State).pool.filling = []) ∧
    (({ sg with pool := { sg.pool with nextCount := some [(3, 8)] } } : State).memc.table = []) := by
  refine ⟨?_, ?_, ?_, ?_, ?_⟩ <;> first | decide | rfl | (apply ok_of; decide +kernel)

theorem test_met_sessCtrlWrite :
    (Serves ({ sg with pool := { sg.pool with count := [(3, 64), (4, 64)] }, sess := { sg.sess with wm := [(0, 1), (1, 2), (2, 1), (3, 2)] }, memc := ram.memc } : State)) ∧
    ((1 : Word) &&& 0xFFFFFFFE = 0) ∧ (bit (1 : Word) 0 = true) ∧
    (trained ({ sg with pool := { sg.pool with count := [(3, 64), (4, 64)] }, sess := { sg.sess with wm := [(0, 1), (1, 2), (2, 1), (3, 2)] }, memc := ram.memc } : State) = true) ∧
    (wmOk ({ sg with pool := { sg.pool with count := [(3, 64), (4, 64)] }, sess := { sg.sess with wm := [(0, 1), (1, 2), (2, 1), (3, 2)] }, memc := ram.memc } : State) ({ sg with pool := { sg.pool with count := [(3, 64), (4, 64)] }, sess := { sg.sess with wm := [(0, 1), (1, 2), (2, 1), (3, 2)] }, memc := ram.memc } : State).sess.wm 0 = true) ∧
    (wmOk ({ sg with pool := { sg.pool with count := [(3, 64), (4, 64)] }, sess := { sg.sess with wm := [(0, 1), (1, 2), (2, 1), (3, 2)] }, memc := ram.memc } : State) ({ sg with pool := { sg.pool with count := [(3, 64), (4, 64)] }, sess := { sg.sess with wm := [(0, 1), (1, 2), (2, 1), (3, 2)] }, memc := ram.memc } : State).sess.wm 1 = true) := by
  refine ⟨?_, ?_, ?_, ?_, ?_, ?_⟩ <;> first | decide | rfl | (apply ok_of; decide +kernel)

theorem test_met_sessCtrlWrite_2 :
    (Serves (up : State)) ∧ ((1 : Word) &&& 0xFFFFFFFE = 0) ∧ (bit (1 : Word) 0 = true) ∧ (trained (up : State) = false) := by
  refine ⟨?_, ?_, ?_, ?_⟩ <;> first | decide | rfl | (apply ok_of; decide +kernel)

theorem test_met_sessCtrlWrite_3 :
    (Serves (up : State)) ∧ ((0 : Word) &&& 0xFFFFFFFE = 0) ∧ (bit (0 : Word) 0 = false) ∧ ((up : State).sessions = []) := by
  refine ⟨?_, ?_, ?_, ?_⟩ <;> first | decide | rfl | (apply ok_of; decide +kernel)

theorem test_met_sessCtrlWrite_4 :
    (Serves (sg : State)) ∧ ((0 : Word) &&& 0xFFFFFFFE = 0) ∧ (bit (0 : Word) 0 = false) ∧ ((sg : State).sessions ≠ []) := by
  refine ⟨?_, ?_, ?_, ?_⟩ <;> first | decide | rfl | (apply ok_of; decide +kernel)

theorem test_met_sessDepotWmWrite :
    (Serves ({ sg with pool := { sg.pool with count := [(3, 64), (4, 64)] }, sess := { sg.sess with wm := [(0, 1), (1, 2), (2, 1), (3, 2)] }, memc := ram.memc } : State)) ∧
    ((64 : Word) &&& 0xFE000000 = 0) ∧ ((3 : Nat) < 4) ∧
    (wmOk ({ sg with pool := { sg.pool with count := [(3, 64), (4, 64)] }, sess := { sg.sess with wm := [(0, 1), (1, 2), (2, 1), (3, 2)] }, memc := ram.memc } : State) (put ({ sg with pool := { sg.pool with count := [(3, 64), (4, 64)] }, sess := { sg.sess with wm := [(0, 1), (1, 2), (2, 1), (3, 2)] }, memc := ram.memc } : State).sess.wm (3 : Nat) (fld (64 : Word) 24 0)) ((3 : Nat) / 2) = true) := by
  refine ⟨?_, ?_, ?_, ?_⟩ <;> first | decide | rfl | (apply ok_of; decide +kernel)

theorem test_met_sessDepotWmWrite_2 :
    (Serves ({ sg with pool := { sg.pool with count := [(3, 64), (4, 64)] }, sess := { sg.sess with wm := [(0, 1), (1, 2), (2, 1), (3, 2)] }, memc := ram.memc } : State)) ∧
    ((65 : Word) &&& 0xFE000000 = 0) ∧ ((3 : Nat) < 4) ∧
    (wmOk ({ sg with pool := { sg.pool with count := [(3, 64), (4, 64)] }, sess := { sg.sess with wm := [(0, 1), (1, 2), (2, 1), (3, 2)] }, memc := ram.memc } : State) (put ({ sg with pool := { sg.pool with count := [(3, 64), (4, 64)] }, sess := { sg.sess with wm := [(0, 1), (1, 2), (2, 1), (3, 2)] }, memc := ram.memc } : State).sess.wm (3 : Nat) (fld (65 : Word) 24 0)) ((3 : Nat) / 2) = false) := by
  refine ⟨?_, ?_, ?_, ?_⟩ <;> first | decide | rfl | (apply ok_of; decide +kernel)

theorem test_met_sessCtxSelWrite :
    (Serves (up : State)) ∧ ((0x3FFFF : Word) &&& 0xFFFC0000 = 0) := by
  refine ⟨?_, ?_⟩ <;> first | decide | rfl | (apply ok_of; decide +kernel)

theorem test_met_sessCtxCopyDone :
    (Runs ({ sg with sess := { sg.sess with ctxBusy := true, ctxSel := 5 } } : State)) ∧
    (({ sg with sess := { sg.sess with ctxBusy := true, ctxSel := 5 } } : State).sess.ctxBusy = true) ∧
    (look ({ sg with sess := { sg.sess with ctxBusy := true, ctxSel := 5 } } : State).sessions (fld ({ sg with sess := { sg.sess with ctxBusy := true, ctxSel := 5 } } : State).sess.ctxSel 17 0) = some (sf : Session)) := by
  refine ⟨?_, ?_, ?_⟩ <;> first | decide | rfl | (apply ok_of; decide +kernel)

theorem test_met_sessCtxCopyDone_2 :
    (Runs ({ sg with sess := { sg.sess with ctxBusy := true, ctxSel := 6 } } : State)) ∧
    (({ sg with sess := { sg.sess with ctxBusy := true, ctxSel := 6 } } : State).sess.ctxBusy = true) ∧
    (look ({ sg with sess := { sg.sess with ctxBusy := true, ctxSel := 6 } } : State).sessions (fld ({ sg with sess := { sg.sess with ctxBusy := true, ctxSel := 6 } } : State).sess.ctxSel 17 0) = none) := by
  refine ⟨?_, ?_, ?_⟩ <;> first | decide | rfl | (apply ok_of; decide +kernel)

/-! Hypotheses of EnginesRunAndAreChecked are met. -/

theorem test_met_microwordIssue :
    (Runs ({ up with engines := [(33, { Engine.reset with state := 3, micro := [0] })], quarters := [(1, { Quarter.reset with nano := [0] })] } : State)) ∧
    ((33 : Nat) < 512) ∧
    (engRuns (engOf ({ up with engines := [(33, { Engine.reset with state := 3, micro := [0] })], quarters := [(1, { Quarter.reset with nano := [0] })] } : State) (33 : Nat)) = true) ∧
    (wordFault (engOf ({ up with engines := [(33, { Engine.reset with state := 3, micro := [0] })], quarters := [(1, { Quarter.reset with nano := [0] })] } : State) (33 : Nat)) (issueOf ({ up with engines := [(33, { Engine.reset with state := 3, micro := [0] })], quarters := [(1, { Quarter.reset with nano := [0] })] } : State) (33 : Nat) ({ eaStatus := 0, loadStat := 0, stall := 2, lmemUe := false, blvdErr := false } : MicroIn)) = none) ∧
    (stagedCount (nanoOps (issueOf ({ up with engines := [(33, { Engine.reset with state := 3, micro := [0] })], quarters := [(1, { Quarter.reset with nano := [0] })] } : State) (33 : Nat) ({ eaStatus := 0, loadStat := 0, stall := 2, lmemUe := false, blvdErr := false } : MicroIn)) ({ up with engines := [(33, { Engine.reset with state := 3, micro := [0] })], quarters := [(1, { Quarter.reset with nano := [0] })] } : State) ((33 : Nat) / 32) { engOf ({ up with engines := [(33, { Engine.reset with state := 3, micro := [0] })], quarters := [(1, { Quarter.reset with nano := [0] })] } : State) (33 : Nat) with stack := (sequence (engOf ({ up with engines := [(33, { Engine.reset with state := 3, micro := [0] })], quarters := [(1, { Quarter.reset with nano := [0] })] } : State) (33 : Nat)) (issueOf ({ up with engines := [(33, { Engine.reset with state := 3, micro := [0] })], quarters := [(1, { Quarter.reset with nano := [0] })] } : State) (33 : Nat) ({ eaStatus := 0, loadStat := 0, stall := 2, lmemUe := false, blvdErr := false } : MicroIn))).2.1, lc := (sequence (engOf ({ up with engines := [(33, { Engine.reset with state := 3, micro := [0] })], quarters := [(1, { Quarter.reset with nano := [0] })] } : State) (33 : Nat)) (issueOf ({ up with engines := [(33, { Engine.reset with state := 3, micro := [0] })], quarters := [(1, { Quarter.reset with nano := [0] })] } : State) (33 : Nat) ({ eaStatus := 0, loadStat := 0, stall := 2, lmemUe := false, blvdErr := false } : MicroIn))).2.2 }).staging ≤ 32) ∧
    ((engOf ({ up with engines := [(33, { Engine.reset with state := 3, micro := [0] })], quarters := [(1, { Quarter.reset with nano := [0] })] } : State) (33 : Nat)).gap + (({ eaStatus := 0, loadStat := 0, stall := 2, lmemUe := false, blvdErr := false } : MicroIn).stall + cycles (field (issueOf ({ up with engines := [(33, { Engine.reset with state := 3, micro := [0] })], quarters := [(1, { Quarter.reset with nano := [0] })] } : State) (33 : Nat) ({ eaStatus := 0, loadStat := 0, stall := 2, lmemUe := false, blvdErr := false } : MicroIn)).micro 17 15)) < 8192) ∧
    (((issueOf ({ up with engines := [(33, { Engine.reset with state := 3, micro := [0] })], quarters := [(1, { Quarter.reset with nano := [0] })] } : State) (33 : Nat) ({ eaStatus := 0, loadStat := 0, stall := 2, lmemUe := false, blvdErr := false } : MicroIn)).micro.getLsbD 14 || decide (field (issueOf ({ up with engines := [(33, { Engine.reset with state := 3, micro := [0] })], quarters := [(1, { Quarter.reset with nano := [0] })] } : State) (33 : Nat) ({ eaStatus := 0, loadStat := 0, stall := 2, lmemUe := false, blvdErr := false } : MicroIn)).micro 28 26 = 5)) = false) := by
  refine ⟨?_, ?_, ?_, ?_, ?_, ?_, ?_⟩ <;> first | decide | rfl | (apply ok_of; decide +kernel)

theorem test_met_microwordIssue_2 :
    (Runs ({ up with engines := [(33, { Engine.reset with state := 3, micro := [0x4000] })], quarters := [(1, { Quarter.reset with nano := [0] })] } : State)) ∧
    ((33 : Nat) < 512) ∧
    (engRuns (engOf ({ up with engines := [(33, { Engine.reset with state := 3, micro := [0x4000] })], quarters := [(1, { Quarter.reset with nano := [0] })] } : State) (33 : Nat)) = true) ∧
    (wordFault (engOf ({ up with engines := [(33, { Engine.reset with state := 3, micro := [0x4000] })], quarters := [(1, { Quarter.reset with nano := [0] })] } : State) (33 : Nat)) (issueOf ({ up with engines := [(33, { Engine.reset with state := 3, micro := [0x4000] })], quarters := [(1, { Quarter.reset with nano := [0] })] } : State) (33 : Nat) ({ eaStatus := 0, loadStat := 0, stall := 2, lmemUe := false, blvdErr := false } : MicroIn)) = none) ∧
    (stagedCount (nanoOps (issueOf ({ up with engines := [(33, { Engine.reset with state := 3, micro := [0x4000] })], quarters := [(1, { Quarter.reset with nano := [0] })] } : State) (33 : Nat) ({ eaStatus := 0, loadStat := 0, stall := 2, lmemUe := false, blvdErr := false } : MicroIn)) ({ up with engines := [(33, { Engine.reset with state := 3, micro := [0x4000] })], quarters := [(1, { Quarter.reset with nano := [0] })] } : State) ((33 : Nat) / 32) { engOf ({ up with engines := [(33, { Engine.reset with state := 3, micro := [0x4000] })], quarters := [(1, { Quarter.reset with nano := [0] })] } : State) (33 : Nat) with stack := (sequence (engOf ({ up with engines := [(33, { Engine.reset with state := 3, micro := [0x4000] })], quarters := [(1, { Quarter.reset with nano := [0] })] } : State) (33 : Nat)) (issueOf ({ up with engines := [(33, { Engine.reset with state := 3, micro := [0x4000] })], quarters := [(1, { Quarter.reset with nano := [0] })] } : State) (33 : Nat) ({ eaStatus := 0, loadStat := 0, stall := 2, lmemUe := false, blvdErr := false } : MicroIn))).2.1, lc := (sequence (engOf ({ up with engines := [(33, { Engine.reset with state := 3, micro := [0x4000] })], quarters := [(1, { Quarter.reset with nano := [0] })] } : State) (33 : Nat)) (issueOf ({ up with engines := [(33, { Engine.reset with state := 3, micro := [0x4000] })], quarters := [(1, { Quarter.reset with nano := [0] })] } : State) (33 : Nat) ({ eaStatus := 0, loadStat := 0, stall := 2, lmemUe := false, blvdErr := false } : MicroIn))).2.2 }).staging ≤ 32) ∧
    ((engOf ({ up with engines := [(33, { Engine.reset with state := 3, micro := [0x4000] })], quarters := [(1, { Quarter.reset with nano := [0] })] } : State) (33 : Nat)).gap + (({ eaStatus := 0, loadStat := 0, stall := 2, lmemUe := false, blvdErr := false } : MicroIn).stall + cycles (field (issueOf ({ up with engines := [(33, { Engine.reset with state := 3, micro := [0x4000] })], quarters := [(1, { Quarter.reset with nano := [0] })] } : State) (33 : Nat) ({ eaStatus := 0, loadStat := 0, stall := 2, lmemUe := false, blvdErr := false } : MicroIn)).micro 17 15)) < 8192) ∧
    (((issueOf ({ up with engines := [(33, { Engine.reset with state := 3, micro := [0x4000] })], quarters := [(1, { Quarter.reset with nano := [0] })] } : State) (33 : Nat) ({ eaStatus := 0, loadStat := 0, stall := 2, lmemUe := false, blvdErr := false } : MicroIn)).micro.getLsbD 14 || decide (field (issueOf ({ up with engines := [(33, { Engine.reset with state := 3, micro := [0x4000] })], quarters := [(1, { Quarter.reset with nano := [0] })] } : State) (33 : Nat) ({ eaStatus := 0, loadStat := 0, stall := 2, lmemUe := false, blvdErr := false } : MicroIn)).micro 28 26 = 5)) = true) := by
  refine ⟨?_, ?_, ?_, ?_, ?_, ?_, ?_⟩ <;> first | decide | rfl | (apply ok_of; decide +kernel)

theorem test_met_microwordIssue_3 :
    (Runs ({ up with engines := [(33, { Engine.reset with state := 3, gap := 8191, micro := [0] })], quarters := [(1, { Quarter.reset with nano := [0] })] } : State)) ∧
    ((33 : Nat) < 512) ∧
    (engRuns (engOf ({ up with engines := [(33, { Engine.reset with state := 3, gap := 8191, micro := [0] })], quarters := [(1, { Quarter.reset with nano := [0] })] } : State) (33 : Nat)) = true) ∧
    (wordFault (engOf ({ up with engines := [(33, { Engine.reset with state := 3, gap := 8191, micro := [0] })], quarters := [(1, { Quarter.reset with nano := [0] })] } : State) (33 : Nat)) (issueOf ({ up with engines := [(33, { Engine.reset with state := 3, gap := 8191, micro := [0] })], quarters := [(1, { Quarter.reset with nano := [0] })] } : State) (33 : Nat) ({ eaStatus := 0, loadStat := 0, stall := 2, lmemUe := false, blvdErr := false } : MicroIn)) = none) ∧
    (stagedCount (nanoOps (issueOf ({ up with engines := [(33, { Engine.reset with state := 3, gap := 8191, micro := [0] })], quarters := [(1, { Quarter.reset with nano := [0] })] } : State) (33 : Nat) ({ eaStatus := 0, loadStat := 0, stall := 2, lmemUe := false, blvdErr := false } : MicroIn)) ({ up with engines := [(33, { Engine.reset with state := 3, gap := 8191, micro := [0] })], quarters := [(1, { Quarter.reset with nano := [0] })] } : State) ((33 : Nat) / 32) { engOf ({ up with engines := [(33, { Engine.reset with state := 3, gap := 8191, micro := [0] })], quarters := [(1, { Quarter.reset with nano := [0] })] } : State) (33 : Nat) with stack := (sequence (engOf ({ up with engines := [(33, { Engine.reset with state := 3, gap := 8191, micro := [0] })], quarters := [(1, { Quarter.reset with nano := [0] })] } : State) (33 : Nat)) (issueOf ({ up with engines := [(33, { Engine.reset with state := 3, gap := 8191, micro := [0] })], quarters := [(1, { Quarter.reset with nano := [0] })] } : State) (33 : Nat) ({ eaStatus := 0, loadStat := 0, stall := 2, lmemUe := false, blvdErr := false } : MicroIn))).2.1, lc := (sequence (engOf ({ up with engines := [(33, { Engine.reset with state := 3, gap := 8191, micro := [0] })], quarters := [(1, { Quarter.reset with nano := [0] })] } : State) (33 : Nat)) (issueOf ({ up with engines := [(33, { Engine.reset with state := 3, gap := 8191, micro := [0] })], quarters := [(1, { Quarter.reset with nano := [0] })] } : State) (33 : Nat) ({ eaStatus := 0, loadStat := 0, stall := 2, lmemUe := false, blvdErr := false } : MicroIn))).2.2 }).staging ≤ 32) ∧
    (8192 ≤ (engOf ({ up with engines := [(33, { Engine.reset with state := 3, gap := 8191, micro := [0] })], quarters := [(1, { Quarter.reset with nano := [0] })] } : State) (33 : Nat)).gap + (({ eaStatus := 0, loadStat := 0, stall := 2, lmemUe := false, blvdErr := false } : MicroIn).stall + cycles (field (issueOf ({ up with engines := [(33, { Engine.reset with state := 3, gap := 8191, micro := [0] })], quarters := [(1, { Quarter.reset with nano := [0] })] } : State) (33 : Nat) ({ eaStatus := 0, loadStat := 0, stall := 2, lmemUe := false, blvdErr := false } : MicroIn)).micro 17 15))) := by
  refine ⟨?_, ?_, ?_, ?_, ?_, ?_⟩ <;> first | decide | rfl | (apply ok_of; decide +kernel)

theorem test_met_microwordIssue_4 :
    (Runs ({ up with engines := [(33, { Engine.reset with state := 3, micro := [0] })], quarters := [(1, { Quarter.reset with nano := [0] })] } : State)) ∧
    ((33 : Nat) < 512) ∧
    (engRuns (engOf ({ up with engines := [(33, { Engine.reset with state := 3, micro := [0] })], quarters := [(1, { Quarter.reset with nano := [0] })] } : State) (33 : Nat)) = true) ∧
    (wordFault (engOf ({ up with engines := [(33, { Engine.reset with state := 3, micro := [0] })], quarters := [(1, { Quarter.reset with nano := [0] })] } : State) (33 : Nat)) (issueOf ({ up with engines := [(33, { Engine.reset with state := 3, micro := [0] })], quarters := [(1, { Quarter.reset with nano := [0] })] } : State) (33 : Nat) ({ eaStatus := 0, loadStat := 0, stall := 2, lmemUe := false, blvdErr := true } : MicroIn)) = some (7 : Nat)) := by
  refine ⟨?_, ?_, ?_, ?_⟩ <;> first | decide | rfl | (apply ok_of; decide +kernel)

theorem test_met_markWordComplete :
    (Runs ({ up with engines := [(33, { Engine.reset with state := 3, inMark := some (.goto 7) })], quarters := [(1, { Quarter.reset with nano := [0] })] } : State)) ∧
    ((engOf ({ up with engines := [(33, { Engine.reset with state := 3, inMark := some (.goto 7) })], quarters := [(1, { Quarter.reset with nano := [0] })] } : State) (33 : Nat)).inMark = some (.goto (7 : Nat))) ∧
    ((engOf ({ up with engines := [(33, { Engine.reset with state := 3, inMark := some (.goto 7) })], quarters := [(1, { Quarter.reset with nano := [0] })] } : State) (33 : Nat)).cancel = false) ∧
    ((engOf ({ up with engines := [(33, { Engine.reset with state := 3, inMark := some (.goto 7) })], quarters := [(1, { Quarter.reset with nano := [0] })] } : State) (33 : Nat)).deadline = false) := by
  refine ⟨?_, ?_, ?_, ?_⟩ <;> first | decide | rfl | (apply ok_of; decide +kernel)

theorem test_met_markWordComplete_2 :
    (Runs ({ up with engines := [(33, { Engine.reset with state := 3, inMark := some .dispatch, unit := some { quarter := 1, engine := 33, handle := 5, frame := 7, band := 1, branch := 0, col := 0, block := 0, stage := 0 } })], quarters := [(1, { Quarter.reset with nano := [0] })] } : State)) ∧
    ((engOf ({ up with engines := [(33, { Engine.reset with state := 3, inMark := some .dispatch, unit := some { quarter := 1, engine := 33, handle := 5, frame := 7, band := 1, branch := 0, col := 0, block := 0, stage := 0 } })], quarters := [(1, { Quarter.reset with nano := [0] })] } : State) (33 : Nat)).inMark = some .dispatch) ∧
    ((engOf ({ up with engines := [(33, { Engine.reset with state := 3, inMark := some .dispatch, unit := some { quarter := 1, engine := 33, handle := 5, frame := 7, band := 1, branch := 0, col := 0, block := 0, stage := 0 } })], quarters := [(1, { Quarter.reset with nano := [0] })] } : State) (33 : Nat)).cancel = false) ∧
    ((engOf ({ up with engines := [(33, { Engine.reset with state := 3, inMark := some .dispatch, unit := some { quarter := 1, engine := 33, handle := 5, frame := 7, band := 1, branch := 0, col := 0, block := 0, stage := 0 } })], quarters := [(1, { Quarter.reset with nano := [0] })] } : State) (33 : Nat)).deadline = false) ∧
    ((engOf ({ up with engines := [(33, { Engine.reset with state := 3, inMark := some .dispatch, unit := some { quarter := 1, engine := 33, handle := 5, frame := 7, band := 1, branch := 0, col := 0, block := 0, stage := 0 } })], quarters := [(1, { Quarter.reset with nano := [0] })] } : State) (33 : Nat)).abandoned = false) ∧
    ((engOf ({ up with engines := [(33, { Engine.reset with state := 3, inMark := some .dispatch, unit := some { quarter := 1, engine := 33, handle := 5, frame := 7, band := 1, branch := 0, col := 0, block := 0, stage := 0 } })], quarters := [(1, { Quarter.reset with nano := [0] })] } : State) (33 : Nat)).unit = some ({ quarter := 1, engine := 33, handle := 5, frame := 7, band := 1, branch := 0, col := 0, block := 0, stage := 0 } : UnitRef)) := by
  refine ⟨?_, ?_, ?_, ?_, ?_, ?_⟩ <;> first | decide | rfl | (apply ok_of; decide +kernel)

theorem test_met_markWordComplete_3 :
    (Runs ({ up with engines := [(33, { Engine.reset with state := 3, inMark := some .dispatch, cancel := true })], quarters := [(1, { Quarter.reset with nano := [0] })] } : State)) ∧
    ((engOf ({ up with engines := [(33, { Engine.reset with state := 3, inMark := some .dispatch, cancel := true })], quarters := [(1, { Quarter.reset with nano := [0] })] } : State) (33 : Nat)).inMark = some (.dispatch : MarkNext)) ∧
    ((engOf ({ up with engines := [(33, { Engine.reset with state := 3, inMark := some .dispatch, cancel := true })], quarters := [(1, { Quarter.reset with nano := [0] })] } : State) (33 : Nat)).cancel = true) ∧
    ((engOf ({ up with engines := [(33, { Engine.reset with state := 3, inMark := some .dispatch, cancel := true })], quarters := [(1, { Quarter.reset with nano := [0] })] } : State) (33 : Nat)).state = 3) := by
  refine ⟨?_, ?_, ?_, ?_⟩ <;> first | decide | rfl | (apply ok_of; decide +kernel)

theorem test_met_markWatchdog :
    (Runs ({ up with engines := [(33, { Engine.reset with state := 4 })], quarters := [(1, { Quarter.reset with nano := [0] })] } : State)) ∧
    ((33 : Nat) < 512) ∧
    ((engOf ({ up with engines := [(33, { Engine.reset with state := 4 })], quarters := [(1, { Quarter.reset with nano := [0] })] } : State) (33 : Nat)).state = 3 ∨ (engOf ({ up with engines := [(33, { Engine.reset with state := 4 })], quarters := [(1, { Quarter.reset with nano := [0] })] } : State) (33 : Nat)).state = 4) := by
  refine ⟨?_, ?_, ?_⟩ <;> first | decide | rfl | (apply ok_of; decide +kernel)

theorem test_met_selfShadowCheck :
    (Runs ({ sg with quarters := [(0, { Quarter.reset with state := 1 }), (3, { Quarter.reset with state := 2, shadow := some 5 })], sessions := [(5, { sf with quarter := 0 })] } : State)) ∧
    (look ({ sg with quarters := [(0, { Quarter.reset with state := 1 }), (3, { Quarter.reset with state := 2, shadow := some 5 })], sessions := [(5, { sf with quarter := 0 })] } : State).sessions (5 : Nat) = some ({ sf with quarter := 0 } : Session)) ∧
    (shadowsOf ({ sg with quarters := [(0, { Quarter.reset with state := 1 }), (3, { Quarter.reset with state := 2, shadow := some 5 })], sessions := [(5, { sf with quarter := 0 })] } : State) (5 : Nat) = (3 : Nat) :: ([] : List Nat)) := by
  refine ⟨?_, ?_, ?_⟩ <;> first | decide | rfl | (apply ok_of; decide +kernel)

theorem test_met_selfShadowCheck_2 :
    (Runs ({ sg with quarters := [(0, { Quarter.reset with state := 1 }), (3, { Quarter.reset with state := 2, shadow := some 5 })], sessions := [(5, { sf with quarter := 0 })] } : State)) ∧
    (look ({ sg with quarters := [(0, { Quarter.reset with state := 1 }), (3, { Quarter.reset with state := 2, shadow := some 5 })], sessions := [(5, { sf with quarter := 0 })] } : State).sessions (5 : Nat) = some ({ sf with quarter := 0 } : Session)) ∧
    (shadowsOf ({ sg with quarters := [(0, { Quarter.reset with state := 1 }), (3, { Quarter.reset with state := 2, shadow := some 5 })], sessions := [(5, { sf with quarter := 0 })] } : State) (5 : Nat) = (3 : Nat) :: ([] : List Nat)) := by
  refine ⟨?_, ?_, ?_⟩ <;> first | decide | rfl | (apply ok_of; decide +kernel)

theorem test_met_selfShadowCheck_3 :
    (Runs ({ sg with quarters := [(0, { Quarter.reset with state := 1 }), (3, { Quarter.reset with state := 2, shadow := some 5 })], sessions := [(5, { sf with quarter := 0 })] } : State)) ∧
    (look ({ sg with quarters := [(0, { Quarter.reset with state := 1 }), (3, { Quarter.reset with state := 2, shadow := some 5 })], sessions := [(5, { sf with quarter := 0 })] } : State).sessions (5 : Nat) = some ({ sf with quarter := 0 } : Session)) ∧
    (shadowsOf ({ sg with quarters := [(0, { Quarter.reset with state := 1 }), (3, { Quarter.reset with state := 2, shadow := some 5 })], sessions := [(5, { sf with quarter := 0 })] } : State) (5 : Nat) = (3 : Nat) :: ([] : List Nat)) := by
  refine ⟨?_, ?_, ?_⟩ <;> first | decide | rfl | (apply ok_of; decide +kernel)

theorem test_met_selfShadowCheck_4 :
    (Runs ({ sg with quarters := [(0, { Quarter.reset with state := 1 }), (3, { Quarter.reset with state := 2, shadow := some 5 })], sessions := [(5, { sf with quarter := 0 })] } : State)) ∧
    (look ({ sg with quarters := [(0, { Quarter.reset with state := 1 }), (3, { Quarter.reset with state := 2, shadow := some 5 })], sessions := [(5, { sf with quarter := 0 })] } : State).sessions (5 : Nat) = some ({ sf with quarter := 0 } : Session)) ∧
    (shadowsOf ({ sg with quarters := [(0, { Quarter.reset with state := 1 }), (3, { Quarter.reset with state := 2, shadow := some 5 })], sessions := [(5, { sf with quarter := 0 })] } : State) (5 : Nat) = (3 : Nat) :: ([] : List Nat)) := by
  refine ⟨?_, ?_, ?_⟩ <;> first | decide | rfl | (apply ok_of; decide +kernel)

theorem test_met_selfShadowAbandon :
    (Runs ({ sg with quarters := [(0, { Quarter.reset with state := 1 }), (3, { Quarter.reset with state := 2, shadow := some 5 })], sessions := [(5, { sf with quarter := 0 })] } : State)) ∧
    (look ({ sg with quarters := [(0, { Quarter.reset with state := 1 }), (3, { Quarter.reset with state := 2, shadow := some 5 })], sessions := [(5, { sf with quarter := 0 })] } : State).sessions (5 : Nat) = some ({ sf with quarter := 0 } : Session)) ∧
    (shadowsOf ({ sg with quarters := [(0, { Quarter.reset with state := 1 }), (3, { Quarter.reset with state := 2, shadow := some 5 })], sessions := [(5, { sf with quarter := 0 })] } : State) (5 : Nat) = (3 : Nat) :: ([] : List Nat)) := by
  refine ⟨?_, ?_, ?_⟩ <;> first | decide | rfl | (apply ok_of; decide +kernel)

theorem test_met_engineGate :
    (Runs ({ up with plan := { up.plan with cfg := { up.plan.cfg with gating := 1, gang := 2 } }, engines := [(4, { Engine.reset with state := 2 }), (5, { Engine.reset with state := 2 })] } : State)) ∧
    (({ up with plan := { up.plan with cfg := { up.plan.cfg with gating := 1, gang := 2 } }, engines := [(4, { Engine.reset with state := 2 }), (5, { Engine.reset with state := 2 })] } : State).plan.cfg.gating = 1) ∧
    ((5 : Nat) < 512) ∧
    (gangIdle ({ up with plan := { up.plan with cfg := { up.plan.cfg with gating := 1, gang := 2 } }, engines := [(4, { Engine.reset with state := 2 }), (5, { Engine.reset with state := 2 })] } : State) (5 : Nat) = true) := by
  refine ⟨?_, ?_, ?_, ?_⟩ <;> first | decide | rfl | (apply ok_of; decide +kernel)

theorem test_met_engineUngate :
    (Runs ({ up with engines := [(5, { Engine.reset with role := 2 })] } : State)) ∧ ((5 : Nat) < 512) ∧
    (gangWanted ({ up with engines := [(5, { Engine.reset with role := 2 })] } : State) (5 : Nat) = true) := by
  refine ⟨?_, ?_, ?_⟩ <;> first | decide | rfl | (apply ok_of; decide +kernel)

theorem test_met_engineUngate_2 :
    (Runs (up : State)) ∧ (512 ≤ (512 : Nat) ∨ gangWanted (up : State) (512 : Nat) = false) := by
  refine ⟨?_, ?_⟩ <;> first | decide | rfl | (apply ok_of; decide +kernel)

/-! Hypotheses of MemoryChannelsAreKept are met. -/

theorem test_met_caParityError :
    (Runs (ram : State)) ∧ ((11 : Nat) < 12) ∧ (1 ≤ (2 : Nat)) ∧ ((2 : Nat) < 3) := by
  refine ⟨?_, ?_, ?_, ?_⟩ <;> first | decide | rfl | (apply ok_of; decide +kernel)

theorem test_met_caParityError_2 :
    (Runs (ram : State)) ∧ ((11 : Nat) < 12) ∧ (3 ≤ (3 : Nat)) := by
  refine ⟨?_, ?_, ?_⟩ <;> first | decide | rfl | (apply ok_of; decide +kernel)

theorem test_met_rankSpareCopyDone :
    (Runs ({ ram with memc := { ram.memc with chans := [(3, { Chan.reset with state := 3, copying := some 1 })] } } : State)) ∧
    ((chanOf ({ ram with memc := { ram.memc with chans := [(3, { Chan.reset with state := 3, copying := some 1 })] } } : State) (3 : Nat)).copying = some (1 : Nat)) := by
  refine ⟨?_, ?_⟩ <;> first | decide | rfl | (apply ok_of; decide +kernel)

theorem test_met_refreshInterval :
    (Runs (ram : State)) ∧ (chanUp (ram : State) (3 : Nat) = true) := by
  refine ⟨?_, ?_⟩ <;> first | decide | rfl | (apply ok_of; decide +kernel)

theorem test_met_dimmTempPoll :
    (Runs (ram : State)) ∧ (chanUp (ram : State) (3 : Nat) = true) := by
  refine ⟨?_, ?_⟩ <;> first | decide | rfl | (apply ok_of; decide +kernel)

theorem test_met_trackerWindowReset :
    (Runs (ram : State)) ∧ ((3 : Nat) < 12) := by
  refine ⟨?_, ?_⟩ <;> first | decide | rfl | (apply ok_of; decide +kernel)

theorem test_met_throttleExpiry :
    (Runs ({ ram with memc := { ram.memc with chans := [(3, { Chan.reset with state := 3, throttled := [(5, 0)] })] } } : State)) ∧
    (look (chanOf ({ ram with memc := { ram.memc with chans := [(3, { Chan.reset with state := 3, throttled := [(5, 0)] })] } } : State) (3 : Nat)).throttled (5 : ReqId).toNat = some 0) ∧
    (fld (chanOf ({ ram with memc := { ram.memc with chans := [(3, { Chan.reset with state := 3, throttled := [(5, 0)] })] } } : State) (3 : Nat)).lastThr 31 22 ≠ (5 : ReqId).toNat) := by
  refine ⟨?_, ?_, ?_⟩ <;> first | decide | rfl | (apply ok_of; decide +kernel)

theorem test_met_throttleExpiry_2 :
    (Runs ({ ram with memc := { ram.memc with chans := [(3, { Chan.reset with state := 3, throttled := [(0, 0)] })] } } : State)) ∧
    (look (chanOf ({ ram with memc := { ram.memc with chans := [(3, { Chan.reset with state := 3, throttled := [(0, 0)] })] } } : State) (3 : Nat)).throttled (0 : ReqId).toNat = some 0) ∧
    (fld (chanOf ({ ram with memc := { ram.memc with chans := [(3, { Chan.reset with state := 3, throttled := [(0, 0)] })] } } : State) (3 : Nat)).lastThr 31 22 = (0 : ReqId).toNat) := by
  refine ⟨?_, ?_, ?_⟩ <;> first | decide | rfl | (apply ok_of; decide +kernel)

theorem test_met_dramInitDone :
    (Runs (ram : State)) ∧ ((ram : State).memc.initDone = false) ∧ ((ram : State).sec.stage = 3 ∨ (ram : State).sec.stage = 4) ∧
    ((ram : State).pool.gone = []) := by
  refine ⟨?_, ?_, ?_, ?_⟩ <;> first | decide | rfl | (apply ok_of; decide +kernel)

theorem test_met_scrubRead :
    (Runs ({ ram with memc := { ram.memc with scrubCfg := 1, scrubPos := 0 } } : State)) ∧
    (bit ({ ram with memc := { ram.memc with scrubCfg := 1, scrubPos := 0 } } : State).memc.scrubCfg 0 = true) ∧
    (({ ram with memc := { ram.memc with scrubCfg := 1, scrubPos := 0 } } : State).memc.en = true) ∧
    (({ ram with memc := { ram.memc with scrubCfg := 1, scrubPos := 0 } } : State).pwr.state < 3) ∧
    (({ ram with memc := { ram.memc with scrubCfg := 1, scrubPos := 0 } } : State).memc.scrubPos * 64 + 64 < capacity ({ ram with memc := { ram.memc with scrubCfg := 1, scrubPos := 0 } } : State)) := by
  refine ⟨?_, ?_, ?_, ?_, ?_⟩ <;> first | decide | rfl | (apply ok_of; decide +kernel)

theorem test_met_scrubRead_2 :
    (Runs ({ ram with memc := { ram.memc with scrubCfg := 1, scrubPos := 2 ^ 40 } } : State)) ∧
    (bit ({ ram with memc := { ram.memc with scrubCfg := 1, scrubPos := 2 ^ 40 } } : State).memc.scrubCfg 0 = true) ∧
    (({ ram with memc := { ram.memc with scrubCfg := 1, scrubPos := 2 ^ 40 } } : State).memc.en = true) ∧
    (({ ram with memc := { ram.memc with scrubCfg := 1, scrubPos := 2 ^ 40 } } : State).pwr.state < 3) ∧
    (capacity ({ ram with memc := { ram.memc with scrubCfg := 1, scrubPos := 2 ^ 40 } } : State) ≤ ({ ram with memc := { ram.memc with scrubCfg := 1, scrubPos := 2 ^ 40 } } : State).memc.scrubPos * 64 + 64) := by
  refine ⟨?_, ?_, ?_, ?_, ?_⟩ <;> first | decide | rfl | (apply ok_of; decide +kernel)

/-! Hypotheses of ThePoolAllocatesClaimsAndReleases are met. -/

theorem test_met_allocate :
    (Runs (sg : State)) ∧
    ((keptOps (sg : State)).find? (fun e => decide (e.1 = ({ req := 9, mark := 1 } : PoolId).req) && decide (e.2.1 = ({ req := 9, mark := 1 } : PoolId).mark)) = none) ∧
    (0 < (1048576 : Nat)) ∧ ((1048576 : Nat) ≤ 8388608) ∧
    (quotaCode (sg : State) ({ kind := 0, index := 5 } : PoolReq) (classFor (1048576 : Nat)) = none) ∧ ((sg : State).pool.en = true) ∧
    (popRun (lookD (sg : State).pool.free (classFor (1048576 : Nat)) []) = some ((0 : Nat), ([(1, 63)] : List (Nat × Nat)))) := by
  refine ⟨?_, ?_, ?_, ?_, ?_, ?_, ?_⟩ <;> first | decide | rfl | (apply ok_of; decide +kernel)

theorem test_met_allocate_2 :
    (Runs (sg : State)) ∧
    ((keptOps (sg : State)).find? (fun e => decide (e.1 = ({ req := 9, mark := 1 } : PoolId).req) && decide (e.2.1 = ({ req := 9, mark := 1 } : PoolId).mark)) = none) ∧
    ((8388609 : Nat) = 0 ∨ 8388608 < (8388609 : Nat)) ∧ (({ kind := 1, index := 5 } : PoolReq).kind ≠ 0) := by
  refine ⟨?_, ?_, ?_, ?_⟩ <;> first | decide | rfl | (apply ok_of; decide +kernel)

theorem test_met_allocate_3 :
    (Runs ({ sg with pool := { sg.pool with applied := [(9, 1, 0, .done)] } } : State)) ∧
    ((keptOps ({ sg with pool := { sg.pool with applied := [(9, 1, 0, .done)] } } : State)).find? (fun r => decide (r.1 = ({ req := 9, mark := 1 } : PoolId).req) && decide (r.2.1 = ({ req := 9, mark := 1 } : PoolId).mark)) = some ((9, 1, 0, .done) : ReqId × DWord × BitVec 40 × PoolReply)) := by
  refine ⟨?_, ?_⟩ <;> first | decide | rfl | (apply ok_of; decide +kernel)

theorem test_met_claim :
    (Runs ({ sg with pool := { sg.pool with bufs := [(bufKey 3 0, { gen := 0, owner := { kind := 0, index := 5 }, fn := 0, hold := true, refs := 1, recs := [], secret := false, charged := true })] } } : State)) ∧
    ((keptOps ({ sg with pool := { sg.pool with bufs := [(bufKey 3 0, { gen := 0, owner := { kind := 0, index := 5 }, fn := 0, hold := true, refs := 1, recs := [], secret := false, charged := true })] } } : State)).find? (fun e => decide (e.1 = ({ req := 9, mark := 1 } : PoolId).req) && decide (e.2.1 = ({ req := 9, mark := 1 } : PoolId).mark)) = none) ∧
    (wellFormed ({ sg with pool := { sg.pool with bufs := [(bufKey 3 0, { gen := 0, owner := { kind := 0, index := 5 }, fn := 0, hold := true, refs := 1, recs := [], secret := false, charged := true })] } } : State) (0x60000000 : Word) = true) ∧
    (currentBuf ({ sg with pool := { sg.pool with bufs := [(bufKey 3 0, { gen := 0, owner := { kind := 0, index := 5 }, fn := 0, hold := true, refs := 1, recs := [], secret := false, charged := true })] } } : State) (0x60000000 : Word) = some ({ gen := 0, owner := { kind := 0, index := 5 }, fn := 0, hold := true, refs := 1, recs := [], secret := false, charged := true } : Buf)) ∧
    (recOf ({ gen := 0, owner := { kind := 0, index := 5 }, fn := 0, hold := true, refs := 1, recs := [], secret := false, charged := true } : Buf) ({ kind := 3, index := 0 } : PoolReq) = none) ∧
    (freeRec ({ gen := 0, owner := { kind := 0, index := 5 }, fn := 0, hold := true, refs := 1, recs := [], secret := false, charged := true } : Buf) = some (1 : Nat)) ∧
    (0 < ({ sg with pool := { sg.pool with bufs := [(bufKey 3 0, { gen := 0, owner := { kind := 0, index := 5 }, fn := 0, hold := true, refs := 1, recs := [], secret := false, charged := true })] } } : State).pool.claimFree) ∧
    (({ gen := 0, owner := { kind := 0, index := 5 }, fn := 0, hold := true, refs := 1, recs := [], secret := false, charged := true } : Buf).refs < 65535) := by
  refine ⟨?_, ?_, ?_, ?_, ?_, ?_, ?_, ?_⟩ <;> first | decide | rfl | (apply ok_of; decide +kernel)

theorem test_met_claim_2 :
    (Runs (sg : State)) ∧
    ((keptOps (sg : State)).find? (fun e => decide (e.1 = ({ req := 9, mark := 1 } : PoolId).req) && decide (e.2.1 = ({ req := 9, mark := 1 } : PoolId).mark)) = none) ∧
    (wellFormed (sg : State) (0xFFFFFFFF : Word) = false) := by
  refine ⟨?_, ?_, ?_⟩ <;> first | decide | rfl | (apply ok_of; decide +kernel)

theorem test_met_release :
    (Runs ({ sg with pool := { sg.pool with bufs := [(bufKey 3 0, { gen := 0, owner := { kind := 0, index := 5 }, fn := 0, hold := true, refs := 1, recs := [], secret := false, charged := true })] } } : State)) ∧
    ((keptOps ({ sg with pool := { sg.pool with bufs := [(bufKey 3 0, { gen := 0, owner := { kind := 0, index := 5 }, fn := 0, hold := true, refs := 1, recs := [], secret := false, charged := true })] } } : State)).find? (fun e => decide (e.1 = ({ req := 9, mark := 1 } : PoolId).req) && decide (e.2.1 = ({ req := 9, mark := 1 } : PoolId).mark)) = none) ∧
    (wellFormed ({ sg with pool := { sg.pool with bufs := [(bufKey 3 0, { gen := 0, owner := { kind := 0, index := 5 }, fn := 0, hold := true, refs := 1, recs := [], secret := false, charged := true })] } } : State) (0x60000000 : Word) = true) ∧
    (currentBuf ({ sg with pool := { sg.pool with bufs := [(bufKey 3 0, { gen := 0, owner := { kind := 0, index := 5 }, fn := 0, hold := true, refs := 1, recs := [], secret := false, charged := true })] } } : State) (0x60000000 : Word) = some ({ gen := 0, owner := { kind := 0, index := 5 }, fn := 0, hold := true, refs := 1, recs := [], secret := false, charged := true } : Buf)) ∧
    (({ gen := 0, owner := { kind := 0, index := 5 }, fn := 0, hold := true, refs := 1, recs := [], secret := false, charged := true } : Buf).owner = ({ kind := 0, index := 5 } : PoolReq)) ∧
    (({ gen := 0, owner := { kind := 0, index := 5 }, fn := 0, hold := true, refs := 1, recs := [], secret := false, charged := true } : Buf).hold = true) ∧
    (({ gen := 0, owner := { kind := 0, index := 5 }, fn := 0, hold := true, refs := 1, recs := [], secret := false, charged := true } : Buf).refs = 1) ∧
    (({ gen := 0, owner := { kind := 0, index := 5 }, fn := 0, hold := true, refs := 1, recs := [], secret := false, charged := true } : Buf).secret = false) ∧
    (has ({ sg with pool := { sg.pool with bufs := [(bufKey 3 0, { gen := 0, owner := { kind := 0, index := 5 }, fn := 0, hold := true, refs := 1, recs := [], secret := false, charged := true })] } } : State).pool.gone (bufKey (hClass (0x60000000 : Word)) (hIndex (0x60000000 : Word))) = false) ∧
    ((({ gen := 0, owner := { kind := 0, index := 5 }, fn := 0, hold := true, refs := 1, recs := [], secret := false, charged := true } : Buf).gen + 1) % 16 ≠ 0) := by
  refine ⟨?_, ?_, ?_, ?_, ?_, ?_, ?_, ?_, ?_, ?_⟩ <;> first | decide | rfl | (apply ok_of; decide +kernel)

/-! Hypotheses of QueuesCarryBeats are met. -/

theorem test_met_queueBeatWrite :
    (Runs ({ ram with plan := { ram.plan with first := true }, queue := { ram.queue with en := true, queues := [(0x10003, { emptyQueue with slot := true, visSeq := 0 })] } } : State)) ∧
    (({ ram with plan := { ram.plan with first := true }, queue := { ram.queue with en := true, queues := [(0x10003, { emptyQueue with slot := true, visSeq := 0 })] } } : State).queue.en = true) ∧
    (internalQueue (0x10003 : Nat) = true) ∧
    (look ({ ram with plan := { ram.plan with first := true }, queue := { ram.queue with en := true, queues := [(0x10003, { emptyQueue with slot := true, visSeq := 0 })] } } : State).queue.queues (0x10003 : Nat) = some ({ emptyQueue with slot := true, visSeq := 0 } : Queue)) ∧
    (({ emptyQueue with slot := true, visSeq := 0 } : Queue).slot = true) ∧ (({ emptyQueue with slot := true, visSeq := 0 } : Queue).blocks = 0) ∧
    (({ emptyQueue with slot := true, visSeq := 0 } : Queue).stalled = []) ∧ (({ emptyQueue with slot := true, visSeq := 0 } : Queue).reserved = []) ∧
    (partialOf ({ emptyQueue with slot := true, visSeq := 0 } : Queue) ({ kind := 5, index := 3 } : PoolReq) = none) ∧
    (parseHeader (2#256 : BitVec 256) = some ((2 : Nat), 1, (none : Option (Word × Nat)))) ∧
    (beatsHeld ({ emptyQueue with slot := true, visSeq := 0 } : Queue) < 32) := by
  refine ⟨?_, ?_, ?_, ?_, ?_, ?_, ?_, ?_, ?_, ?_, ?_⟩ <;> first | decide | rfl | (apply ok_of; decide +kernel)

theorem test_met_queueBeatWrite_2 :
    (Runs ({ ram with plan := { ram.plan with first := true }, queue := { ram.queue with en := true, queues := [(0x10003, { emptyQueue with slot := true, visSeq := 0 })] } } : State)) ∧
    (({ ram with plan := { ram.plan with first := true }, queue := { ram.queue with en := true, queues := [(0x10003, { emptyQueue with slot := true, visSeq := 0 })] } } : State).queue.en = true) ∧
    (queueId (0x10003 : Nat) = true) ∧
    ((queueOf ({ ram with plan := { ram.plan with first := true }, queue := { ram.queue with en := true, queues := [(0x10003, { emptyQueue with slot := true, visSeq := 0 })] } } : State) (0x10003 : Nat)).stalled = []) ∧
    (beatRoom ({ ram with plan := { ram.plan with first := true }, queue := { ram.queue with en := true, queues := [(0x10003, { emptyQueue with slot := true, visSeq := 0 })] } } : State) (0x10003 : Nat) ({ kind := 5, index := 3 } : PoolReq) (queueOf ({ ram with plan := { ram.plan with first := true }, queue := { ram.queue with en := true, queues := [(0x10003, { emptyQueue with slot := true, visSeq := 0 })] } } : State) (0x10003 : Nat)) = true) ∧
    (partialOf (queueOf ({ ram with plan := { ram.plan with first := true }, queue := { ram.queue with en := true, queues := [(0x10003, { emptyQueue with slot := true, visSeq := 0 })] } } : State) (0x10003 : Nat)) ({ kind := 5, index := 3 } : PoolReq) = none) ∧
    (parseHeader (0x80#256 : BitVec 256) = none) ∧
    ((queueOf ({ ram with plan := { ram.plan with first := true }, queue := { ram.queue with en := true, queues := [(0x10003, { emptyQueue with slot := true, visSeq := 0 })] } } : State) (0x10003 : Nat)).reserved = []) := by
  refine ⟨?_, ?_, ?_, ?_, ?_, ?_, ?_, ?_⟩ <;> first | decide | rfl | (apply ok_of; decide +kernel)

theorem test_met_queueBeatWrite_3 :
    (Runs ({ ram with queue := { ram.queue with en := true, queues := [(0x10200, { emptyQueue with reserved := [(1, 32)], blocks := 1 })] } } : State)) ∧
    (({ ram with queue := { ram.queue with en := true, queues := [(0x10200, { emptyQueue with reserved := [(1, 32)], blocks := 1 })] } } : State).queue.en = true) ∧
    (queueId (0x10200 : Nat) = true) ∧
    ((queueOf ({ ram with queue := { ram.queue with en := true, queues := [(0x10200, { emptyQueue with reserved := [(1, 32)], blocks := 1 })] } } : State) (0x10200 : Nat)).stalled.any (fun e => decide (e.1 = ({ kind := 5, index := 3 } : PoolReq))) = false) ∧
    (beatRoom ({ ram with queue := { ram.queue with en := true, queues := [(0x10200, { emptyQueue with reserved := [(1, 32)], blocks := 1 })] } } : State) (0x10200 : Nat) ({ kind := 5, index := 3 } : PoolReq) (queueOf ({ ram with queue := { ram.queue with en := true, queues := [(0x10200, { emptyQueue with reserved := [(1, 32)], blocks := 1 })] } } : State) (0x10200 : Nat)) = false) := by
  refine ⟨?_, ?_, ?_, ?_, ?_⟩ <;> first | decide | rfl | (apply ok_of; decide +kernel)

theorem test_met_queueRead :
    (Runs ({ ram with plan := { ram.plan with first := true }, queue := { ram.queue with en := true, queues := [(0x10003, { emptyQueue with slot := true, aborted := true })] } } : State)) ∧
    (({ ram with plan := { ram.plan with first := true }, queue := { ram.queue with en := true, queues := [(0x10003, { emptyQueue with slot := true, aborted := true })] } } : State).queue.en = true) ∧
    ((queueOf ({ ram with plan := { ram.plan with first := true }, queue := { ram.queue with en := true, queues := [(0x10003, { emptyQueue with slot := true, aborted := true })] } } : State) (0x10003 : Nat)).aborted = true) := by
  refine ⟨?_, ?_, ?_⟩ <;> first | decide | rfl | (apply ok_of; decide +kernel)

theorem test_met_queueRead_2 :
    (Runs ({ ram with plan := { ram.plan with first := true }, queue := { ram.queue with en := true, queues := [(0x10003, { emptyQueue with slot := true, items := [{ producer := { kind := 5, index := 3 }, prio := 2, size := 2, hold := none, beats := [10#256, 7#256], written := 2, vis := some 0, taken := 0, cut := false }] })] } } : State)) ∧
    (({ ram with plan := { ram.plan with first := true }, queue := { ram.queue with en := true, queues := [(0x10003, { emptyQueue with slot := true, items := [{ producer := { kind := 5, index := 3 }, prio := 2, size := 2, hold := none, beats := [10#256, 7#256], written := 2, vis := some 0, taken := 0, cut := false }] })] } } : State).queue.en = true) ∧
    ((queueOf ({ ram with plan := { ram.plan with first := true }, queue := { ram.queue with en := true, queues := [(0x10003, { emptyQueue with slot := true, items := [{ producer := { kind := 5, index := 3 }, prio := 2, size := 2, hold := none, beats := [10#256, 7#256], written := 2, vis := some 0, taken := 0, cut := false }] })] } } : State) (0x10003 : Nat)).aborted = false) ∧
    (nextItem (queueOf ({ ram with plan := { ram.plan with first := true }, queue := { ram.queue with en := true, queues := [(0x10003, { emptyQueue with slot := true, items := [{ producer := { kind := 5, index := 3 }, prio := 2, size := 2, hold := none, beats := [10#256, 7#256], written := 2, vis := some 0, taken := 0, cut := false }] })] } } : State) (0x10003 : Nat)) = some ({ producer := { kind := 5, index := 3 }, prio := 2, size := 2, hold := none, beats := [10#256, 7#256], written := 2, vis := some 0, taken := 0, cut := false } : Item)) ∧
    (({ producer := { kind := 5, index := 3 }, prio := 2, size := 2, hold := none, beats := [10#256, 7#256], written := 2, vis := some 0, taken := 0, cut := false } : Item).taken + 1 < ({ producer := { kind := 5, index := 3 }, prio := 2, size := 2, hold := none, beats := [10#256, 7#256], written := 2, vis := some 0, taken := 0, cut := false } : Item).size) := by
  refine ⟨?_, ?_, ?_, ?_, ?_⟩ <;> first | decide | rfl | (apply ok_of; decide +kernel)

theorem test_met_queueRead_3 :
    (Runs ({ ram with plan := { ram.plan with first := true }, queue := { ram.queue with en := true, queues := [(0x10003, { emptyQueue with slot := true, items := [{ producer := { kind := 5, index := 3 }, prio := 2, size := 1, hold := none, beats := [2#256], written := 1, vis := some 0, taken := 0, cut := false }] })] } } : State)) ∧
    (({ ram with plan := { ram.plan with first := true }, queue := { ram.queue with en := true, queues := [(0x10003, { emptyQueue with slot := true, items := [{ producer := { kind := 5, index := 3 }, prio := 2, size := 1, hold := none, beats := [2#256], written := 1, vis := some 0, taken := 0, cut := false }] })] } } : State).queue.en = true) ∧
    ((queueOf ({ ram with plan := { ram.plan with first := true }, queue := { ram.queue with en := true, queues := [(0x10003, { emptyQueue with slot := true, items := [{ producer := { kind := 5, index := 3 }, prio := 2, size := 1, hold := none, beats := [2#256], written := 1, vis := some 0, taken := 0, cut := false }] })] } } : State) (0x10003 : Nat)).aborted = false) ∧
    (nextItem (queueOf ({ ram with plan := { ram.plan with first := true }, queue := { ram.queue with en := true, queues := [(0x10003, { emptyQueue with slot := true, items := [{ producer := { kind := 5, index := 3 }, prio := 2, size := 1, hold := none, beats := [2#256], written := 1, vis := some 0, taken := 0, cut := false }] })] } } : State) (0x10003 : Nat)) = some ({ producer := { kind := 5, index := 3 }, prio := 2, size := 1, hold := none, beats := [2#256], written := 1, vis := some 0, taken := 0, cut := false } : Item)) ∧
    (({ producer := { kind := 5, index := 3 }, prio := 2, size := 1, hold := none, beats := [2#256], written := 1, vis := some 0, taken := 0, cut := false } : Item).taken + 1 = ({ producer := { kind := 5, index := 3 }, prio := 2, size := 1, hold := none, beats := [2#256], written := 1, vis := some 0, taken := 0, cut := false } : Item).size) := by
  refine ⟨?_, ?_, ?_, ?_, ?_⟩ <;> first | decide | rfl | (apply ok_of; decide +kernel)

theorem test_met_queueStallRelease :
    (Runs ({ ram with plan := { ram.plan with first := true }, queue := { ram.queue with en := true, queues := [(0x10003, { emptyQueue with slot := true, stalled := [({ kind := 5, index := 3 }, true, 2#256)] })] } } : State)) ∧
    (({ ram with plan := { ram.plan with first := true }, queue := { ram.queue with en := true, queues := [(0x10003, { emptyQueue with slot := true, stalled := [({ kind := 5, index := 3 }, true, 2#256)] })] } } : State).queue.en = true) ∧
    ((queueOf ({ ram with plan := { ram.plan with first := true }, queue := { ram.queue with en := true, queues := [(0x10003, { emptyQueue with slot := true, stalled := [({ kind := 5, index := 3 }, true, 2#256)] })] } } : State) (0x10003 : Nat)).stalled = (({ kind := 5, index := 3 } : PoolReq), (true : Bool), (2#256 : BitVec 256)) :: ([] : List (PoolReq × Bool × BitVec 256))) ∧
    (beatRoom ({ ram with plan := { ram.plan with first := true }, queue := { ram.queue with en := true, queues := [(0x10003, { emptyQueue with slot := true, stalled := [({ kind := 5, index := 3 }, true, 2#256)] })] } } : State) (0x10003 : Nat) ({ kind := 5, index := 3 } : PoolReq) (queueOf ({ ram with plan := { ram.plan with first := true }, queue := { ram.queue with en := true, queues := [(0x10003, { emptyQueue with slot := true, stalled := [({ kind := 5, index := 3 }, true, 2#256)] })] } } : State) (0x10003 : Nat)) = true) := by
  refine ⟨?_, ?_, ?_, ?_⟩ <;> first | decide | rfl | (apply ok_of; decide +kernel)

theorem test_met_queueReserve : ∃ t, reserveBeats 0x10003 { kind := 5, index := 3 } 9 ({ ram with plan := { ram.plan with first := true }, queue := { ram.queue with en := true, queues := [(0x10003, { emptyQueue with slot := true, visSeq := 0 })] } }) = some t := by
  exact Option.isSome_iff_exists.mp (by decide +kernel)

theorem test_met_queueReserve_2 :
    (Runs ({ ram with plan := { ram.plan with first := true }, queue := { ram.queue with en := true, queues := [(0x10003, { emptyQueue with slot := true, visSeq := 0 })] } } : State)) ∧
    (({ ram with plan := { ram.plan with first := true }, queue := { ram.queue with en := true, queues := [(0x10003, { emptyQueue with slot := true, visSeq := 0 })] } } : State).queue.en = true) ∧
    (queueId (0x10003 : Nat) = true) ∧
    ((65 : Nat) = 0 ∨ 64 < (65 : Nat) ∨ reserveBeats (0x10003 : Nat) ({ kind := 5, index := 3 } : PoolReq) (65 : Nat) ({ ram with plan := { ram.plan with first := true }, queue := { ram.queue with en := true, queues := [(0x10003, { emptyQueue with slot := true, visSeq := 0 })] } } : State) = none) := by
  refine ⟨?_, ?_, ?_, ?_⟩ <;> first | decide | rfl | (apply ok_of; decide +kernel)

/-! Hypotheses of QueuesAreFlushedAndConfigured are met. -/

theorem test_met_queueFlush :
    (Serves (ram : State)) ∧ ((1 : Word) &&& 0xFFFFFEFC = 0) ∧ (bit (1 : Word) 8 = false) := by
  refine ⟨?_, ?_, ?_⟩ <;> first | decide | rfl | (apply ok_of; decide +kernel)

theorem test_met_queueFlush_2 :
    (Serves (ram : State)) ∧ ((0x103 : Word) &&& 0xFFFFFEFC = 0) ∧ (bit (0x103 : Word) 8 = true) ∧ (fld (0x103 : Word) 1 0 = 3) := by
  refine ⟨?_, ?_, ?_, ?_⟩ <;> first | decide | rfl | (apply ok_of; decide +kernel)

theorem test_met_queueFlush_3 :
    (Serves ({ ram with queue := { ram.queue with queues := [(0, { emptyQueue with flushing := some true })] } } : State)) ∧
    ((0x100 : Word) &&& 0xFFFFFEFC = 0) ∧ (bit (0x100 : Word) 8 = true) ∧ (fld (0x100 : Word) 1 0 ≠ 3) ∧
    ((queueOf ({ ram with queue := { ram.queue with queues := [(0, { emptyQueue with flushing := some true })] } } : State) (fld ({ ram with queue := { ram.queue with queues := [(0, { emptyQueue with flushing := some true })] } } : State).queue.sel 16 0)).flushing.isSome = true) := by
  refine ⟨?_, ?_, ?_, ?_, ?_⟩ <;> first | decide | rfl | (apply ok_of; decide +kernel)

theorem test_met_queueFlush_4 :
    (Serves (ram : State)) ∧ ((0x100 : Word) &&& 0xFFFFFEFC = 0) ∧ (bit (0x100 : Word) 8 = true) ∧ (fld (0x100 : Word) 1 0 = 0) ∧
    ((queueOf (ram : State) (fld (ram : State).queue.sel 16 0)).flushing = none) := by
  refine ⟨?_, ?_, ?_, ?_, ?_⟩ <;> first | decide | rfl | (apply ok_of; decide +kernel)

theorem test_met_queueFlush_5 :
    (Serves (ram : State)) ∧ ((0x101 : Word) &&& 0xFFFFFEFC = 0) ∧ (bit (0x101 : Word) 8 = true) ∧ (fld (0x101 : Word) 1 0 = 1) ∧
    ((queueOf (ram : State) (fld (ram : State).queue.sel 16 0)).flushing = none) := by
  refine ⟨?_, ?_, ?_, ?_, ?_⟩ <;> first | decide | rfl | (apply ok_of; decide +kernel)

theorem test_met_queueFlush_6 :
    (Serves (ram : State)) ∧ ((0x102 : Word) &&& 0xFFFFFEFC = 0) ∧ (bit (0x102 : Word) 8 = true) ∧ (fld (0x102 : Word) 1 0 = 2) ∧
    ((queueOf (ram : State) (fld (ram : State).queue.sel 16 0)).flushing = none) := by
  refine ⟨?_, ?_, ?_, ?_, ?_⟩ <;> first | decide | rfl | (apply ok_of; decide +kernel)

theorem test_met_flushEnd :
    (Runs ({ ram with plan := { ram.plan with first := true }, queue := { ram.queue with en := true, queues := [(0x10003, { emptyQueue with slot := true, flushing := some false })] } } : State)) ∧
    (flushOver (queueOf ({ ram with plan := { ram.plan with first := true }, queue := { ram.queue with en := true, queues := [(0x10003, { emptyQueue with slot := true, flushing := some false })] } } : State) (0x10003 : Nat)) = true) ∧
    ((queueOf ({ ram with plan := { ram.plan with first := true }, queue := { ram.queue with en := true, queues := [(0x10003, { emptyQueue with slot := true, flushing := some false })] } } : State) (0x10003 : Nat)).rel = []) := by
  refine ⟨?_, ?_, ?_⟩ <;> first | decide | rfl | (apply ok_of; decide +kernel)

theorem test_met_flushEnd_2 :
    (Runs ({ ram with plan := { ram.plan with first := true }, queue := { ram.queue with en := true, queues := [(0x10003, { emptyQueue with slot := true, visSeq := 0 })] } } : State)) ∧
    (flushOver (queueOf ({ ram with plan := { ram.plan with first := true }, queue := { ram.queue with en := true, queues := [(0x10003, { emptyQueue with slot := true, visSeq := 0 })] } } : State) (0x10003 : Nat)) = false) := by
  refine ⟨?_, ?_⟩ <;> first | decide | rfl | (apply ok_of; decide +kernel)

theorem test_met_queueCtrlWrite :
    (Serves ({ ram with plan := { ram.plan with first := true }, queue := { ram.queue with en := true, queues := [(0x10003, emptyQueue)] } } : State)) ∧
    ((1 : Word) &&& 0xFFFFFFFE = 0) ∧ (bit (1 : Word) 0 = true) ∧
    (({ ram with plan := { ram.plan with first := true }, queue := { ram.queue with en := true, queues := [(0x10003, emptyQueue)] } } : State).memc.en = true) ∧
    (({ ram with plan := { ram.plan with first := true }, queue := { ram.queue with en := true, queues := [(0x10003, emptyQueue)] } } : State).plan.first = true) := by
  refine ⟨?_, ?_, ?_, ?_, ?_⟩ <;> first | decide | rfl | (apply ok_of; decide +kernel)

theorem test_met_queueCtrlWrite_2 :
    (Serves (up : State)) ∧ ((1 : Word) &&& 0xFFFFFFFE = 0) ∧ (bit (1 : Word) 0 = true) ∧ ((up : State).memc.en = false ∨ (up : State).plan.first = false) := by
  refine ⟨?_, ?_, ?_, ?_⟩ <;> first | decide | rfl | (apply ok_of; decide +kernel)

theorem test_met_queueCtrlWrite_3 :
    (Serves (ram : State)) ∧ ((0 : Word) &&& 0xFFFFFFFE = 0) ∧ (bit (0 : Word) 0 = false) := by
  refine ⟨?_, ?_, ?_⟩ <;> first | decide | rfl | (apply ok_of; decide +kernel)

theorem test_met_queueSelWrite :
    (Serves (up : State)) ∧ ((0x11FFF : Word) &&& 0xFFFE0000 = 0) ∧ (fld (0x11FFF : Word) 16 0 ≤ 0x11FFF) := by
  refine ⟨?_, ?_, ?_⟩ <;> first | decide | rfl | (apply ok_of; decide +kernel)

theorem test_met_queueSelWrite_2 :
    (Serves (up : State)) ∧ ((0x12000 : Word) &&& 0xFFFE0000 = 0) ∧ (0x11FFF < fld (0x12000 : Word) 16 0) := by
  refine ⟨?_, ?_, ?_⟩ <;> first | decide | rfl | (apply ok_of; decide +kernel)

/-! Hypotheses of FunctionsAndRingsAreEnabledAndDisabled are met. -/

theorem test_met_vfEnable :
    (Runs (up : State)) ∧ (1 ≤ (255 : Nat)) ∧ ((255 : Nat) ≤ 255) ∧ ((up : State).vfCount = 0) := by
  refine ⟨?_, ?_, ?_, ?_⟩ <;> first | decide | rfl | (apply ok_of; decide +kernel)

theorem test_met_vfEnable_2 :
    (Runs (up : State)) ∧ ((256 : Nat) = 0 ∨ 255 < (256 : Nat) ∨ (up : State).vfCount ≠ 0) := by
  refine ⟨?_, ?_⟩ <;> first | decide | rfl | (apply ok_of; decide +kernel)

theorem test_met_vfDisable :
    (Runs ({ up with vfCount := 3 } : State)) := by
  first | decide | rfl | (apply ok_of; decide +kernel)

theorem test_met_cmdqCtrlWrite :
    (Serves ({ up with fns := [(0, { Fn.reset with cmd := [(0, { CmdRing.reset with cfg := 4, tail := 9 })], cq := [(0, { CqRing.reset with en := true, cfg := 4 })] })] } : State)) ∧
    ((1 : Word) &&& 0xFFFFFFFE = 0) ∧
    (fnOn ({ up with fns := [(0, { Fn.reset with cmd := [(0, { CmdRing.reset with cfg := 4, tail := 9 })], cq := [(0, { CqRing.reset with en := true, cfg := 4 })] })] } : State) (0 : Nat) = true) ∧
    ((0 : Nat) < 8) ∧ (bit (1 : Word) 0 = true) ∧
    ((cmdOf ({ up with fns := [(0, { Fn.reset with cmd := [(0, { CmdRing.reset with cfg := 4, tail := 9 })], cq := [(0, { CqRing.reset with en := true, cfg := 4 })] })] } : State) (0 : Nat) (0 : Nat)).en = false) ∧
    (ringCfgOk (cmdOf ({ up with fns := [(0, { Fn.reset with cmd := [(0, { CmdRing.reset with cfg := 4, tail := 9 })], cq := [(0, { CqRing.reset with en := true, cfg := 4 })] })] } : State) (0 : Nat) (0 : Nat)).base (cmdOf ({ up with fns := [(0, { Fn.reset with cmd := [(0, { CmdRing.reset with cfg := 4, tail := 9 })], cq := [(0, { CqRing.reset with en := true, cfg := 4 })] })] } : State) (0 : Nat) (0 : Nat)).cfg = true) ∧
    ((cqOf ({ up with fns := [(0, { Fn.reset with cmd := [(0, { CmdRing.reset with cfg := 4, tail := 9 })], cq := [(0, { CqRing.reset with en := true, cfg := 4 })] })] } : State) (0 : Nat) (fld (cmdOf ({ up with fns := [(0, { Fn.reset with cmd := [(0, { CmdRing.reset with cfg := 4, tail := 9 })], cq := [(0, { CqRing.reset with en := true, cfg := 4 })] })] } : State) (0 : Nat) (0 : Nat)).cfg 10 8)).en = true) ∧
    ((cmdOf ({ up with fns := [(0, { Fn.reset with cmd := [(0, { CmdRing.reset with cfg := 4, tail := 9 })], cq := [(0, { CqRing.reset with en := true, cfg := 4 })] })] } : State) (0 : Nat) (0 : Nat)).outstanding = 0) := by
  refine ⟨?_, ?_, ?_, ?_, ?_, ?_, ?_, ?_, ?_⟩ <;> first | decide | rfl | (apply ok_of; decide +kernel)

theorem test_met_cmdqCtrlWrite_2 :
    (Serves ({ up with fns := [(0, { Fn.reset with cmd := [(7, { CmdRing.reset with cfg := 3 })] })] } : State)) ∧ ((1 : Word) &&& 0xFFFFFFFE = 0) ∧
    (fnOn ({ up with fns := [(0, { Fn.reset with cmd := [(7, { CmdRing.reset with cfg := 3 })] })] } : State) (0 : Nat) = true) ∧ ((7 : Nat) < 8) ∧
    (bit (1 : Word) 0 = true) ∧
    ((cmdOf ({ up with fns := [(0, { Fn.reset with cmd := [(7, { CmdRing.reset with cfg := 3 })] })] } : State) (0 : Nat) (7 : Nat)).en = false) ∧
    (ringCfgOk (cmdOf ({ up with fns := [(0, { Fn.reset with cmd := [(7, { CmdRing.reset with cfg := 3 })] })] } : State) (0 : Nat) (7 : Nat)).base (cmdOf ({ up with fns := [(0, { Fn.reset with cmd := [(7, { CmdRing.reset with cfg := 3 })] })] } : State) (0 : Nat) (7 : Nat)).cfg = false) := by
  refine ⟨?_, ?_, ?_, ?_, ?_, ?_, ?_⟩ <;> first | decide | rfl | (apply ok_of; decide +kernel)

theorem test_met_cmdqCtrlWrite_3 :
    (Serves ({ up with fns := [(0, { Fn.reset with cmd := [(0, { CmdRing.reset with cfg := 4 })] })] } : State)) ∧ ((1 : Word) &&& 0xFFFFFFFE = 0) ∧
    (fnOn ({ up with fns := [(0, { Fn.reset with cmd := [(0, { CmdRing.reset with cfg := 4 })] })] } : State) (0 : Nat) = true) ∧ ((0 : Nat) < 8) ∧
    (bit (1 : Word) 0 = true) ∧
    ((cmdOf ({ up with fns := [(0, { Fn.reset with cmd := [(0, { CmdRing.reset with cfg := 4 })] })] } : State) (0 : Nat) (0 : Nat)).en = false) ∧
    (ringCfgOk (cmdOf ({ up with fns := [(0, { Fn.reset with cmd := [(0, { CmdRing.reset with cfg := 4 })] })] } : State) (0 : Nat) (0 : Nat)).base (cmdOf ({ up with fns := [(0, { Fn.reset with cmd := [(0, { CmdRing.reset with cfg := 4 })] })] } : State) (0 : Nat) (0 : Nat)).cfg = true) ∧
    ((cqOf ({ up with fns := [(0, { Fn.reset with cmd := [(0, { CmdRing.reset with cfg := 4 })] })] } : State) (0 : Nat) (fld (cmdOf ({ up with fns := [(0, { Fn.reset with cmd := [(0, { CmdRing.reset with cfg := 4 })] })] } : State) (0 : Nat) (0 : Nat)).cfg 10 8)).en = false) := by
  refine ⟨?_, ?_, ?_, ?_, ?_, ?_, ?_, ?_⟩ <;> first | decide | rfl | (apply ok_of; decide +kernel)

theorem test_met_cmdqCtrlWrite_4 :
    (Serves ({ up with fns := [(0, { Fn.reset with cmd := [(0, { CmdRing.reset with cfg := 4, outstanding := 1 })], cq := [(0, { CqRing.reset with en := true, cfg := 4 })] })] } : State)) ∧
    ((1 : Word) &&& 0xFFFFFFFE = 0) ∧
    (fnOn ({ up with fns := [(0, { Fn.reset with cmd := [(0, { CmdRing.reset with cfg := 4, outstanding := 1 })], cq := [(0, { CqRing.reset with en := true, cfg := 4 })] })] } : State) (0 : Nat) = true) ∧
    ((0 : Nat) < 8) ∧ (bit (1 : Word) 0 = true) ∧
    ((cmdOf ({ up with fns := [(0, { Fn.reset with cmd := [(0, { CmdRing.reset with cfg := 4, outstanding := 1 })], cq := [(0, { CqRing.reset with en := true, cfg := 4 })] })] } : State) (0 : Nat) (0 : Nat)).en = false) ∧
    (ringCfgOk (cmdOf ({ up with fns := [(0, { Fn.reset with cmd := [(0, { CmdRing.reset with cfg := 4, outstanding := 1 })], cq := [(0, { CqRing.reset with en := true, cfg := 4 })] })] } : State) (0 : Nat) (0 : Nat)).base (cmdOf ({ up with fns := [(0, { Fn.reset with cmd := [(0, { CmdRing.reset with cfg := 4, outstanding := 1 })], cq := [(0, { CqRing.reset with en := true, cfg := 4 })] })] } : State) (0 : Nat) (0 : Nat)).cfg = true) ∧
    ((cqOf ({ up with fns := [(0, { Fn.reset with cmd := [(0, { CmdRing.reset with cfg := 4, outstanding := 1 })], cq := [(0, { CqRing.reset with en := true, cfg := 4 })] })] } : State) (0 : Nat) (fld (cmdOf ({ up with fns := [(0, { Fn.reset with cmd := [(0, { CmdRing.reset with cfg := 4, outstanding := 1 })], cq := [(0, { CqRing.reset with en := true, cfg := 4 })] })] } : State) (0 : Nat) (0 : Nat)).cfg 10 8)).en = true) ∧
    ((cmdOf ({ up with fns := [(0, { Fn.reset with cmd := [(0, { CmdRing.reset with cfg := 4, outstanding := 1 })], cq := [(0, { CqRing.reset with en := true, cfg := 4 })] })] } : State) (0 : Nat) (0 : Nat)).outstanding ≠ 0) := by
  refine ⟨?_, ?_, ?_, ?_, ?_, ?_, ?_, ?_, ?_⟩ <;> first | decide | rfl | (apply ok_of; decide +kernel)

theorem test_met_cmdqCtrlWrite_5 :
    (Serves ({ up with fns := [(0, { Fn.reset with cmd := [(0, { CmdRing.reset with en := true })] })] } : State)) ∧ ((0 : Word) &&& 0xFFFFFFFE = 0) ∧
    (fnOn ({ up with fns := [(0, { Fn.reset with cmd := [(0, { CmdRing.reset with en := true })] })] } : State) (0 : Nat) = true) ∧ ((0 : Nat) < 8) ∧
    (bit (0 : Word) 0 = false) ∧
    ((cmdOf ({ up with fns := [(0, { Fn.reset with cmd := [(0, { CmdRing.reset with en := true })] })] } : State) (0 : Nat) (0 : Nat)).en = true) := by
  refine ⟨?_, ?_, ?_, ?_, ?_, ?_⟩ <;> first | decide | rfl | (apply ok_of; decide +kernel)

theorem test_met_cqCtrlWrite :
    (Serves ({ up with fns := [(0, { Fn.reset with cq := [(0, { CqRing.reset with cfg := 4, fault := true })] })] } : State)) ∧
    ((1 : Word) &&& 0xFFFFFFFE = 0) ∧
    (fnOn ({ up with fns := [(0, { Fn.reset with cq := [(0, { CqRing.reset with cfg := 4, fault := true })] })] } : State) (0 : Nat) = true) ∧
    ((0 : Nat) < 8) ∧ (bit (1 : Word) 0 = true) ∧
    ((cqOf ({ up with fns := [(0, { Fn.reset with cq := [(0, { CqRing.reset with cfg := 4, fault := true })] })] } : State) (0 : Nat) (0 : Nat)).en = false) ∧
    (ringCfgOk (cqOf ({ up with fns := [(0, { Fn.reset with cq := [(0, { CqRing.reset with cfg := 4, fault := true })] })] } : State) (0 : Nat) (0 : Nat)).base (cqOf ({ up with fns := [(0, { Fn.reset with cq := [(0, { CqRing.reset with cfg := 4, fault := true })] })] } : State) (0 : Nat) (0 : Nat)).cfg = true) := by
  refine ⟨?_, ?_, ?_, ?_, ?_, ?_, ?_⟩ <;> first | decide | rfl | (apply ok_of; decide +kernel)

theorem test_met_cqCtrlWrite_2 :
    (Serves ({ up with fns := [(0, { Fn.reset with cq := [(7, { CqRing.reset with cfg := 17 })] })] } : State)) ∧ ((1 : Word) &&& 0xFFFFFFFE = 0) ∧
    (fnOn ({ up with fns := [(0, { Fn.reset with cq := [(7, { CqRing.reset with cfg := 17 })] })] } : State) (0 : Nat) = true) ∧ ((7 : Nat) < 8) ∧
    (bit (1 : Word) 0 = true) ∧
    ((cqOf ({ up with fns := [(0, { Fn.reset with cq := [(7, { CqRing.reset with cfg := 17 })] })] } : State) (0 : Nat) (7 : Nat)).en = false) ∧
    (ringCfgOk (cqOf ({ up with fns := [(0, { Fn.reset with cq := [(7, { CqRing.reset with cfg := 17 })] })] } : State) (0 : Nat) (7 : Nat)).base (cqOf ({ up with fns := [(0, { Fn.reset with cq := [(7, { CqRing.reset with cfg := 17 })] })] } : State) (0 : Nat) (7 : Nat)).cfg = false) := by
  refine ⟨?_, ?_, ?_, ?_, ?_, ?_, ?_⟩ <;> first | decide | rfl | (apply ok_of; decide +kernel)

theorem test_met_cqCtrlWrite_3 :
    (Serves ({ up with fns := [(0, { Fn.reset with cmd := [(0, { CmdRing.reset with en := true })], cq := [(0, { CqRing.reset with en := true, cfg := 4 })] })] } : State)) ∧
    ((0 : Word) &&& 0xFFFFFFFE = 0) ∧
    (fnOn ({ up with fns := [(0, { Fn.reset with cmd := [(0, { CmdRing.reset with en := true })], cq := [(0, { CqRing.reset with en := true, cfg := 4 })] })] } : State) (0 : Nat) = true) ∧
    ((0 : Nat) < 8) ∧ (bit (0 : Word) 0 = false) ∧
    ((cqOf ({ up with fns := [(0, { Fn.reset with cmd := [(0, { CmdRing.reset with en := true })], cq := [(0, { CqRing.reset with en := true, cfg := 4 })] })] } : State) (0 : Nat) (0 : Nat)).en = true) ∧
    (cqUsed ({ up with fns := [(0, { Fn.reset with cmd := [(0, { CmdRing.reset with en := true })], cq := [(0, { CqRing.reset with en := true, cfg := 4 })] })] } : State) (0 : Nat) (0 : Nat) = true) := by
  refine ⟨?_, ?_, ?_, ?_, ?_, ?_, ?_⟩ <;> first | decide | rfl | (apply ok_of; decide +kernel)

theorem test_met_cqCtrlWrite_4 :
    (Serves ({ up with fns := [(0, { Fn.reset with cq := [(0, { CqRing.reset with en := true, cfg := 4 })] })] } : State)) ∧
    ((0 : Word) &&& 0xFFFFFFFE = 0) ∧
    (fnOn ({ up with fns := [(0, { Fn.reset with cq := [(0, { CqRing.reset with en := true, cfg := 4 })] })] } : State) (0 : Nat) = true) ∧
    ((0 : Nat) < 8) ∧ (bit (0 : Word) 0 = false) ∧
    ((cqOf ({ up with fns := [(0, { Fn.reset with cq := [(0, { CqRing.reset with en := true, cfg := 4 })] })] } : State) (0 : Nat) (0 : Nat)).en = true) ∧
    (cqUsed ({ up with fns := [(0, { Fn.reset with cq := [(0, { CqRing.reset with en := true, cfg := 4 })] })] } : State) (0 : Nat) (0 : Nat) = false) := by
  refine ⟨?_, ?_, ?_, ?_, ?_, ?_, ?_⟩ <;> first | decide | rfl | (apply ok_of; decide +kernel)

/-! Hypotheses of RingsCarryCommandsAndCompletions are met. -/

theorem test_met_cmdqTailDb :
    (Serves ({ up with fns := [(0, { Fn.reset with cmd := [(0, { CmdRing.reset with cfg := 4, tail := 9 })] })] } : State)) ∧ ((16 : Word) &&& 0 = 0) ∧
    (fnOn ({ up with fns := [(0, { Fn.reset with cmd := [(0, { CmdRing.reset with cfg := 4, tail := 9 })] })] } : State) (0 : Nat) = true) ∧
    ((0 : Nat) < 8) ∧
    (((cmdOf ({ up with fns := [(0, { Fn.reset with cmd := [(0, { CmdRing.reset with cfg := 4, tail := 9 })] })] } : State) (0 : Nat) (0 : Nat)).tail - (cmdOf ({ up with fns := [(0, { Fn.reset with cmd := [(0, { CmdRing.reset with cfg := 4, tail := 9 })] })] } : State) (0 : Nat) (0 : Nat)).head).toNat ≤ ((16 : Word) - (cmdOf ({ up with fns := [(0, { Fn.reset with cmd := [(0, { CmdRing.reset with cfg := 4, tail := 9 })] })] } : State) (0 : Nat) (0 : Nat)).head).toNat) ∧
    (((16 : Word) - (cmdOf ({ up with fns := [(0, { Fn.reset with cmd := [(0, { CmdRing.reset with cfg := 4, tail := 9 })] })] } : State) (0 : Nat) (0 : Nat)).head).toNat ≤ ringSize (cmdOf ({ up with fns := [(0, { Fn.reset with cmd := [(0, { CmdRing.reset with cfg := 4, tail := 9 })] })] } : State) (0 : Nat) (0 : Nat)).cfg) := by
  refine ⟨?_, ?_, ?_, ?_, ?_, ?_⟩ <;> first | decide | rfl | (apply ok_of; decide +kernel)

theorem test_met_cmdqTailDb_2 :
    (Serves ({ up with fns := [(0, { Fn.reset with cmd := [(0, { CmdRing.reset with cfg := 4, tail := 9 })] })] } : State)) ∧ ((17 : Word) &&& 0 = 0) ∧
    (fnOn ({ up with fns := [(0, { Fn.reset with cmd := [(0, { CmdRing.reset with cfg := 4, tail := 9 })] })] } : State) (0 : Nat) = true) ∧
    ((0 : Nat) < 8) ∧
    (((17 : Word) - (cmdOf ({ up with fns := [(0, { Fn.reset with cmd := [(0, { CmdRing.reset with cfg := 4, tail := 9 })] })] } : State) (0 : Nat) (0 : Nat)).head).toNat < ((cmdOf ({ up with fns := [(0, { Fn.reset with cmd := [(0, { CmdRing.reset with cfg := 4, tail := 9 })] })] } : State) (0 : Nat) (0 : Nat)).tail - (cmdOf ({ up with fns := [(0, { Fn.reset with cmd := [(0, { CmdRing.reset with cfg := 4, tail := 9 })] })] } : State) (0 : Nat) (0 : Nat)).head).toNat ∨ ringSize (cmdOf ({ up with fns := [(0, { Fn.reset with cmd := [(0, { CmdRing.reset with cfg := 4, tail := 9 })] })] } : State) (0 : Nat) (0 : Nat)).cfg < ((17 : Word) - (cmdOf ({ up with fns := [(0, { Fn.reset with cmd := [(0, { CmdRing.reset with cfg := 4, tail := 9 })] })] } : State) (0 : Nat) (0 : Nat)).head).toNat) := by
  refine ⟨?_, ?_, ?_, ?_, ?_⟩ <;> first | decide | rfl | (apply ok_of; decide +kernel)

theorem test_met_commandFetch :
    (Runs ({ up with fns := [(0, { Fn.reset with cmd := [(0, { CmdRing.reset with cfg := 4, tail := 9, en := true })], cq := [(0, { CqRing.reset with en := true, cfg := 4 })] })] } : State)) ∧
    ((0 : Nat) < 8) ∧
    (fnOn ({ up with fns := [(0, { Fn.reset with cmd := [(0, { CmdRing.reset with cfg := 4, tail := 9, en := true })], cq := [(0, { CqRing.reset with en := true, cfg := 4 })] })] } : State) (0 : Nat) = true) ∧
    ((cmdOf ({ up with fns := [(0, { Fn.reset with cmd := [(0, { CmdRing.reset with cfg := 4, tail := 9, en := true })], cq := [(0, { CqRing.reset with en := true, cfg := 4 })] })] } : State) (0 : Nat) (0 : Nat)).en = true) ∧
    (0 < (8 : Nat)) ∧ ((8 : Nat) ≤ 8) ∧
    ((8 : Nat) ≤ ((cmdOf ({ up with fns := [(0, { Fn.reset with cmd := [(0, { CmdRing.reset with cfg := 4, tail := 9, en := true })], cq := [(0, { CqRing.reset with en := true, cfg := 4 })] })] } : State) (0 : Nat) (0 : Nat)).tail - (cmdOf ({ up with fns := [(0, { Fn.reset with cmd := [(0, { CmdRing.reset with cfg := 4, tail := 9, en := true })], cq := [(0, { CqRing.reset with en := true, cfg := 4 })] })] } : State) (0 : Nat) (0 : Nat)).head).toNat) ∧
    (cqFull (cqOf ({ up with fns := [(0, { Fn.reset with cmd := [(0, { CmdRing.reset with cfg := 4, tail := 9, en := true })], cq := [(0, { CqRing.reset with en := true, cfg := 4 })] })] } : State) (0 : Nat) (fld (cmdOf ({ up with fns := [(0, { Fn.reset with cmd := [(0, { CmdRing.reset with cfg := 4, tail := 9, en := true })], cq := [(0, { CqRing.reset with en := true, cfg := 4 })] })] } : State) (0 : Nat) (0 : Nat)).cfg 10 8)) = false) ∧
    ((true : Bool) = false ∨ (cmdOf ({ up with fns := [(0, { Fn.reset with cmd := [(0, { CmdRing.reset with cfg := 4, tail := 9, en := true })], cq := [(0, { CqRing.reset with en := true, cfg := 4 })] })] } : State) (0 : Nat) (0 : Nat)).outstanding = 0) := by
  refine ⟨?_, ?_, ?_, ?_, ?_, ?_, ?_, ?_, ?_⟩ <;> first | decide | rfl | (apply ok_of; decide +kernel)

theorem test_met_commandFetch_2 :
    (Runs ({ up with fns := [(0, { Fn.reset with cmd := [(0, { CmdRing.reset with cfg := 4, tail := 9, en := true, outstanding := 1 })], cq := [(0, { CqRing.reset with en := true, cfg := 4 })] })] } : State)) ∧
    ((0 : Nat) < 8) ∧
    (fnOn ({ up with fns := [(0, { Fn.reset with cmd := [(0, { CmdRing.reset with cfg := 4, tail := 9, en := true, outstanding := 1 })], cq := [(0, { CqRing.reset with en := true, cfg := 4 })] })] } : State) (0 : Nat) = true) ∧
    ((cmdOf ({ up with fns := [(0, { Fn.reset with cmd := [(0, { CmdRing.reset with cfg := 4, tail := 9, en := true, outstanding := 1 })], cq := [(0, { CqRing.reset with en := true, cfg := 4 })] })] } : State) (0 : Nat) (0 : Nat)).en = true) ∧
    (0 < (1 : Nat)) ∧ ((1 : Nat) ≤ 8) ∧
    ((1 : Nat) ≤ ((cmdOf ({ up with fns := [(0, { Fn.reset with cmd := [(0, { CmdRing.reset with cfg := 4, tail := 9, en := true, outstanding := 1 })], cq := [(0, { CqRing.reset with en := true, cfg := 4 })] })] } : State) (0 : Nat) (0 : Nat)).tail - (cmdOf ({ up with fns := [(0, { Fn.reset with cmd := [(0, { CmdRing.reset with cfg := 4, tail := 9, en := true, outstanding := 1 })], cq := [(0, { CqRing.reset with en := true, cfg := 4 })] })] } : State) (0 : Nat) (0 : Nat)).head).toNat) ∧
    (cqFull (cqOf ({ up with fns := [(0, { Fn.reset with cmd := [(0, { CmdRing.reset with cfg := 4, tail := 9, en := true, outstanding := 1 })], cq := [(0, { CqRing.reset with en := true, cfg := 4 })] })] } : State) (0 : Nat) (fld (cmdOf ({ up with fns := [(0, { Fn.reset with cmd := [(0, { CmdRing.reset with cfg := 4, tail := 9, en := true, outstanding := 1 })], cq := [(0, { CqRing.reset with en := true, cfg := 4 })] })] } : State) (0 : Nat) (0 : Nat)).cfg 10 8)) = false) ∧
    ((cmdOf ({ up with fns := [(0, { Fn.reset with cmd := [(0, { CmdRing.reset with cfg := 4, tail := 9, en := true, outstanding := 1 })], cq := [(0, { CqRing.reset with en := true, cfg := 4 })] })] } : State) (0 : Nat) (0 : Nat)).outstanding ≠ 0) := by
  refine ⟨?_, ?_, ?_, ?_, ?_, ?_, ?_, ?_, ?_⟩ <;> first | decide | rfl | (apply ok_of; decide +kernel)

theorem test_met_completionPost :
    (Runs ({ up with fns := [(0, { Fn.reset with cq := [(0, { CqRing.reset with en := true, cfg := 4, front := [{ r0 := 0, r1 := 0, r2 := 0, r3 := 0, mark := some { bell := 0, seq := 0 }, cid := 4, status := 0, opcode := 1, cmdRing := 0, counts := true, bytes := none }] })] })] } : State)) ∧
    (({ up with fns := [(0, { Fn.reset with cq := [(0, { CqRing.reset with en := true, cfg := 4, front := [{ r0 := 0, r1 := 0, r2 := 0, r3 := 0, mark := some { bell := 0, seq := 0 }, cid := 4, status := 0, opcode := 1, cmdRing := 0, counts := true, bytes := none }] })] })] } : State).dev.safe = false) ∧
    ((cqOf ({ up with fns := [(0, { Fn.reset with cq := [(0, { CqRing.reset with en := true, cfg := 4, front := [{ r0 := 0, r1 := 0, r2 := 0, r3 := 0, mark := some { bell := 0, seq := 0 }, cid := 4, status := 0, opcode := 1, cmdRing := 0, counts := true, bytes := none }] })] })] } : State) (0 : Nat) (0 : Nat)).front = ({ r0 := 0, r1 := 0, r2 := 0, r3 := 0, mark := some { bell := 0, seq := 0 }, cid := 4, status := 0, opcode := 1, cmdRing := 0, counts := true, bytes := none } : Cqe) :: ([] : List Cqe)) ∧
    (cqRoom (cqOf ({ up with fns := [(0, { Fn.reset with cq := [(0, { CqRing.reset with en := true, cfg := 4, front := [{ r0 := 0, r1 := 0, r2 := 0, r3 := 0, mark := some { bell := 0, seq := 0 }, cid := 4, status := 0, opcode := 1, cmdRing := 0, counts := true, bytes := none }] })] })] } : State) (0 : Nat) (0 : Nat)) = true) ∧
    (({ r0 := 0, r1 := 0, r2 := 0, r3 := 0, mark := some { bell := 0, seq := 0 }, cid := 4, status := 0, opcode := 1, cmdRing := 0, counts := true, bytes := none } : Cqe).mark = some ({ bell := 0, seq := 0 } : Mark)) := by
  refine ⟨?_, ?_, ?_, ?_, ?_⟩ <;> first | decide | rfl | (apply ok_of; decide +kernel)

theorem test_met_completionPost_2 :
    (Runs ({ up with fns := [(0, { Fn.reset with cq := [(0, { CqRing.reset with en := true, cfg := 4, front := [{ r0 := 0, r1 := 0, r2 := 0, r3 := 0, mark := some { bell := 0, seq := 0 }, cid := 4, status := 0, opcode := 1, cmdRing := 0, counts := true, bytes := none }] })] })] } : State)) ∧
    (({ up with fns := [(0, { Fn.reset with cq := [(0, { CqRing.reset with en := true, cfg := 4, front := [{ r0 := 0, r1 := 0, r2 := 0, r3 := 0, mark := some { bell := 0, seq := 0 }, cid := 4, status := 0, opcode := 1, cmdRing := 0, counts := true, bytes := none }] })] })] } : State).dev.safe = false) ∧
    ((cqOf ({ up with fns := [(0, { Fn.reset with cq := [(0, { CqRing.reset with en := true, cfg := 4, front := [{ r0 := 0, r1 := 0, r2 := 0, r3 := 0, mark := some { bell := 0, seq := 0 }, cid := 4, status := 0, opcode := 1, cmdRing := 0, counts := true, bytes := none }] })] })] } : State) (0 : Nat) (0 : Nat)).front = ({ r0 := 0, r1 := 0, r2 := 0, r3 := 0, mark := some { bell := 0, seq := 0 }, cid := 4, status := 0, opcode := 1, cmdRing := 0, counts := true, bytes := none } : Cqe) :: ([] : List Cqe)) ∧
    (cqRoom (cqOf ({ up with fns := [(0, { Fn.reset with cq := [(0, { CqRing.reset with en := true, cfg := 4, front := [{ r0 := 0, r1 := 0, r2 := 0, r3 := 0, mark := some { bell := 0, seq := 0 }, cid := 4, status := 0, opcode := 1, cmdRing := 0, counts := true, bytes := none }] })] })] } : State) (0 : Nat) (0 : Nat)) = true) := by
  refine ⟨?_, ?_, ?_, ?_⟩ <;> first | decide | rfl | (apply ok_of; decide +kernel)

theorem test_met_cqHeadDb :
    (Serves ({ up with fns := [(0, { Fn.reset with cq := [(0, { CqRing.reset with cfg := 4, tail := 9 })] })] } : State)) ∧ ((9 : Word) &&& 0 = 0) ∧
    (fnOn ({ up with fns := [(0, { Fn.reset with cq := [(0, { CqRing.reset with cfg := 4, tail := 9 })] })] } : State) (0 : Nat) = true) ∧
    ((0 : Nat) < 8) ∧
    (((9 : Word) - (cqOf ({ up with fns := [(0, { Fn.reset with cq := [(0, { CqRing.reset with cfg := 4, tail := 9 })] })] } : State) (0 : Nat) (0 : Nat)).head).toNat ≤ ((cqOf ({ up with fns := [(0, { Fn.reset with cq := [(0, { CqRing.reset with cfg := 4, tail := 9 })] })] } : State) (0 : Nat) (0 : Nat)).tail - (cqOf ({ up with fns := [(0, { Fn.reset with cq := [(0, { CqRing.reset with cfg := 4, tail := 9 })] })] } : State) (0 : Nat) (0 : Nat)).head).toNat) ∧
    ((cqOf ({ up with fns := [(0, { Fn.reset with cq := [(0, { CqRing.reset with cfg := 4, tail := 9 })] })] } : State) (0 : Nat) (0 : Nat)).unread = []) := by
  refine ⟨?_, ?_, ?_, ?_, ?_, ?_⟩ <;> first | decide | rfl | (apply ok_of; decide +kernel)

theorem test_met_cqHeadDb_2 :
    (Serves ({ up with fns := [(0, { Fn.reset with cq := [(0, { CqRing.reset with cfg := 4, tail := 9 })] })] } : State)) ∧ ((10 : Word) &&& 0 = 0) ∧
    (fnOn ({ up with fns := [(0, { Fn.reset with cq := [(0, { CqRing.reset with cfg := 4, tail := 9 })] })] } : State) (0 : Nat) = true) ∧
    ((0 : Nat) < 8) ∧
    (((cqOf ({ up with fns := [(0, { Fn.reset with cq := [(0, { CqRing.reset with cfg := 4, tail := 9 })] })] } : State) (0 : Nat) (0 : Nat)).tail - (cqOf ({ up with fns := [(0, { Fn.reset with cq := [(0, { CqRing.reset with cfg := 4, tail := 9 })] })] } : State) (0 : Nat) (0 : Nat)).head).toNat < ((10 : Word) - (cqOf ({ up with fns := [(0, { Fn.reset with cq := [(0, { CqRing.reset with cfg := 4, tail := 9 })] })] } : State) (0 : Nat) (0 : Nat)).head).toNat) := by
  refine ⟨?_, ?_, ?_, ?_, ?_⟩ <;> first | decide | rfl | (apply ok_of; decide +kernel)

/-! Hypotheses of DmaChannelsAreControlled are met. -/

theorem test_met_dmaChEnable :
    (Serves ({ ram with dma := { ram.dma with chans := [(5, { DmaCh.reset with chain := 4096, owner := 0x100 })] } } : State)) ∧ ((5 : Nat) < 64) ∧
    ((dmaOf ({ ram with dma := { ram.dma with chans := [(5, { DmaCh.reset with chain := 4096, owner := 0x100 })] } } : State) (5 : Nat)).en = false) ∧
    ((dmaOf ({ ram with dma := { ram.dma with chans := [(5, { DmaCh.reset with chain := 4096, owner := 0x100 })] } } : State) (5 : Nat)).chain ≠ 0) ∧
    ((dmaOf ({ ram with dma := { ram.dma with chans := [(5, { DmaCh.reset with chain := 4096, owner := 0x100 })] } } : State) (5 : Nat)).chain.toNat % 32 = 0) ∧
    ((5 : Nat) < 56) ∧
    (48 ≤ (5 : Nat) ∨ (bit (dmaOf ({ ram with dma := { ram.dma with chans := [(5, { DmaCh.reset with chain := 4096, owner := 0x100 })] } } : State) (5 : Nat)).owner 8 = true ∧
    fnOn ({ ram with dma := { ram.dma with chans := [(5, { DmaCh.reset with chain := 4096, owner := 0x100 })] } } : State) (fld (dmaOf ({ ram with dma := { ram.dma with chans := [(5, { DmaCh.reset with chain := 4096, owner := 0x100 })] } } : State) (5 : Nat)).owner 7 0) = true)) := by
  refine ⟨?_, ?_, ?_, ?_, ?_, ?_, ?_⟩ <;> first | decide | rfl | (apply ok_of; decide +kernel)

theorem test_met_dmaChEnable_2 :
    (Serves ({ ram with dma := { ram.dma with chans := [(5, { DmaCh.reset with chain := 16 })] } } : State)) ∧ ((5 : Nat) < 64) ∧
    ((dmaOf ({ ram with dma := { ram.dma with chans := [(5, { DmaCh.reset with chain := 16 })] } } : State) (5 : Nat)).en = false) ∧
    ((dmaOf ({ ram with dma := { ram.dma with chans := [(5, { DmaCh.reset with chain := 16 })] } } : State) (5 : Nat)).chain = 0 ∨ (dmaOf ({ ram with dma := { ram.dma with chans := [(5, { DmaCh.reset with chain := 16 })] } } : State) (5 : Nat)).chain.toNat % 32 ≠ 0) := by
  refine ⟨?_, ?_, ?_, ?_⟩ <;> first | decide | rfl | (apply ok_of; decide +kernel)

theorem test_met_dmaChEnable_3 :
    (Serves ({ ram with dma := { ram.dma with chans := [(5, { DmaCh.reset with chain := 32 })] } } : State)) ∧ ((5 : Nat) < 64) ∧
    ((dmaOf ({ ram with dma := { ram.dma with chans := [(5, { DmaCh.reset with chain := 32 })] } } : State) (5 : Nat)).en = false) ∧
    ((dmaOf ({ ram with dma := { ram.dma with chans := [(5, { DmaCh.reset with chain := 32 })] } } : State) (5 : Nat)).chain ≠ 0) ∧
    ((dmaOf ({ ram with dma := { ram.dma with chans := [(5, { DmaCh.reset with chain := 32 })] } } : State) (5 : Nat)).chain.toNat % 32 = 0) ∧
    ((5 : Nat) < 48) ∧
    (bit (dmaOf ({ ram with dma := { ram.dma with chans := [(5, { DmaCh.reset with chain := 32 })] } } : State) (5 : Nat)).owner 8 = false ∨ fnOn ({ ram with dma := { ram.dma with chans := [(5, { DmaCh.reset with chain := 32 })] } } : State) (fld (dmaOf ({ ram with dma := { ram.dma with chans := [(5, { DmaCh.reset with chain := 32 })] } } : State) (5 : Nat)).owner 7 0) = false) := by
  refine ⟨?_, ?_, ?_, ?_, ?_, ?_, ?_⟩ <;> first | decide | rfl | (apply ok_of; decide +kernel)

theorem test_met_dmaChEnable_4 :
    (Serves ({ ram with dma := { ram.dma with chans := [(63, { DmaCh.reset with chain := 32 })] } } : State)) ∧ ((63 : Nat) < 64) ∧
    ((dmaOf ({ ram with dma := { ram.dma with chans := [(63, { DmaCh.reset with chain := 32 })] } } : State) (63 : Nat)).en = false) ∧
    ((dmaOf ({ ram with dma := { ram.dma with chans := [(63, { DmaCh.reset with chain := 32 })] } } : State) (63 : Nat)).chain ≠ 0) ∧
    ((dmaOf ({ ram with dma := { ram.dma with chans := [(63, { DmaCh.reset with chain := 32 })] } } : State) (63 : Nat)).chain.toNat % 32 = 0) ∧
    (56 ≤ (63 : Nat)) := by
  refine ⟨?_, ?_, ?_, ?_, ?_, ?_⟩ <;> first | decide | rfl | (apply ok_of; decide +kernel)

theorem test_met_dmaChDisable :
    (Serves ({ ram with dma := { ram.dma with chans := [(5, { DmaCh.reset with en := true })] } } : State)) ∧ ((5 : Nat) < 64) ∧
    ((dmaOf ({ ram with dma := { ram.dma with chans := [(5, { DmaCh.reset with en := true })] } } : State) (5 : Nat)).en = true) := by
  refine ⟨?_, ?_, ?_⟩ <;> first | decide | rfl | (apply ok_of; decide +kernel)

theorem test_met_dmaChDb :
    (Serves ({ ram with dma := { ram.dma with chans := [(5, { DmaCh.reset with state := 1 })] } } : State)) ∧ ((5 : Nat) < 64) ∧
    ((dmaOf ({ ram with dma := { ram.dma with chans := [(5, { DmaCh.reset with state := 1 })] } } : State) (5 : Nat)).state = 1) := by
  refine ⟨?_, ?_, ?_⟩ <;> first | decide | rfl | (apply ok_of; decide +kernel)

theorem test_met_dmaChDb_2 :
    (Serves ({ ram with dma := { ram.dma with chans := [(5, { DmaCh.reset with state := 2 })] } } : State)) ∧ ((5 : Nat) < 64) ∧
    ((dmaOf ({ ram with dma := { ram.dma with chans := [(5, { DmaCh.reset with state := 2 })] } } : State) (5 : Nat)).state = 2) := by
  refine ⟨?_, ?_, ?_⟩ <;> first | decide | rfl | (apply ok_of; decide +kernel)

theorem test_met_dmaChDb_3 :
    (Serves (ram : State)) ∧ ((5 : Nat) < 64) ∧ ((dmaOf (ram : State) (5 : Nat)).state ≠ 1) ∧ ((dmaOf (ram : State) (5 : Nat)).state ≠ 2) := by
  refine ⟨?_, ?_, ?_, ?_⟩ <;> first | decide | rfl | (apply ok_of; decide +kernel)

theorem test_met_dmaChOwnerWrite :
    (Serves ({ ram with dma := { ram.dma with chans := [(5, { DmaCh.reset with en := true })] } } : State)) ∧ ((0x101 : Word) &&& 0xFFFFFE00 = 0) ∧
    ((5 : Nat) < 64) ∧ ((dmaOf ({ ram with dma := { ram.dma with chans := [(5, { DmaCh.reset with en := true })] } } : State) (5 : Nat)).en = true) := by
  refine ⟨?_, ?_, ?_, ?_⟩ <;> first | decide | rfl | (apply ok_of; decide +kernel)

theorem test_met_dmaChOwnerWrite_2 :
    (Serves ({ ram with dma := { ram.dma with chans := (List.range 8).map (fun k => (k, { DmaCh.reset with owner := 0x101 })) } } : State)) ∧
    ((0x101 : Word) &&& 0xFFFFFE00 = 0) ∧ ((47 : Nat) < 48) ∧
    ((dmaOf ({ ram with dma := { ram.dma with chans := (List.range 8).map (fun k => (k, { DmaCh.reset with owner := 0x101 })) } } : State) (47 : Nat)).en = false) ∧
    (bit (0x101 : Word) 8 = true) ∧
    (8 ≤ ((ownedBy ({ ram with dma := { ram.dma with chans := (List.range 8).map (fun k => (k, { DmaCh.reset with owner := 0x101 })) } } : State) (fld (0x101 : Word) 7 0)).filter (fun k => k != (47 : Nat))).length) := by
  refine ⟨?_, ?_, ?_, ?_, ?_, ?_⟩ <;> first | decide | rfl | (apply ok_of; decide +kernel)

theorem test_met_dmaChOwnerWrite_3 :
    (Serves (ram : State)) ∧ ((0x101 : Word) &&& 0xFFFFFE00 = 0) ∧ ((47 : Nat) < 48) ∧ ((dmaOf (ram : State) (47 : Nat)).en = false) ∧
    (bit (0x101 : Word) 8 = false ∨ ((ownedBy (ram : State) (fld (0x101 : Word) 7 0)).filter (fun k => k != (47 : Nat))).length < 8) := by
  refine ⟨?_, ?_, ?_, ?_, ?_⟩ <;> first | decide | rfl | (apply ok_of; decide +kernel)

/-! Hypotheses of DmaDescriptorsRun are met. -/

theorem test_met_descriptorFetched :
    (Runs ({ ram with dma := { ram.dma with chans := [(50, { DmaCh.reset with state := 1 })] } } : State)) ∧
    ((dmaOf ({ ram with dma := { ram.dma with chans := [(50, { DmaCh.reset with state := 1 })] } } : State) (50 : Nat)).state = 1) ∧
    ((dmaOf ({ ram with dma := { ram.dma with chans := [(50, { DmaCh.reset with state := 1 })] } } : State) (50 : Nat)).errPend = none) ∧
    ((dmaOf ({ ram with dma := { ram.dma with chans := [(50, { DmaCh.reset with state := 1 })] } } : State) (50 : Nat)).desc = none) ∧
    ((dmaOf ({ ram with dma := { ram.dma with chans := [(50, { DmaCh.reset with state := 1 })] } } : State) (50 : Nat)).refetch = false) ∧
    (descCode ({ ram with dma := { ram.dma with chans := [(50, { DmaCh.reset with state := 1 })] } } : State) (50 : Nat) ({ src := 4096, dst := 8192, len := 4, lenHigh := 0, flags := 0x60, next := 1 } : Desc) = none) := by
  refine ⟨?_, ?_, ?_, ?_, ?_, ?_⟩ <;> first | decide | rfl | (apply ok_of; decide +kernel)

theorem test_met_descriptorFetched_2 :
    (Runs ({ ram with dma := { ram.dma with chans := [(50, { DmaCh.reset with state := 1 })] } } : State)) ∧
    ((dmaOf ({ ram with dma := { ram.dma with chans := [(50, { DmaCh.reset with state := 1 })] } } : State) (50 : Nat)).state = 1) ∧
    ((dmaOf ({ ram with dma := { ram.dma with chans := [(50, { DmaCh.reset with state := 1 })] } } : State) (50 : Nat)).errPend = none) ∧
    ((dmaOf ({ ram with dma := { ram.dma with chans := [(50, { DmaCh.reset with state := 1 })] } } : State) (50 : Nat)).desc = none) ∧
    ((dmaOf ({ ram with dma := { ram.dma with chans := [(50, { DmaCh.reset with state := 1 })] } } : State) (50 : Nat)).refetch = false) ∧
    (descCode ({ ram with dma := { ram.dma with chans := [(50, { DmaCh.reset with state := 1 })] } } : State) (50 : Nat) ({ src := 4096, dst := 8192, len := 4, lenHigh := 0, flags := 0x61, next := 1 } : Desc) = some (0x040A : Code)) := by
  refine ⟨?_, ?_, ?_, ?_, ?_, ?_⟩ <;> first | decide | rfl | (apply ok_of; decide +kernel)

theorem test_met_descriptorFetched_3 :
    (Runs ({ ram with dma := { ram.dma with chans := [(50, { DmaCh.reset with state := 1, refetch := true })] } } : State)) ∧
    ((dmaOf ({ ram with dma := { ram.dma with chans := [(50, { DmaCh.reset with state := 1, refetch := true })] } } : State) (50 : Nat)).state = 1) ∧
    ((dmaOf ({ ram with dma := { ram.dma with chans := [(50, { DmaCh.reset with state := 1, refetch := true })] } } : State) (50 : Nat)).errPend = none) ∧
    ((dmaOf ({ ram with dma := { ram.dma with chans := [(50, { DmaCh.reset with state := 1, refetch := true })] } } : State) (50 : Nat)).desc = none) ∧
    ((dmaOf ({ ram with dma := { ram.dma with chans := [(50, { DmaCh.reset with state := 1, refetch := true })] } } : State) (50 : Nat)).refetch = true) ∧
    (descEndBit ({ src := 4096, dst := 8192, len := 4, lenHigh := 0, flags := 0x60, next := 64 } : Desc) = false) := by
  refine ⟨?_, ?_, ?_, ?_, ?_, ?_⟩ <;> first | decide | rfl | (apply ok_of; decide +kernel)

theorem test_met_descriptorFetched_4 :
    (Runs ({ ram with dma := { ram.dma with chans := [(50, { DmaCh.reset with state := 1, refetch := true })] } } : State)) ∧
    ((dmaOf ({ ram with dma := { ram.dma with chans := [(50, { DmaCh.reset with state := 1, refetch := true })] } } : State) (50 : Nat)).state = 1) ∧
    ((dmaOf ({ ram with dma := { ram.dma with chans := [(50, { DmaCh.reset with state := 1, refetch := true })] } } : State) (50 : Nat)).errPend = none) ∧
    ((dmaOf ({ ram with dma := { ram.dma with chans := [(50, { DmaCh.reset with state := 1, refetch := true })] } } : State) (50 : Nat)).desc = none) ∧
    ((dmaOf ({ ram with dma := { ram.dma with chans := [(50, { DmaCh.reset with state := 1, refetch := true })] } } : State) (50 : Nat)).refetch = true) ∧
    (descEndBit ({ src := 4096, dst := 8192, len := 4, lenHigh := 0, flags := 0x60, next := 1 } : Desc) = true) ∧
    ((dmaOf ({ ram with dma := { ram.dma with chans := [(50, { DmaCh.reset with state := 1, refetch := true })] } } : State) (50 : Nat)).db = false) := by
  refine ⟨?_, ?_, ?_, ?_, ?_, ?_, ?_⟩ <;> first | decide | rfl | (apply ok_of; decide +kernel)

theorem test_met_descriptorComplete :
    (Runs ({ ram with dma := { ram.dma with chans := [(50, { DmaCh.reset with state := 1, desc := some { src := 4096, dst := 8192, len := 4, lenHigh := 0, flags := 0x40, next := 64 } })] } } : State)) ∧
    ((dmaOf ({ ram with dma := { ram.dma with chans := [(50, { DmaCh.reset with state := 1, desc := some { src := 4096, dst := 8192, len := 4, lenHigh := 0, flags := 0x40, next := 64 } })] } } : State) (50 : Nat)).state = 1) ∧
    ((dmaOf ({ ram with dma := { ram.dma with chans := [(50, { DmaCh.reset with state := 1, desc := some { src := 4096, dst := 8192, len := 4, lenHigh := 0, flags := 0x40, next := 64 } })] } } : State) (50 : Nat)).desc = some ({ src := 4096, dst := 8192, len := 4, lenHigh := 0, flags := 0x40, next := 64 } : Desc)) ∧
    ((dmaOf ({ ram with dma := { ram.dma with chans := [(50, { DmaCh.reset with state := 1, desc := some { src := 4096, dst := 8192, len := 4, lenHigh := 0, flags := 0x40, next := 64 } })] } } : State) (50 : Nat)).errPend = none) ∧
    (([1, 2, 3, 4] : List Byte).length = ({ src := 4096, dst := 8192, len := 4, lenHigh := 0, flags := 0x40, next := 64 } : Desc).len) ∧
    (descSrcDev ({ src := 4096, dst := 8192, len := 4, lenHigh := 0, flags := 0x40, next := 64 } : Desc) = false) ∧
    (descDstDev ({ src := 4096, dst := 8192, len := 4, lenHigh := 0, flags := 0x40, next := 64 } : Desc) = true) ∧
    (descFill ({ src := 4096, dst := 8192, len := 4, lenHigh := 0, flags := 0x40, next := 64 } : Desc) = false) ∧
    (descCompare ({ src := 4096, dst := 8192, len := 4, lenHigh := 0, flags := 0x40, next := 64 } : Desc) = false) ∧
    (descIrq ({ src := 4096, dst := 8192, len := 4, lenHigh := 0, flags := 0x40, next := 64 } : Desc) = false) ∧
    (descEndBit ({ src := 4096, dst := 8192, len := 4, lenHigh := 0, flags := 0x40, next := 64 } : Desc) = false) := by
  refine ⟨?_, ?_, ?_, ?_, ?_, ?_, ?_, ?_, ?_, ?_, ?_⟩ <;> first | decide | rfl | (apply ok_of; decide +kernel)

theorem test_met_descriptorComplete_2 :
    (Runs ({ ram with dma := { ram.dma with chans := [(50, { DmaCh.reset with state := 1, desc := some { src := 4096, dst := 8192, len := 4, lenHigh := 0, flags := 0x20, next := 64 } })] } } : State)) ∧
    ((dmaOf ({ ram with dma := { ram.dma with chans := [(50, { DmaCh.reset with state := 1, desc := some { src := 4096, dst := 8192, len := 4, lenHigh := 0, flags := 0x20, next := 64 } })] } } : State) (50 : Nat)).state = 1) ∧
    ((dmaOf ({ ram with dma := { ram.dma with chans := [(50, { DmaCh.reset with state := 1, desc := some { src := 4096, dst := 8192, len := 4, lenHigh := 0, flags := 0x20, next := 64 } })] } } : State) (50 : Nat)).desc = some ({ src := 4096, dst := 8192, len := 4, lenHigh := 0, flags := 0x20, next := 64 } : Desc)) ∧
    ((dmaOf ({ ram with dma := { ram.dma with chans := [(50, { DmaCh.reset with state := 1, desc := some { src := 4096, dst := 8192, len := 4, lenHigh := 0, flags := 0x20, next := 64 } })] } } : State) (50 : Nat)).errPend = none) ∧
    (descSrcDev ({ src := 4096, dst := 8192, len := 4, lenHigh := 0, flags := 0x20, next := 64 } : Desc) = true) ∧
    (meetsPoison ({ ram with dma := { ram.dma with chans := [(50, { DmaCh.reset with state := 1, desc := some { src := 4096, dst := 8192, len := 4, lenHigh := 0, flags := 0x20, next := 64 } })] } } : State) ((dmaAddr ({ ram with dma := { ram.dma with chans := [(50, { DmaCh.reset with state := 1, desc := some { src := 4096, dst := 8192, len := 4, lenHigh := 0, flags := 0x20, next := 64 } })] } } : State) (50 : Nat) ({ src := 4096, dst := 8192, len := 4, lenHigh := 0, flags := 0x20, next := 64 } : Desc).src ({ src := 4096, dst := 8192, len := 4, lenHigh := 0, flags := 0x20, next := 64 } : Desc).len).getD 0) ({ src := 4096, dst := 8192, len := 4, lenHigh := 0, flags := 0x20, next := 64 } : Desc).len = false) ∧
    (descDstDev ({ src := 4096, dst := 8192, len := 4, lenHigh := 0, flags := 0x20, next := 64 } : Desc) = false) ∧
    (descFill ({ src := 4096, dst := 8192, len := 4, lenHigh := 0, flags := 0x20, next := 64 } : Desc) = false) ∧
    (descCompare ({ src := 4096, dst := 8192, len := 4, lenHigh := 0, flags := 0x20, next := 64 } : Desc) = false) ∧
    (descIrq ({ src := 4096, dst := 8192, len := 4, lenHigh := 0, flags := 0x20, next := 64 } : Desc) = false) ∧
    (descEndBit ({ src := 4096, dst := 8192, len := 4, lenHigh := 0, flags := 0x20, next := 64 } : Desc) = false) := by
  refine ⟨?_, ?_, ?_, ?_, ?_, ?_, ?_, ?_, ?_, ?_, ?_⟩ <;> first | decide | rfl | (apply ok_of; decide +kernel)

theorem test_met_descriptorComplete_3 :
    (Runs ({ ram with dma := { ram.dma with chans := [(50, { DmaCh.reset with state := 1, desc := some { src := 4096, dst := 8192, len := 4, lenHigh := 0, flags := 8, next := 64 } })] } } : State)) ∧
    ((dmaOf ({ ram with dma := { ram.dma with chans := [(50, { DmaCh.reset with state := 1, desc := some { src := 4096, dst := 8192, len := 4, lenHigh := 0, flags := 8, next := 64 } })] } } : State) (50 : Nat)).state = 1) ∧
    ((dmaOf ({ ram with dma := { ram.dma with chans := [(50, { DmaCh.reset with state := 1, desc := some { src := 4096, dst := 8192, len := 4, lenHigh := 0, flags := 8, next := 64 } })] } } : State) (50 : Nat)).desc = some ({ src := 4096, dst := 8192, len := 4, lenHigh := 0, flags := 8, next := 64 } : Desc)) ∧
    ((dmaOf ({ ram with dma := { ram.dma with chans := [(50, { DmaCh.reset with state := 1, desc := some { src := 4096, dst := 8192, len := 4, lenHigh := 0, flags := 8, next := 64 } })] } } : State) (50 : Nat)).errPend = none) ∧
    (descSrcDev ({ src := 4096, dst := 8192, len := 4, lenHigh := 0, flags := 8, next := 64 } : Desc) = false) ∧
    (descDstDev ({ src := 4096, dst := 8192, len := 4, lenHigh := 0, flags := 8, next := 64 } : Desc) = false) ∧
    (descFill ({ src := 4096, dst := 8192, len := 4, lenHigh := 0, flags := 8, next := 64 } : Desc) = false) ∧
    (descCompare ({ src := 4096, dst := 8192, len := 4, lenHigh := 0, flags := 8, next := 64 } : Desc) = true) := by
  refine ⟨?_, ?_, ?_, ?_, ?_, ?_, ?_, ?_⟩ <;> first | decide | rfl | (apply ok_of; decide +kernel)

theorem test_met_dmaRetry :
    (Runs ({ ram with dma := { ram.dma with chans := [(50, { DmaCh.reset with state := 1, errPend := some 1 })] } } : State)) ∧
    ((dmaOf ({ ram with dma := { ram.dma with chans := [(50, { DmaCh.reset with state := 1, errPend := some 1 })] } } : State) (50 : Nat)).errPend = some (1 : Nat)) := by
  refine ⟨?_, ?_⟩ <;> first | decide | rfl | (apply ok_of; decide +kernel)

theorem test_met_dmaBusError :
    (Runs ({ ram with dma := { ram.dma with chans := [(50, { DmaCh.reset with state := 1 })] } } : State)) ∧
    ((dmaOf ({ ram with dma := { ram.dma with chans := [(50, { DmaCh.reset with state := 1 })] } } : State) (50 : Nat)).state = 1) ∧
    ((dmaOf ({ ram with dma := { ram.dma with chans := [(50, { DmaCh.reset with state := 1 })] } } : State) (50 : Nat)).errPend = none) ∧
    ((dmaOf ({ ram with dma := { ram.dma with chans := [(50, { DmaCh.reset with state := 1 })] } } : State) (50 : Nat)).tries < fld ({ ram with dma := { ram.dma with chans := [(50, { DmaCh.reset with state := 1 })] } } : State).dma.retryLimit 2 0) := by
  refine ⟨?_, ?_, ?_, ?_⟩ <;> first | decide | rfl | (apply ok_of; decide +kernel)

theorem test_met_dmaBusError_2 :
    (Runs ({ ram with dma := { ram.dma with chans := [(50, { DmaCh.reset with state := 1, tries := 7 })] } } : State)) ∧
    ((dmaOf ({ ram with dma := { ram.dma with chans := [(50, { DmaCh.reset with state := 1, tries := 7 })] } } : State) (50 : Nat)).state = 1) ∧
    ((dmaOf ({ ram with dma := { ram.dma with chans := [(50, { DmaCh.reset with state := 1, tries := 7 })] } } : State) (50 : Nat)).errPend = none) ∧
    (fld ({ ram with dma := { ram.dma with chans := [(50, { DmaCh.reset with state := 1, tries := 7 })] } } : State).dma.retryLimit 2 0 ≤ (dmaOf ({ ram with dma := { ram.dma with chans := [(50, { DmaCh.reset with state := 1, tries := 7 })] } } : State) (50 : Nat)).tries) := by
  refine ⟨?_, ?_, ?_, ?_⟩ <;> first | decide | rfl | (apply ok_of; decide +kernel)

/-! Hypotheses of FramesArrive are met. -/

theorem test_met_linkStateChange :
    (Runs (up : State)) ∧ ((1 : Nat) < 2) := by
  refine ⟨?_, ?_⟩ <;> first | decide | rfl | (apply ok_of; decide +kernel)

theorem test_met_rxFrame :
    (Runs (up : State)) ∧
    (2 ≤ ({ port := 0, fcsOk := true, len := 100, kind := .foreign, bytes := [] } : RxFrame).port ∨ (portOf (up : State) ({ port := 0, fcsOk := true, len := 100, kind := .foreign, bytes := [] } : RxFrame).port).link = 0 ∨ bit (up : State).net.ctrl 0 = false) := by
  refine ⟨?_, ?_⟩ <;> first | decide | rfl | (apply ok_of; decide +kernel)

theorem test_met_rxFrame_2 :
    (Runs ({ up with net := { up.net with ports := [(0, { NetPort.reset with link := 1, cfg := 1, v := [] })], ctrl := 1 } } : State)) ∧
    (({ port := 0, fcsOk := true, len := 63, kind := .foreign, bytes := [] } : RxFrame).port < 2) ∧
    ((portOf ({ up with net := { up.net with ports := [(0, { NetPort.reset with link := 1, cfg := 1, v := [] })], ctrl := 1 } } : State) ({ port := 0, fcsOk := true, len := 63, kind := .foreign, bytes := [] } : RxFrame).port).link ≠ 0) ∧
    (bit ({ up with net := { up.net with ports := [(0, { NetPort.reset with link := 1, cfg := 1, v := [] })], ctrl := 1 } } : State).net.ctrl 0 = true) ∧
    (({ port := 0, fcsOk := true, len := 63, kind := .foreign, bytes := [] } : RxFrame).fcsOk = false ∨ ({ port := 0, fcsOk := true, len := 63, kind := .foreign, bytes := [] } : RxFrame).len < 64 ∨ 9022 < ({ port := 0, fcsOk := true, len := 63, kind := .foreign, bytes := [] } : RxFrame).len) := by
  refine ⟨?_, ?_, ?_, ?_, ?_⟩ <;> first | decide | rfl | (apply ok_of; decide +kernel)

theorem test_met_rxFrame_3 :
    (Runs ({ { up with net := { up.net with ports := [(0, { NetPort.reset with link := 1, cfg := 1, v := [] })], ctrl := 1 } } with pwr := { up.pwr with state := 4 } } : State)) ∧
    (({ port := 0, fcsOk := true, len := 100, kind := .ptp, bytes := [] } : RxFrame).port < 2) ∧
    ((portOf ({ { up with net := { up.net with ports := [(0, { NetPort.reset with link := 1, cfg := 1, v := [] })], ctrl := 1 } } with pwr := { up.pwr with state := 4 } } : State) ({ port := 0, fcsOk := true, len := 100, kind := .ptp, bytes := [] } : RxFrame).port).link ≠ 0) ∧
    (bit ({ { up with net := { up.net with ports := [(0, { NetPort.reset with link := 1, cfg := 1, v := [] })], ctrl := 1 } } with pwr := { up.pwr with state := 4 } } : State).net.ctrl 0 = true) ∧
    (({ port := 0, fcsOk := true, len := 100, kind := .ptp, bytes := [] } : RxFrame).fcsOk = true) ∧
    (64 ≤ ({ port := 0, fcsOk := true, len := 100, kind := .ptp, bytes := [] } : RxFrame).len) ∧
    (({ port := 0, fcsOk := true, len := 100, kind := .ptp, bytes := [] } : RxFrame).len ≤ 9022) ∧
    (({ { up with net := { up.net with ports := [(0, { NetPort.reset with link := 1, cfg := 1, v := [] })], ctrl := 1 } } with pwr := { up.pwr with state := 4 } } : State).pwr.state = 4) ∧
    (rxWakes ({ port := 0, fcsOk := true, len := 100, kind := .ptp, bytes := [] } : RxFrame) ({ { up with net := { up.net with ports := [(0, { NetPort.reset with link := 1, cfg := 1, v := [] })], ctrl := 1 } } with pwr := { up.pwr with state := 4 } } : State) = false) ∧
    ((({ { up with net := { up.net with ports := [(0, { NetPort.reset with link := 1, cfg := 1, v := [] })], ctrl := 1 } } with pwr := { up.pwr with state := 4 } } : State).net.waiting.map (fun w => w.len)).sum + ({ port := 0, fcsOk := true, len := 100, kind := .ptp, bytes := [] } : RxFrame).len ≤ 8388608) := by
  refine ⟨?_, ?_, ?_, ?_, ?_, ?_, ?_, ?_, ?_, ?_⟩ <;> first | decide | rfl | (apply ok_of; decide +kernel)

theorem test_met_rxFrame_4 :
    (Runs ({ up with net := { up.net with ports := [(0, { NetPort.reset with link := 1, cfg := 1, v := [] })], ctrl := 1 } } : State)) ∧
    (({ port := 0, fcsOk := true, len := 100, kind := .arpNdp, bytes := [] } : RxFrame).port < 2) ∧
    ((portOf ({ up with net := { up.net with ports := [(0, { NetPort.reset with link := 1, cfg := 1, v := [] })], ctrl := 1 } } : State) ({ port := 0, fcsOk := true, len := 100, kind := .arpNdp, bytes := [] } : RxFrame).port).link ≠ 0) ∧
    (bit ({ up with net := { up.net with ports := [(0, { NetPort.reset with link := 1, cfg := 1, v := [] })], ctrl := 1 } } : State).net.ctrl 0 = true) ∧
    (({ port := 0, fcsOk := true, len := 100, kind := .arpNdp, bytes := [] } : RxFrame).fcsOk = true) ∧
    (64 ≤ ({ port := 0, fcsOk := true, len := 100, kind := .arpNdp, bytes := [] } : RxFrame).len) ∧
    (({ port := 0, fcsOk := true, len := 100, kind := .arpNdp, bytes := [] } : RxFrame).len ≤ 9022) ∧
    (({ up with net := { up.net with ports := [(0, { NetPort.reset with link := 1, cfg := 1, v := [] })], ctrl := 1 } } : State).pwr.state ≠ 4) ∧
    (({ port := 0, fcsOk := true, len := 100, kind := .arpNdp, bytes := [] } : RxFrame).kind = .arpNdp) := by
  refine ⟨?_, ?_, ?_, ?_, ?_, ?_, ?_, ?_, ?_⟩ <;> first | decide | rfl | (apply ok_of; decide +kernel)

theorem test_met_rxFrame_5 :
    (Runs ({ up with net := { up.net with ports := [(0, { NetPort.reset with link := 1, cfg := 1, v := [] })], ctrl := 1 } } : State)) ∧
    (({ port := 0, fcsOk := true, len := 100, kind := .macControl, bytes := [] } : RxFrame).port < 2) ∧
    ((portOf ({ up with net := { up.net with ports := [(0, { NetPort.reset with link := 1, cfg := 1, v := [] })], ctrl := 1 } } : State) ({ port := 0, fcsOk := true, len := 100, kind := .macControl, bytes := [] } : RxFrame).port).link ≠ 0) ∧
    (bit ({ up with net := { up.net with ports := [(0, { NetPort.reset with link := 1, cfg := 1, v := [] })], ctrl := 1 } } : State).net.ctrl 0 = true) ∧
    (({ port := 0, fcsOk := true, len := 100, kind := .macControl, bytes := [] } : RxFrame).fcsOk = true) ∧
    (64 ≤ ({ port := 0, fcsOk := true, len := 100, kind := .macControl, bytes := [] } : RxFrame).len) ∧
    (({ port := 0, fcsOk := true, len := 100, kind := .macControl, bytes := [] } : RxFrame).len ≤ 9022) ∧
    (({ up with net := { up.net with ports := [(0, { NetPort.reset with link := 1, cfg := 1, v := [] })], ctrl := 1 } } : State).pwr.state ≠ 4) ∧
    (({ port := 0, fcsOk := true, len := 100, kind := .macControl, bytes := [] } : RxFrame).kind = .macControl) := by
  refine ⟨?_, ?_, ?_, ?_, ?_, ?_, ?_, ?_, ?_⟩ <;> first | decide | rfl | (apply ok_of; decide +kernel)

theorem test_met_rxFrame_6 :
    (Runs ({ up with net := { up.net with ports := [(0, { NetPort.reset with link := 1, cfg := 1, v := [] })], ctrl := 1, flows := [(2, { fi with session := some 5 })] } } : State)) ∧
    (({ port := 0, fcsOk := true, len := 100, kind := .udp 0 9 0 9 true 5 .data, bytes := [] } : RxFrame).port < 2) ∧
    ((portOf ({ up with net := { up.net with ports := [(0, { NetPort.reset with link := 1, cfg := 1, v := [] })], ctrl := 1, flows := [(2, { fi with session := some 5 })] } } : State) ({ port := 0, fcsOk := true, len := 100, kind := .udp 0 9 0 9 true 5 .data, bytes := [] } : RxFrame).port).link ≠ 0) ∧
    (bit ({ up with net := { up.net with ports := [(0, { NetPort.reset with link := 1, cfg := 1, v := [] })], ctrl := 1, flows := [(2, { fi with session := some 5 })] } } : State).net.ctrl 0 = true) ∧
    (({ port := 0, fcsOk := true, len := 100, kind := .udp 0 9 0 9 true 5 .data, bytes := [] } : RxFrame).fcsOk = true) ∧
    (64 ≤ ({ port := 0, fcsOk := true, len := 100, kind := .udp 0 9 0 9 true 5 .data, bytes := [] } : RxFrame).len) ∧
    (({ port := 0, fcsOk := true, len := 100, kind := .udp 0 9 0 9 true 5 .data, bytes := [] } : RxFrame).len ≤ 9022) ∧
    (({ up with net := { up.net with ports := [(0, { NetPort.reset with link := 1, cfg := 1, v := [] })], ctrl := 1, flows := [(2, { fi with session := some 5 })] } } : State).pwr.state ≠ 4) ∧
    (({ port := 0, fcsOk := true, len := 100, kind := .udp 0 9 0 9 true 5 .data, bytes := [] } : RxFrame).kind = .udp (0 : Nat) (9 : Nat) (0 : BitVec 128) (9 : Nat) (true : Bool) (5 : Nat) (.data : RxBody)) ∧
    (findFlow ({ up with net := { up.net with ports := [(0, { NetPort.reset with link := 1, cfg := 1, v := [] })], ctrl := 1, flows := [(2, { fi with session := some 5 })] } } : State) ({ port := 0, fcsOk := true, len := 100, kind := .udp 0 9 0 9 true 5 .data, bytes := [] } : RxFrame).port (0 : Nat) (9 : Nat) (0 : BitVec 128) (9 : Nat) = some ((2 : Nat), ({ fi with session := some 5 } : Flow))) ∧
    (look ({ up with net := { up.net with ports := [(0, { NetPort.reset with link := 1, cfg := 1, v := [] })], ctrl := 1, flows := [(2, { fi with session := some 5 })] } } : State).net.flows (2 : Nat) = some ({ fi with session := some 5 } : Flow)) ∧
    (({ fi with session := some 5 } : Flow).polCredit < (({ port := 0, fcsOk := true, len := 100, kind := .udp 0 9 0 9 true 5 .data, bytes := [] } : RxFrame).len + overhead ({ up with net := { up.net with ports := [(0, { NetPort.reset with link := 1, cfg := 1, v := [] })], ctrl := 1, flows := [(2, { fi with session := some 5 })] } } : State) ({ port := 0, fcsOk := true, len := 100, kind := .udp 0 9 0 9 true 5 .data, bytes := [] } : RxFrame).port) * 1000000) := by
  refine ⟨?_, ?_, ?_, ?_, ?_, ?_, ?_, ?_, ?_, ?_, ?_, ?_⟩ <;> first | decide | rfl | (apply ok_of; decide +kernel)

theorem test_met_rxFrame_7 :
    (Runs ({ up with net := { up.net with ports := [(0, { NetPort.reset with link := 1, cfg := 1, v := [] })], ctrl := 1 } } : State)) ∧
    (({ port := 0, fcsOk := true, len := 100, kind := .foreign, bytes := [] } : RxFrame).port < 2) ∧
    ((portOf ({ up with net := { up.net with ports := [(0, { NetPort.reset with link := 1, cfg := 1, v := [] })], ctrl := 1 } } : State) ({ port := 0, fcsOk := true, len := 100, kind := .foreign, bytes := [] } : RxFrame).port).link ≠ 0) ∧
    (bit ({ up with net := { up.net with ports := [(0, { NetPort.reset with link := 1, cfg := 1, v := [] })], ctrl := 1 } } : State).net.ctrl 0 = true) ∧
    (({ port := 0, fcsOk := true, len := 100, kind := .foreign, bytes := [] } : RxFrame).fcsOk = true) ∧
    (64 ≤ ({ port := 0, fcsOk := true, len := 100, kind := .foreign, bytes := [] } : RxFrame).len) ∧
    (({ port := 0, fcsOk := true, len := 100, kind := .foreign, bytes := [] } : RxFrame).len ≤ 9022) ∧
    (({ up with net := { up.net with ports := [(0, { NetPort.reset with link := 1, cfg := 1, v := [] })], ctrl := 1 } } : State).pwr.state ≠ 4) := by
  refine ⟨?_, ?_, ?_, ?_, ?_, ?_, ?_, ?_⟩ <;> first | decide | rfl | (apply ok_of; decide +kernel)

/-! Hypotheses of PacketsLeave are met. -/

theorem test_met_shaperRefill :
    (Runs ({ up with net := { up.net with ports := [(0, { NetPort.reset with link := 1, cfg := 1, v := [] })], ctrl := 1, flows := [(2, { newFlow 0 { port := 0, flags := 0, cls := 0, rxq := 0, rxqEn := false, vlan := 0, localPort := 9, remoteIp := 0, remotePort := 9, nextHop := 0, keySlot := 3, suite := 1, pt := 96, mtu := 1280, weight := 1, deadline := 0, paceMax := 1, paceMin := 1, burst := 9, pacePct := 0, policeRate := 1, policeBurst := 1, pad := 0 } 5 0 with kind := 0, session := some 5, detach := none, sent := true })] } } : State)) ∧
    (∀ e ∈ ({ up with net := { up.net with ports := [(0, { NetPort.reset with link := 1, cfg := 1, v := [] })], ctrl := 1, flows := [(2, { newFlow 0 { port := 0, flags := 0, cls := 0, rxq := 0, rxqEn := false, vlan := 0, localPort := 9, remoteIp := 0, remotePort := 9, nextHop := 0, keySlot := 3, suite := 1, pt := 96, mtu := 1280, weight := 1, deadline := 0, paceMax := 1, paceMin := 1, burst := 9, pacePct := 0, policeRate := 1, policeBurst := 1, pad := 0 } 5 0 with kind := 0, session := some 5, detach := none, sent := true })] } } : State).net.flows, e.2.pkts = []) := by
  refine ⟨?_, ?_⟩ <;> first | decide | rfl | (apply ok_of; decide +kernel)

theorem test_met_policerRefill :
    (Runs ({ up with net := { up.net with ports := [(0, { NetPort.reset with link := 1, cfg := 1, v := [] })], ctrl := 1, flows := [(2, { newFlow 0 { port := 0, flags := 0, cls := 0, rxq := 0, rxqEn := false, vlan := 0, localPort := 9, remoteIp := 0, remotePort := 9, nextHop := 0, keySlot := 3, suite := 1, pt := 96, mtu := 1280, weight := 1, deadline := 0, paceMax := 1, paceMin := 1, burst := 9, pacePct := 0, policeRate := 1, policeBurst := 1, pad := 0 } 5 0 with kind := 0, session := some 5, detach := none, sent := true })] } } : State)) := by
  first | decide | rfl | (apply ok_of; decide +kernel)

theorem test_met_portTxSelect :
    (Runs ({ up with net := { up.net with ports := [(0, { NetPort.reset with link := 1, cfg := 1, ctl := [.arp] })], ctrl := 1 } } : State)) ∧
    ((0 : Nat) < 2) ∧
    ((portOf ({ up with net := { up.net with ports := [(0, { NetPort.reset with link := 1, cfg := 1, ctl := [.arp] })], ctrl := 1 } } : State) (0 : Nat)).link ≠ 0) ∧
    (({ up with net := { up.net with ports := [(0, { NetPort.reset with link := 1, cfg := 1, ctl := [.arp] })], ctrl := 1 } } : State).pwr.state < 4) ∧
    ((portOf ({ up with net := { up.net with ports := [(0, { NetPort.reset with link := 1, cfg := 1, ctl := [.arp] })], ctrl := 1 } } : State) (0 : Nat)).ctl = (.arp : Ctl) :: ([] : List Ctl)) := by
  refine ⟨?_, ?_, ?_, ?_, ?_⟩ <;> first | decide | rfl | (apply ok_of; decide +kernel)

theorem test_met_portTxSelect_2 :
    (Runs ({ up with net := { up.net with ports := [(0, { NetPort.reset with link := 1, cfg := 1, v := [] })], ctrl := 1, flows := [(2, { { newFlow 0 { port := 0, flags := 0, cls := 0, rxq := 0, rxqEn := false, vlan := 0, localPort := 9, remoteIp := 0, remotePort := 9, nextHop := 0, keySlot := 3, suite := 1, pt := 96, mtu := 1280, weight := 1, deadline := 0, paceMax := 1, paceMin := 1, burst := 9, pacePct := 0, policeRate := 1, policeBurst := 1, pad := 0 } 5 0 with kind := 0, session := some 5, detach := none, sent := true } with start := some 0 })] } } : State)) ∧
    ((0 : Nat) < 2) ∧
    ((portOf ({ up with net := { up.net with ports := [(0, { NetPort.reset with link := 1, cfg := 1, v := [] })], ctrl := 1, flows := [(2, { { newFlow 0 { port := 0, flags := 0, cls := 0, rxq := 0, rxqEn := false, vlan := 0, localPort := 9, remoteIp := 0, remotePort := 9, nextHop := 0, keySlot := 3, suite := 1, pt := 96, mtu := 1280, weight := 1, deadline := 0, paceMax := 1, paceMin := 1, burst := 9, pacePct := 0, policeRate := 1, policeBurst := 1, pad := 0 } 5 0 with kind := 0, session := some 5, detach := none, sent := true } with start := some 0 })] } } : State) (0 : Nat)).link ≠ 0) ∧
    (({ up with net := { up.net with ports := [(0, { NetPort.reset with link := 1, cfg := 1, v := [] })], ctrl := 1, flows := [(2, { { newFlow 0 { port := 0, flags := 0, cls := 0, rxq := 0, rxqEn := false, vlan := 0, localPort := 9, remoteIp := 0, remotePort := 9, nextHop := 0, keySlot := 3, suite := 1, pt := 96, mtu := 1280, weight := 1, deadline := 0, paceMax := 1, paceMin := 1, burst := 9, pacePct := 0, policeRate := 1, policeBurst := 1, pad := 0 } 5 0 with kind := 0, session := some 5, detach := none, sent := true } with start := some 0 })] } } : State).pwr.state < 4) ∧
    ((portOf ({ up with net := { up.net with ports := [(0, { NetPort.reset with link := 1, cfg := 1, v := [] })], ctrl := 1, flows := [(2, { { newFlow 0 { port := 0, flags := 0, cls := 0, rxq := 0, rxqEn := false, vlan := 0, localPort := 9, remoteIp := 0, remotePort := 9, nextHop := 0, keySlot := 3, suite := 1, pt := 96, mtu := 1280, weight := 1, deadline := 0, paceMax := 1, paceMin := 1, burst := 9, pacePct := 0, policeRate := 1, policeBurst := 1, pad := 0 } 5 0 with kind := 0, session := some 5, detach := none, sent := true } with start := some 0 })] } } : State) (0 : Nat)).ctl = []) ∧
    ([6, 5, 4, 3, 2, 1, 0].findSome? (fun c => nextFlow ({ up with net := { up.net with ports := [(0, { NetPort.reset with link := 1, cfg := 1, v := [] })], ctrl := 1, flows := [(2, { { newFlow 0 { port := 0, flags := 0, cls := 0, rxq := 0, rxqEn := false, vlan := 0, localPort := 9, remoteIp := 0, remotePort := 9, nextHop := 0, keySlot := 3, suite := 1, pt := 96, mtu := 1280, weight := 1, deadline := 0, paceMax := 1, paceMin := 1, burst := 9, pacePct := 0, policeRate := 1, policeBurst := 1, pad := 0 } 5 0 with kind := 0, session := some 5, detach := none, sent := true } with start := some 0 })] } } : State) (0 : Nat) c) = some ((2 : Nat), ({ { newFlow 0 { port := 0, flags := 0, cls := 0, rxq := 0, rxqEn := false, vlan := 0, localPort := 9, remoteIp := 0, remotePort := 9, nextHop := 0, keySlot := 3, suite := 1, pt := 96, mtu := 1280, weight := 1, deadline := 0, paceMax := 1, paceMin := 1, burst := 9, pacePct := 0, policeRate := 1, policeBurst := 1, pad := 0 } 5 0 with kind := 0, session := some 5, detach := none, sent := true } with start := some 0 } : Flow), (0 : Rat))) := by
  refine ⟨?_, ?_, ?_, ?_, ?_, ?_⟩ <;> first | decide | rfl | (apply ok_of; decide +kernel)

theorem test_met_portTxSelect_3 :
    (Runs (up : State)) ∧ (2 ≤ (0 : Nat) ∨ (portOf (up : State) (0 : Nat)).link = 0 ∨ 4 ≤ (up : State).pwr.state) := by
  refine ⟨?_, ?_⟩ <;> first | decide | rfl | (apply ok_of; decide +kernel)

theorem test_met_senderReportTimer :
    (Runs ({ { up with net := { up.net with ports := [(0, { NetPort.reset with link := 1, cfg := 1, v := [] })], ctrl := 0x501, flows := [(2, { newFlow 0 { port := 0, flags := 0, cls := 0, rxq := 0, rxqEn := false, vlan := 0, localPort := 9, remoteIp := 0, remotePort := 9, nextHop := 0, keySlot := 3, suite := 1, pt := 96, mtu := 1280, weight := 1, deadline := 0, paceMax := 1, paceMin := 1, burst := 9, pacePct := 0, policeRate := 1, policeBurst := 1, pad := 0 } 5 0 with kind := 0, session := some 5, detach := none, sent := true })] } } with sessions := [(5, se)] } : State)) ∧
    (fld ({ { up with net := { up.net with ports := [(0, { NetPort.reset with link := 1, cfg := 1, v := [] })], ctrl := 0x501, flows := [(2, { newFlow 0 { port := 0, flags := 0, cls := 0, rxq := 0, rxqEn := false, vlan := 0, localPort := 9, remoteIp := 0, remotePort := 9, nextHop := 0, keySlot := 3, suite := 1, pt := 96, mtu := 1280, weight := 1, deadline := 0, paceMax := 1, paceMin := 1, burst := 9, pacePct := 0, policeRate := 1, policeBurst := 1, pad := 0 } 5 0 with kind := 0, session := some 5, detach := none, sent := true })] } } with sessions := [(5, se)] } : State).net.ctrl 15 8 ≠ 0) ∧
    (({ { up with net := { up.net with ports := [(0, { NetPort.reset with link := 1, cfg := 1, v := [] })], ctrl := 0x501, flows := [(2, { newFlow 0 { port := 0, flags := 0, cls := 0, rxq := 0, rxqEn := false, vlan := 0, localPort := 9, remoteIp := 0, remotePort := 9, nextHop := 0, keySlot := 3, suite := 1, pt := 96, mtu := 1280, weight := 1, deadline := 0, paceMax := 1, paceMin := 1, burst := 9, pacePct := 0, policeRate := 1, policeBurst := 1, pad := 0 } 5 0 with kind := 0, session := some 5, detach := none, sent := true })] } } with sessions := [(5, se)] } : State).net.flows = [((2 : Nat), ({ newFlow 0 { port := 0, flags := 0, cls := 0, rxq := 0, rxqEn := false, vlan := 0, localPort := 9, remoteIp := 0, remotePort := 9, nextHop := 0, keySlot := 3, suite := 1, pt := 96, mtu := 1280, weight := 1, deadline := 0, paceMax := 1, paceMin := 1, burst := 9, pacePct := 0, policeRate := 1, policeBurst := 1, pad := 0 } 5 0 with kind := 0, session := some 5, detach := none, sent := true } : Flow))]) ∧
    (({ newFlow 0 { port := 0, flags := 0, cls := 0, rxq := 0, rxqEn := false, vlan := 0, localPort := 9, remoteIp := 0, remotePort := 9, nextHop := 0, keySlot := 3, suite := 1, pt := 96, mtu := 1280, weight := 1, deadline := 0, paceMax := 1, paceMin := 1, burst := 9, pacePct := 0, policeRate := 1, policeBurst := 1, pad := 0 } 5 0 with kind := 0, session := some 5, detach := none, sent := true } : Flow).kind = 0) ∧
    (({ newFlow 0 { port := 0, flags := 0, cls := 0, rxq := 0, rxqEn := false, vlan := 0, localPort := 9, remoteIp := 0, remotePort := 9, nextHop := 0, keySlot := 3, suite := 1, pt := 96, mtu := 1280, weight := 1, deadline := 0, paceMax := 1, paceMin := 1, burst := 9, pacePct := 0, policeRate := 1, policeBurst := 1, pad := 0 } 5 0 with kind := 0, session := some 5, detach := none, sent := true } : Flow).detach = none) ∧
    (({ newFlow 0 { port := 0, flags := 0, cls := 0, rxq := 0, rxqEn := false, vlan := 0, localPort := 9, remoteIp := 0, remotePort := 9, nextHop := 0, keySlot := 3, suite := 1, pt := 96, mtu := 1280, weight := 1, deadline := 0, paceMax := 1, paceMin := 1, burst := 9, pacePct := 0, policeRate := 1, policeBurst := 1, pad := 0 } 5 0 with kind := 0, session := some 5, detach := none, sent := true } : Flow).session = some (5 : Nat)) ∧
    (({ newFlow 0 { port := 0, flags := 0, cls := 0, rxq := 0, rxqEn := false, vlan := 0, localPort := 9, remoteIp := 0, remotePort := 9, nextHop := 0, keySlot := 3, suite := 1, pt := 96, mtu := 1280, weight := 1, deadline := 0, paceMax := 1, paceMin := 1, burst := 9, pacePct := 0, policeRate := 1, policeBurst := 1, pad := 0 } 5 0 with kind := 0, session := some 5, detach := none, sent := true } : Flow).sent = true) ∧
    (look ({ { up with net := { up.net with ports := [(0, { NetPort.reset with link := 1, cfg := 1, v := [] })], ctrl := 0x501, flows := [(2, { newFlow 0 { port := 0, flags := 0, cls := 0, rxq := 0, rxqEn := false, vlan := 0, localPort := 9, remoteIp := 0, remotePort := 9, nextHop := 0, keySlot := 3, suite := 1, pt := 96, mtu := 1280, weight := 1, deadline := 0, paceMax := 1, paceMin := 1, burst := 9, pacePct := 0, policeRate := 1, policeBurst := 1, pad := 0 } 5 0 with kind := 0, session := some 5, detach := none, sent := true })] } } with sessions := [(5, se)] } : State).sessions (5 : Nat) = some (se : Session)) ∧
    ((se : Session).tan.live = false) := by
  refine ⟨?_, ?_, ?_, ?_, ?_, ?_, ?_, ?_, ?_⟩ <;> first | decide | rfl | (apply ok_of; decide +kernel)

theorem test_met_senderReportTimer_2 :
    (Runs ({ up with net := { up.net with ctrl := 1 } } : State)) ∧ (fld ({ up with net := { up.net with ctrl := 1 } } : State).net.ctrl 15 8 = 0) := by
  refine ⟨?_, ?_⟩ <;> first | decide | rfl | (apply ok_of; decide +kernel)

theorem test_met_rxqRaiseHoldoff :
    (Runs ({ up with net := { up.net with rxqs := [(1, { entry := 0, entries := 16, addr := 4096, n := 0, held := true, more := false })] } } : State)) ∧
    ((1 : Nat) < 8) ∧
    (look ({ up with net := { up.net with rxqs := [(1, { entry := 0, entries := 16, addr := 4096, n := 0, held := true, more := false })] } } : State).net.rxqs ((0 : Nat) * 8 + (1 : Nat)) = some ({ entry := 0, entries := 16, addr := 4096, n := 0, held := true, more := false } : RxQ)) ∧
    (({ entry := 0, entries := 16, addr := 4096, n := 0, held := true, more := false } : RxQ).held = true) ∧
    (({ entry := 0, entries := 16, addr := 4096, n := 0, held := true, more := false } : RxQ).more = false) := by
  refine ⟨?_, ?_, ?_, ?_, ?_⟩ <;> first | decide | rfl | (apply ok_of; decide +kernel)

theorem test_met_rxqRaiseHoldoff_2 :
    (Runs ({ up with net := { up.net with rxqs := [(1, { entry := 0, entries := 16, addr := 4096, n := 0, held := true, more := true })] } } : State)) ∧
    ((1 : Nat) < 8) ∧
    (look ({ up with net := { up.net with rxqs := [(1, { entry := 0, entries := 16, addr := 4096, n := 0, held := true, more := true })] } } : State).net.rxqs ((0 : Nat) * 8 + (1 : Nat)) = some ({ entry := 0, entries := 16, addr := 4096, n := 0, held := true, more := true } : RxQ)) ∧
    (({ entry := 0, entries := 16, addr := 4096, n := 0, held := true, more := true } : RxQ).held = true) ∧
    (({ entry := 0, entries := 16, addr := 4096, n := 0, held := true, more := true } : RxQ).more = true) := by
  refine ⟨?_, ?_, ?_, ?_, ?_⟩ <;> first | decide | rfl | (apply ok_of; decide +kernel)

/-! Hypotheses of NetRegistersAndClocks are met. -/

theorem test_met_netCtrlWrite :
    (Serves ({ up with net := { up.net with ports := [(0, { NetPort.reset with link := 1, cfg := 1, macLo := 1 })], ctrl := 0 } } : State)) ∧
    ((1 : Word) &&& 0xFFFF00FC = 0) ∧ (bit (1 : Word) 0 = true) ∧
    (bit ({ up with net := { up.net with ports := [(0, { NetPort.reset with link := 1, cfg := 1, macLo := 1 })], ctrl := 0 } } : State).net.ctrl 0 = false) ∧
    (([0, 1].filter (fun p => decide (portMode ({ up with net := { up.net with ports := [(0, { NetPort.reset with link := 1, cfg := 1, macLo := 1 })], ctrl := 0 } } : State) p ≠ 0))).isEmpty = false) ∧
    (([0, 1].filter (fun p => decide (portMode ({ up with net := { up.net with ports := [(0, { NetPort.reset with link := 1, cfg := 1, macLo := 1 })], ctrl := 0 } } : State) p ≠ 0))).any (fun p => decide ((portOf ({ up with net := { up.net with ports := [(0, { NetPort.reset with link := 1, cfg := 1, macLo := 1 })], ctrl := 0 } } : State) p).macLo = 0) && decide ((portOf ({ up with net := { up.net with ports := [(0, { NetPort.reset with link := 1, cfg := 1, macLo := 1 })], ctrl := 0 } } : State) p).macHi = 0)) = false) := by
  refine ⟨?_, ?_, ?_, ?_, ?_, ?_⟩ <;> first | decide | rfl | (apply ok_of; decide +kernel)

theorem test_met_netCtrlWrite_2 :
    (Serves (up : State)) ∧ ((1 : Word) &&& 0xFFFF00FC = 0) ∧ (bit (1 : Word) 0 = true) ∧ (bit (up : State).net.ctrl 0 = false) ∧
    (([0, 1].filter (fun p => decide (portMode (up : State) p ≠ 0))).isEmpty = true ∨ ([0, 1].filter (fun p => decide (portMode (up : State) p ≠ 0))).any (fun p => decide ((portOf (up : State) p).macLo = 0) && decide ((portOf (up : State) p).macHi = 0)) = true) := by
  refine ⟨?_, ?_, ?_, ?_, ?_⟩ <;> first | decide | rfl | (apply ok_of; decide +kernel)

theorem test_met_netCtrlWrite_3 :
    (Serves ({ up with net := { up.net with ports := [(0, { NetPort.reset with link := 1, cfg := 1, v := [] })], ctrl := 1, flows := [(2, { newFlow 0 { port := 0, flags := 0, cls := 0, rxq := 0, rxqEn := false, vlan := 0, localPort := 9, remoteIp := 0, remotePort := 9, nextHop := 0, keySlot := 3, suite := 1, pt := 96, mtu := 1280, weight := 1, deadline := 0, paceMax := 1, paceMin := 1, burst := 9, pacePct := 0, policeRate := 1, policeBurst := 1, pad := 0 } 5 0 with kind := 0, session := some 5, detach := none, sent := true })] } } : State)) ∧
    ((0 : Word) &&& 0xFFFF00FC = 0) ∧ (bit (0 : Word) 0 = false) ∧
    (bit ({ up with net := { up.net with ports := [(0, { NetPort.reset with link := 1, cfg := 1, v := [] })], ctrl := 1, flows := [(2, { newFlow 0 { port := 0, flags := 0, cls := 0, rxq := 0, rxqEn := false, vlan := 0, localPort := 9, remoteIp := 0, remotePort := 9, nextHop := 0, keySlot := 3, suite := 1, pt := 96, mtu := 1280, weight := 1, deadline := 0, paceMax := 1, paceMin := 1, burst := 9, pacePct := 0, policeRate := 1, policeBurst := 1, pad := 0 } 5 0 with kind := 0, session := some 5, detach := none, sent := true })] } } : State).net.ctrl 0 = true) ∧
    (({ up with net := { up.net with ports := [(0, { NetPort.reset with link := 1, cfg := 1, v := [] })], ctrl := 1, flows := [(2, { newFlow 0 { port := 0, flags := 0, cls := 0, rxq := 0, rxqEn := false, vlan := 0, localPort := 9, remoteIp := 0, remotePort := 9, nextHop := 0, keySlot := 3, suite := 1, pt := 96, mtu := 1280, weight := 1, deadline := 0, paceMax := 1, paceMin := 1, burst := 9, pacePct := 0, policeRate := 1, policeBurst := 1, pad := 0 } 5 0 with kind := 0, session := some 5, detach := none, sent := true })] } } : State).net.flows ≠ []) := by
  refine ⟨?_, ?_, ?_, ?_, ?_⟩ <;> first | decide | rfl | (apply ok_of; decide +kernel)

theorem test_met_netCtrlWrite_4 :
    (Serves (up : State)) ∧ ((0 : Word) &&& 0xFFFF00FC = 0) ∧ (bit (0 : Word) 0 = bit (up : State).net.ctrl 0 ∨ (bit (0 : Word) 0 = false ∧
    (up : State).net.flows = [])) := by
  refine ⟨?_, ?_, ?_⟩ <;> first | decide | rfl | (apply ok_of; decide +kernel)

theorem test_met_netPortCfgWrite :
    (Serves ({ up with net := { up.net with ports := [(0, { NetPort.reset with link := 1, cfg := 1, v := [] })], ctrl := 1, flows := [(2, { newFlow 0 { port := 0, flags := 0, cls := 0, rxq := 0, rxqEn := false, vlan := 0, localPort := 9, remoteIp := 0, remotePort := 9, nextHop := 0, keySlot := 3, suite := 1, pt := 96, mtu := 1280, weight := 1, deadline := 0, paceMax := 1, paceMin := 1, burst := 9, pacePct := 0, policeRate := 1, policeBurst := 1, pad := 0 } 5 0 with kind := 0, session := some 5, detach := none, sent := true })] } } : State)) ∧
    ((2 : Word) &&& 0x001FC0FC = 0) ∧ ((0 : Nat) < 2) ∧ (fld (2 : Word) 1 0 ≠ 3) ∧
    (fld (2 : Word) 1 0 ≠ fld (portOf ({ up with net := { up.net with ports := [(0, { NetPort.reset with link := 1, cfg := 1, v := [] })], ctrl := 1, flows := [(2, { newFlow 0 { port := 0, flags := 0, cls := 0, rxq := 0, rxqEn := false, vlan := 0, localPort := 9, remoteIp := 0, remotePort := 9, nextHop := 0, keySlot := 3, suite := 1, pt := 96, mtu := 1280, weight := 1, deadline := 0, paceMax := 1, paceMin := 1, burst := 9, pacePct := 0, policeRate := 1, policeBurst := 1, pad := 0 } 5 0 with kind := 0, session := some 5, detach := none, sent := true })] } } : State) (0 : Nat)).cfg 1 0) ∧
    (portUsed ({ up with net := { up.net with ports := [(0, { NetPort.reset with link := 1, cfg := 1, v := [] })], ctrl := 1, flows := [(2, { newFlow 0 { port := 0, flags := 0, cls := 0, rxq := 0, rxqEn := false, vlan := 0, localPort := 9, remoteIp := 0, remotePort := 9, nextHop := 0, keySlot := 3, suite := 1, pt := 96, mtu := 1280, weight := 1, deadline := 0, paceMax := 1, paceMin := 1, burst := 9, pacePct := 0, policeRate := 1, policeBurst := 1, pad := 0 } 5 0 with kind := 0, session := some 5, detach := none, sent := true })] } } : State) (0 : Nat) = true) := by
  refine ⟨?_, ?_, ?_, ?_, ?_, ?_⟩ <;> first | decide | rfl | (apply ok_of; decide +kernel)

theorem test_met_netPortCfgWrite_2 :
    (Serves ({ up with net := { up.net with ports := [(0, { NetPort.reset with link := 1, cfg := 1, v := [] })], ctrl := 1 } } : State)) ∧
    ((0x801 : Word) &&& 0x001FC0FC = 0) ∧ ((0 : Nat) < 2) ∧ (fld (0x801 : Word) 1 0 ≠ 3) ∧ (fld (0x801 : Word) 23 22 ≠ 3) ∧
    (fld (0x801 : Word) 1 0 = fld (portOf ({ up with net := { up.net with ports := [(0, { NetPort.reset with link := 1, cfg := 1, v := [] })], ctrl := 1 } } : State) (0 : Nat)).cfg 1 0) := by
  refine ⟨?_, ?_, ?_, ?_, ?_, ?_⟩ <;> first | decide | rfl | (apply ok_of; decide +kernel)

theorem test_met_netPtpLatch :
    (Serves (up : State)) ∧ ((1 : Word) &&& 0xFFFFFFFE = 0) ∧ (bit (1 : Word) 0 = true) := by
  refine ⟨?_, ?_, ?_⟩ <;> first | decide | rfl | (apply ok_of; decide +kernel)

theorem test_met_netPtpLatch_2 :
    (Serves (up : State)) ∧ ((0 : Word) &&& 0xFFFFFFFE = 0) ∧ (bit (0 : Word) 0 = false) := by
  refine ⟨?_, ?_, ?_⟩ <;> first | decide | rfl | (apply ok_of; decide +kernel)

theorem test_met_ppsInEdge :
    (Runs (up : State)) ∧ ((1 : Nat) < 2) := by
  refine ⟨?_, ?_⟩ <;> first | decide | rfl | (apply ok_of; decide +kernel)

theorem test_met_ppsOutSecond :
    (Runs (up : State)) ∧ ((0 : Nat) = (if bit (up : State).bell.cfg 3 then 1 else 0)) := by
  refine ⟨?_, ?_⟩ <;> first | decide | rfl | (apply ok_of; decide +kernel)

theorem test_met_ppsOutSecond_2 :
    (Runs (up : State)) ∧ ((1 : Nat) ≠ (if bit (up : State).bell.cfg 3 then 1 else 0)) := by
  refine ⟨?_, ?_⟩ <;> first | decide | rfl | (apply ok_of; decide +kernel)

/-! Hypotheses of DevicesPair are met. -/

theorem test_met_tandemCtrlWrite :
    (Serves ({ up with bell := { up.bell with locked := true }, dev := { up.dev with straps := 4 } } : State)) ∧ ((1 : Word) &&& 0xFFFFFFFC = 0) ∧
    (bit (1 : Word) 0 = true) ∧
    (bit ({ up with bell := { up.bell with locked := true }, dev := { up.dev with straps := 4 } } : State).tandem.ctrl 0 = false) ∧
    (tanEnableCode ({ up with bell := { up.bell with locked := true }, dev := { up.dev with straps := 4 } } : State) = none) ∧
    (({ up with bell := { up.bell with locked := true }, dev := { up.dev with straps := 4 } } : State).tandem.state = 0) := by
  refine ⟨?_, ?_, ?_, ?_, ?_, ?_⟩ <;> first | decide | rfl | (apply ok_of; decide +kernel)

theorem test_met_tandemCtrlWrite_2 :
    (Serves (up : State)) ∧ ((1 : Word) &&& 0xFFFFFFFC = 0) ∧ (bit (1 : Word) 0 = true) ∧ (bit (up : State).tandem.ctrl 0 = false) ∧
    (tanEnableCode (up : State) = some (0x0801 : Code)) := by
  refine ⟨?_, ?_, ?_, ?_, ?_⟩ <;> first | decide | rfl | (apply ok_of; decide +kernel)

theorem test_met_tandemCtrlWrite_3 :
    (Serves ({ { up with tandem := { up.tandem with ctrl := 1 } } with sessions := [(5, { se with tan := { se.tan with role := 1 } })] } : State)) ∧
    ((0 : Word) &&& 0xFFFFFFFC = 0) ∧ (bit (0 : Word) 0 = false) ∧
    (bit ({ { up with tandem := { up.tandem with ctrl := 1 } } with sessions := [(5, { se with tan := { se.tan with role := 1 } })] } : State).tandem.ctrl 0 = true) ∧
    (({ { up with tandem := { up.tandem with ctrl := 1 } } with sessions := [(5, { se with tan := { se.tan with role := 1 } })] } : State).sessions.any (fun e => decide (e.2.tan.role ≠ 0)) = true) := by
  refine ⟨?_, ?_, ?_, ?_, ?_⟩ <;> first | decide | rfl | (apply ok_of; decide +kernel)

theorem test_met_tandemCtrlWrite_4 :
    (Serves ({ up with tandem := { up.tandem with ctrl := 1, state := 3 } } : State)) ∧ ((0 : Word) &&& 0xFFFFFFFC = 0) ∧ (bit (0 : Word) 0 = false) ∧
    (bit ({ up with tandem := { up.tandem with ctrl := 1, state := 3 } } : State).tandem.ctrl 0 = true) ∧
    (({ up with tandem := { up.tandem with ctrl := 1, state := 3 } } : State).sessions.any (fun e => decide (e.2.tan.role ≠ 0)) = false) ∧
    (({ up with tandem := { up.tandem with ctrl := 1, state := 3 } } : State).tandem.state ≠ 0) := by
  refine ⟨?_, ?_, ?_, ?_, ?_, ?_⟩ <;> first | decide | rfl | (apply ok_of; decide +kernel)

theorem test_met_tandemCtrlWrite_5 :
    (Serves ({ up with tandem := { up.tandem with ctrl := 1 } } : State)) ∧ ((3 : Word) &&& 0xFFFFFFFC = 0) ∧
    (bit (3 : Word) 0 = bit ({ up with tandem := { up.tandem with ctrl := 1 } } : State).tandem.ctrl 0) := by
  refine ⟨?_, ?_, ?_⟩ <;> first | decide | rfl | (apply ok_of; decide +kernel)

theorem test_met_tandemRoleWrite :
    (Serves (up : State)) ∧ ((1 : Word) &&& 0xFFFFFFFE = 0) ∧ (bit (up : State).tandem.ctrl 0 = false) := by
  refine ⟨?_, ?_, ?_⟩ <;> first | decide | rfl | (apply ok_of; decide +kernel)

theorem test_met_tandemRoleWrite_2 :
    (Serves ({ up with tandem := { up.tandem with ctrl := 1 } } : State)) ∧ ((1 : Word) &&& 0xFFFFFFFE = 0) ∧
    (bit ({ up with tandem := { up.tandem with ctrl := 1 } } : State).tandem.ctrl 0 = true) := by
  refine ⟨?_, ?_, ?_⟩ <;> first | decide | rfl | (apply ok_of; decide +kernel)

theorem test_met_tandemHello :
    (Runs ({ up with tandem := { up.tandem with state := 1 } } : State)) ∧
    (({ up with tandem := { up.tandem with state := 1 } } : State).tandem.state = 1) ∧
    (({ up with tandem := { up.tandem with state := 1 } } : State).tandem.retryAt = none) ∧ (2 ≤ (8 : Nat)) ∧ ((8 : Nat) ≤ 8) := by
  refine ⟨?_, ?_, ?_, ?_, ?_⟩ <;> first | decide | rfl | (apply ok_of; decide +kernel)

theorem test_met_tandemHello_2 :
    (Runs (up : State)) ∧ ((up : State).tandem.state ≠ 1 ∨ (up : State).tandem.retryAt ≠ none ∨ (9 : Nat) < 2 ∨ 8 < (9 : Nat)) := by
  refine ⟨?_, ?_⟩ <;> first | decide | rfl | (apply ok_of; decide +kernel)

theorem test_met_tandemAuth :
    (Runs ({ up with tandem := { up.tandem with state := 2, side := 1 } } : State)) ∧
    (({ up with tandem := { up.tandem with state := 2, side := 1 } } : State).tandem.state = 2) := by
  refine ⟨?_, ?_⟩ <;> first | decide | rfl | (apply ok_of; decide +kernel)

theorem test_met_tandemAuth_2 :
    (Runs ({ up with tandem := { up.tandem with state := 2 } } : State)) ∧
    (({ up with tandem := { up.tandem with state := 2 } } : State).tandem.state = 2) := by
  refine ⟨?_, ?_⟩ <;> first | decide | rfl | (apply ok_of; decide +kernel)

theorem test_met_authRetry :
    (Runs ({ up with tandem := { up.tandem with state := 1, retryAt := some 0 } } : State)) ∧
    (({ up with tandem := { up.tandem with state := 1, retryAt := some 0 } } : State).tandem.retryAt = some (0 : BitVec 40)) ∧
    (({ up with tandem := { up.tandem with state := 1, retryAt := some 0 } } : State).tandem.state = 1) ∧
    (bellsFrom (0 : BitVec 40) ({ up with tandem := { up.tandem with state := 1, retryAt := some 0 } } : State).bell.num < 549755813888) := by
  refine ⟨?_, ?_, ?_, ?_⟩ <;> first | decide | rfl | (apply ok_of; decide +kernel)

theorem test_met_authRetry_2 :
    (Runs (up : State)) ∧ ((up : State).tandem.retryAt = none) := by
  refine ⟨?_, ?_⟩ <;> first | decide | rfl | (apply ok_of; decide +kernel)

theorem test_met_linkRetransmit :
    (Runs ({ up with tandem := { up.tandem with sent := [(2, 3)] } } : State)) ∧
    (({ up with tandem := { up.tandem with sent := [(2, 3)] } } : State).tandem.sent.find? (fun e => decide (e.1 = (2 : Word))) = some ((2 : Word), (3 : Nat))) ∧
    (({ up with tandem := { up.tandem with sent := [(2, 3)] } } : State).tandem.dead = false) ∧ ((3 : Nat) < 4) := by
  refine ⟨?_, ?_, ?_, ?_⟩ <;> first | decide | rfl | (apply ok_of; decide +kernel)

theorem test_met_linkRetransmit_2 :
    (Runs ({ up with tandem := { up.tandem with sent := [(2, 4)] } } : State)) ∧
    (({ up with tandem := { up.tandem with sent := [(2, 4)] } } : State).tandem.sent.find? (fun e => decide (e.1 = (2 : Word))) = some ((2 : Word), 4)) ∧
    (({ up with tandem := { up.tandem with sent := [(2, 4)] } } : State).tandem.dead = false) := by
  refine ⟨?_, ?_, ?_⟩ <;> first | decide | rfl | (apply ok_of; decide +kernel)

theorem test_met_tandemLinkTrainsAgain :
    (Runs ({ up with tandem := { up.tandem with state := 4 } } : State)) ∧
    (({ up with tandem := { up.tandem with state := 4 } } : State).tandem.state = 4) := by
  refine ⟨?_, ?_⟩ <;> first | decide | rfl | (apply ok_of; decide +kernel)

/-! Hypotheses of PartnersAreHeard are met. -/

theorem test_met_heartbeat :
    (Runs ({ up with tandem := { up.tandem with state := 3 } } : State)) ∧
    (({ up with tandem := { up.tandem with state := 3 } } : State).tandem.dead = false) ∧
    (({ up with tandem := { up.tandem with state := 3 } } : State).tandem.state = 3) ∧
    (({ link := { seq := 7, wellForm := true, authOk := true, seqOk := true }, pairBell := 0, side := 1, skew := -5000 } : HbMsg).link.wellForm = true) ∧
    (({ link := { seq := 7, wellForm := true, authOk := true, seqOk := true }, pairBell := 0, side := 1, skew := -5000 } : HbMsg).link.authOk = true) ∧
    (({ link := { seq := 7, wellForm := true, authOk := true, seqOk := true }, pairBell := 0, side := 1, skew := -5000 } : HbMsg).link.seqOk = true) ∧
    (({ link := { seq := 7, wellForm := true, authOk := true, seqOk := true }, pairBell := 0, side := 1, skew := -5000 } : HbMsg).pairBell = pairBell ({ up with tandem := { up.tandem with state := 3 } } : State)) ∧
    (({ link := { seq := 7, wellForm := true, authOk := true, seqOk := true }, pairBell := 0, side := 1, skew := -5000 } : HbMsg).skew.natAbs ≤ 5000) := by
  refine ⟨?_, ?_, ?_, ?_, ?_, ?_, ?_, ?_⟩ <;> first | decide | rfl | (apply ok_of; decide +kernel)

theorem test_met_heartbeat_2 :
    (Runs ({ up with tandem := { up.tandem with state := 3 } } : State)) ∧
    (({ up with tandem := { up.tandem with state := 3 } } : State).tandem.dead = false) ∧
    (({ up with tandem := { up.tandem with state := 3 } } : State).tandem.state = 3) ∧
    (({ link := { seq := 7, wellForm := true, authOk := true, seqOk := true }, pairBell := 0, side := 1, skew := 5001 } : HbMsg).link.wellForm = true) ∧
    (({ link := { seq := 7, wellForm := true, authOk := true, seqOk := true }, pairBell := 0, side := 1, skew := 5001 } : HbMsg).link.authOk = true) ∧
    (({ link := { seq := 7, wellForm := true, authOk := true, seqOk := true }, pairBell := 0, side := 1, skew := 5001 } : HbMsg).link.seqOk = true) ∧
    (({ link := { seq := 7, wellForm := true, authOk := true, seqOk := true }, pairBell := 0, side := 1, skew := 5001 } : HbMsg).pairBell ≠ pairBell ({ up with tandem := { up.tandem with state := 3 } } : State) ∨ 5000 < ({ link := { seq := 7, wellForm := true, authOk := true, seqOk := true }, pairBell := 0, side := 1, skew := 5001 } : HbMsg).skew.natAbs) := by
  refine ⟨?_, ?_, ?_, ?_, ?_, ?_, ?_⟩ <;> first | decide | rfl | (apply ok_of; decide +kernel)

theorem test_met_heartbeatMissed :
    (Runs ({ { up with tandem := { up.tandem with state := 3, hbDue := true, altOk := true } } with bell := { up.bell with window := .dispatch, cut := false } } : State)) ∧
    (({ { up with tandem := { up.tandem with state := 3, hbDue := true, altOk := true } } with bell := { up.bell with window := .dispatch, cut := false } } : State).tandem.state = 3) ∧
    (({ { up with tandem := { up.tandem with state := 3, hbDue := true, altOk := true } } with bell := { up.bell with window := .dispatch, cut := false } } : State).tandem.hbDue = true) ∧
    (({ { up with tandem := { up.tandem with state := 3, hbDue := true, altOk := true } } with bell := { up.bell with window := .dispatch, cut := false } } : State).tandem.linkOk = false) ∧
    (atStart ({ { up with tandem := { up.tandem with state := 3, hbDue := true, altOk := true } } with bell := { up.bell with window := .dispatch, cut := false } } : State) = true) ∧
    (({ { up with tandem := { up.tandem with state := 3, hbDue := true, altOk := true } } with bell := { up.bell with window := .dispatch, cut := false } } : State).tandem.altOk = true) ∧
    (({ { up with tandem := { up.tandem with state := 3, hbDue := true, altOk := true } } with bell := { up.bell with window := .dispatch, cut := false } } : State).tandem.missLink = 0) := by
  refine ⟨?_, ?_, ?_, ?_, ?_, ?_, ?_⟩ <;> first | decide | rfl | (apply ok_of; decide +kernel)

theorem test_met_heartbeatMissed_2 :
    (Runs ({ { up with tandem := { up.tandem with state := 3, hbDue := true, altOk := false } } with bell := { up.bell with window := .dispatch, cut := false } } : State)) ∧
    (({ { up with tandem := { up.tandem with state := 3, hbDue := true, altOk := false } } with bell := { up.bell with window := .dispatch, cut := false } } : State).tandem.state = 3) ∧
    (({ { up with tandem := { up.tandem with state := 3, hbDue := true, altOk := false } } with bell := { up.bell with window := .dispatch, cut := false } } : State).tandem.hbDue = true) ∧
    (({ { up with tandem := { up.tandem with state := 3, hbDue := true, altOk := false } } with bell := { up.bell with window := .dispatch, cut := false } } : State).tandem.linkOk = false) ∧
    (atStart ({ { up with tandem := { up.tandem with state := 3, hbDue := true, altOk := false } } with bell := { up.bell with window := .dispatch, cut := false } } : State) = true) ∧
    (({ { up with tandem := { up.tandem with state := 3, hbDue := true, altOk := false } } with bell := { up.bell with window := .dispatch, cut := false } } : State).tandem.altOk = false) ∧
    (({ { up with tandem := { up.tandem with state := 3, hbDue := true, altOk := false } } with bell := { up.bell with window := .dispatch, cut := false } } : State).tandem.missBoth = 0) := by
  refine ⟨?_, ?_, ?_, ?_, ?_, ?_, ?_⟩ <;> first | decide | rfl | (apply ok_of; decide +kernel)

theorem test_met_heartbeatMissed_3 :
    (Runs ({ { up with tandem := { up.tandem with state := 3, hbDue := true, altOk := false, missBoth := 1 } } with bell := { up.bell with window := .dispatch, cut := false } } : State)) ∧
    (({ { up with tandem := { up.tandem with state := 3, hbDue := true, altOk := false, missBoth := 1 } } with bell := { up.bell with window := .dispatch, cut := false } } : State).tandem.state = 3) ∧
    (({ { up with tandem := { up.tandem with state := 3, hbDue := true, altOk := false, missBoth := 1 } } with bell := { up.bell with window := .dispatch, cut := false } } : State).tandem.hbDue = true) ∧
    (({ { up with tandem := { up.tandem with state := 3, hbDue := true, altOk := false, missBoth := 1 } } with bell := { up.bell with window := .dispatch, cut := false } } : State).tandem.linkOk = false) ∧
    (atStart ({ { up with tandem := { up.tandem with state := 3, hbDue := true, altOk := false, missBoth := 1 } } with bell := { up.bell with window := .dispatch, cut := false } } : State) = true) ∧
    (({ { up with tandem := { up.tandem with state := 3, hbDue := true, altOk := false, missBoth := 1 } } with bell := { up.bell with window := .dispatch, cut := false } } : State).tandem.altOk = false) ∧
    (({ { up with tandem := { up.tandem with state := 3, hbDue := true, altOk := false, missBoth := 1 } } with bell := { up.bell with window := .dispatch, cut := false } } : State).tandem.missBoth = 1) := by
  refine ⟨?_, ?_, ?_, ?_, ?_, ?_, ?_⟩ <;> first | decide | rfl | (apply ok_of; decide +kernel)

theorem test_met_tandemNotice :
    (Runs ({ up with tandem := { up.tandem with state := 3 } } : State)) ∧
    (({ up with tandem := { up.tandem with state := 3 } } : State).tandem.state = 3) := by
  refine ⟨?_, ?_⟩ <;> first | decide | rfl | (apply ok_of; decide +kernel)

theorem test_met_tandemNotice_2 :
    (Runs ({ up with tandem := { up.tandem with state := 3 } } : State)) ∧
    (({ up with tandem := { up.tandem with state := 3 } } : State).tandem.state = 3) := by
  refine ⟨?_, ?_⟩ <;> first | decide | rfl | (apply ok_of; decide +kernel)

theorem test_met_tandemNotice_3 :
    (Runs ({ up with tandem := { up.tandem with state := 3 } } : State)) ∧
    (({ up with tandem := { up.tandem with state := 3 } } : State).tandem.state = 3) := by
  refine ⟨?_, ?_⟩ <;> first | decide | rfl | (apply ok_of; decide +kernel)

theorem test_met_tandemNotice_4 :
    (Runs ({ up with tandem := { up.tandem with state := 4 } } : State)) ∧
    (({ up with tandem := { up.tandem with state := 4 } } : State).tandem.state ≠ 3) := by
  refine ⟨?_, ?_⟩ <;> first | decide | rfl | (apply ok_of; decide +kernel)

theorem test_met_tandemNak :
    (Runs ({ up with tandem := { up.tandem with state := 3 } } : State)) ∧
    (({ up with tandem := { up.tandem with state := 3 } } : State).tandem.dead = false) ∧
    (({ up with tandem := { up.tandem with state := 3 } } : State).tandem.state = 3) ∧
    (({ seq := 7, wellForm := true, authOk := true, seqOk := true } : LinkMeta).wellForm = true) ∧
    (({ seq := 7, wellForm := true, authOk := true, seqOk := true } : LinkMeta).authOk = true) ∧
    (({ seq := 7, wellForm := true, authOk := true, seqOk := true } : LinkMeta).seqOk = true) := by
  refine ⟨?_, ?_, ?_, ?_, ?_, ?_⟩ <;> first | decide | rfl | (apply ok_of; decide +kernel)

theorem test_met_tandemNak_2 :
    (Runs ({ up with tandem := { up.tandem with state := 3 } } : State)) ∧
    (({ up with tandem := { up.tandem with state := 3 } } : State).tandem.dead = false) ∧
    (({ up with tandem := { up.tandem with state := 3 } } : State).tandem.state ≠ 0) ∧
    (({ seq := 7, wellForm := true, authOk := false, seqOk := true } : LinkMeta).wellForm = true) ∧
    (({ seq := 7, wellForm := true, authOk := false, seqOk := true } : LinkMeta).authOk = false) := by
  refine ⟨?_, ?_, ?_, ?_, ?_⟩ <;> first | decide | rfl | (apply ok_of; decide +kernel)

/-! Hypotheses of ShadowsFollow are met. -/

theorem test_met_mirror :
    (Runs ({ up with tandem := { up.tandem with state := 3 }, sessions := [(5, { se with tan := { se.tan with role := 2 } })] } : State)) ∧
    (({ up with tandem := { up.tandem with state := 3 }, sessions := [(5, { se with tan := { se.tan with role := 2 } })] } : State).tandem.dead = false) ∧
    (({ up with tandem := { up.tandem with state := 3 }, sessions := [(5, { se with tan := { se.tan with role := 2 } })] } : State).tandem.state = 3) ∧
    (({ link := { seq := 7, wellForm := true, authOk := true, seqOk := true }, handle := 5, frame := 9, band := 1, last := false, desc := 3, main := none, slot := none, rate := se.rate, ltr := se.ltr, rtp := se.rtp } : MirrorMsg).link.wellForm = true) ∧
    (({ link := { seq := 7, wellForm := true, authOk := true, seqOk := true }, handle := 5, frame := 9, band := 1, last := false, desc := 3, main := none, slot := none, rate := se.rate, ltr := se.ltr, rtp := se.rtp } : MirrorMsg).link.authOk = true) ∧
    (({ link := { seq := 7, wellForm := true, authOk := true, seqOk := true }, handle := 5, frame := 9, band := 1, last := false, desc := 3, main := none, slot := none, rate := se.rate, ltr := se.ltr, rtp := se.rtp } : MirrorMsg).link.seqOk = true) ∧
    (look ({ up with tandem := { up.tandem with state := 3 }, sessions := [(5, { se with tan := { se.tan with role := 2 } })] } : State).sessions ({ link := { seq := 7, wellForm := true, authOk := true, seqOk := true }, handle := 5, frame := 9, band := 1, last := false, desc := 3, main := none, slot := none, rate := se.rate, ltr := se.ltr, rtp := se.rtp } : MirrorMsg).handle = some ({ se with tan := { se.tan with role := 2 } } : Session)) ∧
    (({ se with tan := { se.tan with role := 2 } } : Session).tan.role = 2) ∧
    (({ se with tan := { se.tan with role := 2 } } : Session).tan.shBands = 0) ∧
    (({ link := { seq := 7, wellForm := true, authOk := true, seqOk := true }, handle := 5, frame := 9, band := 1, last := false, desc := 3, main := none, slot := none, rate := se.rate, ltr := se.ltr, rtp := se.rtp } : MirrorMsg).band = 1) ∧
    (({ link := { seq := 7, wellForm := true, authOk := true, seqOk := true }, handle := 5, frame := 9, band := 1, last := false, desc := 3, main := none, slot := none, rate := se.rate, ltr := se.ltr, rtp := se.rtp } : MirrorMsg).last = false) ∧
    (({ link := { seq := 7, wellForm := true, authOk := true, seqOk := true }, handle := 5, frame := 9, band := 1, last := false, desc := 3, main := none, slot := none, rate := se.rate, ltr := se.ltr, rtp := se.rtp } : MirrorMsg).desc < 16) ∧
    (look ({ se with tan := { se.tan with role := 2 } } : Session).pics ({ link := { seq := 7, wellForm := true, authOk := true, seqOk := true }, handle := 5, frame := 9, band := 1, last := false, desc := 3, main := none, slot := none, rate := se.rate, ltr := se.ltr, rtp := se.rtp } : MirrorMsg).desc = none) := by
  refine ⟨?_, ?_, ?_, ?_, ?_, ?_, ?_, ?_, ?_, ?_, ?_, ?_, ?_⟩ <;> first | decide | rfl | (apply ok_of; decide +kernel)

theorem test_met_mirror_2 :
    (Runs ({ up with tandem := { up.tandem with state := 3 }, sessions := [(5, { se with tan := { se.tan with role := 2, shFrame := 9, shBands := 1 } })] } : State)) ∧
    (({ up with tandem := { up.tandem with state := 3 }, sessions := [(5, { se with tan := { se.tan with role := 2, shFrame := 9, shBands := 1 } })] } : State).tandem.dead = false) ∧
    (({ up with tandem := { up.tandem with state := 3 }, sessions := [(5, { se with tan := { se.tan with role := 2, shFrame := 9, shBands := 1 } })] } : State).tandem.state = 3) ∧
    (({ link := { seq := 7, wellForm := true, authOk := true, seqOk := true }, handle := 5, frame := 9, band := 3, last := false, desc := 3, main := none, slot := none, rate := se.rate, ltr := se.ltr, rtp := se.rtp } : MirrorMsg).link.wellForm = true) ∧
    (({ link := { seq := 7, wellForm := true, authOk := true, seqOk := true }, handle := 5, frame := 9, band := 3, last := false, desc := 3, main := none, slot := none, rate := se.rate, ltr := se.ltr, rtp := se.rtp } : MirrorMsg).link.authOk = true) ∧
    (({ link := { seq := 7, wellForm := true, authOk := true, seqOk := true }, handle := 5, frame := 9, band := 3, last := false, desc := 3, main := none, slot := none, rate := se.rate, ltr := se.ltr, rtp := se.rtp } : MirrorMsg).link.seqOk = true) ∧
    (look ({ up with tandem := { up.tandem with state := 3 }, sessions := [(5, { se with tan := { se.tan with role := 2, shFrame := 9, shBands := 1 } })] } : State).sessions ({ link := { seq := 7, wellForm := true, authOk := true, seqOk := true }, handle := 5, frame := 9, band := 3, last := false, desc := 3, main := none, slot := none, rate := se.rate, ltr := se.ltr, rtp := se.rtp } : MirrorMsg).handle = some ({ se with tan := { se.tan with role := 2, shFrame := 9, shBands := 1 } } : Session)) ∧
    (({ se with tan := { se.tan with role := 2, shFrame := 9, shBands := 1 } } : Session).tan.role = 2) ∧
    (({ se with tan := { se.tan with role := 2, shFrame := 9, shBands := 1 } } : Session).tan.shBands ≠ 0) ∧
    (({ se with tan := { se.tan with role := 2, shFrame := 9, shBands := 1 } } : Session).tan.shLast = false) ∧
    (({ link := { seq := 7, wellForm := true, authOk := true, seqOk := true }, handle := 5, frame := 9, band := 3, last := false, desc := 3, main := none, slot := none, rate := se.rate, ltr := se.ltr, rtp := se.rtp } : MirrorMsg).frame ≠ ({ se with tan := { se.tan with role := 2, shFrame := 9, shBands := 1 } } : Session).tan.shFrame ∨ ({ link := { seq := 7, wellForm := true, authOk := true, seqOk := true }, handle := 5, frame := 9, band := 3, last := false, desc := 3, main := none, slot := none, rate := se.rate, ltr := se.ltr, rtp := se.rtp } : MirrorMsg).band ≠ ({ se with tan := { se.tan with role := 2, shFrame := 9, shBands := 1 } } : Session).tan.shBands + 1) := by
  refine ⟨?_, ?_, ?_, ?_, ?_, ?_, ?_, ?_, ?_, ?_, ?_⟩ <;> first | decide | rfl | (apply ok_of; decide +kernel)

theorem test_met_mirror_3 :
    (Runs ({ up with tandem := { up.tandem with state := 3 }, sessions := [(5, { se with tan := { se.tan with role := 1 } })] } : State)) ∧
    (({ up with tandem := { up.tandem with state := 3 }, sessions := [(5, { se with tan := { se.tan with role := 1 } })] } : State).tandem.dead = false) ∧
    (({ up with tandem := { up.tandem with state := 3 }, sessions := [(5, { se with tan := { se.tan with role := 1 } })] } : State).tandem.state = 3) ∧
    (({ link := { seq := 7, wellForm := true, authOk := true, seqOk := true }, handle := 5, frame := 9, band := 1, last := false, desc := 3, main := none, slot := none, rate := se.rate, ltr := se.ltr, rtp := se.rtp } : MirrorMsg).link.wellForm = true) ∧
    (({ link := { seq := 7, wellForm := true, authOk := true, seqOk := true }, handle := 5, frame := 9, band := 1, last := false, desc := 3, main := none, slot := none, rate := se.rate, ltr := se.ltr, rtp := se.rtp } : MirrorMsg).link.authOk = true) ∧
    (({ link := { seq := 7, wellForm := true, authOk := true, seqOk := true }, handle := 5, frame := 9, band := 1, last := false, desc := 3, main := none, slot := none, rate := se.rate, ltr := se.ltr, rtp := se.rtp } : MirrorMsg).link.seqOk = true) ∧
    (look ({ up with tandem := { up.tandem with state := 3 }, sessions := [(5, { se with tan := { se.tan with role := 1 } })] } : State).sessions ({ link := { seq := 7, wellForm := true, authOk := true, seqOk := true }, handle := 5, frame := 9, band := 1, last := false, desc := 3, main := none, slot := none, rate := se.rate, ltr := se.ltr, rtp := se.rtp } : MirrorMsg).handle = some ({ se with tan := { se.tan with role := 1 } } : Session)) ∧
    (({ se with tan := { se.tan with role := 1 } } : Session).tan.role = 1) := by
  refine ⟨?_, ?_, ?_, ?_, ?_, ?_, ?_, ?_⟩ <;> first | decide | rfl | (apply ok_of; decide +kernel)

theorem test_met_mirror_4 :
    (Runs ({ up with tandem := { up.tandem with state := 3 }, sessions := [(5, { se with tan := { se.tan with role := 2 } })] } : State)) ∧
    (({ up with tandem := { up.tandem with state := 3 }, sessions := [(5, { se with tan := { se.tan with role := 2 } })] } : State).tandem.dead = false) ∧
    (({ up with tandem := { up.tandem with state := 3 }, sessions := [(5, { se with tan := { se.tan with role := 2 } })] } : State).tandem.state = 3) ∧
    (({ link := { seq := 7, wellForm := true, authOk := true, seqOk := true }, handle := 6, frame := 9, band := 1, last := false, desc := 3, main := none, slot := none, rate := se.rate, ltr := se.ltr, rtp := se.rtp } : MirrorMsg).link.wellForm = true) ∧
    (({ link := { seq := 7, wellForm := true, authOk := true, seqOk := true }, handle := 6, frame := 9, band := 1, last := false, desc := 3, main := none, slot := none, rate := se.rate, ltr := se.ltr, rtp := se.rtp } : MirrorMsg).link.authOk = true) ∧
    (({ link := { seq := 7, wellForm := true, authOk := true, seqOk := true }, handle := 6, frame := 9, band := 1, last := false, desc := 3, main := none, slot := none, rate := se.rate, ltr := se.ltr, rtp := se.rtp } : MirrorMsg).link.seqOk = true) ∧
    (look ({ up with tandem := { up.tandem with state := 3 }, sessions := [(5, { se with tan := { se.tan with role := 2 } })] } : State).sessions ({ link := { seq := 7, wellForm := true, authOk := true, seqOk := true }, handle := 6, frame := 9, band := 1, last := false, desc := 3, main := none, slot := none, rate := se.rate, ltr := se.ltr, rtp := se.rtp } : MirrorMsg).handle = none) := by
  refine ⟨?_, ?_, ?_, ?_, ?_, ?_, ?_⟩ <;> first | decide | rfl | (apply ok_of; decide +kernel)

theorem test_met_shadowDecodeDone :
    (Runs ({ up with tandem := { up.tandem with state := 3 }, sessions := [(5, { se with tan := { se.tan with role := 2, landed := true, due := [(9, 1, 0)], run := [(9, ({ db0 2 with units := (List.range (2 * (decBlocks (shadowAu se 9) 1).2)).map (fun i => (i, 0)) }))] } })] } : State)) ∧
    (look ({ up with tandem := { up.tandem with state := 3 }, sessions := [(5, { se with tan := { se.tan with role := 2, landed := true, due := [(9, 1, 0)], run := [(9, ({ db0 2 with units := (List.range (2 * (decBlocks (shadowAu se 9) 1).2)).map (fun i => (i, 0)) }))] } })] } : State).sessions (5 : Nat) = some ({ se with tan := { se.tan with role := 2, landed := true, due := [(9, 1, 0)], run := [(9, ({ db0 2 with units := (List.range (2 * (decBlocks (shadowAu se 9) 1).2)).map (fun i => (i, 0)) }))] } } : Session)) ∧
    (({ se with tan := { se.tan with role := 2, landed := true, due := [(9, 1, 0)], run := [(9, ({ db0 2 with units := (List.range (2 * (decBlocks (shadowAu se 9) 1).2)).map (fun i => (i, 0)) }))] } } : Session).tan.run = ((9 : Nat), (({ db0 2 with units := (List.range (2 * (decBlocks (shadowAu se 9) 1).2)).map (fun i => (i, 0)) }) : DecBand)) :: ([] : List (Nat × DecBand))) ∧
    (({ se with tan := { se.tan with role := 2, landed := true, due := [(9, 1, 0)], run := [(9, ({ db0 2 with units := (List.range (2 * (decBlocks (shadowAu se 9) 1).2)).map (fun i => (i, 0)) }))] } } : Session).tan.due = ((9 : Nat), (1 : Nat), (0 : BitVec 40)) :: ([] : List (Nat × Nat × BitVec 40))) ∧
    (({ se with tan := { se.tan with role := 2, landed := true, due := [(9, 1, 0)], run := [(9, ({ db0 2 with units := (List.range (2 * (decBlocks (shadowAu se 9) 1).2)).map (fun i => (i, 0)) }))] } } : Session).tan.role = 2) ∧
    (({ se with tan := { se.tan with role := 2, landed := true, due := [(9, 1, 0)], run := [(9, ({ db0 2 with units := (List.range (2 * (decBlocks (shadowAu se 9) 1).2)).map (fun i => (i, 0)) }))] } } : Session).tan.recheck = none) ∧
    (shadowReady ({ se with tan := { se.tan with role := 2, landed := true, due := [(9, 1, 0)], run := [(9, ({ db0 2 with units := (List.range (2 * (decBlocks (shadowAu se 9) 1).2)).map (fun i => (i, 0)) }))] } } : Session) (9 : Nat) (({ db0 2 with units := (List.range (2 * (decBlocks (shadowAu se 9) 1).2)).map (fun i => (i, 0)) }) : DecBand) = true) ∧
    (linkUp ({ up with tandem := { up.tandem with state := 3 }, sessions := [(5, { se with tan := { se.tan with role := 2, landed := true, due := [(9, 1, 0)], run := [(9, ({ db0 2 with units := (List.range (2 * (decBlocks (shadowAu se 9) 1).2)).map (fun i => (i, 0)) }))] } })] } : State) = true) := by
  refine ⟨?_, ?_, ?_, ?_, ?_, ?_, ?_, ?_⟩ <;> first | decide | rfl | (apply ok_of; decide +kernel)

theorem test_met_shadowDecodeDone_2 :
    (Runs ({ up with tandem := { up.tandem with state := 3 }, sessions := [(5, { se with tan := { se.tan with role := 2, landed := true, due := [(9, 1, 0)], run := [(9, ({ db0 2 with units := (List.range (2 * (decBlocks (shadowAu se 9) 1).2)).map (fun i => (i, 0)) }))] } })] } : State)) ∧
    (look ({ up with tandem := { up.tandem with state := 3 }, sessions := [(5, { se with tan := { se.tan with role := 2, landed := true, due := [(9, 1, 0)], run := [(9, ({ db0 2 with units := (List.range (2 * (decBlocks (shadowAu se 9) 1).2)).map (fun i => (i, 0)) }))] } })] } : State).sessions (5 : Nat) = some ({ se with tan := { se.tan with role := 2, landed := true, due := [(9, 1, 0)], run := [(9, ({ db0 2 with units := (List.range (2 * (decBlocks (shadowAu se 9) 1).2)).map (fun i => (i, 0)) }))] } } : Session)) ∧
    (({ se with tan := { se.tan with role := 2, landed := true, due := [(9, 1, 0)], run := [(9, ({ db0 2 with units := (List.range (2 * (decBlocks (shadowAu se 9) 1).2)).map (fun i => (i, 0)) }))] } } : Session).tan.run = ((9 : Nat), (({ db0 2 with units := (List.range (2 * (decBlocks (shadowAu se 9) 1).2)).map (fun i => (i, 0)) }) : DecBand)) :: ([] : List (Nat × DecBand))) ∧
    (({ se with tan := { se.tan with role := 2, landed := true, due := [(9, 1, 0)], run := [(9, ({ db0 2 with units := (List.range (2 * (decBlocks (shadowAu se 9) 1).2)).map (fun i => (i, 0)) }))] } } : Session).tan.due = ((9 : Nat), (1 : Nat), (0 : BitVec 40)) :: ([] : List (Nat × Nat × BitVec 40))) ∧
    (({ se with tan := { se.tan with role := 2, landed := true, due := [(9, 1, 0)], run := [(9, ({ db0 2 with units := (List.range (2 * (decBlocks (shadowAu se 9) 1).2)).map (fun i => (i, 0)) }))] } } : Session).tan.role = 2) ∧
    (({ se with tan := { se.tan with role := 2, landed := true, due := [(9, 1, 0)], run := [(9, ({ db0 2 with units := (List.range (2 * (decBlocks (shadowAu se 9) 1).2)).map (fun i => (i, 0)) }))] } } : Session).tan.recheck = none) ∧
    (shadowReady ({ se with tan := { se.tan with role := 2, landed := true, due := [(9, 1, 0)], run := [(9, ({ db0 2 with units := (List.range (2 * (decBlocks (shadowAu se 9) 1).2)).map (fun i => (i, 0)) }))] } } : Session) (9 : Nat) (({ db0 2 with units := (List.range (2 * (decBlocks (shadowAu se 9) 1).2)).map (fun i => (i, 0)) }) : DecBand) = true) ∧
    (linkUp ({ up with tandem := { up.tandem with state := 3 }, sessions := [(5, { se with tan := { se.tan with role := 2, landed := true, due := [(9, 1, 0)], run := [(9, ({ db0 2 with units := (List.range (2 * (decBlocks (shadowAu se 9) 1).2)).map (fun i => (i, 0)) }))] } })] } : State) = true) ∧
    (({ se with tan := { se.tan with role := 2, landed := true, due := [(9, 1, 0)], run := [(9, ({ db0 2 with units := (List.range (2 * (decBlocks (shadowAu se 9) 1).2)).map (fun i => (i, 0)) }))] } } : Session).pics = []) := by
  refine ⟨?_, ?_, ?_, ?_, ?_, ?_, ?_, ?_, ?_⟩ <;> first | decide | rfl | (apply ok_of; decide +kernel)

theorem test_met_shadowDecodeDone_3 :
    (Runs ({ up with tandem := { up.tandem with state := 3 }, sessions := [(5, { se with tan := { se.tan with role := 2, landed := true, due := [(9, 1, 0)], run := [(9, ({ db0 2 with units := (List.range (2 * (decBlocks (shadowAu se 9) 1).2)).map (fun i => (i, 0)) }))] } })] } : State)) ∧
    (look ({ up with tandem := { up.tandem with state := 3 }, sessions := [(5, { se with tan := { se.tan with role := 2, landed := true, due := [(9, 1, 0)], run := [(9, ({ db0 2 with units := (List.range (2 * (decBlocks (shadowAu se 9) 1).2)).map (fun i => (i, 0)) }))] } })] } : State).sessions (5 : Nat) = some ({ se with tan := { se.tan with role := 2, landed := true, due := [(9, 1, 0)], run := [(9, ({ db0 2 with units := (List.range (2 * (decBlocks (shadowAu se 9) 1).2)).map (fun i => (i, 0)) }))] } } : Session)) ∧
    (({ se with tan := { se.tan with role := 2, landed := true, due := [(9, 1, 0)], run := [(9, ({ db0 2 with units := (List.range (2 * (decBlocks (shadowAu se 9) 1).2)).map (fun i => (i, 0)) }))] } } : Session).tan.run = ((9 : Nat), (({ db0 2 with units := (List.range (2 * (decBlocks (shadowAu se 9) 1).2)).map (fun i => (i, 0)) }) : DecBand)) :: ([] : List (Nat × DecBand))) ∧
    (({ se with tan := { se.tan with role := 2, landed := true, due := [(9, 1, 0)], run := [(9, ({ db0 2 with units := (List.range (2 * (decBlocks (shadowAu se 9) 1).2)).map (fun i => (i, 0)) }))] } } : Session).tan.due = ((9 : Nat), (1 : Nat), (0 : BitVec 40)) :: ([] : List (Nat × Nat × BitVec 40))) ∧
    (({ se with tan := { se.tan with role := 2, landed := true, due := [(9, 1, 0)], run := [(9, ({ db0 2 with units := (List.range (2 * (decBlocks (shadowAu se 9) 1).2)).map (fun i => (i, 0)) }))] } } : Session).tan.role = 2) ∧
    (({ se with tan := { se.tan with role := 2, landed := true, due := [(9, 1, 0)], run := [(9, ({ db0 2 with units := (List.range (2 * (decBlocks (shadowAu se 9) 1).2)).map (fun i => (i, 0)) }))] } } : Session).tan.recheck = none) ∧
    (linkUp ({ up with tandem := { up.tandem with state := 3 }, sessions := [(5, { se with tan := { se.tan with role := 2, landed := true, due := [(9, 1, 0)], run := [(9, ({ db0 2 with units := (List.range (2 * (decBlocks (shadowAu se 9) 1).2)).map (fun i => (i, 0)) }))] } })] } : State) = true) := by
  refine ⟨?_, ?_, ?_, ?_, ?_, ?_, ?_⟩ <;> first | decide | rfl | (apply ok_of; decide +kernel)

theorem test_met_shadowDecodeDone_4 :
    (Runs ({ up with tandem := { up.tandem with state := 3 }, sessions := [(5, { se with tan := { se.tan with role := 2, landed := true, due := [(9, 1, 0)], run := [(9, ({ db0 2 with units := (List.range (2 * (decBlocks (shadowAu se 9) 1).2)).map (fun i => (i, 0)) }))] } })] } : State)) ∧
    (look ({ up with tandem := { up.tandem with state := 3 }, sessions := [(5, { se with tan := { se.tan with role := 2, landed := true, due := [(9, 1, 0)], run := [(9, ({ db0 2 with units := (List.range (2 * (decBlocks (shadowAu se 9) 1).2)).map (fun i => (i, 0)) }))] } })] } : State).sessions (5 : Nat) = some ({ se with tan := { se.tan with role := 2, landed := true, due := [(9, 1, 0)], run := [(9, ({ db0 2 with units := (List.range (2 * (decBlocks (shadowAu se 9) 1).2)).map (fun i => (i, 0)) }))] } } : Session)) ∧
    (({ se with tan := { se.tan with role := 2, landed := true, due := [(9, 1, 0)], run := [(9, ({ db0 2 with units := (List.range (2 * (decBlocks (shadowAu se 9) 1).2)).map (fun i => (i, 0)) }))] } } : Session).tan.run = ((9 : Nat), (({ db0 2 with units := (List.range (2 * (decBlocks (shadowAu se 9) 1).2)).map (fun i => (i, 0)) }) : DecBand)) :: ([] : List (Nat × DecBand))) ∧
    (({ se with tan := { se.tan with role := 2, landed := true, due := [(9, 1, 0)], run := [(9, ({ db0 2 with units := (List.range (2 * (decBlocks (shadowAu se 9) 1).2)).map (fun i => (i, 0)) }))] } } : Session).tan.due = ((9 : Nat), (1 : Nat), (0 : BitVec 40)) :: ([] : List (Nat × Nat × BitVec 40))) ∧
    (({ se with tan := { se.tan with role := 2, landed := true, due := [(9, 1, 0)], run := [(9, ({ db0 2 with units := (List.range (2 * (decBlocks (shadowAu se 9) 1).2)).map (fun i => (i, 0)) }))] } } : Session).tan.role = 2) ∧
    (({ se with tan := { se.tan with role := 2, landed := true, due := [(9, 1, 0)], run := [(9, ({ db0 2 with units := (List.range (2 * (decBlocks (shadowAu se 9) 1).2)).map (fun i => (i, 0)) }))] } } : Session).tan.recheck = none) ∧
    (shadowReady ({ se with tan := { se.tan with role := 2, landed := true, due := [(9, 1, 0)], run := [(9, ({ db0 2 with units := (List.range (2 * (decBlocks (shadowAu se 9) 1).2)).map (fun i => (i, 0)) }))] } } : Session) (9 : Nat) (({ db0 2 with units := (List.range (2 * (decBlocks (shadowAu se 9) 1).2)).map (fun i => (i, 0)) }) : DecBand) = true) := by
  refine ⟨?_, ?_, ?_, ?_, ?_, ?_, ?_⟩ <;> first | decide | rfl | (apply ok_of; decide +kernel)

theorem test_met_shadowRecheckDone :
    (Runs ({ up with tandem := { up.tandem with state := 3 }, sessions := [(5, { se with tan := { se.tan with role := 2, landed := true, due := [(9, 1, 0)], recheck := some 0 } })] } : State)) ∧
    (look ({ up with tandem := { up.tandem with state := 3 }, sessions := [(5, { se with tan := { se.tan with role := 2, landed := true, due := [(9, 1, 0)], recheck := some 0 } })] } : State).sessions (5 : Nat) = some ({ se with tan := { se.tan with role := 2, landed := true, due := [(9, 1, 0)], recheck := some 0 } } : Session)) ∧
    (({ se with tan := { se.tan with role := 2, landed := true, due := [(9, 1, 0)], recheck := some 0 } } : Session).tan.recheck = some (0 : Nat)) ∧
    (({ se with tan := { se.tan with role := 2, landed := true, due := [(9, 1, 0)], recheck := some 0 } } : Session).tan.due = ((9 : Nat), (1 : Nat), (0 : BitVec 40)) :: ([] : List (Nat × Nat × BitVec 40))) := by
  refine ⟨?_, ?_, ?_, ?_⟩ <;> first | decide | rfl | (apply ok_of; decide +kernel)

theorem test_met_syncDone :
    (Runs ({ up with tandem := { up.tandem with state := 3 }, sessions := [(5, { se with tan := { se.tan with role := 2 } })] } : State)) ∧
    (({ up with tandem := { up.tandem with state := 3 }, sessions := [(5, { se with tan := { se.tan with role := 2 } })] } : State).tandem.state = 3) := by
  refine ⟨?_, ?_⟩ <;> first | decide | rfl | (apply ok_of; decide +kernel)

/-! Hypotheses of PrimariesTellAndTakeOver are met. -/

theorem test_met_tandemAck :
    (Runs ({ up with tandem := { up.tandem with state := 3 }, sessions := [(5, { se with tan := { se.tan with role := 1, acks := [(9, 1, 0)] } })] } : State)) ∧
    (({ up with tandem := { up.tandem with state := 3 }, sessions := [(5, { se with tan := { se.tan with role := 1, acks := [(9, 1, 0)] } })] } : State).tandem.dead = false) ∧
    (({ up with tandem := { up.tandem with state := 3 }, sessions := [(5, { se with tan := { se.tan with role := 1, acks := [(9, 1, 0)] } })] } : State).tandem.state = 3) ∧
    (({ seq := 7, wellForm := true, authOk := true, seqOk := true } : LinkMeta).wellForm = true) ∧
    (({ seq := 7, wellForm := true, authOk := true, seqOk := true } : LinkMeta).authOk = true) ∧
    (({ seq := 7, wellForm := true, authOk := true, seqOk := true } : LinkMeta).seqOk = true) ∧
    (look ({ up with tandem := { up.tandem with state := 3 }, sessions := [(5, { se with tan := { se.tan with role := 1, acks := [(9, 1, 0)] } })] } : State).sessions (5 : Nat) = some ({ se with tan := { se.tan with role := 1, acks := [(9, 1, 0)] } } : Session)) ∧
    (({ se with tan := { se.tan with role := 1, acks := [(9, 1, 0)] } } : Session).tan.role = 1) ∧
    (ackedBand ({ se with tan := { se.tan with role := 1, acks := [(9, 1, 0)] } } : Session).tan (9 : Nat) = some ((9 : Nat), (1 : Nat), (0 : BitVec 40))) ∧
    (({ se with tan := { se.tan with role := 1, acks := [(9, 1, 0)] } } : Session).tan.held = []) ∧
    ((1 : Nat) ≠ bandsOf ({ se with tan := { se.tan with role := 1, acks := [(9, 1, 0)] } } : Session).stream.height) := by
  refine ⟨?_, ?_, ?_, ?_, ?_, ?_, ?_, ?_, ?_, ?_, ?_⟩ <;> first | decide | rfl | (apply ok_of; decide +kernel)

theorem test_met_tandemAck_2 :
    (Runs ({ up with tandem := { up.tandem with state := 3 }, sessions := [(5, { se with userTag := 0 })] } : State)) ∧
    (({ up with tandem := { up.tandem with state := 3 }, sessions := [(5, { se with userTag := 0 })] } : State).tandem.dead = false) ∧
    (({ up with tandem := { up.tandem with state := 3 }, sessions := [(5, { se with userTag := 0 })] } : State).tandem.state = 3) ∧
    (({ seq := 7, wellForm := true, authOk := true, seqOk := true } : LinkMeta).wellForm = true) ∧
    (({ seq := 7, wellForm := true, authOk := true, seqOk := true } : LinkMeta).authOk = true) ∧
    (({ seq := 7, wellForm := true, authOk := true, seqOk := true } : LinkMeta).seqOk = true) ∧
    (look ({ up with tandem := { up.tandem with state := 3 }, sessions := [(5, { se with userTag := 0 })] } : State).sessions (5 : Nat) = some (se : Session)) ∧
    ((se : Session).tan.role ≠ 1) := by
  refine ⟨?_, ?_, ?_, ?_, ?_, ?_, ?_, ?_⟩ <;> first | decide | rfl | (apply ok_of; decide +kernel)

theorem test_met_tandemAck_3 :
    (Runs ({ up with tandem := { up.tandem with state := 3 }, sessions := [(5, { se with userTag := 0 })] } : State)) ∧
    (({ up with tandem := { up.tandem with state := 3 }, sessions := [(5, { se with userTag := 0 })] } : State).tandem.dead = false) ∧
    (({ up with tandem := { up.tandem with state := 3 }, sessions := [(5, { se with userTag := 0 })] } : State).tandem.state = 3) ∧
    (({ seq := 7, wellForm := true, authOk := true, seqOk := true } : LinkMeta).wellForm = true) ∧
    (({ seq := 7, wellForm := true, authOk := true, seqOk := true } : LinkMeta).authOk = true) ∧
    (({ seq := 7, wellForm := true, authOk := true, seqOk := true } : LinkMeta).seqOk = true) ∧
    (look ({ up with tandem := { up.tandem with state := 3 }, sessions := [(5, { se with userTag := 0 })] } : State).sessions (6 : Nat) = none) := by
  refine ⟨?_, ?_, ?_, ?_, ?_, ?_, ?_⟩ <;> first | decide | rfl | (apply ok_of; decide +kernel)

theorem test_met_ackTimeout :
    (Runs ({ { up with tandem := { up.tandem with state := 3 }, sessions := [(5, { se with tan := { se.tan with role := 1, live := true, acks := [(9, 1, 0)] } })] } with bell := { up.bell with num := 2 } } : State)) ∧
    (look ({ { up with tandem := { up.tandem with state := 3 }, sessions := [(5, { se with tan := { se.tan with role := 1, live := true, acks := [(9, 1, 0)] } })] } with bell := { up.bell with num := 2 } } : State).sessions (5 : Nat) = some ({ se with tan := { se.tan with role := 1, live := true, acks := [(9, 1, 0)] } } : Session)) ∧
    (({ se with tan := { se.tan with role := 1, live := true, acks := [(9, 1, 0)] } } : Session).tan.role = 1) ∧
    (({ se with tan := { se.tan with role := 1, live := true, acks := [(9, 1, 0)] } } : Session).tan.live = true) ∧
    (({ se with tan := { se.tan with role := 1, live := true, acks := [(9, 1, 0)] } } : Session).tan.acks.any (fun a => decide (2 ≤ bellsFrom a.2.2 ({ { up with tandem := { up.tandem with state := 3 }, sessions := [(5, { se with tan := { se.tan with role := 1, live := true, acks := [(9, 1, 0)] } })] } with bell := { up.bell with num := 2 } } : State).bell.num)) = true) ∧
    (({ { up with tandem := { up.tandem with state := 3 }, sessions := [(5, { se with tan := { se.tan with role := 1, live := true, acks := [(9, 1, 0)] } })] } with bell := { up.bell with num := 2 } } : State).tandem.waiting.all (fun w => decide (w.handle ≠ (5 : Nat))) = true) := by
  refine ⟨?_, ?_, ?_, ?_, ?_, ?_⟩ <;> first | decide | rfl | (apply ok_of; decide +kernel)

theorem test_met_ackTimeout_2 :
    (Runs ({ up with tandem := { up.tandem with state := 3 }, sessions := [(5, { se with userTag := 0 })] } : State)) ∧
    (look ({ up with tandem := { up.tandem with state := 3 }, sessions := [(5, { se with userTag := 0 })] } : State).sessions (5 : Nat) = some (se : Session)) ∧
    ((se : Session).tan.acks.any (fun a => decide (2 ≤ bellsFrom a.2.2 ({ up with tandem := { up.tandem with state := 3 }, sessions := [(5, { se with userTag := 0 })] } : State).bell.num)) = false) := by
  refine ⟨?_, ?_, ?_⟩ <;> first | decide | rfl | (apply ok_of; decide +kernel)

theorem test_met_tandemConfig :
    (Runs ({ up with tandem := { up.tandem with state := 3 }, sessions := [(5, { se with tan := { se.tan with role := 2 } })] } : State)) ∧
    (({ up with tandem := { up.tandem with state := 3 }, sessions := [(5, { se with tan := { se.tan with role := 2 } })] } : State).tandem.dead = false) ∧
    (({ up with tandem := { up.tandem with state := 3 }, sessions := [(5, { se with tan := { se.tan with role := 2 } })] } : State).tandem.state = 3) ∧
    (({ seq := 7, wellForm := true, authOk := true, seqOk := true } : LinkMeta).wellForm = true) ∧
    (({ seq := 7, wellForm := true, authOk := true, seqOk := true } : LinkMeta).authOk = true) ∧
    (({ seq := 7, wellForm := true, authOk := true, seqOk := true } : LinkMeta).seqOk = true) ∧
    (look ({ up with tandem := { up.tandem with state := 3 }, sessions := [(5, { se with tan := { se.tan with role := 2 } })] } : State).sessions (5 : Nat) = some ({ se with tan := { se.tan with role := 2 } } : Session)) ∧
    (({ se with tan := { se.tan with role := 2 } } : Session).tan.role = 2) ∧
    (linkUp ({ up with tandem := { up.tandem with state := 3 }, sessions := [(5, { se with tan := { se.tan with role := 2 } })] } : State) = true) := by
  refine ⟨?_, ?_, ?_, ?_, ?_, ?_, ?_, ?_, ?_⟩ <;> first | decide | rfl | (apply ok_of; decide +kernel)

theorem test_met_tandemConfig_2 :
    (Runs ({ up with tandem := { up.tandem with state := 3 }, sessions := [(5, { se with tan := { se.tan with role := 2 } })] } : State)) ∧
    (({ up with tandem := { up.tandem with state := 3 }, sessions := [(5, { se with tan := { se.tan with role := 2 } })] } : State).tandem.dead = false) ∧
    (({ up with tandem := { up.tandem with state := 3 }, sessions := [(5, { se with tan := { se.tan with role := 2 } })] } : State).tandem.state = 3) ∧
    (({ seq := 7, wellForm := true, authOk := true, seqOk := true } : LinkMeta).wellForm = true) ∧
    (({ seq := 7, wellForm := true, authOk := true, seqOk := true } : LinkMeta).authOk = true) ∧
    (({ seq := 7, wellForm := true, authOk := true, seqOk := true } : LinkMeta).seqOk = true) ∧
    (look ({ up with tandem := { up.tandem with state := 3 }, sessions := [(5, { se with tan := { se.tan with role := 2 } })] } : State).sessions (5 : Nat) = some ({ se with tan := { se.tan with role := 2 } } : Session)) ∧
    (({ se with tan := { se.tan with role := 2 } } : Session).tan.role = 2) ∧
    (linkUp ({ up with tandem := { up.tandem with state := 3 }, sessions := [(5, { se with tan := { se.tan with role := 2 } })] } : State) = true) := by
  refine ⟨?_, ?_, ?_, ?_, ?_, ?_, ?_, ?_, ?_⟩ <;> first | decide | rfl | (apply ok_of; decide +kernel)

theorem test_met_tandemConfig_3 :
    (Runs ({ up with tandem := { up.tandem with state := 3 }, sessions := [(5, { se with userTag := 0 })] } : State)) ∧
    (({ up with tandem := { up.tandem with state := 3 }, sessions := [(5, { se with userTag := 0 })] } : State).tandem.dead = false) ∧
    (({ up with tandem := { up.tandem with state := 3 }, sessions := [(5, { se with userTag := 0 })] } : State).tandem.state = 3) ∧
    (({ seq := 7, wellForm := true, authOk := true, seqOk := true } : LinkMeta).wellForm = true) ∧
    (({ seq := 7, wellForm := true, authOk := true, seqOk := true } : LinkMeta).authOk = true) ∧
    (({ seq := 7, wellForm := true, authOk := true, seqOk := true } : LinkMeta).seqOk = true) ∧
    (look ({ up with tandem := { up.tandem with state := 3 }, sessions := [(5, { se with userTag := 0 })] } : State).sessions (6 : Nat) = none) ∧
    (linkUp ({ up with tandem := { up.tandem with state := 3 }, sessions := [(5, { se with userTag := 0 })] } : State) = true) ∧
    (fnOn ({ up with tandem := { up.tandem with state := 3 }, sessions := [(5, { se with userTag := 0 })] } : State) (0 : Nat) = true) := by
  refine ⟨?_, ?_, ?_, ?_, ?_, ?_, ?_, ?_, ?_⟩ <;> first | decide | rfl | (apply ok_of; decide +kernel)

theorem test_met_tandemConfig_4 :
    (Runs ({ up with tandem := { up.tandem with state := 3 }, sessions := [(5, { se with userTag := 0 })] } : State)) ∧
    (({ up with tandem := { up.tandem with state := 3 }, sessions := [(5, { se with userTag := 0 })] } : State).tandem.dead = false) ∧
    (({ up with tandem := { up.tandem with state := 3 }, sessions := [(5, { se with userTag := 0 })] } : State).tandem.state = 3) ∧
    (({ seq := 7, wellForm := true, authOk := true, seqOk := true } : LinkMeta).wellForm = true) ∧
    (({ seq := 7, wellForm := true, authOk := true, seqOk := true } : LinkMeta).authOk = true) ∧
    (({ seq := 7, wellForm := true, authOk := true, seqOk := true } : LinkMeta).seqOk = true) ∧
    (look ({ up with tandem := { up.tandem with state := 3 }, sessions := [(5, { se with userTag := 0 })] } : State).sessions (6 : Nat) = none) ∧
    (linkUp ({ up with tandem := { up.tandem with state := 3 }, sessions := [(5, { se with userTag := 0 })] } : State) = true) ∧
    (fnOn ({ up with tandem := { up.tandem with state := 3 }, sessions := [(5, { se with userTag := 0 })] } : State) (9 : Nat) = false) := by
  refine ⟨?_, ?_, ?_, ?_, ?_, ?_, ?_, ?_, ?_⟩ <;> first | decide | rfl | (apply ok_of; decide +kernel)

theorem test_met_tandemConfig_5 :
    (Runs ({ up with tandem := { up.tandem with state := 3 }, sessions := [(5, { se with tan := { se.tan with role := 1 } })] } : State)) ∧
    (({ up with tandem := { up.tandem with state := 3 }, sessions := [(5, { se with tan := { se.tan with role := 1 } })] } : State).tandem.dead = false) ∧
    (({ up with tandem := { up.tandem with state := 3 }, sessions := [(5, { se with tan := { se.tan with role := 1 } })] } : State).tandem.state = 3) ∧
    (({ seq := 7, wellForm := true, authOk := true, seqOk := true } : LinkMeta).wellForm = true) ∧
    (({ seq := 7, wellForm := true, authOk := true, seqOk := true } : LinkMeta).authOk = true) ∧
    (({ seq := 7, wellForm := true, authOk := true, seqOk := true } : LinkMeta).seqOk = true) ∧
    (look ({ up with tandem := { up.tandem with state := 3 }, sessions := [(5, { se with tan := { se.tan with role := 1 } })] } : State).sessions (5 : Nat) = some ({ se with tan := { se.tan with role := 1 } } : Session)) ∧
    (({ se with tan := { se.tan with role := 1 } } : Session).tan.role = 1) := by
  refine ⟨?_, ?_, ?_, ?_, ?_, ?_, ?_, ?_⟩ <;> first | decide | rfl | (apply ok_of; decide +kernel)

theorem test_met_tandemConfigReply :
    (Runs ({ up with tandem := { up.tandem with state := 3, waiting := [{ handle := 5, cmd := .configureRate { fn := 0, ring := 0, cid := 0, token := 0 } rops, index := 0 }] }, sessions := [(5, { se with userTag := 0 })] } : State)) ∧
    (({ up with tandem := { up.tandem with state := 3, waiting := [{ handle := 5, cmd := .configureRate { fn := 0, ring := 0, cid := 0, token := 0 } rops, index := 0 }] }, sessions := [(5, { se with userTag := 0 })] } : State).tandem.dead = false) ∧
    (({ up with tandem := { up.tandem with state := 3, waiting := [{ handle := 5, cmd := .configureRate { fn := 0, ring := 0, cid := 0, token := 0 } rops, index := 0 }] }, sessions := [(5, { se with userTag := 0 })] } : State).tandem.state = 3) ∧
    (({ seq := 7, wellForm := true, authOk := true, seqOk := true } : LinkMeta).wellForm = true) ∧
    (({ seq := 7, wellForm := true, authOk := true, seqOk := true } : LinkMeta).authOk = true) ∧
    (({ seq := 7, wellForm := true, authOk := true, seqOk := true } : LinkMeta).seqOk = true) ∧
    (({ up with tandem := { up.tandem with state := 3, waiting := [{ handle := 5, cmd := .configureRate { fn := 0, ring := 0, cid := 0, token := 0 } rops, index := 0 }] }, sessions := [(5, { se with userTag := 0 })] } : State).tandem.waiting.find? (fun w => decide (w.handle = (5 : Nat))) = some ({ handle := 5, cmd := .configureRate { fn := 0, ring := 0, cid := 0, token := 0 } rops, index := 0 } : FwdWait)) ∧
    (({ handle := 5, cmd := .configureRate { fn := 0, ring := 0, cid := 0, token := 0 } rops, index := 0 } : FwdWait).cmd = .configureRate ({ fn := 0, ring := 0, cid := 0, token := 0 } : Hdr) (rops : RateOps)) := by
  refine ⟨?_, ?_, ?_, ?_, ?_, ?_, ?_, ?_⟩ <;> first | decide | rfl | (apply ok_of; decide +kernel)

theorem test_met_tandemConfigReply_2 :
    (Runs ({ up with tandem := { up.tandem with state := 3, waiting := [{ handle := 5, cmd := .park { fn := 0, ring := 0, cid := 0, token := 0 } 0, index := 0 }] }, sessions := [(5, { se with userTag := 0 })] } : State)) ∧
    (({ up with tandem := { up.tandem with state := 3, waiting := [{ handle := 5, cmd := .park { fn := 0, ring := 0, cid := 0, token := 0 } 0, index := 0 }] }, sessions := [(5, { se with userTag := 0 })] } : State).tandem.dead = false) ∧
    (({ up with tandem := { up.tandem with state := 3, waiting := [{ handle := 5, cmd := .park { fn := 0, ring := 0, cid := 0, token := 0 } 0, index := 0 }] }, sessions := [(5, { se with userTag := 0 })] } : State).tandem.state = 3) ∧
    (({ seq := 7, wellForm := true, authOk := true, seqOk := true } : LinkMeta).wellForm = true) ∧
    (({ seq := 7, wellForm := true, authOk := true, seqOk := true } : LinkMeta).authOk = true) ∧
    (({ seq := 7, wellForm := true, authOk := true, seqOk := true } : LinkMeta).seqOk = true) ∧
    (({ up with tandem := { up.tandem with state := 3, waiting := [{ handle := 5, cmd := .park { fn := 0, ring := 0, cid := 0, token := 0 } 0, index := 0 }] }, sessions := [(5, { se with userTag := 0 })] } : State).tandem.waiting.find? (fun w => decide (w.handle = (5 : Nat))) = some ({ handle := 5, cmd := .park { fn := 0, ring := 0, cid := 0, token := 0 } 0, index := 0 } : FwdWait)) ∧
    (({ handle := 5, cmd := .park { fn := 0, ring := 0, cid := 0, token := 0 } 0, index := 0 } : FwdWait).cmd = .park ({ fn := 0, ring := 0, cid := 0, token := 0 } : Hdr) (0 : Nat)) ∧
    (look ({ up with tandem := { up.tandem with state := 3, waiting := [{ handle := 5, cmd := .park { fn := 0, ring := 0, cid := 0, token := 0 } 0, index := 0 }] }, sessions := [(5, { se with userTag := 0 })] } : State).sessions (5 : Nat) = some ({ se with userTag := 0 } : Session)) := by
  refine ⟨?_, ?_, ?_, ?_, ?_, ?_, ?_, ?_, ?_⟩ <;> first | decide | rfl | (apply ok_of; decide +kernel)

theorem test_met_tandemConfigReply_3 :
    (Runs ({ up with tandem := { up.tandem with state := 3, waiting := [{ handle := 5, cmd := .configureRate { fn := 0, ring := 0, cid := 0, token := 0 } rops, index := 0 }] }, sessions := [(5, { se with userTag := 0 })] } : State)) ∧
    (({ up with tandem := { up.tandem with state := 3, waiting := [{ handle := 5, cmd := .configureRate { fn := 0, ring := 0, cid := 0, token := 0 } rops, index := 0 }] }, sessions := [(5, { se with userTag := 0 })] } : State).tandem.dead = false) ∧
    (({ up with tandem := { up.tandem with state := 3, waiting := [{ handle := 5, cmd := .configureRate { fn := 0, ring := 0, cid := 0, token := 0 } rops, index := 0 }] }, sessions := [(5, { se with userTag := 0 })] } : State).tandem.state = 3) ∧
    (({ seq := 7, wellForm := true, authOk := true, seqOk := true } : LinkMeta).wellForm = true) ∧
    (({ seq := 7, wellForm := true, authOk := true, seqOk := true } : LinkMeta).authOk = true) ∧
    (({ seq := 7, wellForm := true, authOk := true, seqOk := true } : LinkMeta).seqOk = true) ∧
    (({ up with tandem := { up.tandem with state := 3, waiting := [{ handle := 5, cmd := .configureRate { fn := 0, ring := 0, cid := 0, token := 0 } rops, index := 0 }] }, sessions := [(5, { se with userTag := 0 })] } : State).tandem.waiting.find? (fun w => decide (w.handle = (5 : Nat))) = some ({ handle := 5, cmd := .configureRate { fn := 0, ring := 0, cid := 0, token := 0 } rops, index := 0 } : FwdWait)) ∧
    (({ handle := 5, cmd := .configureRate { fn := 0, ring := 0, cid := 0, token := 0 } rops, index := 0 } : FwdWait).cmd = .configureRate ({ fn := 0, ring := 0, cid := 0, token := 0 } : Hdr) (rops : RateOps)) ∧
    ((0x0806 : Code) ≠ 0) := by
  refine ⟨?_, ?_, ?_, ?_, ?_, ?_, ?_, ?_, ?_⟩ <;> first | decide | rfl | (apply ok_of; decide +kernel)

theorem test_met_takeover :
    (Runs ({ up with tandem := { up.tandem with state := 3, takeGo := true, takeover := some 0 }, bell := { up.bell with window := .dispatch, cut := false } } : State)) ∧
    (({ up with tandem := { up.tandem with state := 3, takeGo := true, takeover := some 0 }, bell := { up.bell with window := .dispatch, cut := false } } : State).tandem.takeGo = true) ∧
    (atStart ({ up with tandem := { up.tandem with state := 3, takeGo := true, takeover := some 0 }, bell := { up.bell with window := .dispatch, cut := false } } : State) = true) ∧
    (({ up with tandem := { up.tandem with state := 3, takeGo := true, takeover := some 0 }, bell := { up.bell with window := .dispatch, cut := false } } : State).tandem.takeover = some (0 : Nat)) ∧
    (({ up with tandem := { up.tandem with state := 3, takeGo := true, takeover := some 0 }, bell := { up.bell with window := .dispatch, cut := false } } : State).sessions = []) ∧
    (({ up with tandem := { up.tandem with state := 3, takeGo := true, takeover := some 0 }, bell := { up.bell with window := .dispatch, cut := false } } : State).tandem.state = 3) := by
  refine ⟨?_, ?_, ?_, ?_, ?_, ?_⟩ <;> first | decide | rfl | (apply ok_of; decide +kernel)

theorem test_met_takeover_2 :
    (Runs ({ up with tandem := { up.tandem with state := 3, takeGo := true, takeover := some 2 }, sessions := [(5, { se with tan := { se.tan with role := 2 } })], bell := { up.bell with window := .dispatch, cut := false } } : State)) ∧
    (({ up with tandem := { up.tandem with state := 3, takeGo := true, takeover := some 2 }, sessions := [(5, { se with tan := { se.tan with role := 2 } })], bell := { up.bell with window := .dispatch, cut := false } } : State).tandem.takeGo = true) ∧
    (atStart ({ up with tandem := { up.tandem with state := 3, takeGo := true, takeover := some 2 }, sessions := [(5, { se with tan := { se.tan with role := 2 } })], bell := { up.bell with window := .dispatch, cut := false } } : State) = true) ∧
    (({ up with tandem := { up.tandem with state := 3, takeGo := true, takeover := some 2 }, sessions := [(5, { se with tan := { se.tan with role := 2 } })], bell := { up.bell with window := .dispatch, cut := false } } : State).tandem.takeover = some (2 : Nat)) ∧
    (({ up with tandem := { up.tandem with state := 3, takeGo := true, takeover := some 2 }, sessions := [(5, { se with tan := { se.tan with role := 2 } })], bell := { up.bell with window := .dispatch, cut := false } } : State).sessions = [((5 : Nat), ({ se with tan := { se.tan with role := 2 } } : Session))]) ∧
    (({ se with tan := { se.tan with role := 2 } } : Session).tan.role = 2) ∧
    (({ up with tandem := { up.tandem with state := 3, takeGo := true, takeover := some 2 }, sessions := [(5, { se with tan := { se.tan with role := 2 } })], bell := { up.bell with window := .dispatch, cut := false } } : State).tandem.state = 3) := by
  refine ⟨?_, ?_, ?_, ?_, ?_, ?_, ?_⟩ <;> first | decide | rfl | (apply ok_of; decide +kernel)

theorem test_met_shadowSync :
    (Runs ({ up with tandem := { up.tandem with state := 3 }, sessions := [(5, { se with frames := [fr], tan := { se.tan with role := 1 } })] } : State)) ∧
    (look ({ up with tandem := { up.tandem with state := 3 }, sessions := [(5, { se with frames := [fr], tan := { se.tan with role := 1 } })] } : State).sessions (5 : Nat) = some ({ se with frames := [fr], tan := { se.tan with role := 1 } } : Session)) ∧
    (({ se with frames := [fr], tan := { se.tan with role := 1 } } : Session).frames.getLast? = some (fr : Frame)) ∧
    (({ se with frames := [fr], tan := { se.tan with role := 1 } } : Session).tan.role = 1) ∧
    (linkUp ({ up with tandem := { up.tandem with state := 3 }, sessions := [(5, { se with frames := [fr], tan := { se.tan with role := 1 } })] } : State) = true) ∧
    (({ se with frames := [fr], tan := { se.tan with role := 1 } } : Session).tan.live = false) ∧
    (({ se with frames := [fr], tan := { se.tan with role := 1 } } : Session).tan.sync = none) ∧ ((fr : Frame).next = 1) := by
  refine ⟨?_, ?_, ?_, ?_, ?_, ?_, ?_, ?_⟩ <;> first | decide | rfl | (apply ok_of; decide +kernel)

theorem test_met_handover :
    (Runs ({ up with tandem := { up.tandem with state := 3 }, sessions := [(5, { se with state := 4, tan := { se.tan with role := 2, landed := true } })], bell := { up.bell with window := .dispatch, cut := false } } : State)) ∧
    (look ({ up with tandem := { up.tandem with state := 3 }, sessions := [(5, { se with state := 4, tan := { se.tan with role := 2, landed := true } })], bell := { up.bell with window := .dispatch, cut := false } } : State).sessions (5 : Nat) = some ({ se with state := 4, tan := { se.tan with role := 2, landed := true } } : Session)) ∧
    (atStart ({ up with tandem := { up.tandem with state := 3 }, sessions := [(5, { se with state := 4, tan := { se.tan with role := 2, landed := true } })], bell := { up.bell with window := .dispatch, cut := false } } : State) = true) ∧
    (linkUp ({ up with tandem := { up.tandem with state := 3 }, sessions := [(5, { se with state := 4, tan := { se.tan with role := 2, landed := true } })], bell := { up.bell with window := .dispatch, cut := false } } : State) = true) ∧
    (({ se with state := 4, tan := { se.tan with role := 2, landed := true } } : Session).state = 4) ∧
    (({ se with state := 4, tan := { se.tan with role := 2, landed := true } } : Session).pend = none) ∧
    (({ se with state := 4, tan := { se.tan with role := 2, landed := true } } : Session).tan.role = 2) ∧
    (({ se with state := 4, tan := { se.tan with role := 2, landed := true } } : Session).tan.landed = true) := by
  refine ⟨?_, ?_, ?_, ?_, ?_, ?_, ?_, ?_⟩ <;> first | decide | rfl | (apply ok_of; decide +kernel)

theorem test_met_handover_2 :
    (Runs ({ up with tandem := { up.tandem with state := 3, ctrl := 3 }, sessions := [(5, { se with state := 4, tan := { se.tan with role := 1, live := true } })], bell := { up.bell with window := .dispatch, cut := false } } : State)) ∧
    (look ({ up with tandem := { up.tandem with state := 3, ctrl := 3 }, sessions := [(5, { se with state := 4, tan := { se.tan with role := 1, live := true } })], bell := { up.bell with window := .dispatch, cut := false } } : State).sessions (5 : Nat) = some ({ se with state := 4, tan := { se.tan with role := 1, live := true } } : Session)) ∧
    (atStart ({ up with tandem := { up.tandem with state := 3, ctrl := 3 }, sessions := [(5, { se with state := 4, tan := { se.tan with role := 1, live := true } })], bell := { up.bell with window := .dispatch, cut := false } } : State) = true) ∧
    (linkUp ({ up with tandem := { up.tandem with state := 3, ctrl := 3 }, sessions := [(5, { se with state := 4, tan := { se.tan with role := 1, live := true } })], bell := { up.bell with window := .dispatch, cut := false } } : State) = true) ∧
    (({ se with state := 4, tan := { se.tan with role := 1, live := true } } : Session).state = 4) ∧
    (({ se with state := 4, tan := { se.tan with role := 1, live := true } } : Session).pend = none) ∧
    (({ se with state := 4, tan := { se.tan with role := 1, live := true } } : Session).tan.role = 1) ∧
    (bit ({ up with tandem := { up.tandem with state := 3, ctrl := 3 }, sessions := [(5, { se with state := 4, tan := { se.tan with role := 1, live := true } })], bell := { up.bell with window := .dispatch, cut := false } } : State).tandem.ctrl 1 = true) ∧
    (({ se with state := 4, tan := { se.tan with role := 1, live := true } } : Session).tan.live = true) := by
  refine ⟨?_, ?_, ?_, ?_, ?_, ?_, ?_, ?_, ?_⟩ <;> first | decide | rfl | (apply ok_of; decide +kernel)

/-! Hypotheses of InterruptMessages are met. -/

theorem test_met_irqMessage :
    (Runs ({ up with irq := { up.irq with route := [(3, { en := true, prio := 2, target := 2 })], pend := [3], msix := [(2, { addrLo := 0, addrHi := 0, data := 0, mask := false })] } } : State)) ∧
    (has ({ up with irq := { up.irq with route := [(3, { en := true, prio := 2, target := 2 })], pend := [3], msix := [(2, { addrLo := 0, addrHi := 0, data := 0, mask := false })] } } : State).irq.disarmed (2 : Nat) = false) ∧
    (bestSource ({ up with irq := { up.irq with route := [(3, { en := true, prio := 2, target := 2 })], pend := [3], msix := [(2, { addrLo := 0, addrHi := 0, data := 0, mask := false })] } } : State) (2 : Nat) = some (3 : Nat)) ∧
    (({ up with irq := { up.irq with route := [(3, { en := true, prio := 2, target := 2 })], pend := [3], msix := [(2, { addrLo := 0, addrHi := 0, data := 0, mask := false })] } } : State).pwr.exiting = false) ∧
    ((2 : Nat) < 0x800 ∨ 0x803 < (2 : Nat)) ∧
    ((msixOf ({ up with irq := { up.irq with route := [(3, { en := true, prio := 2, target := 2 })], pend := [3], msix := [(2, { addrLo := 0, addrHi := 0, data := 0, mask := false })] } } : State) (2 : Nat)).mask = false) := by
  refine ⟨?_, ?_, ?_, ?_, ?_, ?_⟩ <;> first | decide | rfl | (apply ok_of; decide +kernel)

theorem test_met_irqMessage_2 :
    (Runs ({ up with irq := { up.irq with route := [(3, { en := true, prio := 2, target := 2 })], pend := [3] } } : State)) ∧
    (has ({ up with irq := { up.irq with route := [(3, { en := true, prio := 2, target := 2 })], pend := [3] } } : State).irq.disarmed (2 : Nat) = false) ∧
    (bestSource ({ up with irq := { up.irq with route := [(3, { en := true, prio := 2, target := 2 })], pend := [3] } } : State) (2 : Nat) = some (3 : Nat)) ∧
    (({ up with irq := { up.irq with route := [(3, { en := true, prio := 2, target := 2 })], pend := [3] } } : State).pwr.exiting = false) ∧
    ((2 : Nat) < 0x800 ∨ 0x803 < (2 : Nat)) ∧
    ((msixOf ({ up with irq := { up.irq with route := [(3, { en := true, prio := 2, target := 2 })], pend := [3] } } : State) (2 : Nat)).mask = true) := by
  refine ⟨?_, ?_, ?_, ?_, ?_, ?_⟩ <;> first | decide | rfl | (apply ok_of; decide +kernel)

theorem test_met_irqMessage_3 :
    (Runs ({ up with irq := { up.irq with route := [(3, { en := true, prio := 2, target := 0x803 })], pend := [3] } } : State)) ∧
    (has ({ up with irq := { up.irq with route := [(3, { en := true, prio := 2, target := 0x803 })], pend := [3] } } : State).irq.disarmed (0x803 : Nat) = false) ∧
    (bestSource ({ up with irq := { up.irq with route := [(3, { en := true, prio := 2, target := 0x803 })], pend := [3] } } : State) (0x803 : Nat) = some (3 : Nat)) ∧
    (({ up with irq := { up.irq with route := [(3, { en := true, prio := 2, target := 0x803 })], pend := [3] } } : State).pwr.exiting = false) ∧
    (0x800 ≤ (0x803 : Nat)) ∧ ((0x803 : Nat) ≤ 0x803) := by
  refine ⟨?_, ?_, ?_, ?_, ?_, ?_⟩ <;> first | decide | rfl | (apply ok_of; decide +kernel)

theorem test_met_irqMessage_4 :
    (Runs (up : State)) ∧ (has (up : State).irq.disarmed (2 : Nat) = true ∨ bestSource (up : State) (2 : Nat) = none ∨ (up : State).pwr.exiting = true) := by
  refine ⟨?_, ?_⟩ <;> first | decide | rfl | (apply ok_of; decide +kernel)

theorem test_met_irqClaim :
    (Serves ({ up with irq := { up.irq with route := [(3, { en := true, prio := 2, target := 2 })], pend := [3] } } : State)) ∧ ((2 : Nat) ≤ 0x803) ∧
    (bestSource ({ up with irq := { up.irq with route := [(3, { en := true, prio := 2, target := 2 })], pend := [3] } } : State) (2 : Nat) = some (3 : Nat)) := by
  refine ⟨?_, ?_, ?_⟩ <;> first | decide | rfl | (apply ok_of; decide +kernel)

theorem test_met_irqClaim_2 :
    (Serves ({ up with irq := { up.irq with withdrawn := [2] } } : State)) ∧ ((2 : Nat) ≤ 0x803) ∧
    (bestSource ({ up with irq := { up.irq with withdrawn := [2] } } : State) (2 : Nat) = none) ∧
    (has ({ up with irq := { up.irq with withdrawn := [2] } } : State).irq.withdrawn (2 : Nat) = true) := by
  refine ⟨?_, ?_, ?_, ?_⟩ <;> first | decide | rfl | (apply ok_of; decide +kernel)

theorem test_met_irqClaim_3 :
    (Serves (up : State)) ∧ ((2 : Nat) ≤ 0x803) ∧ (bestSource (up : State) (2 : Nat) = none) ∧ (has (up : State).irq.withdrawn (2 : Nat) = false) := by
  refine ⟨?_, ?_, ?_, ?_⟩ <;> first | decide | rfl | (apply ok_of; decide +kernel)

theorem test_met_fnIrqClaim :
    (Serves ({ up with vfCount := 2, irq := { up.irq with route := [(0x112, { en := true, prio := 2, target := 4169 })], pend := [0x112] } } : State)) ∧
    (1 ≤ (1 : Nat)) ∧
    (fnOn ({ up with vfCount := 2, irq := { up.irq with route := [(0x112, { en := true, prio := 2, target := 4169 })], pend := [0x112] } } : State) (1 : Nat) = true) ∧
    ((9 : Nat) < 64) ∧
    (bestSource ({ up with vfCount := 2, irq := { up.irq with route := [(0x112, { en := true, prio := 2, target := 4169 })], pend := [0x112] } } : State) (vectorTarget (1 : Nat) (9 : Nat)) = some (0x112 : Nat)) := by
  refine ⟨?_, ?_, ?_, ?_, ?_⟩ <;> first | decide | rfl | (apply ok_of; decide +kernel)

theorem test_met_fnIrqClaim_2 :
    (Serves ({ up with vfCount := 2, irq := { up.irq with withdrawn := [4169] } } : State)) ∧ (1 ≤ (1 : Nat)) ∧
    (fnOn ({ up with vfCount := 2, irq := { up.irq with withdrawn := [4169] } } : State) (1 : Nat) = true) ∧ ((9 : Nat) < 64) ∧
    (bestSource ({ up with vfCount := 2, irq := { up.irq with withdrawn := [4169] } } : State) (vectorTarget (1 : Nat) (9 : Nat)) = none) ∧
    (has ({ up with vfCount := 2, irq := { up.irq with withdrawn := [4169] } } : State).irq.withdrawn (vectorTarget (1 : Nat) (9 : Nat)) = true) := by
  refine ⟨?_, ?_, ?_, ?_, ?_, ?_⟩ <;> first | decide | rfl | (apply ok_of; decide +kernel)

theorem test_met_fnIrqClaim_3 :
    (Serves ({ up with vfCount := 2 } : State)) ∧ (1 ≤ (1 : Nat)) ∧ (fnOn ({ up with vfCount := 2 } : State) (1 : Nat) = true) ∧ ((9 : Nat) < 64) ∧
    (bestSource ({ up with vfCount := 2 } : State) (vectorTarget (1 : Nat) (9 : Nat)) = none) ∧
    (has ({ up with vfCount := 2 } : State).irq.withdrawn (vectorTarget (1 : Nat) (9 : Nat)) = false) := by
  refine ⟨?_, ?_, ?_, ?_, ?_, ?_⟩ <;> first | decide | rfl | (apply ok_of; decide +kernel)

theorem test_met_msixMaskWrite :
    (Serves (up : State)) ∧ (fnOn (up : State) (0 : Nat) = true) ∧ ((2047 : Nat) < (if (0 : Nat) = 0 then 2048 else 64)) := by
  refine ⟨?_, ?_, ?_⟩ <;> first | decide | rfl | (apply ok_of; decide +kernel)

theorem test_met_msixMaskWrite_2 :
    (Serves (up : State)) ∧ (fnOn (up : State) (0 : Nat) = true) ∧ ((2047 : Nat) < (if (0 : Nat) = 0 then 2048 else 64)) ∧
    (has (up : State).irq.pba (vectorTarget (0 : Nat) (2047 : Nat)) = false) := by
  refine ⟨?_, ?_, ?_, ?_⟩ <;> first | decide | rfl | (apply ok_of; decide +kernel)

theorem test_met_msixMaskWrite_3 :
    (Serves ({ up with irq := { up.irq with pba := [2047] } } : State)) ∧ ((2047 : Nat) < 2048) ∧
    (has ({ up with irq := { up.irq with pba := [2047] } } : State).irq.pba (2047 : Nat) = true) := by
  refine ⟨?_, ?_, ?_⟩ <;> first | decide | rfl | (apply ok_of; decide +kernel)

/-! Hypotheses of InterruptsComplete are met. -/

theorem test_met_irqComplete :
    (Serves ({ up with irq := { up.irq with insvc := [(3, 2)] } } : State)) ∧ ((3 : Word) &&& 0xFFFFF000 = 0) ∧ ((2 : Nat) ≤ 0x803) ∧
    (look ({ up with irq := { up.irq with insvc := [(3, 2)] } } : State).irq.insvc (fld (3 : Word) 11 0) = some (2 : Nat)) ∧
    (has ({ up with irq := { up.irq with insvc := [(3, 2)] } } : State).irq.cond (fld (3 : Word) 11 0) = false) := by
  refine ⟨?_, ?_, ?_, ?_, ?_⟩ <;> first | decide | rfl | (apply ok_of; decide +kernel)

theorem test_met_irqComplete_2 :
    (Serves ({ up with irq := { up.irq with insvc := [(0x40, 2)], cond := [0x40] } } : State)) ∧ ((0x40 : Word) &&& 0xFFFFF000 = 0) ∧
    ((2 : Nat) ≤ 0x803) ∧
    (look ({ up with irq := { up.irq with insvc := [(0x40, 2)], cond := [0x40] } } : State).irq.insvc (fld (0x40 : Word) 11 0) = some (2 : Nat)) ∧
    (has ({ up with irq := { up.irq with insvc := [(0x40, 2)], cond := [0x40] } } : State).irq.cond (fld (0x40 : Word) 11 0) = true) := by
  refine ⟨?_, ?_, ?_, ?_, ?_⟩ <;> first | decide | rfl | (apply ok_of; decide +kernel)

theorem test_met_irqComplete_3 :
    (Serves (up : State)) ∧ ((3 : Word) &&& 0xFFFFF000 = 0) ∧ ((2 : Nat) ≤ 0x803) ∧ (look (up : State).irq.insvc (fld (3 : Word) 11 0) ≠ some (2 : Nat)) := by
  refine ⟨?_, ?_, ?_, ?_⟩ <;> first | decide | rfl | (apply ok_of; decide +kernel)

theorem test_met_fnIrqComplete :
    (Serves ({ up with vfCount := 2, irq := { up.irq with insvc := [(3, 4169)] } } : State)) ∧ ((3 : Word) &&& 0xFFFFF000 = 0) ∧
    (fnOn ({ up with vfCount := 2, irq := { up.irq with insvc := [(3, 4169)] } } : State) (1 : Nat) = true) ∧ (1 ≤ (1 : Nat)) ∧ ((9 : Nat) < 64) ∧
    (look ({ up with vfCount := 2, irq := { up.irq with insvc := [(3, 4169)] } } : State).irq.insvc (fld (3 : Word) 11 0) = some (vectorTarget (1 : Nat) (9 : Nat))) ∧
    (has ({ up with vfCount := 2, irq := { up.irq with insvc := [(3, 4169)] } } : State).irq.cond (fld (3 : Word) 11 0) = false) := by
  refine ⟨?_, ?_, ?_, ?_, ?_, ?_, ?_⟩ <;> first | decide | rfl | (apply ok_of; decide +kernel)

theorem test_met_fnIrqComplete_2 :
    (Serves ({ up with vfCount := 2, irq := { up.irq with insvc := [(0x40, 4169)], cond := [0x40] } } : State)) ∧ ((0x40 : Word) &&& 0xFFFFF000 = 0) ∧
    (fnOn ({ up with vfCount := 2, irq := { up.irq with insvc := [(0x40, 4169)], cond := [0x40] } } : State) (1 : Nat) = true) ∧ (1 ≤ (1 : Nat)) ∧
    ((9 : Nat) < 64) ∧
    (look ({ up with vfCount := 2, irq := { up.irq with insvc := [(0x40, 4169)], cond := [0x40] } } : State).irq.insvc (fld (0x40 : Word) 11 0) = some (vectorTarget (1 : Nat) (9 : Nat))) ∧
    (has ({ up with vfCount := 2, irq := { up.irq with insvc := [(0x40, 4169)], cond := [0x40] } } : State).irq.cond (fld (0x40 : Word) 11 0) = true) := by
  refine ⟨?_, ?_, ?_, ?_, ?_, ?_, ?_⟩ <;> first | decide | rfl | (apply ok_of; decide +kernel)

theorem test_met_fnIrqComplete_3 :
    (Serves ({ up with vfCount := 2 } : State)) ∧ ((3 : Word) &&& 0xFFFFF000 = 0) ∧ (fnOn ({ up with vfCount := 2 } : State) (1 : Nat) = true) ∧
    (1 ≤ (1 : Nat)) ∧ ((9 : Nat) < 64) ∧
    (look ({ up with vfCount := 2 } : State).irq.insvc (fld (3 : Word) 11 0) ≠ some (vectorTarget (1 : Nat) (9 : Nat))) := by
  refine ⟨?_, ?_, ?_, ?_, ?_, ?_⟩ <;> first | decide | rfl | (apply ok_of; decide +kernel)

theorem test_met_irqPendSet :
    (Serves (up : State)) ∧ ((0xFFF : Word) &&& 0xFFFFF000 = 0) ∧ (srcKind (fld (0xFFF : Word) 11 0) = .reserved) := by
  refine ⟨?_, ?_, ?_⟩ <;> first | decide | rfl | (apply ok_of; decide +kernel)

theorem test_met_irqPendSet_2 :
    (Serves (up : State)) ∧ ((3 : Word) &&& 0xFFFFF000 = 0) ∧ (srcKind (fld (3 : Word) 11 0) = .pulse) := by
  refine ⟨?_, ?_, ?_⟩ <;> first | decide | rfl | (apply ok_of; decide +kernel)

theorem test_met_irqPendSet_3 :
    (Serves (up : State)) ∧ ((0x40 : Word) &&& 0xFFFFF000 = 0) ∧ (srcKind (fld (0x40 : Word) 11 0) = .level) := by
  refine ⟨?_, ?_, ?_⟩ <;> first | decide | rfl | (apply ok_of; decide +kernel)

theorem test_met_irqSrcCfgWrite :
    (Serves (up : State)) ∧ ((0xA0000803 : Word) &&& 0x01FF0000 = 0) ∧ (srcKind (3 : Nat) ≠ .reserved) ∧
    (routeOk (up : State) (3 : Nat) (fld (0xA0000803 : Word) 15 0) = true) := by
  refine ⟨?_, ?_, ?_, ?_⟩ <;> first | decide | rfl | (apply ok_of; decide +kernel)

theorem test_met_irqSrcCfgWrite_2 :
    (Serves (up : State)) ∧ ((0xA0000803 : Word) &&& 0x01FF0000 = 0) ∧ (srcKind (0x73 : Nat) = .reserved) := by
  refine ⟨?_, ?_, ?_⟩ <;> first | decide | rfl | (apply ok_of; decide +kernel)

theorem test_met_irqSrcCfgWrite_3 :
    (Serves (up : State)) ∧ ((0xA0000804 : Word) &&& 0x01FF0000 = 0) ∧ (srcKind (3 : Nat) ≠ .reserved) ∧
    (routeOk (up : State) (3 : Nat) (fld (0xA0000804 : Word) 15 0) = false) := by
  refine ⟨?_, ?_, ?_, ?_⟩ <;> first | decide | rfl | (apply ok_of; decide +kernel)

theorem test_met_fnIrqPendSet :
    (Serves ({ up with vfCount := 2 } : State)) ∧ ((12 : Word) &&& 0xFFFFFFF0 = 0) ∧ (fnOn ({ up with vfCount := 2 } : State) (1 : Nat) = true) ∧
    (8 < fld (12 : Word) 3 0) ∧ (fld (12 : Word) 3 0 ≤ 12) ∧ (srcKind (fnSource (1 : Nat) (fld (12 : Word) 3 0)) = .pulse) := by
  refine ⟨?_, ?_, ?_, ?_, ?_, ?_⟩ <;> first | decide | rfl | (apply ok_of; decide +kernel)

theorem test_met_fnIrqPendSet_2 :
    (Serves ({ up with vfCount := 2 } : State)) ∧ ((13 : Word) &&& 0xFFFFFFF0 = 0) ∧ (fnOn ({ up with vfCount := 2 } : State) (1 : Nat) = true) ∧
    (12 < fld (13 : Word) 3 0) := by
  refine ⟨?_, ?_, ?_, ?_⟩ <;> first | decide | rfl | (apply ok_of; decide +kernel)

theorem test_met_fnIrqSrcCfgWrite :
    (Serves ({ up with vfCount := 2 } : State)) ∧ ((0xA0000009 : Word) &&& 0x01FE0000 = 0) ∧ (1 ≤ (1 : Nat)) ∧
    (fnOn ({ up with vfCount := 2 } : State) (1 : Nat) = true) ∧ ((8 : Nat) ≤ 12) ∧
    (targetVf (routeOf ({ up with vfCount := 2 } : State) (fnSource (1 : Nat) (8 : Nat))).target = some (1 : Nat)) := by
  refine ⟨?_, ?_, ?_, ?_, ?_, ?_⟩ <;> first | decide | rfl | (apply ok_of; decide +kernel)

theorem test_met_fnIrqSrcCfgWrite_2 :
    (Serves ({ up with vfCount := 2, irq := { up.irq with route := [(277, { en := true, prio := 0, target := 5 })] } } : State)) ∧
    ((0xA0000009 : Word) &&& 0x01FE0000 = 0) ∧ (1 ≤ (1 : Nat)) ∧
    (fnOn ({ up with vfCount := 2, irq := { up.irq with route := [(277, { en := true, prio := 0, target := 5 })] } } : State) (1 : Nat) = true) ∧
    ((8 : Nat) ≤ 12) ∧
    (targetVf (routeOf ({ up with vfCount := 2, irq := { up.irq with route := [(277, { en := true, prio := 0, target := 5 })] } } : State) (fnSource (1 : Nat) (8 : Nat))).target ≠ some (1 : Nat)) := by
  refine ⟨?_, ?_, ?_, ?_, ?_, ?_⟩ <;> first | decide | rfl | (apply ok_of; decide +kernel)

theorem test_met_fnIrqDmaCfgWrite :
    (Serves ({ up with vfCount := 2, dma := { up.dma with chans := [(7, { DmaCh.reset with owner := 0x101 })] }, irq := { up.irq with route := [(7, { en := true, prio := 0, target := 4160 })] } } : State)) ∧
    ((0xA0000009 : Word) &&& 0x01FE0000 = 0) ∧ (1 ≤ (1 : Nat)) ∧
    (fnOn ({ up with vfCount := 2, dma := { up.dma with chans := [(7, { DmaCh.reset with owner := 0x101 })] }, irq := { up.irq with route := [(7, { en := true, prio := 0, target := 4160 })] } } : State) (1 : Nat) = true) ∧
    ((0 : Nat) < 8) ∧
    (slotChannel ({ up with vfCount := 2, dma := { up.dma with chans := [(7, { DmaCh.reset with owner := 0x101 })] }, irq := { up.irq with route := [(7, { en := true, prio := 0, target := 4160 })] } } : State) (1 : Nat) (0 : Nat) = some (7 : Nat)) ∧
    (targetVf (routeOf ({ up with vfCount := 2, dma := { up.dma with chans := [(7, { DmaCh.reset with owner := 0x101 })] }, irq := { up.irq with route := [(7, { en := true, prio := 0, target := 4160 })] } } : State) (7 : Nat)).target = some (1 : Nat)) := by
  refine ⟨?_, ?_, ?_, ?_, ?_, ?_, ?_⟩ <;> first | decide | rfl | (apply ok_of; decide +kernel)

theorem test_met_fnIrqDmaCfgWrite_2 :
    (Serves ({ up with vfCount := 2 } : State)) ∧ ((0xA0000009 : Word) &&& 0x01FE0000 = 0) ∧ (1 ≤ (1 : Nat)) ∧
    (fnOn ({ up with vfCount := 2 } : State) (1 : Nat) = true) ∧
    (8 ≤ (0 : Nat) ∨ slotChannel ({ up with vfCount := 2 } : State) (1 : Nat) (0 : Nat) = none) := by
  refine ⟨?_, ?_, ?_, ?_, ?_⟩ <;> first | decide | rfl | (apply ok_of; decide +kernel)

/-! Hypotheses of EventQueuesCarryRecords are met. -/

theorem test_met_evqCtrlWrite :
    (Serves ({ up with fns := [(0, { Fn.reset with ev := { Fn.reset.ev with cfg := 16 } })] } : State)) ∧ ((1 : Word) &&& 0xFFFFFFFE = 0) ∧
    (fnOn ({ up with fns := [(0, { Fn.reset with ev := { Fn.reset.ev with cfg := 16 } })] } : State) (0 : Nat) = true) ∧ (bit (1 : Word) 0 = true) ∧
    ((fnOf ({ up with fns := [(0, { Fn.reset with ev := { Fn.reset.ev with cfg := 16 } })] } : State) (0 : Nat)).ev.en = false ∨ (fnOf ({ up with fns := [(0, { Fn.reset with ev := { Fn.reset.ev with cfg := 16 } })] } : State) (0 : Nat)).ev.fault = true) ∧
    (4 ≤ fld (fnOf ({ up with fns := [(0, { Fn.reset with ev := { Fn.reset.ev with cfg := 16 } })] } : State) (0 : Nat)).ev.cfg 4 0) ∧
    (fld (fnOf ({ up with fns := [(0, { Fn.reset with ev := { Fn.reset.ev with cfg := 16 } })] } : State) (0 : Nat)).ev.cfg 4 0 ≤ 16) := by
  refine ⟨?_, ?_, ?_, ?_, ?_, ?_, ?_⟩ <;> first | decide | rfl | (apply ok_of; decide +kernel)

theorem test_met_evqCtrlWrite_2 :
    (Serves ({ up with fns := [(0, { Fn.reset with ev := { Fn.reset.ev with cfg := 17 } })] } : State)) ∧ ((1 : Word) &&& 0xFFFFFFFE = 0) ∧
    (fnOn ({ up with fns := [(0, { Fn.reset with ev := { Fn.reset.ev with cfg := 17 } })] } : State) (0 : Nat) = true) ∧ (bit (1 : Word) 0 = true) ∧
    ((fnOf ({ up with fns := [(0, { Fn.reset with ev := { Fn.reset.ev with cfg := 17 } })] } : State) (0 : Nat)).ev.en = false ∨ (fnOf ({ up with fns := [(0, { Fn.reset with ev := { Fn.reset.ev with cfg := 17 } })] } : State) (0 : Nat)).ev.fault = true) ∧
    (fld (fnOf ({ up with fns := [(0, { Fn.reset with ev := { Fn.reset.ev with cfg := 17 } })] } : State) (0 : Nat)).ev.cfg 4 0 < 4 ∨ 16 < fld (fnOf ({ up with fns := [(0, { Fn.reset with ev := { Fn.reset.ev with cfg := 17 } })] } : State) (0 : Nat)).ev.cfg 4 0) := by
  refine ⟨?_, ?_, ?_, ?_, ?_, ?_⟩ <;> first | decide | rfl | (apply ok_of; decide +kernel)

theorem test_met_evqCtrlWrite_3 :
    (Serves ({ up with fns := [(0, { Fn.reset with ev := { Fn.reset.ev with en := true, front := [{ typ := 1, code := 0x0C08, token := 5, pay := [0, 0, 0, 0], mark := { bell := 0, seq := 0 } }] } })] } : State)) ∧
    ((0 : Word) &&& 0xFFFFFFFE = 0) ∧
    (fnOn ({ up with fns := [(0, { Fn.reset with ev := { Fn.reset.ev with en := true, front := [{ typ := 1, code := 0x0C08, token := 5, pay := [0, 0, 0, 0], mark := { bell := 0, seq := 0 } }] } })] } : State) (0 : Nat) = true) ∧
    (bit (0 : Word) 0 = false) ∧
    ((fnOf ({ up with fns := [(0, { Fn.reset with ev := { Fn.reset.ev with en := true, front := [{ typ := 1, code := 0x0C08, token := 5, pay := [0, 0, 0, 0], mark := { bell := 0, seq := 0 } }] } })] } : State) (0 : Nat)).ev.en = true) := by
  refine ⟨?_, ?_, ?_, ?_, ?_⟩ <;> first | decide | rfl | (apply ok_of; decide +kernel)

theorem test_met_evqHeadDb :
    (Serves ({ up with fns := [(0, { Fn.reset with ev := { Fn.reset.ev with tail := 9, en := true } })] } : State)) ∧
    (fnOn ({ up with fns := [(0, { Fn.reset with ev := { Fn.reset.ev with tail := 9, en := true } })] } : State) (0 : Nat) = true) ∧
    (((7 : Word) - (fnOf ({ up with fns := [(0, { Fn.reset with ev := { Fn.reset.ev with tail := 9, en := true } })] } : State) (0 : Nat)).ev.head).toNat ≤ ((fnOf ({ up with fns := [(0, { Fn.reset with ev := { Fn.reset.ev with tail := 9, en := true } })] } : State) (0 : Nat)).ev.tail - (fnOf ({ up with fns := [(0, { Fn.reset with ev := { Fn.reset.ev with tail := 9, en := true } })] } : State) (0 : Nat)).ev.head).toNat) := by
  refine ⟨?_, ?_, ?_⟩ <;> first | decide | rfl | (apply ok_of; decide +kernel)

theorem test_met_evqHeadDb_2 :
    (Serves ({ up with fns := [(0, { Fn.reset with ev := { Fn.reset.ev with tail := 9, en := true } })] } : State)) ∧
    (fnOn ({ up with fns := [(0, { Fn.reset with ev := { Fn.reset.ev with tail := 9, en := true } })] } : State) (0 : Nat) = true) ∧
    (((fnOf ({ up with fns := [(0, { Fn.reset with ev := { Fn.reset.ev with tail := 9, en := true } })] } : State) (0 : Nat)).ev.tail - (fnOf ({ up with fns := [(0, { Fn.reset with ev := { Fn.reset.ev with tail := 9, en := true } })] } : State) (0 : Nat)).ev.head).toNat < ((10 : Word) - (fnOf ({ up with fns := [(0, { Fn.reset with ev := { Fn.reset.ev with tail := 9, en := true } })] } : State) (0 : Nat)).ev.head).toNat) := by
  refine ⟨?_, ?_, ?_⟩ <;> first | decide | rfl | (apply ok_of; decide +kernel)

theorem test_met_eventRecordPost :
    (Runs ({ up with fns := [(0, { Fn.reset with ev := { Fn.reset.ev with cfg := 4, en := true, front := [{ typ := 1, code := 0x0C08, token := 5, pay := [0, 0, 0, 0], mark := { bell := 0, seq := 0 } }] } })] } : State)) ∧
    (({ up with fns := [(0, { Fn.reset with ev := { Fn.reset.ev with cfg := 4, en := true, front := [{ typ := 1, code := 0x0C08, token := 5, pay := [0, 0, 0, 0], mark := { bell := 0, seq := 0 } }] } })] } : State).dev.safe = false) ∧
    ((fnOf ({ up with fns := [(0, { Fn.reset with ev := { Fn.reset.ev with cfg := 4, en := true, front := [{ typ := 1, code := 0x0C08, token := 5, pay := [0, 0, 0, 0], mark := { bell := 0, seq := 0 } }] } })] } : State) (0 : Nat)).ev.room = true) ∧
    ((fnOf ({ up with fns := [(0, { Fn.reset with ev := { Fn.reset.ev with cfg := 4, en := true, front := [{ typ := 1, code := 0x0C08, token := 5, pay := [0, 0, 0, 0], mark := { bell := 0, seq := 0 } }] } })] } : State) (0 : Nat)).ev.front = ({ typ := 1, code := 0x0C08, token := 5, pay := [0, 0, 0, 0], mark := { bell := 0, seq := 0 } } : EvRec) :: ([] : List EvRec)) := by
  refine ⟨?_, ?_, ?_, ?_⟩ <;> first | decide | rfl | (apply ok_of; decide +kernel)

theorem test_met_eventRecordPost_2 :
    (Runs ({ up with fns := [(0, { Fn.reset with ev := { Fn.reset.ev with cfg := 4, en := true, front := [{ typ := 1, code := 0x0C08, token := 5, pay := [0, 0, 0, 0], mark := { bell := 0, seq := 0 } }] } })] } : State)) ∧
    (({ up with fns := [(0, { Fn.reset with ev := { Fn.reset.ev with cfg := 4, en := true, front := [{ typ := 1, code := 0x0C08, token := 5, pay := [0, 0, 0, 0], mark := { bell := 0, seq := 0 } }] } })] } : State).dev.safe = false) ∧
    ((fnOf ({ up with fns := [(0, { Fn.reset with ev := { Fn.reset.ev with cfg := 4, en := true, front := [{ typ := 1, code := 0x0C08, token := 5, pay := [0, 0, 0, 0], mark := { bell := 0, seq := 0 } }] } })] } : State) (0 : Nat)).ev.room = true) ∧
    ((fnOf ({ up with fns := [(0, { Fn.reset with ev := { Fn.reset.ev with cfg := 4, en := true, front := [{ typ := 1, code := 0x0C08, token := 5, pay := [0, 0, 0, 0], mark := { bell := 0, seq := 0 } }] } })] } : State) (0 : Nat)).ev.front = ({ typ := 1, code := 0x0C08, token := 5, pay := [0, 0, 0, 0], mark := { bell := 0, seq := 0 } } : EvRec) :: ([] : List EvRec)) := by
  refine ⟨?_, ?_, ?_, ?_⟩ <;> first | decide | rfl | (apply ok_of; decide +kernel)

theorem test_met_eventRecordPost_3 :
    (Runs ({ up with fns := [(0, { Fn.reset with ev := { Fn.reset.ev with cfg := 4, en := true, dropped := 3 } })] } : State)) ∧
    (({ up with fns := [(0, { Fn.reset with ev := { Fn.reset.ev with cfg := 4, en := true, dropped := 3 } })] } : State).dev.safe = false) ∧
    ((fnOf ({ up with fns := [(0, { Fn.reset with ev := { Fn.reset.ev with cfg := 4, en := true, dropped := 3 } })] } : State) (0 : Nat)).ev.room = true) ∧
    ((fnOf ({ up with fns := [(0, { Fn.reset with ev := { Fn.reset.ev with cfg := 4, en := true, dropped := 3 } })] } : State) (0 : Nat)).ev.front = []) ∧
    ((fnOf ({ up with fns := [(0, { Fn.reset with ev := { Fn.reset.ev with cfg := 4, en := true, dropped := 3 } })] } : State) (0 : Nat)).ev.dropped ≠ 0) := by
  refine ⟨?_, ?_, ?_, ?_, ?_⟩ <;> first | decide | rfl | (apply ok_of; decide +kernel)

theorem test_met_eventRecordPost_4 :
    (Runs (up : State)) ∧ ((up : State).dev.safe = true ∨ (fnOf (up : State) (0 : Nat)).ev.room = false) := by
  refine ⟨?_, ?_⟩ <;> first | decide | rfl | (apply ok_of; decide +kernel)

/-! Hypotheses of WatchesCountFaults are met. -/

theorem test_met_watchEvent :
    (Runs (up : State)) ∧ ((32 : Nat) < 48) ∧ (kindExists (32 : Nat) (2 : Nat) = true) := by
  refine ⟨?_, ?_, ?_⟩ <;> first | decide | rfl | (apply ok_of; decide +kernel)

theorem test_met_watchEvent_2 :
    (Runs ({ up with watches := [(32, { Watch.reset with inject := 0x82000001 })] } : State)) ∧ ((32 : Nat) < 48) ∧
    (kindExists (32 : Nat) (2 : Nat) = true) ∧
    (bit (watchOf ({ up with watches := [(32, { Watch.reset with inject := 0x82000001 })] } : State) (32 : Nat)).inject 31 = true) ∧
    (injectedKind (32 : Nat) (watchOf ({ up with watches := [(32, { Watch.reset with inject := 0x82000001 })] } : State) (32 : Nat)).inject = (2 : Nat)) := by
  refine ⟨?_, ?_, ?_, ?_, ?_⟩ <;> first | decide | rfl | (apply ok_of; decide +kernel)

theorem test_met_watchEvent_3 :
    (Runs (up : State)) ∧ (48 ≤ (32 : Nat) ∨ kindExists (32 : Nat) (4 : Nat) = false) := by
  refine ⟨?_, ?_⟩ <;> first | decide | rfl | (apply ok_of; decide +kernel)

theorem test_met_errPulseEnd :
    (Runs (up : State)) := by
  first | decide | rfl | (apply ok_of; decide +kernel)

theorem test_met_watchStatusWrite :
    (Serves (up : State)) ∧ ((47 : Nat) < 48) := by
  refine ⟨?_, ?_⟩ <;> first | decide | rfl | (apply ok_of; decide +kernel)

theorem test_met_watchCfgWrite :
    (Serves (up : State)) ∧ ((47 : Nat) < 48) ∧ ((0x10001 : Word) &&& 0x0000FF00 = 0) := by
  refine ⟨?_, ?_, ?_⟩ <;> first | decide | rfl | (apply ok_of; decide +kernel)

theorem test_met_watchInject :
    (Serves (up : State)) ∧ ((47 : Nat) < 48) ∧ ((0x82000001 : Word) &&& 0x70FEFF00 = 0) ∧ (injectBad (47 : Nat) (0x82000001 : Word) = false) := by
  refine ⟨?_, ?_, ?_, ?_⟩ <;> first | decide | rfl | (apply ok_of; decide +kernel)

theorem test_met_watchInject_2 :
    (Serves (up : State)) ∧ ((47 : Nat) < 48) ∧ ((0x84000001 : Word) &&& 0x70FEFF00 = 0) ∧ (injectBad (47 : Nat) (0x84000001 : Word) = true) := by
  refine ⟨?_, ?_, ?_, ?_⟩ <;> first | decide | rfl | (apply ok_of; decide +kernel)

theorem test_met_devErrPinWrite :
    (Serves (up : State)) ∧ ((1 : Word) &&& 0xFFFFFFF0 = 0) := by
  refine ⟨?_, ?_⟩ <;> first | decide | rfl | (apply ok_of; decide +kernel)

theorem test_met_helmHeartbeatTimeout :
    (Runs (up : State)) ∧ ((3 : Nat) < 4) := by
  refine ⟨?_, ?_⟩ <;> first | decide | rfl | (apply ok_of; decide +kernel)

theorem test_met_helmHeartbeatTimeout_2 :
    (Runs (up : State)) ∧ (4 ≤ (4 : Nat)) := by
  refine ⟨?_, ?_⟩ <;> first | decide | rfl | (apply ok_of; decide +kernel)

/-! Hypotheses of SelfTestsAreJudged are met. -/

theorem test_met_bistTargetDone :
    (Runs ({ up with bist := { up.bist with slice := true, cfg := 0x100, head := 0x300 } } : State)) ∧
    (({ up with bist := { up.bist with slice := true, cfg := 0x100, head := 0x300 } } : State).bist.slice = true) ∧
    (({ target := 0x300, quarter := 0, variant := 0, result := 5, limit := some 0x0000000900000001, skipped := false } : BistRes).target ≤ 0x312) ∧
    (0x220 ≤ ({ target := 0x300, quarter := 0, variant := 0, result := 5, limit := some 0x0000000900000001, skipped := false } : BistRes).target) ∧
    (({ target := 0x300, quarter := 0, variant := 0, result := 5, limit := some 0x0000000900000001, skipped := false } : BistRes).limit = some (0x0000000900000001 : BitVec 64)) ∧
    (bit ({ up with bist := { up.bist with slice := true, cfg := 0x100, head := 0x300 } } : State).bist.cfg 8 = true) ∧
    (({ up with bist := { up.bist with slice := true, cfg := 0x100, head := 0x300 } } : State).bist.kept = []) ∧
    (({ target := 0x300, quarter := 0, variant := 0, result := 5, limit := some 0x0000000900000001, skipped := false } : BistRes).target = ({ up with bist := { up.bist with slice := true, cfg := 0x100, head := 0x300 } } : State).bist.head) ∧
    (({ target := 0x300, quarter := 0, variant := 0, result := 5, limit := some 0x0000000900000001, skipped := false } : BistRes).skipped = false) ∧
    (anaSkips ({ up with bist := { up.bist with slice := true, cfg := 0x100, head := 0x300 } } : State) ({ target := 0x300, quarter := 0, variant := 0, result := 5, limit := some 0x0000000900000001, skipped := false } : BistRes).target = false) ∧
    (({ up with bist := { up.bist with slice := true, cfg := 0x100, head := 0x300 } } : State).bist.used + anaTime ({ target := 0x300, quarter := 0, variant := 0, result := 5, limit := some 0x0000000900000001, skipped := false } : BistRes).target ≤ 40) ∧
    (measuredOk ({ target := 0x300, quarter := 0, variant := 0, result := 5, limit := some 0x0000000900000001, skipped := false } : BistRes).result (0x0000000900000001 : BitVec 64) = true) ∧
    (nextAna ({ target := 0x300, quarter := 0, variant := 0, result := 5, limit := some 0x0000000900000001, skipped := false } : BistRes).target = some (0x301 : Nat)) := by
  refine ⟨?_, ?_, ?_, ?_, ?_, ?_, ?_, ?_, ?_, ?_, ?_, ?_, ?_⟩ <;> first | decide | rfl | (apply ok_of; decide +kernel)

theorem test_met_bistTargetDone_2 :
    (Runs ({ up with bist := { up.bist with slice := true, cfg := 0x100, head := 0x300 } } : State)) ∧
    (({ up with bist := { up.bist with slice := true, cfg := 0x100, head := 0x300 } } : State).bist.slice = true) ∧
    (({ target := 0x300, quarter := 0, variant := 0, result := 5, limit := some 1, skipped := true } : BistRes).target ≤ 0x312) ∧
    (0x100 ≤ ({ target := 0x300, quarter := 0, variant := 0, result := 5, limit := some 1, skipped := true } : BistRes).target) ∧
    (({ target := 0x300, quarter := 0, variant := 0, result := 5, limit := some 1, skipped := true } : BistRes).limit = some (1 : BitVec 64)) ∧
    (bit ({ up with bist := { up.bist with slice := true, cfg := 0x100, head := 0x300 } } : State).bist.cfg 8 = true) ∧
    (({ up with bist := { up.bist with slice := true, cfg := 0x100, head := 0x300 } } : State).bist.kept = []) ∧
    (({ target := 0x300, quarter := 0, variant := 0, result := 5, limit := some 1, skipped := true } : BistRes).target = ({ up with bist := { up.bist with slice := true, cfg := 0x100, head := 0x300 } } : State).bist.head) ∧
    (({ target := 0x300, quarter := 0, variant := 0, result := 5, limit := some 1, skipped := true } : BistRes).skipped = true) ∧
    (nextAna ({ target := 0x300, quarter := 0, variant := 0, result := 5, limit := some 1, skipped := true } : BistRes).target = some (0x301 : Nat)) := by
  refine ⟨?_, ?_, ?_, ?_, ?_, ?_, ?_, ?_, ?_, ?_⟩ <;> first | decide | rfl | (apply ok_of; decide +kernel)

theorem test_met_bistTargetDone_3 :
    (Runs ({ up with bist := { up.bist with slice := true, cfg := 0x200, out := [3], standIn := [(0, 3)] } } : State)) ∧
    (({ up with bist := { up.bist with slice := true, cfg := 0x200, out := [3], standIn := [(0, 3)] } } : State).bist.slice = true) ∧
    (({ target := 0x403, quarter := 0, variant := 0, result := 5, limit := some 1, skipped := false } : BistRes).target = 0x400 + (32 * ({ target := 0x403, quarter := 0, variant := 0, result := 5, limit := some 1, skipped := false } : BistRes).quarter + (3 : Nat))) ∧
    (look ({ up with bist := { up.bist with slice := true, cfg := 0x200, out := [3], standIn := [(0, 3)] } } : State).bist.standIn ({ target := 0x403, quarter := 0, variant := 0, result := 5, limit := some 1, skipped := false } : BistRes).quarter = some (3 : Nat)) ∧
    (bit ({ up with bist := { up.bist with slice := true, cfg := 0x200, out := [3], standIn := [(0, 3)] } } : State).bist.cfg 9 = true) ∧
    (has ({ up with bist := { up.bist with slice := true, cfg := 0x200, out := [3], standIn := [(0, 3)] } } : State).bist.out (32 * ({ target := 0x403, quarter := 0, variant := 0, result := 5, limit := some 1, skipped := false } : BistRes).quarter + (3 : Nat)) = true) ∧
    (({ target := 0x403, quarter := 0, variant := 0, result := 5, limit := some 1, skipped := false } : BistRes).limit = some (1 : BitVec 64)) ∧
    ((1 : BitVec 64) ≠ ({ target := 0x403, quarter := 0, variant := 0, result := 5, limit := some 1, skipped := false } : BistRes).result) := by
  refine ⟨?_, ?_, ?_, ?_, ?_, ?_, ?_, ?_⟩ <;> first | decide | rfl | (apply ok_of; decide +kernel)

theorem test_met_bistTargetDone_4 :
    (Runs ({ up with bist := { up.bist with slice := true, cfg := 0x200, out := [3], standIn := [(0, 3)] } } : State)) ∧
    (({ up with bist := { up.bist with slice := true, cfg := 0x200, out := [3], standIn := [(0, 3)] } } : State).bist.slice = true) ∧
    (({ target := 0x403, quarter := 0, variant := 0, result := 5, limit := some 5, skipped := false } : BistRes).target = 0x400 + (32 * ({ target := 0x403, quarter := 0, variant := 0, result := 5, limit := some 5, skipped := false } : BistRes).quarter + (3 : Nat))) ∧
    (look ({ up with bist := { up.bist with slice := true, cfg := 0x200, out := [3], standIn := [(0, 3)] } } : State).bist.standIn ({ target := 0x403, quarter := 0, variant := 0, result := 5, limit := some 5, skipped := false } : BistRes).quarter = some (3 : Nat)) ∧
    (bit ({ up with bist := { up.bist with slice := true, cfg := 0x200, out := [3], standIn := [(0, 3)] } } : State).bist.cfg 9 = true) ∧
    (has ({ up with bist := { up.bist with slice := true, cfg := 0x200, out := [3], standIn := [(0, 3)] } } : State).bist.out (32 * ({ target := 0x403, quarter := 0, variant := 0, result := 5, limit := some 5, skipped := false } : BistRes).quarter + (3 : Nat)) = true) ∧
    (({ target := 0x403, quarter := 0, variant := 0, result := 5, limit := some 5, skipped := false } : BistRes).limit = some ({ target := 0x403, quarter := 0, variant := 0, result := 5, limit := some 5, skipped := false } : BistRes).result) ∧
    (has ({ up with bist := { up.bist with slice := true, cfg := 0x200, out := [3], standIn := [(0, 3)] } } : State).bist.scanOk (512 + (32 * ({ target := 0x403, quarter := 0, variant := 0, result := 5, limit := some 5, skipped := false } : BistRes).quarter + (3 : Nat))) = false) ∧
    ((3 : Nat) < 32) := by
  refine ⟨?_, ?_, ?_, ?_, ?_, ?_, ?_, ?_, ?_⟩ <;> first | decide | rfl | (apply ok_of; decide +kernel)

theorem test_met_bistTargetDone_5 :
    (Runs (up : State)) ∧ ((up : State).bist.slice = false) := by
  refine ⟨?_, ?_⟩ <;> first | decide | rfl | (apply ok_of; decide +kernel)

theorem test_met_bistCtrlWrite :
    (Serves (up : State)) ∧ ((1 : Word) &&& 0xFFFFFFFE = 0) ∧ (bit (1 : Word) 0 = true) ∧ ((up : State).plan.first = false) := by
  refine ⟨?_, ?_, ?_, ?_⟩ <;> first | decide | rfl | (apply ok_of; decide +kernel)

theorem test_met_bistCtrlWrite_2 :
    (Serves (up : State)) ∧ ((0 : Word) &&& 0xFFFFFFFE = 0) ∧ (bit (0 : Word) 0 = false ∨ (up : State).plan.first = true) := by
  refine ⟨?_, ?_, ?_⟩ <;> first | decide | rfl | (apply ok_of; decide +kernel)

/-! Hypotheses of SextantCalibrates are met. -/

theorem test_met_sextantMeasure :
    (Runs ({ up with sext := { up.sext with ctrl := 3, values := [(0, (0x4000, 0))] } } : State)) ∧
    (bit ({ up with sext := { up.sext with ctrl := 3, values := [(0, (0x4000, 0))] } } : State).sext.ctrl 0 = true) ∧
    (bit ({ up with sext := { up.sext with ctrl := 3, values := [(0, (0x4000, 0))] } } : State).sext.ctrl 1 = true) ∧
    (({ up with sext := { up.sext with ctrl := 3, values := [(0, (0x4000, 0))] } } : State).bell.num.toNat % max 1 (fld ({ up with sext := { up.sext with ctrl := 3, values := [(0, (0x4000, 0))] } } : State).sext.cfg 7 0) = 0) ∧
    (({ up with sext := { up.sext with ctrl := 3, values := [(0, (0x4000, 0))] } } : State).sext.result = none) ∧
    (({ up with sext := { up.sext with ctrl := 3, values := [(0, (0x4000, 0))] } } : State).pwr.state < 3) ∧
    (({ clkOk := true, voltOk := true, gain := 0x4000, offset := 0, raw := 77, temp := 25 } : SextMeas).clkOk = true) ∧
    (({ clkOk := true, voltOk := true, gain := 0x4000, offset := 0, raw := 77, temp := 25 } : SextMeas).voltOk = true) ∧
    (({ up with sext := { up.sext with ctrl := 3, values := [(0, (0x4000, 0))] } } : State).sext.next < 95) ∧
    (nearSet ({ clkOk := true, voltOk := true, gain := 0x4000, offset := 0, raw := 77, temp := 25 } : SextMeas).temp = some (0 : Nat)) ∧
    (sextAbs ({ up with sext := { up.sext with ctrl := 3, values := [(0, (0x4000, 0))] } } : State).sext.next ({ clkOk := true, voltOk := true, gain := 0x4000, offset := 0, raw := 77, temp := 25 } : SextMeas).gain ({ clkOk := true, voltOk := true, gain := 0x4000, offset := 0, raw := 77, temp := 25 } : SextMeas).offset = true) ∧
    (sextRel ({ up with sext := { up.sext with ctrl := 3, values := [(0, (0x4000, 0))] } } : State).sext.next (sextPair ({ up with sext := { up.sext with ctrl := 3, values := [(0, (0x4000, 0))] } } : State) ({ up with sext := { up.sext with ctrl := 3, values := [(0, (0x4000, 0))] } } : State).sext.next (0 : Nat)) (({ clkOk := true, voltOk := true, gain := 0x4000, offset := 0, raw := 77, temp := 25 } : SextMeas).gain, ({ clkOk := true, voltOk := true, gain := 0x4000, offset := 0, raw := 77, temp := 25 } : SextMeas).offset) = true) := by
  refine ⟨?_, ?_, ?_, ?_, ?_, ?_, ?_, ?_, ?_, ?_, ?_, ?_⟩ <;> first | decide | rfl | (apply ok_of; decide +kernel)

theorem test_met_sextantMeasure_2 :
    (Runs ({ up with sext := { up.sext with ctrl := 3, voltOk := false } } : State)) ∧
    (bit ({ up with sext := { up.sext with ctrl := 3, voltOk := false } } : State).sext.ctrl 0 = true) ∧
    (({ up with sext := { up.sext with ctrl := 3, voltOk := false } } : State).bell.num.toNat % max 1 (fld ({ up with sext := { up.sext with ctrl := 3, voltOk := false } } : State).sext.cfg 7 0) = 0) ∧
    (({ up with sext := { up.sext with ctrl := 3, voltOk := false } } : State).sext.result = none) ∧
    (({ up with sext := { up.sext with ctrl := 3, voltOk := false } } : State).pwr.state < 3) ∧
    (({ clkOk := true, voltOk := false, gain := 0x4000, offset := 0, raw := 77, temp := 25 } : SextMeas).clkOk = true) ∧
    (({ clkOk := true, voltOk := false, gain := 0x4000, offset := 0, raw := 77, temp := 25 } : SextMeas).voltOk = false) ∧
    (({ up with sext := { up.sext with ctrl := 3, voltOk := false } } : State).sext.voltOk = false) ∧
    (({ up with sext := { up.sext with ctrl := 3, voltOk := false } } : State).sext.next < 80) := by
  refine ⟨?_, ?_, ?_, ?_, ?_, ?_, ?_, ?_, ?_⟩ <;> first | decide | rfl | (apply ok_of; decide +kernel)

theorem test_met_sextantMeasure_3 :
    (Runs (up : State)) ∧
    (bit (up : State).sext.ctrl 0 = false ∨ (up : State).bell.num.toNat % max 1 (fld (up : State).sext.cfg 7 0) ≠ 0 ∨ (up : State).sext.result.isSome = true ∨ 3 ≤ (up : State).pwr.state) := by
  refine ⟨?_, ?_⟩ <;> first | decide | rfl | (apply ok_of; decide +kernel)

theorem test_met_sextCoefGainWrite :
    (Serves (up : State)) ∧ ((0x4000 : Word) &&& 0xFFFF0000 = 0) := by
  refine ⟨?_, ?_⟩ <;> first | decide | rfl | (apply ok_of; decide +kernel)

theorem test_met_sextCoefOffsetWrite :
    (Serves ({ up with sext := { up.sext with held := some (sextKey up, 0x4000) } } : State)) ∧ ((0x200 : Word) &&& 0xFFFF0000 = 0) ∧
    (({ up with sext := { up.sext with held := some (sextKey up, 0x4000) } } : State).sext.held = some (sextKey ({ up with sext := { up.sext with held := some (sextKey up, 0x4000) } } : State), (0x4000 : BitVec 16))) ∧
    (sextAbs (sextKey ({ up with sext := { up.sext with held := some (sextKey up, 0x4000) } } : State) / 4) (0x4000 : BitVec 16) ((0x200 : Word).truncate 16) = true) := by
  refine ⟨?_, ?_, ?_, ?_⟩ <;> first | decide | rfl | (apply ok_of; decide +kernel)

theorem test_met_sextCoefOffsetWrite_2 :
    (Serves ({ up with sext := { up.sext with held := some (sextKey up, 0x4000) } } : State)) ∧ ((0x201 : Word) &&& 0xFFFF0000 = 0) ∧
    (({ up with sext := { up.sext with held := some (sextKey up, 0x4000) } } : State).sext.held = some (sextKey ({ up with sext := { up.sext with held := some (sextKey up, 0x4000) } } : State), (0x4000 : BitVec 16))) ∧
    (sextAbs (sextKey ({ up with sext := { up.sext with held := some (sextKey up, 0x4000) } } : State) / 4) (0x4000 : BitVec 16) ((0x201 : Word).truncate 16) = false) := by
  refine ⟨?_, ?_, ?_, ?_⟩ <;> first | decide | rfl | (apply ok_of; decide +kernel)

theorem test_met_sextCtrlWrite :
    (Serves ({ up with sext := { up.sext with ctrl := 3 } } : State)) ∧ ((1 : Word) &&& 0xFFFFFFFC = 0) ∧
    (bit ({ up with sext := { up.sext with ctrl := 3 } } : State).sext.ctrl 0 = true) ∧
    (bit (1 : Word) 1 ≠ bit ({ up with sext := { up.sext with ctrl := 3 } } : State).sext.ctrl 1) := by
  refine ⟨?_, ?_, ?_, ?_⟩ <;> first | decide | rfl | (apply ok_of; decide +kernel)

theorem test_met_sextCtrlWrite_2 :
    (Serves (up : State)) ∧ ((1 : Word) &&& 0xFFFFFFFC = 0) ∧ (bit (up : State).sext.ctrl 0 = false ∨ bit (1 : Word) 1 = bit (up : State).sext.ctrl 1) := by
  refine ⟨?_, ?_, ?_⟩ <;> first | decide | rfl | (apply ok_of; decide +kernel)

/-! Hypotheses of PowerStatesChange are met. -/

theorem test_met_hoveToEnter :
    (Runs ({ up with pwr := { up.pwr with cfg := 1 }, dev := { up.dev with latencyTol := 9 } } : State)) ∧
    (({ up with pwr := { up.pwr with cfg := 1 }, dev := { up.dev with latencyTol := 9 } } : State).pwr.state = 0) ∧
    (({ up with pwr := { up.pwr with cfg := 1 }, dev := { up.dev with latencyTol := 9 } } : State).pwr.exiting = false) ∧
    (taskBusy ({ up with pwr := { up.pwr with cfg := 1 }, dev := { up.dev with latencyTol := 9 } } : State) = false) ∧
    (allowed ({ up with pwr := { up.pwr with cfg := 1 }, dev := { up.dev with latencyTol := 9 } } : State) 1 = true) := by
  refine ⟨?_, ?_, ?_, ?_, ?_⟩ <;> first | decide | rfl | (apply ok_of; decide +kernel)

theorem test_met_hoveToEnter_2 :
    (Runs ({ up with pwr := { up.pwr with state := 1 } } : State)) ∧ (({ up with pwr := { up.pwr with state := 1 } } : State).pwr.state = 1) := by
  refine ⟨?_, ?_⟩ <;> first | decide | rfl | (apply ok_of; decide +kernel)

theorem test_met_powerExitDone :
    (Runs ({ up with pwr := { up.pwr with state := 2, exiting := true } } : State)) ∧
    (({ up with pwr := { up.pwr with state := 2, exiting := true } } : State).pwr.exiting = true) ∧
    (({ up with pwr := { up.pwr with state := 2, exiting := true } } : State).pwr.state < 3) ∧
    (({ up with pwr := { up.pwr with state := 2, exiting := true } } : State).pwr.exitTo < 4) ∧
    (({ up with pwr := { up.pwr with state := 2, exiting := true } } : State).net.waiting = []) := by
  refine ⟨?_, ?_, ?_, ?_, ?_⟩ <;> first | decide | rfl | (apply ok_of; decide +kernel)

theorem test_met_powerExitDone_2 :
    (Runs ({ up with pwr := { up.pwr with state := 4, exiting := true } } : State)) ∧
    (({ up with pwr := { up.pwr with state := 4, exiting := true } } : State).pwr.exiting = true) ∧
    (3 ≤ ({ up with pwr := { up.pwr with state := 4, exiting := true } } : State).pwr.state) ∧
    (({ up with pwr := { up.pwr with state := 4, exiting := true } } : State).pwr.exitTo < 3) ∧
    (({ up with pwr := { up.pwr with state := 4, exiting := true } } : State).net.waiting = []) := by
  refine ⟨?_, ?_, ?_, ?_, ?_⟩ <;> first | decide | rfl | (apply ok_of; decide +kernel)

theorem test_met_powerExitDone_3 :
    (Runs (up : State)) ∧ ((up : State).pwr.exiting = false) := by
  refine ⟨?_, ?_⟩ <;> first | decide | rfl | (apply ok_of; decide +kernel)

theorem test_met_devLatencyTolWrite :
    (Serves (up : State)) ∧ (exitLatency (up : State).pwr.state ≤ (0 : Word).toNat) := by
  refine ⟨?_, ?_⟩ <;> first | decide | rfl | (apply ok_of; decide +kernel)

theorem test_met_devLatencyTolWrite_2 :
    (Serves ({ up with pwr := { up.pwr with state := 2 } } : State)) ∧
    ((49 : Word).toNat < exitLatency ({ up with pwr := { up.pwr with state := 2 } } : State).pwr.state) ∧
    (({ up with pwr := { up.pwr with state := 2 } } : State).pwr.exiting = false) := by
  refine ⟨?_, ?_, ?_⟩ <;> first | decide | rfl | (apply ok_of; decide +kernel)

/-! Hypotheses of ResetsLeaveFusesAndFlash are met. -/

theorem test_met_thermtrip :
    ((up : State).dev.stopped = false) ∧ ((31 : Nat) < 32) := by
  refine ⟨?_, ?_⟩ <;> first | decide | rfl | (apply ok_of; decide +kernel)

theorem test_met_perstFall :
    (Runs (up : State)) ∧ ((up : State).sec.burning = none) ∧ ((up : State).sec.flashOp = none) ∧ ((up : State).tandem.state ≠ 3) := by
  refine ⟨?_, ?_, ?_, ?_⟩ <;> first | decide | rfl | (apply ok_of; decide +kernel)

theorem test_met_perstFall_2 :
    (({ up with dev := { up.dev with stopped := true } } : State).dev.perstN = true) ∧
    (({ up with dev := { up.dev with stopped := true } } : State).dev.stopped = true) := by
  refine ⟨?_, ?_⟩ <;> first | decide | rfl | (apply ok_of; decide +kernel)

theorem test_met_perstRise :
    (({ up with dev := { up.dev with perstN := false } } : State).dev.perstN = false) := by
  first | decide | rfl | (apply ok_of; decide +kernel)

theorem test_met_devReset :
    (Serves (up : State)) ∧ ((up : State).sec.burning = none) ∧ ((up : State).sec.flashOp = none) ∧ ((up : State).tandem.state ≠ 3) := by
  refine ⟨?_, ?_, ?_, ?_⟩ <;> first | decide | rfl | (apply ok_of; decide +kernel)

theorem test_met_devReset_2 :
    (Serves ({ up with tandem := { up.tandem with state := 3 } } : State)) ∧
    (({ up with tandem := { up.tandem with state := 3 } } : State).sec.burning = none) ∧
    (({ up with tandem := { up.tandem with state := 3 } } : State).sec.flashOp = none) ∧
    (({ up with tandem := { up.tandem with state := 3 } } : State).tandem.state = 3) := by
  refine ⟨?_, ?_, ?_, ?_⟩ <;> first | decide | rfl | (apply ok_of; decide +kernel)

theorem test_met_i3cResetGo :
    (Runs ({ up with sec := { up.sec with nonce := some (9, 0) } } : State)) ∧
    (({ up with sec := { up.sec with nonce := some (9, 0) } } : State).sec.nonce = some ((9 : DWord), (0 : BitVec 40))) ∧
    (bellsFrom (0 : BitVec 40) ({ up with sec := { up.sec with nonce := some (9, 0) } } : State).bell.num < bellRate ({ up with sec := { up.sec with nonce := some (9, 0) } } : State)) ∧
    (({ up with sec := { up.sec with nonce := some (9, 0) } } : State).sec.burning = none) ∧
    (({ up with sec := { up.sec with nonce := some (9, 0) } } : State).sec.flashOp = none) ∧
    (({ up with sec := { up.sec with nonce := some (9, 0) } } : State).tandem.state ≠ 3) := by
  refine ⟨?_, ?_, ?_, ?_, ?_, ?_⟩ <;> first | decide | rfl | (apply ok_of; decide +kernel)

theorem test_met_i3cResetGo_2 :
    (Runs ({ up with sec := { up.sec with nonce := some (8, 0) } } : State)) ∧
    (({ up with sec := { up.sec with nonce := some (8, 0) } } : State).sec.nonce = some ((8 : DWord), (0 : BitVec 40))) ∧
    ((8 : DWord) ≠ (9 : DWord) ∨ bellRate ({ up with sec := { up.sec with nonce := some (8, 0) } } : State) ≤ bellsFrom (0 : BitVec 40) ({ up with sec := { up.sec with nonce := some (8, 0) } } : State).bell.num) := by
  refine ⟨?_, ?_, ?_⟩ <;> first | decide | rfl | (apply ok_of; decide +kernel)

theorem test_met_i3cResetGo_3 :
    (Runs (up : State)) ∧ ((up : State).sec.nonce = none) := by
  refine ⟨?_, ?_⟩ <;> first | decide | rfl | (apply ok_of; decide +kernel)

theorem test_met_powerCycle :
    (({ up with dev := { up.dev with stopped := true } } : State).sec.burning = none) ∧
    (({ up with dev := { up.dev with stopped := true } } : State).sec.flashOp = none) := by
  refine ⟨?_, ?_⟩ <;> first | decide | rfl | (apply ok_of; decide +kernel)

/-! Hypotheses of BootStages are met. -/

theorem test_met_bootRomDone :
    (Runs ({ State.reset with dev := { Dev.reset with straps := 3 } } : State)) ∧
    (({ State.reset with dev := { Dev.reset with straps := 3 } } : State).sec.stage = 0) ∧
    (bootHalt ({ State.reset with dev := { Dev.reset with straps := 3 } } : State) = true) := by
  refine ⟨?_, ?_, ?_⟩ <;> first | decide | rfl | (apply ok_of; decide +kernel)

theorem test_met_bootRomDone_2 :
    (Runs (State.reset : State)) ∧ ((State.reset : State).sec.stage = 0) ∧ (bootHalt (State.reset : State) = false) := by
  refine ⟨?_, ?_, ?_⟩ <;> first | decide | rfl | (apply ok_of; decide +kernel)

theorem test_met_bootLoadDone :
    (Runs ({ State.reset with sec := { Sec.reset with stage := 1 } } : State)) ∧
    (({ State.reset with sec := { Sec.reset with stage := 1 } } : State).sec.stage = 1) := by
  refine ⟨?_, ?_⟩ <;> first | decide | rfl | (apply ok_of; decide +kernel)

theorem test_met_bootTrainDone :
    (Runs ({ State.reset with sec := { Sec.reset with stage := 2 } } : State)) ∧
    (({ State.reset with sec := { Sec.reset with stage := 2 } } : State).sec.stage = 2) ∧
    (({ uniform := true, ratedMts := 6400, dpc := 2, ranks := 2, dens32 := false, results := List.replicate 12 1, retired := [] } : TrainIn).uniform = true) ∧
    (has [1, 2] ({ uniform := true, ratedMts := 6400, dpc := 2, ranks := 2, dens32 := false, results := List.replicate 12 1, retired := [] } : TrainIn).dpc = true) ∧
    (has [1, 2, 4] ({ uniform := true, ratedMts := 6400, dpc := 2, ranks := 2, dens32 := false, results := List.replicate 12 1, retired := [] } : TrainIn).ranks = true) ∧
    (4800 ≤ ({ uniform := true, ratedMts := 6400, dpc := 2, ranks := 2, dens32 := false, results := List.replicate 12 1, retired := [] } : TrainIn).ratedMts) ∧
    (({ uniform := true, ratedMts := 6400, dpc := 2, ranks := 2, dens32 := false, results := List.replicate 12 1, retired := [] } : TrainIn).results = List.replicate 12 1) ∧
    (bit ({ State.reset with sec := { Sec.reset with stage := 2 } } : State).memc.retireCfg 8 = false) ∧
    (384000000000 ≤ 12 * (({ uniform := true, ratedMts := 6400, dpc := 2, ranks := 2, dens32 := false, results := List.replicate 12 1, retired := [] } : TrainIn).dpc * ({ uniform := true, ratedMts := 6400, dpc := 2, ranks := 2, dens32 := false, results := List.replicate 12 1, retired := [] } : TrainIn).ranks) * ((if ({ uniform := true, ratedMts := 6400, dpc := 2, ranks := 2, dens32 := false, results := List.replicate 12 1, retired := [] } : TrainIn).dens32 then 64 else 32) * 1000000000)) ∧
    (({ uniform := true, ratedMts := 6400, dpc := 2, ranks := 2, dens32 := false, results := List.replicate 12 1, retired := [] } : TrainIn).retired = []) := by
  refine ⟨?_, ?_, ?_, ?_, ?_, ?_, ?_, ?_, ?_, ?_⟩ <;> first | decide | rfl | (apply ok_of; decide +kernel)

theorem test_met_bootTrainDone_2 :
    (Runs ({ State.reset with sec := { Sec.reset with stage := 2 } } : State)) ∧
    (({ State.reset with sec := { Sec.reset with stage := 2 } } : State).sec.stage = 2) ∧
    (({ uniform := true, ratedMts := 6400, dpc := 2, ranks := 3, dens32 := false, results := [], retired := [] } : TrainIn).uniform = false ∨ has [1, 2] ({ uniform := true, ratedMts := 6400, dpc := 2, ranks := 3, dens32 := false, results := [], retired := [] } : TrainIn).dpc = false ∨ has [1, 2, 4] ({ uniform := true, ratedMts := 6400, dpc := 2, ranks := 3, dens32 := false, results := [], retired := [] } : TrainIn).ranks = false) := by
  refine ⟨?_, ?_, ?_⟩ <;> first | decide | rfl | (apply ok_of; decide +kernel)

theorem test_met_bootTrainDone_3 :
    (Runs ({ State.reset with sec := { Sec.reset with stage := 2 } } : State)) ∧
    (({ State.reset with sec := { Sec.reset with stage := 2 } } : State).sec.stage = 2) ∧
    (({ uniform := true, ratedMts := 4799, dpc := 2, ranks := 2, dens32 := false, results := [], retired := [] } : TrainIn).uniform = true) ∧
    (has [1, 2] ({ uniform := true, ratedMts := 4799, dpc := 2, ranks := 2, dens32 := false, results := [], retired := [] } : TrainIn).dpc = true) ∧
    (has [1, 2, 4] ({ uniform := true, ratedMts := 4799, dpc := 2, ranks := 2, dens32 := false, results := [], retired := [] } : TrainIn).ranks = true) ∧
    (({ uniform := true, ratedMts := 4799, dpc := 2, ranks := 2, dens32 := false, results := [], retired := [] } : TrainIn).ratedMts < 4800) := by
  refine ⟨?_, ?_, ?_, ?_, ?_, ?_⟩ <;> first | decide | rfl | (apply ok_of; decide +kernel)

theorem test_met_bootInitDone :
    (Runs ({ State.reset with sec := { Sec.reset with stage := 3 } } : State)) ∧
    (({ State.reset with sec := { Sec.reset with stage := 3 } } : State).sec.stage = 3) ∧
    (({ State.reset with sec := { Sec.reset with stage := 3 } } : State).plan.first = false) ∧
    (planFound ({ State.reset with sec := { Sec.reset with stage := 3 } } : State) = false) := by
  refine ⟨?_, ?_, ?_, ?_⟩ <;> first | decide | rfl | (apply ok_of; decide +kernel)

theorem test_met_bootInitDone_2 :
    (Runs ({ State.reset with sec := { Sec.reset with stage := 3, flash := [(0x1820000, 0x53)] } } : State)) ∧
    (({ State.reset with sec := { Sec.reset with stage := 3, flash := [(0x1820000, 0x53)] } } : State).sec.stage = 3) ∧
    (({ State.reset with sec := { Sec.reset with stage := 3, flash := [(0x1820000, 0x53)] } } : State).plan.first = false) ∧
    (planFound ({ State.reset with sec := { Sec.reset with stage := 3, flash := [(0x1820000, 0x53)] } } : State) = true) := by
  refine ⟨?_, ?_, ?_, ?_⟩ <;> first | decide | rfl | (apply ok_of; decide +kernel)

theorem test_met_bootRomDone_3 :
    (Runs (State.reset : State)) := by
  first | decide | rfl | (apply ok_of; decide +kernel)

theorem test_met_bootLoadDone_2 :
    (Runs (loading : State)) := by
  first | decide | rfl | (apply ok_of; decide +kernel)

theorem test_met_bootInitDone_3 :
    (Runs (initing : State)) := by
  first | decide | rfl | (apply ok_of; decide +kernel)

/-! Hypotheses of AttestationIsAnswered are met. -/

theorem test_met_getVersion :
    (Runs ({ up with sec := { up.sec with spdmI3c := 3 } } : State)) := by
  first | decide | rfl | (apply ok_of; decide +kernel)

theorem test_met_getCapabilities :
    (Runs ({ up with sec := { up.sec with spdmI3c := 3 } } : State)) ∧
    (1 ≤ (if (.i3c : Spdm) = .doe then ({ up with sec := { up.sec with spdmI3c := 3 } } : State).sec.spdmDoe else ({ up with sec := { up.sec with spdmI3c := 3 } } : State).sec.spdmI3c)) := by
  refine ⟨?_, ?_⟩ <;> first | decide | rfl | (apply ok_of; decide +kernel)

theorem test_met_getCapabilities_2 :
    (Runs (up : State)) ∧ ((if (.doe : Spdm) = .doe then (up : State).sec.spdmDoe else (up : State).sec.spdmI3c) < 1) := by
  refine ⟨?_, ?_⟩ <;> first | decide | rfl | (apply ok_of; decide +kernel)

theorem test_met_negotiateAlgorithms :
    (Runs ({ up with sec := { up.sec with spdmI3c := 3 } } : State)) ∧
    (2 ≤ (if (.i3c : Spdm) = .doe then ({ up with sec := { up.sec with spdmI3c := 3 } } : State).sec.spdmDoe else ({ up with sec := { up.sec with spdmI3c := 3 } } : State).sec.spdmI3c)) := by
  refine ⟨?_, ?_⟩ <;> first | decide | rfl | (apply ok_of; decide +kernel)

theorem test_met_negotiateAlgorithms_2 :
    (Runs (up : State)) ∧ ((if (.doe : Spdm) = .doe then (up : State).sec.spdmDoe else (up : State).sec.spdmI3c) < 2) := by
  refine ⟨?_, ?_⟩ <;> first | decide | rfl | (apply ok_of; decide +kernel)

theorem test_met_getDigests :
    (Runs ({ up with sec := { up.sec with spdmI3c := 3 } } : State)) ∧
    (3 ≤ (if (.i3c : Spdm) = .doe then ({ up with sec := { up.sec with spdmI3c := 3 } } : State).sec.spdmDoe else ({ up with sec := { up.sec with spdmI3c := 3 } } : State).sec.spdmI3c)) := by
  refine ⟨?_, ?_⟩ <;> first | decide | rfl | (apply ok_of; decide +kernel)

theorem test_met_getDigests_2 :
    (Runs (up : State)) ∧ ((if (.doe : Spdm) = .doe then (up : State).sec.spdmDoe else (up : State).sec.spdmI3c) < 3) := by
  refine ⟨?_, ?_⟩ <;> first | decide | rfl | (apply ok_of; decide +kernel)

theorem test_met_getCertificate :
    (Runs ({ up with sec := { up.sec with spdmI3c := 3 } } : State)) ∧
    (3 ≤ (if (.i3c : Spdm) = .doe then ({ up with sec := { up.sec with spdmI3c := 3 } } : State).sec.spdmDoe else ({ up with sec := { up.sec with spdmI3c := 3 } } : State).sec.spdmI3c)) := by
  refine ⟨?_, ?_⟩ <;> first | decide | rfl | (apply ok_of; decide +kernel)

theorem test_met_getCertificate_2 :
    (Runs (up : State)) ∧ ((if (.doe : Spdm) = .doe then (up : State).sec.spdmDoe else (up : State).sec.spdmI3c) < 3) := by
  refine ⟨?_, ?_⟩ <;> first | decide | rfl | (apply ok_of; decide +kernel)

theorem test_met_challenge :
    (Runs ({ up with sec := { up.sec with spdmI3c := 3 } } : State)) ∧
    (3 ≤ (if (.i3c : Spdm) = .doe then ({ up with sec := { up.sec with spdmI3c := 3 } } : State).sec.spdmDoe else ({ up with sec := { up.sec with spdmI3c := 3 } } : State).sec.spdmI3c)) := by
  refine ⟨?_, ?_⟩ <;> first | decide | rfl | (apply ok_of; decide +kernel)

theorem test_met_challenge_2 :
    (Runs (up : State)) ∧ ((if (.doe : Spdm) = .doe then (up : State).sec.spdmDoe else (up : State).sec.spdmI3c) < 3) := by
  refine ⟨?_, ?_⟩ <;> first | decide | rfl | (apply ok_of; decide +kernel)

theorem test_met_getMeasurements :
    (Runs ({ up with sec := { up.sec with spdmI3c := 3 } } : State)) ∧
    (3 ≤ (if (.i3c : Spdm) = .doe then ({ up with sec := { up.sec with spdmI3c := 3 } } : State).sec.spdmDoe else ({ up with sec := { up.sec with spdmI3c := 3 } } : State).sec.spdmI3c)) := by
  refine ⟨?_, ?_⟩ <;> first | decide | rfl | (apply ok_of; decide +kernel)

theorem test_met_getMeasurements_2 :
    (Runs (up : State)) ∧ ((if (.doe : Spdm) = .doe then (up : State).sec.spdmDoe else (up : State).sec.spdmI3c) < 3) := by
  refine ⟨?_, ?_⟩ <;> first | decide | rfl | (apply ok_of; decide +kernel)

theorem test_met_i3cTelemetry :
    (Runs (up : State)) := by
  first | decide | rfl | (apply ok_of; decide +kernel)

theorem test_met_i3cResetArm :
    (Runs (up : State)) := by
  first | decide | rfl | (apply ok_of; decide +kernel)

/-! Hypotheses of FusesAreBurnt are met. -/

theorem test_met_secFuseSvn :
    (Serves (up : State)) ∧ ((0x30001 : Word) &&& 0xFFF0FF80 = 0) ∧ ((up : State).sec.burning = none) ∧ ((fld (0x30001 : Word) 19 16) ≤ 8) ∧
    (svnOf (up : State) (fld (0x30001 : Word) 19 16) < (fld (0x30001 : Word) 6 0)) ∧ ((fld (0x30001 : Word) 6 0) ≤ 64) ∧
    (aboveRunning (up : State) (fld (0x30001 : Word) 19 16) (fld (0x30001 : Word) 6 0) = false) := by
  refine ⟨?_, ?_, ?_, ?_, ?_, ?_, ?_⟩ <;> first | decide | rfl | (apply ok_of; decide +kernel)

theorem test_met_secFuseSvn_2 :
    (Serves (up : State)) ∧ ((0x90001 : Word) &&& 0xFFF0FF80 = 0) ∧
    ((up : State).sec.burning.isSome = true ∨ 8 < (fld (0x90001 : Word) 19 16) ∨ (fld (0x90001 : Word) 6 0) ≤ svnOf (up : State) (fld (0x90001 : Word) 19 16) ∨ 64 < (fld (0x90001 : Word) 6 0) ∨ aboveRunning (up : State) (fld (0x90001 : Word) 19 16) (fld (0x90001 : Word) 6 0) = true) := by
  refine ⟨?_, ?_, ?_⟩ <;> first | decide | rfl | (apply ok_of; decide +kernel)

theorem test_met_fuseOwnerProgram :
    (Serves (up : State)) ∧ ((up : State).sec.burning = none) ∧ ((3 : Nat) ≤ 3) ∧ (ownerProg (up : State) (3 : Nat) = false) := by
  refine ⟨?_, ?_, ?_, ?_⟩ <;> first | decide | rfl | (apply ok_of; decide +kernel)

theorem test_met_fuseOwnerProgram_2 :
    (Serves (up : State)) ∧ ((up : State).sec.burning.isSome = true ∨ 3 < (4 : Nat) ∨ ownerProg (up : State) (4 : Nat) = true) := by
  refine ⟨?_, ?_⟩ <;> first | decide | rfl | (apply ok_of; decide +kernel)

theorem test_met_fuseOwnerRevoke :
    (Serves (up : State)) ∧ ((up : State).sec.burning = none) ∧ ((3 : Nat) ≤ 3) := by
  refine ⟨?_, ?_, ?_⟩ <;> first | decide | rfl | (apply ok_of; decide +kernel)

theorem test_met_fuseOwnerRevoke_2 :
    (Serves (up : State)) ∧ ((up : State).sec.burning.isSome = true ∨ 3 < (4 : Nat)) := by
  refine ⟨?_, ?_⟩ <;> first | decide | rfl | (apply ok_of; decide +kernel)

theorem test_met_fuseBurnDone :
    (Runs ({ up with sec := { up.sec with burning := some (.svn 2 64) } } : State)) ∧
    (({ up with sec := { up.sec with burning := some (.svn 2 64) } } : State).sec.burning = some (.svn (2 : Nat) (64 : Nat))) := by
  refine ⟨?_, ?_⟩ <;> first | decide | rfl | (apply ok_of; decide +kernel)

theorem test_met_fuseBurnDone_2 :
    (Runs ({ up with sec := { up.sec with burning := some (.program 3 9) } } : State)) ∧
    (({ up with sec := { up.sec with burning := some (.program 3 9) } } : State).sec.burning = some (.program (3 : Nat) (9 : BitVec 384))) := by
  refine ⟨?_, ?_⟩ <;> first | decide | rfl | (apply ok_of; decide +kernel)

theorem test_met_fuseBurnDone_3 :
    (Runs ({ up with sec := { up.sec with burning := some (.revoke 3) } } : State)) ∧
    (({ up with sec := { up.sec with burning := some (.revoke 3) } } : State).sec.burning = some (.revoke (3 : Nat))) := by
  refine ⟨?_, ?_⟩ <;> first | decide | rfl | (apply ok_of; decide +kernel)

/-! Hypotheses of FlashIsWritten are met. -/

theorem test_met_flashErase :
    (Serves ({ up with sec := { up.sec with flashAddr := 0xF00000 } } : State)) ∧
    (flashOk ({ up with sec := { up.sec with flashAddr := 0xF00000 } } : State) ({ up with sec := { up.sec with flashAddr := 0xF00000 } } : State).sec.flashAddr.toNat 65536 true = true) ∧
    (({ up with sec := { up.sec with flashAddr := 0xF00000 } } : State).sec.flashAddr.toNat % 65536 = 0) := by
  refine ⟨?_, ?_, ?_⟩ <;> first | decide | rfl | (apply ok_of; decide +kernel)

theorem test_met_flashErase_2 :
    (Serves ({ up with sec := { up.sec with flashAddr := 0xF00001 } } : State)) ∧
    (({ up with sec := { up.sec with flashAddr := 0xF00001 } } : State).sec.flashAddr.toNat % 65536 ≠ 0) := by
  refine ⟨?_, ?_⟩ <;> first | decide | rfl | (apply ok_of; decide +kernel)

theorem test_met_flashProgram :
    (Serves ({ up with sec := { up.sec with flashAddr := 0xF00001, flashLen := 2 } } : State)) ∧
    (flashOk ({ up with sec := { up.sec with flashAddr := 0xF00001, flashLen := 2 } } : State) ({ up with sec := { up.sec with flashAddr := 0xF00001, flashLen := 2 } } : State).sec.flashAddr.toNat ({ up with sec := { up.sec with flashAddr := 0xF00001, flashLen := 2 } } : State).sec.flashLen.toNat true = true) ∧
    (([1, 2] : List Byte).length = ({ up with sec := { up.sec with flashAddr := 0xF00001, flashLen := 2 } } : State).sec.flashLen.toNat) := by
  refine ⟨?_, ?_, ?_⟩ <;> first | decide | rfl | (apply ok_of; decide +kernel)

theorem test_met_flashProgram_2 :
    (Serves ({ up with sec := { up.sec with flashAddr := 0xF00001, flashLen := 2 } } : State)) ∧
    (flashOk ({ up with sec := { up.sec with flashAddr := 0xF00001, flashLen := 2 } } : State) ({ up with sec := { up.sec with flashAddr := 0xF00001, flashLen := 2 } } : State).sec.flashAddr.toNat ({ up with sec := { up.sec with flashAddr := 0xF00001, flashLen := 2 } } : State).sec.flashLen.toNat true = true) := by
  refine ⟨?_, ?_⟩ <;> first | decide | rfl | (apply ok_of; decide +kernel)

theorem test_met_flashProgram_3 :
    (Serves (up : State)) ∧ (flashOk (up : State) (up : State).sec.flashAddr.toNat (up : State).sec.flashLen.toNat true = false) := by
  refine ⟨?_, ?_⟩ <;> first | decide | rfl | (apply ok_of; decide +kernel)

theorem test_met_flashOpDone :
    (Runs ({ up with sec := { up.sec with flashOp := some (.erase 9) } } : State)) ∧
    (({ up with sec := { up.sec with flashOp := some (.erase 9) } } : State).sec.flashOp = some (.erase (9 : Nat))) := by
  refine ⟨?_, ?_⟩ <;> first | decide | rfl | (apply ok_of; decide +kernel)

theorem test_met_flashOpDone_2 :
    (Runs ({ up with sec := { up.sec with flashOp := some (.program 9 [1]) } } : State)) ∧
    (({ up with sec := { up.sec with flashOp := some (.program 9 [1]) } } : State).sec.flashOp = some (.program (9 : Nat) ([1] : List Byte))) := by
  refine ⟨?_, ?_⟩ <;> first | decide | rfl | (apply ok_of; decide +kernel)

theorem test_met_flashOpDone_3 :
    (Runs ({ up with sec := { up.sec with flashOp := some (.erase 9) } } : State)) ∧
    (({ up with sec := { up.sec with flashOp := some (.erase 9) } } : State).sec.flashOp = some (.erase 9 : FlashOp)) := by
  refine ⟨?_, ?_⟩ <;> first | decide | rfl | (apply ok_of; decide +kernel)

/-! Hypotheses of RegistersAreAccessed are met. -/

theorem test_met_registerWrite :
    (Runs (up : State)) ∧ (spaceOn (up : State) ({ space := .pf, write := false, offset := 0xA0000, value := 0 } : Access).space = true) ∧
    (visible (up : State) ({ space := .pf, write := false, offset := 0xA0000, value := 0 } : Access) = true) ∧
    (({ space := .pf, write := false, offset := 0xA0000, value := 0 } : Access).offset % 4 = 0) ∧
    (readSpace (up : State) ({ space := .pf, write := false, offset := 0xA0000, value := 0 } : Access).space ({ space := .pf, write := false, offset := 0xA0000, value := 0 } : Access).offset = some (3 : Word)) ∧
    (({ space := .pf, write := false, offset := 0xA0000, value := 0 } : Access).write = false) ∧
    (claimTarget ({ space := .pf, write := false, offset := 0xA0000, value := 0 } : Access).space ({ space := .pf, write := false, offset := 0xA0000, value := 0 } : Access).offset = none) ∧
    (({ space := .pf, write := false, offset := 0xA0000, value := 0 } : Access).offset ≠ 0x30014) := by
  refine ⟨?_, ?_, ?_, ?_, ?_, ?_, ?_, ?_⟩ <;> first | decide | rfl | (apply ok_of; decide +kernel)

theorem test_met_registerWrite_2 :
    (Serves (up : State)) ∧ ((7 : Word) &&& 0xFFFFFFF8 = 0) := by
  refine ⟨?_, ?_⟩ <;> first | decide | rfl | (apply ok_of; decide +kernel)

theorem test_met_registerWrite_3 :
    (Serves (up : State)) ∧ ((8 : Word) &&& 0xFFFFFFF8 ≠ 0) := by
  refine ⟨?_, ?_⟩ <;> first | decide | rfl | (apply ok_of; decide +kernel)

theorem test_met_registerWrite_4 :
    (Runs (up : State)) ∧ (spaceOn (up : State) ({ space := .pf, write := true, offset := 0xA0000, value := 5 } : Access).space = true) ∧
    (visible (up : State) ({ space := .pf, write := true, offset := 0xA0000, value := 5 } : Access) = true) ∧
    (({ space := .pf, write := true, offset := 0xA0000, value := 5 } : Access).offset % 4 = 0) ∧
    (readSpace (up : State) ({ space := .pf, write := true, offset := 0xA0000, value := 5 } : Access).space ({ space := .pf, write := true, offset := 0xA0000, value := 5 } : Access).offset = some (3 : Word)) ∧
    (({ space := .pf, write := true, offset := 0xA0000, value := 5 } : Access).write = true) := by
  refine ⟨?_, ?_, ?_, ?_, ?_, ?_⟩ <;> first | decide | rfl | (apply ok_of; decide +kernel)

theorem test_met_registerWrite_5 :
    (Runs (up : State)) ∧ (spaceOn (up : State) ({ space := .pf, write := true, offset := 0xA0FF0, value := 5 } : Access).space = true) ∧
    (visible (up : State) ({ space := .pf, write := true, offset := 0xA0FF0, value := 5 } : Access) = true) ∧
    (({ space := .pf, write := true, offset := 0xA0FF0, value := 5 } : Access).offset % 4 = 0) ∧
    (readSpace (up : State) ({ space := .pf, write := true, offset := 0xA0FF0, value := 5 } : Access).space ({ space := .pf, write := true, offset := 0xA0FF0, value := 5 } : Access).offset = none) := by
  refine ⟨?_, ?_, ?_, ?_, ?_⟩ <;> first | decide | rfl | (apply ok_of; decide +kernel)

theorem test_met_registerWrite_6 :
    (Runs (up : State)) ∧ (spaceOn (up : State) ({ space := .pf, write := true, offset := 0xA0001, value := 5 } : Access).space = true) ∧
    (visible (up : State) ({ space := .pf, write := true, offset := 0xA0001, value := 5 } : Access) = true) ∧
    (({ space := .pf, write := true, offset := 0xA0001, value := 5 } : Access).offset % 4 ≠ 0) := by
  refine ⟨?_, ?_, ?_, ?_⟩ <;> first | decide | rfl | (apply ok_of; decide +kernel)

theorem test_met_registerWrite_7 :
    (Runs (State.reset : State)) ∧
    (spaceOn (State.reset : State) ({ space := .pf, write := false, offset := 0xA0000, value := 5 } : Access).space = true) ∧
    (visible (State.reset : State) ({ space := .pf, write := false, offset := 0xA0000, value := 5 } : Access) = false) := by
  refine ⟨?_, ?_, ?_⟩ <;> first | decide | rfl | (apply ok_of; decide +kernel)

theorem test_met_accessSizeError :
    (Runs (up : State)) ∧ (spaceOn (up : State) ({ space := .helm 3, write := false, offset := 0xA0000, value := 5 } : Access).space = true) ∧
    (visible (up : State) ({ space := .helm 3, write := false, offset := 0xA0000, value := 5 } : Access) = true) := by
  refine ⟨?_, ?_, ?_⟩ <;> first | decide | rfl | (apply ok_of; decide +kernel)

theorem test_met_unimplementedAccess :
    (Runs (up : State)) ∧ (spaceOn (up : State) ({ space := .helm 3, write := false, offset := 0xA0FF0, value := 5 } : Access).space = true) ∧
    (visible (up : State) ({ space := .helm 3, write := false, offset := 0xA0FF0, value := 5 } : Access) = true) ∧
    ((readSpace (up : State) ({ space := .helm 3, write := false, offset := 0xA0FF0, value := 5 } : Access).space ({ space := .helm 3, write := false, offset := 0xA0FF0, value := 5 } : Access).offset).isSome = false) := by
  refine ⟨?_, ?_, ?_, ?_⟩ <;> first | decide | rfl | (apply ok_of; decide +kernel)

theorem test_met_unimplementedAccess_2 :
    (Runs (up : State)) ∧ (spaceOn (up : State) ({ space := .pf, write := false, offset := 0xA0000, value := 5 } : Access).space = true) ∧
    (visible (up : State) ({ space := .pf, write := false, offset := 0xA0000, value := 5 } : Access) = true) ∧
    ((readSpace (up : State) ({ space := .pf, write := false, offset := 0xA0000, value := 5 } : Access).space ({ space := .pf, write := false, offset := 0xA0000, value := 5 } : Access).offset).isSome = true) := by
  refine ⟨?_, ?_, ?_, ?_⟩ <;> first | decide | rfl | (apply ok_of; decide +kernel)

/-! Hypotheses of GuardedWritesNeedTwo are met. -/

theorem test_met_guardedFirstWrite :
    (Runs (up : State)) ∧ ((4 : Nat) ≤ 4) ∧ (answers (up : State) = true) ∧ (guarded (0xC0008 : Nat) = true) ∧
    (look (up : State).regif.pending (4 : Nat) = none) := by
  refine ⟨?_, ?_, ?_, ?_, ?_⟩ <;> first | decide | rfl | (apply ok_of; decide +kernel)

theorem test_met_guardedFirstWrite_2 :
    (Runs ({ up with regif := { up.regif with pending := [(0, (0xC, 1))] } } : State)) ∧ ((0 : Nat) ≤ 4) ∧
    (answers ({ up with regif := { up.regif with pending := [(0, (0xC, 1))] } } : State) = true) ∧ (guarded (0xC0008 : Nat) = true) ∧
    (look ({ up with regif := { up.regif with pending := [(0, (0xC, 1))] } } : State).regif.pending (0 : Nat) = some ((0xC, 1) : Nat × Word)) := by
  refine ⟨?_, ?_, ?_, ?_, ?_⟩ <;> first | decide | rfl | (apply ok_of; decide +kernel)

theorem test_met_guardWindowWrite :
    (Runs (up : State)) ∧ ((4 : Nat) ≤ 4) ∧ (answers (up : State) = true) ∧ ((0xC0008 : Nat) < 0x400000) ∧
    (look (up : State).regif.pending (4 : Nat) = none) := by
  refine ⟨?_, ?_, ?_, ?_, ?_⟩ <;> first | decide | rfl | (apply ok_of; decide +kernel)

theorem test_met_guardWindowWrite_2 :
    (Runs ({ up with regif := { up.regif with pending := [(0, (0xC, 1))] } } : State)) ∧ ((0 : Nat) ≤ 4) ∧
    (answers ({ up with regif := { up.regif with pending := [(0, (0xC, 1))] } } : State) = true) ∧ ((0xC0008 : Nat) < 0x400000) ∧
    (look ({ up with regif := { up.regif with pending := [(0, (0xC, 1))] } } : State).regif.pending (0 : Nat) = some ((0xC : Nat), (1 : Word))) ∧
    ((0xC0008 : Nat) ≠ (0xC : Nat)) := by
  refine ⟨?_, ?_, ?_, ?_, ?_, ?_⟩ <;> first | decide | rfl | (apply ok_of; decide +kernel)

theorem test_met_guardWindowWrite_3 :
    (Runs ({ up with regif := { up.regif with pending := [(0, (0xC, 1))] } } : State)) ∧ ((0 : Nat) ≤ 4) ∧
    (answers ({ up with regif := { up.regif with pending := [(0, (0xC, 1))] } } : State) = true) ∧ ((0xC : Nat) < 0x400000) ∧
    (look ({ up with regif := { up.regif with pending := [(0, (0xC, 1))] } } : State).regif.pending (0 : Nat) = some ((0xC : Nat), (1 : Word))) ∧
    ((1 : Word) ≠ ~~~(1 : Word)) := by
  refine ⟨?_, ?_, ?_, ?_, ?_, ?_⟩ <;> first | decide | rfl | (apply ok_of; decide +kernel)

theorem test_met_guardWindowWrite_4 :
    (Serves ({ up with regif := { up.regif with pending := [(0, (0xC0008, 1))] } } : State)) ∧
    (look ({ up with regif := { up.regif with pending := [(0, (0xC0008, 1))] } } : State).regif.pending 0 = some (0xC0008, (1 : Word))) ∧
    ((1 : Word) &&& 0xFFFFFFFE = 0) ∧ (bit ({ up with regif := { up.regif with pending := [(0, (0xC0008, 1))] } } : State).tandem.ctrl 0 = false) := by
  refine ⟨?_, ?_, ?_, ?_⟩ <;> first | decide | rfl | (apply ok_of; decide +kernel)

theorem test_met_guardTimeout :
    (Runs ({ up with regif := { up.regif with pending := [(0, (0xC, 1))] } } : State)) ∧
    (look ({ up with regif := { up.regif with pending := [(0, (0xC, 1))] } } : State).regif.pending (0 : Nat) = some ((0xC, 1) : Nat × Word)) := by
  refine ⟨?_, ?_⟩ <;> first | decide | rfl | (apply ok_of; decide +kernel)

theorem test_met_guardTimeout_2 :
    (Runs (up : State)) ∧ (look (up : State).regif.pending (0 : Nat) = none) := by
  refine ⟨?_, ?_⟩ <;> first | decide | rfl | (apply ok_of; decide +kernel)

/-! Hypotheses of PairedCommandsAreForwarded are met. -/

theorem test_met_openSession_3 :
    (Takes ({ sx with sessions := [], dev := { up.dev with straps := 4 }, tandem := { up.tandem with state := 3 } } : State) ({ fn := 0, ring := 0, cid := 7, token := 0 } : Hdr)) ∧
    (openCode ({ sx with sessions := [], dev := { up.dev with straps := 4 }, tandem := { up.tandem with state := 3 } } : State) ({ fn := 0, ring := 0, cid := 7, token := 0 } : Hdr) ({ kind := 0, stream := { se.stream with flags := 2 }, fenceHint := 9, userTag := 0, pad := 0 } : OpenOps) = none) ∧
    (takeHandle ({ sx with sessions := [], dev := { up.dev with straps := 4 }, tandem := { up.tandem with state := 3 } } : State) = some (0 : Nat)) ∧
    (({ kind := 0, stream := { se.stream with flags := 2 }, fenceHint := 9, userTag := 0, pad := 0 } : OpenOps).stream.flags.testBit 1 = true) ∧
    (linkUp ({ sx with sessions := [], dev := { up.dev with straps := 4 }, tandem := { up.tandem with state := 3 } } : State) = true) := by
  refine ⟨?_, ?_, ?_, ?_, ?_⟩ <;> first | decide | rfl | (apply ok_of; decide +kernel)

theorem test_met_configureStream_3 :
    (Takes ({ sx with sessions := [(5, { se with tan := { se.tan with role := 1, live := true }, kind := 1 })], tandem := { up.tandem with state := 3 } } : State) ({ fn := 0, ring := 0, cid := 7, token := 5 } : Hdr)) ∧
    (tokenSession ({ sx with sessions := [(5, { se with tan := { se.tan with role := 1, live := true }, kind := 1 })], tandem := { up.tandem with state := 3 } } : State) ({ fn := 0, ring := 0, cid := 7, token := 5 } : Hdr).fn ({ fn := 0, ring := 0, cid := 7, token := 5 } : Hdr).token = some ((5 : Nat), ({ se with tan := { se.tan with role := 1, live := true }, kind := 1 } : Session))) ∧
    (({ se with tan := { se.tan with role := 1, live := true }, kind := 1 } : Session).tan.role = 1) ∧
    (shadowed ({ sx with sessions := [(5, { se with tan := { se.tan with role := 1, live := true }, kind := 1 })], tandem := { up.tandem with state := 3 } } : State) ({ se with tan := { se.tan with role := 1, live := true }, kind := 1 } : Session) = true) ∧
    (streamCode ({ sx with sessions := [(5, { se with tan := { se.tan with role := 1, live := true }, kind := 1 })], tandem := { up.tandem with state := 3 } } : State) ({ se with tan := { se.tan with role := 1, live := true }, kind := 1 } : Session) (se.stream : StreamOps) 0 = none) := by
  refine ⟨?_, ?_, ?_, ?_, ?_⟩ <;> first | decide | rfl | (apply ok_of; decide +kernel)

theorem test_met_configureRate_3 :
    (Takes ({ sx with sessions := [(5, { se with tan := { se.tan with role := 1, live := true } })], tandem := { up.tandem with state := 3 } } : State) ({ fn := 0, ring := 0, cid := 7, token := 5 } : Hdr)) ∧
    (tokenSession ({ sx with sessions := [(5, { se with tan := { se.tan with role := 1, live := true } })], tandem := { up.tandem with state := 3 } } : State) ({ fn := 0, ring := 0, cid := 7, token := 5 } : Hdr).fn ({ fn := 0, ring := 0, cid := 7, token := 5 } : Hdr).token = some ((5 : Nat), ({ se with tan := { se.tan with role := 1, live := true } } : Session))) ∧
    (({ se with tan := { se.tan with role := 1, live := true } } : Session).tan.role = 1) ∧
    (shadowed ({ sx with sessions := [(5, { se with tan := { se.tan with role := 1, live := true } })], tandem := { up.tandem with state := 3 } } : State) ({ se with tan := { se.tan with role := 1, live := true } } : Session) = true) ∧
    (rateCfgCode ({ sx with sessions := [(5, { se with tan := { se.tan with role := 1, live := true } })], tandem := { up.tandem with state := 3 } } : State) ({ se with tan := { se.tan with role := 1, live := true } } : Session) (openRateCfg 0 : RateOps) = none) := by
  refine ⟨?_, ?_, ?_, ?_, ?_⟩ <;> first | decide | rfl | (apply ok_of; decide +kernel)

theorem test_met_configureResilience_2 :
    (Takes ({ sx with sessions := [(5, { se with tan := { se.tan with role := 1, live := true } })], tandem := { up.tandem with state := 3 } } : State) ({ fn := 0, ring := 0, cid := 7, token := 5 } : Hdr)) ∧
    (tokenSession ({ sx with sessions := [(5, { se with tan := { se.tan with role := 1, live := true } })], tandem := { up.tandem with state := 3 } } : State) ({ fn := 0, ring := 0, cid := 7, token := 5 } : Hdr).fn ({ fn := 0, ring := 0, cid := 7, token := 5 } : Hdr).token = some ((5 : Nat), ({ se with tan := { se.tan with role := 1, live := true } } : Session))) ∧
    (({ se with tan := { se.tan with role := 1, live := true } } : Session).tan.role = 1) ∧
    (shadowed ({ sx with sessions := [(5, { se with tan := { se.tan with role := 1, live := true } })], tandem := { up.tandem with state := 3 } } : State) ({ se with tan := { se.tan with role := 1, live := true } } : Session) = true) ∧
    (resOk ({ se with tan := { se.tan with role := 1, live := true } } : Session) ({ ltrPeriod := 9, refreshFrames := 4, keyHold := 3, spectKeyInterval := 8, flags := 1, pad := 0 } : ResOps) = true) := by
  refine ⟨?_, ?_, ?_, ?_, ?_⟩ <;> first | decide | rfl | (apply ok_of; decide +kernel)

theorem test_met_configureHostTransport_2 :
    (Takes ({ sx with sessions := [(5, { se with tan := { se.tan with role := 1, live := true }, stream := { se.stream with flags := 4 } })], tandem := { up.tandem with state := 3 }, fns := [(0, { Fn.reset with cq := [(3, { CqRing.reset with en := true })] })] } : State) ({ fn := 0, ring := 0, cid := 7, token := 5 } : Hdr)) ∧
    (tokenSession ({ sx with sessions := [(5, { se with tan := { se.tan with role := 1, live := true }, stream := { se.stream with flags := 4 } })], tandem := { up.tandem with state := 3 }, fns := [(0, { Fn.reset with cq := [(3, { CqRing.reset with en := true })] })] } : State) ({ fn := 0, ring := 0, cid := 7, token := 5 } : Hdr).fn ({ fn := 0, ring := 0, cid := 7, token := 5 } : Hdr).token = some ((5 : Nat), ({ se with tan := { se.tan with role := 1, live := true }, stream := { se.stream with flags := 4 } } : Session))) ∧
    (({ se with tan := { se.tan with role := 1, live := true }, stream := { se.stream with flags := 4 } } : Session).tan.role = 1) ∧
    (shadowed ({ sx with sessions := [(5, { se with tan := { se.tan with role := 1, live := true }, stream := { se.stream with flags := 4 } })], tandem := { up.tandem with state := 3 }, fns := [(0, { Fn.reset with cq := [(3, { CqRing.reset with en := true })] })] } : State) ({ se with tan := { se.tan with role := 1, live := true }, stream := { se.stream with flags := 4 } } : Session) = true) ∧
    (hostCode ({ sx with sessions := [(5, { se with tan := { se.tan with role := 1, live := true }, stream := { se.stream with flags := 4 } })], tandem := { up.tandem with state := 3 }, fns := [(0, { Fn.reset with cq := [(3, { CqRing.reset with en := true })] })] } : State) ({ se with tan := { se.tan with role := 1, live := true }, stream := { se.stream with flags := 4 } } : Session) ({ fn := 0, ring := 0, cid := 7, token := 5 } : Hdr) ({ cq := 3, ringSize := 65536, ringAddr := 4096, pad := 0 } : HtOps) = none) := by
  refine ⟨?_, ?_, ?_, ?_, ?_⟩ <;> first | decide | rfl | (apply ok_of; decide +kernel)

theorem test_met_setRateBounds_3 :
    (Takes ({ sx with sessions := [(5, { se with tan := { se.tan with role := 1, live := true } })], tandem := { up.tandem with state := 3 } } : State) ({ fn := 0, ring := 0, cid := 7, token := 5 } : Hdr)) ∧
    (tokenSession ({ sx with sessions := [(5, { se with tan := { se.tan with role := 1, live := true } })], tandem := { up.tandem with state := 3 } } : State) ({ fn := 0, ring := 0, cid := 7, token := 5 } : Hdr).fn ({ fn := 0, ring := 0, cid := 7, token := 5 } : Hdr).token = some ((5 : Nat), ({ se with tan := { se.tan with role := 1, live := true } } : Session))) ∧
    (({ se with tan := { se.tan with role := 1, live := true } } : Session).tan.role = 1) ∧
    (shadowed ({ sx with sessions := [(5, { se with tan := { se.tan with role := 1, live := true } })], tandem := { up.tandem with state := 3 } } : State) ({ se with tan := { se.tan with role := 1, live := true } } : Session) = true) ∧
    (boundsCode ({ sx with sessions := [(5, { se with tan := { se.tan with role := 1, live := true } })], tandem := { up.tandem with state := 3 } } : State) ({ se with tan := { se.tan with role := 1, live := true } } : Session) ({ rateMin := 4000000, rateMax := 8000000, rateStart := 5000000, flags := 0, pad := 0 } : BoundsOps) = none) := by
  refine ⟨?_, ?_, ?_, ?_, ?_⟩ <;> first | decide | rfl | (apply ok_of; decide +kernel)

theorem test_met_park_2 :
    (Takes ({ sx with sessions := [(5, { se with tan := { se.tan with role := 1, live := true }, state := 2 })], tandem := { up.tandem with state := 3 } } : State) ({ fn := 0, ring := 0, cid := 7, token := 5 } : Hdr)) ∧
    (tokenSessionPf ({ sx with sessions := [(5, { se with tan := { se.tan with role := 1, live := true }, state := 2 })], tandem := { up.tandem with state := 3 } } : State) ({ fn := 0, ring := 0, cid := 7, token := 5 } : Hdr).fn ({ fn := 0, ring := 0, cid := 7, token := 5 } : Hdr).token = some ((5 : Nat), ({ se with tan := { se.tan with role := 1, live := true }, state := 2 } : Session))) ∧
    (({ se with tan := { se.tan with role := 1, live := true }, state := 2 } : Session).tan.role = 1) ∧
    (shadowed ({ sx with sessions := [(5, { se with tan := { se.tan with role := 1, live := true }, state := 2 })], tandem := { up.tandem with state := 3 } } : State) ({ se with tan := { se.tan with role := 1, live := true }, state := 2 } : Session) = true) ∧
    (parkCode ({ sx with sessions := [(5, { se with tan := { se.tan with role := 1, live := true }, state := 2 })], tandem := { up.tandem with state := 3 } } : State) (5 : Nat) ({ se with tan := { se.tan with role := 1, live := true }, state := 2 } : Session) false 0 = none) := by
  refine ⟨?_, ?_, ?_, ?_, ?_⟩ <;> first | decide | rfl | (apply ok_of; decide +kernel)

theorem test_met_parkCold_2 :
    (Takes ({ sx with sessions := [(5, { se with tan := { se.tan with role := 1, live := true }, state := 4 })], tandem := { up.tandem with state := 3 } } : State) ({ fn := 0, ring := 0, cid := 7, token := 5 } : Hdr)) ∧
    (tokenSessionPf ({ sx with sessions := [(5, { se with tan := { se.tan with role := 1, live := true }, state := 4 })], tandem := { up.tandem with state := 3 } } : State) ({ fn := 0, ring := 0, cid := 7, token := 5 } : Hdr).fn ({ fn := 0, ring := 0, cid := 7, token := 5 } : Hdr).token = some ((5 : Nat), ({ se with tan := { se.tan with role := 1, live := true }, state := 4 } : Session))) ∧
    (({ se with tan := { se.tan with role := 1, live := true }, state := 4 } : Session).tan.role = 1) ∧
    (shadowed ({ sx with sessions := [(5, { se with tan := { se.tan with role := 1, live := true }, state := 4 })], tandem := { up.tandem with state := 3 } } : State) ({ se with tan := { se.tan with role := 1, live := true }, state := 4 } : Session) = true) ∧
    (parkCode ({ sx with sessions := [(5, { se with tan := { se.tan with role := 1, live := true }, state := 4 })], tandem := { up.tandem with state := 3 } } : State) (5 : Nat) ({ se with tan := { se.tan with role := 1, live := true }, state := 4 } : Session) true 0 = none) := by
  refine ⟨?_, ?_, ?_, ?_, ?_⟩ <;> first | decide | rfl | (apply ok_of; decide +kernel)

theorem test_met_resume_2 :
    (Takes ({ sx with sessions := [(5, { se with tan := { se.tan with role := 1, live := true }, state := 4 })], tandem := { up.tandem with state := 3 } } : State) ({ fn := 0, ring := 0, cid := 7, token := 5 } : Hdr)) ∧
    (tokenSessionPf ({ sx with sessions := [(5, { se with tan := { se.tan with role := 1, live := true }, state := 4 })], tandem := { up.tandem with state := 3 } } : State) ({ fn := 0, ring := 0, cid := 7, token := 5 } : Hdr).fn ({ fn := 0, ring := 0, cid := 7, token := 5 } : Hdr).token = some ((5 : Nat), ({ se with tan := { se.tan with role := 1, live := true }, state := 4 } : Session))) ∧
    (({ se with tan := { se.tan with role := 1, live := true }, state := 4 } : Session).tan.role = 1) ∧
    (shadowed ({ sx with sessions := [(5, { se with tan := { se.tan with role := 1, live := true }, state := 4 })], tandem := { up.tandem with state := 3 } } : State) ({ se with tan := { se.tan with role := 1, live := true }, state := 4 } : Session) = true) ∧
    (resumeCode ({ sx with sessions := [(5, { se with tan := { se.tan with role := 1, live := true }, state := 4 })], tandem := { up.tandem with state := 3 } } : State) (5 : Nat) ({ se with tan := { se.tan with role := 1, live := true }, state := 4 } : Session) 0 = none) := by
  refine ⟨?_, ?_, ?_, ?_, ?_⟩ <;> first | decide | rfl | (apply ok_of; decide +kernel)

theorem test_met_close_2 :
    (Takes ({ sx with sessions := [(5, { se with tan := { se.tan with role := 1, live := true }, state := 2 })], tandem := { up.tandem with state := 3 } } : State) ({ fn := 0, ring := 0, cid := 7, token := 5 } : Hdr)) ∧
    (tokenSessionPf ({ sx with sessions := [(5, { se with tan := { se.tan with role := 1, live := true }, state := 2 })], tandem := { up.tandem with state := 3 } } : State) ({ fn := 0, ring := 0, cid := 7, token := 5 } : Hdr).fn ({ fn := 0, ring := 0, cid := 7, token := 5 } : Hdr).token = some ((5 : Nat), ({ se with tan := { se.tan with role := 1, live := true }, state := 2 } : Session))) ∧
    (({ se with tan := { se.tan with role := 1, live := true }, state := 2 } : Session).tan.role = 1) ∧
    (shadowed ({ sx with sessions := [(5, { se with tan := { se.tan with role := 1, live := true }, state := 2 })], tandem := { up.tandem with state := 3 } } : State) ({ se with tan := { se.tan with role := 1, live := true }, state := 2 } : Session) = true) ∧
    (closeCode ({ sx with sessions := [(5, { se with tan := { se.tan with role := 1, live := true }, state := 2 })], tandem := { up.tandem with state := 3 } } : State) (5 : Nat) ({ se with tan := { se.tan with role := 1, live := true }, state := 2 } : Session) 0 = none) := by
  refine ⟨?_, ?_, ?_, ?_, ?_⟩ <;> first | decide | rfl | (apply ok_of; decide +kernel)

theorem test_met_attachReceiver_3 :
    (Takes ({ ({ sg with net := { sg.net with ctrl := 1, ports := [(0, { NetPort.reset with cfg := 1, ipv4 := 1 })] }, sec := { sg.sec with keys := [(3, { kind := 1, ownerFn := 0, handle := some 5, len := 16, material := 9, salt := 8 })] } }) with sessions := [(5, { sf with tan := { se.tan with role := 1, live := true } })], tandem := { up.tandem with state := 3 } } : State) ({ fn := 0, ring := 0, cid := 7, token := 5 } : Hdr)) ∧
    (tokenSession ({ ({ sg with net := { sg.net with ctrl := 1, ports := [(0, { NetPort.reset with cfg := 1, ipv4 := 1 })] }, sec := { sg.sec with keys := [(3, { kind := 1, ownerFn := 0, handle := some 5, len := 16, material := 9, salt := 8 })] } }) with sessions := [(5, { sf with tan := { se.tan with role := 1, live := true } })], tandem := { up.tandem with state := 3 } } : State) ({ fn := 0, ring := 0, cid := 7, token := 5 } : Hdr).fn ({ fn := 0, ring := 0, cid := 7, token := 5 } : Hdr).token = some ((5 : Nat), ({ sf with tan := { se.tan with role := 1, live := true } } : Session))) ∧
    (({ sf with tan := { se.tan with role := 1, live := true } } : Session).tan.role = 1) ∧
    (shadowed ({ ({ sg with net := { sg.net with ctrl := 1, ports := [(0, { NetPort.reset with cfg := 1, ipv4 := 1 })] }, sec := { sg.sec with keys := [(3, { kind := 1, ownerFn := 0, handle := some 5, len := 16, material := 9, salt := 8 })] } }) with sessions := [(5, { sf with tan := { se.tan with role := 1, live := true } })], tandem := { up.tandem with state := 3 } } : State) ({ sf with tan := { se.tan with role := 1, live := true } } : Session) = true) ∧
    (attachCode ({ ({ sg with net := { sg.net with ctrl := 1, ports := [(0, { NetPort.reset with cfg := 1, ipv4 := 1 })] }, sec := { sg.sec with keys := [(3, { kind := 1, ownerFn := 0, handle := some 5, len := 16, material := 9, salt := 8 })] } }) with sessions := [(5, { sf with tan := { se.tan with role := 1, live := true } })], tandem := { up.tandem with state := 3 } } : State) ({ fn := 0, ring := 0, cid := 7, token := 5 } : Hdr).fn ({ sf with tan := { se.tan with role := 1, live := true } } : Session) ({ port := 0, flags := 0, cls := 0, rxq := 0, rxqEn := false, vlan := 0, localPort := 9, remoteIp := 0, remotePort := 9, nextHop := 0, keySlot := 3, suite := 1, pt := 96, mtu := 1280, weight := 1, deadline := 0, paceMax := 1, paceMin := 1, burst := 9, pacePct := 0, policeRate := 1, policeBurst := 1, pad := 0 } : AttachOps) = none) ∧
    (freeFlow ({ ({ sg with net := { sg.net with ctrl := 1, ports := [(0, { NetPort.reset with cfg := 1, ipv4 := 1 })] }, sec := { sg.sec with keys := [(3, { kind := 1, ownerFn := 0, handle := some 5, len := 16, material := 9, salt := 8 })] } }) with sessions := [(5, { sf with tan := { se.tan with role := 1, live := true } })], tandem := { up.tandem with state := 3 } } : State) = some (0 : Nat)) := by
  refine ⟨?_, ?_, ?_, ?_, ?_, ?_⟩ <;> first | decide | rfl | (apply ok_of; decide +kernel)

theorem test_met_detachReceiver_3 :
    (Hears ({ ({ sg with net := { sg.net with ctrl := 1, flows := [(2, { newFlow 0 { port := 0, flags := 0, cls := 0, rxq := 0, rxqEn := false, vlan := 0, localPort := 9, remoteIp := 0, remotePort := 9, nextHop := 0, keySlot := 3, suite := 1, pt := 96, mtu := 1280, weight := 1, deadline := 0, paceMax := 1, paceMin := 1, burst := 9, pacePct := 0, policeRate := 1, policeBurst := 1, pad := 0 } 5 0 with detach := none })] }, sec := { sg.sec with keys := [(3, { kind := 1, ownerFn := 0, handle := some 5, len := 16, material := 9, salt := 8 })] } }) with sessions := [(5, { sf with tan := { se.tan with role := 1, live := true } })], tandem := { up.tandem with state := 3 } } : State) ({ fn := 0, ring := 0, cid := 7, token := 0 } : Hdr)) ∧
    (bit ({ ({ sg with net := { sg.net with ctrl := 1, flows := [(2, { newFlow 0 { port := 0, flags := 0, cls := 0, rxq := 0, rxqEn := false, vlan := 0, localPort := 9, remoteIp := 0, remotePort := 9, nextHop := 0, keySlot := 3, suite := 1, pt := 96, mtu := 1280, weight := 1, deadline := 0, paceMax := 1, paceMin := 1, burst := 9, pacePct := 0, policeRate := 1, policeBurst := 1, pad := 0 } 5 0 with detach := none })] }, sec := { sg.sec with keys := [(3, { kind := 1, ownerFn := 0, handle := some 5, len := 16, material := 9, salt := 8 })] } }) with sessions := [(5, { sf with tan := { se.tan with role := 1, live := true } })], tandem := { up.tandem with state := 3 } } : State).net.ctrl 0 = true) ∧
    (({ fn := 0, ring := 0, cid := 7, token := 0 } : Hdr).token = 0) ∧
    (look ({ ({ sg with net := { sg.net with ctrl := 1, flows := [(2, { newFlow 0 { port := 0, flags := 0, cls := 0, rxq := 0, rxqEn := false, vlan := 0, localPort := 9, remoteIp := 0, remotePort := 9, nextHop := 0, keySlot := 3, suite := 1, pt := 96, mtu := 1280, weight := 1, deadline := 0, paceMax := 1, paceMin := 1, burst := 9, pacePct := 0, policeRate := 1, policeBurst := 1, pad := 0 } 5 0 with detach := none })] }, sec := { sg.sec with keys := [(3, { kind := 1, ownerFn := 0, handle := some 5, len := 16, material := 9, salt := 8 })] } }) with sessions := [(5, { sf with tan := { se.tan with role := 1, live := true } })], tandem := { up.tandem with state := 3 } } : State).net.flows (2 : Nat) = some ({ newFlow 0 { port := 0, flags := 0, cls := 0, rxq := 0, rxqEn := false, vlan := 0, localPort := 9, remoteIp := 0, remotePort := 9, nextHop := 0, keySlot := 3, suite := 1, pt := 96, mtu := 1280, weight := 1, deadline := 0, paceMax := 1, paceMin := 1, burst := 9, pacePct := 0, policeRate := 1, policeBurst := 1, pad := 0 } 5 0 with detach := none } : Flow)) ∧
    (({ newFlow 0 { port := 0, flags := 0, cls := 0, rxq := 0, rxqEn := false, vlan := 0, localPort := 9, remoteIp := 0, remotePort := 9, nextHop := 0, keySlot := 3, suite := 1, pt := 96, mtu := 1280, weight := 1, deadline := 0, paceMax := 1, paceMin := 1, burst := 9, pacePct := 0, policeRate := 1, policeBurst := 1, pad := 0 } 5 0 with detach := none } : Flow).fn = ({ fn := 0, ring := 0, cid := 7, token := 0 } : Hdr).fn ∨ ({ fn := 0, ring := 0, cid := 7, token := 0 } : Hdr).fn = 0) ∧
    (({ newFlow 0 { port := 0, flags := 0, cls := 0, rxq := 0, rxqEn := false, vlan := 0, localPort := 9, remoteIp := 0, remotePort := 9, nextHop := 0, keySlot := 3, suite := 1, pt := 96, mtu := 1280, weight := 1, deadline := 0, paceMax := 1, paceMin := 1, burst := 9, pacePct := 0, policeRate := 1, policeBurst := 1, pad := 0 } 5 0 with detach := none } : Flow).detach = none) ∧
    (({ newFlow 0 { port := 0, flags := 0, cls := 0, rxq := 0, rxqEn := false, vlan := 0, localPort := 9, remoteIp := 0, remotePort := 9, nextHop := 0, keySlot := 3, suite := 1, pt := 96, mtu := 1280, weight := 1, deadline := 0, paceMax := 1, paceMin := 1, burst := 9, pacePct := 0, policeRate := 1, policeBurst := 1, pad := 0 } 5 0 with detach := none } : Flow).kind = 0) ∧
    (({ newFlow 0 { port := 0, flags := 0, cls := 0, rxq := 0, rxqEn := false, vlan := 0, localPort := 9, remoteIp := 0, remotePort := 9, nextHop := 0, keySlot := 3, suite := 1, pt := 96, mtu := 1280, weight := 1, deadline := 0, paceMax := 1, paceMin := 1, burst := 9, pacePct := 0, policeRate := 1, policeBurst := 1, pad := 0 } 5 0 with detach := none } : Flow).session = some (5 : Nat)) ∧
    (look ({ ({ sg with net := { sg.net with ctrl := 1, flows := [(2, { newFlow 0 { port := 0, flags := 0, cls := 0, rxq := 0, rxqEn := false, vlan := 0, localPort := 9, remoteIp := 0, remotePort := 9, nextHop := 0, keySlot := 3, suite := 1, pt := 96, mtu := 1280, weight := 1, deadline := 0, paceMax := 1, paceMin := 1, burst := 9, pacePct := 0, policeRate := 1, policeBurst := 1, pad := 0 } 5 0 with detach := none })] }, sec := { sg.sec with keys := [(3, { kind := 1, ownerFn := 0, handle := some 5, len := 16, material := 9, salt := 8 })] } }) with sessions := [(5, { sf with tan := { se.tan with role := 1, live := true } })], tandem := { up.tandem with state := 3 } } : State).sessions (5 : Nat) = some ({ sf with tan := { se.tan with role := 1, live := true } } : Session)) ∧
    (({ sf with tan := { se.tan with role := 1, live := true } } : Session).tan.role = 1) ∧
    (shadowed ({ ({ sg with net := { sg.net with ctrl := 1, flows := [(2, { newFlow 0 { port := 0, flags := 0, cls := 0, rxq := 0, rxqEn := false, vlan := 0, localPort := 9, remoteIp := 0, remotePort := 9, nextHop := 0, keySlot := 3, suite := 1, pt := 96, mtu := 1280, weight := 1, deadline := 0, paceMax := 1, paceMin := 1, burst := 9, pacePct := 0, policeRate := 1, policeBurst := 1, pad := 0 } 5 0 with detach := none })] }, sec := { sg.sec with keys := [(3, { kind := 1, ownerFn := 0, handle := some 5, len := 16, material := 9, salt := 8 })] } }) with sessions := [(5, { sf with tan := { se.tan with role := 1, live := true } })], tandem := { up.tandem with state := 3 } } : State) ({ sf with tan := { se.tan with role := 1, live := true } } : Session) = true) := by
  refine ⟨?_, ?_, ?_, ?_, ?_, ?_, ?_, ?_, ?_, ?_, ?_⟩ <;> first | decide | rfl | (apply ok_of; decide +kernel)

/-! Hypotheses of Bar2ReadsAnswerZero are met. -/

theorem test_met_apertureRead :
    (Runs (sg : State)) := by
  first | decide | rfl | (apply ok_of; decide +kernel)

/-! Hypotheses of AccessesAreLogged are met. -/

theorem test_met_accessSizeError_2 :
    (Runs (up : State)) ∧ (spaceOn (up : State) ({ space := .helm 3, write := false, offset := 0xA0000, value := 5 } : Access).space = true) ∧
    (visible (up : State) ({ space := .helm 3, write := false, offset := 0xA0000, value := 5 } : Access) = true) := by
  refine ⟨?_, ?_, ?_⟩ <;> first | decide | rfl | (apply ok_of; decide +kernel)

theorem test_met_unimplementedAccess_3 :
    (Runs (up : State)) ∧ (spaceOn (up : State) ({ space := .helm 3, write := false, offset := 0xA0FF0, value := 5 } : Access).space = true) ∧
    (visible (up : State) ({ space := .helm 3, write := false, offset := 0xA0FF0, value := 5 } : Access) = true) ∧
    ((readSpace (up : State) ({ space := .helm 3, write := false, offset := 0xA0FF0, value := 5 } : Access).space ({ space := .helm 3, write := false, offset := 0xA0FF0, value := 5 } : Access).offset).isSome = false) := by
  refine ⟨?_, ?_, ?_, ?_⟩ <;> first | decide | rfl | (apply ok_of; decide +kernel)

/-! Hypotheses of ResetLeavesTheRegistersAsTheirTablesSay are met. -/

/-! Hypotheses of StepRunsTheFrontCommand are met. -/

/-! Hypotheses of EveryStepKeepsTheCellsCanonical are met. -/

/-! Hypotheses of FusesNeverGoBack are met. -/

/-! Hypotheses of OnlyNamedCommandsReachMemoryFlashAndFuses are met. -/

/-! Hypotheses of AStoppedDeviceDoesNothing are met. -/

/-! Hypotheses of OnlyRegisterWritesFault are met. -/

/-! Hypotheses of TheGuardedRegisters are met. -/

/-! Hypotheses of SessionCommandsWaitAndNeedAToken are met. -/

/-! Hypotheses of DramReadsBackWhatWasStored are met. -/

/-! Hypotheses of TheSafeStatePostsNothing are met. -/

/-- EveryStepKeepsTheCellsCanonical: a state with a command in front meets its hypotheses. -/
theorem test_met_EveryStepKeepsTheCellsCanonical : Inv { up with pending := [.apertureRead 3] } ∧
    step { up with pending := [.apertureRead 3] } = exec (.apertureRead 3) up ∧ StepSafe { up with pending := [.apertureRead 3] } := by
  refine ⟨⟨rfl, rfl⟩, rfl, ⟨_, rfl⟩⟩

/-- FusesNeverGoBack: a burn under way to a value above its counter. -/
theorem test_met_FusesNeverGoBack : BurnRises { up with pending := [.fuseBurnDone], sec := { up.sec with burning := some (.svn 2 5) } } ∧
    StepSafe { up with pending := [.fuseBurnDone], sec := { up.sec with burning := some (.svn 2 5) } } := by
  refine ⟨?_, ⟨_, rfl⟩⟩
  intro c v h
  simp only [Option.some.injEq, Burn.svn.injEq] at h
  obtain ⟨rfl, rfl⟩ := h
  decide

/-- OnlyNamedCommandsReachMemoryFlashAndFuses: a command that may not reset, and one of each kind its clauses leave out. -/
theorem test_met_OnlyNamedCommandsReachMemoryFlashAndFuses : mayReset .guardOpen = false ∧ storesDram .guardOpen = false ∧ (∃ t, exec .guardOpen up = .next t) ∧
    storesDram (.apertureRead 0) = false ∧ storesDram .fenceCut = true ∧ mayReset .devReset = true := by
  refine ⟨rfl, rfl, ⟨_, rfl⟩, rfl, rfl, rfl⟩

/-- AStoppedDeviceDoesNothing: a stopped device, and one in reset. -/
theorem test_met_AStoppedDeviceDoesNothing : { up with dev := { up.dev with stopped := true } }.dev.stopped = true ∧
    { up with dev := { up.dev with perstN := false } }.dev.perstN = false ∧
    exec (.apertureRead 3) { up with dev := { up.dev with stopped := true } } = .next { up with dev := { up.dev with stopped := true } } := by
  refine ⟨rfl, rfl, rfl⟩

/-- OnlyRegisterWritesFault: a write that changes a reserved bit, and a command that is no register write. -/
theorem test_met_OnlyRegisterWritesFault : exec (.schedBellCfgWrite 0x80) up = .fault .reservedBitWritten ∧ writesRegister (.schedBellCfgWrite 0x80) = true ∧
    writesRegister .fenceCut = false := by
  refine ⟨rfl, rfl, rfl⟩

/-- TheGuardedRegisters: the first and the last of its ranges, and the offset past them. -/
theorem test_met_TheGuardedRegisters : guarded 0xF020 = true ∧ guarded 0x2FF020 = true ∧ guarded 0x30F020 = false ∧ guarded 0x20000C = true ∧
    guarded 0x2F000C = true ∧ guarded 0x30000C = false ∧ guarded 0x1F000C = false := by decide

/-- SessionCommandsWaitAndNeedAToken: each of its clauses met by one command. -/
theorem test_met_SessionCommandsWaitAndNeedAToken :
    sessionHdr (.park { fn := 0, ring := 0, cid := 7, token := 9 } 0) = some ({ fn := 0, ring := 0, cid := 7, token := 9 }, 4) ∧
    needsToken (.park { fn := 0, ring := 0, cid := 7, token := 9 } 0) = true ∧
    Hears { sx with bell := { sx.bell with window := .guard } } { fn := 0, ring := 0, cid := 7, token := 9 } ∧
    (Hears up { fn := 0, ring := 0, cid := 7, token := 9 } ∧ up.bell.window ≠ .guard ∧ up.sess.en = false) ∧
    fnOn up 7 = false ∧
    (Takes sx { fn := 0, ring := 0, cid := 7, token := 9 } ∧ tokenSessionPf sx 0 9 = none) := by decide

/-- DramReadsBackWhatWasStored: a canonical DRAM and two bytes. -/
theorem test_met_DramReadsBackWhatWasStored : Memory.wf up.mem = true ∧ ([7, 8] : List Byte)[1]? = some 8 := by decide

/-- TheSafeStatePostsNothing: a device in its safe state. -/
theorem test_met_TheSafeStatePostsNothing : { up with dev := { up.dev with safe := true } }.dev.safe = true := rfl

/-- StepRunsTheFrontCommand: a queue with a command, an empty one after the fence cut, and an empty one at reset. -/
theorem test_met_StepRunsTheFrontCommand : { up with pending := [.fenceCut] }.pending = [.fenceCut] ∧ State.reset.pending = [] ∧
    (Runs up ∧ up.pending = [] ∧ { up.bell with cut := true, window := .dispatch }.cut = true) ∧ State.reset.bell.cut = false := by
  refine ⟨rfl, rfl, ⟨by decide, rfl, rfl⟩, by decide⟩

/-! Each range check of WellFormed refuses a command outside it (and the ranges' last members pass). -/

theorem test_wf_chan : (Instr.refreshInterval 12).wf = false ∧ (Instr.refreshInterval 11).wf = true := by decide
theorem test_wf_core : (Instr.helmHeartbeatTimeout 4).wf = false ∧ (Instr.helmHeartbeatTimeout 3).wf = true := by decide
theorem test_wf_blvd : (Instr.boulevardRequest { req := 0x21B, mark := 0, op := .dramRead 0 .clean false false false }).wf = false := by decide
theorem test_wf_quarter : (Instr.qtrEnable 16).wf = false ∧ (Instr.qtrEnable 15).wf = true := by decide
theorem test_wf_fn : (Instr.park { fn := 256, ring := 0, cid := 0, token := 0 } 0).wf = false := by decide
theorem test_wf_ring : (Instr.park { fn := 255, ring := 8, cid := 0, token := 0 } 0).wf = false ∧ (Instr.park { fn := 255, ring := 7, cid := 0, token := 0 } 0).wf = true := by decide
theorem test_wf_handle : (Instr.bandDone 200000).wf = false ∧ (Instr.bandDone 199999).wf = true := by decide
theorem test_wf_engine : (Instr.engineGate 512).wf = false ∧ (Instr.engineGate 511).wf = true := by decide
theorem test_wf_dma : (Instr.dmaRetry 64).wf = false ∧ (Instr.dmaRetry 63).wf = true := by decide
theorem test_wf_port : (Instr.portTxSelect 2).wf = false ∧ (Instr.portTxSelect 1).wf = true := by decide
theorem test_wf_watch : (Instr.watchStatusWrite 48 0).wf = false ∧ (Instr.watchStatusWrite 47 0).wf = true := by decide
theorem test_wf_sensor : (Instr.thermtrip 32).wf = false ∧ (Instr.thermtrip 31).wf = true := by decide
theorem test_wf_target : (Instr.irqClaim 0x5000).wf = false ∧ (Instr.irqClaim 0x804).wf = false ∧ (Instr.irqClaim 0x4FFF).wf = true := by decide
theorem test_wf_vec : (Instr.msixMaskWrite 1 64 true).wf = false ∧ (Instr.msixMaskWrite 0 2047 true).wf = true := by decide
theorem test_wf_cls : (Instr.poolFnQuotaWrite 0 5 0).wf = false ∧ (Instr.poolFnQuotaWrite 0 4 0).wf = true := by decide
theorem test_wf_req : (Instr.guardTimeout 5).wf = false ∧ (Instr.guardTimeout 4).wf = true := by decide
theorem test_wf_straps : (Instr.perstRise 65536).wf = false ∧ (Instr.perstRise 65535).wf = true := by decide
theorem test_wf_queue : (Instr.flushEnd 0x12000).wf = false ∧ (Instr.flushEnd 0x11FFF).wf = true := by decide
theorem test_wf_access : (Instr.accessSizeError { space := .vf 0, write := false, offset := 0, value := 0 }).wf = false ∧
    (Instr.accessSizeError { space := .helm 4, write := false, offset := 0, value := 0 }).wf = false := by decide
theorem test_wf_fence : (Instr.rowFence { fn := 0, index := 4096, value := 0, ok8 := true, rid := 0 }).wf = false := by decide
theorem test_wf_aperture : (Instr.apertureWrite { page := 0, off := 4095, rid := 0, bytes := [1, 2] }).wf = false := by decide
theorem test_wf_unit : (Instr.workUnitStart { quarter := 1, engine := 31, handle := 0, frame := 0, band := 0, branch := 0, col := 0, block := 0, stage := 0 }).wf = false := by decide
theorem test_wf_tile : (Instr.tileRowCoded { handle := 0, frame := 0, band := 0, branch := 2, col := 0 } { bytes := [], fbBlocks := 0, state := [] }).wf = false := by decide
theorem test_wf_open : (Instr.openSession { fn := 0, ring := 0, cid := 0, token := 0 } { kind := 256, stream := se.stream, fenceHint := 0, userTag := 0, pad := 0 }).wf = false := by decide
theorem test_wf_stream : (Instr.configureStream { fn := 0, ring := 0, cid := 0, token := 0 } { se.stream with width := 65536 } 0).wf = false := by decide
theorem test_wf_bounds : (Instr.setRateBounds { fn := 0, ring := 0, cid := 0, token := 0 } { rateMin := 0, rateMax := 0, rateStart := 0, flags := 256, pad := 0 }).wf = false := by decide
theorem test_wf_rate : (Instr.configureRate { fn := 0, ring := 0, cid := 0, token := 0 } { openRateCfg 0 with qpMax := 256 }).wf = false := by decide
theorem test_wf_res : (Instr.configureResilience { fn := 0, ring := 0, cid := 0, token := 0 } { ltrPeriod := 9, refreshFrames := 4, keyHold := 3, spectKeyInterval := 65536, flags := 1, pad := 0 }).wf = false := by decide
theorem test_wf_host : (Instr.configureHostTransport { fn := 0, ring := 0, cid := 0, token := 0 } { cq := 256, ringSize := 65536, ringAddr := 4096, pad := 0 }).wf = false := by decide
theorem test_wf_submit : (Instr.submitFrameHost { fn := 0, ring := 0, cid := 0, token := 0 } { op with surfaces := 256 }).wf = false := by decide
theorem test_wf_kind : (Instr.watchEvent 0 16 0 false 0).wf = false := by decide
theorem test_wf_poolReq : (Instr.allocate { req := 0, mark := 0 } { kind := 5, index := 0 } 0 false).wf = false := by decide

/-- The table gives no row bits, so no word spells a command (log entry 25). -/
theorem test_decode_none : decodeTableWord 32 5 = none := by decide

end Sys2Proof
end

section
/-! Register accesses: what REGISTER_WRITE, ACCESS_SIZE_ERROR and UNIMPLEMENTED_ACCESS answer, case by case (R558 to R563), and the statement on
them. -/

namespace Sys2Proof.Machine
open Sys2Proof

/-! The arms of the three commands. -/

theorem exec_registerWrite (a : Access) (s : State) : exec (.registerWrite a) s = execRegisterWrite a s := rfl
theorem exec_accessSizeError (a : Access) (s : State) : exec (.accessSizeError a) s = execAccessSizeError a s := rfl
theorem exec_unimplementedAccess (a : Access) (s : State) : exec (.unimplementedAccess a) s = execUnimplementedAccess a s := rfl

/-- Waking for an access sends nothing out (R525). -/
@[simp] theorem wakeBy_out (sp : Space) (s : State) : (wakeBy sp s).out = s.out := by
  cases sp <;> simp [wakeBy]

/-- From stage LOAD on every window is seen (R543). -/
theorem visible_of_answers {s : State} (a : Access) (h : answers s = true) : visible s a = true := by
  simp [visible, h]

/-- A plain read returns the register's value and does nothing else (R5, R565). -/
theorem readEffect_of_plain {a : Access} (w : Word) (s : State) (hc : claimTarget a.space a.offset = none) (ht : a.offset ≠ 0x30014) :
    readEffect a w s = emit (.readData w) s := by
  unfold readEffect
  rw [hc]
  cases a.space <;> simp [ht]

section
variable {s : State} {a : Access}

/-! An access that is served either reaches its window or finds it hidden (R543, R544). -/

theorem onAccess_of_visible (f : State → Res) (hr : Runs s) (hon : spaceOn s a.space = true) (hv : visible s a = true) :
    onAccess a s f = f s := by
  obtain ⟨hstop, hperst⟩ := hr
  simp [onAccess, hstop, hperst, hon, hv]

theorem onAccess_of_hidden (f : State → Res) (hr : Runs s) (hon : spaceOn s a.space = true) (hv : visible s a = false) :
    onAccess a s f = .next (readsAs a 0 (wakeBy a.space s)) := by
  obtain ⟨hstop, hperst⟩ := hr
  simp [onAccess, hstop, hperst, hon, hv]

/-! REGISTER_WRITE: misaligned, unimplemented, a read or a write. -/

theorem execRegisterWrite_of_hidden (hr : Runs s) (hon : spaceOn s a.space = true) (hv : visible s a = false) :
    execRegisterWrite a s = .next (readsAs a 0 (wakeBy a.space s)) :=
  onAccess_of_hidden _ hr hon hv

theorem execRegisterWrite_of_misaligned (hr : Runs s) (hon : spaceOn s a.space = true) (hv : visible s a = true) (hal : a.offset % 4 ≠ 0) :
    execRegisterWrite a s = .next (readsAs a 0 (logAccess 0x0B03 a (wakeBy a.space s))) := by
  rw [execRegisterWrite, onAccess_of_visible _ hr hon hv, if_pos hal]

theorem execRegisterWrite_of_unimplemented (hr : Runs s) (hon : spaceOn s a.space = true) (hv : visible s a = true) (hal : a.offset % 4 = 0)
    (hreg : readSpace s a.space a.offset = none) :
    execRegisterWrite a s = .next (readsAs a 0 (logAccess 0x0B02 a (wakeBy a.space s))) := by
  rw [execRegisterWrite, onAccess_of_visible _ hr hon hv, if_neg (not_not_intro hal), hreg]

theorem execRegisterWrite_of_read {w : Word} (hr : Runs s) (hon : spaceOn s a.space = true) (hv : visible s a = true) (hal : a.offset % 4 = 0)
    (hreg : readSpace s a.space a.offset = some w) (hdir : a.write = false) :
    execRegisterWrite a s = .next (readEffect a w (wakeBy a.space s)) := by
  simp [execRegisterWrite, onAccess_of_visible _ hr hon hv, hal, hreg, hdir]

theorem execRegisterWrite_of_write {w : Word} (hr : Runs s) (hon : spaceOn s a.space = true) (hv : visible s a = true) (hal : a.offset % 4 = 0)
    (hreg : readSpace s a.space a.offset = some w) (hdir : a.write = true) :
    execRegisterWrite a s = writeSpace a s := by
  simp [execRegisterWrite, onAccess_of_visible _ hr hon hv, hal, hreg, hdir]

/-! ACCESS_SIZE_ERROR and UNIMPLEMENTED_ACCESS. -/

theorem execAccessSizeError_of_visible (hr : Runs s) (hon : spaceOn s a.space = true) (hv : visible s a = true) :
    execAccessSizeError a s = .next (readsAs a 0 (logAccess 0x0B03 a (wakeBy a.space s))) :=
  onAccess_of_visible _ hr hon hv

theorem execUnimplementedAccess_of_unimplemented (hr : Runs s) (hon : spaceOn s a.space = true) (hv : visible s a = true)
    (hreg : (readSpace s a.space a.offset).isSome = false) :
    execUnimplementedAccess a s = .next (readsAs a 0 (logAccess 0x0B02 a (wakeBy a.space s))) := by
  rw [execUnimplementedAccess, onAccess_of_visible _ hr hon hv, hreg, if_neg Bool.false_ne_true]

theorem execUnimplementedAccess_of_register (hr : Runs s) (hon : spaceOn s a.space = true) (hv : visible s a = true)
    (hreg : (readSpace s a.space a.offset).isSome = true) :
    execUnimplementedAccess a s = .next s := by
  rw [execUnimplementedAccess, onAccess_of_visible _ hr hon hv, if_pos hreg]

/-! A write of a block's register (R562): accepted when no reserved bit changes. -/

theorem blockWrite_of_accepted {resv v : Word} (f : State → State) (hs : Serves s) (hv : v &&& resv = 0) :
    blockWrite resv v s f = .next (f (wake s)) := by
  obtain ⟨⟨hstop, hperst⟩, hans⟩ := hs
  simp [blockWrite, regWrite, hstop, hperst, hv, hans]

theorem blockWrite_of_reserved {resv v : Word} (f : State → State) (hr : Runs s) (hv : v &&& resv ≠ 0) :
    blockWrite resv v s f = .fault .reservedBitWritten := by
  obtain ⟨hstop, hperst⟩ := hr
  rw [blockWrite, regWrite, hstop, hperst, if_neg (by decide), if_pos hv]

end

/-! The register at 0xA0000 of PF BAR0: the DMA retry limit (R403). -/

theorem readSpace_retryLimit (s : State) : readSpace s .pf 0xA0000 = some s.dma.retryLimit := by
  simp [readSpace, readPf, readBlock, readDma]

theorem writePf_retryLimit (req : Nat) (v : Word) (s : State) :
    writePf req 0xA0000 v s = blockWrite 0xFFFFFFF8 v s (fun s => { s with dma := { s.dma with retryLimit := v } }) := by
  have hfree : guarded 0xA0000 = false := by decide
  calc writePf req 0xA0000 v s = writeBlock 10 0 v s := by simp [writePf, hfree]
    _ = blockWrite 0xFFFFFFF8 v s (fun s => { s with dma := { s.dma with retryLimit := v } }) := rfl

theorem execRegisterWrite_retryLimit (v : Word) {s : State} (hs : Serves s) :
    execRegisterWrite { space := .pf, write := true, offset := 0xA0000, value := v } s
      = blockWrite 0xFFFFFFF8 v s (fun s => { s with dma := { s.dma with retryLimit := v } }) := by
  have hal : 0xA0000 % 4 = 0 := by decide
  rw [execRegisterWrite_of_write hs.1 rfl (visible_of_answers _ hs.2) hal (readSpace_retryLimit s) rfl, writeSpace, writePf_retryLimit]

/-- Settles O45: each clause is one case of the meaning of the access, and the two clauses of the retry limit are the accepted and the faulting
write of its block. -/
theorem registersAreAccessed : Obligations.RegistersAreAccessed := by
  unfold Obligations.RegistersAreAccessed
  simp only [exec_registerWrite, exec_accessSizeError, exec_unimplementedAccess]
  refine ⟨?read, ?retryTaken, ?retryFault, ?write, ?unimplemented, ?misaligned, ?hidden, ?wrongSize, ?noRegister, ?register⟩
  case read =>
    intro a w s hr hon hv hal hreg hdir hclaim htime
    rw [execRegisterWrite_of_read hr hon hv hal hreg hdir, readEffect_of_plain w _ hclaim htime, emit, wakeBy_out]
  case retryTaken =>
    intro v s hs hv
    rw [execRegisterWrite_retryLimit v hs, blockWrite_of_accepted _ hs hv, wake_dma]
  case retryFault =>
    intro v s hs hv
    rw [execRegisterWrite_retryLimit v hs, blockWrite_of_reserved _ hs.1 hv]
  case write => exact fun a w s => execRegisterWrite_of_write
  case unimplemented => exact fun a s => execRegisterWrite_of_unimplemented
  case misaligned => exact fun a s => execRegisterWrite_of_misaligned
  case hidden => exact fun a s => execRegisterWrite_of_hidden
  case wrongSize => exact fun a s => execAccessSizeError_of_visible
  case noRegister => exact fun a s => execUnimplementedAccess_of_unimplemented
  case register => exact fun a s => execUnimplementedAccess_of_register

end Sys2Proof.Machine
end

section
/-! What a command of a running part answers: the state that its meaning gives. -/

namespace Sys2Proof.Machine
open Sys2Proof

section
variable {s : State}

theorem live_of_runs (f : State → State) (hr : Runs s) : live s f = .next (f s) := by
  obtain ⟨hstop, hperst⟩ := hr
  simp [live, hstop, hperst]

theorem onSession_of_look {n : Nat} {x : Session} (f : Session → State → State) (hr : Runs s) (hx : look s.sessions n = some x) :
    onSession n s f = .next (f x s) := by
  simp [onSession, live_of_runs _ hr, hx]

end

end Sys2Proof.Machine
end

section
/-! The registers after reset, and the statement on them (R569 and the register tables that it gathers). -/

namespace Sys2Proof.Machine
open Sys2Proof

/-- Where no burn is under way no burn lowers a counter (R557). -/
theorem burnRises_of_idle {s : State} (h : s.sec.burning = none) : BurnRises s := by
  intro c v hb
  rw [h] at hb
  cases hb

/-- Settles O50: the reset state is closed, so each register's value is computed and compared with its table's. -/
theorem resetLeavesTheRegistersAsTheirTablesSay : Obligations.ResetLeavesTheRegistersAsTheirTablesSay := by
  unfold Obligations.ResetLeavesTheRegistersAsTheirTablesSay
  refine ⟨rfl, ⟨rfl, rfl⟩, burnRises_of_idle rfl, ?nonzero, ?zero⟩
  case nonzero => decide +kernel
  case zero => decide +kernel

end Sys2Proof.Machine
end

section
/-! Boulevard requests: what a line's write does to memory, what a Quarter answers a request about a session, and the statement on them (R7, R8, R63
to R65). -/

namespace Sys2Proof.Machine
open Sys2Proof

theorem exec_boulevardRequest (r : BlvdReq) (s : State) : exec (.boulevardRequest r) s = live s (boulevard r) := rfl
theorem exec_requestRetryTimeout (r : BlvdReq) (s : State) : exec (.requestRetryTimeout r) s = live s (boulevard r) := rfl
theorem exec_detourReissue (r : BlvdReq) (s : State) : exec (.detourReissue r) s = execDetourReissue r s := rfl
theorem exec_drainedReplySink (q : Nat) (m : DWord) (s : State) : exec (.drainedReplySink q m) s = execDrainedReplySink q m s := rfl

/-! DRAM requests. -/

/-- Of memory a line's write changes the bytes it names alone, whatever ECC event or activation comes with it (R325, R333). -/
theorem writeLine_mem (req : ReqId) (a : Nat) (bs : List Byte) (ecc : Ecc) (act early raa : Bool) (s : State) :
    (writeLine req a bs ecc act early raa s).mem = wrCells memDefault s.mem a bs := by
  unfold writeLine
  dsimp only
  generalize hu : (if act = true then activate req a early raa s else s) = u
  have hmem : u.mem = s.mem := by
    rw [← hu]
    exact (of_core (by simp)).1
  split
  · rw [writeMem_mem, ← hmem]
  · rw [writeMem_mem, ← hmem]
    congr 1
    refine (of_core ?_).1
    split
    · rfl
    · split <;> simp

/-- A line's write reaches neither the flash nor the Bell number. -/
theorem writeLine_flash_num (req : ReqId) (a : Nat) (bs : List Byte) (ecc : Ecc) (act early raa : Bool) (s : State) :
    (writeLine req a bs ecc act early raa s).sec.flash = s.sec.flash ∧ (writeLine req a bs ecc act early raa s).bell.num = s.bell.num := by
  obtain ⟨-, hnum, -, -, -, hflash, -⟩ := (writeLine_om req a bs ecc act early raa s (OM.refl (kept s))).fields
  exact ⟨hflash, hnum⟩

section
variable {r : BlvdReq} {s : State} {a : Nat} (hup : chanUp s (locOf s a).ch = true) (hcap : a < capacity s)
include hup hcap

/-- A read of a line without an ECC event is answered and changes nothing (R8). -/
theorem boulevard_of_read {early raa : Bool} (hop : r.op = .dramRead a .clean false early raa) :
    boulevard r s = emit (.line r.req r.mark (rdCells memDefault s.mem (a / 64 * 64) 64) (has s.memc.poison (a / 64))) s := by
  simp only [boulevard, hop, hcap, hup, and_self, if_true, readLine, Bool.false_eq_true, if_false]
  cases has s.memc.poison (a / 64) <;> rfl

theorem boulevard_of_write {bs : List Byte} {ecc : Ecc} {act early raa : Bool} (hop : r.op = .dramWrite a bs ecc act early raa)
    (hlen : a % 64 + bs.length ≤ 64) : boulevard r s = emit (.ack r.req r.mark) (writeLine r.req a bs ecc act early raa s) := by
  simp only [boulevard, hop, hcap, hup, hlen, and_self, if_true]

/-- A write acknowledges last, and stores the bytes that it names (R8). -/
theorem boulevard_write_stores {bs : List Byte} {ecc : Ecc} {act early raa : Bool} (hop : r.op = .dramWrite a bs ecc act early raa)
    (hlen : a % 64 + bs.length ≤ 64) : (boulevard r s).out.getLast? = some (.ack r.req r.mark) ∧
    (boulevard r s).mem = wrCells memDefault s.mem a bs ∧ (boulevard r s).sec.flash = s.sec.flash ∧ (boulevard r s).bell.num = s.bell.num := by
  obtain ⟨hflash, hnum⟩ := writeLine_flash_num r.req a bs ecc act early raa s
  rw [boulevard_of_write hup hcap hop hlen]
  exact ⟨by simp, writeLine_mem .., hflash, hnum⟩

end

/-! Requests about a session. -/

section
variable {r : BlvdReq} {s : State} {q n : Nat} {newWork changes : Bool} {x : Session} (hx : look s.sessions n = some x)
include hx

/-- A Quarter that drains, tests or loads sends new work and other Quarters' sessions away (R63). -/
theorem sessionRequest_of_detour (hlo : 3 ≤ (qtrOf s q).state) (hhi : (qtrOf s q).state ≤ 6) (haway : newWork = true ∨ planQuarter x ≠ q) :
    sessionRequest r q n newWork changes s = emit (.detour r.req r.mark) (setQtr s q (fun t => { t with detours := up t.detours 1 })) := by
  simp only [sessionRequest, hx, hlo, hhi, haway.symm, and_self, if_true]

/-- A change that is new to the session in SERVICE is noted and acknowledged (R64). -/
theorem sessionRequest_of_change (hst : (qtrOf s q).state = 1) (hnew : (r.req, r.mark) ∉ x.applied) :
    sessionRequest r q n newWork true s
      = emit (.ack r.req r.mark) (setSess s n (fun x => { x with applied := ((r.req, r.mark) :: x.applied).take 16 })) := by
  simp [sessionRequest, hx, hst, hnew]

/-- What the session has applied is acknowledged again and not applied (R64). -/
theorem sessionRequest_of_applied (hst : (qtrOf s q).state = 1) (hold : (r.req, r.mark) ∈ x.applied) :
    sessionRequest r q n newWork changes s = emit (.ack r.req r.mark) s := by
  simp [sessionRequest, hx, hst, hold]

/-- A reissue after a Detour goes to the Quarter that the session is placed on now (R63). -/
theorem execDetourReissue_of_session (hr : Runs s) (hop : r.op = .session q n newWork changes) :
    execDetourReissue r s = .next (sessionRequest r (planQuarter x) n newWork changes s) := by
  simp only [execDetourReissue, live_of_runs _ hr, hop, hx, boulevard]
  rfl

end

theorem boulevard_of_session {r : BlvdReq} {q n : Nat} {newWork changes : Bool} (s : State) (hop : r.op = .session q n newWork changes) :
    boulevard r s = sessionRequest r q n newWork changes s := by
  simp only [boulevard, hop]

/-- A reply that is older than the Quarter's drain mark is absorbed (R65). -/
theorem execDrainedReplySink_of_older {q : Nat} {mark : DWord} {m : Mark} {s : State} (hr : Runs s) (hm : (qtrOf s q).mark = some m)
    (hlt : mark.toNat < m.image.toNat) : execDrainedReplySink q mark s = .next (setQtr s q (fun t => { t with sinks := up t.sinks 1 })) := by
  simp only [execDrainedReplySink, live_of_runs _ hr, hm, hlt, if_true]

/-- Settles O2: a DRAM request reads or writes its line, and a request about a session meets one of the three answers of its Quarter. -/
theorem boulevardRequests : Obligations.BoulevardRequests := by
  unfold Obligations.BoulevardRequests
  simp only [exec_boulevardRequest, exec_requestRetryTimeout, exec_detourReissue, exec_drainedReplySink, Completes]
  refine ⟨?read, ?write, ?detour, ?change, ?again, ?rewrite, ?moved, ?movedAgain, ?sink⟩
  case read =>
    intro r a early raa s hr hop hcap hup
    rw [live_of_runs _ hr, boulevard_of_read hup hcap hop, emit]
  case write =>
    intro r a bs ecc act early raa s hr hop hcap hup hlen
    obtain ⟨hack, hmem, hflash, hnum⟩ := boulevard_write_stores hup hcap hop hlen
    refine ⟨_, live_of_runs _ hr, hack, fun b hb => ?_, hmem, hflash, hnum⟩
    rw [readMem, hmem, rdCell_wrCells_ne hb, readMem]
  case detour =>
    intro r q n newWork changes x s hr hop hx hlo hhi haway
    rw [live_of_runs _ hr, boulevard_of_session s hop, sessionRequest_of_detour hx hlo hhi haway]
    rfl
  case change =>
    intro r q n newWork x s hr hop hx hst hnew
    rw [live_of_runs _ hr, boulevard_of_session s hop, sessionRequest_of_change hx hst hnew]
    rfl
  case again =>
    intro r q n newWork changes x s hr hop hx hst hold
    rw [live_of_runs _ hr, boulevard_of_session s hop, sessionRequest_of_applied hx hst hold, emit]
  case rewrite =>
    intro r a bs ecc act early raa s hr hop hcap hup hlen
    exact ⟨_, live_of_runs _ hr, boulevard_write_stores hup hcap hop hlen⟩
  case moved =>
    intro r q n newWork x s hr hop hx hst hnew
    rw [execDetourReissue_of_session hx hr hop, sessionRequest_of_change hx hst hnew]
    rfl
  case movedAgain =>
    intro r q n newWork changes x s hr hop hx hst hold
    rw [execDetourReissue_of_session hx hr hop, sessionRequest_of_applied hx hst hold, emit]
  case sink => exact fun q mark m s hr hm hlt => execDrainedReplySink_of_older hr hm hlt

end Sys2Proof.Machine
end

section
/-! The Bell: its edges and its source, the retraining pauses, the paging burst, the heartbeat and Sextant's apply, and the statement on them (R11 to R25,
R87, R337, R446, R511). -/

namespace Sys2Proof.Machine
open Sys2Proof

theorem exec_bellStart (env : BellEnv) (s : State) : exec (.bellStart env) s = execBellStart env s := rfl
theorem exec_fenceCut (s : State) : exec .fenceCut s = execFenceCut s := rfl
theorem exec_guardOpen (s : State) : exec .guardOpen s = execGuardOpen s := rfl
theorem exec_bellInEdge (o : Int) (s : State) : exec (.bellInEdge o) s = execBellInEdge o s := rfl
theorem exec_bellEdgeMissing (s : State) : exec .bellEdgeMissing s = execBellEdgeMissing s := rfl
theorem exec_schedBellCfgWrite (v : Word) (s : State) : exec (.schedBellCfgWrite v) s = execSchedBellCfgWrite v s := rfl
theorem exec_retrainPause (ch : Nat) (drift vref : Int) (s : State) : exec (.retrainPause ch drift vref) s = execRetrainPause ch drift vref s := rfl
theorem exec_pagingBurst (bad : List Nat) (s : State) : exec (.pagingBurst bad) s = execPagingBurst bad s := rfl
theorem exec_heartbeatSend (s : State) : exec .heartbeatSend s = execHeartbeatSend s := rfl
theorem exec_sextantApply (s : State) : exec .sextantApply s = execSextantApply s := rfl

/-! A map whose every entry is changed reads as the changed entry. -/

theorem look_map {α β : Type} (m : NMap α) (g : α → β) (k : Nat) : look (m.map (fun e => (e.1, g e.2))) k = (look m k).map g := by
  induction m with
  | nil => rfl
  | cons e m ih =>
    obtain ⟨i, a⟩ := e
    simp only [List.map_cons, look]
    split
    · rfl
    · exact ih

@[simp] theorem chanOf_setChan (s : State) (c : Nat) (g : Chan → Chan) : chanOf (setChan s c g) c = g (chanOf s c) := by simp [chanOf, setChan]

section
variable {s : State} (hr : Runs s)
include hr

/-! The edges of the Bell. -/

theorem execBellStart_of_done (env : BellEnv) (hd : tasksDone s = true) : execBellStart env s = .next (bellStart env s) := by
  rw [execBellStart, live_of_runs _ hr, hd, if_pos rfl]

theorem execBellStart_of_tasks (env : BellEnv) (hd : tasksDone s = false) : execBellStart env s = .next s := by
  rw [execBellStart, live_of_runs _ hr, hd, if_neg Bool.false_ne_true]

/-- As the Guard window opens no channel has taken its pause, and each accepted drain is due (R22, R60). -/
theorem execGuardOpen_due (hw : s.bell.window ≠ .guard) :
    ∃ t, execGuardOpen s = .next t ∧ kept t = keptIn .guard s ∧ t.sess.burst = false ∧ t.tandem.hbSent = false ∧
      (∀ c, (chanOf t c).paused = false) ∧ (∀ q x, look t.quarters q = some x → x.edge = x.pend) := by
  obtain ⟨t, ht, hk, hb, hh, ⟨lc, hc⟩, ⟨lq, hq⟩⟩ := execGuardOpen_kept s hr.1 hr.2 hw
  refine ⟨t, ht, hk, hb, hh, fun c => ?_, fun q x hx => ?_⟩
  · have hl : look t.memc.chans c = (look lc c).map (fun y => { y with paused := false }) := by
      rw [hc]
      exact look_map lc (fun y => { y with paused := false }) c
    rw [chanOf, lookD, hl]
    cases look lc c <;> rfl
  · have hl : look t.quarters q = (look lq q).map (fun y => { y with edge := y.pend }) := by
      rw [hq]
      exact look_map lq (fun y => { y with edge := y.pend }) q
    rw [hl] at hx
    obtain ⟨y, -, rfl⟩ := Option.map_eq_some_iff.mp hx
    rfl

/-! The source. -/

theorem execBellInEdge_of_near {o : Int} (hs : s.bell.srcAct = 1) (ho : (o - s.bell.slew).natAbs ≤ 5000) :
    execBellInEdge o s = .next (setBell s (acceptEdge o)) := by
  rw [execBellInEdge, live_of_runs _ hr, if_neg (not_not_intro hs), if_neg (Nat.not_lt.mpr ho)]

theorem execBellInEdge_of_far {o : Int} (hs : s.bell.srcAct = 1) (ho : 5000 < (o - s.bell.slew).natAbs) :
    execBellInEdge o s = .next (setBell s (rejectEdge o)) := by
  rw [execBellInEdge, live_of_runs _ hr, if_neg (not_not_intro hs), if_pos ho]

/-- The state after a missing edge: it is the n-th in a row (R17). -/
def missEdge (s : State) : State :=
  setBell s (fun b => { b with missing := up16 b.missing, missRun := s.bell.missRun + 1, missed := true, holdover := true,
                               lost := decide (64 ≤ s.bell.missRun + 1) })

theorem execBellEdgeMissing_of_source (hs : s.bell.srcAct ≠ 0) :
    execBellEdgeMissing s = .next (if s.bell.missRun + 1 = 64 then raise winSched 0 0 false (fun s => s) (missEdge s) else missEdge s) := by
  rw [execBellEdgeMissing, live_of_runs _ hr, if_neg hs, missEdge]

/-! The retraining pause. -/

/-- A pause in range keeps the Vref step and touches the memory controller alone (R337). -/
theorem execRetrainPause_of_due {ch : Nat} {drift vref : Int} (hw : s.bell.window = .guard) (hch : ch < 12)
    (hdue : s.bell.num.toNat % 256 = 16 * ch % 256) (hup : chanUp s ch = true) (hpwr : s.pwr.state < 3) (hp : (chanOf s ch).paused = false)
    (hdrift : drift.natAbs ≤ 32) (hstep : (lookD (chanOf s ch).vref (chanOf s ch).pauseRank 0 + max (-1) (min 1 vref)).natAbs ≤ 4) :
    ∃ d, execRetrainPause ch drift vref s = .next (setChan s ch (fun c => { c with
      paused := true, retrain := up c.retrain 1, pauseRank := ((chanOf s ch).pauseRank + 1) % max 1 (s.memc.dpc * s.memc.ranks),
      vref := put c.vref (chanOf s ch).pauseRank (lookD (chanOf s ch).vref (chanOf s ch).pauseRank 0 + max (-1) (min 1 vref)), drift := d })) := by
  have hno : ¬ (s.bell.window ≠ .guard ∨ s.bell.num.toNat % 256 ≠ 16 * ch % 256 ∨ 12 ≤ ch ∨ (!chanUp s ch) = true ∨ 3 ≤ s.pwr.state ∨
      (chanOf s ch).paused = true) := by
    simp [hw, hdue, hup, hp]
    omega
  refine ⟨fldW 16 8 ((lookD (chanOf s ch).vref (chanOf s ch).pauseRank 0 + max (-1) (min 1 vref)) % 256).toNat ||| fldW 0 16 (drift % 65536).toNat, ?_⟩
  rw [execRetrainPause, live_of_runs _ hr]
  simp only [if_neg hno, hdrift, hstep, decide_true, Bool.and_true, if_true]

theorem execRetrainPause_of_paused {ch : Nat} (drift vref : Int) (hp : (chanOf s ch).paused = true) : execRetrainPause ch drift vref s = .next s := by
  rw [execRetrainPause, live_of_runs _ hr]
  simp [hp]

/-! The heartbeat. -/

theorem execHeartbeatSend_of_sent (hsent : s.tandem.hbSent = true) : execHeartbeatSend s = .next s := by
  simp [execHeartbeatSend, live_of_runs _ hr, hsent]

theorem execHeartbeatSend_of_due (hst : s.tandem.state = 3) (hdead : s.tandem.dead = false) (hw : s.bell.window = .guard)
    (hsent : s.tandem.hbSent = false) (halt : bit s.tandem.hbCfg 0 = false) :
    execHeartbeatSend s = .next (emit (.link (.heartbeat (s.bell.num + s.tandem.offset) s.tandem.side 3 s.tandem.violTot))
      { s with tandem := { s.tandem with hbSent := true, seqOut := s.tandem.seqOut + 1, sent := s.tandem.sent ++ [(s.tandem.seqOut, 0)] } }) := by
  simp [execHeartbeatSend, live_of_runs _ hr, hst, hw, hsent, halt, linkSend, linkUp, setTan, hdead, pairBell]

end

/-! What an edge does to the generator. -/

/-- With fewer than 7 rejected edges before it a rejected edge joins the run (R15). -/
theorem rejectEdge_of_few {o : Int} {b : Bell} (h : b.rejRun.length < 7) :
    rejectEdge o b = { b with rejected := up16 b.rejected, rejRun := o :: b.rejRun } := by
  have htake : (o :: b.rejRun).take 8 = o :: b.rejRun := List.take_of_length_le (by simp; omega)
  have hno : agree (o :: b.rejRun) = false := by simp [agree]; omega
  simp [rejectEdge, htake, hno]

/-- Eight rejected edges at one offset are a phase step (R15). -/
theorem rejectEdge_of_eighth {o : Int} {b : Bell} (h : b.rejRun.length = 7) (hall : ∀ a ∈ b.rejRun, a = o) :
    rejectEdge o b = { b with rejected := up16 b.rejected, slew := o, locked := false, missRun := 0, missed := false, holdover := false, lost := false, rejRun := [] } := by
  have hrun : b.rejRun = List.replicate 7 o := List.eq_replicate_iff.mpr ⟨h, hall⟩
  have hagree : agree ((o :: b.rejRun).take 8) = true := by simp [hrun, agree]
  simp only [rejectEdge, hagree, if_true]

/-- The 64th missing edge in a row is lost and severe in the SCHED watch (R17). -/
theorem raise_missEdge {s : State} (h : s.bell.missRun + 1 = 64) :
    (raise winSched 0 0 false (fun s => s) (missEdge s)).bell.missing = up16 s.bell.missing ∧
    (raise winSched 0 0 false (fun s => s) (missEdge s)).bell.holdover = true ∧ (raise winSched 0 0 false (fun s => s) (missEdge s)).bell.lost = true ∧
    (watchOf (raise winSched 0 0 false (fun s => s) (missEdge s)) winSched).severe.getLsbD 0 = true ∧
    (raise winSched 0 0 false (fun s => s) (missEdge s)).mem = s.mem := by
  obtain ⟨w, n, i, p, o, d, ht, hsev, -⟩ := raise_frame winSched 0 0 false (missEdge s)
  have hw : w.severe.getLsbD 0 = true := by
    rw [hsev (by decide)]
    simp
  rw [ht]
  refine ⟨rfl, rfl, by simp [missEdge, h], ?_, rfl⟩
  simpa [watchOf] using hw

/-! The paging burst. -/

/-- A notice touches the Bell's mark count and the event queues alone. -/
theorem notice_frame (h : Nat) (c : Code) (s : State) : ∃ f b, notice h c s = { s with fns := f, bell := b } := by
  unfold notice post postRec
  split
  · exact ⟨_, _, rfl⟩
  · split
    · exact ⟨_, _, rfl⟩
    · dsimp only
      split <;> exact ⟨_, _, rfl⟩

/-- A statistic of a session changes that session's statistics and its function's alone. -/
theorem stat_of_look {h : Nat} {x : Session} {s : State} (i n : Nat) (hx : look s.sessions h = some x) :
    (stat h i n s).sess = s.sess ∧ (stat h i n s).mem = s.mem ∧ ∃ m, look (stat h i n s).sessions h = some { x with stats := m } := by
  rw [stat, hx]
  exact ⟨rfl, rfl, _, look_setSess_sv _ hx⟩

@[simp] theorem look_touch_self (n : Nat) (s : State) :
    look (touch n s).sessions n = (look s.sessions n).map (fun x => { x with lru := s.sess.clock }) := look_setSess s n _

section
variable {s : State} {n : Nat} {x : Session}

/-- A record that fails its check asks its session to close, and moves nothing (R76, R85). -/
theorem recordFails_of_idle (hx : look s.sessions n = some x) (hp : x.pend = none) : (recordFails n s).sess = s.sess ∧
    (recordFails n s).mem = s.mem ∧
    look (recordFails n s).sessions n = some { x with cause := none, pend := some { kind := 3, hdr := none, bell := s.bell.num, prior := none } } := by
  obtain ⟨f, b, hn⟩ := notice_frame n 0x020C (setSess s n (fun x => { x with cause := none }))
  obtain ⟨w, k, i, p, o, d, ht, -⟩ := raise_frame winSess 0 0x020C false (notice n 0x020C (setSess s n (fun x => { x with cause := none })))
  have hbell : b.num = s.bell.num := by
    have h := (of_core (congrArg Kept.core (notice_kept n 0x020C (setSess s n (fun x => { x with cause := none }))))).2.2.1
    rw [hn] at h
    exact h
  simp only [recordFails, hx, hp, Option.any_none, Bool.false_eq_true, if_false, Option.bind_none, ht]
  rw [hn]
  exact ⟨rfl, rfl, by simp [setPending, hx, hbell]⟩

/-- The state in which a page-in has been counted. -/
def countPageIn (s : State) : State := { s with sess := { s.sess with pageIn := up s.sess.pageIn 1 } }

/-- A page-in with a place in the cache reads the record, which passes its check or fails it (R85, R87). -/
theorem pageIn_of_room (bad : List Nat) (n : Nat) (hroom : (s.sessions.filter (fun e => e.2.resident)).length < 4096) :
    pageIn bad n s = if decide (n ∈ bad) || !recordOk s n then recordFails n (countPageIn s)
      else touch n (stat n 29 1 (setSess (countPageIn s) n (fun x => { x with resident := true, cause := none }))) := by
  rw [pageIn, makeRoom, if_pos hroom]
  rfl

/-- What one page-in leaves of its session, the count and memory. -/
theorem pageIn_serves (bad : List Nat) (hroom : (s.sessions.filter (fun e => e.2.resident)).length < 4096) (hx : look s.sessions n = some x)
    (hres : x.resident = false) (hp : x.pend = none) : ∃ y, look (pageIn bad n s).sessions n = some y ∧ y.cause = none ∧
    (pageIn bad n s).sess.burst = s.sess.burst ∧ (pageIn bad n s).sess.pageIn = up s.sess.pageIn 1 ∧ (pageIn bad n s).mem = s.mem ∧
    (n ∉ bad → recordOk s n = true → y.resident = true ∧ y.pend = none) ∧
    (n ∈ bad ∨ recordOk s n = false → y.resident = false ∧ ∃ p, y.pend = some p ∧ p.kind = 3) := by
  rw [pageIn_of_room bad n hroom]
  by_cases hfail : n ∈ bad ∨ recordOk s n = false
  · have hc : look (countPageIn s).sessions n = some x := hx
    obtain ⟨hsess, hmem, hy⟩ := recordFails_of_idle hc hp
    rw [if_pos (by simpa using hfail), hsess, hmem]
    refine ⟨_, hy, rfl, rfl, rfl, rfl, fun hb ho => ?_, fun _ => ⟨hres, _, rfl, rfl⟩⟩
    rcases hfail with h | h
    · exact absurd h hb
    · exact absurd ho (by simp [h])
  · have hx1 : look (setSess (countPageIn s) n (fun x => { x with resident := true, cause := none })).sessions n
        = some { x with resident := true, cause := none } := by
      rw [look_setSess, show look (countPageIn s).sessions n = some x from hx]
      rfl
    obtain ⟨hsess, hmem, m, hy⟩ := stat_of_look 29 1 hx1
    rw [if_neg (by simpa using hfail), look_touch_self, hy]
    exact ⟨_, rfl, rfl, (congrArg Sess.burst hsess :), (congrArg Sess.pageIn hsess :), hmem, fun _ _ => ⟨rfl, hp⟩, fun h => absurd h hfail⟩

/-- Where no session waits for its record nothing is to be paged in (R87). -/
theorem pageIns_of_none (h : ∀ e ∈ s.sessions, e.2.cause = none ∨ e.2.resident = true) : pageIns s = [] := by
  refine List.foldlRecOn (motive := fun l => l = []) _ _ rfl ?_
  rintro l rfl e he
  rcases h e he with hc | hres
  · rw [hc]
  · rw [hres]
    cases e.2.cause <;> rfl

/-- Without a CLOSING Quarter no session leaves one (R61). -/
theorem drainBurst_of_open (h : ∀ q, q < 16 → (qtrOf s q).state ≠ 3) : drainBurst s = s := by
  have hq : (List.range 16).filter (fun q => decide ((qtrOf s q).state = 3)) = [] := by
    simpa [List.filter_eq_nil_iff] using h
  rw [drainBurst, hq, List.foldl_nil]

/-- The state in which the burst of this Guard window is marked as run, k page-ins over its bound (R22, R87). -/
def markBurst (k : Nat) (s : State) : State := { s with sess := { s.sess with burst := true, wakeDefer := up s.sess.wakeDefer k } }

/-- The first burst of a Guard window without a CLOSING Quarter serves the first 512 page-ins (R87). -/
theorem execPagingBurst_of_open (bad : List Nat) (hr : Runs s) (hw : s.bell.window = .guard) (hb : s.sess.burst = false)
    (hq : ∀ q, q < 16 → (qtrOf s q).state ≠ 3) :
    execPagingBurst bad s = .next (((pageIns s).take 512).foldl (fun s p => pageIn bad p.2.2 s) (markBurst ((pageIns s).length - 512) s)) := by
  have hd : drainBurst { s with sess := { s.sess with burst := true } } = { s with sess := { s.sess with burst := true } } := drainBurst_of_open hq
  rw [execPagingBurst, live_of_runs _ hr, if_neg (by simp [hw, hb]), hd]
  rfl

theorem execPagingBurst_of_run (bad : List Nat) (hr : Runs s) (hb : s.sess.burst = true) : execPagingBurst bad s = .next s := by
  rw [execPagingBurst, live_of_runs _ hr, if_pos (Or.inr hb)]

end

/-- Settles O1: each clause is the meaning of its command in the case that its hypotheses name; what the three edges keep is what their laws say. -/
theorem bellStartsWindowsAndSources : Obligations.BellStartsWindowsAndSources := by
  unfold Obligations.BellStartsWindowsAndSources
  simp only [exec_bellStart, exec_fenceCut, exec_guardOpen, exec_bellInEdge, exec_bellEdgeMissing, exec_schedBellCfgWrite, exec_retrainPause,
    exec_pagingBurst, exec_heartbeatSend, exec_sextantApply, Completes]
  refine ⟨?start, ?waits, ?cut, ?guard, ?near, ?far, ?eighth, ?missing, ?lost, ?cfg, ?cfgReserved, ?pause, ?paused, ?idleBurst, ?onePageIn, ?burstRun,
    ?heartbeat, ?heartbeatSent, ?apply⟩
  case start =>
    intro env s hr hd
    obtain ⟨hnum, hwin, hcut, hcfg, hflash, hsvn, hperst, -⟩ := bellStart_fields env s
    exact ⟨_, execBellStart_of_done hr env hd, hnum, hwin, hcut, hcfg, hflash, hsvn, hperst.trans hr.2⟩
  case waits => exact fun env s hr hd => execBellStart_of_tasks hr env hd
  case cut =>
    intro s hr hw hc
    obtain ⟨t, ht, hom⟩ := execFenceCut_om s hr.1 hr.2 hw hc
    obtain ⟨hnum, hwin, hcut, -, hflash, hsvn, hperst, -⟩ := keptIn_fields hom
    exact ⟨t, ht, hnum, hwin, hcut, hflash, hsvn, hperst.trans hr.2⟩
  case guard =>
    intro s hr hw
    obtain ⟨t, ht, hk, hburst, hsent, hpaused, hedge⟩ := execGuardOpen_due hr hw
    obtain ⟨hnum, hwin, hcut, -, hflash, hsvn, -⟩ := keptIn_fields (OM.of hk)
    exact ⟨t, ht, hnum, hwin, hcut, hburst, hsent, hpaused, hedge, congrArg (fun k => k.core.mem) hk, hflash, hsvn⟩
  case near =>
    intro o s hr hs ho
    rw [execBellInEdge_of_near hr hs ho]
    rfl
  case far =>
    intro o s hr hs ho hlen
    rw [execBellInEdge_of_far hr hs ho, setBell, rejectEdge_of_few hlen]
    rfl
  case eighth =>
    intro o s hr hs ho hlen hall
    rw [execBellInEdge_of_far hr hs ho, setBell, rejectEdge_of_eighth hlen hall]
    rfl
  case missing =>
    intro s hr hs hrun
    have hlost : decide (64 ≤ s.bell.missRun + 1) = false := decide_eq_false (by omega)
    rw [execBellEdgeMissing_of_source hr hs, if_neg (by omega), missEdge, setBell, hlost]
    rfl
  case lost =>
    intro s hr hs hrun
    have h64 : s.bell.missRun + 1 = 64 := by omega
    exact ⟨_, by rw [execBellEdgeMissing_of_source hr hs, if_pos h64], raise_missEdge h64⟩
  case cfg =>
    intro v s hs hv hsrc
    rw [execSchedBellCfgWrite, blockWrite_of_accepted _ hs hv, setBell, wake_bell, if_neg hsrc]
  case cfgReserved =>
    intro v s hs hv hsrc
    rw [execSchedBellCfgWrite, blockWrite_of_accepted _ hs hv, setBell, wake_bell, if_pos hsrc]
  case pause =>
    intro ch drift vref s hr hw hch hdue hup hpwr hp hdrift hstep
    obtain ⟨d, ht⟩ := execRetrainPause_of_due hr hw hch hdue hup hpwr hp hdrift hstep
    refine ⟨_, ht, ?_⟩
    rw [chanOf_setChan]
    exact ⟨rfl, rfl, rfl, look_put_self .., rfl⟩
  case paused => exact fun ch drift vref s hr hp => execRetrainPause_of_paused hr drift vref hp
  case idleBurst =>
    intro bad s hr hw hb hq hall
    rw [execPagingBurst_of_open bad hr hw hb hq, pageIns_of_none hall]
    rfl
  case onePageIn =>
    intro bad m k n x s hr hw hb hq hpages hx hres hp hroom
    refine ⟨_, execPagingBurst_of_open bad hr hw hb hq, ?_⟩
    rw [hpages, List.take_of_length_le (by simp), List.foldl_cons, List.foldl_nil]
    generalize [(m, k, n)].length - 512 = late
    have hm : look (markBurst late s).sessions n = some x := hx
    exact pageIn_serves bad hroom hm hres hp
  case burstRun => exact fun bad s hr hb => execPagingBurst_of_run bad hr hb
  case heartbeat =>
    intro s hr hst hdead hw hsent halt
    rw [execHeartbeatSend_of_due hr hst hdead hw hsent halt, emit]
  case heartbeatSent => exact fun s hr hsent => execHeartbeatSend_of_sent hr hsent
  case apply =>
    intro s hr hw
    refine (live_of_runs _ hr).trans (congrArg Host.Outcome.next ((if_neg (not_not_intro hw)).trans ?_))
    cases s.sext.result <;> rfl

end Sys2Proof.Machine
end

section
/-! What the pool, the records and the counters leave of the sessions: everything but their statistics (R400). A property of a session that does not
read its statistics therefore passes through these operations. -/

namespace Sys2Proof.Machine
open Sys2Proof

/-- A session without its statistics. -/
def noStats (x : Session) : Session := { x with stats := [] }

/-- The sessions of a state without their statistics. -/
def bare (s : State) : NMap Session := s.sessions.map (fun e => (e.1, noStats e.2))

theorem map_alter_of_same {α β : Type} (v : α → β) (m : NMap α) (k : Nat) (g : α → α) (h : ∀ a, v (g a) = v a) :
    (alter m k g).map (fun e => (e.1, v e.2)) = m.map (fun e => (e.1, v e.2)) := by
  induction m with
  | nil => rfl
  | cons e m ih =>
    obtain ⟨i, a⟩ := e
    simp only [alter]
    split <;> simp [h, ih]

theorem foldl_bare {α : Type} (f : State → α → State) (l : List α) (s : State) (h : ∀ t a, bare (f t a) = bare t) : bare (l.foldl f s) = bare s :=
  foldl_frame f (fun t => bare t = bare s) l s rfl (fun t a ht => (h t a).trans ht)

/-! The records and the watches. -/

@[simp] theorem stat_bare (h i n : Nat) (s : State) : bare (stat h i n s) = bare s := by
  unfold stat
  split
  · rfl
  · exact map_alter_of_same noStats _ _ _ (fun _ => rfl)

@[simp] theorem post_bare (f t : Nat) (c : Code) (k : Word) (p : List Word) (s : State) : bare (post f t c k p s) = bare s := by
  unfold post postRec
  dsimp only
  (repeat' split) <;> rfl

@[simp] theorem safeState_bare (w : Nat) (s : State) : bare (safeState w s) = bare s := by
  unfold safeState
  dsimp only
  (repeat' split) <;> rfl

theorem raise_bare (w k : Nat) (c : Code) (i : Bool) (f : State → State) (s : State) (hf : ∀ t, bare (f t) = bare t) :
    bare (raise w k c i f s) = bare s := by
  obtain ⟨x, n, q, p, h, -⟩ := recordEvent_frame w k c i s
  have hrec : bare (recordEvent w k c i s).2 = bare s := by
    rw [h]
    rfl
  unfold raise
  generalize recordEvent w k c i s = r at hrec
  obtain ⟨⟨start, sev⟩, t⟩ := r
  dsimp only at hrec ⊢
  have hreact : ∀ u, bare u = bare s → bare (if start = true then f u else u) = bare s := by
    intro u hu
    split
    · exact (hf u).trans hu
    · exact hu
  refine hreact _ ?_
  (repeat' split) <;> exact hrec

@[simp] theorem linkSend_bare (m : LinkOut) (s : State) : bare (linkSend m s) = bare s := by
  unfold linkSend
  split <;> rfl

/-! The pool. -/

@[simp] theorem allocRefused_bare (w : PoolReq) (c : Code) (s : State) : bare (allocRefused w c s) = bare s := by
  have hstat : ∀ u, bare u = bare s → bare (if w.kind = 0 then stat w.index 24 1 u else u) = bare s := by
    intro u hu
    split
    · exact (stat_bare ..).trans hu
    · exact hu
  refine hstat _ ?_
  (repeat' split) <;> rfl

@[simp] theorem misuse_bare (w : PoolReq) (c : Code) (h : Word) (s : State) : bare (misuse w c h s) = bare s := by
  unfold misuse
  dsimp only
  split
  · rfl
  · split
    · exact stat_bare ..
    · split
      · rfl
      · exact raise_bare _ _ _ _ _ _ (safeState_bare winPool)

@[simp] theorem settleBuf_bare (h : Word) (b : Buf) (s : State) : bare (settleBuf h b s) = bare s := by
  unfold settleBuf
  split <;> rfl

@[simp] theorem drop_bare (w : PoolReq) (h : Word) (k : Nat) (s : State) : bare (drop w h k s) = bare s := by
  unfold drop releaseBuf
  dsimp only
  split
  · exact misuse_bare ..
  · split
    · exact misuse_bare ..
    · split
      · split
        · exact settleBuf_bare ..
        · exact misuse_bare ..
      · split
        · exact misuse_bare ..
        · split
          · refine (settleBuf_bare ..).trans ?_
            split <;> rfl
          · exact misuse_bare ..

@[simp] theorem dropAll_bare (w : PoolReq) (l : List Word) (s : State) : bare (dropAll w l s) = bare s :=
  foldl_bare _ _ _ (fun t h => drop_bare w h 0 t)

theorem takeBuf_bare {s t : State} {w : PoolReq} {c : Nat} {h : Word} (e : takeBuf s w c = some (h, t)) : bare t = bare s := by
  unfold takeBuf at e
  dsimp only at e
  split at e
  · cases e
  · split at e
    · cases e
    · cases e
      rfl

@[simp] theorem allocate_bare (w : PoolReq) (n : Nat) (p : Bool) (s : State) : bare (allocate w n p s).2 = bare s := by
  unfold allocate
  dsimp only
  split
  · exact allocRefused_bare ..
  · split
    · exact allocRefused_bare ..
    · split
      · next e =>
        have ht := takeBuf_bare e
        exact ht
      · split
        · split
          · next e =>
            have ht := takeBuf_bare e
            exact ht
          · exact allocRefused_bare ..
        · exact allocRefused_bare ..

@[simp] theorem claimBuf_bare (w : PoolReq) (h : Word) (s : State) : bare (claimBuf w h s).2 = bare s := by
  unfold claimBuf
  dsimp only
  (repeat' split) <;> rfl

@[simp] theorem claimFor_bare (w : PoolReq) (o : Option Word) (s : State) : bare (claimFor w o s).2 = bare s := by
  unfold claimFor
  split
  · rfl
  · next h =>
    have hc := claimBuf_bare w h s
    split <;> (rename_i e; rw [e] at hc; exact hc)

/-! What writes pictures, and what engines and work buffers hold. -/

theorem spacePut_bare (exts : List Word) (o : Nat) (b : List Byte) (s : State) : bare (spacePut exts o b s) = bare s := by
  induction exts generalizing o b s with
  | nil => rfl
  | cons w t ih =>
    unfold spacePut
    dsimp only
    split <;> rw [ih]
    rfl

@[simp] theorem writeUnits_bare (exts : List Word) (at0 : Nat) (l : List (Nat × List Byte)) (s : State) : bare (writeUnits exts at0 l s) = bare s := by
  induction l generalizing at0 s with
  | nil => rfl
  | cons u t ih => rw [writeUnits, ih, spacePut_bare, spacePut_bare]

@[simp] theorem writeMotion_bare (p : Shape) (exts : List Word) (l : List (Nat × Option (Int × Int))) (s : State) :
    bare (writeMotion p exts l s) = bare s := foldl_bare _ _ _ (fun t _ => spacePut_bare _ _ _ t)

@[simp] theorem pendEvent_bare (c : Bool) (p : UnitRef → Bool) (s : State) : bare (pendEvent c p s) = bare s := rfl

end Sys2Proof.Machine
end

section
/-! Frames and bands of a session: how a changed frame reads, and the part of a session, its face, that commits speak of and that finalisation, the
release of payloads and the records leave alone. -/

namespace Sys2Proof.Machine
open Sys2Proof

/-! A changed frame, and a changed band of it. -/

/-- A session whose frames of a number are changed. -/
def mapFrame (num : Nat) (g : Frame → Frame) (x : Session) : Session :=
  { x with frames := x.frames.map (fun f => if f.num = num then g f else f) }

/-- A frame whose band k is changed. -/
def mapBand (k : Nat) (g : Band → Band) (f : Frame) : Frame := { f with bands := alter f.bands k g }

theorem frameOf_mapFrame {g : Frame → Frame} (x : Session) (num : Nat) (hg : ∀ f, (g f).num = f.num) :
    frameOf (mapFrame num g x) num = (frameOf x num).map g := by
  unfold frameOf mapFrame
  dsimp only
  induction x.frames with
  | nil => rfl
  | cons f l ih =>
    by_cases hf : f.num = num
    · simp [hf, hg]
    · simpa [hf] using ih

section
variable {s : State} {h num k : Nat} {x : Session} {f : Frame} {b : Band}

theorem look_setFrame (g : Frame → Frame) (hx : look s.sessions h = some x) :
    look (setFrame h num g s).sessions h = some (mapFrame num g x) := look_setSess_sv _ hx

theorem look_setBand (g : Band → Band) (hx : look s.sessions h = some x) :
    look (setBand h num k g s).sessions h = some (mapFrame num (mapBand k g) x) := look_setSess_sv _ hx

theorem frameOf_mapBand (g : Band → Band) (hf : frameOf x num = some f) :
    frameOf (mapFrame num (mapBand k g) x) num = some (mapBand k g f) := by
  have hnum : ∀ f, (mapBand k g f).num = f.num := fun _ => rfl
  rw [frameOf_mapFrame x num hnum, hf]
  rfl

theorem look_mapBand (g : Band → Band) (hb : look f.bands k = some b) : look (mapBand k g f).bands k = some (g b) := by
  rw [mapBand, look_alter_self, hb]
  rfl

theorem look_mapBand_ne (g : Band → Band) {j : Nat} (hj : k ≠ j) : look (mapBand j g f).bands k = look f.bands k := look_alter_ne _ _ hj

end

/-! Faces. -/

/-- What a commit or a check settles of a band. -/
structure BandFace where
  st      : Nat
  fb      : Bool
  nocheck : Bool
  q       : Nat

/-- What the commits of its bands settle of a frame. -/
structure FrameFace where
  num    : Nat
  height : Nat
  next   : Nat
  bands  : NMap BandFace

/-- What the commits of its bands settle of a session. -/
structure Face where
  full     : Nat
  idleFrom : Option (BitVec 40)
  doneWait : List (Nat × Nat × Nat)
  frames   : List FrameFace

def bandFace (b : Band) : BandFace := ⟨b.st, b.fb, b.nocheck, b.q⟩
def frameFace (f : Frame) : FrameFace := ⟨f.num, f.height, f.next, f.bands.map (fun e => (e.1, bandFace e.2))⟩
def face (x : Session) : Face := ⟨x.rate.full, x.idleFrom, x.doneWait, x.frames.map frameFace⟩

/-- The faces of all sessions. -/
def faces (s : State) : NMap Face := s.sessions.map (fun e => (e.1, face e.2))

theorem faces_of_bare {s t : State} (h : bare t = bare s) : faces t = faces s := by
  have hb : ∀ u : State, faces u = (bare u).map (fun e => (e.1, face e.2)) := fun u => by
    rw [bare, List.map_map]
    rfl
  rw [hb t, hb s, h]

/-! Reading a face back. -/

theorem look_of_faces {s t : State} {n : Nat} {x : Session} (h : faces t = faces s) (hx : look s.sessions n = some x) :
    ∃ y, look t.sessions n = some y ∧ face y = face x := by
  have hl : (look t.sessions n).map face = (look s.sessions n).map face := by
    rw [← look_map, ← look_map]
    exact congrArg (fun m => look m n) h
  rw [hx] at hl
  exact Option.map_eq_some_iff.mp hl

theorem frameOf_of_face {x y : Session} {num : Nat} {f : Frame} (h : face y = face x) (hf : frameOf x num = some f) :
    ∃ g, frameOf y num = some g ∧ frameFace g = frameFace f := by
  have hfind : ∀ z : Session, (frameOf z num).map frameFace = (face z).frames.find? (fun a => decide (a.num = num)) := fun z =>
    by rw [face, List.find?_map]; rfl
  have hm := hfind y
  rw [h, ← hfind x, hf] at hm
  exact Option.map_eq_some_iff.mp hm

theorem look_of_frameFace {f g : Frame} {k : Nat} {b : Band} (h : frameFace g = frameFace f) (hb : look f.bands k = some b) :
    ∃ c, look g.bands k = some c ∧ bandFace c = bandFace b := by
  have hl : (look g.bands k).map bandFace = (look f.bands k).map bandFace := by
    rw [← look_map, ← look_map]
    exact congrArg (fun a => look (FrameFace.bands a) k) h
  rw [hb] at hl
  exact Option.map_eq_some_iff.mp hl

/-! What leaves the faces alone. -/

theorem faces_setSess (s : State) (n : Nat) {g : Session → Session} (hg : ∀ x, face (g x) = face x) : faces (setSess s n g) = faces s :=
  map_alter_of_same face _ _ _ hg

theorem faces_setFrame (h num : Nat) {g : Frame → Frame} (s : State) (hg : ∀ f, frameFace (g f) = frameFace f) :
    faces (setFrame h num g s) = faces s := by
  refine faces_setSess s h (fun x => ?_)
  simp only [face, List.map_map]
  congr 1
  refine List.map_congr_left (fun f _ => ?_)
  simp only [Function.comp_apply]
  split
  · exact hg f
  · rfl

theorem faces_setBand (h num k : Nat) {g : Band → Band} (s : State) (hg : ∀ b, bandFace (g b) = bandFace b) :
    faces (setBand h num k g s) = faces s := by
  refine faces_setFrame h num s (fun f => ?_)
  simp only [frameFace, map_alter_of_same bandFace _ _ _ hg]

@[simp] theorem sweepPics_faces (h : Nat) (s : State) : faces (sweepPics h s) = faces s := by
  unfold sweepPics
  split
  · rfl
  · exact (faces_of_bare (foldl_bare _ _ _ (fun t e => dropAll_bare ..))).trans (faces_setSess _ _ (by intro; rfl))

@[simp] theorem losePicture_faces (h num : Nat) (s : State) : faces (losePicture h num s) = faces s :=
  (sweepPics_faces h _).trans (faces_setFrame h num s (by intro; rfl))

@[simp] theorem fillExtents_faces (h num n : Nat) (s : State) : faces (fillExtents h num n s) = faces s := by
  induction n generalizing s with
  | zero => rfl
  | succ n ih =>
    unfold fillExtents
    split
    · rfl
    · next x f _ =>
      split
      · rfl
      · have ha := allocate_bare (sessReq h) (classSize (extentClass f.width f.height)) false s
        split
        · next e =>
          rw [e] at ha
          exact (ih _).trans ((faces_setSess _ _ (by intro; rfl)).trans (faces_of_bare ha))
        · next e =>
          rw [e] at ha
          rw [faces_of_bare (post_bare ..), losePicture_faces, faces_of_bare ha]

@[simp] theorem finalise_faces (h num k q : Nat) (res : BandResult) (s : State) : faces (finalise h num k q res s) = faces s := by
  unfold finalise
  dsimp only
  split
  · rfl
  · split
    · exact fillExtents_faces ..
    · refine (faces_setSess _ _ (by intro; rfl)).trans ?_
      rw [faces_of_bare (writeMotion_bare ..), faces_of_bare (writeUnits_bare ..), fillExtents_faces]

@[simp] theorem releasePayload_faces (h num : Nat) (data : List Byte) (s : State) : faces (releasePayload h num data s).2 = faces s := by
  unfold releasePayload
  dsimp only
  split
  · rfl
  · split
    · rfl
    · have ha := allocate_bare (sessReq h) data.length true s
      split
      · next e =>
        rw [e] at ha
        exact faces_of_bare ha
      · next e =>
        rw [e] at ha
        exact (faces_of_bare (post_bare ..)).trans ((losePicture_faces ..).trans ((faces_setFrame _ _ _ (by intro; rfl)).trans (faces_of_bare ha)))

@[simp] theorem sendMirror_faces (h : Nat) (r : BandRec) (rtp : Rtp) (s : State) : faces (sendMirror h r rtp s) = faces s := by
  unfold sendMirror
  split
  · rfl
  · split
    · rfl
    · exact (faces_of_bare (linkSend_bare ..)).trans (faces_setSess _ _ (by intro; rfl))

@[simp] theorem mirrorRec_faces (h : Nat) (r : BandRec) (s : State) : faces (mirrorRec h r s) = faces s := by
  unfold mirrorRec
  split
  · rfl
  · have hc := faces_of_bare (claimFor_bare { kind := 4, index := 0 } r.payload s)
    dsimp only
    split
    · exact (sendMirror_faces ..).trans ((faces_setSess _ _ (by intro; rfl)).trans hc)
    · exact (faces_setSess _ _ (by intro; rfl)).trans hc

@[simp] theorem hostRec_faces (h : Nat) (r : BandRec) (s : State) : faces (hostRec h r s) = faces s := by
  unfold hostRec
  split
  · rfl
  · exact (faces_setSess _ _ (by intro; rfl)).trans (faces_of_bare (claimFor_bare ..))

@[simp] theorem recordBand_faces (h num k : Nat) (b : Band) (r : Result) (payload : Option Word) (bytes : Nat) (dropped : Bool) (res : BandResult)
    (units bits : Nat) (s : State) : faces (recordBand h num k b r payload bytes dropped res units bits s) = faces s := by
  unfold recordBand
  split
  · rfl
  · next x f _ =>
    dsimp only
    have hoff : faces (setFrame h num (fun f => { f with off := f.off + bytes }) (stamp s)) = faces s := faces_setFrame _ _ _ (by intro; rfl)
    have hdrop : ∀ (w : Word) (u : State), faces u = faces s → faces (if x.flows.isEmpty = true then drop (sessReq h) w 0 u else u) = faces s := by
      intro w u hu
      split
      · exact (faces_of_bare (drop_bare ..)).trans hu
      · exact hu
    have hmir : ∀ (r : BandRec) (u : State), faces u = faces s → faces (if f.mirrored = true then mirrorRec h r u else u) = faces s := by
      intro r u hu
      split
      · exact (mirrorRec_faces ..).trans hu
      · exact hu
    have hrecs : ∀ (r : BandRec) (u : State), faces u = faces s →
        faces (if x.flows.isEmpty = true then u else setSess u h (fun x => { x with recs := x.recs ++ [r] })) = faces s := by
      intro r u hu
      split
      · exact hu
      · exact (faces_setSess _ _ (by intro; rfl)).trans hu
    split
    · exact hdrop _ _ ((hostRec_faces ..).trans (hmir _ _ (hrecs _ _ hoff)))
    · exact (hostRec_faces ..).trans (hmir _ _ (hrecs _ _ hoff))

@[simp] theorem cancelNext_faces (h num k : Nat) (s : State) : faces (cancelNext h num k s) = faces s := by
  unfold cancelNext
  split
  · rfl
  · split
    · rfl
    · exact (faces_of_bare (pendEvent_bare ..)).trans (faces_setBand _ _ _ _ (by intro; rfl))

@[simp] theorem replayNext_faces (h num k : Nat) (s : State) : faces (replayNext h num k s) = faces s := by
  unfold replayNext
  split
  · rfl
  · split
    · rfl
    · exact (faces_of_bare (stat_bare ..)).trans (cancelNext_faces ..)

end Sys2Proof.Machine
end

section
/-! Commits: what the accounting, the records and the frame's end leave of a session that a band of it commits in. -/

namespace Sys2Proof.Machine
open Sys2Proof

/-- Band k of a frame of a session has committed last, with the session's bucket and its waiting FRAME_DONE entries as given. -/
def Committed (h num k full : Nat) (wait : List (Nat × Nat × Nat)) (s : State) : Prop :=
  ∃ y g c, look s.sessions h = some y ∧ frameOf y num = some g ∧ look g.bands k = some c ∧ c.st = 3 ∧ g.next = k + 1 ∧ y.rate.full = full ∧
    y.doneWait = wait

section
variable {h num k full : Nat} {wait : List (Nat × Nat × Nat)} {s : State} {x : Session} {f : Frame} {b' : Band}

theorem Committed.of_faces {t : State} (hc : Committed h num k full wait s) (e : faces t = faces s) : Committed h num k full wait t := by
  obtain ⟨y, g, c, hy, hg, hb, hst, hnext, hfull, hwait⟩ := hc
  obtain ⟨y', hy', ey⟩ := look_of_faces e hy
  obtain ⟨g', hg', eg⟩ := frameOf_of_face ey hg
  obtain ⟨c', hb', ec⟩ := look_of_frameFace eg hb
  exact ⟨y', g', c', hy', hg', hb', (congrArg BandFace.st ec).trans hst, (congrArg FrameFace.next eg).trans hnext,
    (congrArg Face.full ey).trans hfull, (congrArg Face.doneWait ey).trans hwait⟩

theorem Committed.setBand_succ (g : Band → Band) (hc : Committed h num k full wait s) : Committed h num k full wait (setBand h num (k + 1) g s) := by
  obtain ⟨y, f, c, hy, hf, hb, hst, hnext, hfull, hwait⟩ := hc
  exact ⟨_, _, c, look_setBand g hy, frameOf_mapBand g hf, (look_mapBand_ne g (Nat.ne_of_lt k.lt_succ_self)).trans hb, hst, hnext, hfull, hwait⟩

theorem accountBand_committed (b : Band) (r : Result) (c : Coded) (hx : look s.sessions h = some x) (hf : frameOf x num = some f)
    (hb : look f.bands k = some b') :
    Committed h num k (x.rate.full + (c.coded + c.frameBits) * 256 + fillerBits x f b k (x.rate.full + (c.coded + c.frameBits) * 256) * 256) x.doneWait
      (accountBand h num k b r c s) := by
  unfold accountBand
  simp -zeta only [hx, hf, Option.bind_some, Option.map_some]
  extract_lets full pad bits rate rate0 inFb cI again s1 s2 s3 rc s4 s5 s6 sched s7
  have h1 : look s1.sessions h = some _ := look_setSess_sv _ hx
  have h2 : look s2.sessions h = some _ := look_setFrame _ h1
  have h3 : Committed h num k (full + pad * 256) x.doneWait s3 := by
    refine ⟨_, _, _, look_setBand _ h2, frameOf_mapBand _ ((frameOf_mapFrame _ _ ?_).trans (congrArg _ hf)), look_mapBand _ hb, rfl, rfl, rfl, rfl⟩
    intro
    rfl
  have h5 : bare s5 = bare s3 := by simp only [s5, stat_bare]; rfl
  have h6 : bare s6 = bare s3 := by
    simp only [s6]
    split
    · exact (stat_bare ..).trans h5
    · exact h5
  have h7 : bare s7 = bare s3 := by
    simp only [s7]
    split
    · split
      · exact (stat_bare ..).trans h6
      · exact (stat_bare ..).trans h6
    · exact h6
  refine h3.of_faces (faces_of_bare ?_)
  split
  · exact h7
  · exact h7

theorem testNext_committed (hc : Committed h num k full wait s) : Committed h num k full wait (testNext h num k s) := by
  unfold testNext
  split
  · exact hc
  · split
    · exact (hc.setBand_succ _).of_faces (faces_of_bare (stat_bare ..))
    · exact hc

/-! The end of a frame. -/

@[simp] theorem freeBinds_sv (h : Nat) (s : State) : sv (freeBinds h s) = sv s := by
  unfold freeBinds
  split
  · rfl
  · exact (foldl_sv _ _ _ (fun _ _ => unmapSets_sv ..)).trans (sv_setSess _ _ _ (fun _ => rfl))

@[simp] theorem dropFrame_sv (h num : Nat) (s : State) : sv (dropFrame h num s) = sv s := by
  unfold dropFrame
  split
  · rfl
  · rw [sweepPics_sv, freeBinds_sv]
    exact (sv_setSess _ _ _ (by intro; rfl)).trans (freeSource_sv ..)

theorem endFrame_reads (hc : Committed h num k full wait s) : ∃ y, look (endFrame h num s).sessions h = some y ∧ y.rate.full = full ∧
    y.idleFrom = some s.bell.num ∧ ∃ e, y.doneWait = wait ++ [e] ∧ e.1 = num := by
  obtain ⟨x, f, c, hx, hf, hb, hst, hnext, rfl, rfl⟩ := hc
  unfold endFrame
  simp -zeta only [hx, hf, Option.bind_some, Option.map_some]
  extract_lets kept slots s1 s2
  have h1 := look_setSess_sv (fun x => { x with
      pics := if kept = true then alter x.pics f.desc (fun p => { p with whole := true }) else x.pics,
      ltr := { x.ltr with slots := slots, last := if kept = true then some f.desc else none },
      idleFrom := some s.bell.num,
      doneWait := x.doneWait ++ [(num, f.bits, (if f.key = true then 1 else 0) + (if f.anyFb = true then 2 else 0) + (if f.dropped = true then 4 else 0) +
        (if f.mirrored = true then 8 else 0))] }) hx
  have h2 : sv s2 = sv s1 := stat_sv ..
  have h3 : sv (if f.sampled = true then sweepPics h (freeBinds h (freeSource h x f s2)) else dropFrame h num s2) = sv s1 := by
    split
    · rw [sweepPics_sv, freeBinds_sv, freeSource_sv, h2]
    · rw [dropFrame_sv, h2]
  obtain ⟨y, hy, ey⟩ := sv_look h3 h1
  exact ⟨y, hy, congrArg SV.full ey, congrArg SV.idleFrom ey, _, congrArg SV.doneWait ey, rfl⟩

/-! The commit. -/

theorem commitBand_bell (h num k : Nat) (b : Band) (r : Result) (res : BandResult) (s : State) :
    (commitBand h num k b r res s).bell.num = s.bell.num := (OM.fields (commitBand_om h num k b r res s (OM.refl _))).2.1

/-- What a commit leaves of the session: the bucket with the bits and the filler; the band committed with the next one following, or the frame ended. -/
theorem commitBand_reads (b : Band) (r : Result) (res : BandResult) (hx : look s.sessions h = some x) (hf : frameOf x num = some f)
    (hb : look f.bands k = some b') :
    ∃ y, look (commitBand h num k b r res s).sessions h = some y ∧
      y.rate.full = x.rate.full + (((codedOf h s x f k r res.frame).coded + (codedOf h s x f k r res.frame).frameBits) +
        fillerBits x f b k (x.rate.full + ((codedOf h s x f k r res.frame).coded + (codedOf h s x f k r res.frame).frameBits) * 256)) * 256 ∧
      (k < bandsOf f.height → ∃ g c, frameOf y num = some g ∧ g.next = k + 1 ∧ look g.bands k = some c ∧ c.st = 3) ∧
      (k = bandsOf f.height → y.idleFrom = some s.bell.num ∧ ∃ e, y.doneWait = x.doneWait ++ [e] ∧ e.1 = num) := by
  unfold commitBand
  simp -zeta only [hx, hf, Option.bind_some, Option.map_some]
  extract_lets c pad s1 s2 s4 s5
  have h1 : faces s1 = faces (accountBand h num k b r c s) := faces_of_bare rfl
  have h2 : faces s2 = faces s1 := finalise_faces ..
  have hk2 : OM (kept s) (kept s2) := finalise_om _ _ _ _ _ _ (by simp [s1])
  have h3 := releasePayload_faces h num (c.front ++ c.bytes ++ fillerUnit x.stream.codec (pad / 8)) s2
  have hk3 := releasePayload_om h num (c.front ++ c.bytes ++ fillerUnit x.stream.codec (pad / 8)) s2 hk2
  have h4 : faces s4 = faces (accountBand h num k b r c s) := (recordBand_faces ..).trans (h3.trans (h2.trans h1))
  have h5 := testNext_committed ((accountBand_committed b r c hx hf hb).of_faces h4)
  have hbell : s5.bell.num = s.bell.num := by
    have hk5 : OM (kept s) (kept s5) := by simpa [s5, s4] using hk3
    exact (OM.fields hk5).2.1
  have hfull : x.rate.full + (c.coded + c.frameBits) * 256 + pad * 256 = x.rate.full + ((c.coded + c.frameBits) + pad) * 256 := by ring
  split
  · next hk =>
    obtain ⟨y, hy, hyf, hidle, hdone⟩ := endFrame_reads h5
    exact ⟨y, hy, hyf.trans hfull, fun hlt => absurd hk (Nat.ne_of_lt hlt), fun _ => ⟨hidle.trans (congrArg some hbell), hdone⟩⟩
  · next hk =>
    obtain ⟨y, g, b'', hy, hg, hb'', hst, hnext, hyf, hdone⟩ := h5
    exact ⟨y, hy, hyf.trans hfull, fun _ => ⟨g, b'', hg, hnext, hb'', hst⟩, fun hkn => absurd hkn hk⟩

end

end Sys2Proof.Machine
end

section
/-! Work units, tile rows and bands of an encode or decode session: what starts, what a coded tile row leaves, and what the check decides. -/

namespace Sys2Proof.Machine
open Sys2Proof

/-- Engine n begins the unit, and no other engine changes. -/
def Begins (n : Nat) (u : UnitRef) (s t : State) : Prop :=
  (engOf t n).state = 3 ∧ (engOf t n).cancel = false ∧ (engOf t n).unit = some u ∧ ∀ k, k ≠ n → engOf t k = engOf s k

theorem startUnit_begins (n : Nat) (u : UnitRef) (s : State) : Begins n u s (startUnit n u s) := by
  have hself : engOf (startUnit n u s) n = _ := engOf_setEng ..
  refine ⟨?_, ?_, ?_, fun k hk => engOf_setEng_ne _ _ hk⟩ <;> rw [hself]

theorem startUnit_frame (n : Nat) (u : UnitRef) (s : State) :
    startUnit n u s = { s with engines := (startUnit n u s).engines, freeCtr := s.freeCtr + 1 } := rfl

theorem takeWork_frame (q : Nat) (t : TileRef) (s : State) : takeWork q t s = { s with quarters := (takeWork q t s).quarters } := by
  unfold takeWork
  split
  · rfl
  · split <;> rfl

theorem startRow_begins (u : UnitRef) (q : Nat) (s : State) : Begins u.engine u s (startRow u q s) := by
  obtain ⟨hst, hcan, hunit, hother⟩ := startUnit_begins u.engine u
    (takeWork q { handle := u.handle, frame := u.frame, band := u.band, branch := u.branch, col := u.col } s)
  refine ⟨hst, hcan, hunit, fun k hk => (hother k hk).trans ?_⟩
  rw [takeWork_frame]
  rfl

theorem startRow_frame (u : UnitRef) (q : Nat) (s : State) :
    startRow u q s = { s with engines := (startRow u q s).engines, freeCtr := s.freeCtr + 1, quarters := (startRow u q s).quarters } := by
  unfold startRow
  rw [takeWork_frame]
  rfl

section
variable {s : State} {x : Session} (hr : Runs s)
include hr

/-! PIX units. -/

theorem execWorkUnitStart_of_encode {u : UnitRef} {f : Frame} {b : Band} (hx : look s.sessions u.handle = some x) (hk : x.kind = 0)
    (ht : x.tan.role ≠ 2) (hf : frameOf x u.frame = some f) (hb : look f.bands u.band = some b) (hw : s.bell.window ≠ .guard)
    (hd : dispatches s = true) (he : engineFree s u.engine 0 = true) (hq : u.engine / 32 = b.quarter) (hq' : u.quarter = b.quarter)
    (hopen : unitOpen s x f b u = true) (hearly : earlierUnit s b.quarter (groupOf u.branch b.cadence) b.mark = false) :
    execWorkUnitStart u s = .next (startRow u b.quarter s) := by
  rw [execWorkUnitStart, onSession_of_look _ hr hx]
  simp [hk, ht, hf, hb, hw, hd, he, hq, hq', hopen, hearly]

theorem execWorkUnitStart_of_decode {u : UnitRef} {a : Au} {b : DecBand} (hx : look s.sessions u.handle = some x) (hk : x.kind = 1)
    (ht : x.tan.role ≠ 2) (hb : decBandOf x u.frame u.band = some (a, b)) (hw : s.bell.window ≠ .guard)
    (hd : dispatches s = true) (he : engineFree s u.engine 0 = true) (hq : u.engine / 32 = b.quarter) (hq' : u.quarter = b.quarter)
    (hopen : decUnitOpen s a b u = true) (hearly : earlierUnit s b.quarter (groupOf 0 b.cadence) a.mark = false) :
    execWorkUnitStart u s = .next (startUnit u.engine u s) := by
  rw [execWorkUnitStart, onSession_of_look _ hr hx]
  simp [hk, ht, hb, hw, hd, he, hq, hq', hopen, hearly]

/-! ENT units. -/

/-- The band as a tile row of it starts on an ENT engine. -/
def rowStarted (s : State) (x : Session) (f : Frame) (r : TileRef) (b : Band) : Band :=
  { b with
    ent := b.ent ++ [(r.branch, r.col)], fbRows := if b.deadline then b.fbRows ++ [(r.branch, r.col)] else b.fbRows,
    starts := put b.starts (rowKey r.branch r.col) (coderStart x f r.band r.col (firstQ f) (aboveBand f r.band)),
    blocks := b.blocks ++ rowDecs r.handle s x f r.band r.branch r.col b }

theorem execTileRowEntropyStart_of_encode {r : TileRef} {e : Nat} {f : Frame} {b : Band} (hx : look s.sessions r.handle = some x) (hk : x.kind = 0)
    (ht : x.tan.role ≠ 2) (hf : frameOf x r.frame = some f) (hb : look f.bands r.band = some b) (hd : dispatches s = true)
    (he : engineFree s e 1 = true) (hq : e / 32 = b.quarter) (hopen : rowOpen s x f r.band r.branch r.col b = true)
    (hearly : earlierRow s b.quarter (groupOf r.branch b.cadence) b.mark = false) :
    execTileRowEntropyStart r e s = .next (startEnt r b.quarter e (setBand r.handle r.frame r.band (rowStarted s x f r) s)) := by
  rw [execTileRowEntropyStart, onSession_of_look _ hr hx]
  simp [hk, ht, hf, hb, hd, he, hq, hopen, hearly] <;> rfl

theorem execTileRowEntropyStart_of_decode {r : TileRef} {e : Nat} {a : Au} {b : DecBand} (hx : look s.sessions r.handle = some x) (hk : x.kind = 1)
    (ht : x.tan.role ≠ 2) (hb : decBandOf x r.frame r.band = some (a, b)) (hd : dispatches s = true)
    (he : engineFree s e 1 = true) (hq : e / 32 = b.quarter) (hopen : parseOpen s a b = true)
    (hearly : earlierRow s b.quarter (groupOf 0 b.cadence) a.mark = false) :
    execTileRowEntropyStart r e s = .next (startEnt r b.quarter e
      (setAu s r.handle a.mark (fun a => { a with run := a.run.map (fun p => if p.k = b.k then { p with parse := 1 } else p) }))) := by
  rw [execTileRowEntropyStart, onSession_of_look _ hr hx]
  simp [hk, ht, hb, hd, he, hq, hopen, hearly]

/-! Coded tile rows. -/

/-- The band as a coded tile row of it is kept. -/
def rowKept (r : TileRef) (res : TileResult) (x : Session) (f : Frame) (n : Nat) (b : Band) : Band :=
  { b with
    rows := put b.rows (rowKey r.branch r.col) (res.bytes, n), ends := put b.ends (rowKey r.branch r.col) res.state,
    blocks := fallbackRow x f r.band r.branch r.col n b.blocks }

theorem execTileRowCoded_of_encode {r : TileRef} {res : TileResult} {f : Frame} {b : Band} (hx : look s.sessions r.handle = some x) (hk : x.kind = 0)
    (ht : x.tan.role ≠ 2) (hf : frameOf x r.frame = some f) (hb : look f.bands r.band = some b) (hst : b.st = 1) (hent : (r.branch, r.col) ∈ b.ent)
    (hrow : look b.rows (rowKey r.branch r.col) = none) (hbuf : outBufs res.bytes.length ≤ 8)
    (hout : outUsed s b.quarter + outBufs res.bytes.length ≤ 512) :
    execTileRowCoded r res s = .next (settleCoded r.handle r.frame r.band
      (setBand r.handle r.frame r.band (rowKept r res x f (rowFallback s x f r b res)) (freeEnt r s))) := by
  rw [execTileRowCoded, onSession_of_look _ hr hx]
  simp [hk, ht, hf, hb, hst, hent, hrow, hbuf, hout] <;> rfl

end

/-- A band as it waits for its check once its last row is coded. -/
theorem settleCoded_reads {s : State} {h num k : Nat} {x : Session} {f : Frame} {b : Band} (hx : look s.sessions h = some x)
    (hf : frameOf x num = some f) (hb : look f.bands k = some b) (hst : b.st = 1) :
    ∃ y g c, look (settleCoded h num k s).sessions h = some y ∧ frameOf y num = some g ∧ look g.bands k = some c ∧ c.rows = b.rows ∧
      c.ends = b.ends ∧ (b.fb = false → allCoded y g c = true → c.st = 2) := by
  unfold settleCoded
  simp only [hx, hf, hb, Option.bind_some, Option.map_some]
  split
  · exact ⟨_, _, _, look_setBand _ hx, frameOf_mapBand _ hf, look_mapBand _ hb, rfl, rfl, fun _ _ => rfl⟩
  · next hn => exact ⟨x, f, b, hx, hf, hb, rfl, rfl, fun hfb hall => absurd ⟨hst, hfb, hall⟩ hn⟩

theorem settleCoded_bell (h num k : Nat) (s : State) : (settleCoded h num k s).bell = s.bell := by
  unfold settleCoded
  split
  · split <;> rfl
  · rfl

end Sys2Proof.Machine
end

section
/-! The bucket boundary, the check of a band and its fallback, the packets of a band, and the entries that leave in order. -/

namespace Sys2Proof.Machine
open Sys2Proof

/-! The bucket boundary. -/

@[simp] theorem rephase_sv (h : Nat) (s : State) : sv (rephase h s) = sv s := by
  unfold rephase
  split
  · rfl
  · dsimp only
    split
    · rfl
    · exact sv_setSess _ _ _ (by intro; rfl)

theorem some_of_sv {s t : State} {n : Nat} {x : Session} (e : sv t = sv s) (hx : look s.sessions n = some x) : ∃ y, look t.sessions n = some y := by
  obtain ⟨y, hy, -⟩ := sv_look e hx
  exact ⟨y, hy⟩

section
variable {s : State} {n : Nat} {x : Session}

theorem boundaryStream_of_none (hx : look s.sessions n = some x) (hn : x.newStream = none) : boundaryStream n s = s := by
  rw [boundaryStream, hx]
  simp only [hn]

theorem boundaryStream_look (hx : look s.sessions n = some x) : ∃ y, look (boundaryStream n s).sessions n = some y := by
  have hput : ∀ (u : State) (y : Session) (t : State), sv t = sv { u with sessions := put u.sessions n y } → ∃ z, look t.sessions n = some z :=
    fun u y t e => some_of_sv e (look_put_self ..)
  have hstat : ∀ (c : Prop) [Decidable c] (u : State), sv (if c then u else stat n 31 1 u) = sv u := by
    intro c _ u
    split
    · rfl
    · exact stat_sv ..
  unfold boundaryStream
  simp only [hx]
  split
  · exact ⟨x, hx⟩
  · split
    · exact hput s _ _ (by rw [rephase_sv, givePhase_sv, hstat, sweepPics_sv])
    · split
      · exact hput s _ _ (sweepPics_sv ..)
      · split
        · exact some_of_sv (notice_sv ..) (look_setSess_sv _ hx)
        · exact hput s _ _ (by rw [rephase_sv, givePhase_sv, sweepPics_sv, hstat])

theorem boundaryEffort_reads (hx : look s.sessions n = some x) :
    ∃ y, look (boundaryEffort n s).sessions n = some y ∧ y.effort = x.effortTo.getD x.effort ∧ y.effortTo = none := by
  unfold boundaryEffort
  simp only [hx]
  split
  · next he => exact ⟨x, hx, by rw [he]; rfl, he⟩
  · next e he =>
    have h1 : look (setSess s n (fun x => { x with effort := e, effortTo := none })).sessions n = some { x with effort := e, effortTo := none } :=
      look_setSess_sv _ hx
    split
    · exact ⟨_, h1, by rw [he]; rfl, rfl⟩
    · obtain ⟨-, -, m, hm⟩ := stat_of_look 31 1 h1
      exact ⟨_, hm, by rw [he]; rfl, rfl⟩

theorem execBucketBoundary_reads {f : Frame} (hr : Runs s) (hx : look s.sessions n = some x) (hf : x.frames.find? (fun f => !frameOver f) = some f)
    (hb : f.bounded = false) (hk : x.kind = 0) :
    ∃ t y, execBucketBoundary n s = .next t ∧ look t.sessions n = some y ∧ y.newRate = none ∧ y.newBounds = none ∧ y.newRes = none ∧
      (x.newStream = none → y.effort = x.effortTo.getD x.effort ∧ y.effortTo = none) ∧
      y.frames.all (fun g => decide (g.num ≠ f.num) || g.bounded) = true := by
  obtain ⟨w, hw⟩ := boundaryStream_look hx
  obtain ⟨y, hy, heff, hto⟩ := boundaryEffort_reads hw
  have hsame : x.newStream = none → y.effort = x.effortTo.getD x.effort ∧ y.effortTo = none := by
    intro hn
    rw [boundaryStream_of_none hx hn, hx] at hw
    cases hw
    exact ⟨heff, hto⟩
  have hall : ∀ l : List Frame,
      (l.map (fun g => if g.num = f.num then { g with bounded := true } else g)).all (fun g => decide (g.num ≠ f.num) || g.bounded) = true := by
    intro l
    rw [List.all_map, List.all_eq_true]
    intro g _
    by_cases hg : g.num = f.num <;> simp [hg]
  rw [execBucketBoundary, onSession_of_look _ hr hx]
  simp only [hf, hb, hk, hy, Bool.false_eq_true, ne_eq, not_true_eq_false, or_self, if_false]
  refine ⟨_, _, rfl, look_put_self .., rfl, rfl, ?_, ?_, hall _⟩
  · unfold boundaryRate
    dsimp only
    split
    · assumption
    · rfl
  · unfold boundaryRate
    dsimp only
    split <;> exact hsame

end

/-! The check, and a band that fits with no branch. -/

@[simp] theorem stat_rc (h i n : Nat) (s : State) : (stat h i n s).rc = s.rc := by
  unfold stat
  split <;> rfl

@[simp] theorem cancelNext_rc (h num k : Nat) (s : State) : (cancelNext h num k s).rc = s.rc := by
  unfold cancelNext
  split
  · rfl
  · split <;> rfl

theorem replayNext_reject (h num k : Nat) (s : State) : (replayNext h num k s).rc.reject = s.rc.reject := by
  unfold replayNext
  split
  · rfl
  · split
    · rfl
    · dsimp only
      rw [stat_rc, cancelNext_rc]

theorem rejectBand_reject (h num k codec : Nat) (s : State) : (rejectBand h num k codec s).rc.reject = up s.rc.reject 1 := by
  unfold rejectBand
  dsimp only
  rw [replayNext_reject, stat_rc]
  rfl

theorem rejectBand_faces (h num k codec : Nat) (s : State) : faces (rejectBand h num k codec s) = faces (setBand h num k (wholeFallback codec) s) := by
  unfold rejectBand
  dsimp only
  rw [replayNext_faces, faces_of_bare (stat_bare ..)]
  exact faces_of_bare rfl

section
variable {s : State} {n : Nat} {x : Session} {f : Frame} {k : Nat} {b : Band} (hr : Runs s) (hx : look s.sessions n = some x)
include hx

theorem rejectBand_reads (codec : Nat) {num : Nat} (hf : frameOf x num = some f) (hb : look f.bands k = some b) :
    ∃ y g c, look (rejectBand n num k codec s).sessions n = some y ∧ frameOf y num = some g ∧ look g.bands k = some c ∧ c.st = 1 ∧ c.fb = true ∧
      c.nocheck = true ∧ c.q = fbQ codec ∧ y.rate.full = x.rate.full := by
  obtain ⟨y, hy, ey⟩ := look_of_faces (rejectBand_faces n num k codec s) (look_setBand _ hx)
  obtain ⟨g, hg, eg⟩ := frameOf_of_face ey (frameOf_mapBand _ hf)
  obtain ⟨c, hc, ec⟩ := look_of_frameFace eg (look_mapBand _ hb)
  exact ⟨y, g, c, hy, hg, hc, congrArg BandFace.st ec, congrArg BandFace.fb ec, congrArg BandFace.nocheck ec, congrArg BandFace.q ec,
    congrArg Face.full ey⟩

theorem replayNext_reads {num : Nat} (hf : frameOf x num = some f) (hb : look f.bands k = some b) :
    ∃ y g c, look (replayNext n num k s).sessions n = some y ∧ frameOf y num = some g ∧ look g.bands k = some c ∧ face y = face x ∧
      frameFace g = frameFace f := by
  obtain ⟨y, hy, ey⟩ := look_of_faces (replayNext_faces n num k s) hx
  obtain ⟨g, hg, eg⟩ := frameOf_of_face ey hf
  obtain ⟨c, hc, -⟩ := look_of_frameFace eg hb
  exact ⟨y, g, c, hy, hg, hc, ey, eg⟩

/-- Bits that band k adds to the coded data of its frame with a result (R200). -/
def bandBits (n : Nat) (s : State) (x : Session) (f : Frame) (k : Nat) (r : Result) (frame : List (List Byte)) : Nat :=
  (codedOf n s x f k r frame).coded + (codedOf n s x f k r frame).frameBits

omit hx in
theorem look_of_nextBand (hn : nextBand x = some (f, k, b)) : look f.bands k = some b := by
  unfold nextBand at hn
  split at hn
  · cases hn
  · next g _ =>
    split at hn
    · obtain ⟨c, hc, e⟩ := Option.map_eq_some_iff.mp hn
      cases e
      exact hc
    · cases hn

include hr

theorem execBandCheck_of_fit {br : Nat} {res : BandResult} (hk : x.kind = 0) (hn : nextBand x = some (f, k, b)) (hbell : b.bell = s.bell.num)
    (hst : b.st = 2)
    (hfit : (branches b).find? (fun r => decide (bandBits n s x f k (branchResult x f b r) res.frame ≤ budgetOf x f k 0)) = some br) :
    execBandCheck n res s = .next (commitBand n f.num k b (branchResult x f b br) res
      (if br = 1 ∧ b.deadline = false then replayNext n f.num k s else s)) := by
  rw [execBandCheck, onSession_of_look _ hr hx, if_neg (by omega), checkBand, hn]
  simp only [hst, hbell, ne_eq, not_true_eq_false, or_self, if_false]
  split
  · next h => cases h.symm.trans hfit
  · next h =>
    cases h.symm.trans hfit
    rfl

theorem execBandCheck_of_none {res : BandResult} (hk : x.kind = 0) (hn : nextBand x = some (f, k, b)) (hbell : b.bell = s.bell.num) (hst : b.st = 2)
    (hno : ∀ r, r ∈ branches b → budgetOf x f k 0 < bandBits n s x f k (branchResult x f b r) res.frame) :
    execBandCheck n res s = .next (rejectBand n f.num k x.stream.codec s) := by
  have hnone : (branches b).find? (fun r => decide (bandBits n s x f k (branchResult x f b r) res.frame ≤ budgetOf x f k 0)) = none := by
    rw [List.find?_eq_none]
    intro r hm
    simpa using hno r hm
  rw [execBandCheck, onSession_of_look _ hr hx, if_neg (by omega), checkBand, hn]
  simp only [hst, hbell, ne_eq, not_true_eq_false, or_self, if_false]
  split
  · rfl
  · next h => cases h.symm.trans hnone

end

/-! A fallback band. -/

/-- The blocks of a band coded whole in fallback mode. -/
def wholeBlocks (x : Session) (f : Frame) (k : Nat) (b : Band) : Band :=
  { b with blocks := (List.range (tileCols x.stream.codec f.width)).flatMap (fun c => (rowUnits x f k c).map (fallbackDec x f 0)) }

theorem takeWorks_frame (q : Nat) (l : List TileRef) (s : State) : takeWorks q l s = { s with quarters := (takeWorks q l s).quarters } := by
  refine foldl_frame (fun s t => takeWork q t s) (fun t => t = { s with quarters := t.quarters }) l s rfl (fun t a ht => ?_)
  rw [takeWork_frame, ht]

theorem tileBefore_mapBand (x : Session) (f : Frame) (num k : Nat) (g : Band → Band) :
    tileBefore (mapFrame num (mapBand k g) x) (mapBand k g f) k = tileBefore x f k := by
  unfold tileBefore
  refine List.map_congr_left (fun c _ => List.map_congr_left (fun j hj => ?_))
  have hlt : j + 1 ≠ k := by
    have := List.mem_range.mp (List.mem_filter.mp hj).1
    omega
  rw [look_mapBand_ne _ hlt]

theorem codedOf_mapBand (n : Nat) (s : State) (x : Session) (f : Frame) (num k : Nat) (g : Band → Band) (r : Result) (frame : List (List Byte)) :
    (codedOf n s (mapFrame num (mapBand k g) x) (mapBand k g f) k r frame).coded = (codedOf n s x f k r frame).coded ∧
    (codedOf n s (mapFrame num (mapBand k g) x) (mapBand k g f) k r frame).frameBits = (codedOf n s x f k r frame).frameBits := by
  unfold codedOf
  rw [tileBefore_mapBand]
  exact ⟨rfl, rfl⟩

theorem codedOf_takeWorks (n q : Nat) (l : List TileRef) (s : State) (x : Session) (f : Frame) (k : Nat) (r : Result) (frame : List (List Byte)) :
    codedOf n (takeWorks q l s) x f k r frame = codedOf n s x f k r frame := by
  rw [takeWorks_frame]
  rfl

section
variable {s : State} {n : Nat} {x : Session} {f : Frame} {k : Nat} {b : Band} {res : BandResult} (hr : Runs s) (hx : look s.sessions n = some x)

/-- The state in which a fallback band commits: its blocks and its work buffers are there. -/
def wholeState (n : Nat) (x : Session) (f : Frame) (k : Nat) (b : Band) (s : State) : State :=
  takeWorks b.quarter (bandTags n f.num k 0 (tileCols x.stream.codec f.width)) (setBand n f.num k (wholeBlocks x f k) s)

include hx

theorem look_wholeState : look (wholeState n x f k b s).sessions n = some (mapFrame f.num (mapBand k (wholeBlocks x f k)) x) := by
  rw [wholeState, takeWorks_frame]
  exact look_setBand _ hx

include hr

theorem execFallbackBandCommit_of_fit (hk : x.kind = 0) (hn : nextBand x = some (f, k, b)) (hbell : b.bell = s.bell.num) (hst : b.st = 1)
    (hno : b.nocheck = true) (hw : workUsed s b.quarter + workLacks s b.quarter (bandTags n f.num k 0 (tileCols x.stream.codec f.width)) ≤ 64)
    (hbound : (codedOf n s x f k (fallbackResult x f k b res) res.frame).coded * 256 ≤ bandBound (frameStream x f) x.rate.rateMax f.key k)
    (hfull : x.rate.full + bandBits n s x f k (fallbackResult x f k b res) res.frame * 256 ≤ x.rate.size) :
    execFallbackBandCommit n res s = .next (commitBand n f.num k b (fallbackResult x f k b res) res (wholeState n x f k b s)) := by
  rw [execFallbackBandCommit, onSession_of_look _ hr hx, hn]
  exact congrArg Host.Outcome.next (if_pos ⟨hst, hno, hbell, hk, hw, hbound, hfull⟩)

end

/-! Packets and entries. -/

@[simp] theorem sendMirror_sv (h : Nat) (r : BandRec) (rtp : Rtp) (s : State) : sv (sendMirror h r rtp s) = sv s := by
  unfold sendMirror
  split
  · rfl
  · split
    · rfl
    · exact (linkSend_sv ..).trans (sv_setSess _ _ _ (by intro; rfl))

section
variable {s : State} {n : Nat} {x : Session} (hr : Runs s) (hx : look s.sessions n = some x)
include hr hx

theorem execPacketizeBand_reads {pkts : List Nat} {r : BandRec} {l : List BandRec} (hrec : x.recs = r :: l)
    (hsize : pkts.all (fun m => decide (0 < m) && decide (m ≤ x.rtp.payMax)) = true) (hpay : r.payload ≠ none ∨ pkts = []) (hsafe : s.dev.safe = false)
    (hstop : s.tandem.stopped = false ∨ x.tan.role = 0) :
    ∃ t y, execPacketizeBand n pkts s = .next t ∧ look t.sessions n = some y ∧ y.recs = l ∧
      y.rtp = { x.rtp with seq := BitVec.ofNat 16 (x.rtp.seq.toNat + pkts.length), roc := x.rtp.roc + BitVec.ofNat 32 ((x.rtp.seq.toNat + pkts.length) / 65536),
                           packets := x.rtp.packets + pkts.length } := by
  have hany : pkts.any (fun n => decide (n = 0) || decide (x.rtp.payMax < n)) = false := by
    rw [List.any_eq_false]
    intro m hm
    have := List.all_eq_true.mp hsize m hm
    simp only [Bool.and_eq_true, decide_eq_true_eq] at this
    simp only [Bool.or_eq_true, decide_eq_true_eq]
    omega
  have hgone : ¬(r.payload.isNone = true ∧ pkts ≠ []) := fun ⟨hn, hp⟩ => hpay.elim (fun h => h (Option.isNone_iff_eq_none.mp hn)) hp
  have hmay : ¬(s.tandem.stopped = true ∧ x.tan.role ≠ 0) := fun ⟨hs, ht⟩ => hstop.elim (fun h => by simp [h] at hs) ht
  rw [execPacketizeBand, onSession_of_look _ hr hx, hrec]
  simp -zeta only [hany, hgone, hsafe, hmay, Bool.false_eq_true, or_self, if_false]
  extract_lets m next rtp0 rtp s1 s2 s3
  have h1 : sv s1 = sv s := (foldl_sv _ _ _ (fun t i => by split; exacts [rfl, queueFlow_sv ..])).trans (sendMirror_sv ..)
  obtain ⟨y1, hy1, -⟩ := sv_look h1 hx
  have h2 : look s2.sessions n = some { y1 with recs := l, rtp := rtp } := look_setSess_sv _ hy1
  have h3 : sv s3 = sv s2 := (stat_sv ..).trans (stat_sv ..)
  have h4 : sv (match r.payload with | none => s3 | some w => drop (sessReq n) w 0 s3) = sv s2 := by
    cases r.payload with
    | none => exact h3
    | some w => exact (drop_sv ..).trans h3
  obtain ⟨y, hy, ey⟩ := sv_look h4 h2
  exact ⟨_, y, rfl, hy, congrArg SV.recs ey, congrArg SV.rtp ey⟩

end

end Sys2Proof.Machine
end

section
/-! The statement on effort, work units and bands (R21, R25, R100, R101, R113 to R117, R172, R201, R205, R210). -/

namespace Sys2Proof.Machine
open Sys2Proof

theorem exec_effortLower (n : Nat) (s : State) : exec (.effortLower n) s = execEffortLower n s := rfl
theorem exec_effortRaise (n : Nat) (s : State) : exec (.effortRaise n) s = execEffortRaise n s := rfl
theorem exec_bucketBoundary (n : Nat) (s : State) : exec (.bucketBoundary n) s = execBucketBoundary n s := rfl
theorem exec_workUnitStart (u : UnitRef) (s : State) : exec (.workUnitStart u) s = execWorkUnitStart u s := rfl
theorem exec_tileRowEntropyStart (r : TileRef) (e : Nat) (s : State) : exec (.tileRowEntropyStart r e) s = execTileRowEntropyStart r e s := rfl
theorem exec_tileRowCoded (r : TileRef) (res : TileResult) (s : State) : exec (.tileRowCoded r res) s = execTileRowCoded r res s := rfl
theorem exec_bandCheck (n : Nat) (res : BandResult) (s : State) : exec (.bandCheck n res) s = execBandCheck n res s := rfl
theorem exec_fallbackBandCommit (n : Nat) (res : BandResult) (s : State) : exec (.fallbackBandCommit n res) s = execFallbackBandCommit n res s := rfl
theorem exec_packetizeBand (n : Nat) (pkts : List Nat) (s : State) : exec (.packetizeBand n pkts) s = execPacketizeBand n pkts s := rfl
theorem exec_bandDone (n : Nat) (s : State) : exec (.bandDone n) s = execBandDone n s := rfl
theorem exec_frameDone (n : Nat) (s : State) : exec (.frameDone n) s = execFrameDone n s := rfl

theorem mem_of_keeps {o : Host.Outcome State Fault Refusal} {s t : State} (h : Keeps o s) (ht : o = .next t) : t.mem = s.mem :=
  (of_core (congrArg Kept.core (h t ht))).1

/-- The BAND_DONE entry of a part that leaves at the position of the host buffer. -/
def bandEntry (n : Nat) (x : Session) (h : Ht) (p : HtPart) : Cqe :=
  { r0 := tokenOf n x.gen, r1 := BitVec.ofNat 32 p.frame, r2 := BitVec.ofNat 32 (h.w % max 1 h.size), r3 := BitVec.ofNat 32 p.bytes,
    mark := some p.mark, cid := BitVec.ofNat 16 p.band, status := BitVec.ofNat 16 p.flags, opcode := 0x7F, cmdRing := h.cmdRing, counts := false,
    bytes := some (n, p.bytes) }

section
variable {s : State} {n : Nat} {x : Session} {f : Frame} {k : Nat} {b : Band} {res : BandResult} (hr : Runs s) (hx : look s.sessions n = some x)
include hr hx

/-- A band that fits commits; a replay of the next band that is cancelled first changes nothing that the commit reads but the bits it counts. -/
theorem execBandCheck_reads {br : Nat} (hk : x.kind = 0) (hn : nextBand x = some (f, k, b)) (hf : frameOf x f.num = some f)
    (hbell : b.bell = s.bell.num) (hst : b.st = 2)
    (hfit : (branches b).find? (fun r => decide (bandBits n s x f k (branchResult x f b r) res.frame ≤ budgetOf x f k 0)) = some br) :
    ∃ t y, execBandCheck n res s = .next t ∧ look t.sessions n = some y ∧
      (br = 0 ∨ b.deadline = true → y.rate.full = x.rate.full + (bandBits n s x f k (branchResult x f b br) res.frame +
        fillerBits x f b k (x.rate.full + bandBits n s x f k (branchResult x f b br) res.frame * 256)) * 256) ∧
      (k < bandsOf f.height → ∃ g c, frameOf y f.num = some g ∧ g.next = k + 1 ∧ look g.bands k = some c ∧ c.st = 3) ∧
      (k = bandsOf f.height → y.idleFrom = some s.bell.num ∧ ∃ e, y.doneWait = x.doneWait ++ [e] ∧ e.1 = f.num) ∧ t.bell.num = s.bell.num := by
  have hb := look_of_nextBand hn
  rw [execBandCheck_of_fit hr hx hk hn hbell hst hfit]
  by_cases hrep : br = 1 ∧ b.deadline = false
  · obtain ⟨x', f', b', hx', hf', hb', ex, ef⟩ := replayNext_reads hx hf hb
    have hbell' : (replayNext n f.num k s).bell.num = s.bell.num := (of_core (congrArg Kept.core (replayNext_kept n f.num k s))).2.2.1
    have hheight : f'.height = f.height := congrArg FrameFace.height ef
    obtain ⟨y, hy, -, hmore, hend⟩ := commitBand_reads b (branchResult x f b br) res hx' hf' hb'
    rw [hheight] at hmore hend
    rw [hbell', show x'.doneWait = x.doneWait from congrArg Face.doneWait ex] at hend
    rw [if_pos hrep]
    exact ⟨_, y, rfl, hy, fun h => by simp [hrep] at h, hmore, hend, (commitBand_bell ..).trans hbell'⟩
  · obtain ⟨y, hy, hfull, hmore, hend⟩ := commitBand_reads b (branchResult x f b br) res hx hf hb
    rw [if_neg hrep]
    exact ⟨_, y, rfl, hy, fun _ => hfull, hmore, hend, commitBand_bell ..⟩

/-- A fallback band commits with the bits of its result: the blocks and the work buffers that it takes change none of them. -/
theorem execFallbackBandCommit_reads (hk : x.kind = 0) (hn : nextBand x = some (f, k, b)) (hf : frameOf x f.num = some f)
    (hbell : b.bell = s.bell.num) (hst : b.st = 1) (hno : b.nocheck = true)
    (hw : workUsed s b.quarter + workLacks s b.quarter (bandTags n f.num k 0 (tileCols x.stream.codec f.width)) ≤ 64)
    (hbound : (codedOf n s x f k (fallbackResult x f k b res) res.frame).coded * 256 ≤ bandBound (frameStream x f) x.rate.rateMax f.key k)
    (hfull : x.rate.full + bandBits n s x f k (fallbackResult x f k b res) res.frame * 256 ≤ x.rate.size) :
    ∃ t y, execFallbackBandCommit n res s = .next t ∧ look t.sessions n = some y ∧
      y.rate.full = x.rate.full + (bandBits n s x f k (fallbackResult x f k b res) res.frame +
        fillerBits x f b k (x.rate.full + bandBits n s x f k (fallbackResult x f k b res) res.frame * 256)) * 256 ∧
      (k < bandsOf f.height → ∃ g c, frameOf y f.num = some g ∧ g.next = k + 1 ∧ look g.bands k = some c ∧ c.st = 3) ∧
      (k = bandsOf f.height → y.idleFrom = some s.bell.num ∧ ∃ e, y.doneWait = x.doneWait ++ [e] ∧ e.1 = f.num) ∧ t.bell.num = s.bell.num := by
  have hbell' : (wholeState n x f k b s).bell.num = s.bell.num := by
    rw [wholeState, takeWorks_frame]
    rfl
  obtain ⟨y, hy, hrate, hmore, hend⟩ := commitBand_reads b (fallbackResult x f k b res) res (look_wholeState hx) (frameOf_mapBand (wholeBlocks x f k) hf)
    (look_mapBand (wholeBlocks x f k) (look_of_nextBand hn))
  obtain ⟨hcoded, hbits⟩ := codedOf_mapBand n (wholeState n x f k b s) x f f.num k (wholeBlocks x f k) (fallbackResult x f k b res) res.frame
  have hsame : codedOf n (wholeState n x f k b s) x f k (fallbackResult x f k b res) res.frame =
      codedOf n s x f k (fallbackResult x f k b res) res.frame := codedOf_takeWorks ..
  rw [hcoded, hbits, hsame] at hrate
  rw [hbell'] at hend
  exact ⟨_, y, execFallbackBandCommit_of_fit hr hx hk hn hbell hst hno hw hbound hfull, hy, hrate, hmore, hend, (commitBand_bell ..).trans hbell'⟩

/-- A BAND_DONE entry leaves with its fields, once the position that it names is taken. -/
theorem execBandDone_reads {h : Ht} {p : HtPart} {l : List HtPart} (hht : x.ht = some h) (hwait : h.waiting = p :: l)
    (hroom : h.w + p.bytes - h.consumed ≤ h.size) :
    ∃ u y, execBandDone n s = .next (enqueueCqe h.fn h.cq (bandEntry n x h p) u) ∧
      look u.sessions n = some y ∧ y.ht = some { h with w := h.w + p.bytes, waiting := l } := by
  rw [execBandDone, onSession_of_look _ hr hx, hht]
  simp -zeta only [hwait, hroom, if_true]
  extract_lets s1 s2
  have h1 : look s1.sessions n = some { x with ht := some { h with w := h.w + p.bytes, waiting := l } } := look_setSess_sv _ hx
  have h2 : sv s2 = sv s1 := by
    simp only [s2]
    split
    · rfl
    · exact drop_sv ..
  obtain ⟨y, hy, ey⟩ := sv_look h2 h1
  exact ⟨s2, y, rfl, hy, congrArg SV.ht ey⟩

end

/-- Settles O15: each command is read off its case, with what the pool, the records and the pictures leave of a session (its face). -/
theorem bandsAreDispatchedCodedAndCommitted : Obligations.BandsAreDispatchedCodedAndCommitted := by
  unfold Obligations.BandsAreDispatchedCodedAndCommitted
  simp only [exec_effortLower, exec_effortRaise, exec_bucketBoundary, exec_workUnitStart, exec_tileRowEntropyStart, exec_tileRowCoded, exec_bandCheck,
    exec_fallbackBandCommit, exec_packetizeBand, exec_bandDone, exec_frameDone, Completes]
  refine ⟨?lower, ?raise, ?boundary, ?unit, ?decUnit, ?row, ?decRow, ?coded, ?check, ?reject, ?fallback, ?packets, ?bandDone, ?frameDone⟩
  case lower =>
    intro n x s hr hx hen hk hst hto hmin hdem
    rw [execEffortLower, onSession_of_look _ hr hx]
    simp [hen, hk, hst, hto, hmin, hdem, setSess]
  case raise =>
    intro n x s hr hx hen hk hst hto hmax hfb hadm
    rw [execEffortRaise, onSession_of_look _ hr hx]
    simp [hen, hk, hst, hto, hmax, hfb, hadm, setSess]
  case boundary =>
    intro n x f s hr hx hf hb hk
    obtain ⟨t, y, ht, hy, hrest⟩ := execBucketBoundary_reads hr hx hf hb hk
    exact ⟨t, ht, ⟨y, hy, hrest⟩, mem_of_keeps (execBucketBoundary_kept n s) ht⟩
  case unit =>
    intro u x f b s hr hx hk ht hf hb hw hd he hq hq' hst hfb hdl hbr hcol hblk hstage hnot hruns hready hroom hearly
    have hopen : unitOpen s x f b u = true := by
      simp only [unitOpen, rowRoom, hst, hfb, hdl, hbr, hcol, hblk, hstage, hnot, hruns, hready]
      simpa using hroom
    obtain ⟨hstate, hcan, hunit, hother⟩ := startRow_begins u b.quarter s
    exact ⟨_, execWorkUnitStart_of_encode hr hx hk ht hf hb hw hd he hq hq' hopen hearly, hstate, hcan, hunit, hother, startRow_frame ..⟩
  case decUnit =>
    intro u x a b s hr hx hk ht hb hw hd he hq hq' hopen hearly
    obtain ⟨hstate, hcan, hunit, hother⟩ := startUnit_begins u.engine u s
    exact ⟨_, execWorkUnitStart_of_decode hr hx hk ht hb hw hd he hq hq' hopen hearly, hstate, hcan, hunit, hother, startUnit_frame ..⟩
  case row =>
    intro r e x f b s hr hx hk ht hf hb hd he hq hst hfb habove hw hbr hcol hnot hdone hearly
    have hopen : rowOpen s x f r.band r.branch r.col b = true := by
      have hwindow : (decide (s.bell.window ≠ .guard) || b.deadline) = true := by simpa using hw
      have hpix : (b.deadline || pixDone x f r.band b r.branch r.col) = true := by simpa using hdone
      cases h : aboveBand f r.band with
      | none =>
        have hfirst : r.band = 1 := by simpa only [h] using habove
        simp only [rowOpen, h, hst, hfb, hwindow, hbr, hcol, hnot, hpix]
        simpa using hfirst
      | some p =>
        have hprev : p.st = 3 := by simpa only [h] using habove
        simp only [rowOpen, h, hst, hfb, hprev, hwindow, hbr, hcol, hnot, hpix]
        simp
    obtain ⟨hstate, hcan, hunit, hother⟩ := startUnit_begins e { unitOf r b.quarter 0 99 with engine := e }
      (setBand r.handle r.frame r.band (rowStarted s x f r) s)
    refine ⟨_, execTileRowEntropyStart_of_encode hr hx hk ht hf hb hd he hq hopen hearly, hstate, hcan, ⟨_, hunit, rfl, rfl, rfl, rfl, rfl, rfl⟩,
      ⟨_, _, _, look_setBand _ hx, frameOf_mapBand _ hf, look_mapBand _ hb, rfl, hst, rfl⟩, hother, rfl⟩
  case decRow =>
    intro r e x a b s hr hx hk ht hb hd he hq hopen hearly
    obtain ⟨hstate, hcan, hunit, hother⟩ := startUnit_begins e { unitOf r b.quarter 0 99 with engine := e }
      (setAu s r.handle a.mark (fun a => { a with run := a.run.map (fun p => if p.k = b.k then { p with parse := 1 } else p) }))
    exact ⟨_, execTileRowEntropyStart_of_decode hr hx hk ht hb hd he hq hopen hearly, hstate, hcan, ⟨_, hunit, rfl, rfl, rfl, rfl, rfl, rfl⟩, hother, rfl⟩
  case coded =>
    intro r res x f b s hr hx hk ht hf hb hst hent hrow hbuf hout
    have hnext := execTileRowCoded_of_encode hr hx hk ht hf hb hst hent hrow hbuf hout
    have hx' : look (freeEnt r s).sessions r.handle = some x := hx
    have hb' := look_mapBand (rowKept r res x f (rowFallback s x f r b res)) hb
    obtain ⟨y, g, c, hy, hg, hc, hrows, hends, hall⟩ := settleCoded_reads (look_setBand _ hx') (frameOf_mapBand _ hf) hb' hst
    refine ⟨_, hnext, ⟨y, g, c, hy, hg, hc, ?_, ?_, hall⟩, mem_of_keeps (execTileRowCoded_kept r res s) hnext, settleCoded_bell ..⟩
    · rw [hrows]
      exact look_put_self ..
    · rw [hends]
      exact look_put_self ..
  case check =>
    intro n x res f k br b s hr hx hk hn hf hbell hst hfit
    obtain ⟨t, y, ht, hy, hfull, hmore, hend, hnum⟩ := execBandCheck_reads hr hx hk hn hf hbell hst hfit
    exact ⟨t, ht, ⟨y, hy, hfull, hmore, hend⟩, hnum⟩
  case reject =>
    intro n x res f k b s hr hx hk hn hf hbell hst hno
    have hnext := execBandCheck_of_none hr hx hk hn hbell hst hno
    exact ⟨_, hnext, rejectBand_reads hx _ hf (look_of_nextBand hn), rejectBand_reject ..,
      (of_core (congrArg Kept.core (rejectBand_kept n f.num k x.stream.codec s))).1⟩
  case fallback =>
    intro n x res f k b s hr hx hk hn hf hbell hst hno hw hbound hfull
    obtain ⟨t, y, ht, hy, hrate, hmore, hend, hnum⟩ := execFallbackBandCommit_reads hr hx hk hn hf hbell hst hno hw hbound hfull
    exact ⟨t, ht, ⟨y, hy, hrate, hmore, hend⟩, hnum⟩
  case packets =>
    intro n x pkts r l s hr hx hrec hsize hpay hsafe hstop
    obtain ⟨t, y, ht, hy, hrest⟩ := execPacketizeBand_reads hr hx hrec hsize hpay hsafe hstop
    exact ⟨t, ht, ⟨y, hy, hrest⟩, mem_of_keeps (execPacketizeBand_kept n pkts s) ht⟩
  case bandDone =>
    intro n x h p l s hr hx hht hwait hroom
    obtain ⟨u, y, ht, hy, hyht⟩ := execBandDone_reads hr hx hht hwait hroom
    exact ⟨_, ht, ⟨u, rfl, y, hy, hyht⟩, mem_of_keeps (execBandDone_kept n s) ht⟩
  case frameDone =>
    intro n x num bits flags l s hr hx hwait hnot
    have hlive : (decide (8 ≤ flags) && x.tan.live) = false := by
      cases hnot with
      | inl h => simp [Nat.not_le.mpr h]
      | inr h => simp [h]
    rw [execFrameDone, onSession_of_look _ hr hx, hwait]
    simp [hlive, setSess]

end Sys2Proof.Machine
end

section
/-! Quarters: what their control registers and the REZONE commands make of one, and the statement on them (R57, R58, R69). -/

namespace Sys2Proof.Machine
open Sys2Proof

theorem exec_qtrEnable (q : Nat) (s : State) : exec (.qtrEnable q) s = execQtrEnable q s := rfl
theorem exec_qtrDisable (q : Nat) (s : State) : exec (.qtrDisable q) s = execQtrDisable q s := rfl
theorem exec_qtrRezoneGo (q : Nat) (s : State) : exec (.qtrRezoneGo q) s = execQtrRezoneGo q s := rfl
theorem exec_qtrRezoneRetire (q : Nat) (s : State) : exec (.qtrRezoneRetire q) s = execQtrRezoneRetire q s := rfl
theorem exec_rezoneGo (h : Hdr) (q pad : Nat) (s : State) : exec (.rezoneGo h q pad) s = execRezoneGo h q pad s := rfl
theorem exec_rezoneRetire (h : Hdr) (q pad : Nat) (s : State) : exec (.rezoneRetire h q pad) s = execRezoneRetire h q pad s := rfl

/-- A register write without an operand has no reserved bit to change (R562). -/
theorem blockWrite_of_serves {s : State} (f : State → State) (hs : Serves s) : blockWrite 0 0 s f = .next (f (wake s)) :=
  blockWrite_of_accepted f hs rfl

theorem plainCmd_of_hears {s : State} {h : Hdr} (f : State → State) (hh : Hears s h) : plainCmd h s f = .next (f s) := by
  obtain ⟨hr, hon⟩ := hh
  rw [plainCmd, live_of_runs _ hr, if_pos hon]

/-! Waking changes no Quarter and no plan (R525). -/

@[simp] theorem qtrOf_wake (s : State) (q : Nat) : qtrOf (wake s) q = qtrOf s q := by rw [qtrOf, qtrOf, wake_quarters]
@[simp] theorem districtOf_wake (s : State) (q : Nat) : districtOf (wake s) q = districtOf s q := by rw [districtOf, districtOf, wake_plan]
@[simp] theorem otherBusy_wake (s : State) (q : Nat) : otherBusy (wake s) q = otherBusy s q := by rw [otherBusy, otherBusy, wake_quarters]

theorem setQtr_wake (s : State) (q : Nat) (g : Quarter → Quarter) :
    setQtr (wake s) q g = { wake s with quarters := put s.quarters q (g (qtrOf s q)) } := by
  rw [setQtr, qtrOf_wake, wake_quarters]

theorem setQtr_setQtr (s : State) (q : Nat) (f g : Quarter → Quarter) : setQtr (setQtr s q f) q g = setQtr s q (fun t => g (f t)) := by
  simp only [setQtr, qtrOf, put_put, lookD_put_self]

/-! A state whose Quarters are those of s but for one. -/

section
variable {s t : State} {q : Nat} {x : Quarter} (h : t.quarters = put s.quarters q x)
include h

theorem qtrOf_of_put : qtrOf t q = x := by
  rw [qtrOf, h]
  exact lookD_put_self ..

theorem qtrOf_of_put_ne : ∀ p, p ≠ q → qtrOf t p = qtrOf s p := fun p hp => by
  rw [qtrOf, h]
  exact lookD_put_ne _ _ _ hp

end

/-- A Quarter that enters LOADING takes its District and forgets its drain; the engines, the Quarter and the plan's Districts and microcode alone
change (R57, R299). The Quarters before are those of s, which may be about to wake as u. -/
theorem enterLoading_reads {s u : State} (q : Nat) (r : Bool) (hu : u.quarters = s.quarters) {t : State} (ht : t = enterLoading q r u) :
    (qtrOf t q).state = 5 ∧ (qtrOf t q).en = ((qtrOf s q).en || !allOff (districtOf t q)) ∧ (qtrOf t q).pend = false ∧ (qtrOf t q).drain = none ∧
    (qtrOf t q).mcSet = (districtOf t q).mcSet ∧ (qtrOf t q).weight = (districtOf t q).weight ∧ (∀ p, p ≠ q → qtrOf t p = qtrOf s p) ∧
    t = { u with quarters := t.quarters, engines := t.engines, plan := t.plan } := by
  obtain ⟨pl, e, id, he⟩ := enterLoading_frame q r u
  have hqu : qtrOf u q = qtrOf s q := by rw [qtrOf, qtrOf, hu]
  have hq : t.quarters = put s.quarters q (loadedQ r (districtOf t q) { qtrOf s q with planId := id }) := by
    rw [ht, he, ← hu, ← hqu]
    rfl
  rw [qtrOf_of_put hq]
  refine ⟨rfl, rfl, rfl, rfl, rfl, rfl, qtrOf_of_put_ne hq, ?_⟩
  rw [ht, he]

/-! The checks of a REZONE in their order (R58). -/

section
variable {s : State} {q : Nat}

theorem rezoneCode_of_changing (b : Bool) (hlo : 3 ≤ (qtrOf s q).state) (hhi : (qtrOf s q).state ≤ 6) : rezoneCode s q b = some 0x0121 := by
  have h0 : (qtrOf s q).state ≠ 0 := by omega
  have h1 : (qtrOf s q).state ≠ 1 := by omega
  have h2 : (qtrOf s q).state ≠ 2 := by omega
  have h7 : (qtrOf s q).state ≠ 7 := by omega
  simp [rezoneCode, h0, h1, h2, h7]

theorem rezoneCode_of_busy (b : Bool) (hst : (qtrOf s q).state = 2 ∨ (qtrOf s q).state = 7) (hbusy : otherBusy s q = true) :
    rezoneCode s q b = some 0x0122 := by
  rcases hst with hst | hst <;> simp [rezoneCode, hst, hbusy]

theorem rezoneCode_of_noPlan (hst : (qtrOf s q).state = 2 ∨ (qtrOf s q).state = 7) (hbusy : otherBusy s q = false) (himg : s.plan.image = none) :
    rezoneCode s q false = some 0x0120 := by
  rcases hst with hst | hst <;> simp [rezoneCode, hst, hbusy, himg]

/-! What a REZONE and a RETIRE make of the Quarter (R57). -/

theorem rezoneGo_of_code {c : Code} (hc : rezoneCode s q false = some c) : rezoneGo q s = (c, qtrRefuse q c s) := by
  rw [rezoneGo, hc]

theorem rezoneGo_of_service (hc : rezoneCode s q false = none) (hst : (qtrOf s q).state = 1) : rezoneGo q s = (0, startDrain q 5 true s) := by
  rw [rezoneGo, hc, startRezone, if_pos hst]

theorem rezoneGo_of_idle (hc : rezoneCode s q false = none) (hst : (qtrOf s q).state ≠ 1) : rezoneGo q s = (0, enterLoading q true s) := by
  rw [rezoneGo, hc, startRezone, if_neg hst]

theorem rezoneRetire_of_idle (hst : (qtrOf s q).state = 2 ∨ (qtrOf s q).state = 5 ∨ (qtrOf s q).state = 6) :
    rezoneRetire q s = (0, setQtr s q (fun t => { t with state := 7, drain := none, pend := false, isRezone := false })) := by
  rcases hst with hst | hst | hst <;> simp [rezoneRetire, retireQuarter, hst]

theorem rezoneRetire_of_serving (hst : (qtrOf s q).state = 1 ∨ (qtrOf s q).state = 3) :
    rezoneRetire q s = (0, setQtr s q (fun t => { t with drain := some 7, pend := decide (t.state = 1) || t.pend, isRezone := false })) := by
  rcases hst with hst | hst <;> simp [rezoneRetire, retireQuarter, hst]

theorem rezoneRetire_of_none (hst : (qtrOf s q).state = 0 ∨ (qtrOf s q).state = 4 ∨ (qtrOf s q).state = 7) :
    rezoneRetire q s = (0x0121, qtrRefuse q 0x0121 s) := by
  rw [rezoneRetire, if_pos hst]

/-! The register writes and the commands. -/

theorem execQtrRezoneGo_of_serves (hs : Serves s) (hq : q < 16) : execQtrRezoneGo q s = .next (rezoneGo q (wake s)).2 := by
  rw [execQtrRezoneGo, blockWrite_of_serves _ hs, if_pos hq]

theorem execQtrRezoneRetire_of_serves (hs : Serves s) (hq : q < 16) : execQtrRezoneRetire q s = .next (rezoneRetire q (wake s)).2 := by
  rw [execQtrRezoneRetire, blockWrite_of_serves _ hs, if_pos hq]

/-- The PF's REZONE command posts the code that its operation answers (R381). -/
theorem rezoneCmd_of_pf {h : Hdr} (f : State → Code × State) (hf : h.fn = 0) (ht : h.token = 0) (hq : q < 16) :
    rezoneCmd h q 0 f s = complete h 0x0E (f s).1 [] (f s).2 := by
  rw [rezoneCmd, if_neg (not_not_intro hf), if_neg (by simp [ht]; omega)]

theorem execRezoneGo_of_hears {h : Hdr} (hh : Hears s h) (hf : h.fn = 0) (ht : h.token = 0) (hq : q < 16) :
    execRezoneGo h q 0 s = .next (complete h 0x0E (rezoneGo q s).1 [] (rezoneGo q s).2) := by
  rw [execRezoneGo, plainCmd_of_hears _ hh, rezoneCmd_of_pf _ hf ht hq]

theorem execRezoneRetire_of_hears {h : Hdr} (hh : Hears s h) (hf : h.fn = 0) (ht : h.token = 0) (hq : q < 16) :
    execRezoneRetire h q 0 s = .next (complete h 0x0E (rezoneRetire q s).1 [] (rezoneRetire q s).2) := by
  rw [execRezoneRetire, plainCmd_of_hears _ hh, rezoneCmd_of_pf _ hf ht hq]

theorem execQtrEnable_of_off (hs : Serves s) (hq : q < 16) (hen : (qtrOf s q).en = false) (hst : (qtrOf s q).state = 0)
    (hd : allOff (districtOf s q) = false) : execQtrEnable q s = .next (enterLoading q false (wake s)) := by
  rw [execQtrEnable, blockWrite_of_serves _ hs]
  simp [hen, hst, hd, hq]

theorem execQtrEnable_of_refused (hs : Serves s) (hq : q < 16) (hen : (qtrOf s q).en = false)
    (hno : (qtrOf s q).state ≠ 0 ∨ allOff (districtOf s q) = true) : execQtrEnable q s = .next (qtrRefuse q 0x0121 (wake s)) := by
  rw [execQtrEnable, blockWrite_of_serves _ hs]
  simp [hen, hno, hq]

theorem execQtrDisable_of_spare (hs : Serves s) (hq : q < 16) (hen : (qtrOf s q).en = true) (hst : (qtrOf s q).state = 2) :
    execQtrDisable q s = .next (setQtr (wake s) q (fun t => { t with en := false, state := 0 })) := by
  rw [execQtrDisable, blockWrite_of_serves _ hs]
  simp [hen, hst, hq]

theorem execQtrDisable_of_service (hs : Serves s) (hq : q < 16) (hen : (qtrOf s q).en = true) (hst : (qtrOf s q).state = 1)
    (hp : (qtrOf s q).pend = false) (hbusy : otherBusy s q = false) :
    execQtrDisable q s = .next (setQtr (startDrain q 0 false (wake s)) q (fun t => { t with en := false })) := by
  rw [execQtrDisable, blockWrite_of_serves _ hs]
  simp [hen, hst, hp, hbusy, hq]

end

/-- Settles O3: each clause is the case of the register write or command that its hypotheses name. -/
theorem quarterControl : Obligations.QuarterControl := by
  unfold Obligations.QuarterControl
  simp only [exec_qtrEnable, exec_qtrDisable, exec_qtrRezoneGo, exec_qtrRezoneRetire, exec_rezoneGo, exec_rezoneRetire, Completes]
  refine ⟨?enable, ?enableRefused, ?disableSpare, ?disableService, ?goIdle, ?goService, ?goChanging, ?goBusy, ?goNoPlan, ?retireIdle, ?retireServing,
    ?cmdIdle, ?cmdService, ?cmdChanging, ?cmdRetireIdle, ?cmdRetireServing, ?cmdRetireRefused⟩
  case enable =>
    intro q s hs hq hen hst hd
    exact ⟨_, execQtrEnable_of_off hs hq hen hst hd, enterLoading_reads q false (wake_quarters s) rfl⟩
  case enableRefused =>
    intro q s hs hq hen hno
    rw [execQtrEnable_of_refused hs hq hen hno, qtrRefuse, setQtr_wake]
  case disableSpare =>
    intro q s hs hq hen hst
    rw [execQtrDisable_of_spare hs hq hen hst, setQtr_wake]
  case disableService =>
    intro q s hs hq hen hst hp hbusy
    have ht := execQtrDisable_of_service hs hq hen hst hp hbusy
    rw [startDrain, setQtr_setQtr, setQtr_wake] at ht
    exact ⟨_, ht, qtrOf_of_put rfl, qtrOf_of_put_ne rfl, rfl⟩
  case goIdle =>
    intro q s hs hq hc hst
    refine ⟨_, execQtrRezoneGo_of_serves hs hq, enterLoading_reads q true (wake_quarters s) ?_⟩
    rw [rezoneGo_of_idle hc (by rwa [qtrOf_wake])]
  case goService =>
    intro q s hs hq hc hst
    rw [execQtrRezoneGo_of_serves hs hq, rezoneGo_of_service hc (by rwa [qtrOf_wake]), startDrain, setQtr_wake]
  case goChanging =>
    intro q s hs hq hlo hhi
    rw [execQtrRezoneGo_of_serves hs hq, rezoneGo_of_code (rezoneCode_of_changing _ (by rwa [qtrOf_wake]) (by rwa [qtrOf_wake])), qtrRefuse, setQtr_wake]
  case goBusy =>
    intro q s hs hq hst hbusy
    rw [execQtrRezoneGo_of_serves hs hq, rezoneGo_of_code (rezoneCode_of_busy _ (by rwa [qtrOf_wake]) (by rwa [otherBusy_wake])), qtrRefuse, setQtr_wake]
  case goNoPlan =>
    intro q s hs hq hst hbusy himg
    rw [execQtrRezoneGo_of_serves hs hq,
      rezoneGo_of_code (rezoneCode_of_noPlan (by rwa [qtrOf_wake]) (by rwa [otherBusy_wake]) (by rwa [wake_plan])), qtrRefuse, setQtr_wake]
  case retireIdle =>
    intro q s hs hq hst
    rw [execQtrRezoneRetire_of_serves hs hq, rezoneRetire_of_idle (by rwa [qtrOf_wake]), setQtr_wake]
  case retireServing =>
    intro q s hs hq hst
    rw [execQtrRezoneRetire_of_serves hs hq, rezoneRetire_of_serving (by rwa [qtrOf_wake]), setQtr_wake]
  case cmdIdle =>
    intro h q s hh hf ht hq hc hst
    obtain ⟨pl, e, id, hload⟩ := enterLoading_frame q true s
    refine ⟨_, execRezoneGo_of_hears hh hf ht hq, pl, e, id, ?_⟩
    rw [rezoneGo_of_idle hc hst, hload]
    rfl
  case cmdService =>
    intro h q s hh hf ht hq hc hst
    rw [execRezoneGo_of_hears hh hf ht hq, rezoneGo_of_service hc hst, startDrain, setQtr]
  case cmdChanging =>
    intro h q s hh hf ht hq hlo hhi
    rw [execRezoneGo_of_hears hh hf ht hq, rezoneGo_of_code (rezoneCode_of_changing _ hlo hhi), qtrRefuse, setQtr]
  case cmdRetireIdle =>
    intro h q s hh hf ht hq hst
    rw [execRezoneRetire_of_hears hh hf ht hq, rezoneRetire_of_idle hst, setQtr]
  case cmdRetireServing =>
    intro h q s hh hf ht hq hst
    rw [execRezoneRetire_of_hears hh hf ht hq, rezoneRetire_of_serving hst, setQtr]
  case cmdRetireRefused =>
    intro h q s hh hf ht hq hst
    rw [execRezoneRetire_of_hears hh hf ht hq, rezoneRetire_of_none hst, qtrRefuse, setQtr]

end Sys2Proof.Machine
end

section
/-! The life of a Quarter: closing, draining, its target, loading and self test, and the statement on them (R57, R60, R62, R67). -/

namespace Sys2Proof.Machine
open Sys2Proof

theorem exec_quarterClosingEdge (q : Nat) (s : State) : exec (.quarterClosingEdge q) s = execQuarterClosingEdge q s := rfl
theorem exec_quarterDrained (q : Nat) (s : State) : exec (.quarterDrained q) s = execQuarterDrained q s := rfl
theorem exec_quarterEnterTarget (q : Nat) (s : State) : exec (.quarterEnterTarget q) s = execQuarterEnterTarget q s := rfl
theorem exec_quarterLoadDone (q : Nat) (ok : Bool) (s : State) : exec (.quarterLoadDone q ok) s = execQuarterLoadDone q ok s := rfl
theorem exec_quarterBistDone (q : Nat) (ok : Bool) (s : State) : exec (.quarterBistDone q ok) s = execQuarterBistDone q ok s := rfl

/-! What the parts of these commands may change. -/

theorem replaceIdle_frame (n : Nat) (s : State) : ∃ m, replaceIdle n s = { s with sessions := m } := by
  unfold replaceIdle
  split
  · exact ⟨_, rfl⟩
  · split <;> exact ⟨_, rfl⟩

/-- The sessions that a closing Quarter places anew: they alone change (R61). -/
theorem replaceIdles_frame (l : List (Nat × Session)) (s : State) :
    ∃ m, l.foldl (fun s e => replaceIdle e.1 s) s = { s with sessions := m } := by
  refine foldl_frame _ (fun t => ∃ m, t = { s with sessions := m }) l s ⟨_, rfl⟩ ?_
  rintro t e ⟨m, rfl⟩
  exact replaceIdle_frame e.1 { s with sessions := m }

/-- Of the Quarter that loads, the stores reach its nano-store alone; the micro-stores are its engines' (R307). -/
theorem loadStores_frame (q : Nat) (s : State) :
    ∃ e u, loadStores q s = { u with engines := e } ∧ (u = s ∨ ∃ n, u = setQtr s q (fun t => { t with nano := n })) := by
  unfold loadStores
  have hfold : ∀ u, ∃ e, (List.range 32).foldl (fun s k => loadMicro q k (imageRole s q k) s) u = { u with engines := e } := by
    intro u
    refine foldl_frame _ (fun t => ∃ e, t = { u with engines := e }) _ u ⟨_, rfl⟩ ?_
    rintro t k ⟨e, rfl⟩
    dsimp only [loadMicro]
    split <;> exact ⟨_, rfl⟩
  cases storeFor s q 15 with
  | none =>
    obtain ⟨e, he⟩ := hfold s
    exact ⟨e, s, he, .inl rfl⟩
  | some m =>
    obtain ⟨e, he⟩ := hfold (setQtr s q (fun t => { t with nano := m.words.map (BitVec.ofNat 288) }))
    exact ⟨e, _, he, .inr ⟨_, rfl⟩⟩

/-- A Quarter that has its stores and goes on to TESTING. -/
theorem loadStores_testing_frame (q : Nat) (s : State) : ∃ e n, setQtr (loadStores q s) q (fun t => { t with state := 6 }) =
    { s with engines := e, quarters := put s.quarters q { qtrOf s q with state := 6, nano := n } } := by
  obtain ⟨e, u, hu, rfl | ⟨n, rfl⟩⟩ := loadStores_frame q s
  · rw [hu]
    exact ⟨e, (qtrOf u q).nano, rfl⟩
  · rw [hu]
    refine ⟨e, n, ?_⟩
    have h := congrArg State.quarters (setQtr_setQtr s q (fun t => { t with nano := n }) (fun t => { t with state := 6 }))
    exact congrArg (fun m => ({ s with engines := e, quarters := m } : State)) h

/-- A Quarter that leaves LOADING or TESTING may be the last that the boot waits for (R543). -/
theorem readiness_setQtr_frame (q : Nat) (g : Quarter → Quarter) (s : State) : ∃ n, readiness (setQtr s q g) =
    { s with quarters := put s.quarters q (g (qtrOf s q)), sec := { s.sec with stage := n } } :=
  readiness_frame (setQtr s q g)

theorem readiness_readyEngines_frame (q : Nat) (g : Quarter → Quarter) (s : State) : ∃ e n, readiness (readyEngines q (setQtr s q g)) =
    { s with engines := e, quarters := put s.quarters q (g (qtrOf s q)), sec := { s.sec with stage := n } } := by
  obtain ⟨e, he⟩ := readyEngines_frame q (setQtr s q g)
  rw [he]
  obtain ⟨n, hn⟩ := readiness_frame { setQtr s q g with engines := e }
  exact ⟨e, n, hn⟩

theorem firstSpare_of_none {s : State} (h : ∀ k, k < 16 → (qtrOf s k).state ≠ 2) : firstSpare s = none := by
  simpa [firstSpare, List.find?_eq_none] using h

/-! A Quarter that passes its self test (R67). -/

section
variable {s : State} {q : Nat}

theorem passBist_of_wanted (h : spareCount s < s.plan.cfg.spares) :
    passBist q s = setQtr s q (fun t => { t with isRezone := false, passed := some s.bell.num, state := 2 }) := by
  rw [passBist, if_pos h]
  exact setQtr_setQtr ..

theorem passBist_of_unwanted (h : s.plan.cfg.spares ≤ spareCount s) (hl : lowerSpare s q = none) : passBist q s =
    setQtr s q (fun t => { t with isRezone := false, passed := some s.bell.num, state := 1, fbCount := 0, overcad := 0 }) := by
  rw [passBist, if_neg (Nat.not_lt.mpr h), hl, enterService, setQtr_setQtr]

end

/-! The commands, case by case. -/

section
variable {s : State} {q : Nat} (hr : Runs s)
include hr

/-- A Quarter with its trigger due closes, and where no Quarter is SPARE none is called in (R60, R61). -/
theorem execQuarterClosingEdge_of_due (hst : (qtrOf s q).state = 1) (hp : (qtrOf s q).pend = true) (he : (qtrOf s q).edge = true)
    (hw : s.bell.window = .guard) (hno : ∀ k, k < 16 → (qtrOf s k).state ≠ 2) : ∃ m, execQuarterClosingEdge q s =
    .next { s with quarters := put s.quarters q { qtrOf s q with state := 3, pend := false, edge := false, detours := 0 }, sessions := m } := by
  have hno1 : firstSpare (setQtr s q (fun t => { t with state := 3, pend := false, edge := false, detours := 0 })) = none := by
    refine firstSpare_of_none (fun k hk => ?_)
    by_cases hkq : k = q
    · rw [hkq, qtrOf_setQtr]
      exact (show (3 : Nat) ≠ 2 by decide)
    · rw [qtrOf_setQtr_ne _ _ hkq]
      exact hno k hk
  obtain ⟨m, hm⟩ := replaceIdles_frame (s.sessions.filter (fun e => decide (e.2.state ≠ 2)))
    (setQtr s q (fun t => { t with state := 3, pend := false, edge := false, detours := 0 }))
  refine ⟨m, ?_⟩
  rw [execQuarterClosingEdge, live_of_runs _ hr]
  simp only [hst, hp, he, hw, hno1, ite_self, and_self, if_true]
  exact congrArg _ hm

theorem execQuarterDrained_of_empty (hst : (qtrOf s q).state = 3) (hsess : s.sessions.all (fun e => decide (planQuarter e.2 ≠ q)) = true)
    (htask : taskOn s q = false) :
    execQuarterDrained q s = .next (setQtr (stamp s) q (fun t => { t with state := 4, mark := some (nowMark s), sinks := 0 })) := by
  rw [execQuarterDrained, live_of_runs _ hr, if_pos ⟨hst, hsess, htask⟩]

section
variable {m : Mark} (hst : (qtrOf s q).state = 4) (hstart : atStart s = true) (hm : (qtrOf s q).mark = some m) (hbell : m.bell ≠ s.bell.num)
include hst hstart hm hbell

theorem execQuarterEnterTarget_of_rezone (hd : (qtrOf s q).drain = some 5) : execQuarterEnterTarget q s = .next (enterLoading q true s) := by
  rw [execQuarterEnterTarget, live_of_runs _ hr]
  simp [hst, hstart, hm, hbell, hd]

theorem execQuarterEnterTarget_of_other {d : Nat} (hd : (qtrOf s q).drain = some d) (h5 : d ≠ 5) : execQuarterEnterTarget q s =
    .next (setQtr s q (fun t => { t with state := d, drain := none, isRezone := false, passed := none })) := by
  rw [execQuarterEnterTarget, live_of_runs _ hr]
  simp [hst, hstart, hm, hbell, hd]

end

theorem execQuarterLoadDone_of_found (hst : (qtrOf s q).state = 5) (hf : storesFound s q = true) :
    execQuarterLoadDone q true s = .next (setQtr (loadStores q s) q (fun t => { t with state := 6 })) := by
  simp [execQuarterLoadDone, live_of_runs _ hr, hst, hf]

theorem execQuarterLoadDone_of_failed {ok : Bool} (hst : (qtrOf s q).state = 5) (hf : ok = false ∨ storesFound s q = false) :
    execQuarterLoadDone q ok s = .next (readiness (setQtr s q (fun t => { t with state := 7, reason := 0x0124, isRezone := false }))) := by
  rcases hf with hf | hf <;> simp [execQuarterLoadDone, live_of_runs _ hr, hst, hf]

theorem execQuarterBistDone_of_passed (hst : (qtrOf s q).state = 6) :
    execQuarterBistDone q true s = .next (readiness (readyEngines q (passBist q s))) := by
  simp [execQuarterBistDone, live_of_runs _ hr, hst]

theorem execQuarterBistDone_of_failed (hst : (qtrOf s q).state = 6) :
    execQuarterBistDone q false s = .next (readiness (setQtr s q (fun t => { t with state := 7, reason := 0x0125, isRezone := false }))) := by
  simp [execQuarterBistDone, live_of_runs _ hr, hst]

end

/-- Settles O4: each clause is the case of its command that its hypotheses name, with what the parts of the command may change. -/
theorem quarterLife : Obligations.QuarterLife := by
  unfold Obligations.QuarterLife
  simp only [exec_quarterClosingEdge, exec_quarterDrained, exec_quarterEnterTarget, exec_quarterLoadDone, exec_quarterBistDone, Completes]
  refine ⟨?closes, ?drained, ?target, ?loading, ?loaded, ?loadFails, ?spare, ?service, ?bistFails⟩
  case closes =>
    intro q s hr hst hp he hw hno
    obtain ⟨m, hm⟩ := execQuarterClosingEdge_of_due hr hst hp he hw hno
    exact ⟨_, hm, qtrOf_of_put rfl, qtrOf_of_put_ne rfl, rfl⟩
  case drained =>
    intro q s hr hst hsess htask
    rw [execQuarterDrained_of_empty hr hst hsess htask]
    rfl
  case target =>
    intro q d m s hr hst hstart hm hbell hd h5
    rw [execQuarterEnterTarget_of_other hr hst hstart hm hbell hd h5, setQtr]
  case loading =>
    intro q m s hr hst hstart hm hbell hd
    exact ⟨_, execQuarterEnterTarget_of_rezone hr hst hstart hm hbell hd, enterLoading_reads q true rfl rfl⟩
  case loaded =>
    intro q s hr hst hf
    obtain ⟨e, n, hn⟩ := loadStores_testing_frame q s
    have ht := execQuarterLoadDone_of_found hr hst hf
    rw [hn] at ht
    refine ⟨_, ht, ?_, qtrOf_of_put_ne rfl, rfl⟩
    rw [qtrOf_of_put (s := s) rfl]
  case loadFails =>
    intro q ok s hr hst hf
    obtain ⟨n, hn⟩ := readiness_setQtr_frame q (fun t => { t with state := 7, reason := 0x0124, isRezone := false }) s
    have ht := execQuarterLoadDone_of_failed hr hst hf
    rw [hn] at ht
    exact ⟨_, ht, qtrOf_of_put rfl, qtrOf_of_put_ne rfl, rfl⟩
  case spare =>
    intro q s hr hst hlt
    obtain ⟨e, n, hn⟩ := readiness_readyEngines_frame q (fun t => { t with isRezone := false, passed := some s.bell.num, state := 2 }) s
    have ht := execQuarterBistDone_of_passed hr hst
    rw [passBist_of_wanted hlt, hn] at ht
    exact ⟨_, ht, qtrOf_of_put rfl, qtrOf_of_put_ne rfl, rfl⟩
  case service =>
    intro q s hr hst hle hl
    obtain ⟨e, n, hn⟩ := readiness_readyEngines_frame q
      (fun t => { t with isRezone := false, passed := some s.bell.num, state := 1, fbCount := 0, overcad := 0 }) s
    have ht := execQuarterBistDone_of_passed hr hst
    rw [passBist_of_unwanted hle hl, hn] at ht
    exact ⟨_, ht, qtrOf_of_put rfl, qtrOf_of_put_ne rfl, rfl⟩
  case bistFails =>
    intro q s hr hst
    obtain ⟨n, hn⟩ := readiness_setQtr_frame q (fun t => { t with state := 7, reason := 0x0125, isRezone := false }) s
    have ht := execQuarterBistDone_of_failed hr hst
    rw [hn] at ht
    exact ⟨_, ht, qtrOf_of_put rfl, qtrOf_of_put_ne rfl, rfl⟩

end Sys2Proof.Machine
end

section
/-! Watch events and memory errors: what an event leaves of the memory controller, and what an uncorrectable line leaves behind (R325, R485). -/

namespace Sys2Proof.Machine
open Sys2Proof

theorem safeState_frame (w : Nat) (s : State) : ∃ d m o, safeState w s = { s with dev := d, tandem := m, out := o } := by
  unfold safeState
  dsimp only
  split
  · exact ⟨_, _, _, rfl⟩
  · split <;> exact ⟨_, _, _, rfl⟩

/-- A raised event is recorded and noted the same with any reaction, and the reaction comes after it or not at all (R485). -/
theorem raise_reacts (w k : Nat) (c : Code) (i : Bool) (f : State → State) (s : State) :
    raise w k c i f s = raise w k c i (fun s => s) s ∨ raise w k c i f s = f (raise w k c i (fun s => s) s) := by
  unfold raise
  generalize recordEvent w k c i s = r
  obtain ⟨⟨start, sev⟩, t⟩ := r
  cases start
  · exact .inl rfl
  · exact .inr rfl

theorem raise_memc (w k : Nat) (c : Code) (i : Bool) (f : State → State) (s : State) :
    (raise w k c i f s).memc = s.memc ∨ ∃ t, t.memc = s.memc ∧ raise w k c i f s = f t := by
  obtain ⟨x, n, q, p, o, d, h, -⟩ := raise_frame w k c i s
  have hm : (raise w k c i (fun s => s) s).memc = s.memc := (congrArg State.memc h :)
  rcases raise_reacts w k c i f s with e | e
  · exact .inl ((congrArg State.memc e).trans hm)
  · exact .inr ⟨_, hm, e⟩

/-- The poisoned lines of the memory (R325). -/
def poisoned (s : State) : List Nat := s.memc.poison

theorem raise_poisoned (w k : Nat) (c : Code) (i : Bool) (f : State → State) (s : State) (hf : ∀ t, poisoned (f t) = poisoned t) :
    poisoned (raise w k c i f s) = poisoned s := by
  rcases raise_memc w k c i f s with h | ⟨t, ht, h⟩
  · exact congrArg Memc.poison h
  · rw [h, hf]
    exact congrArg Memc.poison ht

@[simp] theorem startSpare_poisoned (ch r : Nat) (s : State) : poisoned (startSpare ch r s) = poisoned s := by
  unfold startSpare
  dsimp only
  split <;> rfl

@[simp] theorem deviceEvent_poisoned (c : Code) (s : State) : poisoned (deviceEvent c s) = poisoned s := by
  unfold deviceEvent post postRec
  dsimp only
  split
  · rfl
  · split <;> rfl

@[simp] theorem withdraw_poisoned (page : Nat) (s : State) : poisoned (withdraw page s) = poisoned s := by
  unfold withdraw
  dsimp only
  split
  · exact foldl_frame _ (fun t => poisoned t = poisoned s) _ s rfl (fun t b ht => ht)
  · split
    · rfl
    · split
      · rfl
      · exact raise_poisoned _ _ _ _ _ _ (fun _ => rfl)

@[simp] theorem retirePage_poisoned (page ch r cause : Nat) (s : State) : poisoned (retirePage page ch r cause s) = poisoned s := by
  unfold retirePage
  split
  · rfl
  · split
    · exact raise_poisoned _ _ _ _ _ _ (fun _ => rfl)
    · rw [withdraw_poisoned, deviceEvent_poisoned]
      rfl

/-- An uncorrectable error poisons its line (R325). -/
theorem countUe_poisons (a cause : Nat) (s : State) : has (poisoned (countUe a cause s)) (a / 64) = true := by
  have hline : has (addS s.memc.poison (a / 64)) (a / 64) = true := by rw [has_addS]; simp
  have hall : poisoned (countUe a cause s) = addS s.memc.poison (a / 64) := by
    unfold countUe
    dsimp only
    rw [apply_ite poisoned, startSpare_poisoned, ite_self, retirePage_poisoned, raise_poisoned _ _ _ _ _ _ (startSpare_poisoned _ _)]
    rfl
  rw [hall, hline]

end Sys2Proof.Machine
end

section
/-! The staging of a plan image: its start, its copy into the staging buffer, and its checks (R51, R52, R68). -/

namespace Sys2Proof.Machine
open Sys2Proof

theorem wake_of_awake {s : State} (h : s.pwr.state = 0) : wake s = s := if_pos h

@[simp] theorem applyRuns_wake (s : State) : applyRuns (wake s) = applyRuns s := by rw [applyRuns, applyRuns, wake_plan]

theorem complete_frame (h : Hdr) (op : Nat) (c : Code) (r : List Word) (s : State) : ∃ f, complete h op c r s = { s with fns := f } := by
  unfold complete enqueueCqe
  split <;> exact ⟨_, rfl⟩

/-! The start of staging, and DISCARD. -/

section
variable {s : State}

theorem execPlanLoad_of_idle {h : Hdr} {addr : DWord} {len : Nat} (hh : Hears s h) (hf : h.fn = 0) (ht : h.token = 0) (ha : addr.toNat % 8 = 0)
    (hb : stageBusy s = false) : execPlanLoad h addr len 0 s = .next (startStage addr len (some h) s) := by
  rw [execPlanLoad, plainCmd_of_hears _ hh]
  simp [hf, ht, ha, hb]

theorem execPlanLoad_of_busy {h : Hdr} {addr : DWord} {len : Nat} (hh : Hears s h) (hf : h.fn = 0) (ht : h.token = 0) (ha : addr.toNat % 8 = 0)
    (hb : stageBusy s = true) : execPlanLoad h addr len 0 s = .next (refuse h 0x0F 0x0101 (planRefuse 0x0101 s)) := by
  rw [execPlanLoad, plainCmd_of_hears _ hh]
  simp [hf, ht, ha, hb]

theorem execPlanStage_of_idle (hs : Serves s) (hp : s.pwr.state = 0) (hb : stageBusy s = false) :
    execPlanStage s = .next (startStage s.plan.addr s.plan.len.toNat none s) := by
  rw [execPlanStage, blockWrite_of_serves _ hs, wake_of_awake hp, hb]
  rfl

theorem execPlanDiscard_of_idle (hs : Serves s) (h1 : s.plan.stage ≠ 1) (h2 : s.plan.stage ≠ 2) (ha : applyRuns s = false) :
    execPlanDiscard s = .next { wake s with plan := { noImage s.plan with stage := 0 } } := by
  rw [execPlanDiscard, blockWrite_of_serves _ hs]
  simp [h1, h2, ha]

theorem execPlanDiscard_of_busy (hs : Serves s) (h : s.plan.stage = 1 ∨ s.plan.stage = 2 ∨ applyRuns s = true) :
    execPlanDiscard s = .next (planRefuse 0x0101 (wake s)) := by
  rw [execPlanDiscard, blockWrite_of_serves _ hs, wake_plan, applyRuns_wake, if_pos h]

end

/-! The end of staging. -/

/-- The PLAN block as staging has ended with a code and the image. -/
def stageEnded (c : Code) (img : Option PlanImage) (p : Plan) : Plan :=
  { p with stage := if c = 0 then 3 else 4, reason := c, image := img, stagedId := match img with | none => 0 | some i => i.planId, cmd := none }

theorem stageEnded_of_none {p : Plan} (c : Code) (img : Option PlanImage) (hc : p.cmd = none) : stageEnded c img p =
    { p with stage := if c = 0 then 3 else 4, reason := c, image := img, stagedId := match img with | none => 0 | some i => i.planId } := by
  unfold stageEnded
  rw [← hc]

theorem stageEnded_stage (c : Code) (img : Option PlanImage) (p : Plan) : 3 ≤ (stageEnded c img p).stage := by
  show 3 ≤ if c = 0 then 3 else 4
  split <;> decide

/-- Staging that PLAN_CTRL.STAGE started ends with the interrupt alone; one that PLAN_LOAD started posts a completion too (R52, R462). -/
theorem endStage_of_stage {s : State} (c : Code) (img : Option PlanImage) (hc : s.plan.cmd = none) :
    endStage c img s = pulse 0x071 { s with plan := stageEnded c img s.plan } := by
  unfold endStage
  simp only [hc]
  rfl

theorem endStage_of_load {s : State} {h : Hdr} (c : Code) (img : Option PlanImage) (hc : s.plan.cmd = some h) :
    ∃ r, endStage c img s = complete h 0x0F c r (pulse 0x071 { s with plan := stageEnded c img s.plan }) := by
  unfold endStage
  simp only [hc]
  by_cases h0 : c = 0
  · exact ⟨_, (if_pos h0).trans (by rw [h0]; rfl)⟩
  · exact ⟨[], if_neg h0⟩

theorem endStage_frame (c : Code) (img : Option PlanImage) (s : State) : ∃ i p f, endStage c img s =
    { s with plan := stageEnded c img s.plan, irq := i, pwr := p, fns := f } := by
  obtain ⟨i, p, hp⟩ := pulse_frame 0x071 { s with plan := stageEnded c img s.plan }
  cases hc : s.plan.cmd with
  | none =>
    rw [endStage_of_stage c img hc, hp]
    exact ⟨i, p, s.fns, rfl⟩
  | some h =>
    obtain ⟨r, hr⟩ := endStage_of_load c img hc
    obtain ⟨f, hf⟩ := complete_frame h 0x0F c r { s with plan := stageEnded c img s.plan, irq := i, pwr := p }
    rw [hr, hp]
    exact ⟨i, p, f, hf⟩

/-! The copy into the staging buffer. -/

section
variable {s : State} (hr : Runs s) (hst : s.plan.stage = 1)
include hr hst

theorem execPlanCopyDone_of_bytes {b : List Byte} (hlen : b.length = s.plan.srcLen) :
    execPlanCopyDone (some b) s = .next (writeMem (stageAt s) (b.take 4194304) { s with plan := { s.plan with stage := 2 } }) := by
  simp [execPlanCopyDone, live_of_runs _ hr, hst, hlen]

theorem execPlanCopyDone_of_failed : execPlanCopyDone none s = .next (endStage 0x0102 none s) := by
  simp [execPlanCopyDone, live_of_runs _ hr, hst]

end

/-! The checks of R51: their codes, and the first two. -/

section
variable {s : State} {b : List Byte} {first : Bool} {img : PlanImage}

/-- No check has the code 0, which READY stands for (R51). -/
theorem planCode_ne_zero : planCode s b first img ≠ some 0 := by
  intro h
  obtain ⟨⟨c, p⟩, hfind, rfl⟩ := Option.map_eq_some_iff.mp h
  have hmem : (0 : Code) ∈ (planChecks s b first img).map (fun c => c.1) := List.mem_map.mpr ⟨_, List.mem_of_find?_eq_some hfind, rfl⟩
  have hcodes : (planChecks s b first img).map (fun c => c.1) = [0x0103, 0x0104, 0x0105, 0x0106, 0x0107, 0x0108, 0x0109, 0x010A, 0x010B, 0x010C, 0x010D,
      0x010E, 0x010F, 0x0110, 0x0111, 0x0112, 0x0113, 0x0114, 0x0115, 0x0116, 0x0117, 0x0118, 0x0119, 0x011A, 0x011B, 0x011C, 0x011D, 0x011E, 0x011F] := rfl
  rw [hcodes] at hmem
  exact absurd hmem (by decide)

/-- The first check of R51: neither magic may be wrong. -/
def magicFails (b : List Byte) : Bool :=
  decide (slice b 0 4 ≠ [0x53, 0x54, 0x50, 0x4C]) || decide (slice b (b.length - 128) 4 ≠ [0x53, 0x49, 0x47, 0x4E])

/-- The second check of R51: the image's format and its sections'. -/
def formatFails (b : List Byte) : Bool := decide (le b 4 2 ≠ 0x0200) || (sections b).any (fun x => decide (x.ver ≠ 1))

theorem planChecks_eq_cons : ∃ l, planChecks s b first img = (0x0103, magicFails b) :: (0x0104, formatFails b) :: l := ⟨_, rfl⟩

theorem planCode_of_magic (h : slice b 0 4 ≠ [0x53, 0x54, 0x50, 0x4C]) : planCode s b first img = some 0x0103 := by
  obtain ⟨l, hl⟩ := planChecks_eq_cons (s := s) (b := b) (first := first) (img := img)
  have hmagic : magicFails b = true := by rw [magicFails, decide_eq_true h, Bool.true_or]
  simp [planCode, hl, hmagic]

theorem planCode_of_format (h : slice b 0 4 = [0x53, 0x54, 0x50, 0x4C]) (hsig : slice b (b.length - 128) 4 = [0x53, 0x49, 0x47, 0x4E])
    (hf : le b 4 2 ≠ 0x0200) : planCode s b first img = some 0x0104 := by
  obtain ⟨l, hl⟩ := planChecks_eq_cons (s := s) (b := b) (first := first) (img := img)
  have hmagic : magicFails b = false := by
    rw [magicFails, h, hsig]
    decide
  have hformat : formatFails b = true := by rw [formatFails, decide_eq_true hf, Bool.true_or]
  simp [planCode, hl, hmagic, hformat]

end

/-! The checks of the staged image, over the bytes that the staging buffer holds. -/

/-- The code of the checks of the staged image. -/
def stagedCode (s : State) : Option Code := planCode s (stagedBytes s) false (parseImage (stagedBytes s))

theorem checkStaged_of_code {s : State} {c : Code} (h : stagedCode s = some c) : checkStaged s = endStage c none s := by
  unfold checkStaged
  dsimp only
  rw [show planCode s (stagedBytes s) false (parseImage (stagedBytes s)) = some c from h]

theorem checkStaged_of_none {s : State} (h : stagedCode s = none) : checkStaged s = endStage 0 (some (parseImage (stagedBytes s))) s := by
  unfold checkStaged
  dsimp only
  rw [show planCode s (stagedBytes s) false (parseImage (stagedBytes s)) = none from h]

/-- The checks end with a code and what they keep of the image. -/
theorem checkStaged_ends (s : State) : checkStaged s = endStage ((stagedCode s).getD 0)
    (if stagedCode s = none then some (parseImage (stagedBytes s)) else none) s := by
  cases h : stagedCode s with
  | none => exact checkStaged_of_none h
  | some c => exact checkStaged_of_code h

theorem checkStaged_frame (s : State) : ∃ i p f, checkStaged s =
    { s with plan := stageEnded ((stagedCode s).getD 0) (if stagedCode s = none then some (parseImage (stagedBytes s)) else none) s.plan,
             irq := i, pwr := p, fns := f } := by
  rw [checkStaged_ends]
  exact endStage_frame ..

/-! The line of the staged image that the checks read. -/

section
variable {s : State} {line : Nat}

theorem readStaged_of_clean {ecc : Ecc}
    (h : s.plan.srcLen ≤ line * 64 ∨ (ecc = .clean ∧ has s.memc.poison ((stageAt s + line * 64) / 64) = false)) : readStaged line ecc s = s := by
  rcases h with h | ⟨rfl, h⟩
  · rw [readStaged, if_neg (Nat.not_lt.mpr h)]
  · simp [readStaged, readLine, h]

theorem readStaged_of_corrected {d : Nat} (hlt : line * 64 < s.plan.srcLen) (h : has s.memc.poison ((stageAt s + line * 64) / 64) = false) :
    readStaged line (.corrected d) s = countCe ((stageAt s + line * 64) / 64 * 64) d s := by
  simp [readStaged, readLine, hlt, h]

/-- The bytes of the line are poisoned, be it now or from before, and nothing else reads otherwise (R325). -/
theorem readLine_of_uncorrectable (req : ReqId) (a : Nat) :
    (readLine req a .uncorrectable false false false s).1.2 = true ∧
    has (poisoned (readLine req a .uncorrectable false false false s).2) (a / 64) = true := by
  by_cases h : has s.memc.poison (a / 64) = true
  · have hread : readLine req a .uncorrectable false false false s = ((rdCells memDefault s.mem (a / 64 * 64) 64, true), s) := by simp [readLine, h]
    rw [hread]
    exact ⟨rfl, h⟩
  · have hread : readLine req a .uncorrectable false false false s =
        ((rdCells memDefault s.mem (a / 64 * 64) 64, true), countUe (a / 64 * 64) 0 s) := by simp [readLine, h]
    have hc := countUe_poisons (a / 64 * 64) 0 s
    rw [Nat.mul_div_cancel _ (by decide)] at hc
    rw [hread]
    exact ⟨rfl, hc⟩

end

/-- A reaction that enters the device safe state leaves the watches and the memory controller. -/
theorem raise_safeState_reads (k : Nat) (c : Code) (hd : directKind winSec k = true) (s : State) :
    (watchOf (raise winSec k c false (safeState winSec) s) winSec).severe = (watchOf s winSec).severe ||| (1#16 <<< k) ∧
    (raise winSec k c false (safeState winSec) s).memc = s.memc := by
  obtain ⟨w, n, i, p, o, d, h, hsev, -⟩ := raise_frame winSec k c false s
  have hself : (watchOf (raise winSec k c false (fun s => s) s) winSec).severe = (watchOf s winSec).severe ||| (1#16 <<< k) := by
    rw [h, ← hsev hd, watchOf]
    exact congrArg Watch.severe (lookD_put_self ..)
  have hmem : (raise winSec k c false (fun s => s) s).memc = s.memc := (congrArg State.memc h :)
  rcases raise_reacts winSec k c false (safeState winSec) s with e | e
  · rw [e]
    exact ⟨hself, hmem⟩
  · obtain ⟨d, m, o, hs⟩ := safeState_frame winSec (raise winSec k c false (fun s => s) s)
    rw [e, hs]
    exact ⟨hself, hmem⟩

theorem reaction_sec : reaction winSec 0 0 = safeState winSec := rfl

/-- An uncorrectable line of the staged image is poisoned, and POISON of the SEC watch is severe (R325). -/
theorem readStaged_of_uncorrectable {s : State} {line : Nat} (hlt : line * 64 < s.plan.srcLen) :
    (watchOf (readStaged line .uncorrectable s) winSec).severe.getLsbD 0 = true ∧
    has (poisoned (readStaged line .uncorrectable s)) ((stageAt s + line * 64) / 64) = true := by
  obtain ⟨hbad, hp⟩ := readLine_of_uncorrectable (s := s) 0x218 (stageAt s + line * 64)
  rw [readStaged, if_pos hlt, if_pos hbad, reaction_sec]
  obtain ⟨hsev, hmem⟩ := raise_safeState_reads 0 0 (by decide) (readLine 0x218 (stageAt s + line * 64) .uncorrectable false false false s).2
  rw [hsev, poisoned, hmem]
  exact ⟨by simp, hp⟩

/-! PLAN_CHECK_DONE. -/

theorem execPlanCheckDone_of_checking {s : State} (line : Nat) (ecc : Ecc) (hr : Runs s) (hst : s.plan.stage = 2) :
    execPlanCheckDone line ecc s = .next (checkStaged (readStaged line ecc s)) := by
  rw [execPlanCheckDone, live_of_runs _ hr, if_pos hst]

/-- The checks with no error in the line that they read, of an image that PLAN_CTRL.STAGE staged. -/
theorem execPlanCheckDone_ends {s : State} {line : Nat} {ecc : Ecc} (hr : Runs s) (hst : s.plan.stage = 2) (hc : s.plan.cmd = none)
    (hline : s.plan.srcLen ≤ line * 64 ∨ (ecc = .clean ∧ has s.memc.poison ((stageAt s + line * 64) / 64) = false)) :
    ∃ i p, execPlanCheckDone line ecc s = .next { s with
      plan := stageEnded ((stagedCode s).getD 0) (if stagedCode s = none then some (parseImage (stagedBytes s)) else none) s.plan, irq := i, pwr := p } := by
  rw [execPlanCheckDone_of_checking _ _ hr hst, readStaged_of_clean hline, checkStaged_ends, endStage_of_stage _ _ hc]
  obtain ⟨i, p, hp⟩ := pulse_frame 0x071 { s with
    plan := stageEnded ((stagedCode s).getD 0) (if stagedCode s = none then some (parseImage (stagedBytes s)) else none) s.plan }
  exact ⟨i, p, congrArg Host.Outcome.next hp⟩

/-- Staging ends READY where no check fails and FAILED otherwise. -/
theorem stageEnded_stagedCode (s : State) (img : Option PlanImage) :
    (stageEnded ((stagedCode s).getD 0) img s.plan).stage = if stagedCode s = none then 3 else 4 := by
  show (if (stagedCode s).getD 0 = 0 then 3 else 4) = if stagedCode s = none then 3 else 4
  cases h : stagedCode s with
  | none => rfl
  | some c =>
    have hc : c ≠ 0 := fun h0 => planCode_ne_zero (h.trans (congrArg some h0))
    exact if_neg hc

end Sys2Proof.Machine
end

section
/-! The apply of a staged plan, and the statement on plans (R34, R51, R52, R54 to R56, R68). -/

namespace Sys2Proof.Machine
open Sys2Proof

theorem exec_planLoad (h : Hdr) (addr : DWord) (len pad : Nat) (s : State) : exec (.planLoad h addr len pad) s = execPlanLoad h addr len pad s := rfl
theorem exec_planStage (s : State) : exec .planStage s = execPlanStage s := rfl
theorem exec_planDiscard (s : State) : exec .planDiscard s = execPlanDiscard s := rfl
theorem exec_planCopyDone (b : Option (List Byte)) (s : State) : exec (.planCopyDone b) s = execPlanCopyDone b s := rfl
theorem exec_planCheckDone (line : Nat) (ecc : Ecc) (s : State) : exec (.planCheckDone line ecc) s = execPlanCheckDone line ecc s := rfl
theorem exec_planApply (s : State) : exec .planApply s = execPlanApply s := rfl
theorem exec_planApplyTakeEffect (s : State) : exec .planApplyTakeEffect s = execPlanApplyTakeEffect s := rfl
theorem exec_applyStepAdvance (s : State) : exec .applyStepAdvance s = execApplyStepAdvance s := rfl

/-! The guarded write of APPLY: its checks in their order (R54). -/

section
variable {s : State} {i : PlanImage}

theorem execPlanApply_of_serves (hs : Serves s) : execPlanApply s = .next (planApply (wake s)) := blockWrite_of_serves _ hs

theorem planApply_of_running (h : applyRuns s = true) : planApply s = planRefuse 0x0101 s := by
  rw [planApply, if_pos h]

section
variable (hrun : applyRuns s = false)
include hrun

theorem planApply_of_noImage (himg : s.plan.image = none) : planApply s = planRefuse 0x0120 s := by
  simp [planApply, hrun, himg]

section
variable (himg : s.plan.image = some i)
include himg

theorem planApply_of_partial (hpart : i.partPlan = true) : planApply s = planRefuse 0x0126 s := by
  simp [planApply, hrun, himg, hpart]

section
variable (hfull : i.partPlan = false)
include hfull

theorem planApply_of_rolledBack (hsvn : i.svn < lookD s.sec.svn 2 0) : planApply s = planRefuse 0x0109 s := by
  simp [planApply, hrun, himg, hfull, hsvn]

theorem planApply_of_accepted (hsvn : lookD s.sec.svn 2 0 ≤ i.svn) (hcap : fullCapacityOk s i = true) : planApply s =
    { s with plan := { s.plan with reason := 0, accepted := true, acceptedAt := s.bell.num, applying := some i, applySt := 1, applyQ := 0 } } := by
  simp [planApply, hrun, himg, hfull, Nat.not_lt.mpr hsvn, hcap]

end
end
end
end

/-! Step 1 of an apply: the plan-wide sections and the ENABLE bits (R55, R69). -/

/-- Without a plan to take its District from a Quarter that loads changes itself and its engines alone (R57, R59). -/
theorem enterLoading_of_noPlan {q : Nat} {r : Bool} {s : State} (h : loadingPlan s q r = none) : ∃ e, enterLoading q r s =
    { s with engines := e, quarters := put s.quarters q (loadedQ r (districtOf s q) (qtrOf s q)) } := by
  obtain ⟨e, he⟩ := rezoneEngines_frame q (setQtr s q (loadedQ r (districtOf s q)))
  refine ⟨e, ?_⟩
  unfold enterLoading
  rw [h]
  exact he

theorem applyEnables_frame (i : PlanImage) {s : State} (hcur : s.plan.applyCur = none) :
    ∃ m e, applyEnables i s = { s with quarters := m, engines := e } := by
  unfold applyEnables
  refine foldl_frame _ (fun t => ∃ m e, t = { s with quarters := m, engines := e }) _ s ⟨_, _, rfl⟩ ?_
  rintro t q ⟨m, e, rfl⟩
  dsimp only
  split
  · exact ⟨_, _, rfl⟩
  · split
    · have hnone : loadingPlan { s with quarters := m, engines := e } q false = none := by simp [loadingPlan, hcur]
      obtain ⟨e', he⟩ := enterLoading_of_noPlan hnone
      rw [he]
      exact ⟨_, _, rfl⟩
    · exact ⟨_, _, rfl⟩

/-- The PLAN block as an apply takes effect. -/
def takesEffect (s : State) (i : PlanImage) : Plan :=
  { s.plan with
    accepted := false, releasing := (((List.range 16).reverse).filter (fun k => decide ((qtrOf s k).state = 1))).take (i.cfg.spares - s.plan.cfg.spares),
    rezoning := (List.range 16).filter (districtDiffers s i), applyCur := none, cfg := i.cfg, priors := i.priors }

section
variable {s : State} {i : PlanImage} (hr : Runs s)
include hr

theorem execPlanApplyTakeEffect_of_accepted (hi : s.plan.applying = some i) (hacc : s.plan.accepted = true) (hat : s.plan.acceptedAt ≠ s.bell.num)
    (hstart : atStart s = true) : ∃ p m e, execPlanApplyTakeEffect s =
    .next { s with plan := takesEffect s i, pool := p, quarters := m, engines := e } := by
  obtain ⟨p, hp⟩ := takePools_frame i.cfg { s with plan := takesEffect s i }
  have hcur : ({ s with plan := takesEffect s i, pool := p } : State).plan.applyCur = none := rfl
  obtain ⟨m, e, he⟩ := applyEnables_frame i hcur
  refine ⟨p, m, e, ?_⟩
  rw [execPlanApplyTakeEffect, live_of_runs _ hr]
  refine congrArg Host.Outcome.next ?_
  split
  · next hn => simp [hn] at hi
  · next j hj =>
    obtain rfl : j = i := Option.some.inj (hj.symm.trans hi)
    have hdue : ¬(!s.plan.accepted || !atStart s || decide (s.plan.acceptedAt = s.bell.num)) = true := by simp [hacc, hstart, hat]
    exact (if_neg hdue).trans ((congrArg (applyEnables j) hp).trans he)

/-! The steps after it (R55). -/

section
variable (hst : s.plan.applySt = 1) (hacc : s.plan.accepted = false) (hcur : s.plan.applyCur = none)
include hst hacc hcur

theorem execApplyStepAdvance_of_next : execApplyStepAdvance s = .next (nextStep s) := by
  simp [execApplyStepAdvance, live_of_runs _ hr, hst, hacc, hcur]

section
variable (hi : s.plan.applying = some i)
include hi

/-- A Quarter in SERVICE that the plan releases drains to SPARE. -/
theorem execApplyStepAdvance_of_release {q : Nat} {l : List Nat} (hrel : s.plan.releasing = q :: l) (hq : (qtrOf s q).state = 1)
    (hp : (qtrOf s q).pend = false) : execApplyStepAdvance s =
    .next (startDrain q 2 false { s with plan := { s.plan with releasing := l, applyCur := some q, applyRel := true } }) := by
  rw [execApplyStepAdvance_of_next hr hst hacc hcur]
  simp [nextStep, hi, hrel, hq, hp]

theorem execApplyStepAdvance_of_done (hrel : s.plan.releasing = []) (hrez : s.plan.rezoning = []) : execApplyStepAdvance s =
    .next (extendMeas 5 i.digest
      (endApply { s.plan with activeId := i.planId, activeSvn := i.svn, digest := i.digest, mc := i.mc, bist := i.bist } 2 s)) := by
  rw [execApplyStepAdvance_of_next hr hst hacc hcur]
  simp [nextStep, hi, hrel, hrez]

end

end
end

theorem endApply_frame (pl : Plan) (n : Nat) (s : State) : ∃ i p, endApply pl n s = { s with
    plan := { pl with applySt := n, applying := none, releasing := [], rezoning := [], applyCur := none }, irq := i, pwr := p } :=
  pulse_frame 0x071 { s with plan := { pl with applySt := n, applying := none, releasing := [], rezoning := [], applyCur := none } }

/-- Settles O7: each clause is the case of its command that its hypotheses name, with what the end of staging and the steps of an apply change. -/
theorem plansAreStagedAndApplied : Obligations.PlansAreStagedAndApplied := by
  unfold Obligations.PlansAreStagedAndApplied
  simp only [exec_planLoad, exec_planStage, exec_planDiscard, exec_planCopyDone, exec_planCheckDone, exec_planApply, exec_planApplyTakeEffect,
    exec_applyStepAdvance, Completes]
  refine ⟨?load, ?loadBusy, ?stage, ?discard, ?discardBusy, ?copied, ?copyFails, ?checked, ?magic, ?format, ?corrected, ?poison, ?accepted, ?noImage,
    ?running, ?partPlan, ?rolledBack, ?effect, ?done, ?release⟩
  case load =>
    intro h addr len s hh hf ht ha hb
    rw [execPlanLoad_of_idle hh hf ht ha hb]
    rfl
  case loadBusy =>
    intro h addr len s hh hf ht ha hb
    rw [execPlanLoad_of_busy hh hf ht ha hb, planRefuse]
  case stage =>
    intro s hs hp hb
    rw [execPlanStage_of_idle hs hp hb]
    rfl
  case discard =>
    intro s hs h1 h2 ha
    rw [execPlanDiscard_of_idle hs h1 h2 ha]
    rfl
  case discardBusy =>
    intro s hs h
    rw [execPlanDiscard_of_busy hs h, planRefuse, wake_plan]
  case copied =>
    intro b s hr hst hlen
    rw [execPlanCopyDone_of_bytes hr hst hlen]
    rfl
  case copyFails =>
    intro s hr hst hc
    obtain ⟨i, p, hp⟩ := pulse_frame 0x071 { s with plan := stageEnded 0x0102 none s.plan }
    have ht := execPlanCopyDone_of_failed hr hst
    rw [endStage_of_stage _ _ hc, hp] at ht
    exact ⟨_, ht, stageEnded_of_none _ _ hc, rfl⟩
  case checked =>
    intro line ecc s hr hst hc hline
    obtain ⟨i, p, ht⟩ := execPlanCheckDone_ends hr hst hc hline
    exact ⟨_, ht, rfl, stageEnded_stagedCode s _, rfl, rfl⟩
  case magic =>
    intro line ecc s hr hst hc hline hmagic
    have hcode : stagedCode s = some 0x0103 := planCode_of_magic hmagic
    obtain ⟨i, p, ht⟩ := execPlanCheckDone_ends hr hst hc hline
    rw [hcode] at ht
    exact ⟨_, ht, stageEnded_of_none _ _ hc, rfl⟩
  case format =>
    intro line ecc s hr hst hc hline hmagic hsig hf
    have hcode : stagedCode s = some 0x0104 := planCode_of_format hmagic hsig hf
    obtain ⟨i, p, ht⟩ := execPlanCheckDone_ends hr hst hc hline
    rw [hcode] at ht
    exact ⟨_, ht, stageEnded_of_none _ _ hc, rfl⟩
  case corrected =>
    intro line d s hr hst hlt hp
    rw [execPlanCheckDone_of_checking _ _ hr hst, readStaged_of_corrected hlt hp]
  case poison =>
    intro line s hr hst hlt
    obtain ⟨hsev, hp⟩ := readStaged_of_uncorrectable hlt
    have hmem : (readStaged line .uncorrectable s).mem = s.mem := (of_core (congrArg Kept.core (readStaged_kept line .uncorrectable s))).1
    obtain ⟨i, p, f, ht⟩ := checkStaged_frame (readStaged line .uncorrectable s)
    refine ⟨_, execPlanCheckDone_of_checking line .uncorrectable hr hst, ?_⟩
    rw [ht]
    exact ⟨hsev, hp, hmem, stageEnded_stage ..⟩
  case accepted =>
    intro i s hs hrun himg hfull hsvn hcap
    rw [execPlanApply_of_serves hs, planApply_of_accepted (i := i) (by rwa [applyRuns_wake]) (by rwa [wake_plan]) hfull (by rwa [wake_sec]) hcap]
    simp only [wake_plan, wake_bell]
  case noImage =>
    intro s hs hrun himg
    rw [execPlanApply_of_serves hs, planApply_of_noImage (by rwa [applyRuns_wake]) (by rwa [wake_plan]), planRefuse, wake_plan]
  case running =>
    intro s hs hrun
    rw [execPlanApply_of_serves hs, planApply_of_running (by rwa [applyRuns_wake]), planRefuse, wake_plan]
  case partPlan =>
    intro i s hs hrun himg hpart
    rw [execPlanApply_of_serves hs, planApply_of_partial (i := i) (by rwa [applyRuns_wake]) (by rwa [wake_plan]) hpart, planRefuse, wake_plan]
  case rolledBack =>
    intro i s hs hrun himg hfull hsvn
    rw [execPlanApply_of_serves hs, planApply_of_rolledBack (i := i) (by rwa [applyRuns_wake]) (by rwa [wake_plan]) hfull (by rwa [wake_sec]),
      planRefuse, wake_plan]
  case effect =>
    intro i s hr hi hacc hat hstart
    obtain ⟨p, m, e, ht⟩ := execPlanApplyTakeEffect_of_accepted hr hi hacc hat hstart
    exact ⟨_, ht, rfl, rfl, rfl, rfl, rfl⟩
  case done =>
    intro i s hr hst hacc hcur hi hrel hrez
    have ht := execApplyStepAdvance_of_done hr hst hacc hcur hi hrel hrez
    obtain ⟨q, p, he⟩ := endApply_frame
      { s.plan with activeId := i.planId, activeSvn := i.svn, digest := i.digest, mc := i.mc, bist := i.bist } 2 s
    rw [he] at ht
    exact ⟨_, ht, rfl, rfl, rfl, rfl, rfl, rfl, rfl⟩
  case release =>
    intro i q l s hr hst hacc hcur hi hrel hq hp
    rw [execApplyStepAdvance_of_release hr hst hacc hcur hi hrel hq hp]
    rfl

end Sys2Proof.Machine
end

section
/-! The boot stages ROM, LOAD and TRAIN (R535, R538 to R543). -/

namespace Sys2Proof.Machine
open Sys2Proof

theorem exec_bootRomDone (l : List (Nat × Byte)) (s : State) : exec (.bootRomDone l) s = execBootRomDone l s := rfl
theorem exec_bootLoadDone (l : List (Nat × Byte)) (s : State) : exec (.bootLoadDone l) s = execBootLoadDone l s := rfl
theorem exec_bootTrainDone (i : TrainIn) (s : State) : exec (.bootTrainDone i) s = execBootTrainDone i s := rfl
theorem exec_bootInitDone (l : List (Nat × Byte)) (s : State) : exec (.bootInitDone l) s = execBootInitDone l s := rfl

/-! What a stage reads of the flash (R542). -/

theorem execBootRomDone_of_runs {s : State} (hr : Runs s) : execBootRomDone [] s = .next (romStage s) := live_of_runs _ hr
theorem execBootLoadDone_of_runs {s : State} (hr : Runs s) : execBootLoadDone [] s = .next (loadStage s) := live_of_runs _ hr
theorem execBootInitDone_of_runs {s : State} (hr : Runs s) : execBootInitDone [] s = .next (initStage s) := live_of_runs _ hr

/-- A stage that misreads the flash does what it does on a flash that holds what it reads, and leaves the flash. -/
theorem readFlash_of_misread {g : State → State} (hg : ∀ t, (g t).sec.flash = t.sec.flash) (l : List (Nat × Byte)) {s : State} (hr : Runs s) :
    ∃ t, live (misread l s) (readFlash [] g) = .next t ∧ live s (readFlash l g) = .next { t with sec := { t.sec with flash := s.sec.flash } } := by
  have hm : Runs (misread l s) := hr
  refine ⟨g (misread l s), live_of_runs _ hm, ?_⟩
  rw [live_of_runs _ hr, readFlash]
  split
  · next hl =>
    subst hl
    rw [show misread [] s = s from rfl, ← hg s]
  · rfl

/-! ROM. -/

/-- The fuses have been measured (R545). -/
def fusesMeasured (s : State) : State :=
  setSec s (fun x => { x with meas := put x.meas 4 (Config.extendRecord (lookD x.meas 4 0) (fuseRecord s)) })

/-- The keys and the directory of the flash have been taken (R535, R540). -/
def directoryTaken (s : State) : State :=
  setSec (takeKeys s) (fun x => { x with dirInvalid := (directory s).isNone, helmFirst := ((directory s).getD (0, 0)).2 })

section
variable {s : State} (h0 : s.sec.stage = 0)
include h0

theorem romStage_of_halt (hh : bootHalt s = true) : romStage s = failBoot 0 (fusesMeasured s) :=
  (if_neg (not_not_intro h0)).trans (if_pos hh)

theorem romStage_of_badKey (hh : bootHalt s = false) (hv : Config.sha384 (flashBytes s 0x10000 96) ≠ Config.vendorKeyHash) :
    romStage s = failBoot 0x0901 (fusesMeasured s) :=
  (if_neg (not_not_intro h0)).trans ((if_neg (ne_true_of_eq_false hh)).trans (if_neg (ne_true_of_eq_false (decide_eq_false hv))))

theorem romStage_of_key (hh : bootHalt s = false) (hv : Config.sha384 (flashBytes s 0x10000 96) = Config.vendorKeyHash) :
    romStage s = romWork (fusesMeasured s) :=
  (if_neg (not_not_intro h0)).trans ((if_neg (ne_true_of_eq_false hh)).trans (if_pos (decide_eq_true hv)))

end

/-- The slot that ROM takes: what is read of it depends on the flash, the vendor key and the SVN counters (R536, R539, R540). -/
def romPick (s : State) : Option (Nat × Firmware) :=
  pickSlot (bootImage { s with sec := { s.sec with vendorKey := flashBytes s 0x10000 96 } }) (slotFirst s ((directory s).getD (0, 0)).1)

theorem romWork_of_none {s : State} (h : romPick s = none) : romWork s = failBoot 0x0908 (directoryTaken s) := by
  unfold romWork
  dsimp only
  split
  · rfl
  · next hp => cases h.symm.trans hp

theorem romWork_of_some {s : State} {k : Nat} {f : Firmware} (h : romPick s = some (k, f)) : romWork s = startBoot k f (directoryTaken s) := by
  unfold romWork
  dsimp only
  split
  · next hp => cases hp.symm.trans h
  · next hp =>
    cases hp.symm.trans h
    rfl

theorem romPick_fusesMeasured (s : State) : romPick (fusesMeasured s) = romPick s := rfl

/-- What a change of the security block leaves is as it was. -/
theorem setSec_frame {s t : State} (g : Sec → Sec) (h : t = { s with sec := t.sec }) : setSec t g = { s with sec := (setSec t g).sec } := by
  rw [h]
  rfl

theorem fusesMeasured_frame (s : State) : fusesMeasured s = { s with sec := (fusesMeasured s).sec } := setSec_frame _ rfl

theorem directoryTaken_frame {s t : State} (h : t = { s with sec := t.sec }) : directoryTaken t = { s with sec := (directoryTaken t).sec } :=
  setSec_frame _ (setSec_frame _ h)

theorem startBoot_frame {s t : State} (k : Nat) (f : Firmware) (h : t = { s with sec := t.sec }) :
    startBoot k f t = { s with sec := (startBoot k f t).sec } := by
  rw [h]
  rfl

/-- ROM with the vendor key in place: the keys, the directory and, where a boot slot passes, its firmware are taken (R535, R540, R545). -/
theorem romStage_reads_of_key {s : State} (h0 : s.sec.stage = 0) (hh : bootHalt s = false)
    (hv : Config.sha384 (flashBytes s 0x10000 96) = Config.vendorKeyHash) : 
    lookD (romStage s).sec.meas 4 0 = Config.extendRecord (lookD s.sec.meas 4 0) (fuseRecord s) ∧ romStage s = { s with sec := (romStage s).sec } ∧
    (romStage s).sec.vendorKey = flashBytes s 0x10000 96 ∧ (romStage s).sec.dirInvalid = (directory s).isNone ∧
    (romPick s = none → (romStage s).sec.stage = 7 ∧ (romStage s).sec.bootReason = 0x0908) ∧
    ∀ k f, romPick s = some (k, f) → (romStage s).sec.stage = 1 ∧ (romStage s).sec.bootSlot = k ∧ (romStage s).sec.bootSvn = f.svn ∧
      lookD (romStage s).sec.meas 0 0 = Config.extend (lookD s.sec.meas 0 0) f.digest := by
  rw [romStage_of_key h0 hh hv]
  cases hp : romPick s with
  | none =>
    rw [romWork_of_none ((romPick_fusesMeasured s).trans hp)]
    exact ⟨lookD_put_self .., setSec_frame _ (directoryTaken_frame (fusesMeasured_frame s)), rfl, rfl, fun _ => ⟨rfl, rfl⟩, fun _ _ h => by cases h⟩
  | some kf =>
    rw [romWork_of_some ((romPick_fusesMeasured s).trans hp)]
    refine ⟨?_, startBoot_frame _ _ (directoryTaken_frame (fusesMeasured_frame s)), rfl, rfl, fun h => (by cases h), fun k f h => ?_⟩
    · exact (lookD_put_ne _ _ _ (by decide)).trans (lookD_put_self ..)
    · cases h
      refine ⟨rfl, rfl, rfl, (lookD_put_self ..).trans ?_⟩
      exact congrArg (fun x => Config.extend x f.digest) (lookD_put_ne _ _ _ (by decide))

/-! LOAD. -/

/-- A package touches the library and its measurement alone (R305, R545). -/
theorem takePackage_frame (p : List Byte) (s : State) : ∃ lib m, takePackage p s =
    { s with mclib := lib, sec := { s.sec with meas := m } } ∧ lookD m 1 0 = lookD s.sec.meas 1 0 := by
  unfold takePackage
  split
  · exact ⟨_, s.sec.meas, rfl, rfl⟩
  · exact ⟨_, _, rfl, lookD_put_ne _ _ _ (by decide)⟩

theorem takePackages_frame (n a : Nat) (s : State) : ∃ lib m, takePackages n a s =
    { s with mclib := lib, sec := { s.sec with meas := m } } ∧ lookD m 1 0 = lookD s.sec.meas 1 0 := by
  induction n generalizing a s with
  | zero => exact ⟨_, _, rfl, rfl⟩
  | succ n ih =>
    unfold takePackages
    split
    · exact ⟨_, _, rfl, rfl⟩
    · obtain ⟨lib, m, hp, hm⟩ := takePackage_frame (flashBytes s a (pkgLen s a)) s
      rw [hp]
      obtain ⟨lib', m', hq, hm'⟩ := ih (a + pkgLen s a) { s with mclib := lib, sec := { s.sec with meas := m } }
      exact ⟨lib', m', hq, hm'.trans hm⟩

/-- The list of packages ends at the first word that does not open one (R538). -/
theorem takePackages_of_end (n : Nat) {a : Nat} {s : State} (h : flashBytes s a 4 ≠ [0x4D, 0x43, 0x50, 0x4B]) : takePackages n a s = s := by
  cases n with
  | zero => rfl
  | succ n => exact if_pos (.inr h)

/-- The first Helm slot that passes its checks (R539, R540). -/
def helmPick (s : State) : Option (Nat × Firmware) := pickSlot (helmImage s) (slotFirst s s.sec.helmFirst)

theorem helmPick_buildLibrary (s : State) : helmPick (buildLibrary s) = helmPick s := by
  obtain ⟨lib, m, h, -⟩ := takePackages_frame 87382 0x820000 s
  rw [buildLibrary, h]
  rfl

section
variable {s : State} (h1 : s.sec.stage = 1)
include h1

theorem loadStage_of_none (h : helmPick s = none) : loadStage s = failBoot 0x0909 (buildLibrary s) := by
  refine (if_neg (not_not_intro h1)).trans ?_
  rw [← helmPick_buildLibrary] at h
  dsimp only
  split
  · rfl
  · next hp => cases h.symm.trans hp

theorem loadStage_of_some {k : Nat} {f : Firmware} (h : helmPick s = some (k, f)) : loadStage s = loadPlan (startHelm k f (buildLibrary s)) := by
  refine (if_neg (not_not_intro h1)).trans ?_
  rw [← helmPick_buildLibrary] at h
  dsimp only
  split
  · next hp => cases hp.symm.trans h
  · next hp =>
    cases hp.symm.trans h
    rfl

end

section
variable {s : State}

theorem loadPlan_of_missing (h : planFound s = false) : loadPlan s = failBoot 0x090A s := by
  rw [loadPlan, h]
  rfl

section
variable (hf : planFound s = true)
include hf

theorem loadPlan_of_code {c : Code} (h : loadPlanCode s (defaultPlan s) = some c) : loadPlan s = failPlan c s := by
  rw [loadPlan, hf, h]
  rfl

theorem loadPlan_of_good (h : loadPlanCode s (defaultPlan s) = none) : loadPlan s = startTraining (defaultPlan s) s := by
  rw [loadPlan, hf, h]
  rfl

end
end

theorem setMap_frame (v : Word) (s : State) : ∃ m, setMap v s = { s with memc := m } := by
  unfold setMap
  split <;> exact ⟨_, rfl⟩

/-- Training starts on every channel, with the plan's digest kept (R541, R542). -/
theorem startTraining_frame (b : List Byte) (s : State) : ∃ m : Memc, startTraining b s =
    { s with plan := { s.plan with digest1 := (parseImage b).digest }, memc := m, sec := { s.sec with stage := 2 } } ∧ m.trainState = 1 ∧
    ∀ c, c < 12 → (lookD m.chans c Chan.reset).state = 1 := by
  obtain ⟨m, hm⟩ := setMap_frame (BitVec.ofNat 32 (parseImage b).cfg.order) { s with plan := { s.plan with digest1 := (parseImage b).digest } }
  unfold startTraining
  dsimp only
  rw [hm]
  refine ⟨_, rfl, rfl, fun c hc => ?_⟩
  interval_cases c <;> rfl

/-- What LOAD may touch: the security block, the library, the PLAN block and the memory controller (R541, R542). -/
def LoadFrame (s t : State) : Prop := t = { s with sec := t.sec, mclib := t.mclib, plan := t.plan, memc := t.memc }

theorem buildLibrary_frame (s : State) : ∃ lib m, buildLibrary s = { s with mclib := lib, sec := { s.sec with meas := m } } ∧
    lookD m 1 0 = lookD s.sec.meas 1 0 ∧ (flashBytes s 0x820000 4 ≠ [0x4D, 0x43, 0x50, 0x4B] → lib = s.mclib) := by
  obtain ⟨lib, m, h, hm⟩ := takePackages_frame 87382 0x820000 s
  exact ⟨lib, m, h, hm, fun hend => (congrArg State.mclib h).symm.trans (congrArg State.mclib (takePackages_of_end _ hend))⟩

/-- With the Helm firmware of a slot started, the library and the security block alone have changed (R541, R545). -/
theorem startHelm_frame (k : Nat) (f : Firmware) (s : State) : ∃ lib m,
    startHelm k f (buildLibrary s) = { s with mclib := lib, sec := { s.sec with meas := m, helmSlot := k, helmSvn := f.svn } } ∧
    lookD m 1 0 = Config.extend (lookD s.sec.meas 1 0) f.digest ∧ (flashBytes s 0x820000 4 ≠ [0x4D, 0x43, 0x50, 0x4B] → lib = s.mclib) := by
  obtain ⟨lib, m, h, hm, hlib⟩ := buildLibrary_frame s
  rw [h]
  exact ⟨lib, _, rfl, (lookD_put_self ..).trans (congrArg (fun x => Config.extend x f.digest) hm), hlib⟩

/-- The default plan's reading leaves the library, and of the security block all but the stage and its reason. -/
theorem loadPlan_frame (s : State) : ∃ p m n r, loadPlan s = { s with plan := p, memc := m, sec := { s.sec with stage := n, bootReason := r } } := by
  unfold loadPlan
  split
  · exact ⟨s.plan, s.memc, 7, 0x090A, rfl⟩
  · split
    · next c _ => exact ⟨{ s.plan with reason := c }, s.memc, 7, c, rfl⟩
    · obtain ⟨m, hm, -⟩ := startTraining_frame (defaultPlan s) s
      exact ⟨_, m, 2, s.sec.bootReason, hm⟩

/-- What LOAD does whatever becomes of the default plan, where a Helm slot passes its checks (R539 to R541, R545). -/
theorem loadStage_reads_of_helm {s : State} (h1 : s.sec.stage = 1) {k : Nat} {f : Firmware} (hp : helmPick s = some (k, f)) :
    (flashBytes s 0x820000 4 ≠ [0x4D, 0x43, 0x50, 0x4B] → (loadStage s).mclib = s.mclib) ∧ (loadStage s).sec.helmSlot = k ∧
    (loadStage s).sec.helmSvn = f.svn ∧ lookD (loadStage s).sec.meas 1 0 = Config.extend (lookD s.sec.meas 1 0) f.digest ∧ LoadFrame s (loadStage s) := by
  obtain ⟨lib, m, hu, hm, hlib⟩ := startHelm_frame k f s
  rw [loadStage_of_some h1 hp, hu, LoadFrame]
  obtain ⟨p, mc, n, r, h⟩ := loadPlan_frame { s with mclib := lib, sec := { s.sec with meas := m, helmSlot := k, helmSvn := f.svn } }
  rw [h]
  exact ⟨hlib, rfl, rfl, hm, rfl⟩

theorem planFound_startHelm (k : Nat) (f : Firmware) (s : State) : planFound (startHelm k f (buildLibrary s)) = planFound s := by
  obtain ⟨lib, m, hu, -⟩ := startHelm_frame k f s
  rw [hu]
  rfl

theorem defaultPlan_startHelm (k : Nat) (f : Firmware) (s : State) : defaultPlan (startHelm k f (buildLibrary s)) = defaultPlan s := by
  obtain ⟨lib, m, hu, -⟩ := startHelm_frame k f s
  rw [hu]
  rfl

section
variable {s : State} (h1 : s.sec.stage = 1)
include h1

theorem loadStage_reads_of_noHelm (hp : helmPick s = none) :
    (flashBytes s 0x820000 4 ≠ [0x4D, 0x43, 0x50, 0x4B] → (loadStage s).mclib = s.mclib) ∧
    ((loadStage s).sec.stage = 7 ∧ (loadStage s).sec.bootReason = 0x0909) ∧ LoadFrame s (loadStage s) := by
  obtain ⟨lib, m, hu, -, hlib⟩ := buildLibrary_frame s
  rw [loadStage_of_none h1 hp, hu, LoadFrame]
  exact ⟨hlib, ⟨rfl, rfl⟩, rfl⟩

section
variable {k : Nat} {f : Firmware} (hp : helmPick s = some (k, f))
include hp

theorem loadStage_of_noPlan (hf : planFound s = false) : (loadStage s).sec.stage = 7 ∧ (loadStage s).sec.bootReason = 0x090A := by
  rw [loadStage_of_some h1 hp, loadPlan_of_missing ((planFound_startHelm k f s).trans hf)]
  exact ⟨rfl, rfl⟩

section
variable (hf : planFound s = true)
include hf

theorem loadStage_of_badPlan {c : Code} (hc : loadPlanCode (startHelm k f (buildLibrary s)) (defaultPlan s) = some c) :
    (loadStage s).sec.stage = 7 ∧ (loadStage s).sec.bootReason = c ∧ (loadStage s).plan.reason = c := by
  rw [← defaultPlan_startHelm k f s] at hc
  rw [loadStage_of_some h1 hp, loadPlan_of_code ((planFound_startHelm k f s).trans hf) hc]
  exact ⟨rfl, rfl, rfl⟩

theorem loadStage_of_goodPlan (hc : loadPlanCode (startHelm k f (buildLibrary s)) (defaultPlan s) = none) :
    (loadStage s).sec.stage = 2 ∧ (loadStage s).plan.digest1 = (parseImage (defaultPlan s)).digest ∧ (loadStage s).memc.trainState = 1 ∧
    ∀ c, c < 12 → (chanOf (loadStage s) c).state = 1 := by
  rw [← defaultPlan_startHelm k f s] at hc
  rw [loadStage_of_some h1 hp, loadPlan_of_good ((planFound_startHelm k f s).trans hf) hc, defaultPlan_startHelm]
  obtain ⟨m, ht, hm, hch⟩ := startTraining_frame (defaultPlan s) (startHelm k f (buildLibrary s))
  rw [ht]
  exact ⟨rfl, rfl, hm, hch⟩

end
end
end

/-! TRAIN. -/

/-- The controller of a trained memory can be enabled, or is (R343). -/
theorem memcCtrl_of_trained {s : State} (h : s.memc.trainState = 2) :
    ∃ ch, memcCtrl true s = { s with memc := { s.memc with en := true, chans := ch } } := by
  by_cases hen : true = s.memc.en
  · refine ⟨s.memc.chans, (if_pos hen).trans ?_⟩
    rw [hen]
  · exact ⟨_, (if_neg hen).trans ((if_neg (show ¬(!true) = true by decide)).trans (if_pos h))⟩

theorem withholdRecords_of_noTable {s : State} (h : s.memc.table = []) : withholdRecords s = s := by
  rw [withholdRecords, h]
  rfl

section
variable {s : State} {i : TrainIn} (hr : Runs s) (hst : s.sec.stage = 2)
include hr hst

theorem execBootTrainDone_of_population (h : i.uniform = false ∨ has [1, 2] i.dpc = false ∨ has [1, 2, 4] i.ranks = false) :
    execBootTrainDone i s = .next (failTrain 0x0E01 s) := by
  have hno : (!i.uniform || !has [1, 2] i.dpc || !has [1, 2, 4] i.ranks) = true := by
    rcases h with h | h | h <;> simp [h]
  rw [execBootTrainDone, live_of_runs _ hr, if_neg (not_not_intro hst), if_pos hno]

section
variable (hu : i.uniform = true) (hd : has [1, 2] i.dpc = true) (hk : has [1, 2, 4] i.ranks = true)
include hu hd hk

theorem execBootTrainDone_of_slow (hlow : i.ratedMts < 4800) : execBootTrainDone i s = .next (failTrain 0x0E02 s) := by
  rw [execBootTrainDone, live_of_runs _ hr, if_neg (not_not_intro hst), hu, hd, hk, if_neg (by decide), if_pos hlow]

/-- The memory controller as the population is known (R316 to R318). -/
def populatedMemc (i : TrainIn) (m : Memc) : Memc :=
  { m with dens32 := i.dens32, dpc := i.dpc, ranks := i.ranks, speed := speedCode i.ratedMts i.dpc }

/-- The memory controller as every channel has trained and no page is retired (R327, R335). -/
def trainedMemc (i : TrainIn) (m : Memc) : Memc :=
  { populatedMemc i m with
    trainSrc := 2, failMask := 0, trainState := 2, chans := m.chans.map (fun e => (e.1, { e.2 with state := 2 })), table := [] }

omit hr hst hu in
/-- Twelve channels of at most 8 ranks of at most 64 GB are within the greatest capacity (R318). -/
theorem capacity_of_population (hspare : bit s.memc.retireCfg 8 = false) :
    capacity { s with memc := populatedMemc i s.memc } = 12 * (i.dpc * i.ranks) * ((if i.dens32 then 64 else 32) * 1000000000) ∧
    capacity { s with memc := populatedMemc i s.memc } ≤ 6144 * 10 ^ 9 := by
  have heq : capacity { s with memc := populatedMemc i s.memc } = 12 * (i.dpc * i.ranks) * ((if i.dens32 then 64 else 32) * 1000000000) := by
    simp only [capacity, usableRanks, rankCap, populatedMemc, hspare, Bool.false_eq_true, if_false, Nat.sub_zero, Nat.reducePow]
    rfl
  have hdpc : i.dpc ≤ 2 := by
    have : i.dpc = 1 ∨ i.dpc = 2 := by simpa [has] using hd
    omega
  have hranks : i.ranks ≤ 4 := by
    have : i.ranks = 1 ∨ i.ranks = 2 ∨ i.ranks = 4 := by simpa [has] using hk
    omega
  have hdens : (if i.dens32 then 64 else 32) ≤ 64 := by split <;> decide
  refine ⟨heq, heq.trans_le ?_⟩
  calc 12 * (i.dpc * i.ranks) * ((if i.dens32 then 64 else 32) * 1000000000)
      ≤ 12 * (2 * 4) * (64 * 1000000000) :=
        Nat.mul_le_mul (Nat.mul_le_mul_left 12 (Nat.mul_le_mul hdpc hranks)) (Nat.mul_le_mul_right _ hdens)
    _ = 6144 * 10 ^ 9 := by norm_num

theorem execBootTrainDone_of_trained (hrate : 4800 ≤ i.ratedMts) (hres : i.results = List.replicate 12 1) (hspare : bit s.memc.retireCfg 8 = false)
    (hcap : 384000000000 ≤ 12 * (i.dpc * i.ranks) * ((if i.dens32 then 64 else 32) * 1000000000)) (hret : i.retired = []) :
    execBootTrainDone i s = .next (setSec (memcCtrl true { s with memc := trainedMemc i s.memc }) (fun x => { x with stage := 3 })) := by
  have hcheck : checkSpare { s with memc := populatedMemc i s.memc } = { s with memc := populatedMemc i s.memc } := by
    have hno : bit ({ s with memc := populatedMemc i s.memc } : State).memc.retireCfg 8 = false := hspare
    rw [checkSpare, hno, Bool.false_and, if_neg Bool.false_ne_true]
  have hsize : ¬(capacity { s with memc := populatedMemc i s.memc } < 384 * 10 ^ 9 ∨ 6144 * 10 ^ 9 < capacity { s with memc := populatedMemc i s.memc }) := by
    obtain ⟨heq, hmax⟩ := capacity_of_population hd hk hspare
    rw [← heq] at hcap
    exact not_or.mpr ⟨Nat.not_lt.mpr hcap, Nat.not_lt.mpr hmax⟩
  rw [execBootTrainDone, live_of_runs _ hr, if_neg (not_not_intro hst), hu, hd, hk, if_neg (by decide), if_neg (Nat.not_lt.mpr hrate)]
  refine congrArg Host.Outcome.next ?_
  simp only [populatedMemc] at hcheck hsize
  dsimp only
  rw [hcheck, if_neg hsize, hres, hret]
  refine (if_neg (by decide)).trans (congrArg (fun t => setSec t (fun x => { x with stage := 3 })) ?_)
  obtain ⟨ch, hctrl⟩ := memcCtrl_of_trained (s := { s with memc := trainedMemc i s.memc }) rfl
  have htable : (memcCtrl true { s with memc := trainedMemc i s.memc }).memc.table = [] := by rw [hctrl]; rfl
  exact withholdRecords_of_noTable htable

end
end

end Sys2Proof.Machine
end

section
/-! The boot stage INIT, and the statement on the boot stages (R53, R535, R536, R538 to R543, R545, R598). -/

namespace Sys2Proof.Machine
open Sys2Proof

/-! What the first plan's pool and routing leave: the PLAN block, the security block and the Quarters. -/

/-- The PLAN block, the security block and the Quarters. -/
def held (s : State) : Plan × Sec × NMap Quarter := (s.plan, s.sec, s.quarters)

@[simp] theorem withdraw_held (page : Nat) (s : State) : held (withdraw page s) = held s := by
  unfold withdraw
  dsimp only
  split
  · exact foldl_frame _ (fun t => held t = held s) _ s rfl (fun t b ht => ht)
  · split
    · rfl
    · split
      · rfl
      · obtain ⟨w, n, i, p, o, d, h, -⟩ := raise_frame winMemc 5 0x0E0B false s
        rw [h]
        rfl

@[simp] theorem dropRetired_held (s : State) : held (dropRetired s) = held s :=
  foldl_frame _ (fun t => held t = held s) _ s rfl (fun t r ht => (withdraw_held r.page t).trans ht)

@[simp] theorem takeRoute_held (r : RouteEntry) (s : State) : held (takeRoute r s) = held s :=
  foldl_frame _ (fun t => held t = held s) _ s rfl (fun _ _ ht => ht)

theorem takeRoutes_held (l : List RouteEntry) (s : State) : held (l.foldl (fun s r => takeRoute r s) s) = held s :=
  foldl_frame _ (fun t => held t = held s) l s rfl (fun t r ht => (takeRoute_held r t).trans ht)

/-! The Quarters of the first plan load (R53). -/

theorem rezoneEngines_plan (q : Nat) (s : State) : (rezoneEngines q s).plan = s.plan := by
  obtain ⟨e, he⟩ := rezoneEngines_frame q s
  rw [he]

/-- Of the PLAN block a Quarter that loads changes its own District and the microcode and self-test entries alone (R57, R59). -/
theorem enterLoading_plan (q : Nat) (r : Bool) (s : State) : ∃ ds mc bi,
    (enterLoading q r s).plan = { s.plan with districts := ds, mc := mc, bist := bi } ∧ ∀ p, p ≠ q → look ds p = look s.plan.districts p := by
  unfold enterLoading
  cases loadingPlan s q r with
  | none => exact ⟨_, _, _, rezoneEngines_plan .., fun _ _ => rfl⟩
  | some i =>
    refine ⟨_, _, _, rezoneEngines_plan .., fun p hp => ?_⟩
    split
    · rfl
    · exact look_put_ne _ _ hp

/-- The state as the pool and the routing of the first plan are in force (R44 to R50). -/
def firstPlanLaid (i : PlanImage) (s : State) : State :=
  let s1 := { s with plan := { s.plan with
    first := true, cfg := i.cfg, districts := i.districts, mc := i.mc, priors := i.priors, bist := i.bist, activeId := i.planId, activeSvn := i.svn,
    digest := i.digest } }
  i.routes.foldl (fun s r => takeRoute r s) (dropRetired (layPool ((List.range 5).map (fun k => (k, i.cfg.counts.getD k 0)))
    { s1 with pool := { s1.pool with quota := (List.range 25).map (fun k => (k, i.cfg.quotas.getD k 0)), fnQuota := [] } }))

/-- A Quarter of the first plan takes its District, and loads where it is not all OFF. -/
def takeFirst (i : PlanImage) (s : State) (q : Nat) : State :=
  let d := districtOf s q
  let s1 := setQtr s q (fun t => { t with planId := i.planId, mcSet := d.mcSet, weight := d.weight })
  if allOff d then s1 else enterLoading q false s1

theorem firstPlan_eq (i : PlanImage) (s : State) :
    firstPlan i s = extendMeas 3 i.digest ((List.range 16).foldl (takeFirst i) (firstPlanLaid i s)) := rfl

/-- The Quarters below n have taken the first plan, the others wait for it; nothing of the PLAN block but Districts, microcode and self-test entries
has changed, nor has the security block. -/
def FirstTaken (n : Nat) (s t : State) : Prop :=
  (∃ ds mc bi, t.plan = { s.plan with districts := ds, mc := mc, bist := bi }) ∧ t.sec = s.sec ∧
  (∀ q, n ≤ q → districtOf t q = districtOf s q) ∧ ∀ q, q < n → allOff (districtOf s q) = false → (qtrOf t q).state = 5

theorem districtOf_of_look {s t : State} {q : Nat} (h : look t.plan.districts q = look s.plan.districts q) : districtOf t q = districtOf s q := by
  rw [districtOf, h, districtOf]

theorem firstTaken_step (i : PlanImage) {n : Nat} {s t : State} (h : FirstTaken n s t) : FirstTaken (n + 1) s (takeFirst i t n) := by
  obtain ⟨⟨ds, mc, bi, hplan⟩, hsec, hrest, hload⟩ := h
  unfold takeFirst
  extract_lets d u
  have hother : ∀ q, q < n → qtrOf u q = qtrOf t q := fun q hq => qtrOf_setQtr_ne _ _ (Nat.ne_of_lt hq)
  split
  · next hoff =>
    refine ⟨⟨ds, mc, bi, hplan⟩, hsec, fun q hq => hrest q (by omega), fun q hq hon => ?_⟩
    have hqn : q ≠ n := by
      rintro rfl
      rw [← hrest q le_rfl, hoff] at hon
      cases hon
    rw [hother q (by omega)]
    exact hload q (by omega) hon
  · obtain ⟨h5, -, -, -, -, -, hkeep, hframe⟩ := enterLoading_reads (s := u) n false rfl rfl
    obtain ⟨ds', mc', bi', hplan', hds⟩ := enterLoading_plan n false u
    refine ⟨⟨ds', mc', bi', ?_⟩, ?_, fun q hq => ?_, fun q hq hon => ?_⟩
    · rw [hplan', show u.plan = _ from hplan]
    · rw [hframe]
      exact hsec
    · rw [← hrest q (by omega)]
      refine districtOf_of_look ?_
      rw [hplan']
      exact hds q (by omega)
    · by_cases hqn : q = n
      · rw [hqn, h5]
      · rw [hkeep q hqn, hother q (by omega)]
        exact hload q (by omega) hon

theorem firstTaken_range (i : PlanImage) (n : Nat) (s : State) : FirstTaken n s ((List.range n).foldl (takeFirst i) s) := by
  induction n with
  | zero => exact ⟨⟨_, _, _, rfl⟩, rfl, fun _ _ => rfl, fun q hq => absurd hq (Nat.not_lt_zero q)⟩
  | succ n ih =>
    rw [List.range_succ, List.foldl_append]
    exact firstTaken_step i ih

theorem firstPlanLaid_held (i : PlanImage) (s : State) : held (firstPlanLaid i s) = ({ s.plan with
    first := true, cfg := i.cfg, districts := i.districts, mc := i.mc, priors := i.priors, bist := i.bist, activeId := i.planId, activeSvn := i.svn,
    digest := i.digest }, s.sec, s.quarters) := by
  rw [firstPlanLaid, takeRoutes_held, dropRetired_held]
  rfl

/-- The first plan in force: the PLAN block's fields, the plan's measurement, and its Quarters in LOADING (R53, R545). -/
theorem firstPlan_reads (i : PlanImage) (s : State) : (firstPlan i s).plan.first = true ∧ (firstPlan i s).plan.cfg = i.cfg ∧
    (firstPlan i s).plan.activeId = i.planId ∧ (firstPlan i s).plan.activeSvn = i.svn ∧ (firstPlan i s).plan.digest = i.digest ∧
    (firstPlan i s).sec = { s.sec with meas := put s.sec.meas 3 (Config.extend (lookD s.sec.meas 3 0) i.digest) } ∧
    ∀ q d, q < 16 → look i.districts q = some d → allOff d = false → (qtrOf (firstPlan i s) q).state = 5 := by
  obtain ⟨⟨ds, mc, bi, hplan⟩, hsec, -, hload⟩ := firstTaken_range i 16 (firstPlanLaid i s)
  have hlaid := firstPlanLaid_held i s
  have hp : (firstPlanLaid i s).plan = _ := congrArg Prod.fst hlaid
  have hs : (firstPlanLaid i s).sec = s.sec := congrArg (fun x => x.2.1) hlaid
  rw [hp] at hplan
  rw [hs] at hsec
  generalize hu : (List.range 16).foldl (takeFirst i) (firstPlanLaid i s) = u at hplan hsec hload
  have hfirst : firstPlan i s = extendMeas 3 i.digest u := by rw [firstPlan_eq, hu]
  have hfplan : (firstPlan i s).plan = u.plan := by rw [hfirst]; rfl
  rw [hfplan, hplan]
  refine ⟨rfl, rfl, rfl, rfl, rfl, ?_, fun q d hq hd hon => ?_⟩
  · rw [hfirst, extendMeas, hsec]
  · have hdist : districtOf (firstPlanLaid i s) q = d := by
      rw [districtOf, hp, hd]
      rfl
    rw [hfirst]
    exact hload q hq (by rwa [hdist])

/-! The stage. -/

section
variable {s : State} (hst : s.sec.stage = 3) (hfirst : s.plan.first = false)
include hst hfirst

theorem initStage_of_missing (hf : planFound s = false) : initStage s = failBoot 0x090A s := by
  simp [initStage, hst, hfirst, hf]

section
variable (hf : planFound s = true)
include hf

theorem initStage_of_changed (hd : (parseImage (defaultPlan s)).digest ≠ s.plan.digest1) : initStage s = failBoot 0x090A (stageDefault s) := by
  simp [initStage, hst, hfirst, hf, hd]

section
variable (hd : (parseImage (defaultPlan s)).digest = s.plan.digest1)
include hd

theorem initStage_of_code {c : Code} (hc : planCode (stageDefault s) (defaultPlan s) true (parseImage (defaultPlan s)) = some c) :
    initStage s = failPlan c (stageDefault s) := by
  simp [initStage, hst, hfirst, hf, hd, hc]

theorem initStage_of_good (hc : planCode (stageDefault s) (defaultPlan s) true (parseImage (defaultPlan s)) = none) :
    initStage s = readiness (firstPlan (parseImage (defaultPlan s)) (loadKeys (stageDefault s))) := by
  simp [initStage, hst, hfirst, hf, hd, hc]

end
end
end

/-- Of memory INIT changes the bytes of the plan in the staging buffer alone (R542). -/
theorem readMem_of_stageDefault {s t : State} (ht : t.mem = (stageDefault s).mem) {a : Nat}
    (ha : a < stageAt s ∨ stageAt s + (defaultPlan s).length ≤ a) : readMem t a = readMem s a := by
  rw [readMem, ht]
  exact rdCell_wrCells_ne ha

/-- The first plan and what follows it leave memory as the staging left it. -/
theorem mem_of_firstPlan (i : PlanImage) (s : State) : (readiness (firstPlan i (loadKeys s))).mem = s.mem :=
  (of_core (congrArg Kept.core (show kept (readiness (firstPlan i (loadKeys s))) = kept s by simp))).1

/-- Where the default plan is found, INIT leaves memory as the staging left it (R542). -/
theorem initStage_mem {s : State} (hst : s.sec.stage = 3) (hfirst : s.plan.first = false) (hf : planFound s = true) :
    (initStage s).mem = (stageDefault s).mem := by
  by_cases hd : (parseImage (defaultPlan s)).digest = s.plan.digest1
  · cases hc : planCode (stageDefault s) (defaultPlan s) true (parseImage (defaultPlan s)) with
    | some c =>
      rw [initStage_of_code hst hfirst hf hd hc, failPlan]
      rfl
    | none =>
      rw [initStage_of_good hst hfirst hf hd hc]
      exact mem_of_firstPlan ..
  · rw [initStage_of_changed hst hfirst hf hd]
    rfl

/-- The plan is in force as the first one: its fields, the keys loaded, its digest measured and its Quarters in LOADING (R53, R542, R545). -/
def FirstPlanHolds (i : PlanImage) (s t : State) : Prop :=
  t.plan.first = true ∧ t.plan.cfg = i.cfg ∧ t.plan.activeId = i.planId ∧ t.plan.activeSvn = i.svn ∧ t.plan.digest = i.digest ∧ t.sec.ready = true ∧
  lookD t.sec.meas 3 0 = Config.extend (lookD s.sec.meas 3 0) i.digest ∧
  ∀ q d, q < 16 → look i.districts q = some d → allOff d = false → (qtrOf t q).state = 5

theorem readiness_firstPlan_reads {i : PlanImage} {s t : State} (ht : readiness (firstPlan i (loadKeys s)) = t) : FirstPlanHolds i s t := by
  have hready : (loadKeys s).sec.ready = true := rfl
  have hmeas : (loadKeys s).sec.meas = s.sec.meas := rfl
  obtain ⟨h1, h2, h3, h4, h5, hsec, hq⟩ := firstPlan_reads i (loadKeys s)
  rw [hmeas] at hsec
  obtain ⟨n, hn⟩ := readiness_frame (firstPlan i (loadKeys s))
  rw [hn] at ht
  generalize firstPlan i (loadKeys s) = u at h1 h2 h3 h4 h5 hsec hq ht
  generalize loadKeys s = v at hsec hready
  subst ht
  refine ⟨h1, h2, h3, h4, h5, ?_, ?_, hq⟩
  · exact (congrArg Sec.ready hsec).trans hready
  · exact (congrArg (fun x => lookD x.meas 3 0) hsec).trans (lookD_put_self ..)

theorem initStage_reads_of_good {s t : State} (ht : initStage s = t) (hst : s.sec.stage = 3) (hfirst : s.plan.first = false) (hf : planFound s = true)
    (hd : (parseImage (defaultPlan s)).digest = s.plan.digest1)
    (hc : planCode (stageDefault s) (defaultPlan s) true (parseImage (defaultPlan s)) = none) :
    FirstPlanHolds (parseImage (defaultPlan s)) s t := by
  have hmeas : (stageDefault s).sec = s.sec := rfl
  rw [initStage_of_good hst hfirst hf hd hc] at ht
  rw [FirstPlanHolds, ← hmeas]
  exact readiness_firstPlan_reads ht

/-! The stages together. -/

/-- What keeps the state but for DRAM keeps the flash. -/
theorem flash_of_om {s t : State} (h : OM (kept s) (kept t)) : t.sec.flash = s.sec.flash := by
  obtain ⟨-, -, -, -, -, hflash, -⟩ := h.fields
  exact hflash

/-- Settles O41: each stage in the case that the flash and the operands make of it; a stage that misreads the flash keeps it, as every stage does. -/
theorem bootStages : Obligations.BootStages := by
  unfold Obligations.BootStages
  simp only [exec_bootRomDone, exec_bootLoadDone, exec_bootTrainDone, exec_bootInitDone, Completes]
  refine ⟨?romHalt, ?rom, ?load, ?train, ?population, ?slow, ?missing, ?init, ?romMisread, ?loadMisread, ?initMisread⟩
  case romHalt =>
    intro s hr h0 hh
    rw [execBootRomDone_of_runs hr, romStage_of_halt h0 hh]
    rfl
  case rom =>
    intro s hr h0 hh
    refine ⟨_, execBootRomDone_of_runs hr, ?_⟩
    split
    · next hv =>
      obtain ⟨hmeas, hframe, hkey, hdir, hnone, hsome⟩ := romStage_reads_of_key h0 hh hv
      refine ⟨hmeas, hframe, hkey, hdir, ?_⟩
      split
      · next hp => exact hnone hp
      · next k f hp => exact hsome k f hp
    · next hv =>
      rw [romStage_of_badKey h0 hh hv]
      exact ⟨lookD_put_self .., setSec_frame _ (fusesMeasured_frame s), rfl, rfl⟩
  case load =>
    intro s hr h1
    refine ⟨_, execBootLoadDone_of_runs hr, ?_⟩
    split
    · next hp => exact loadStage_reads_of_noHelm h1 hp
    · next k f hp =>
      obtain ⟨hlib, hslot, hsvn, hmeas, hframe⟩ := loadStage_reads_of_helm h1 hp
      refine ⟨hlib, ⟨hslot, hsvn, hmeas, ?_⟩, hframe⟩
      split
      · next hf => exact loadStage_of_noPlan h1 hp hf
      · next hf =>
        have hf : planFound s = true := Bool.eq_true_of_not_eq_false hf
        split
        · next c hc => exact loadStage_of_badPlan h1 hp hf hc
        · next hc => exact loadStage_of_goodPlan h1 hp hf hc
  case train =>
    intro i s hr hst hu hd hk hrate hres hspare hcap hret
    obtain ⟨ch, hctrl⟩ := memcCtrl_of_trained (s := { s with memc := trainedMemc i s.memc }) rfl
    have ht := execBootTrainDone_of_trained hr hst hu hd hk hrate hres hspare hcap hret
    rw [hctrl] at ht
    exact ⟨_, ht, rfl, rfl, rfl, rfl, rfl, rfl, rfl, rfl⟩
  case population => exact fun i s hr hst h => execBootTrainDone_of_population hr hst h
  case slow => exact fun i s hr hst hu hd hk hlow => execBootTrainDone_of_slow hr hst hu hd hk hlow
  case missing =>
    intro s hr hst hfirst hf
    rw [execBootInitDone_of_runs hr, initStage_of_missing hst hfirst hf]
    rfl
  case init =>
    intro s hr hst hfirst hf
    refine ⟨_, execBootInitDone_of_runs hr, ?_, fun a ha => readMem_of_stageDefault (initStage_mem hst hfirst hf) ha⟩
    split
    · next hd =>
      split
      · next c hc =>
        rw [initStage_of_code hst hfirst hf hd hc]
        exact ⟨rfl, rfl, rfl⟩
      · next hc => exact initStage_reads_of_good rfl hst hfirst hf hd hc
    · next hd =>
      rw [initStage_of_changed hst hfirst hf hd]
      exact ⟨rfl, rfl⟩
  case romMisread => exact fun l s hr => readFlash_of_misread (fun t => flash_of_om (OM.of (romStage_kept t))) l hr
  case loadMisread => exact fun l s hr => readFlash_of_misread (fun t => flash_of_om (OM.of (loadStage_kept t))) l hr
  case initMisread => exact fun l s hr => readFlash_of_misread (fun t => flash_of_om (initStage_om t)) l hr

end Sys2Proof.Machine
end

section
/-! Session commands: when one is taken, what it waits for, and which token it needs, and the statement on them (R70, R72, R74, R97, R381). -/

namespace Sys2Proof.Machine
open Sys2Proof

/-! The four answers of a session command's port. -/

section
variable {s : State} {h : Hdr} (i : Instr) (op : Nat) (f : State → State)

/-- A function that is not on has no command ring, whatever the part does (R375). -/
theorem sessionCmd_of_off (hoff : fnOn s h.fn = false) : sessionCmd i h op s f = .next s := by
  simp [sessionCmd, live, hoff]

theorem sessionCmd_of_guard (hh : Hears s h) (hw : s.bell.window = .guard) :
    sessionCmd i h op s f = .next { s with deferred := s.deferred ++ [i] } := by
  obtain ⟨hr, hon⟩ := hh
  simp [sessionCmd, live_of_runs _ hr, hon, hw]

theorem sessionCmd_of_disabled (hh : Hears s h) (hw : s.bell.window ≠ .guard) (hen : s.sess.en = false) :
    sessionCmd i h op s f = .next (refuse h op 0x020D s) := by
  obtain ⟨hr, hon⟩ := hh
  simp [sessionCmd, live_of_runs _ hr, hon, hw, hen]

theorem sessionCmd_of_takes (ht : Takes s h) : sessionCmd i h op s f = .next (f s) := by
  obtain ⟨⟨hr, hon⟩, hw, hen⟩ := ht
  simp [sessionCmd, live_of_runs _ hr, hon, hw, hen]

end

/-! Tokens. -/

section
variable {s : State} {fn : Nat} {token : Word}

/-- A function's own session is one that the PF's rule finds too (R72). -/
theorem tokenSessionPf_of_own {n : Nat} {x : Session} (h : tokenSession s fn token = some (n, x)) : tokenSessionPf s fn token = some (n, x) := by
  unfold tokenSession at h
  unfold tokenSessionPf
  dsimp only at h ⊢
  split at h
  · cases h
  · next y hy =>
    split at h
    · next hown =>
      obtain ⟨hgen, hfn⟩ := hown
      rw [← h]
      exact if_pos ⟨hgen, .inl hfn⟩
    · cases h

theorem tokenSession_of_unknown (h : tokenSessionPf s fn token = none) : tokenSession s fn token = none := by
  cases ht : tokenSession s fn token with
  | none => rfl
  | some p => rw [tokenSessionPf_of_own ht] at h; cases h

end

section
variable {s : State} {h : Hdr} (op : Nat) (f : Nat → Session → State → State)

theorem onToken_of_unknown (hn : tokenSessionPf s h.fn h.token = none) : onToken h op s f = refuse h op 0x0201 s := by
  rw [onToken, tokenSession_of_unknown hn]

theorem onPrimaryPf_of_unknown (hn : tokenSessionPf s h.fn h.token = none) : onPrimaryPf h op s f = refuse h op 0x0201 s := by
  rw [onPrimaryPf, hn]

theorem feedback_of_unknown (ok : Session → Bool) (g : Nat → State → State) (hn : tokenSessionPf s h.fn h.token = none) :
    feedback h ok g s = refuse h 8 0x0201 s := by
  rw [feedback, onPrimary, onToken_of_unknown 8 _ hn]

end

/-- Each session command goes through the port, and one that needs its token first is refused where the token names no session (R72, R74). -/
theorem exec_of_sessionHdr {i : Instr} {h : Hdr} {op : Nat} (hi : sessionHdr i = some (h, op)) (s : State) :
    ∃ f, exec i s = sessionCmd i h op s f ∧ (needsToken i = true → tokenSessionPf s h.fn h.token = none → f s = refuse h op 0x0201 s) := by
  cases i with
  | openSession _ _ | keyLoad _ _ | keyErase _ _ =>
    cases hi
    simp only [exec, execOpenSession, execKeyLoad, execKeyErase]
    exact ⟨_, rfl, fun hneeds => by cases hneeds⟩
  | park _ _ | parkCold _ _ | resume _ _ | close _ _ =>
    cases hi
    simp only [exec, execPark, execParkCold, execResume, execClose]
    exact ⟨_, rfl, fun _ hn => onPrimaryPf_of_unknown _ _ hn⟩
  | configureStream _ _ _ | configureRate _ _ | configureResilience _ _ | configureHostTransport _ _ | setRateBounds _ _ | attachReceiver _ _
  | submitFrameAperture _ _ | submitFrameHost _ _ | snapshotSession _ _ _ | decodeBind _ _ | decodeData _ _ | decodeRelease _ _ _ | decodeFlush _ _ =>
    cases hi
    simp only [exec, execConfigureStream, execConfigureRate, execConfigureResilience, execConfigureHostTransport, execSetRateBounds,
      execAttachReceiver, execSubmitFrameAperture, execSubmitFrameHost, execSnapshotSession, execDecodeBind, execDecodeData, execDecodeRelease,
      execDecodeFlush]
    exact ⟨_, rfl, fun _ hn => onToken_of_unknown _ _ hn⟩
  | feedbackAck _ _ _ | feedbackLoss _ _ _ | feedbackKeyRequest _ _ | feedbackRateReport _ _ _ _ =>
    cases hi
    simp only [exec, execFeedbackAck, execFeedbackLoss, execFeedbackKeyRequest, execFeedbackRateReport]
    exact ⟨_, rfl, fun _ hn => feedback_of_unknown _ _ hn⟩
  | _ => cases hi

/-- Settles O58: a session command goes through its port, and each clause is one answer of the port or of the token's check. -/
theorem sessionCommandsWaitAndNeedAToken : Obligations.SessionCommandsWaitAndNeedAToken := by
  unfold Obligations.SessionCommandsWaitAndNeedAToken
  refine ⟨?guard, ?disabled, ?off, ?token⟩
  case guard =>
    intro i h op s hi hh hw
    obtain ⟨f, hf, -⟩ := exec_of_sessionHdr hi s
    rw [hf, sessionCmd_of_guard i op f hh hw]
  case disabled =>
    intro i h op s hi hh hw hen
    obtain ⟨f, hf, -⟩ := exec_of_sessionHdr hi s
    rw [hf, sessionCmd_of_disabled i op f hh hw hen]
  case off =>
    intro i h op s hi hoff
    obtain ⟨f, hf, -⟩ := exec_of_sessionHdr hi s
    rw [hf, sessionCmd_of_off i op f hoff]
  case token =>
    intro i h op s hi hneeds ht hn
    obtain ⟨f, hf, htok⟩ := exec_of_sessionHdr hi s
    rw [hf, sessionCmd_of_takes i op f ht, htok hneeds hn]

end Sys2Proof.Machine
end

section
/-! Sessions opened and configured, and the statement on them (R70, R79, R80, R225, R226, R252, R387). -/

namespace Sys2Proof.Machine
open Sys2Proof

theorem exec_openSession (h : Hdr) (o : OpenOps) (s : State) : exec (.openSession h o) s = execOpenSession h o s := rfl
theorem exec_configureStream (h : Hdr) (o : StreamOps) (pad : Nat) (s : State) :
    exec (.configureStream h o pad) s = execConfigureStream h o pad s := rfl
theorem exec_configureRate (h : Hdr) (o : RateOps) (s : State) : exec (.configureRate h o) s = execConfigureRate h o s := rfl
theorem exec_configureResilience (h : Hdr) (o : ResOps) (s : State) : exec (.configureResilience h o) s = execConfigureResilience h o s := rfl
theorem exec_configureHostTransport (h : Hdr) (o : HtOps) (s : State) :
    exec (.configureHostTransport h o) s = execConfigureHostTransport h o s := rfl
theorem exec_setRateBounds (h : Hdr) (o : BoundsOps) (s : State) : exec (.setRateBounds h o) s = execSetRateBounds h o s := rfl

/-! A session that is not mirrored keeps its commands on this device (R436, R437). -/

section
variable {s : State} {h : Hdr} {n : Nat} {x : Session} (op : Nat) (f : Nat → Session → State → State)

theorem onPrimary_of_unpaired (htok : tokenSession s h.fn h.token = some (n, x)) (hrole : x.tan.role = 0) : onPrimary h op s f = f n x s := by
  simp [onPrimary, onToken, htok, hrole]

/-- A session command that is taken runs on the session that its token names (R70, R74). -/
theorem sessionCmd_onPrimary (i : Instr) (ht : Takes s h) (htok : tokenSession s h.fn h.token = some (n, x)) (hrole : x.tan.role = 0) :
    sessionCmd i h op s (fun s => onPrimary h op s f) = .next (f n x s) := by
  rw [sessionCmd_of_takes _ _ _ ht, onPrimary_of_unpaired _ _ htok hrole]

theorem shadowed_of_unpaired (hrole : x.tan.role = 0) : shadowed s x = false := by
  simp [shadowed, hrole]

theorem forwardOr_of_unpaired (k : Nat) (cmd : FwdCmd) (i : Instr) (g : State → State) (hrole : x.tan.role = 0) :
    forwardOr n x k cmd i g s = g s := by
  rw [forwardOr, shadowed_of_unpaired hrole, if_neg Bool.false_ne_true]

end

/-! CONFIGURE and SET_RATE_BOUNDS. -/

section
variable {s : State} {h : Hdr} {n : Nat} {x : Session} (ht : Takes s h) (htok : tokenSession s h.fn h.token = some (n, x)) (hrole : x.tan.role = 0)
include ht htok hrole

theorem execConfigureStream_of_ok {o : StreamOps} (hc : streamCode s x o 0 = none) :
    execConfigureStream h o 0 s = .next (complete h 2 0 [] (applyConfigureStream n o s)) := by
  rw [execConfigureStream, sessionCmd_onPrimary _ _ _ ht htok hrole, hc]
  exact congrArg _ (forwardOr_of_unpaired _ _ _ _ hrole)

theorem execConfigureStream_of_code {o : StreamOps} {pad : Nat} {c : Code} (hc : streamCode s x o pad = some c) :
    execConfigureStream h o pad s = .next (refuse h 2 c s) := by
  rw [execConfigureStream, sessionCmd_onPrimary _ _ _ ht htok hrole, hc]

theorem execConfigureRate_of_ok {o : RateOps} (hc : rateCfgCode s x o = none) :
    execConfigureRate h o s = .next (complete h 2 0 [] (setSess s n (fun x => { x with newRate := some o }))) := by
  rw [execConfigureRate, sessionCmd_onPrimary _ _ _ ht htok hrole, hc]
  exact congrArg _ (forwardOr_of_unpaired _ _ _ _ hrole)

theorem execConfigureRate_of_code {o : RateOps} {c : Code} (hc : rateCfgCode s x o = some c) :
    execConfigureRate h o s = .next (refuse h 2 c s) := by
  rw [execConfigureRate, sessionCmd_onPrimary _ _ _ ht htok hrole, hc]

theorem execConfigureResilience_of_ok {o : ResOps} (hok : resOk x o = true) :
    execConfigureResilience h o s = .next (complete h 2 0 [] (setSess s n (fun x => { x with newRes := some o }))) := by
  rw [execConfigureResilience, sessionCmd_onPrimary _ _ _ ht htok hrole, if_pos hok]
  exact congrArg _ (forwardOr_of_unpaired _ _ _ _ hrole)

theorem execConfigureHostTransport_of_ok {o : HtOps} (hc : hostCode s x h o = none) :
    execConfigureHostTransport h o s = .next (complete h 2 0 [] (applyHost n h o s)) := by
  rw [execConfigureHostTransport, sessionCmd_onPrimary _ _ _ ht htok hrole, hc]
  exact congrArg _ (forwardOr_of_unpaired _ _ _ _ hrole)

theorem execSetRateBounds_of_ok {o : BoundsOps} (hc : boundsCode s x o = none) :
    execSetRateBounds h o s = .next (complete h 7 0 [BitVec.ofNat 32 (nextRate x o)] (applyBounds n o s)) := by
  rw [execSetRateBounds, sessionCmd_onPrimary _ _ _ ht htok hrole, hc]
  exact congrArg _ (forwardOr_of_unpaired _ _ _ _ hrole)

theorem execSetRateBounds_of_code {o : BoundsOps} {c : Code} (hc : boundsCode s x o = some c) :
    execSetRateBounds h o s = .next (refuse h 7 c s) := by
  rw [execSetRateBounds, sessionCmd_onPrimary _ _ _ ht htok hrole, hc]

end

/-! The Depot record (R84). -/

theorem leBytes_length (v n : Nat) : (leBytes v n).length = n := by
  simp [leBytes]

theorem padTo_length (n : Nat) (l : List Byte) : (padTo n l).length = n := by
  simp [padTo]

theorem recStats_length (x : Session) : (recStats x).length = 512 := by
  simp [recStats, lb, leBytes_length]

theorem recBody_length (s : State) (n : Nat) (x : Session) : (recBody s n x).length = 4092 := by
  simp [recBody, recHeader, recStream, recBucket, recRate, recRefs, recLtr, recSrtp, recPacing, recApplied, padTo_length, recStats_length]

/-- A record with its CHECK takes 4096 bytes (R84). -/
theorem recImage_length (s : State) (n : Nat) (x : Session) : (recImage s n x).length = 4096 := by
  simp [recImage, recBody_length, lb, leBytes_length]

theorem writeRecord_frame (n : Nat) (s : State) : ∃ m, writeRecord n s = { s with mem := m } ∧
    ∀ a, a < recordAt s n ∨ recordAt s n + 4096 ≤ a → rdCell memDefault m a = readMem s a := by
  unfold writeRecord
  split
  · exact ⟨s.mem, rfl, fun _ _ => rfl⟩
  · refine ⟨_, rfl, fun a ha => rdCell_wrCells_ne ?_⟩
    rwa [recImage_length]

/-! OPEN_SESSION. -/

/-- Where a fence index is left one can be taken (R81). -/
theorem popRun_isSome {l : List (Nat × Nat)} (h : 0 < runsLen l) : (popRun l).isSome = true := by
  induction l with
  | nil => cases h
  | cons r t ih =>
    obtain ⟨a, k⟩ := r
    unfold popRun
    split
    · next hk =>
      refine ih ?_
      simpa [runsLen, hk] using h
    · split <;> rfl

theorem takeFence_isSome {s : State} {fn : Nat} (want : Option Nat) (h : 0 < runsLen (lookD s.sess.fences fn [])) :
    (takeFence s fn want).isSome = true := by
  unfold takeFence
  dsimp only
  split
  · split
    · rfl
    · exact popRun_isSome h
  · exact popRun_isSome h

/-- An OPEN_SESSION that passes its checks finds a fence index (R81). -/
theorem fences_of_openCode {s : State} {h : Hdr} {o : OpenOps} (hc : openCode s h o = none) : 0 < runsLen (lookD s.sess.fences h.fn []) := by
  refine Nat.pos_of_ne_zero (fun h0 => ?_)
  simp only [openCode, h0, Nat.zero_le, if_true] at hc
  split_ifs at hc

theorem alter_put {α : Type} (m : NMap α) (k : Nat) (a : α) (f : α → α) : alter (put m k a) k f = put m k (f a) := by
  induction m with
  | nil => simp [put, alter]
  | cons p t ih =>
    obtain ⟨i, b⟩ := p
    by_cases hlt : k < i
    · simp [put, alter, hlt]
    · by_cases hik : i = k
      · simp [put, alter, hik]
      · simp [put, alter, hlt, hik, ih]

/-- The state in which a session has joined those that are not CLOSED (R71). -/
def listSession (n : Nat) (x : Session) (s : State) : State :=
  { s with sessions := put s.sessions n x, freeCtr := s.freeCtr + 3,
           sess := { s.sess with free := if inRuns s.sess.free n then cutRun s.sess.free n else s.sess.free, clock := s.sess.clock + 1 } }

/-- A session that joins is listed with its placement, and then its Depot record is written (R71, R84, R89). -/
theorem addSession_eq (n : Nat) (x : Session) (s : State) : ∃ q, addSession n x s = writeRecord n (listSession n { x with quarter := q } s) := by
  have hset (q : Nat) : setSess (listSession n x s) n (fun x => { x with quarter := q }) = listSession n { x with quarter := q } s := by
    simp only [setSess, listSession, alter_put]
  unfold addSession
  dsimp only
  split
  · exact ⟨x.quarter, rfl⟩
  · next q _ => exact ⟨q, congrArg (writeRecord n) (hset q)⟩

/-- OPEN_SESSION accepted under a handle: the session is OPEN there with the stream and the function it was asked for (R70, R79, R84). -/
theorem openAt_reads {s : State} {n : Nat} {h : Hdr} {o : OpenOps} (hfence : 0 < runsLen (lookD s.sess.fences h.fn []))
    (hpaired : o.stream.flags.testBit 1 = false) {t : State} (ht : openAt n h o s = t) :
    (∃ x, look t.sessions n = some x ∧ x.state = 1 ∧ x.fn = h.fn ∧ x.gen = lookD s.sess.gens n 0 ∧ x.kind = o.kind ∧ x.stream = o.stream ∧
      x.userTag = o.userTag ∧ x.tan.role = 0) ∧ (∀ m, m ≠ n → look t.sessions m = look s.sessions m) ∧
    (∀ a, a < recordAt s n ∨ recordAt s n + 4096 ≤ a → readMem t a = readMem s a) ∧ t.quarters = s.quarters ∧ t.engines = s.engines := by
  obtain ⟨⟨i, l⟩, hi⟩ := Option.isSome_iff_exists.mp (takeFence_isSome (some o.fenceHint) hfence)
  have hrole : (if o.stream.flags.testBit 1 = true then 1 else 0) = 0 := if_neg (by simp [hpaired])
  subst ht
  simp only [openAt, hi, hrole]
  obtain ⟨q, hadd⟩ := addSession_eq n
    (newSession s n h (cqNum s h.fn h.ring) o.kind o.stream o.userTag 0 o.fenceHint (some i)) (setFences h.fn l s)
  obtain ⟨m, hm, hread⟩ := writeRecord_frame n (listSession n _ (setFences h.fn l s))
  rw [hadd, hm]
  obtain ⟨f, hf⟩ := complete_frame h 1 0 _ _
  rw [hf]
  exact ⟨⟨_, look_put_self _ _ _, rfl, rfl, rfl, rfl, rfl, rfl, rfl⟩, fun k hk => look_put_ne _ _ hk, hread, rfl, rfl⟩

section
variable {s : State} {h : Hdr} {o : OpenOps} (ht : Takes s h)
include ht

theorem execOpenSession_of_ok {n : Nat} (hc : openCode s h o = none) (hn : takeHandle s = some n) (hpaired : o.stream.flags.testBit 1 = false) :
    execOpenSession h o s = .next (openAt n h o s) := by
  simp [execOpenSession, sessionCmd_of_takes _ _ _ ht, hc, hn, hpaired]

theorem execOpenSession_of_code {c : Code} (hc : openCode s h o = some c) : execOpenSession h o s = .next (refuse h 1 c s) := by
  simp [execOpenSession, sessionCmd_of_takes _ _ _ ht, hc]

end

/-- Settles O5: each command is taken at its port and finds its unpaired session, and its check decides between the values kept and the code. -/
theorem sessionsOpenAndAreConfigured : Obligations.SessionsOpenAndAreConfigured := by
  unfold Obligations.SessionsOpenAndAreConfigured
  simp only [exec_openSession, exec_configureStream, exec_configureRate, exec_configureResilience, exec_configureHostTransport, exec_setRateBounds,
    Completes]
  refine ⟨?opens, ?openCode, ?stream, ?streamCode, ?rate, ?rateCode, ?res, ?host, ?bounds, ?boundsCode⟩
  case opens => exact fun h o n s ht hc hn hp => ⟨_, execOpenSession_of_ok ht hc hn hp, openAt_reads (fences_of_openCode hc) hp rfl⟩
  case openCode => exact fun h o c s ht hc => execOpenSession_of_code ht hc
  case stream => exact fun h n x o s ht htok hrole hc => execConfigureStream_of_ok ht htok hrole hc
  case streamCode => exact fun h n x o pad c s ht htok hrole hc => execConfigureStream_of_code ht htok hrole hc
  case rate => exact fun h n x o s ht htok hrole hc => execConfigureRate_of_ok ht htok hrole hc
  case rateCode => exact fun h n x o c s ht htok hrole hc => execConfigureRate_of_code ht htok hrole hc
  case res => exact fun h n x o s ht htok hrole hok => execConfigureResilience_of_ok ht htok hrole hok
  case host => exact fun h n x o s ht htok hrole hc => execConfigureHostTransport_of_ok ht htok hrole hc
  case bounds => exact fun h n x o s ht htok hrole hc => execSetRateBounds_of_ok ht htok hrole hc
  case boundsCode => exact fun h n x o c s ht htok hrole hc => execSetRateBounds_of_code ht htok hrole hc

end Sys2Proof.Machine
end

section
/-! The control registers of the ingest, rate, memory, pool and session blocks, and the statement on them (R97, R98, R147, R230, R231, R320, R342,
R343, R351, R352, R369). -/

namespace Sys2Proof.Machine
open Sys2Proof

theorem exec_ingestCtrlWrite (v : Word) (barOk : Bool) (s : State) : exec (.ingestCtrlWrite v barOk) s = execIngestCtrlWrite v barOk s := rfl
theorem exec_rcCtrlWrite (v : Word) (s : State) : exec (.rcCtrlWrite v) s = execRcCtrlWrite v s := rfl
theorem exec_rcDefaultsWrite (k : Nat) (v : Word) (s : State) : exec (.rcDefaultsWrite k v) s = execRcDefaultsWrite k v s := rfl
theorem exec_memcMapWrite (v : Word) (s : State) : exec (.memcMapWrite v) s = execMemcMapWrite v s := rfl
theorem exec_memcCtrlWrite (v : Word) (s : State) : exec (.memcCtrlWrite v) s = execMemcCtrlWrite v s := rfl
theorem exec_poolCtrlWrite (v : Word) (s : State) : exec (.poolCtrlWrite v) s = execPoolCtrlWrite v s := rfl
theorem exec_poolFnQuotaWrite (f c : Nat) (v : Word) (s : State) : exec (.poolFnQuotaWrite f c v) s = execPoolFnQuotaWrite f c v s := rfl
theorem exec_poolRelayout (s : State) : exec .poolRelayout s = execPoolRelayout s := rfl
theorem exec_sessCtrlWrite (v : Word) (s : State) : exec (.sessCtrlWrite v) s = execSessCtrlWrite v s := rfl
theorem exec_sessDepotWmWrite (k : Nat) (v : Word) (s : State) : exec (.sessDepotWmWrite k v) s = execSessDepotWmWrite k v s := rfl
theorem exec_sessCtxSelWrite (v : Word) (s : State) : exec (.sessCtxSelWrite v) s = execSessCtxSelWrite v s := rfl
theorem exec_sessCtxCopyDone (s : State) : exec .sessCtxCopyDone s = execSessCtxCopyDone s := rfl

/-! What waking leaves of the conditions of the SESS registers (R525). -/

@[simp] theorem trained_wake (s : State) : trained (wake s) = trained s := by
  obtain ⟨p, hp⟩ := wake_frame s
  rw [hp, tr_pwr]

@[simp] theorem wmOk_wake (s : State) (wm : NMap Nat) (pair : Nat) : wmOk (wake s) wm pair = wmOk s wm pair := by
  obtain ⟨p, hp⟩ := wake_frame s
  rw [hp, wm_pwr]

/-- What a write of a block's register does, once it is accepted, to the state that its request has woken (R525, R562). -/
theorem blockWrite_answers {resv v : Word} {f : State → State} {s t : State} (hs : Serves s) (hv : v &&& resv = 0) (hf : f (wake s) = t) :
    blockWrite resv v s f = .next t := by
  rw [blockWrite_of_accepted f hs hv, hf]

/-! Ingest and rate control (R147, R230, R231). -/

/-- The reserved bits of the rate defaults (R231). -/
def rcReserved (k : Nat) : Word :=
  match k with
  | 0 => 0x00F000FE
  | 1 => 0
  | _ => 0xFF000000

section
variable {s : State} {v : Word} (hs : Serves s)
include hs

section
variable (hv : v &&& 0xFFFFFFFE = 0)
include hv

theorem execIngestCtrlWrite_of_bar :
    execIngestCtrlWrite v true s = .next { wake s with ingest := { s.ingest with en := bit v 0 } } :=
  blockWrite_answers hs hv (by rw [Bool.not_true, Bool.and_false, if_neg Bool.false_ne_true, wake_ingest])

theorem execIngestCtrlWrite_of_noBar (hon : bit v 0 = true) :
    execIngestCtrlWrite v false s = .next { wake s with ingest := { s.ingest with reason := 0x0D0F } } :=
  blockWrite_answers hs hv (by rw [hon, Bool.not_false, Bool.and_true, if_pos rfl, wake_ingest])

theorem execRcCtrlWrite_of_set (hon : bit v 0 = true) : execRcCtrlWrite v s = .next { wake s with rc := { s.rc with en := true } } :=
  blockWrite_answers hs hv (by rw [if_pos hon, wake_rc])

theorem execRcCtrlWrite_of_encoding (hoff : bit v 0 = false) (hen : s.rc.en = true)
    (hany : s.sessions.any (fun e => decide (e.2.kind = 0)) = true) :
    execRcCtrlWrite v s = .next { wake s with rc := { s.rc with reason := 0x0309 } } :=
  blockWrite_answers hs hv (by simp only [hoff, wake_rc, wake_sessions, hen, hany]; rfl)

theorem execRcCtrlWrite_of_idle (hoff : bit v 0 = false) (hidle : s.rc.en = false ∨ s.sessions.any (fun e => decide (e.2.kind = 0)) = false) :
    execRcCtrlWrite v s = .next { wake s with rc := { s.rc with en := false } } := by
  have hboth : (s.rc.en && s.sessions.any (fun e => decide (e.2.kind = 0))) = false := by rcases hidle with h | h <;> simp [h]
  exact blockWrite_answers hs hv (by simp only [hoff, wake_rc, wake_sessions, hboth]; rfl)

end

theorem execRcDefaultsWrite_of_fork (hv : v &&& 0x00F000FE = 0) (hok : rcDefaultOk 0 v = true) :
    execRcDefaultsWrite 0 v s = .next { wake s with rc := { s.rc with fork := v } } :=
  blockWrite_answers hs hv (by rw [hok, Bool.not_true, if_neg Bool.false_ne_true, wake_rc]; rfl)

theorem execRcDefaultsWrite_of_adapt (hok : rcDefaultOk 1 v = true) :
    execRcDefaultsWrite 1 v s = .next { wake s with rc := { s.rc with adapt := v } } :=
  blockWrite_answers hs BitVec.and_zero (by rw [hok, Bool.not_true, if_neg Bool.false_ne_true, wake_rc]; rfl)

theorem execRcDefaultsWrite_of_model (hv : v &&& 0xFF000000 = 0) (hok : rcDefaultOk 2 v = true) :
    execRcDefaultsWrite 2 v s = .next { wake s with rc := { s.rc with model := v } } :=
  blockWrite_answers hs hv (by rw [hok, Bool.not_true, if_neg Bool.false_ne_true, wake_rc]; rfl)

theorem execRcDefaultsWrite_of_range {k : Nat} (hv : v &&& rcReserved k = 0) (hbad : rcDefaultOk k v = false) :
    execRcDefaultsWrite k v s = .next { wake s with rc := { s.rc with reason := 0x0308 } } :=
  blockWrite_answers hs hv (by rw [hbad, Bool.not_false, if_pos rfl, wake_rc])

end

/-! The memory controller (R320, R321, R342, R343): what its two operations do while it is enabled or disabled. -/

section
variable {s : State} {v : Word} (hs : Serves s)
include hs

section
variable (hv : v &&& 0xFFFFFFFC = 0)
include hv

theorem execMemcMapWrite_of_disabled (hen : s.memc.en = false) :
    execMemcMapWrite v s = .next { wake s with memc := { s.memc with order := fld v 1 0 } } :=
  blockWrite_answers hs hv (by rw [setMap, wake_memc, hen, if_neg Bool.false_ne_true])

theorem execMemcMapWrite_of_enabled (hen : s.memc.en = true) :
    execMemcMapWrite v s = .next { wake s with memc := { s.memc with reason := 0x0E06 } } :=
  blockWrite_answers hs hv (by rw [setMap, wake_memc, if_pos hen])

end

variable (hv : v &&& 0xFFFFFFFE = 0)
include hv

theorem execMemcCtrlWrite_of_trained (hon : bit v 0 = true) (hen : s.memc.en = false) (ht : s.memc.trainState = 2) :
    execMemcCtrlWrite v s = .next { wake s with memc := { s.memc with
      en := true, chans := s.memc.chans.map (fun e => (e.1, if e.2.state = 6 then e.2 else { e.2 with state := 3 })) } } :=
  blockWrite_answers hs hv (by simp only [memcCtrl, hon, wake_memc, hen, ht]; rfl)

theorem execMemcCtrlWrite_of_untrained (hon : bit v 0 = true) (hen : s.memc.en = false) (ht : s.memc.trainState ≠ 2) :
    execMemcCtrlWrite v s = .next { wake s with memc := { s.memc with reason := 0x0E0E } } :=
  blockWrite_answers hs hv (by simp only [memcCtrl, hon, wake_memc, hen, ht]; rfl)

theorem execMemcCtrlWrite_of_clear (hoff : bit v 0 = false) (hen : s.memc.en = true) :
    execMemcCtrlWrite v s = .next { wake s with memc := { s.memc with reason := 0x0E06 } } :=
  blockWrite_answers hs hv (by simp only [memcCtrl, hoff, wake_memc, hen]; rfl)

/-! The pool (R351, R352, R369). -/

theorem execPoolCtrlWrite_of_ready (hon : bit v 0 = true) (hen : s.pool.en = false) (hm : s.memc.en = true) (hp : s.plan.first = true) :
    execPoolCtrlWrite v s = .next { wake s with pool := { s.pool with en := true } } :=
  blockWrite_answers hs hv (by simp only [poolCtrl, hon, wake_pool, wake_memc, wake_plan, hen, hm, hp]; rfl)

theorem execPoolCtrlWrite_of_unready (hon : bit v 0 = true) (hen : s.pool.en = false) (hno : s.memc.en = false ∨ s.plan.first = false) :
    execPoolCtrlWrite v s = .next { wake s with pool := { s.pool with reason := 0x050B } } := by
  have hboth : (s.memc.en && s.plan.first) = false := by rcases hno with h | h <;> simp [h]
  exact blockWrite_answers hs hv (by simp only [poolCtrl, hon, wake_pool, wake_memc, wake_plan, hen, hboth]; rfl)

theorem execPoolCtrlWrite_of_empty (hoff : bit v 0 = false) (hen : s.pool.en = true) (hb : s.pool.bufs = []) :
    execPoolCtrlWrite v s = .next { wake s with pool := { s.pool with en := false } } :=
  blockWrite_answers hs hv (by simp only [poolCtrl, hoff, wake_pool, hen, hb]; rfl)

theorem execPoolCtrlWrite_of_allocated (hoff : bit v 0 = false) (hen : s.pool.en = true) (hb : s.pool.bufs ≠ []) :
    execPoolCtrlWrite v s = .next { wake s with pool := { s.pool with reason := 0x050D } } := by
  have hsome : s.pool.bufs.isEmpty = false := by simp [hb]
  exact blockWrite_answers hs hv (by simp only [poolCtrl, hoff, wake_pool, hen, hsome]; rfl)

end

section
variable {s : State} {f c : Nat} {v : Word} (hs : Serves s) (hv : v &&& 0xFE000000 = 0) (hf : f ≤ 255) (hc : c ≤ 4)
include hs hv hf hc

theorem execPoolFnQuotaWrite_of_within (hq : fld v 24 0 ≤ lookD s.pool.count c 0) :
    execPoolFnQuotaWrite f c v s = .next { wake s with pool := { s.pool with fnQuota := put s.pool.fnQuota (f * 8 + c) (fld v 24 0) } } :=
  blockWrite_answers hs hv (by rw [if_neg (by omega), wake_pool, if_neg (by omega)])

theorem execPoolFnQuotaWrite_of_above (hq : lookD s.pool.count c 0 < fld v 24 0) :
    execPoolFnQuotaWrite f c v s = .next { wake s with pool := { s.pool with reason := 0x050C } } :=
  blockWrite_answers hs hv (by rw [if_neg (by omega), wake_pool, if_pos hq])

end

theorem execPoolRelayout_of_empty {s : State} {m : NMap Nat} (hr : Runs s) (hm : s.pool.nextCount = some m) (hb : s.pool.bufs = [])
    (hf : s.pool.filling = []) : execPoolRelayout s = .next (settleRetired (layPool m s)) := by
  simp [execPoolRelayout, live_of_runs _ hr, relayout, hm, hb, hf]

/-- Where no page is retired no buffer is taken off a free list (R328, R350). -/
theorem settleRetired_of_noTable {s : State} (h : s.memc.table = []) : settleRetired s = { s with pool := { s.pool with gone := [] } } := by
  have hnone : retiredBufs s = [] := by simp [retiredBufs, h]
  simp only [settleRetired, hnone, List.filter_nil, List.foldl_nil]
  rw [List.map_id'' (fun _ => rfl)]

/-! The session block (R97, R98). -/

section
variable {s : State} {v : Word} (hs : Serves s)
include hs

section
variable (hv : v &&& 0xFFFFFFFE = 0)
include hv

theorem execSessCtrlWrite_of_ready (hon : bit v 0 = true) (ht : trained s = true) (h0 : wmOk s s.sess.wm 0 = true) (h1 : wmOk s s.sess.wm 1 = true) :
    execSessCtrlWrite v s = .next { wake s with sess := { s.sess with en := true } } :=
  blockWrite_answers hs hv (by simp only [hon, trained_wake, ht, wmOk_wake, wake_sess, h0, h1]; rfl)

theorem execSessCtrlWrite_of_untrained (hon : bit v 0 = true) (ht : trained s = false) :
    execSessCtrlWrite v s = .next { wake s with sess := { s.sess with reason := 0x0205 } } :=
  blockWrite_answers hs hv (by simp only [hon, trained_wake, ht, sessRefuse, wake_sess]; rfl)

theorem execSessCtrlWrite_of_empty (hoff : bit v 0 = false) (hno : s.sessions = []) :
    execSessCtrlWrite v s = .next { wake s with sess := { s.sess with en := false } } :=
  blockWrite_answers hs hv (by simp only [hoff, wake_sessions, hno, wake_sess]; rfl)

theorem execSessCtrlWrite_of_open (hoff : bit v 0 = false) (hsome : s.sessions ≠ []) :
    execSessCtrlWrite v s = .next { wake s with sess := { s.sess with reason := 0x020F } } := by
  have hne : s.sessions.isEmpty = false := by simp [hsome]
  exact blockWrite_answers hs hv (by simp only [hoff, wake_sessions, hne, sessRefuse, wake_sess]; rfl)

end

section
variable {i : Nat} (hv : v &&& 0xFE000000 = 0) (hi : i < 4)
include hv hi

theorem execSessDepotWmWrite_of_ordered (hok : wmOk s (put s.sess.wm i (fld v 24 0)) (i / 2) = true) :
    execSessDepotWmWrite i v s = .next { wake s with sess := { s.sess with wm := put s.sess.wm i (fld v 24 0) } } :=
  blockWrite_answers hs hv (by rw [if_neg (by omega), wmOk_wake, wake_sess, if_pos hok])

theorem execSessDepotWmWrite_of_unordered (hbad : wmOk s (put s.sess.wm i (fld v 24 0)) (i / 2) = false) :
    execSessDepotWmWrite i v s = .next { wake s with sess := { s.sess with reason := 0x020E } } :=
  blockWrite_answers hs hv (by rw [if_neg (by omega), wmOk_wake, wake_sess, hbad, if_neg Bool.false_ne_true, sessRefuse, wake_sess])

end

theorem execSessCtxSelWrite_of_accepted (hv : v &&& 0xFFFC0000 = 0) :
    execSessCtxSelWrite v s = .next { wake s with sess := { s.sess with ctxSel := v, ctxBusy := true, ctxDone := false } } :=
  blockWrite_answers hs hv (by rw [wake_sess])

end

section
variable {s : State} (hr : Runs s) (hbusy : s.sess.ctxBusy = true)
include hr hbusy

theorem execSessCtxCopyDone_of_session {x : Session} (hx : look s.sessions (fld s.sess.ctxSel 17 0) = some x) :
    execSessCtxCopyDone s = .next { s with sess := { s.sess with
      ctxBusy := false, ctxDone := true, ctxValid := true, ctxCopy := toWords 1024 (recImage s (fld s.sess.ctxSel 17 0) x) } } := by
  simp [execSessCtxCopyDone, live_of_runs _ hr, hbusy, hx]

theorem execSessCtxCopyDone_of_closed (hx : look s.sessions (fld s.sess.ctxSel 17 0) = none) :
    execSessCtxCopyDone s = .next { s with sess := { s.sess with ctxBusy := false, ctxDone := true, ctxValid := false, ctxCopy := [] } } := by
  simp [execSessCtxCopyDone, live_of_runs _ hr, hbusy, hx]

end

/-- Settles O16: each clause is the case of its register write, copy or new layout that its hypotheses name. -/
theorem blockRegistersAreConfigured : Obligations.BlockRegistersAreConfigured := by
  unfold Obligations.BlockRegistersAreConfigured
  simp only [exec_ingestCtrlWrite, exec_rcCtrlWrite, exec_rcDefaultsWrite, exec_memcMapWrite, exec_memcCtrlWrite, exec_poolCtrlWrite,
    exec_poolFnQuotaWrite, exec_poolRelayout, exec_sessCtrlWrite, exec_sessDepotWmWrite, exec_sessCtxSelWrite, exec_sessCtxCopyDone]
  refine ⟨?bar, ?noBar, ?rcSet, ?rcEncoding, ?rcIdle, ?fork, ?adapt, ?model, ?range, ?mapDisabled, ?mapEnabled, ?trained, ?untrained, ?memcClear,
    ?poolReady, ?poolUnready, ?poolEmpty, ?poolAllocated, ?quotaWithin, ?quotaAbove, ?relayout, ?relayoutWhole, ?sessReady, ?sessUntrained, ?sessEmpty,
    ?sessOpen, ?ordered, ?unordered, ?select, ?copied, ?closed⟩
  case bar => exact fun v s hs hv => execIngestCtrlWrite_of_bar hs hv
  case noBar => exact fun v s hs hv hon => execIngestCtrlWrite_of_noBar hs hv hon
  case rcSet => exact fun v s hs hv hon => execRcCtrlWrite_of_set hs hv hon
  case rcEncoding => exact fun v s hs hv hoff hen hany => execRcCtrlWrite_of_encoding hs hv hoff hen hany
  case rcIdle => exact fun v s hs hv hoff hidle => execRcCtrlWrite_of_idle hs hv hoff hidle
  case fork => exact fun v s hs hv hok => execRcDefaultsWrite_of_fork hs hv hok
  case adapt => exact fun v s hs hok => execRcDefaultsWrite_of_adapt hs hok
  case model => exact fun v s hs hv hok => execRcDefaultsWrite_of_model hs hv hok
  case range => exact fun k v s hs hv hbad => execRcDefaultsWrite_of_range hs hv hbad
  case mapDisabled => exact fun v s hs hv hen => execMemcMapWrite_of_disabled hs hv hen
  case mapEnabled => exact fun v s hs hv hen => execMemcMapWrite_of_enabled hs hv hen
  case trained => exact fun v s hs hv hon hen ht => execMemcCtrlWrite_of_trained hs hv hon hen ht
  case untrained => exact fun v s hs hv hon hen ht => execMemcCtrlWrite_of_untrained hs hv hon hen ht
  case memcClear => exact fun v s hs hv hoff hen => execMemcCtrlWrite_of_clear hs hv hoff hen
  case poolReady => exact fun v s hs hv hon hen hm hp => execPoolCtrlWrite_of_ready hs hv hon hen hm hp
  case poolUnready => exact fun v s hs hv hon hen hno => execPoolCtrlWrite_of_unready hs hv hon hen hno
  case poolEmpty => exact fun v s hs hv hoff hen hb => execPoolCtrlWrite_of_empty hs hv hoff hen hb
  case poolAllocated => exact fun v s hs hv hoff hen hb => execPoolCtrlWrite_of_allocated hs hv hoff hen hb
  case quotaWithin => exact fun f c v s hs hv hf hc hq => execPoolFnQuotaWrite_of_within hs hv hf hc hq
  case quotaAbove => exact fun f c v s hs hv hf hc hq => execPoolFnQuotaWrite_of_above hs hv hf hc hq
  case relayout => exact fun m s hr hm hb hf => execPoolRelayout_of_empty hr hm hb hf
  case relayoutWhole =>
    intro m s hr hm hb hf htab
    rw [execPoolRelayout_of_empty hr hm hb hf, settleRetired_of_noTable (s := layPool m s) htab]
    rfl
  case sessReady => exact fun v s hs hv hon ht h0 h1 => execSessCtrlWrite_of_ready hs hv hon ht h0 h1
  case sessUntrained => exact fun v s hs hv hon ht => execSessCtrlWrite_of_untrained hs hv hon ht
  case sessEmpty => exact fun v s hs hv hoff hno => execSessCtrlWrite_of_empty hs hv hoff hno
  case sessOpen => exact fun v s hs hv hoff hsome => execSessCtrlWrite_of_open hs hv hoff hsome
  case ordered => exact fun i v s hs hv hi hok => execSessDepotWmWrite_of_ordered hs hv hi hok
  case unordered => exact fun i v s hs hv hi hbad => execSessDepotWmWrite_of_unordered hs hv hi hbad
  case select => exact fun v s hs hv => execSessCtxSelWrite_of_accepted hs hv
  case copied => exact fun x s hr hbusy hx => execSessCtxCopyDone_of_session hr hbusy hx
  case closed => exact fun s hr hbusy hx => execSessCtxCopyDone_of_closed hr hbusy hx

end Sys2Proof.Machine
end

section
/-! Sessions parked, resumed, closed and left idle, and the statement on them (R72, R73, R75 to R78, R85, R95). -/

namespace Sys2Proof.Machine
open Sys2Proof

theorem exec_park (h : Hdr) (pad : Nat) (s : State) : exec (.park h pad) s = execPark h pad s := rfl
theorem exec_parkCold (h : Hdr) (pad : Nat) (s : State) : exec (.parkCold h pad) s = execParkCold h pad s := rfl
theorem exec_resume (h : Hdr) (pad : Nat) (s : State) : exec (.resume h pad) s = execResume h pad s := rfl
theorem exec_close (h : Hdr) (pad : Nat) (s : State) : exec (.close h pad) s = execClose h pad s := rfl
theorem exec_parkComplete (n : Nat) (s : State) : exec (.parkComplete n) s = execParkComplete n s := rfl
theorem exec_closeComplete (n : Nat) (s : State) : exec (.closeComplete n) s = execCloseComplete n s := rfl
theorem exec_resumeComplete (n : Nat) (s : State) : exec (.resumeComplete n) s = execResumeComplete n s := rfl
theorem exec_idleLimitReached (n : Nat) (s : State) : exec (.idleLimitReached n) s = execIdleLimitReached n s := rfl

/-! The partner is told of a shadowed session alone (R437). -/

theorem tellPartner_of_unpaired {s : State} {n : Nat} {x : Session} (st : Nat) (hx : look s.sessions n = some x) (hrole : x.tan.role = 0) :
    tellPartner n st s = s := by
  simp [tellPartner, tellShadow, hx, hrole]

theorem linkSend_sessions (m : LinkOut) (s : State) : (linkSend m s).sessions = s.sessions := by
  unfold linkSend
  split <;> rfl

theorem onPrimaryPf_of_unpaired {s : State} {h : Hdr} {n : Nat} {x : Session} (op : Nat) (f : Nat → Session → State → State)
    (htok : tokenSessionPf s h.fn h.token = some (n, x)) (hrole : x.tan.role = 0) : onPrimaryPf h op s f = f n x s := by
  simp [onPrimaryPf, htok, hrole]

theorem sessionCmd_onPrimaryPf {s : State} {h : Hdr} {n : Nat} {x : Session} (op : Nat) (f : Nat → Session → State → State) (i : Instr) (ht : Takes s h)
    (htok : tokenSessionPf s h.fn h.token = some (n, x)) (hrole : x.tan.role = 0) :
    sessionCmd i h op s (fun s => onPrimaryPf h op s f) = .next (f n x s) := by
  rw [sessionCmd_of_takes _ _ _ ht, onPrimaryPf_of_unpaired _ _ htok hrole]

theorem look_of_tokenSessionPf {s : State} {fn : Nat} {token : Word} {n : Nat} {x : Session} (h : tokenSessionPf s fn token = some (n, x)) :
    look s.sessions n = some x := by
  unfold tokenSessionPf at h
  dsimp only at h
  split at h
  · cases h
  · next y hy =>
    split at h
    · cases h
      exact hy
    · cases h

/-! A command becomes pending (R600). -/

/-- What a PARK, RESUME or CLOSE that is accepted in this Bell leaves pending. -/
def pendOf (s : State) (kind : Nat) (h : Hdr) : PendCmd := { kind := kind, hdr := some h, bell := s.bell.num, prior := none }

section
variable {s : State} {h : Hdr} {n : Nat} {x : Session} (ht : Takes s h) (htok : tokenSessionPf s h.fn h.token = some (n, x)) (hrole : x.tan.role = 0)
include ht htok hrole

theorem execPark_of_ok (hc : parkCode s n x false 0 = none) :
    execPark h 0 s = .next (setSess s n (fun x => { parkFrames x with pend := some (pendOf s 0 h) })) := by
  rw [execPark, sessionCmd_onPrimaryPf _ _ _ ht htok hrole, hc]
  exact congrArg _ (forwardOr_of_unpaired _ _ _ _ hrole)

theorem execParkCold_of_ok (hc : parkCode s n x true 0 = none) :
    execParkCold h 0 s = .next (setSess s n (fun x => { parkFrames x with pend := some (pendOf s 1 h) })) := by
  rw [execParkCold, sessionCmd_onPrimaryPf _ _ _ ht htok hrole, hc]
  exact congrArg _ (forwardOr_of_unpaired _ _ _ _ hrole)

theorem execResume_of_ok (hc : resumeCode s n x 0 = none) : execResume h 0 s = .next (applyResume n h s) := by
  rw [execResume, sessionCmd_onPrimaryPf _ _ _ ht htok hrole, hc]
  exact congrArg _ (forwardOr_of_unpaired _ _ _ _ hrole)

theorem execClose_of_idle (hasked : closeAsked s n = false) (hp : x.pend = none) :
    execClose h 0 s = .next (setSess s n (fun x => { x with pend := some (pendOf s 3 h) })) := by
  have hc : closeCode s n x 0 = none := by simp [closeCode, hasked, hp]
  rw [execClose, sessionCmd_onPrimaryPf _ _ _ ht htok hrole, hc]
  refine congrArg _ ((forwardOr_of_unpaired _ _ _ _ hrole).trans ?_)
  simp [applyClose, look_of_tokenSessionPf htok, hp, setPending, pendOf]

end

/-- A RESUME is pending, and its page-in is asked for or its record counts as just used; its session alone changes, in its pending command and its
place among the records (R87, R95). -/
theorem applyResume_reads {s t : State} {n : Nat} {h : Hdr} {x : Session} (hx : look s.sessions n = some x) (ht : applyResume n h s = t) :
    (∃ y, look t.sessions n = some y ∧ y.pend = some (pendOf s 2 h) ∧ y.state = x.state ∧ y.frames = x.frames) ∧
    (∀ m, m ≠ n → look t.sessions m = look s.sessions m) ∧
    t = { stamp s with sessions := t.sessions, sess := { s.sess with clock := s.sess.clock + 1 } } := by
  subst ht
  have hask : (askPage (nowMark s) 0x210 x).state = x.state ∧ (askPage (nowMark s) 0x210 x).frames = x.frames := by
    unfold askPage
    split <;> exact ⟨rfl, rfl⟩
  obtain ⟨hstate, hframes⟩ := hask
  refine ⟨⟨_, look_setSess_sv _ (look_setSess_sv _ (look_setSess_sv _ hx)), rfl, hstate, hframes⟩, fun m hm => ?_, rfl⟩
  exact (look_setSess_ne _ _ hm).trans ((look_setSess_ne _ _ hm).trans (look_setSess_ne _ _ hm))

/-! PARK completes (R27, R66, R75, R599). -/

/-- A session as it leaves ACTIVE or IDLE for PARKED or COLD, with the mark of its parking (R75, R599). -/
def leaveActive (cold : Bool) (m : Mark) (x : Session) : Session :=
  { x with
    state := if cold then 5 else 4, parkMark := if cold then none else some m, pinned := false, pend := none, quarter := planQuarter x, moveTo := none,
    woken := none, effort := planEffort x, effortTo := none }

/-- What parking frees and where it places the session anew leave the part of every session that sv reads. -/
theorem parkSession_sv (n : Nat) (cold : Bool) (s : State) :
    sv (parkSession n cold s) = sv (setSess (unbind n (freeFence n (stamp s))) n (leaveActive cold (nowMark s))) := by
  cases cold with
  | false => exact replaceIdle_sv ..
  | true => exact (replaceIdle_sv ..).trans (freeRefs_sv ..)

theorem parkSession_reads {s t : State} {n : Nat} {x : Session} (cold : Bool) (hx : look s.sessions n = some x)
    (ht : sv t = sv (parkSession n cold s)) :
    ∃ y, look t.sessions n = some y ∧ y.state = (if cold then 5 else 4) ∧ y.pend = none ∧ y.pinned = false := by
  have hleft : sv (unbind n (freeFence n (stamp s))) = sv s := by simp
  obtain ⟨z, hz, -⟩ := sv_look hleft hx
  obtain ⟨y, hy, hyz⟩ := sv_look (ht.trans (parkSession_sv n cold s)) (look_setSess_sv _ hz)
  simp only [svp, leaveActive, SV.mk.injEq] at hyz
  obtain ⟨hstate, hpend, -, -, hpinned, -⟩ := hyz
  exact ⟨y, hy, hstate, hpend, hpinned⟩

section
variable {s : State} {n : Nat} {x : Session} {p : PendCmd} (hr : Runs s) (hx : look s.sessions n = some x) (hp : x.pend = some p)
  (hbell : p.bell ≠ s.bell.num) (hstart : atStart s = true)
include hr hx hp hbell hstart

section
variable (hk : p.kind ≤ 1 ∨ p.kind = 4) (hframes : x.frames.all frameOver = true) (hqueue : x.dec.queue = [])
  (hacks : x.tan.live = false ∨ x.tan.acks = [])
include hk hframes hqueue hacks

theorem execParkComplete_of_asked {h : Hdr} (hh : p.hdr = some h) :
    execParkComplete n s = .next (complete h 4 0 [] (parkSession n (decide (p.kind = 1)) s)) := by
  rw [execParkComplete, onSession_of_look _ hr hx, hp]
  simp only [hk, hbell, hstart, hframes, hqueue, hacks, hh, ne_eq, not_false_eq_true, and_self, if_true]

theorem execParkComplete_of_unasked (hh : p.hdr = none) :
    execParkComplete n s = .next (tellPartner n 4 (notice n 0x0123 (parkSession n (decide (p.kind = 1)) s))) := by
  rw [execParkComplete, onSession_of_look _ hr hx, hp]
  simp only [hk, hbell, hstart, hframes, hqueue, hacks, hh, ne_eq, not_false_eq_true, and_self, if_true]

end

/-! CLOSE completes (R76, R85, R600). -/

section
variable (hk : p.kind = 3)
include hk

theorem execCloseComplete_of_asked {h : Hdr} (hh : p.hdr = some h) :
    execCloseComplete n s = .next (complete h 6 0 [] (closeSession n s)) := by
  rw [execCloseComplete, onSession_of_look _ hr hx, hp]
  simp only [hk, hbell, hstart, hh, ne_eq, not_false_eq_true, and_self, if_true]

theorem execCloseComplete_of_unasked (hh : p.hdr = none) :
    execCloseComplete n s = .next (closeSession n (when (shadowed s x) (linkSend (.config n .close)) s)) := by
  rw [execCloseComplete, onSession_of_look _ hr hx, hp]
  simp only [hk, hbell, hstart, hh, ne_eq, not_false_eq_true, and_self, if_true]

/-- However a close came about, its handle is free and its generation has risen (R71, R76). -/
theorem execCloseComplete_reads : ∃ t, execCloseComplete n s = .next t ∧
    t.sessions.map (fun e => e.1) = (del s.sessions n).map (fun e => e.1) ∧
    ((x.gen + 1) % 16384 ≠ 0 → lookD t.sess.gens n 0 = (x.gen + 1) % 16384) := by
  cases hh : p.hdr with
  | some h =>
    obtain ⟨hkeys, hgens⟩ := closeSession_end n x s hx
    have hsv := complete_sv h 6 0 [] (closeSession n s)
    refine ⟨_, execCloseComplete_of_asked hr hx hp hbell hstart hk hh, (sv_keys hsv).trans hkeys, fun hne => ?_⟩
    rw [sv_gens hsv, hgens hne]
  | none =>
    have htold : (when (shadowed s x) (linkSend (.config n .close)) s).sessions = s.sessions := by
      unfold when
      split
      · exact linkSend_sessions ..
      · rfl
    have hend := closeSession_end n x (when (shadowed s x) (linkSend (.config n .close)) s) (by rwa [htold])
    rw [htold] at hend
    exact ⟨_, execCloseComplete_of_unasked hr hx hp hbell hstart hk hh, hend⟩

end

end

/-! Where sessions are placed: what leaves everything but their statistics leaves their Quarters, and so does what wakes a session. -/

/-- The Quarter that each session is placed on. -/
def homes (s : State) : NMap Nat := s.sessions.map (fun e => (e.1, e.2.quarter))

theorem homes_of_bare {s t : State} (h : bare t = bare s) : homes t = homes s := by
  have hmap := congrArg (fun m : NMap Session => m.map (fun e => (e.1, e.2.quarter))) h
  simpa [bare, homes, noStats, Function.comp_def] using hmap

theorem homes_setSess (s : State) (n : Nat) {g : Session → Session} (hg : ∀ x, (g x).quarter = x.quarter) : homes (setSess s n g) = homes s :=
  map_alter_of_same Session.quarter _ _ _ hg

theorem home_of_homes {s t : State} {n : Nat} {x y : Session} (h : homes t = homes s) (hx : look s.sessions n = some x)
    (hy : look t.sessions n = some y) : y.quarter = x.quarter := by
  have hlook := congrArg (fun m => look m n) h
  simpa only [homes, look_map, hx, hy, Option.map_some, Option.some.injEq] using hlook

@[simp] theorem allocMany_bare (w : PoolReq) (b k : Nat) (s : State) : bare (allocMany w b k s).2 = bare s := by
  induction k generalizing s with
  | zero => rfl
  | succ k ih =>
    unfold allocMany
    have halloc := allocate_bare w b false s
    split
    · next e =>
      rw [e] at halloc
      exact halloc
    · next u e =>
      rw [e] at halloc
      have hrest := (ih u).trans halloc
      split <;> (next e2 => rw [e2] at hrest; exact hrest)

@[simp] theorem mapSet_bare (n : Nat) (o : SubmitOps) (s : State) : bare (mapSet n o s).2 = bare s := by
  unfold mapSet
  dsimp only
  split
  · rfl
  · have halloc := allocMany_bare (sessReq n) (2 ^ 20) (setPages o) s
    split
    · exact allocRefused_bare ..
    · next e =>
      rw [e] at halloc
      exact halloc

@[simp] theorem mapSets_bare (n : Nat) (o : SubmitOps) (k : Nat) (s : State) : bare (mapSets n o k s).2 = bare s := by
  induction k generalizing s with
  | zero => rfl
  | succ k ih =>
    unfold mapSets
    have hset := mapSet_bare n o s
    split
    · next e =>
      rw [e] at hset
      exact hset
    · next u e =>
      rw [e] at hset
      have hrest := (ih u).trans hset
      split
      · dsimp only
        split
        · rfl
        · exact allocRefused_bare ..
      · next e2 =>
        rw [e2] at hrest
        exact hrest

theorem rebind_homes (n : Nat) (s : State) : homes (rebind n s) = homes s := by
  unfold rebind
  split
  · rfl
  · split
    · rfl
    · next b _ =>
      have hmap := homes_of_bare (mapSets_bare n b.ops b.ops.surfaces s)
      dsimp only
      split <;>
        (next e =>
          rw [e] at hmap
          refine (homes_of_bare (post_bare ..)).trans ((homes_setSess _ _ ?_).trans hmap)
          exact fun _ => rfl)

theorem complete_homes (h : Hdr) (op : Nat) (c : Code) (r : List Word) (s : State) : homes (complete h op c r s) = homes s := by
  obtain ⟨f, hf⟩ := complete_frame h op c r s
  rw [hf]
  rfl

theorem touch_homes (n : Nat) (s : State) : homes (touch n s) = homes s :=
  homes_setSess s n (g := fun x => { x with lru := s.sess.clock }) (fun _ => rfl)

theorem tellShadow_bare (n : Nat) (c : Session → FwdCmd) (s : State) : bare (tellShadow n c s) = bare s := by
  unfold tellShadow
  split
  · rfl
  · split
    · exact linkSend_bare ..
    · rfl

theorem admissionEvent_bare (n : Nat) (s : State) : bare (admissionEvent n s) = bare s := by
  unfold admissionEvent
  split
  · rfl
  · exact post_bare ..

theorem givePhase_homes (n : Nat) (l : Load) (s : State) : homes (givePhase n l s) = homes s := by
  unfold givePhase
  split
  · rfl
  · split
    · rfl
    · refine (homes_of_bare ((admissionEvent_bare ..).trans (tellShadow_bare ..))).trans (homes_setSess _ _ ?_)
      exact fun _ => rfl

/-! RESUME completes (R81, R89, R94, R95). -/

theorem refuseResume_of_unpaired {s : State} {n : Nat} {x : Session} (h : Hdr) (c : Code) (hx : look s.sessions n = some x) (hrole : x.tan.role = 0) :
    refuseResume n (some h) c s = refuse h 5 c (setSess s n (fun x => { x with pend := none })) := by
  unfold refuseResume
  dsimp only
  rw [tellPartner_of_unpaired _ (look_setSess_sv _ hx) hrole]

/-- A session as RESUME makes it ACTIVE in Bell b, with fence index i, on Quarter q at effort e (R94, R95). -/
def resumed (b : BitVec 40) (i q e : Nat) (x : Session) : Session :=
  { x with
    state := 2, quarter := q, effort := e, effortTo := none, moveTo := none, pinned := true, fence := some i, pend := none, parkMark := none,
    woken := some b, cfgDue := x.newStream.isSome || x.newRes.isSome,
    ltr := if decide (x.state = 5) then { x.ltr with key := true } else x.ltr, rate := resumeRate (decide (x.state = 5)) x.rate }

/-- The state in which a session is ACTIVE again, before it has its phase and its surface sets. -/
def withResumed (n : Nat) (x : Session) (i : Nat) (l : List (Nat × Nat)) (q e : Nat) (s : State) : State :=
  { setFences x.fn l s with sessions := put s.sessions n (resumed s.bell.num i q e x) }

section
variable {s : State} {n : Nat} {x : Session} {p : PendCmd} (hr : Runs s) (hx : look s.sessions n = some x) (hp : x.pend = some p)
  (hbell : p.bell ≠ s.bell.num) (hstart : atStart s = true) (hk : p.kind = 2) (hres : x.resident = true)
include hr hx hp hbell hstart hk hres

section
variable {h : Hdr} (hh : p.hdr = some h) (hrole : x.tan.role = 0)
include hh hrole

theorem execResumeComplete_of_noFence (hf : takeFence s x.fn x.oldFence = none) :
    execResumeComplete n s = .next (refuse h 5 0x0208 (setSess s n (fun x => { x with pend := none }))) := by
  rw [execResumeComplete, onSession_of_look _ hr hx, ← refuseResume_of_unpaired h 0x0208 hx hrole]
  simp [hp, hk, hbell, hstart, hres, hh, hf]

theorem execResumeComplete_of_unadmitted {c : Code} {f : Nat × List (Nat × Nat)} (hf : takeFence s x.fn x.oldFence = some f)
    (ha : frameAdmit s n x (loadOf s x) = .error c) :
    execResumeComplete n s = .next (refuse h 5 c (setSess s n (fun x => { x with pend := none }))) := by
  rw [execResumeComplete, onSession_of_look _ hr hx, ← refuseResume_of_unpaired h c hx hrole]
  simp [hp, hk, hbell, hstart, hres, hh, hf, ha]

end

/-- What an admitted RESUME does after its session is ACTIVE moves no session and leaves what sv reads of them. -/
theorem execResumeComplete_of_admitted {i q e : Nat} {l : List (Nat × Nat)} (hf : takeFence s x.fn x.oldFence = some (i, l))
    (ha : frameAdmit s n x (loadOf s x) = .ok (q, e)) : ∃ t, execResumeComplete n s = .next t ∧
    sv t = sv (withResumed n x i l q e s) ∧ homes t = homes (withResumed n x i l q e s) := by
  have hsv := (rebind_sv n _).trans ((touch_sv n _).trans (givePhase_sv n { loadOf s x with effort := e } (withResumed n x i l q e s)))
  have hhomes := (rebind_homes n _).trans ((touch_homes n _).trans (givePhase_homes n { loadOf s x with effort := e } (withResumed n x i l q e s)))
  have hdue : ¬(p.kind ≠ 2 ∨ p.bell = s.bell.num ∨ atStart s = false ∨ x.resident = false) := by simp [hk, hbell, hstart, hres]
  rw [execResumeComplete, onSession_of_look _ hr hx]
  simp only [hp, if_neg hdue, hf, ha]
  cases p.hdr with
  | none => exact ⟨_, rfl, hsv, hhomes⟩
  | some h => exact ⟨_, rfl, (complete_sv ..).trans hsv, (complete_homes ..).trans hhomes⟩

theorem execResumeComplete_reads {i q e : Nat} {l : List (Nat × Nat)} (hf : takeFence s x.fn x.oldFence = some (i, l))
    (ha : frameAdmit s n x (loadOf s x) = .ok (q, e)) : ∃ t y, execResumeComplete n s = .next t ∧ look t.sessions n = some y ∧ y.state = 2 ∧
    y.pend = none ∧ y.pinned = true ∧ y.quarter = q ∧ y.woken = some s.bell.num := by
  obtain ⟨t, ht, hsv, hhomes⟩ := execResumeComplete_of_admitted hr hx hp hbell hstart hk hres hf ha
  have hput : look (withResumed n x i l q e s).sessions n = some (resumed s.bell.num i q e x) := look_put_self ..
  obtain ⟨y, hy, hyx⟩ := sv_look hsv hput
  have hhome := home_of_homes hhomes hput hy
  simp only [svp, resumed, SV.mk.injEq] at hyx
  obtain ⟨hstate, hpend, -, -, hpinned, -, hwoken, -⟩ := hyx
  exact ⟨t, y, ht, hy, hstate, hpend, hpinned, hhome, hwoken⟩

end

/-! IDLE (R77). -/

/-- A session that is not ACTIVE may be placed anew, and nothing else becomes of it (R61). -/
theorem replaceIdle_cases (n : Nat) (s : State) :
    replaceIdle n s = s ∨ ∃ q, replaceIdle n s = setSess s n (fun x => { x with quarter := q, moveTo := none }) := by
  unfold replaceIdle
  split
  · exact .inl rfl
  · split
    · exact .inr ⟨_, rfl⟩
    · exact .inl rfl

/-- A session as it becomes IDLE (R77). -/
def leftIdle (x : Session) : Session :=
  { x with state := 3, pinned := false, quarter := planQuarter x, moveTo := none, effort := planEffort x, effortTo := none }

theorem replaceIdle_leftIdle_reads {s t : State} {n : Nat} {x : Session} (hx : look s.sessions n = some x)
    (ht : replaceIdle n (setSess s n leftIdle) = t) :
    (∃ y, look t.sessions n = some y ∧ y.state = 3 ∧ y.pinned = false ∧ y.moveTo = none ∧ y.tan.role = x.tan.role) ∧
    (∀ m, m ≠ n → look t.sessions m = look s.sessions m) ∧ t = { s with sessions := t.sessions } := by
  have hleft := look_setSess_sv leftIdle hx
  subst ht
  rcases replaceIdle_cases n (setSess s n leftIdle) with h | ⟨q, h⟩
  · rw [h]
    exact ⟨⟨_, hleft, rfl, rfl, rfl, rfl⟩, fun m hm => look_setSess_ne _ _ hm, rfl⟩
  · rw [h]
    exact ⟨⟨_, look_setSess_sv _ hleft, rfl, rfl, rfl, rfl⟩, fun m hm => (look_setSess_ne _ _ hm).trans (look_setSess_ne _ _ hm), rfl⟩

theorem execIdleLimitReached_of_due {s : State} {n : Nat} {x : Session} {b : BitVec 40} (hr : Runs s) (hx : look s.sessions n = some x)
    (hb : x.woken.orElse (fun _ => x.idleFrom) = some b) (hst : x.state = 2) (hp : x.pend = none) (hl : 0 < x.stream.idleLimit)
    (hframes : x.frames.all frameOver = true) (hqueue : x.dec.queue = [])
    (hdue : x.stream.idleLimit * framesF s x.stream.fps ≤ bellsFrom b s.bell.num) :
    execIdleLimitReached n s = .next (tellPartner n 3 (replaceIdle n (setSess s n leftIdle))) := by
  rw [execIdleLimitReached, onSession_of_look _ hr hx]
  simp only [hb, hst, hp, hl, hframes, hqueue, hdue, Option.isNone_none, and_self, if_true]
  rfl

/-- Settles O6: each clause is its command taken at its port, or the end of what is pending read off the part of the sessions that its work leaves. -/
theorem sessionsParkResumeAndClose : Obligations.SessionsParkResumeAndClose := by
  unfold Obligations.SessionsParkResumeAndClose
  simp only [exec_park, exec_parkCold, exec_resume, exec_close, exec_parkComplete, exec_closeComplete, exec_resumeComplete, exec_idleLimitReached,
    Completes]
  refine ⟨?park, ?parkCold, ?resume, ?close, ?parked, ?parkedUnasked, ?closed, ?closedAny, ?noFence, ?unadmitted, ?resumed, ?idle⟩
  case park => exact fun h n x s ht htok hrole hc => execPark_of_ok ht htok hrole hc
  case parkCold => exact fun h n x s ht htok hrole hc => execParkCold_of_ok ht htok hrole hc
  case resume =>
    intro h n x s ht htok hrole hc
    exact ⟨_, execResume_of_ok ht htok hrole hc, applyResume_reads (look_of_tokenSessionPf htok) rfl⟩
  case close => exact fun h n x s ht htok hrole _ hasked hp => execClose_of_idle ht htok hrole hasked hp
  case parked =>
    intro n x p h s hr hx hp hbell hstart hk hh hframes hqueue hacks
    obtain ⟨y, hy, hstate, hpend, hpinned⟩ := parkSession_reads (decide (p.kind = 1)) hx rfl
    refine ⟨_, execParkComplete_of_asked hr hx hp hbell hstart (by omega) hframes hqueue hacks hh, _, y, rfl, hy, ?_, hpend, hpinned,
      (of_core (congrArg Kept.core (parkSession_kept ..))).1⟩
    simpa only [decide_eq_true_eq] using hstate
  case parkedUnasked =>
    intro n x p s hr hx hp hbell hstart hk hh hframes hqueue hacks
    have hcold : decide (p.kind = 1) = false := by simp [hk]
    have hnext := execParkComplete_of_unasked hr hx hp hbell hstart (.inr hk) hframes hqueue hacks hh
    rw [hcold] at hnext
    exact ⟨_, hnext, parkSession_reads false hx (by simp), mem_of_keeps (execParkComplete_kept n s) hnext⟩
  case closed =>
    intro n x p h s hr hx hp hbell hstart hk hh
    obtain ⟨hkeys, hgens⟩ := closeSession_end n x s hx
    exact ⟨_, execCloseComplete_of_asked hr hx hp hbell hstart hk hh, _, rfl, hkeys, hgens,
      (of_core (congrArg Kept.core (closeSession_kept ..))).1⟩
  case closedAny =>
    intro n x p s hr hx hp hbell hstart hk
    obtain ⟨t, ht, hkeys, hgens⟩ := execCloseComplete_reads hr hx hp hbell hstart hk
    obtain ⟨hmem, -, hnum, -⟩ := of_core (congrArg Kept.core (execCloseComplete_kept n s t ht))
    exact ⟨t, ht, hkeys, hgens, hmem, hnum⟩
  case noFence =>
    intro n x p h s hr hx hp hbell hstart hk hh hrole hres hf
    exact execResumeComplete_of_noFence hr hx hp hbell hstart hk hres hh hrole hf
  case unadmitted =>
    intro n x p h c f s hr hx hp hbell hstart hk hh hrole hres hf ha
    exact execResumeComplete_of_unadmitted hr hx hp hbell hstart hk hres hh hrole hf ha
  case resumed =>
    intro n x p i q e l s hr hx hp hbell hstart hk hres hf ha
    obtain ⟨t, y, ht, hy, hreads⟩ := execResumeComplete_reads hr hx hp hbell hstart hk hres hf ha
    exact ⟨t, ht, ⟨y, hy, hreads⟩, mem_of_keeps (execResumeComplete_kept n s) ht⟩
  case idle =>
    intro n x b s hr hx hrole hb hst hp hl hframes hqueue hdue
    obtain ⟨⟨y, hy, hstate, hpinned, hmove, hyrole⟩, hothers, hframe⟩ := replaceIdle_leftIdle_reads hx rfl
    have hnext := execIdleLimitReached_of_due hr hx hb hst hp hl hframes hqueue hdue
    rw [tellPartner_of_unpaired 3 hy (hyrole.trans hrole)] at hnext
    exact ⟨_, hnext, ⟨y, hy, hstate, hpinned, hmove⟩, hothers, hframe⟩

end Sys2Proof.Machine
end

section
/-! Frames submitted: SUBMIT_FRAME of an aperture and of a host surface, and the statement on them (R123, R125, R126, R133, R136, R357). -/

namespace Sys2Proof.Machine
open Sys2Proof

theorem exec_submitFrameAperture (h : Hdr) (o : SubmitOps) (s : State) : exec (.submitFrameAperture h o) s = execSubmitFrameAperture h o s := rfl
theorem exec_submitFrameHost (h : Hdr) (o : SubmitOps) (s : State) : exec (.submitFrameHost h o) s = execSubmitFrameHost h o s := rfl

section
variable {s : State} {h : Hdr} {n : Nat} {x : Session} (ht : Takes s h) (htok : tokenSession s h.fn h.token = some (n, x))
include ht htok

/-- A session command that is taken runs on the session that its token names, whichever device of a pair is its primary (R70, R74). -/
theorem sessionCmd_onToken (op : Nat) (f : Nat → Session → State → State) (i : Instr) :
    sessionCmd i h op s (fun s => onToken h op s f) = .next (f n x s) := by
  rw [sessionCmd_of_takes _ _ _ ht, onToken, htok]

/-! An aperture (R123). -/

section
variable {o : SubmitOps}

theorem execSubmitFrameAperture_of_code {c : Code} (hgate : submitGate s n x false o = some c) :
    execSubmitFrameAperture h o s = .next (refuse h 3 c s) := by
  rw [execSubmitFrameAperture, sessionCmd_onToken ht htok, hgate]

section
variable (hgate : submitGate s n x false o = none) {t : State}
include hgate

theorem execSubmitFrameAperture_of_mapped {sets : List (Nat × List Word)} (hmap : mapSets n o o.surfaces s = (.ok sets, t)) :
    execSubmitFrameAperture h o s = .next (complete h 3 0 (firstPages sets) (bindNext n o sets t)) := by
  rw [execSubmitFrameAperture, sessionCmd_onToken ht htok, hgate, hmap]

theorem execSubmitFrameAperture_of_unmapped {c : Code} (hmap : mapSets n o o.surfaces s = (.error c, t)) :
    execSubmitFrameAperture h o s = .next (refuse h 3 c t) := by
  rw [execSubmitFrameAperture, sessionCmd_onToken ht htok, hgate, hmap]

end

/-! A host surface (R136). -/

section
variable (hgate : submitGate s n x true o = none)
include hgate

theorem execSubmitFrameHost_of_unadmitted {c : Code} (hadmit : admitStart n o (nowMark s) s = .error c) :
    execSubmitFrameHost h o s = .next (refuse h 3 c s) := by
  rw [execSubmitFrameHost, sessionCmd_onToken ht htok, hgate, hadmit]

/-- The frame starts at once, in the buffers that it takes (R133, R136). -/
theorem execSubmitFrameHost_of_admitted {bufs : List Word} {t u : State} (hadmit : admitStart n o (nowMark s) s = .ok t)
    (hbufs : allocMany (sessReq n) (2 ^ 20) (setPages o) t = (.ok bufs, u)) :
    execSubmitFrameHost h o s = .next (complete h 3 0 [] (startFrame n 1 o 0 0 0 (nowMark s) (stamp (emit
      (.hostRead x.fn o.hostAddr (!x.stream.flags.testBit 0)) (takeBinding n (setSess u n (fun x => { x with
        hostSet := x.hostSet ++ [(x.frameNum, bufs)], rate := { x.rate with pqNext := o.colour.testBit 2 } }))))))) := by
  rw [execSubmitFrameHost, sessionCmd_onToken ht htok, hgate, hadmit]
  dsimp only
  rw [hbufs]

end
end
end

/-- Settles O8: each clause is the outcome of the checks, the mapping, the admission or the pool that it names. -/
theorem framesAreSubmitted : Obligations.FramesAreSubmitted := by
  unfold Obligations.FramesAreSubmitted
  simp only [exec_submitFrameAperture, exec_submitFrameHost]
  refine ⟨?mapped, ?gated, ?unmapped, ?started, ?unadmitted⟩
  case mapped => exact fun h n x o sets s ht htok hgate hmap => execSubmitFrameAperture_of_mapped ht htok hgate (Prod.ext hmap rfl)
  case gated => exact fun h n x o c s ht htok hgate => execSubmitFrameAperture_of_code ht htok hgate
  case unmapped => exact fun h n x o c s ht htok hgate hmap => execSubmitFrameAperture_of_unmapped ht htok hgate (Prod.ext hmap rfl)
  case started =>
    exact fun h n x o bufs u s ht htok hgate hadmit hbufs => execSubmitFrameHost_of_admitted ht htok hgate hadmit (Prod.ext hbufs rfl)
  case unadmitted => exact fun h n x o c s ht htok hgate hadmit => execSubmitFrameHost_of_unadmitted ht htok hgate hadmit

end Sys2Proof.Machine
end

section
/-! The aperture: its writes and its reads (R121, R122, R126, R147), and the statement on its reads. -/

namespace Sys2Proof.Machine
open Sys2Proof

theorem exec_apertureWrite (w : AptWrite) (s : State) : exec (.apertureWrite w) s = execApertureWrite w s := rfl
theorem exec_apertureRead (page : Nat) (s : State) : exec (.apertureRead page) s = execApertureRead page s := rfl

section
variable {s : State} (hr : Runs s)
include hr

theorem execApertureRead_of_runs (page : Nat) :
    execApertureRead page s = .next (emit (.apertureZeros page) { s with ingest := { s.ingest with stray := up s.ingest.stray 1 } }) := live_of_runs _ hr

section
variable {w : AptWrite}

theorem execApertureWrite_of_unmapped (hpage : pageRun s w.page = none) : execApertureWrite w s = .next (stray s) := by
  rw [execApertureWrite, live_of_runs _ hr, hpage]
  rfl

section
variable {a n : Nat} {x : Session} {b : Binding} {bufs : List Word} (hpage : pageRun s w.page = some (a, n)) (hx : look s.sessions n = some x)
  (hrun : runBinding x a = some (b, bufs))
include hpage hx hrun

/-- A write to a mapped page comes to its requester's check, and then to INGEST_CTRL.ENABLE (R121, R147). -/
theorem execApertureWrite_of_mapped : execApertureWrite w s = .next (if ridBad b w.rid then stray s
    else if s.ingest.en then wake (writeSet bufs ((w.page - a) * 2 ^ 20 + w.off) w.bytes s) else s) := by
  rw [execApertureWrite, live_of_runs _ hr, hpage, Option.bind_some, hx, Option.bind_some, hrun]
  rfl

theorem execApertureWrite_of_wrongRequester (hrid : ridBad b w.rid = true) : execApertureWrite w s = .next (stray s) := by
  rw [execApertureWrite_of_mapped hr hpage hx hrun, if_pos hrid]

section
variable (hrid : ridBad b w.rid = false)
include hrid

theorem execApertureWrite_of_disabled (hen : s.ingest.en = false) : execApertureWrite w s = .next s := by
  simp [execApertureWrite_of_mapped hr hpage hx hrun, hrid, hen]

theorem execApertureWrite_of_enabled (hen : s.ingest.en = true) :
    execApertureWrite w s = .next (wake (writeSet bufs ((w.page - a) * 2 ^ 20 + w.off) w.bytes s)) := by
  simp [execApertureWrite_of_mapped hr hpage hx hrun, hrid, hen]

end
end
end
end

/-- An address that a write at page p and offset o of a surface set does not reach: the set has no such buffer, or the address lies outside the bytes
written in it (R121, R126). -/
def Unreached (s : State) (bufs : List Word) (p o len k : Nat) : Prop :=
  bufs[(p * 2 ^ 20 + o) / 2 ^ 20]? = none ∨ ∃ v, bufs[(p * 2 ^ 20 + o) / 2 ^ 20]? = some v ∧
    (k < bufAddr s (hClass v) (hIndex v) + o % 2 ^ 20 ∨ bufAddr s (hClass v) (hIndex v) + o % 2 ^ 20 + len ≤ k)

/-- A write that reaches its buffer changes the bytes written alone, and nothing but memory, its poison and the power state (R121, R325, R525). -/
theorem wake_writeSet_reads (bufs : List Word) (p o : Nat) (bytes : List Byte) {s t : State} (ht : t = wake (writeSet bufs (p * 2 ^ 20 + o) bytes s)) :
    (∀ k, Unreached s bufs p o bytes.length k → readMem t k = readMem s k) ∧
      t = { s with mem := t.mem, pwr := t.pwr, memc := { s.memc with poison := t.memc.poison } } := by
  obtain ⟨m, q, hw, hm⟩ := writeSet_frame bufs (p * 2 ^ 20 + o) bytes s
  obtain ⟨c, hc⟩ := wake_frame (writeSet bufs (p * 2 ^ 20 + o) bytes s)
  rw [hc, hw] at ht
  rw [Nat.mul_add_mod_self_right] at hm
  subst ht
  exact ⟨hm, rfl⟩

/-- Settles O48: a read leaves zeros on the bus and counts a stray, whichever page it names. -/
theorem bar2ReadsAnswerZero : Obligations.Bar2ReadsAnswerZero := by
  unfold Obligations.Bar2ReadsAnswerZero
  intro page s hr
  rw [exec_apertureRead, execApertureRead_of_runs hr]
  rfl

end Sys2Proof.Machine
end

section
/-! Truncation: what of a session's frames and of the count of truncated frames the dispatch of bands leaves alone, and what a frame that is due for
truncation becomes (R134). -/

namespace Sys2Proof.Machine
open Sys2Proof

/-- Of a frame: its number, whether it is truncated and whether it is still ingesting. -/
def frameIngest (f : Frame) : Nat × Bool × Bool := (f.num, f.trunc, f.ingest)

/-- The ingest of a session's frames. -/
def framesIngest (x : Session) : List (Nat × Bool × Bool) := x.frames.map frameIngest

/-- The count of truncated frames and the ingest of every session's frames. -/
def ingests (s : State) : Nat × NMap (List (Nat × Bool × Bool)) := (s.ingest.trunc, s.sessions.map (fun e => (e.1, framesIngest e.2)))

/-! Reading the ingest of a frame back. -/

theorem look_of_ingests {s t : State} {n : Nat} {x : Session} (h : (ingests t).2 = (ingests s).2) (hx : look s.sessions n = some x) :
    ∃ y, look t.sessions n = some y ∧ framesIngest y = framesIngest x := by
  have hl : (look t.sessions n).map framesIngest = (look s.sessions n).map framesIngest := by
    rw [← look_map, ← look_map]
    exact congrArg (fun m => look m n) h
  rw [hx] at hl
  exact Option.map_eq_some_iff.mp hl

theorem frameOf_of_framesIngest {x y : Session} {num : Nat} {f : Frame} (h : framesIngest y = framesIngest x) (hf : frameOf x num = some f) :
    ∃ g, frameOf y num = some g ∧ frameIngest g = frameIngest f := by
  have hfind : ∀ z : Session, (frameOf z num).map frameIngest = (framesIngest z).find? (fun a => decide (a.1 = num)) := fun z => by
    rw [framesIngest, List.find?_map]
    rfl
  have hm := hfind y
  rw [h, ← hfind x, hf] at hm
  exact Option.map_eq_some_iff.mp hm

theorem frameOf_of_mem {x : Session} {f : Frame} (h : f ∈ x.frames) : ∃ g, frameOf x f.num = some g :=
  Option.isSome_iff_exists.mp (List.find?_isSome.mpr ⟨f, h, decide_eq_true rfl⟩)

/-! What the dispatch of a band leaves alone. -/

theorem ingests_setSess (s : State) (n : Nat) {g : Session → Session} (hg : ∀ x, framesIngest (g x) = framesIngest x) :
    ingests (setSess s n g) = ingests s := congrArg (Prod.mk s.ingest.trunc) (map_alter_of_same framesIngest _ _ _ hg)

theorem ingests_setFrame (h num : Nat) {g : Frame → Frame} (s : State) (hg : ∀ f, frameIngest (g f) = frameIngest f) :
    ingests (setFrame h num g s) = ingests s := by
  refine ingests_setSess s h (fun x => ?_)
  rw [framesIngest, framesIngest, List.map_map]
  refine List.map_congr_left (fun f _ => ?_)
  rw [Function.comp_apply]
  split
  · exact hg f
  · rfl

theorem ingests_setBand (h num k : Nat) (g : Band → Band) (s : State) : ingests (setBand h num k g s) = ingests s :=
  ingests_setFrame h num s (fun _ => rfl)

@[simp] theorem stat_ingests (h i n : Nat) (s : State) : ingests (stat h i n s) = ingests s := by
  unfold stat
  split
  · rfl
  · exact ingests_setSess s h (fun _ => rfl)

@[simp] theorem notice_ingests (h : Nat) (c : Code) (s : State) : ingests (notice h c s) = ingests s := by
  unfold notice post postRec
  dsimp only
  (repeat' split) <;> rfl

@[simp] theorem countTask_ingests (h q cost : Nat) (cad : Bool) (s : State) : ingests (countTask h q cost cad s) = ingests s := rfl

@[simp] theorem countDirect_ingests (h : Nat) (s : State) : ingests (countDirect h s) = ingests s := stat_ingests ..

@[simp] theorem spacePut_ingests (exts : List Word) (o : Nat) (b : List Byte) (s : State) : ingests (spacePut exts o b s) = ingests s := by
  induction exts generalizing o b s with
  | nil => rfl
  | cons w t ih =>
    unfold spacePut
    dsimp only
    split <;> rw [ih]
    rfl

@[simp] theorem writeSurface_ingests (x : Session) (f : Frame) (k : Nat) (s : State) : ingests (writeSurface x f k s) = ingests s := by
  unfold writeSurface
  split
  · rfl
  · exact (spacePut_ingests ..).trans (spacePut_ingests ..)

@[simp] theorem startBand_ingests (h num k : Nat) (cad fb : Bool) (s : State) : ingests (startBand h num k cad fb s) = ingests s := by
  unfold startBand
  split
  · rfl
  · split
    · rfl
    · extract_lets direct whole q s0 s1 s2
      have h0 : ingests s0 = ingests s := by
        simp only [s0, when]
        split
        · exact ingests_setFrame _ _ _ (fun _ => rfl)
        · rfl
      have h2 : ingests s2 = ingests s := by
        simp only [s2, countTask_ingests, writeSurface_ingests]
        exact (ingests_setBand ..).trans h0
      split
      · exact (countDirect_ingests ..).trans h2
      · exact h2

@[simp] theorem dispatchRest_ingests (h num : Nat) (p : Band → Bool) (s : State) : ingests (dispatchRest h num p s) = ingests s := by
  unfold dispatchRest
  split
  · rfl
  · split
    · rfl
    · split
      · exact foldl_frame _ (fun t => ingests t = ingests s) _ _ rfl (fun t i ht => (startBand_ingests ..).trans ht)
      · rfl

/-! A frame that is due is truncated. -/

theorem truncateFrame_of_none {n : Nat} {x : Session} {s : State} (hx : look s.sessions n = some x) (hf : x.frames.find? (truncDue s x) = none) :
    truncateFrame n s = s := by
  simp only [truncateFrame, hx, hf]

/-- A frame whose rows no longer come (R134). -/
def truncated (f : Frame) : Frame := { f with trunc := true, ingest := false }

theorem truncateFrame_reads {n : Nat} {x : Session} {f : Frame} {s : State} (hx : look s.sessions n = some x)
    (hf : x.frames.find? (truncDue s x) = some f) :
    (truncateFrame n s).ingest.trunc = up s.ingest.trunc 1 ∧
      ∃ y g, look (truncateFrame n s).sessions n = some y ∧ frameOf y f.num = some g ∧ g.trunc = true ∧ g.ingest = false := by
  obtain ⟨f0, hf0⟩ := frameOf_of_mem (List.mem_of_find?_eq_some hf)
  unfold truncateFrame
  simp -zeta only [hx, hf]
  extract_lets s1 s2
  have hs1 : look s1.sessions n = some (noteLate f (mapFrame f.num truncated x)) := look_setSess_sv _ (look_setFrame _ hx)
  have hf1 : frameOf (noteLate f (mapFrame f.num truncated x)) f.num = some (truncated f0) :=
    (frameOf_mapFrame (g := truncated) x f.num (fun _ => rfl)).trans (congrArg _ hf0)
  have hs2 : ingests s2 = ingests s1 := dispatchRest_ingests ..
  generalize ht : notice _ _ _ = t
  have hingests : ingests t = (up s2.ingest.trunc 1, (ingests s2).2) := by
    rw [← ht, notice_ingests, stat_ingests]
    rfl
  have hcount : s2.ingest.trunc = s.ingest.trunc := congrArg Prod.fst hs2
  rw [hs2, hcount] at hingests
  obtain ⟨y, hy, ey⟩ := look_of_ingests (by rw [hingests]) hs1
  obtain ⟨g, hg, eg⟩ := frameOf_of_framesIngest ey hf1
  refine ⟨congrArg Prod.fst hingests, y, g, hy, hg, ?_, ?_⟩
  · exact congrArg (fun e => e.2.1) eg
  · exact congrArg (fun e => e.2.2) eg

theorem window_of_om {s t : State} (h : OM (kept s) (kept t)) : t.bell.window = s.bell.window := by
  have hbell : confBell t.bell = confBell s.bell := congrArg (fun k => k.conf.bell) h.rest
  rw [confBell_eq, confBell_eq] at hbell
  exact congrArg (fun b => b.2.1) hbell

end Sys2Proof.Machine
end

section
/-! Fences, host row reads and truncation, and the statement on rows and frames (R121, R127 to R130, R133, R134, R136, R137, R147). -/

namespace Sys2Proof.Machine
open Sys2Proof

theorem exec_rowFence (f : Fence) (s : State) : exec (.rowFence f) s = execRowFence f s := rfl
theorem exec_hostRowsRead (n rows : Nat) (ok : Bool) (pieces : List (DWord × List Byte)) (s : State) :
    exec (.hostRowsRead n rows ok pieces) s = execHostRowsRead n rows ok pieces s := rfl
theorem exec_frameTruncate (n : Nat) (s : State) : exec (.frameTruncate n) s = execFrameTruncate n s := rfl

/-! Waking moves no fence index and no log mark (R525). -/

@[simp] theorem fenceSession_wake (s : State) (fn index : Nat) : fenceSession (wake s) fn index = fenceSession s fn index := by
  rw [fenceSession, fenceSession, wake_sessions]

@[simp] theorem nowMark_wake (s : State) : nowMark (wake s) = nowMark s := by
  rw [nowMark, nowMark, wake_bell]

/-! Fences (R127 to R133). -/

section
variable {s : State} {f : Fence} (hs : Serves s) (hon : fnOn s f.fn = true)
include hs hon

theorem execRowFence_of_code {c : Code} (hc : fenceCode (wake s) f = some c) : execRowFence f s = .next (rejectFence f c (wake s)) := by
  obtain ⟨hr, hans⟩ := hs
  simp [execRowFence, live_of_runs _ hr, hon, hans, hc]

section
variable {n : Nat} {x : Session} (hc : fenceCode (wake s) f = none) (hx : fenceSession s f.fn f.index = some (n, x))
include hc hx

theorem execRowFence_of_later {g : Frame} (hstart : isStart x f = false) (hopen : openFrame x f = some g) :
    execRowFence f s = .next (landRows n g.num (fenceRows f.value) (nowMark s) (stamp (acceptFence f (wake s)))) := by
  obtain ⟨hr, hans⟩ := hs
  simp [execRowFence, live_of_runs _ hr, hon, hans, hc, hx, hstart, hopen]

theorem execRowFence_of_start {b : Binding} {u : State} (hstart : isStart x f = true) (hb : fenceBinding x f = some b)
    (hadmit : admitStart n b.ops (nowMark s) (wake s) = .ok u) :
    execRowFence f s = .next (startFrame n 0 b.ops b.id (takeSet n (takeBinding n u)).1 (fenceRows f.value) (nowMark s)
      (stamp (acceptFence f (takeSet n (takeBinding n u)).2))) := by
  obtain ⟨hr, hans⟩ := hs
  simp [execRowFence, live_of_runs _ hr, hon, hans, hc, hx, hstart, hb, hadmit]

end
end

/-! Rows read from host memory (R136, R137). -/

section
variable {s : State} {n : Nat} {x : Session} {f : Frame} (rows : Nat) (pieces : List (DWord × List Byte)) (hr : Runs s)
  (hx : look s.sessions n = some x) (hf : x.frames.find? (fun e => decide (e.source = 1) && e.ingest && !e.trunc && !e.failed) = some f)
include hr hx hf

theorem execHostRowsRead_of_read : execHostRowsRead n rows true pieces s = .next (landRows n f.num (min rows f.ops.srcHeight) (nowMark s)
    (stamp (pieces.foldl (fun s p => landHost (lookD x.hostSet f.num []) f.ops p.1.toNat p.2 s) s))) := by
  rw [execHostRowsRead, onSession_of_look _ hr hx, hf]
  rfl

theorem execHostRowsRead_of_failed : execHostRowsRead n rows false pieces s = .next (setSess s n (fun x => { x with
    frames := x.frames.map (fun g => if g.num = f.num then { g with failed := true, truncAt := some (eligBell s x) } else g) })) := by
  rw [execHostRowsRead, onSession_of_look _ hr hx, hf]
  rfl

end

/-! FRAME_TRUNCATE, from the fence cut on (R21, R134). -/

theorem execFrameTruncate_of_cut (n : Nat) {s : State} (hr : Runs s) (hcut : s.bell.cut = true) (hw : s.bell.window = .dispatch) :
    execFrameTruncate n s = .next (truncateFrame n s) := by
  simp [execFrameTruncate, live_of_runs _ hr, hcut, hw]

/-- Settles O9: fences, row reads and aperture accesses are computed case by case; a truncated frame is read off the part of the frames that the dispatch
of its remaining bands leaves alone. -/
theorem rowsLandAndFramesEnd : Obligations.RowsLandAndFramesEnd := by
  unfold Obligations.RowsLandAndFramesEnd
  simp only [exec_rowFence, exec_hostRowsRead, exec_frameTruncate, exec_apertureWrite, Completes]
  refine ⟨?rejected, ?later, ?start, ?read, ?failed, ?notDue, ?due, ?written, ?unmapped, ?wrongRequester, ?disabled⟩
  case rejected => exact fun f c s hs hon hc => execRowFence_of_code hs hon hc
  case later => exact fun f n x g s hs hon hc hx hstart hopen => execRowFence_of_later hs hon hc hx hstart hopen
  case start => exact fun f n x b u s hs hon hc hx hstart hb hadmit => execRowFence_of_start hs hon hc hx hstart hb hadmit
  case read => exact fun n rows x f pieces s hr hx hf => execHostRowsRead_of_read rows pieces hr hx hf
  case failed => exact fun n rows x f pieces s hr hx hf => execHostRowsRead_of_failed rows pieces hr hx hf
  case notDue =>
    intro n x s hr hcut hw hx hf
    rw [execFrameTruncate_of_cut n hr hcut hw, truncateFrame_of_none hx hf]
  case due =>
    intro n x f s hr hcut hw hx hf
    have hkept : OM (kept s) (kept (truncateFrame n s)) := truncateFrame_om n s (OM.refl _)
    obtain ⟨-, hnum, -⟩ := hkept.fields
    obtain ⟨hcount, hframe⟩ := truncateFrame_reads hx hf
    exact ⟨_, execFrameTruncate_of_cut n hr hcut hw, hcount, hnum, window_of_om hkept, hframe⟩
  case written =>
    intro w a n x b bufs s hr hen hpage hx hrun hrid
    exact ⟨_, execApertureWrite_of_enabled hr hpage hx hrun hrid hen, rfl, wake_writeSet_reads bufs (w.page - a) w.off w.bytes rfl⟩
  case unmapped => exact fun w s hr hpage => execApertureWrite_of_unmapped hr hpage
  case wrongRequester => exact fun w a n x b bufs s hr hpage hx hrun hrid => execApertureWrite_of_wrongRequester hr hpage hx hrun hrid
  case disabled => exact fun w a n x b bufs s hr hen hpage hx hrun hrid => execApertureWrite_of_disabled hr hpage hx hrun hrid hen

end Sys2Proof.Machine
end

section
/-! FEEDBACK of each kind, and the statement on it (R222, R223, R236, R241, R242). -/

namespace Sys2Proof.Machine
open Sys2Proof

theorem exec_feedbackAck (h : Hdr) (frame pad : Nat) (s : State) : exec (.feedbackAck h frame pad) s = execFeedbackAck h frame pad s := rfl
theorem exec_feedbackLoss (h : Hdr) (frame pad : Nat) (s : State) : exec (.feedbackLoss h frame pad) s = execFeedbackLoss h frame pad s := rfl
theorem exec_feedbackKeyRequest (h : Hdr) (pad : Nat) (s : State) : exec (.feedbackKeyRequest h pad) s = execFeedbackKeyRequest h pad s := rfl
theorem exec_feedbackRateReport (h : Hdr) (loss est pad : Nat) (s : State) :
    exec (.feedbackRateReport h loss est pad) s = execFeedbackRateReport h loss est pad s := rfl

/-! The session of a FEEDBACK command, and its check (R241). -/

section
variable {s : State} {h : Hdr} {n : Nat} {x : Session}

/-- A device serves the sessions whose shadow it is not, mirrored or not (R437). -/
theorem onPrimary_of_primary (op : Nat) (f : Nat → Session → State → State) (htok : tokenSession s h.fn h.token = some (n, x))
    (hrole : x.tan.role ≠ 2) : onPrimary h op s f = f n x s := by
  rw [onPrimary, onToken, htok]
  exact if_neg hrole

variable (ht : Takes s h) (htok : tokenSession s h.fn h.token = some (n, x)) (hrole : x.tan.role ≠ 2)
include ht htok hrole

theorem sessionCmd_feedback (i : Instr) (op : Nat) (ok : Session → Bool) (f : Nat → State → State) :
    sessionCmd i h op s (feedback h ok f) =
      .next (if x.kind = 0 ∧ ok x = true then complete h 8 0 [] (f n (stamp s)) else refuse h 8 0x0206 s) := by
  rw [sessionCmd_of_takes _ _ _ ht, feedback, onPrimary_of_primary 8 _ htok hrole]

theorem execFeedbackAck_of_refused {frame pad : Nat} (hbad : pad ≠ 0 ∨ frameStarted x frame = false) :
    execFeedbackAck h frame pad s = .next (refuse h 8 0x0206 s) := by
  have hok : (decide (pad = 0) && frameStarted x frame) = false := by
    obtain hpad | hframe := hbad
    · rw [decide_eq_false hpad, Bool.false_and]
    · rw [hframe, Bool.and_false]
  rw [execFeedbackAck, sessionCmd_feedback ht htok hrole, hok, if_neg (fun hk => Bool.false_ne_true hk.2)]

section
variable (hkind : x.kind = 0)
include hkind

theorem execFeedbackAck_of_started {frame : Nat} (hf : frameStarted x frame = true) :
    execFeedbackAck h frame 0 s = .next (complete h 8 0 [] (feedAck n frame (stamp s))) := by
  rw [execFeedbackAck, sessionCmd_feedback ht htok hrole, hf, if_pos ⟨hkind, rfl⟩]

theorem execFeedbackLoss_of_started {frame : Nat} (hf : frameStarted x frame = true) :
    execFeedbackLoss h frame 0 s = .next (complete h 8 0 [] (feedLoss n frame (stamp s))) := by
  rw [execFeedbackLoss, sessionCmd_feedback ht htok hrole, hf, if_pos ⟨hkind, rfl⟩]

theorem execFeedbackKeyRequest_of_taken : execFeedbackKeyRequest h 0 s = .next (complete h 8 0 [] (feedKey n (stamp s))) := by
  rw [execFeedbackKeyRequest, sessionCmd_feedback ht htok hrole, if_pos ⟨hkind, rfl⟩]

theorem execFeedbackRateReport_of_taken (loss est : Nat) :
    execFeedbackRateReport h loss est 0 s = .next (complete h 8 0 [] (rateReport n loss est (stamp s))) := by
  rw [execFeedbackRateReport, sessionCmd_feedback ht htok hrole, if_pos ⟨hkind, rfl⟩]

end
end

/-! Event records and completions (R381, R479). -/

section
variable (f typ : Nat) (code : Code) (token : Word) (pay : List Word) (s : State)

/-- An event record changes its function's window and takes the log mark, and nothing else (R476, R479). -/
theorem post_frame : ∃ fns, post f typ code token pay s = { stamp s with fns := fns } := by
  rw [post, postRec]
  split
  · exact ⟨_, rfl⟩
  · dsimp only
    split <;> exact ⟨_, rfl⟩

theorem rc_post : (post f typ code token pay s).rc = s.rc := by
  obtain ⟨fns, hp⟩ := post_frame f typ code token pay s
  rw [hp]
  rfl

theorem sessions_post : (post f typ code token pay s).sessions = s.sessions := by
  obtain ⟨fns, hp⟩ := post_frame f typ code token pay s
  rw [hp]
  rfl

end

/-- A record joins the front of its function's event queue unless 32 wait there and the ring has no room (R479). -/
theorem postRec_of_room {s : State} {f : Nat} (r : EvRec) (hsafe : s.dev.safe = false)
    (hroom : 32 ≤ (fnOf s f).ev.front.length → (fnOf s f).ev.room = true) :
    postRec f r s = setFn s f (fun x => { x with ev := { (fnOf s f).ev with front := (fnOf s f).ev.front ++ [r] } }) := by
  have hfits : ¬ (32 ≤ (fnOf s f).ev.front.length ∧ (fnOf s f).ev.room = false) := fun ⟨hfull, hno⟩ => by simp [hroom hfull] at hno
  rw [postRec, hsafe, if_neg Bool.false_ne_true]
  exact if_neg hfits

theorem front_length_post {s : State} {f : Nat} (typ : Nat) (code : Code) (token : Word) (pay : List Word) (hsafe : s.dev.safe = false)
    (hroom : 32 ≤ (fnOf s f).ev.front.length → (fnOf s f).ev.room = true) :
    (fnOf (post f typ code token pay s) f).ev.front.length = (fnOf s f).ev.front.length + 1 := by
  rw [post, postRec_of_room (s := stamp s) _ hsafe hroom, fnOf_setFn]
  exact List.length_append

section
variable (h : Hdr) (op : Nat) (c : Code) (r : List Word) (s : State)

theorem rc_complete : (complete h op c r s).rc = s.rc := by
  obtain ⟨fns, hc⟩ := complete_frame h op c r s
  rw [hc]

theorem sessions_complete : (complete h op c r s).sessions = s.sessions := by
  obtain ⟨fns, hc⟩ := complete_frame h op c r s
  rw [hc]

theorem ev_complete (f : Nat) : (fnOf (complete h op c r s) f).ev = (fnOf s f).ev := by
  rw [complete, enqueueCqe]
  split
  · rfl
  · by_cases hf : f = h.fn
    · rw [hf, setCq, fnOf_setFn]
    · rw [fnOf_setCq_ne _ _ _ _ _ hf]

end

/-! Rate reports (R222, R223). -/

/-- The rate record after a report of a loss that lowers the rate, in Bell b with a hold of k Bells; the report carries no estimate (R223). -/
def cutRate (loss : Nat) (b : BitVec 40) (k : Nat) (r : Rate) : Rate :=
  clampRate { r with
    rateNext := r.rateNext * (512 - loss) / 512, lastLoss := loss, lastE := none, fbLast := some b, lastDec := some b,
    hold := some (b + BitVec.ofNat 40 k) }

section
variable {s : State} {n : Nat} {x : Session} (hx : look s.sessions n = some x)
include hx

/-- Without ADAPT a report changes nothing (R222). -/
theorem rateReport_of_fixed (loss est : Nat) (hadapt : x.rate.adapt = false) : rateReport n loss est s = s := by
  rw [rateReport, hx]
  exact if_pos (.inr hadapt)

/-- A loss of LOSS_HI or more where no decrease has been made lowers the rate, is counted and posts 0x030C (R223). -/
theorem rateReport_of_loss {loss : Nat} (hkind : x.kind = 0) (hadapt : x.rate.adapt = true) (hloss : x.rate.lossHi ≤ loss)
    (hdec : x.rate.lastDec = none) :
    rateReport n loss 0 s = post x.fn 0 0x030C (tokenOf n x.gen) [BitVec.ofNat 32 (x.rate.rateNext * (512 - loss) / 512), 0, 0, 0]
      { setSess s n (fun y => { y with rate := cutRate loss s.bell.num (msBells s 1000) x.rate }) with
        rc := { s.rc with down := up s.rc.down 1 } } := by
  simp [rateReport, hx, hkind, hadapt, hloss, hdec, cutRate]

/-- What a cut leaves: one more decrease counted, the new target in its bounds, and one more record waiting (R223, R477). -/
theorem complete_rateReport_reads {loss : Nat} (h : Hdr) (op : Nat) (c : Code) (r : List Word) (hkind : x.kind = 0) (hadapt : x.rate.adapt = true)
    (hloss : x.rate.lossHi ≤ loss) (hdec : x.rate.lastDec = none) (hsafe : s.dev.safe = false)
    (hroom : 32 ≤ (fnOf s x.fn).ev.front.length → (fnOf s x.fn).ev.room = true) {t : State}
    (ht : t = complete h op c r (rateReport n loss 0 s)) :
    t.rc.down = up s.rc.down 1 ∧
      look t.sessions n = some { x with rate := cutRate loss s.bell.num (msBells s 1000) x.rate } ∧
      (fnOf t x.fn).ev.front.length = (fnOf s x.fn).ev.front.length + 1 := by
  rw [ht, rc_complete, sessions_complete, ev_complete, rateReport_of_loss hx hkind hadapt hloss hdec, rc_post, sessions_post]
  refine ⟨rfl, ?session, front_length_post _ _ _ _ hsafe hroom⟩
  refine (look_setSess s n _).trans ?_
  rw [hx]
  rfl

end

/-- Settles O10: each FEEDBACK command is taken at its port on a session that this device serves; what a rate report that lowers the rate leaves is read
off its equation. -/
theorem feedbackIsTaken : Obligations.FeedbackIsTaken := by
  unfold Obligations.FeedbackIsTaken
  simp only [exec_feedbackAck, exec_feedbackLoss, exec_feedbackKeyRequest, exec_feedbackRateReport, Completes]
  refine ⟨?ack, ?refused, ?loss, ?key, ?fixed, ?cut⟩
  case ack => exact fun h n x frame s ht htok hrole hkind hf => execFeedbackAck_of_started ht htok hrole hkind hf
  case refused => exact fun h n x frame pad s ht htok hrole _ hbad => execFeedbackAck_of_refused ht htok hrole hbad
  case loss => exact fun h n x frame s ht htok hrole hkind hf => execFeedbackLoss_of_started ht htok hrole hkind hf
  case key => exact fun h n x s ht htok hrole hkind => execFeedbackKeyRequest_of_taken ht htok hrole hkind
  case fixed =>
    intro h n x loss est s ht htok hrole hkind hx hadapt
    rw [execFeedbackRateReport_of_taken ht htok hrole hkind, rateReport_of_fixed (s := stamp s) hx loss est hadapt]
  case cut =>
    intro h n x loss s ht htok hrole hkind hx hadapt hloss hdec hsafe hroom
    obtain ⟨hdown, hsess, hrec⟩ := complete_rateReport_reads (s := stamp s) hx h 8 0 [] hkind hadapt hloss hdec hsafe hroom rfl
    exact ⟨_, execFeedbackRateReport_of_taken ht htok hrole hkind loss 0, hdown, ⟨_, hsess, rfl, rfl⟩, hrec⟩

end Sys2Proof.Machine
end

section
/-! A decode session's pictures and its FLUSH: what freeing pictures leaves of the session, and when a FLUSH ends (R178, R259, R270). -/

namespace Sys2Proof.Machine
open Sys2Proof

/-! Reading a session back. -/

theorem look_of_bare {s t : State} {n : Nat} {x : Session} (h : bare t = bare s) (hx : look s.sessions n = some x) :
    ∃ y, look t.sessions n = some y ∧ noStats y = noStats x := by
  have hl : (look t.sessions n).map noStats = (look s.sessions n).map noStats := by
    rw [← look_map, ← look_map]
    exact congrArg (fun m => look m n) h
  rw [hx] at hl
  exact Option.map_eq_some_iff.mp hl

theorem fields_of_noStats {x y : Session} (h : noStats y = noStats x) : y.state = x.state ∧ y.dec = x.dec ∧ y.pics = x.pics :=
  ⟨(congrArg Session.state h :), (congrArg Session.dec h :), (congrArg Session.pics h :)⟩

theorem look_of_tokenSession {s : State} {fn : Nat} {token : Word} {n : Nat} {x : Session} (h : tokenSession s fn token = some (n, x)) :
    look s.sessions n = some x := look_of_tokenSessionPf (tokenSessionPf_of_own h)

/-! What a session has output. -/

/-- A session's state, its count of output pictures, its latest picture and the output buffers that its host holds (R270, R283). -/
structure Output where
  state   : Nat
  outputs : Nat
  latest  : Option Nat
  held    : List Nat

def output (x : Session) : Output := ⟨x.state, x.dec.outputs, x.dec.latest, x.dec.held⟩

theorem output_congr {x y : Session} (hstate : y.state = x.state) (hdec : y.dec = x.dec) : output y = output x := by
  rw [output, output, hstate, hdec]

theorem output_of_noStats {x y : Session} (h : noStats y = noStats x) : output y = output x := by
  obtain ⟨hstate, hdec, -⟩ := fields_of_noStats h
  exact output_congr hstate hdec

theorem fields_of_output {y : Session} {o : Output} (h : output y = o) :
    y.state = o.state ∧ y.dec.outputs = o.outputs ∧ y.dec.latest = o.latest ∧ y.dec.held = o.held := by
  rw [← h]
  exact ⟨rfl, rfl, rfl, rfl⟩

/-! The end of a FLUSH (R259). -/

/-- Nothing that was accepted before a FLUSH is still to be decoded or output (R259). -/
abbrev Drained (x : Session) : Prop := x.dec.chunks = [] ∧ x.dec.queue = [] ∧ x.dec.peer = [] ∧ x.pics.all (fun p => !p.2.shows) = true

/-- A session whose FLUSH has ended: no picture is a reference and the next access unit starts a new stream (R259). -/
def flushed (x : Session) : Session :=
  { x with
    pics := x.pics.map (fun p => (p.1, { p.2 with refd := false }))
    dec := { x.dec with flush := none, synced := false, rasl := false, recover := none } }

section
variable {s : State} {n : Nat} {x : Session} (hx : look s.sessions n = some x)
include hx

theorem look_setDec (g : Dec → Dec) : look (setDec s n g).sessions n = some { x with dec := g x.dec } := look_setSess_sv _ hx

/-- Freeing pictures takes those without retention from the session and leaves its state and its decode state (R178). -/
theorem look_sweepPics : ∃ y, look (sweepPics n s).sessions n = some y ∧ y.state = x.state ∧ y.dec = x.dec ∧
    y.pics = x.pics.filter (fun e => picKept x e.1) := by
  unfold sweepPics
  rw [hx]
  dsimp only
  obtain ⟨y, hy, hyx⟩ := look_of_bare (foldl_bare _ _ _ (fun t (e : Nat × Pic) => dropAll_bare (sessReq n) e.2.extents t)) (look_setSess_sv _ hx)
  exact ⟨y, hy, fields_of_noStats hyx⟩

/-! When a FLUSH ends, and what its end leaves. -/

theorem settleFlush_of_none (hf : x.dec.flush = none) : settleFlush n s = s := by
  rw [settleFlush, hx]
  dsimp only
  rw [hf]

theorem settleFlush_of_busy (hbusy : ¬ Drained x) : settleFlush n s = s := by
  cases hf : x.dec.flush with
  | none => exact settleFlush_of_none hx hf
  | some h =>
    rw [settleFlush, hx]
    dsimp only
    rw [hf]
    exact if_neg hbusy

theorem settleFlush_of_drained {h : Hdr} (hf : x.dec.flush = some h) (hdone : Drained x) :
    settleFlush n s = complete h 0x0C 0 [] (sweepPics n (setSess s n flushed)) := by
  rw [settleFlush, hx]
  dsimp only
  rw [hf]
  exact if_pos hdone

theorem look_sweepPics_flushed : ∃ y, look (sweepPics n (setSess s n flushed)).sessions n = some y ∧ y.state = x.state ∧
    y.dec = (flushed x).dec ∧ y.pics.all (fun p => !p.2.refd) = true := by
  obtain ⟨y, hy, hstate, hdec, hpics⟩ := look_sweepPics (look_setSess_sv flushed hx)
  refine ⟨y, hy, hstate, hdec, ?_⟩
  rw [hpics, List.all_filter]
  simp [flushed]

theorem look_settleFlush : ∃ y, look (settleFlush n s).sessions n = some y ∧ output y = output x := by
  cases hf : x.dec.flush with
  | none => exact ⟨x, by rw [settleFlush_of_none hx hf, hx], rfl⟩
  | some h =>
    by_cases hdone : Drained x
    · obtain ⟨y, hy, hstate, hdec, -⟩ := look_sweepPics_flushed hx
      have hout : output y = output (flushed x) := output_congr hstate hdec
      exact ⟨y, by rw [settleFlush_of_drained hx hf hdone, sessions_complete, hy], hout⟩
    · exact ⟨x, by rw [settleFlush_of_busy hx hdone, hx], rfl⟩

end

end Sys2Proof.Machine
end

section
/-! DECODE_SUBMIT of each kind, and the statement on it (R254 to R259, R267, R270). -/

namespace Sys2Proof.Machine
open Sys2Proof

theorem exec_decodeBind (h : Hdr) (o : BindOps) (s : State) : exec (.decodeBind h o) s = execDecodeBind h o s := rfl
theorem exec_decodeData (h : Hdr) (o : DataOps) (s : State) : exec (.decodeData h o) s = execDecodeData h o s := rfl
theorem exec_decodeRelease (h : Hdr) (i pad : Nat) (s : State) : exec (.decodeRelease h i pad) s = execDecodeRelease h i pad s := rfl
theorem exec_decodeFlush (h : Hdr) (pad : Nat) (s : State) : exec (.decodeFlush h pad) s = execDecodeFlush h pad s := rfl

/-- The decode state in which one more chunk is being copied into its buffer (R257). -/
def withChunk (h : Hdr) (o : DataOps) (b : Option BindOps) (w : Word) (d : Dec) : Dec :=
  { d with
    chunks := d.chunks ++ [{ hdr := h, ops := o, bind := b, bufs := [w], dead := false }]
    nChunks := if o.flags.testBit 0 then 0 else d.nChunks + 1
    nBytes := if o.flags.testBit 0 then 0 else d.nBytes + o.len }

section
variable {s : State} {h : Hdr} {n : Nat} {x : Session} (ht : Takes s h) (htok : tokenSession s h.fn h.token = some (n, x)) (hkind : x.kind = 1)
  (hen : s.dec.en = true)
include ht htok hkind hen

/-- A DECODE_SUBMIT that is taken runs on the decode session that its token names while the unit is enabled (R254). -/
theorem sessionCmd_onDecode (f : Nat → Session → State → State) (i : Instr) :
    sessionCmd i h 0x0C s (fun s => onDecode h s f) = .next (f n x s) := by
  simp only [onDecode]
  rw [sessionCmd_onToken ht htok, if_neg (not_not_intro hkind), hen]
  exact congrArg Host.Outcome.next (if_neg Bool.false_ne_true)

/-! BIND (R255, R256). -/

section
variable {o : BindOps}

theorem execDecodeBind_of_code {c : Code} (hc : bindCode s n x o = some c) : execDecodeBind h o s = .next (refuse h 0x0C c s) := by
  rw [execDecodeBind, sessionCmd_onDecode ht htok hkind hen, hc]

theorem execDecodeBind_of_ok (hc : bindCode s n x o = none) :
    execDecodeBind h o s = .next (complete h 0x0C 0 [] (sweepKeys
      (if o.use = 1 then setFlow (setDec s n (fun d => { d with bind := some o })) o.flow (fun f => { f with session := some n })
       else setDec s n (fun d => { d with bind := some o })))) := by
  rw [execDecodeBind, sessionCmd_onDecode ht htok hkind hen, hc]

end

/-! DATA (R257, R258). -/

section
variable {o : DataOps}

theorem execDecodeData_of_code {c : Code} (hc : dataCode x o = some c) : execDecodeData h o s = .next (refuse h 0x0C c s) := by
  rw [execDecodeData, sessionCmd_onDecode ht htok hkind hen, hc]

section
variable (hc : dataCode x o = none)
include hc

theorem execDecodeData_of_limit (hlim : chunkLimit x.dec o = true) :
    execDecodeData h o s = .next (refuse h 0x0C 0x0C06 (decCount 0x24 1 (discardPart n true s))) := by
  rw [execDecodeData, sessionCmd_onDecode ht htok hkind hen, hc]
  exact congrArg Host.Outcome.next (if_pos hlim)

theorem execDecodeData_of_allocated {w : Word} {u : State} (hlim : chunkLimit x.dec o = false)
    (halloc : allocate (sessReq n) o.len true s = (.ok w, u)) :
    execDecodeData h o s = .next (setDec (if useProt x then markSecret w u else u) n (withChunk h o x.dec.bind w)) := by
  rw [execDecodeData, sessionCmd_onDecode ht htok hkind hen, hc]
  dsimp only
  rw [hlim, halloc, if_neg Bool.false_ne_true]
  rfl

end
end

section
variable {b : BindOps} (hb : x.dec.bind = some b)
include hb

/-! RELEASE (R259). -/

theorem execDecodeRelease_of_held {i : Nat} (hi : i < b.outCount) (hheld : has x.dec.held i = true) :
    execDecodeRelease h i 0 s = .next (complete h 0x0C 0 [] (setDec s n (fun d => { d with held := remS d.held i }))) := by
  have hok : ¬ (b.outCount ≤ i ∨ (0 : Nat) ≠ 0 ∨ has x.dec.held i = false) := by simp [hi, hheld]
  rw [execDecodeRelease, sessionCmd_onDecode ht htok hkind hen, hb]
  exact congrArg Host.Outcome.next (if_neg hok)

/-! FLUSH (R259). -/

theorem execDecodeFlush_of_bound :
    execDecodeFlush h 0 s =
      .next (if x.dec.flush.isSome then refuse h 0x0C 0x0C10 s else settleFlush n (setDec s n (fun d => { d with flush := some h }))) := by
  rw [execDecodeFlush, sessionCmd_onDecode ht htok hkind hen, hb, Option.isNone_some, if_neg Bool.false_ne_true, if_neg (not_not_intro rfl)]

theorem execDecodeFlush_of_second {k : Hdr} (hf : x.dec.flush = some k) : execDecodeFlush h 0 s = .next (refuse h 0x0C 0x0C10 s) := by
  rw [execDecodeFlush_of_bound ht htok hkind hen hb, hf]
  rfl

section
variable (hf : x.dec.flush = none)
include hf

theorem execDecodeFlush_of_first : execDecodeFlush h 0 s = .next (settleFlush n (setDec s n (fun d => { d with flush := some h }))) := by
  rw [execDecodeFlush_of_bound ht htok hkind hen hb, hf]
  rfl

theorem execDecodeFlush_of_busy (hbusy : ¬ Drained x) :
    execDecodeFlush h 0 s = .next (setDec s n (fun d => { d with flush := some h })) := by
  rw [execDecodeFlush_of_first ht htok hkind hen hb hf, settleFlush_of_busy (look_setDec (look_of_tokenSession htok) _) hbusy]

theorem execDecodeFlush_of_drained (hdone : Drained x) :
    execDecodeFlush h 0 s =
      .next (complete h 0x0C 0 [] (sweepPics n (setSess (setDec s n (fun d => { d with flush := some h })) n flushed))) := by
  rw [execDecodeFlush_of_first ht htok hkind hen hb hf, settleFlush_of_drained (look_setDec (look_of_tokenSession htok) _) rfl hdone]

end
end
end

/-- Settles O13: each DECODE_SUBMIT is taken at its port on a decode session; a FLUSH waits until the session is drained, and what its end leaves is
read back through the pictures that it frees. -/
theorem decodeCommandsAreTaken : Obligations.DecodeCommandsAreTaken := by
  unfold Obligations.DecodeCommandsAreTaken
  simp only [exec_decodeBind, exec_decodeData, exec_decodeRelease, exec_decodeFlush, Completes]
  refine ⟨?bind, ?bindPeer, ?bindRefused, ?dataRefused, ?limit, ?data, ?release, ?waits, ?ends, ?second⟩
  case bind =>
    intro h n x o s ht htok hkind hen hc huse
    rw [execDecodeBind_of_ok ht htok hkind hen hc, if_neg huse]
    rfl
  case bindPeer =>
    intro h n x o s ht htok hkind hen hc huse
    rw [execDecodeBind_of_ok ht htok hkind hen hc, if_pos huse]
    rfl
  case bindRefused => exact fun h n x o c s ht htok hkind hen hc => execDecodeBind_of_code ht htok hkind hen hc
  case dataRefused => exact fun h n x o c s ht htok hkind hen hc => execDecodeData_of_code ht htok hkind hen hc
  case limit => exact fun h n x o s ht htok hkind hen hc hlim => execDecodeData_of_limit ht htok hkind hen hc hlim
  case data =>
    exact fun h n x o w u s ht htok hkind hen hc hlim halloc => execDecodeData_of_allocated ht htok hkind hen hc hlim halloc
  case release => exact fun h n x i b s ht htok hkind hen hb hi hheld => execDecodeRelease_of_held ht htok hkind hen hb hi hheld
  case waits =>
    intro h n x b s ht htok hkind hen hb hf _ hwork
    refine execDecodeFlush_of_busy ht htok hkind hen hb hf ?_
    rintro ⟨hchunks, hqueue, hpeer, -⟩
    simp [hchunks, hqueue, hpeer] at hwork
  case ends =>
    intro h n x b s ht htok hkind hen hb hf hx hchunks hqueue hpeer hshown
    obtain ⟨y, hy, -, hdec, hrefd⟩ := look_sweepPics_flushed (look_setDec hx (fun d => { d with flush := some h }))
    refine ⟨_, execDecodeFlush_of_drained ht htok hkind hen hb hf ⟨hchunks, hqueue, hpeer, hshown⟩, _, rfl, y, hy, ?_⟩
    rw [hdec]
    exact ⟨rfl, rfl, rfl, rfl, hb, hrefd⟩
  case second => exact fun h n x b k s ht htok hkind hen hb hf => execDecodeFlush_of_second ht htok hkind hen hb hf

end Sys2Proof.Machine
end

section
/-! The work of a decode session: copied chunks, peer access units, outputs, protected fills and the DECODE enable, and the statement on it (R258,
R261 to R263, R266, R270, R283, R284, R287). -/

namespace Sys2Proof.Machine
open Sys2Proof

theorem exec_dataCopyDone (n : Nat) (info : AuInfo) (bytes : List Byte) (s : State) :
    exec (.dataCopyDone n info bytes) s = execDataCopyDone n info bytes s := rfl
theorem exec_auReorderTimeout (n : Nat) (info : AuInfo) (s : State) : exec (.auReorderTimeout n info) s = execAuReorderTimeout n info s := rfl
theorem exec_decodeOutput (n : Nat) (pic : OutPic) (s : State) : exec (.decodeOutput n pic) s = execDecodeOutput n pic s := rfl
theorem exec_protectedFillDone (k : Nat) (s : State) : exec (.protectedFillDone k) s = execProtectedFillDone k s := rfl
theorem exec_decCtrlWrite (v : Word) (s : State) : exec (.decCtrlWrite v) s = execDecCtrlWrite v s := rfl

/-- The state in which a chunk's bytes stand in its buffer and its DATA has completed (R258, R262). -/
def chunkCopied (c : Chunk) (w : Word) (bytes : List Byte) (s : State) : State :=
  complete c.hdr 0x0C 0 [] (storeMem (bufAddr s (hClass w) (hIndex w)) (chunkBytes s c (bytes.take c.ops.len)) s)

/-- The output buffers that the host holds once one more, if any, has been filled (R283). -/
def heldWith (held : List Nat) (buf : Option Nat) : List Nat := buf.elim held (addS held)

/-- The output buffer that a picture takes under a binding: none of a protected one, else the next that is not held (R263, R283). -/
def outBuffer (b : BindOps) (d : Dec) : Option Nat := if b.use = 0 then none else nextBuffer d b.outCount

/-- What the output of a picture leaves of `output`: one more output, and the picture the latest or its buffer held (R263, R270, R283). -/
def outputNext (desc : Nat) (b : BindOps) (x : Session) : Output :=
  ⟨x.state, (x.dec.outputs + 1) % 2 ^ 32, if b.use = 0 then some desc else none, heldWith x.dec.held (outBuffer b x.dec)⟩

section
variable {s : State} {n : Nat} {x : Session} (hr : Runs s) (hx : look s.sessions n = some x)
include hr hx

/-! Copied chunks (R258, R262). -/

section
variable {c : Chunk} {rest : List Chunk} (info : AuInfo) (bytes : List Byte) (hc : x.dec.chunks = c :: rest)
include hc

theorem execDataCopyDone_of_dead (hdead : c.dead = true) :
    execDataCopyDone n info bytes s =
      .next (complete c.hdr 0x0C 0 [] (dropAll (sessReq n) c.bufs (setDec s n (fun d => { d with chunks := rest })))) := by
  rw [execDataCopyDone, onSession_of_look _ hr hx, hc]
  exact congrArg Host.Outcome.next (if_pos hdead)

section
variable (hlive : c.dead = false)
include hlive

theorem execDataCopyDone_of_readFailed (hfail : info.readFailed = true) :
    execDataCopyDone n info bytes s =
      .next (refuse c.hdr 0x0C 0x0C09 (settleFlush n (dropAll (sessReq n) c.bufs
        (setDec (discardPart n false s) n (fun d => { d with chunks := d.chunks.drop 1 }))))) := by
  rw [execDataCopyDone, onSession_of_look _ hr hx, hc]
  dsimp only
  rw [hlive, if_neg Bool.false_ne_true]
  exact congrArg Host.Outcome.next (if_pos hfail)

/-- The first chunk of an access unit, copied: it completes the unit where it is also its last (END), and begins it otherwise (R257, R258). -/
theorem execDataCopyDone_of_first {w : Word} (hread : info.readFailed = false) (hw : c.bufs = [w]) (hpart : x.dec.part = none) :
    execDataCopyDone n info bytes s =
      .next (if c.ops.flags.testBit 0 then
          settleFlush n (auComplete n c.ops.tag [w] info
            (setDec (chunkCopied c w bytes s) n (fun d => { d with chunks := rest, part := none })))
        else setDec (chunkCopied c w bytes s) n (fun d => { d with chunks := rest, part := some (c.ops.tag, [w]) })) := by
  rw [execDataCopyDone, onSession_of_look _ hr hx, hc]
  dsimp only
  rw [hlive, hread, hw, hpart, if_neg Bool.false_ne_true, if_neg Bool.false_ne_true]
  rfl

end
end

/-! Peer access units (R261). -/

/-- The one access unit in progress is due, so it is the earliest of those that are (R261). -/
theorem execAuReorderTimeout_of_due {b : BindOps} {a : PeerAu} (info : AuInfo) (hb : x.dec.bind = some b) (hpeer : x.dec.peer = [a])
    (hdue : b.reorderBells ≤ bellsFrom a.first s.bell.num) (h4 : x.state ≠ 4) (h5 : x.state ≠ 5) :
    execAuReorderTimeout n info s = .next (settleFlush n (auComplete n a.ts [] info (takePeer n a s))) := by
  rw [execAuReorderTimeout, onSession_of_look _ hr hx, hb, hpeer]
  simp [hdue, h4, h5]

/-! Output (R263, R270, R283, R284). -/

/-- The record of an output picture, its count and its buffer are in place; its pictures and its FLUSH are then settled (R259, R270, R283, R284). -/
theorem execDecodeOutput_of_due {pic : OutPic} {b : BindOps} {p : Pic} (hb : x.dec.bind = some b) (hp : look x.pics pic.desc = some p)
    (hwhole : p.whole = true) (hshows : p.shows = true) :
    ∃ u, execDecodeOutput n pic s = .next (settleFlush n (sweepPics n u)) ∧
      ∃ y, look u.sessions n = some y ∧ output y = outputNext pic.desc b x := by
  have hdue : ¬ (!p.whole || !(p.shows || pic.tag.isSome)) = true := by simp [hwhole, hshows]
  rw [execDecodeOutput, onSession_of_look _ hr hx, hb, hp]
  dsimp -zeta only
  rw [if_neg hdue]
  extract_lets prot buf noBuf tag flags s1 s2 s3 s4
  have hbuf : buf = outBuffer b x.dec := by simp only [buf, prot, outBuffer, decide_eq_true_eq]
  clear_value buf
  have hs1 : s1.sessions = s.sessions := by
    simp only [s1]
    split <;> rfl
  have hs2 : look s2.sessions n = some x := by rw [sessions_post, hs1, hx]
  have hs3 : ∃ y, look s3.sessions n = some y ∧ output y = outputNext pic.desc b x := by
    refine ⟨_, look_setSess_sv _ hs2, ?_⟩
    rw [outputNext, ← hbuf]
    simp only [output, prot, decide_eq_true_eq]
    cases buf <;> rfl
  have hbare : bare (if noBuf = true then decCount 0x28 1 s4 else s4) = bare s3 := by
    split <;> exact stat_bare n 33 1 (decCount 0x14 1 s3)
  obtain ⟨y, hy, hout⟩ := hs3
  obtain ⟨z, hz, hzy⟩ := look_of_bare hbare hy
  exact ⟨_, rfl, z, hz, (output_of_noStats hzy).trans hout⟩

theorem look_execDecodeOutput {pic : OutPic} {b : BindOps} {p : Pic} (hb : x.dec.bind = some b) (hp : look x.pics pic.desc = some p)
    (hwhole : p.whole = true) (hshows : p.shows = true) :
    ∃ t y, execDecodeOutput n pic s = .next t ∧ look t.sessions n = some y ∧ output y = outputNext pic.desc b x := by
  obtain ⟨u, hu, y, hy, hout⟩ := execDecodeOutput_of_due hr hx hb hp hwhole hshows
  obtain ⟨z, hz, hstate, hdec, -⟩ := look_sweepPics hy
  obtain ⟨v, hv, hvz⟩ := look_settleFlush hz
  exact ⟨_, v, hu, hv, hvz.trans ((output_congr hstate hdec).trans hout)⟩

end

/-! Protected fills (R266, R350). -/

/-- The bytes of a buffer whose fill has ended read zero, and no other byte changes (R266). -/
theorem execProtectedFillDone_of_filling {s : State} {k : Nat} (hr : Runs s) (hf : has s.pool.filling k = true) :
    ∃ t, execProtectedFillDone k s = .next t ∧ t.pool.filling = remS s.pool.filling k ∧
      (∀ a, bufAddr s (k / 2 ^ 25) (k % 2 ^ 25) ≤ a → a < bufAddr s (k / 2 ^ 25) (k % 2 ^ 25) + classSize (k / 2 ^ 25) → readMem t a = 0) ∧
      (∀ a, a < bufAddr s (k / 2 ^ 25) (k % 2 ^ 25) ∨ bufAddr s (k / 2 ^ 25) (k % 2 ^ 25) + classSize (k / 2 ^ 25) ≤ a →
        readMem t a = readMem s a) ∧
      t = { s with
        mem := t.mem, memc := { s.memc with poison := t.memc.poison }, pool := { s.pool with filling := t.pool.filling, free := t.pool.free } } := by
  refine ⟨_, (live_of_runs _ hr).trans (congrArg Host.Outcome.next (if_pos hf)), rfl, fun a hlo hhi => ?_, fun a hout => ?_, rfl⟩
  · refine rdCell_filter_out _ _ a (fun b => ?_)
    simp only [decide_eq_false (Nat.not_lt.mpr hlo), decide_eq_false (Nat.not_le.mpr hhi), Bool.or_false]
  · refine rdCell_filter_in _ _ a (fun b => ?_)
    simpa using hout

/-! The DECODE enable (R287). -/

section
variable {v : Word} {s : State} (hs : Serves s) (hv : v &&& 0xFFFFFFFE = 0)
include hs hv

theorem execDecCtrlWrite_of_set (hbit : bit v 0 = true) (hready : s.dec.en = true ∨ s.sec.ready = true) :
    execDecCtrlWrite v s = .next { wake s with dec := { s.dec with en := true } } := by
  have hok : ((wake s).dec.en || (wake s).sec.ready) = true := by simpa using hready
  rw [execDecCtrlWrite, blockWrite_of_accepted _ hs hv, if_pos hbit, if_pos hok, wake_dec]

theorem execDecCtrlWrite_of_clear (hbit : bit v 0 = false) (hnone : s.sessions.all (fun e => decide (e.2.kind ≠ 1)) = true) :
    execDecCtrlWrite v s = .next { wake s with dec := { s.dec with en := false } } := by
  have hfree : ((wake s).dec.en && (wake s).sessions.any (fun e => decide (e.2.kind = 1))) = false := by
    rw [wake_sessions, List.any_eq_false.mpr, Bool.and_false]
    simpa using hnone
  rw [execDecCtrlWrite, blockWrite_of_accepted _ hs hv, hbit, hfree, wake_dec, if_neg Bool.false_ne_true, if_neg Bool.false_ne_true]

end

/-- Settles O14: each event of a decode session is what its meaning answers for the case; an output's effect on the session is read back through the
counts, the freed pictures and a FLUSH that may end with it. -/
theorem decodeWorkEnds : Obligations.DecodeWorkEnds := by
  unfold Obligations.DecodeWorkEnds
  simp only [exec_dataCopyDone, exec_auReorderTimeout, exec_decodeOutput, exec_protectedFillDone, exec_decCtrlWrite, Completes]
  refine ⟨?dead, ?readFailed, ?first, ?last, ?peer, ?output, ?filled, ?set, ?clear⟩
  case dead => exact fun n x info bytes c rest s hr hx hc hdead => execDataCopyDone_of_dead hr hx info bytes hc hdead
  case readFailed =>
    exact fun n x info bytes c rest s hr hx hc hlive hfail => execDataCopyDone_of_readFailed hr hx info bytes hc hlive hfail
  case first =>
    intro n x info bytes c rest w s hr hx hc hlive hread hw hpart hend
    rw [execDataCopyDone_of_first hr hx info bytes hc hlive hread hw hpart, hend]
    rfl
  case last =>
    intro n x info bytes c rest w s hr hx hc hlive hread hw hpart hend
    rw [execDataCopyDone_of_first hr hx info bytes hc hlive hread hw hpart, if_pos hend, chunkCopied]
  case peer => exact fun n x info b a s hr hx hb hpeer hdue h4 h5 => execAuReorderTimeout_of_due hr hx info hb hpeer hdue h4 h5
  case output =>
    intro n x pic b p s hr hx hb hp hwhole hshows
    obtain ⟨t, y, ht, hy, hout⟩ := look_execDecodeOutput hr hx hb hp hwhole hshows
    have hmem : t.mem = s.mem := (of_core (congrArg Kept.core (execDecodeOutput_kept n pic s t ht))).1
    obtain ⟨hstate, hcount, hlatest, hheld⟩ := fields_of_output hout
    refine ⟨t, ht, ⟨y, hy, hcount, hstate, fun huse => ?latest, fun huse => ?held⟩, hmem⟩
    case latest => exact ⟨hlatest.trans (if_pos huse), hheld.trans (congrArg (heldWith x.dec.held) (if_pos huse))⟩
    case held =>
      refine ⟨hlatest.trans (if_neg huse), hheld.trans ((congrArg (heldWith x.dec.held) (if_neg huse)).trans ?_)⟩
      cases nextBuffer x.dec b.outCount <;> rfl
  case filled => exact fun k s hr hf => execProtectedFillDone_of_filling hr hf
  case set => exact fun v s hs hv hbit hready => execDecCtrlWrite_of_set hs hv hbit hready
  case clear => exact fun v s hs hv hbit hnone => execDecCtrlWrite_of_clear hs hv hbit hnone

end Sys2Proof.Machine
end

section
/-! What a command other than a reset does to DRAM, the virtual functions, the Bell number, the pins, the flash and the fuses: the ways are few,
each command takes one of them, and the statement on what each leaves alone (12_memory_system.md, R296, R375, R390, R534, R540, R555, R557). -/

namespace Sys2Proof.Machine
open Sys2Proof

/-- The commands that start a burn of the fuses (R536, R537). -/
def startsBurn : Instr → Bool
  | .secFuseSvn _ => true | .fuseOwnerProgram _ => true | .fuseOwnerRevoke _ => true
  | _ => false

/-- The ways in which a command may take the core of one state to the core of the next. -/
inductive CoreStep : Instr → Core → Core → Prop
  | same (i : Instr) (c : Core) : CoreStep i c c
  | dram (i : Instr) (c : Core) (m : List Host.Cell) (hi : storesDram i = true) (hm : Memory.wf c.mem = true → Memory.wf m = true) :
      CoreStep i c { c with mem := m }
  | bell (env : BellEnv) (c : Core) (m : List Host.Cell) (hm : Memory.wf c.mem = true → Memory.wf m = true) :
      CoreStep (.bellStart env) c { c with mem := m, bell := c.bell + 1 }
  | vfsOn (n : Nat) (c : Core) : CoreStep (.vfEnable n) c { c with vf := n }
  | vfsOff (c : Core) : CoreStep .vfDisable c { c with vf := 0 }
  | trip (n : Nat) (c : Core) : CoreStep (.thermtrip n) c { c with dev := (c.dev.1, true, c.dev.2.2) }
  | perstRise (n : Nat) (c : Core) : CoreStep (.perstRise n) c { c with dev := (true, c.dev.2.1, n) }
  | burnStarts (i : Instr) (c : Core) (b : Burn) (hi : startsBurn i = true) :
      CoreStep i c { c with sec := (c.sec.1, c.sec.2.1, c.sec.2.2.1, c.sec.2.2.2.1, some b) }
  | burnt (c : Core) (fuses : NMap Nat × BitVec 8 × NMap (BitVec 384) × Option Burn) : CoreStep .fuseBurnDone c { c with sec := (c.sec.1, fuses) }
  | flashed (ok : Bool) (c : Core) (f : List Host.Cell) : CoreStep (.flashOpDone ok) c { c with sec := (f, c.sec.2) }

/-! What each way leaves alone. -/

section
variable {i : Instr} {c c' : Core} (h : CoreStep i c c')
include h

theorem CoreStep.mem_eq (hi : storesDram i = false) : c'.mem = c.mem := by
  cases h with
  | dram _ _ _ hs => rw [hs] at hi; cases hi
  | bell => cases hi
  | _ => rfl

theorem CoreStep.flash_eq (hi : ∀ ok, i ≠ .flashOpDone ok) : c'.sec.1 = c.sec.1 := by
  cases h with
  | flashed ok => exact absurd rfl (hi ok)
  | _ => rfl

theorem CoreStep.fuses_eq (hi : i ≠ .fuseBurnDone) :
    c'.sec.2.1 = c.sec.2.1 ∧ c'.sec.2.2.1 = c.sec.2.2.1 ∧ c'.sec.2.2.2.1 = c.sec.2.2.2.1 := by
  cases h with
  | burnt => exact absurd rfl hi
  | _ => exact ⟨rfl, rfl, rfl⟩

theorem CoreStep.vf_eq (hon : ∀ n, i ≠ .vfEnable n) (hoff : i ≠ .vfDisable) : c'.vf = c.vf := by
  cases h with
  | vfsOn n => exact absurd rfl (hon n)
  | vfsOff => exact absurd rfl hoff
  | _ => rfl

theorem CoreStep.bell_eq (hi : ∀ env, i ≠ .bellStart env) : c'.bell = c.bell := by
  cases h with
  | bell env => exact absurd rfl (hi env)
  | _ => rfl

theorem CoreStep.dev_eq (htrip : ∀ n, i ≠ .thermtrip n) (hrise : ∀ n, i ≠ .perstRise n) : c'.dev = c.dev := by
  cases h with
  | trip n => exact absurd rfl (htrip n)
  | perstRise n => exact absurd rfl (hrise n)
  | _ => rfl

end

/-! From what an outcome keeps to the way that it takes. -/

/-- Every next state is reached in one of the ways of the command. -/
def CoreSteps (i : Instr) (o : Res) (s : State) : Prop := ∀ t, o = .next t → CoreStep i (coreOf s) (coreOf t)

theorem CoreStep.of_eq {s t : State} {i : Instr} (h : coreOf t = coreOf s) : CoreStep i (coreOf s) (coreOf t) := by
  rw [h]
  exact .same ..

theorem OM.core_eq {k k' : Kept} (h : OM k k') : k'.core = { k.core with mem := k'.core.mem } := by
  have hrest : { k'.core with mem := [] } = { k.core with mem := [] } := congrArg Kept.core h.rest
  calc k'.core = { { k'.core with mem := [] } with mem := k'.core.mem } := rfl
    _ = { k.core with mem := k'.core.mem } := by rw [hrest]

theorem CoreStep.of_om {s t : State} {k : Kept} {i : Instr} (hi : storesDram i = true) (hk : k.core = coreOf s) (h : OM k (kept t)) :
    CoreStep i (coreOf s) (coreOf t) := by
  rw [← hk, show coreOf t = _ from h.core_eq]
  exact .dram _ _ _ hi h.wf

section
variable {i : Instr} {s : State}

theorem CoreSteps.of_core {o : Res} (h : KeepsCore o s) : CoreSteps i o s := fun t ht => .of_eq (h t ht)
theorem CoreSteps.of_keeps {o : Res} (h : Keeps o s) : CoreSteps i o s := .of_core h.core
theorem CoreSteps.of_mem {o : Res} (hi : storesDram i = true) (h : KeepsMem o (kept s)) : CoreSteps i o s := fun t ht => .of_om hi rfl (h t ht)

variable {f : State → State}

theorem CoreSteps.live (h : CoreStep i (coreOf s) (coreOf (f s))) : CoreSteps i (live s f) s := by
  unfold Machine.live
  split <;> rintro t ⟨⟩
  · exact .same ..
  · exact h

theorem CoreSteps.devWrite {r v : Word} (h : ∀ x, CoreStep i (coreOf x) (coreOf (f x))) : CoreSteps i (devWrite r v s f) s := by
  have hwake : CoreStep i (coreOf s) (coreOf (f (wake s))) := by simpa only [coreOf, wake_kept] using h (wake s)
  unfold Machine.devWrite regWrite
  split
  · rintro t ⟨⟩
    exact .same ..
  · split <;> rintro t ⟨⟩
    exact hwake

end

/-! The commands that do more to the core than keep it or store into DRAM. -/

theorem execBellStart_coreSteps (env : BellEnv) (s : State) : CoreSteps (.bellStart env) (execBellStart env s) s := by
  intro t ht
  rcases execBellStart_om env s t ht with rfl | h
  · exact .same ..
  · rw [coreOf, coreOf, h.core_eq]
    exact .bell env _ _ h.wf

theorem execFenceCut_coreSteps (s : State) : CoreSteps .fenceCut (execFenceCut s) s := by
  refine .live ?_
  split
  · exact .same ..
  · refine .of_om (k := kept (setBell s (fun b => { b with cut := true }))) rfl rfl (dispatchOver_om _ ?_)
    simp only [dispatchForks_kept, dispatchShadows_kept]
    exact dispatchCadence_om _ (truncateDue_om _ (OM.refl _))

theorem execGuardOpen_coreSteps (s : State) : CoreSteps .guardOpen (execGuardOpen s) s := by
  refine .live ?_
  dsimp only
  split
  · exact .same ..
  · exact .of_eq (by simp)

theorem execVfEnable_coreSteps (n : Nat) (s : State) : CoreSteps (.vfEnable n) (execVfEnable n s) s := by
  refine .live ?_
  dsimp only
  split
  · exact .same ..
  · exact .vfsOn ..

theorem execVfDisable_coreSteps (s : State) : CoreSteps .vfDisable (execVfDisable s) s := by
  refine .live ?_
  generalize hx : clearVfIrq (vfChannels s) ((vfChannels s).foldl (fun s c => dmaDisable c s) (closeVfSessions s)) = x
  have hkept : coreOf x = coreOf s := congrArg Kept.core (by simp [← hx])
  dsimp only
  rw [hx, ← hkept]
  exact .vfsOff _

theorem execThermtrip_coreSteps (n : Nat) (s : State) : CoreSteps (.thermtrip n) (execThermtrip n s) s := by
  intro t ht
  cases ht
  dsimp only
  split
  · exact .same ..
  · exact .trip ..

theorem execPerstRise_coreSteps (n : Nat) (s : State) : CoreSteps (.perstRise n) (execPerstRise n s) s := by
  intro t ht
  cases ht
  dsimp only
  split
  · exact .same ..
  · exact .perstRise ..

theorem execSecFuseSvn_coreSteps (v : Word) (s : State) : CoreSteps (.secFuseSvn v) (execSecFuseSvn v s) s := by
  refine .devWrite fun x => ?_
  unfold fuseSvn
  dsimp only
  split
  · exact .of_eq (congrArg Kept.core (secRefuse_kept ..))
  · exact .burnStarts _ _ _ rfl

theorem execFuseOwnerProgram_coreSteps (k : Nat) (s : State) : CoreSteps (.fuseOwnerProgram k) (execFuseOwnerProgram k s) s := by
  refine .devWrite fun x => ?_
  unfold ownerProgram
  split
  · exact .of_eq (congrArg Kept.core (secRefuse_kept ..))
  · exact .burnStarts _ _ _ rfl

theorem execFuseOwnerRevoke_coreSteps (k : Nat) (s : State) : CoreSteps (.fuseOwnerRevoke k) (execFuseOwnerRevoke k s) s := by
  refine .devWrite fun x => ?_
  unfold ownerRevoke
  split
  · exact .of_eq (congrArg Kept.core (secRefuse_kept ..))
  · exact .burnStarts _ _ _ rfl

theorem execFuseBurnDone_coreSteps (s : State) : CoreSteps .fuseBurnDone (execFuseBurnDone s) s := by
  refine .live ?_
  dsimp only
  split
  · exact .same ..
  next b hb =>
    cases b <;> exact .burnt ..

/-- A write to the flash of a state that has the core of `s`. -/
theorem CoreStep.of_flash (ok : Bool) {s x : State} (hx : coreOf x = coreOf s) (a : Nat) (bs : List Byte) :
    CoreStep (.flashOpDone ok) (coreOf s) (coreOf (setSec x (fun y => { y with flash := wrCells flashDefault y.flash a bs }))) := by
  rw [← hx]
  exact .flashed ..

theorem CoreStep.of_spoil (ok : Bool) {s x : State} (hx : coreOf x = coreOf s) (a n : Nat) :
    CoreStep (.flashOpDone ok) (coreOf s) (coreOf (spoil a n x)) := by
  rw [← hx]
  exact .flashed ..

theorem execFlashOpDone_coreSteps (ok : Bool) (s : State) : CoreSteps (.flashOpDone ok) (execFlashOpDone ok s) s := by
  unfold execFlashOpDone
  generalize List.replicate 65536 flashDefault = erased
  refine .live ?_
  dsimp only
  split
  · exact .same ..
  next o _ =>
    have hx : coreOf (setSec s (fun x => { x with flashOp := none })) = coreOf s := rfl
    split
    · cases o with
      | erase k => exact .of_flash ok hx (k * 65536) erased
      | program a bs => exact .of_flash ok hx a bs
    · exact .of_spoil ok (congrArg Kept.core (setSec_kept _ _ fun _ => rfl)) (opRange o).1 (opRange o).2

/-- A command that may not reset the device takes one of the ways: most keep the core, those of `storesDram` store into it, and those above have
their own. -/
theorem exec_coreSteps (i : Instr) (s : State) (hreset : mayReset i = false) : CoreSteps i (exec i s) s := by
  cases i with
  | perstFall | powerCycle | devReset | i3cResetGo | guardWindowWrite | registerWrite => cases hreset
  | bellStart env => exact execBellStart_coreSteps env s
  | fenceCut => exact execFenceCut_coreSteps s
  | guardOpen => exact execGuardOpen_coreSteps s
  | retrainPause ch drift vref => exact .of_keeps (execRetrainPause_kept ch drift vref s)
  | pagingBurst bad => exact .of_mem rfl (execPagingBurst_om bad s)
  | heartbeatSend => exact .of_keeps (execHeartbeatSend_kept s)
  | sextantApply => exact .of_keeps (execSextantApply_kept s)
  | bellInEdge offset => exact .of_keeps (execBellInEdge_kept offset s)
  | bellEdgeMissing => exact .of_keeps (execBellEdgeMissing_kept s)
  | schedBellCfgWrite value => exact .of_core (execSchedBellCfgWrite_kept value s)
  | helmHeartbeatTimeout core => exact .of_keeps (execHelmHeartbeatTimeout_kept core s)
  | boulevardRequest r => exact .of_mem rfl (execBoulevardRequest_om r s)
  | requestRetryTimeout r => exact .of_mem rfl (execRequestRetryTimeout_om r s)
  | detourReissue r => exact .of_mem rfl (execDetourReissue_om r s)
  | drainedReplySink quarter mark => exact .of_keeps (execDrainedReplySink_kept quarter mark s)
  | planLoad h addr len pad => exact .of_keeps (execPlanLoad_kept h addr len pad s)
  | planStage => exact .of_keeps (execPlanStage_kept s)
  | planDiscard => exact .of_keeps (execPlanDiscard_kept s)
  | planCopyDone bytes => exact .of_mem rfl (execPlanCopyDone_om bytes s)
  | planCheckDone line ecc => exact .of_keeps (execPlanCheckDone_kept line ecc s)
  | planApply => exact .of_keeps (execPlanApply_kept s)
  | planApplyTakeEffect => exact .of_keeps (execPlanApplyTakeEffect_kept s)
  | applyStepAdvance => exact .of_keeps (execApplyStepAdvance_kept s)
  | qtrEnable quarter => exact .of_keeps (execQtrEnable_kept quarter s)
  | qtrDisable quarter => exact .of_keeps (execQtrDisable_kept quarter s)
  | qtrRezoneGo quarter => exact .of_keeps (execQtrRezoneGo_kept quarter s)
  | qtrRezoneRetire quarter => exact .of_keeps (execQtrRezoneRetire_kept quarter s)
  | rezoneGo h quarter pad => exact .of_keeps (execRezoneGo_kept h quarter pad s)
  | rezoneRetire h quarter pad => exact .of_keeps (execRezoneRetire_kept h quarter pad s)
  | quarterClosingEdge quarter => exact .of_keeps (execQuarterClosingEdge_kept quarter s)
  | quarterDrained quarter => exact .of_keeps (execQuarterDrained_kept quarter s)
  | quarterEnterTarget quarter => exact .of_keeps (execQuarterEnterTarget_kept quarter s)
  | quarterLoadDone quarter ok => exact .of_keeps (execQuarterLoadDone_kept quarter ok s)
  | quarterBistDone quarter ok => exact .of_keeps (execQuarterBistDone_kept quarter ok s)
  | openSession h o => exact .of_mem rfl (execOpenSession_om h o s)
  | configureStream h o pad => exact .of_keeps (execConfigureStream_kept h o pad s)
  | configureRate h o => exact .of_keeps (execConfigureRate_kept h o s)
  | configureResilience h o => exact .of_keeps (execConfigureResilience_kept h o s)
  | configureHostTransport h o => exact .of_keeps (execConfigureHostTransport_kept h o s)
  | submitFrameAperture h o => exact .of_keeps (execSubmitFrameAperture_kept h o s)
  | submitFrameHost h o => exact .of_keeps (execSubmitFrameHost_kept h o s)
  | park h pad => exact .of_keeps (execPark_kept h pad s)
  | parkCold h pad => exact .of_keeps (execParkCold_kept h pad s)
  | resume h pad => exact .of_keeps (execResume_kept h pad s)
  | close h pad => exact .of_keeps (execClose_kept h pad s)
  | setRateBounds h o => exact .of_keeps (execSetRateBounds_kept h o s)
  | feedbackAck h frame pad => exact .of_keeps (execFeedbackAck_kept h frame pad s)
  | feedbackLoss h frame pad => exact .of_keeps (execFeedbackLoss_kept h frame pad s)
  | feedbackKeyRequest h pad => exact .of_keeps (execFeedbackKeyRequest_kept h pad s)
  | feedbackRateReport h loss est pad => exact .of_keeps (execFeedbackRateReport_kept h loss est pad s)
  | keyLoad h o => exact .of_keeps (execKeyLoad_kept h o s)
  | keyErase h o => exact .of_keeps (execKeyErase_kept h o s)
  | attachReceiver h o => exact .of_keeps (execAttachReceiver_kept h o s)
  | attachIngress h o => exact .of_keeps (execAttachIngress_kept h o s)
  | bindRxQueue h o => exact .of_keeps (execBindRxQueue_kept h o s)
  | detachReceiver h flow pad => exact .of_keeps (execDetachReceiver_kept h flow pad s)
  | unbindRxQueue h queue pad => exact .of_keeps (execUnbindRxQueue_kept h queue pad s)
  | decodeBind h o => exact .of_keeps (execDecodeBind_kept h o s)
  | decodeData h o => exact .of_keeps (execDecodeData_kept h o s)
  | decodeRelease h index pad => exact .of_keeps (execDecodeRelease_kept h index pad s)
  | decodeFlush h pad => exact .of_keeps (execDecodeFlush_kept h pad s)
  | snapshotSession h addr pad => exact .of_keeps (execSnapshotSession_kept h addr pad s)
  | snapshotFunction h addr pad => exact .of_keeps (execSnapshotFunction_kept h addr pad s)
  | commandEntryInvalid e => exact .of_keeps (execCommandEntryInvalid_kept e s)
  | parkComplete handle => exact .of_keeps (execParkComplete_kept handle s)
  | closeComplete handle => exact .of_keeps (execCloseComplete_kept handle s)
  | resumeComplete handle => exact .of_keeps (execResumeComplete_kept handle s)
  | idleLimitReached handle => exact .of_keeps (execIdleLimitReached_kept handle s)
  | sessCtrlWrite value => exact .of_core (execSessCtrlWrite_kept value s)
  | sessDepotWmWrite which value => exact .of_core (execSessDepotWmWrite_kept which value s)
  | sessCtxSelWrite value => exact .of_keeps (execSessCtxSelWrite_kept value s)
  | sessCtxCopyDone => exact .of_keeps (execSessCtxCopyDone_kept s)
  | effortLower handle => exact .of_keeps (execEffortLower_kept handle s)
  | effortRaise handle => exact .of_keeps (execEffortRaise_kept handle s)
  | bucketBoundary handle => exact .of_keeps (execBucketBoundary_kept handle s)
  | workUnitStart u => exact .of_keeps (execWorkUnitStart_kept u s)
  | tileRowEntropyStart t engine => exact .of_keeps (execTileRowEntropyStart_kept t engine s)
  | tileRowCoded t res => exact .of_keeps (execTileRowCoded_kept t res s)
  | bandCheck handle res => exact .of_mem rfl (execBandCheck_om handle res s)
  | fallbackBandCommit handle res => exact .of_mem rfl (execFallbackBandCommit_om handle res s)
  | packetizeBand handle pkts => exact .of_keeps (execPacketizeBand_kept handle pkts s)
  | bandDone handle => exact .of_keeps (execBandDone_kept handle s)
  | frameDone handle => exact .of_keeps (execFrameDone_kept handle s)
  | apertureWrite w => exact .of_mem rfl (execApertureWrite_om w s)
  | apertureRead page => exact .of_keeps (execApertureRead_kept page s)
  | rowFence f => exact .of_keeps (execRowFence_kept f s)
  | frameTruncate handle => exact .of_mem rfl (execFrameTruncate_om handle s)
  | hostRowsRead handle rows ok pieces => exact .of_mem rfl (execHostRowsRead_om handle rows ok pieces s)
  | ingestCtrlWrite value barOk => exact .of_core (execIngestCtrlWrite_kept value barOk s)
  | rcCtrlWrite value => exact .of_core (execRcCtrlWrite_kept value s)
  | rcDefaultsWrite which value => exact .of_core (execRcDefaultsWrite_kept which value s)
  | auReorderTimeout handle info => exact .of_keeps (execAuReorderTimeout_kept handle info s)
  | dataCopyDone handle info bytes => exact .of_mem rfl (execDataCopyDone_om handle info bytes s)
  | decodeOutput handle pic => exact .of_keeps (execDecodeOutput_kept handle pic s)
  | protectedFillDone buf => exact .of_mem rfl (execProtectedFillDone_om buf s)
  | decCtrlWrite value => exact .of_core (execDecCtrlWrite_kept value s)
  | microwordIssue engine mw => exact .of_keeps (execMicrowordIssue_kept engine mw s)
  | markWordComplete engine => exact .of_mem rfl (execMarkWordComplete_om engine s)
  | markWatchdog engine => exact .of_keeps (execMarkWatchdog_kept engine s)
  | selfShadowCheck handle first second => exact .of_keeps (execSelfShadowCheck_kept handle first second s)
  | selfShadowAbandon handle => exact .of_keeps (execSelfShadowAbandon_kept handle s)
  | caParityError ch failed => exact .of_keeps (execCaParityError_kept ch failed s)
  | rankSpareCopyDone ch => exact .of_keeps (execRankSpareCopyDone_kept ch s)
  | refreshInterval ch => exact .of_keeps (execRefreshInterval_kept ch s)
  | dimmTempPoll ch hot => exact .of_keeps (execDimmTempPoll_kept ch hot s)
  | trackerWindowReset ch => exact .of_keeps (execTrackerWindowReset_kept ch s)
  | throttleExpiry ch req => exact .of_keeps (execThrottleExpiry_kept ch req s)
  | dramInitDone => exact .of_keeps (execDramInitDone_kept s)
  | scrubRead ecc => exact .of_keeps (execScrubRead_kept ecc s)
  | memcMapWrite value => exact .of_keeps (execMemcMapWrite_kept value s)
  | memcCtrlWrite value => exact .of_keeps (execMemcCtrlWrite_kept value s)
  | allocate id who size promote => exact .of_keeps (execAllocate_kept id who size promote s)
  | claim id who buf => exact .of_keeps (execClaim_kept id who buf s)
  | release id who buf token => exact .of_keeps (execRelease_kept id who buf token s)
  | poolRelayout => exact .of_keeps (execPoolRelayout_kept s)
  | queueBeatWrite queue producer start beat => exact .of_keeps (execQueueBeatWrite_kept queue producer start beat s)
  | queueRead queue => exact .of_keeps (execQueueRead_kept queue s)
  | queueStallRelease queue => exact .of_keeps (execQueueStallRelease_kept queue s)
  | queueReserve queue producer beats => exact .of_keeps (execQueueReserve_kept queue producer beats s)
  | queueFlush value => exact .of_keeps (execQueueFlush_kept value s)
  | flushEnd queue => exact .of_keeps (execFlushEnd_kept queue s)
  | poolCtrlWrite value => exact .of_core (execPoolCtrlWrite_kept value s)
  | poolFnQuotaWrite fn cls value => exact .of_keeps (execPoolFnQuotaWrite_kept fn cls value s)
  | queueCtrlWrite value => exact .of_core (execQueueCtrlWrite_kept value s)
  | queueSelWrite value => exact .of_keeps (execQueueSelWrite_kept value s)
  | vfEnable count => exact execVfEnable_coreSteps count s
  | vfDisable => exact execVfDisable_coreSteps s
  | cmdqCtrlWrite fn ring value => exact .of_keeps (execCmdqCtrlWrite_kept fn ring value s)
  | cqCtrlWrite fn ring value => exact .of_keeps (execCqCtrlWrite_kept fn ring value s)
  | cmdqTailDb fn ring value => exact .of_keeps (execCmdqTailDb_kept fn ring value s)
  | commandFetch fn ring count fence => exact .of_keeps (execCommandFetch_kept fn ring count fence s)
  | completionPost fn ring ok => exact .of_keeps (execCompletionPost_kept fn ring ok s)
  | cqHeadDb fn ring value => exact .of_keeps (execCqHeadDb_kept fn ring value s)
  | dmaChEnable ch => exact .of_keeps (execDmaChEnable_kept ch s)
  | dmaChDisable ch => exact .of_keeps (execDmaChDisable_kept ch s)
  | dmaChDb ch => exact .of_keeps (execDmaChDb_kept ch s)
  | descriptorFetched ch d => exact .of_keeps (execDescriptorFetched_kept ch d s)
  | descriptorComplete ch data diff => exact .of_mem rfl (execDescriptorComplete_om ch data diff s)
  | dmaRetry ch => exact .of_keeps (execDmaRetry_kept ch s)
  | dmaChOwnerWrite fn ch value => exact .of_keeps (execDmaChOwnerWrite_kept fn ch value s)
  | linkStateChange port up => exact .of_keeps (execLinkStateChange_kept port up s)
  | rxFrame f => exact .of_keeps (execRxFrame_kept f s)
  | shaperRefill => exact .of_keeps (execShaperRefill_kept s)
  | policerRefill => exact .of_keeps (execPolicerRefill_kept s)
  | portTxSelect port => exact .of_keeps (execPortTxSelect_kept port s)
  | senderReportTimer => exact .of_keeps (execSenderReportTimer_kept s)
  | rxqRaiseHoldoff fn queue => exact .of_keeps (execRxqRaiseHoldoff_kept fn queue s)
  | detachComplete flow => exact .of_keeps (execDetachComplete_kept flow s)
  | netCtrlWrite value => exact .of_core (execNetCtrlWrite_kept value s)
  | netPortCfgWrite port value => exact .of_keeps (execNetPortCfgWrite_kept port value s)
  | netPtpLatch value => exact .of_keeps (execNetPtpLatch_kept value s)
  | ppsInEdge port => exact .of_keeps (execPpsInEdge_kept port s)
  | ppsOutSecond port => exact .of_keeps (execPpsOutSecond_kept port s)
  | tandemCtrlWrite value => exact .of_keeps (execTandemCtrlWrite_kept value s)
  | tandemRoleWrite value => exact .of_keeps (execTandemRoleWrite_kept value s)
  | tandemHello lanes => exact .of_keeps (execTandemHello_kept lanes s)
  | tandemAuth ok partnerBell => exact .of_keeps (execTandemAuth_kept ok partnerBell s)
  | authRetry => exact .of_keeps (execAuthRetry_kept s)
  | linkRetransmit seq => exact .of_keeps (execLinkRetransmit_kept seq s)
  | mirror m => exact .of_keeps (execMirror_kept m s)
  | shadowDecodeDone handle v => exact .of_keeps (execShadowDecodeDone_kept handle v s)
  | shadowRecheckDone handle v => exact .of_keeps (execShadowRecheckDone_kept handle v s)
  | tandemAck link handle frame kind => exact .of_mem rfl (execTandemAck_om link handle frame kind s)
  | ackTimeout handle => exact .of_mem rfl (execAckTimeout_om handle s)
  | tandemConfig link handle cmd => exact .of_mem rfl (execTandemConfig_om link handle cmd s)
  | tandemConfigReply link handle code => exact .of_mem rfl (execTandemConfigReply_om link handle code s)
  | tandemNak link code => exact .of_keeps (execTandemNak_kept link code s)
  | heartbeat m => exact .of_keeps (execHeartbeat_kept m s)
  | heartbeatMissed => exact .of_mem rfl (execHeartbeatMissed_om s)
  | tandemNotice kind => exact .of_keeps (execTandemNotice_kept kind s)
  | takeover => exact .of_mem rfl (execTakeover_om s)
  | shadowSync handle => exact .of_keeps (execShadowSync_kept handle s)
  | syncDone => exact .of_keeps (execSyncDone_kept s)
  | handover handle => exact .of_keeps (execHandover_kept handle s)
  | irqMessage target => exact .of_keeps (execIrqMessage_kept target s)
  | irqClaim target => exact .of_keeps (execIrqClaim_kept target s)
  | irqComplete target value => exact .of_keeps (execIrqComplete_kept target value s)
  | irqPendSet value => exact .of_keeps (execIrqPendSet_kept value s)
  | irqSrcCfgWrite id value => exact .of_keeps (execIrqSrcCfgWrite_kept id value s)
  | fnIrqClaim fn vec => exact .of_keeps (execFnIrqClaim_kept fn vec s)
  | fnIrqComplete fn vec value => exact .of_keeps (execFnIrqComplete_kept fn vec value s)
  | fnIrqPendSet fn value => exact .of_keeps (execFnIrqPendSet_kept fn value s)
  | fnIrqSrcCfgWrite fn src value => exact .of_keeps (execFnIrqSrcCfgWrite_kept fn src value s)
  | fnIrqDmaCfgWrite fn src value => exact .of_keeps (execFnIrqDmaCfgWrite_kept fn src value s)
  | msixMaskWrite fn vec mask => exact .of_keeps (execMsixMaskWrite_kept fn vec mask s)
  | evqCtrlWrite fn value => exact .of_keeps (execEvqCtrlWrite_kept fn value s)
  | evqHeadDb fn value => exact .of_keeps (execEvqHeadDb_kept fn value s)
  | eventRecordPost fn ok => exact .of_keeps (execEventRecordPost_kept fn ok s)
  | watchEvent watch kind code inj place => exact .of_keeps (execWatchEvent_kept watch kind code inj place s)
  | errPulseEnd => exact .of_keeps (execErrPulseEnd_kept s)
  | watchStatusWrite watch value => exact .of_keeps (execWatchStatusWrite_kept watch value s)
  | watchCfgWrite watch value => exact .of_keeps (execWatchCfgWrite_kept watch value s)
  | watchInject watch value => exact .of_keeps (execWatchInject_kept watch value s)
  | devErrPinWrite value => exact .of_core (execDevErrPinWrite_kept value s)
  | bistTargetDone r => exact .of_keeps (execBistTargetDone_kept r s)
  | sextantMeasure m => exact .of_keeps (execSextantMeasure_kept m s)
  | sextCoefGainWrite value => exact .of_keeps (execSextCoefGainWrite_kept value s)
  | sextCoefOffsetWrite value => exact .of_keeps (execSextCoefOffsetWrite_kept value s)
  | sextCtrlWrite value => exact .of_core (execSextCtrlWrite_kept value s)
  | bistCtrlWrite value => exact .of_core (execBistCtrlWrite_kept value s)
  | engineGate engine => exact .of_keeps (execEngineGate_kept engine s)
  | engineUngate engine => exact .of_keeps (execEngineUngate_kept engine s)
  | hoveToEnter enter => exact .of_keeps (execHoveToEnter_kept enter s)
  | powerExitDone => exact .of_keeps (execPowerExitDone_kept s)
  | devLatencyTolWrite value => exact .of_core (execDevLatencyTolWrite_kept value s)
  | thermtrip sensor => exact execThermtrip_coreSteps sensor s
  | perstRise straps => exact execPerstRise_coreSteps straps s
  | bootRomDone misread => exact .of_keeps (execBootRomDone_kept misread s)
  | bootLoadDone misread => exact .of_keeps (execBootLoadDone_kept misread s)
  | bootTrainDone env => exact .of_keeps (execBootTrainDone_kept env s)
  | bootInitDone misread => exact .of_mem rfl (execBootInitDone_om misread s)
  | i3cTelemetry => exact .of_keeps (execI3cTelemetry_kept s)
  | i3cResetArm => exact .of_keeps (execI3cResetArm_kept s)
  | getVersion via => exact .of_keeps (execGetVersion_kept via s)
  | getCapabilities via => exact .of_keeps (execGetCapabilities_kept via s)
  | negotiateAlgorithms via => exact .of_keeps (execNegotiateAlgorithms_kept via s)
  | getDigests via => exact .of_keeps (execGetDigests_kept via s)
  | getCertificate via => exact .of_keeps (execGetCertificate_kept via s)
  | challenge via => exact .of_keeps (execChallenge_kept via s)
  | getMeasurements via => exact .of_keeps (execGetMeasurements_kept via s)
  | secFuseSvn value => exact execSecFuseSvn_coreSteps value s
  | fuseOwnerProgram slot => exact execFuseOwnerProgram_coreSteps slot s
  | fuseOwnerRevoke slot => exact execFuseOwnerRevoke_coreSteps slot s
  | fuseBurnDone => exact execFuseBurnDone_coreSteps s
  | flashErase => exact .of_keeps (execFlashErase_kept s)
  | flashProgram data => exact .of_keeps (execFlashProgram_kept data s)
  | flashOpDone ok => exact execFlashOpDone_coreSteps ok s
  | guardedFirstWrite req off value => exact .of_keeps (execGuardedFirstWrite_kept req off value s)
  | guardTimeout req => exact .of_keeps (execGuardTimeout_kept req s)
  | accessSizeError a => exact .of_keeps (execAccessSizeError_kept a s)
  | unimplementedAccess a => exact .of_keeps (execUnimplementedAccess_kept a s)
  | tandemLinkTrainsAgain => exact .of_keeps (execTandemLinkTrainsAgain_kept s)
  | dmaBusError ch err => exact .of_keeps (execDmaBusError_kept ch err s)

/-- Settles O54: each clause is what the ways of a command's core leave alone. -/
theorem onlyNamedCommandsReachMemoryFlashAndFuses : Obligations.OnlyNamedCommandsReachMemoryFlashAndFuses := by
  intro i s t hreset ht
  have h := exec_coreSteps i s hreset t ht
  have hdev : _ → _ → coreDev t.dev = coreDev s.dev := h.dev_eq
  simp only [coreDev_eq, Prod.mk.injEq] at hdev
  refine ⟨fun hi a => ?mem, fun hi a => ?flash, ?fuses, h.vf_eq, ?bell, hdev⟩
  case mem => exact congrArg (rdCell memDefault · a) (h.mem_eq hi)
  case flash => exact congrArg (rdCell flashDefault · a) (h.flash_eq hi)
  case fuses => exact h.fuses_eq
  case bell => exact h.bell_eq

end Sys2Proof.Machine
end

section
/-! Engines: the words that they run, their marks and their watchdog, the checks of the self-shadow and the engine gates, and the statement on them
(R289 to R300, R310, R311, R519, R520). -/

namespace Sys2Proof.Machine
open Sys2Proof

theorem exec_microwordIssue (e : Nat) (m : MicroIn) (s : State) : exec (.microwordIssue e m) s = execMicrowordIssue e m s := rfl
theorem exec_markWordComplete (e : Nat) (s : State) : exec (.markWordComplete e) s = execMarkWordComplete e s := rfl
theorem exec_markWatchdog (e : Nat) (s : State) : exec (.markWatchdog e) s = execMarkWatchdog e s := rfl
theorem exec_selfShadowCheck (n : Nat) (a : Verdict) (b : Second) (s : State) : exec (.selfShadowCheck n a b) s = execSelfShadowCheck n a b s := rfl
theorem exec_selfShadowAbandon (n : Nat) (s : State) : exec (.selfShadowAbandon n) s = execSelfShadowAbandon n s := rfl
theorem exec_engineGate (e : Nat) (s : State) : exec (.engineGate e) s = execEngineGate e s := rfl
theorem exec_engineUngate (e : Nat) (s : State) : exec (.engineUngate e) s = execEngineUngate e s := rfl

/-! The slots of a nano-word count no cycles (R292, R295). -/

theorem vectorSlots_busyNow (nn : BitVec 288) (ctr : Nat) (e : Engine) : (vectorSlots nn ctr e).busyNow = e.busyNow := by
  unfold vectorSlots
  (repeat' split) <;> rfl

theorem scalarSlot_busyNow (nn : BitVec 288) (ctr : Nat) (e : Engine) : (scalarSlot nn ctr e).busyNow = e.busyNow := by
  unfold scalarSlot
  (repeat' split) <;> rfl

theorem lmemPuts_busyNow (e : Engine) (a : Nat) (bs : List Byte) : (lmemPuts e a bs).busyNow = e.busyNow := by
  induction bs generalizing e a with
  | nil => rfl
  | cons b t ih => exact ih (lmemPut e a b) (a + 1)

theorem lmemRows_busyNow (l : List Nat) (a : Nat → Nat) (bs : Nat → List Byte) (e : Engine) :
    (l.foldl (fun e r => lmemPuts e (a r) (bs r)) e).busyNow = e.busyNow := by
  induction l generalizing e with
  | nil => rfl
  | cons r t ih => exact (ih _).trans (lmemPuts_busyNow e (a r) (bs r))

theorem lmemSlot_busyNow (nn : BitVec 288) (ctr : Nat) (e : Engine) : (lmemSlot nn ctr e).busyNow = e.busyNow := by
  unfold lmemSlot
  dsimp only
  split
  case h_2 => exact lmemRows_busyNow ..
  case h_4 => exact lmemPuts_busyNow ..
  all_goals rfl

theorem blvdSlot_busyNow (nn : BitVec 288) (s : State) (q : Nat) (e : Engine) : (blvdSlot nn s q e).busyNow = e.busyNow := by
  unfold blvdSlot
  dsimp only
  split
  case h_1 | h_4 => exact lmemPuts_busyNow ..
  all_goals rfl

theorem entropySlot_busyNow (nn : BitVec 288) (ea : BitVec 4) (e : Engine) : (entropySlot nn ea e).busyNow = e.busyNow := by
  unfold entropySlot
  split <;> rfl

theorem miscSlot_busyNow (nn : BitVec 288) (imm : Nat) (e : Engine) : (miscSlot nn imm e).busyNow = e.busyNow := by
  unfold miscSlot
  split <;> rfl

theorem nanoOps_busyNow (w : Issue) (s : State) (q : Nat) (e : Engine) : (nanoOps w s q e).busyNow = e.busyNow := by
  rw [nanoOps, miscSlot_busyNow, entropySlot_busyNow, blvdSlot_busyNow, lmemSlot_busyNow, scalarSlot_busyNow, vectorSlots_busyNow]

/-! The sequencer, NXT by NXT (R291). -/

section
variable {e : Engine} {w : Issue}

theorem sequence_of_next (h : field w.micro 28 26 = 0) : (sequence e w).1 = e.pc + 1 := by
  simp only [sequence, h]

theorem sequence_of_branch (h : field w.micro 28 26 = 1 ∨ field w.micro 28 26 = 2) : (sequence e w).1 = branchTo e w := by
  rcases h with h | h <;> simp only [sequence, h]

theorem sequence_of_return (h : field w.micro 28 26 = 3) : (sequence e w).1 = e.stack.headD 0 := by
  simp only [sequence, h]

theorem sequence_of_loop (h : field w.micro 28 26 = 4) : (sequence e w).1 = if e.lc = 0 ∨ e.lc = 1 then e.pc + 1 else branchTo e w := by
  have hlast : e.lc - 1 = 0 ↔ e.lc = 1 := sub_eq_zero
  simp only [sequence, h]
  by_cases h0 : e.lc = 0
  · rw [if_pos h0, if_pos (.inl h0)]
  · rw [if_neg h0]
    simp only [hlast, h0, false_or]

theorem sequence_of_resume (h : field w.micro 28 26 = 6) : (sequence e w).1 = e.saved := by
  simp only [sequence, h]

end

/-! A word without a fault (R291, R292, R296, R298). -/

/-- The cycles that a word takes: those that it stalled and its own (R292). -/
def wordCycles (w : Issue) : Nat := w.env.stall + cycles (field w.micro 17 15)

/-- A mark word (R297): MARK is set, or NXT is DISPATCH. -/
def isMark (w : Issue) : Bool := w.micro.getLsbD 14 || decide (field w.micro 28 26 = 5)

/-- The engine once the operations of a word are done, before it sequences. -/
def wordOps (s : State) (e : Nat) (w : Issue) : Engine :=
  nanoOps w s (e / 32) { engOf s e with stack := (sequence (engOf s e) w).2.1, lc := (sequence (engOf s e) w).2.2 }

/-- The engine after a word without a fault, its sequencing and its count of cycles included. -/
def afterWord (s : State) (e : Nat) (w : Issue) : Engine :=
  { wordOps s e w with
    gap := (engOf s e).gap + wordCycles w, hwm := max (wordOps s e w).hwm (stagedCount (wordOps s e w).staging),
    busyNow := (wordOps s e w).busyNow + wordCycles w, pc := if isMark w then (wordOps s e w).pc else (sequence (engOf s e) w).1,
    inMark := if isMark w then some (if field w.micro 28 26 = 5 then .dispatch else .goto (sequence (engOf s e) w).1) else none,
    state := if field w.micro 28 26 = 6 then 3 else (wordOps s e w).state,
    abandoned := if field w.micro 28 26 = 6 then false else (wordOps s e w).abandoned }

/-- The state after a word without a fault; its four free values are drawn (R295). -/
def ranWord (s : State) (e : Nat) (w : Issue) : State := { setEng s e (fun _ => afterWord s e w) with freeCtr := s.freeCtr + 4 }

section
variable {s : State} {e : Nat} {w : Issue}

theorem engOf_ranWord : engOf (ranWord s e w) e = afterWord s e w := engOf_setEng s e (fun _ => afterWord s e w)

theorem engOf_ranWord_ne {k : Nat} (hk : k ≠ e) : engOf (ranWord s e w) k = engOf s k := engOf_setEng_ne s (fun _ => afterWord s e w) hk

theorem afterWord_busyNow : (afterWord s e w).busyNow = (engOf s e).busyNow + wordCycles w :=
  congrArg (· + wordCycles w) (nanoOps_busyNow ..)

theorem afterWord_pc_of_unmarked (hm : isMark w = false) : (afterWord s e w).pc = (sequence (engOf s e) w).1 :=
  if_neg (ne_true_of_eq_false hm)

theorem afterWord_inMark_of_unmarked (hm : isMark w = false) : (afterWord s e w).inMark = none :=
  if_neg (ne_true_of_eq_false hm)

theorem afterWord_inMark_of_marked (hm : isMark w = true) :
    (afterWord s e w).inMark = some (if field w.micro 28 26 = 5 then .dispatch else .goto (sequence (engOf s e) w).1) :=
  if_pos hm

section
variable (hstaged : stagedCount (wordOps s e w).staging ≤ 32)
include hstaged

theorem runWord_of_short (hgap : (engOf s e).gap + wordCycles w < 8192) : runWord e w s = ranWord s e w :=
  (if_neg (Nat.not_lt.mpr hstaged)).trans (if_neg (Nat.not_le.mpr hgap))

theorem runWord_of_long (hgap : 8192 ≤ (engOf s e).gap + wordCycles w) : runWord e w s = engFault e 1 s :=
  (if_neg (Nat.not_lt.mpr hstaged)).trans (if_pos hgap)

end
end

/-- A sample under way is abandoned (R310). -/
theorem abandonSample_of_sampled {s : State} {n q : Nat} {l : List Nat} {x : Session} (hx : look s.sessions n = some x)
    (hsh : shadowsOf s n = q :: l) :
    abandonSample n s = endSample n (setQtr s x.quarter (fun t => { t with shAband := up t.shAband 1 })) := by
  rw [abandonSample, hx, hsh]
  rfl

section
variable {s : State} {e : Nat} (hr : Runs s)
include hr

section
variable {m : MicroIn} (he : e < 512) (hruns : engRuns (engOf s e) = true)
include he hruns

theorem execMicrowordIssue_of_fault {k : Nat} (hf : wordFault (engOf s e) (issueOf s e m) = some k) :
    execMicrowordIssue e m s = .next (engFault e k s) := by
  have hissues : ¬ (512 ≤ e ∨ (!engRuns (engOf s e)) = true) := by simp [he, hruns]
  rw [execMicrowordIssue, live_of_runs _ hr, if_neg hissues, hf]

theorem execMicrowordIssue_of_word (hf : wordFault (engOf s e) (issueOf s e m) = none) :
    execMicrowordIssue e m s = .next (runWord e (issueOf s e m) s) := by
  have hissues : ¬ (512 ≤ e ∨ (!engRuns (engOf s e)) = true) := by simp [he, hruns]
  rw [execMicrowordIssue, live_of_runs _ hr, if_neg hissues, hf]

end

/-! A completed mark, and the watchdog (R297, R298, R300). -/

/-- The engine once its mark has completed and its staged writes are published. -/
def published (x : Engine) : Engine :=
  { x with staging := [], inMark := none, gapMax := max x.gapMax x.gap, gap := 0, marks := up x.marks 1, savedS := x.sregs }

/-- The engine that a pending cancel sends to its handler (R300): the staged writes are discarded and the scalars are those of the last mark. -/
def cancelled (x : Engine) : Engine :=
  { x with
    staging := [], sregs := x.savedS, pc := 4, state := 4, inMark := none, abandoned := true, gapMax := max x.gapMax x.gap, gap := 0,
    marks := up x.marks 1, cancel := false, deadline := false, evCancel := up8 x.evCancel }

section
variable (hc : (engOf s e).cancel = false) (hd : (engOf s e).deadline = false)
include hc hd

theorem execMarkWordComplete_of_goto {p : Nat} (hm : (engOf s e).inMark = some (.goto p)) :
    execMarkWordComplete e s =
      .next (setEng (publish (e / 32) (engOf s e).staging s) e (fun x => { published x with pc := p, saved := p })) := by
  rw [execMarkWordComplete, live_of_runs _ hr]
  dsimp only
  rw [hm, hc, hd]
  rfl

theorem execMarkWordComplete_of_dispatch {u : UnitRef} (hm : (engOf s e).inMark = some .dispatch) (ha : (engOf s e).abandoned = false)
    (hu : (engOf s e).unit = some u) :
    execMarkWordComplete e s =
      .next (unitDone u (setEng (publish (e / 32) (engOf s e).staging s) e
        (fun x => { published x with state := 2, unit := none, abandoned := false, cancel := false, deadline := false }))) := by
  rw [execMarkWordComplete, live_of_runs _ hr]
  dsimp only
  rw [hm, hc, hd, hu, ha]
  rfl

end

theorem execMarkWordComplete_of_cancel {m : MarkNext} (hm : (engOf s e).inMark = some m) (hc : (engOf s e).cancel = true) :
    execMarkWordComplete e s = .next (setEng s e cancelled) := by
  rw [execMarkWordComplete, live_of_runs _ hr]
  dsimp only
  rw [hm, hc]
  simp only [Bool.true_or, if_true, setEng, hc, cancelled]

theorem execMarkWatchdog_of_busy (he : e < 512) (hs : (engOf s e).state = 3 ∨ (engOf s e).state = 4) :
    execMarkWatchdog e s = .next (engFault e 1 (setEng s e (fun x => { x with gap := max x.gap 8192 }))) := by
  have hbusy : ¬ (512 ≤ e ∨ ¬ ((engOf s e).state = 3 ∨ (engOf s e).state = 4)) := by simp [he, hs]
  rw [execMarkWatchdog, live_of_runs _ hr]
  exact congrArg Host.Outcome.next (if_neg hbusy)

/-! The self-shadow's checks (R310, R311). -/

section
variable {n q : Nat} {l : List Nat} {x : Session} (hx : look s.sessions n = some x) (hsh : shadowsOf s n = q :: l)
include hx hsh

theorem execSelfShadowAbandon_of_sampled :
    execSelfShadowAbandon n s = .next (endSample n (setQtr s x.quarter (fun t => { t with shAband := up t.shAband 1 }))) := by
  rw [execSelfShadowAbandon, live_of_runs _ hr, abandonSample_of_sampled hx hsh]

theorem execSelfShadowCheck_of_lost (v : Second) : execSelfShadowCheck n .lost v s = .next (abandonSample n s) := by
  rw [execSelfShadowCheck, live_of_runs _ hr, hx, hsh]
  rfl

theorem execSelfShadowCheck_of_agree (v : Second) :
    execSelfShadowCheck n .agree v s = .next (endSample n (setQtr s x.quarter (fun t => { t with shFrames := up t.shFrames 1 }))) := by
  rw [execSelfShadowCheck, live_of_runs _ hr, hx, hsh]
  rfl

theorem execSelfShadowCheck_of_firstShadow :
    execSelfShadowCheck n .differ .firstShadow s =
      .next (retireByCheck x.quarter n (endSample n (setQtr s x.quarter (fun t => { t with shFrames := up t.shFrames 1 })))) := by
  rw [execSelfShadowCheck, live_of_runs _ hr, hx, hsh]
  rfl

theorem execSelfShadowCheck_of_record :
    execSelfShadowCheck n .differ .record s =
      .next (retireByCheck q n (endSample n (setQtr s x.quarter (fun t => { t with shFrames := up t.shFrames 1 })))) := by
  rw [execSelfShadowCheck, live_of_runs _ hr, hx, hsh]
  rfl

end

/-! The engine gates (R519, R520). -/

theorem execEngineGate_of_idle (hg : s.plan.cfg.gating = 1) (he : e < 512) (hidle : gangIdle s e = true) :
    execEngineGate e s = .next { s with pwr := { s.pwr with gated := (gangOf s e).foldl addS s.pwr.gated } } := by
  have hacts : ¬ (s.plan.cfg.gating ≠ 1 ∨ 512 ≤ e ∨ gangIdle s e = false) := by simp [hg, he, hidle]
  rw [execEngineGate, live_of_runs _ hr, if_neg hacts]

theorem execEngineUngate_of_wanted (he : e < 512) (hw : gangWanted s e = true) :
    execEngineUngate e s = .next { s with pwr := { s.pwr with gated := (gangOf s e).foldl remS s.pwr.gated } } := by
  have hacts : ¬ (512 ≤ e ∨ gangWanted s e = false) := by simp [he, hw]
  rw [execEngineUngate, live_of_runs _ hr, if_neg hacts]

theorem execEngineUngate_of_unwanted (h : 512 ≤ e ∨ gangWanted s e = false) : execEngineUngate e s = .next s := by
  rw [execEngineUngate, live_of_runs _ hr, if_pos h]

end

/-- Settles O17: a word's effect is read off the engine that it leaves, and every other clause is one case of its command. -/
theorem enginesRunAndAreChecked : Obligations.EnginesRunAndAreChecked := by
  unfold Obligations.EnginesRunAndAreChecked
  simp only [exec_microwordIssue, exec_markWordComplete, exec_markWatchdog, exec_selfShadowCheck, exec_selfShadowAbandon, exec_engineGate,
    exec_engineUngate, Completes]
  refine ⟨?word, ?markWord, ?long, ?fault, ?goto, ?dispatch, ?cancel, ?watchdog, ?agree, ?lost, ?firstShadow, ?record, ?abandon, ?gate, ?ungate,
    ?unwanted⟩
  case word =>
    intro e m s hr he hruns hf hstaged hgap hm
    refine ⟨ranWord s e (issueOf s e m), ?_, ?_⟩
    · rw [execMicrowordIssue_of_word hr he hruns hf, runWord_of_short hstaged hgap]
    rw [engOf_ranWord, afterWord_pc_of_unmarked hm]
    exact ⟨sequence_of_next, sequence_of_branch, sequence_of_return, sequence_of_loop,
      fun h => ⟨sequence_of_resume h, if_pos h, if_pos h⟩, afterWord_inMark_of_unmarked hm, rfl, afterWord_busyNow,
      fun _ => engOf_ranWord_ne, rfl⟩
  case markWord =>
    intro e m s hr he hruns hf hstaged hgap hm
    refine ⟨ranWord s e (issueOf s e m), ?_, ?_⟩
    · rw [execMicrowordIssue_of_word hr he hruns hf, runWord_of_short hstaged hgap]
    rw [engOf_ranWord]
    exact ⟨afterWord_inMark_of_marked hm, rfl, fun _ => engOf_ranWord_ne, rfl⟩
  case long =>
    intro e m s hr he hruns hf hstaged hgap
    rw [execMicrowordIssue_of_word hr he hruns hf, runWord_of_long hstaged hgap]
  case fault => exact fun e k m s hr he hruns hf => execMicrowordIssue_of_fault hr he hruns hf
  case goto => exact fun e p s hr hm hc hd => execMarkWordComplete_of_goto hr hc hd hm
  case dispatch => exact fun e u s hr hm hc hd ha hu => execMarkWordComplete_of_dispatch hr hc hd hm ha hu
  case cancel =>
    intro e m s hr hm hc _
    refine ⟨_, execMarkWordComplete_of_cancel hr hm hc, ?_⟩
    rw [engOf_setEng]
    exact ⟨rfl, rfl, rfl, rfl, fun k hk => engOf_setEng_ne s cancelled hk, rfl⟩
  case watchdog => exact fun e s hr he hs => execMarkWatchdog_of_busy hr he hs
  case agree => exact fun n q l x v s hr hx hsh => execSelfShadowCheck_of_agree hr hx hsh v
  case lost => exact fun n q l x v s hr hx hsh => execSelfShadowCheck_of_lost hr hx hsh v
  case firstShadow => exact fun n q l x s hr hx hsh => execSelfShadowCheck_of_firstShadow hr hx hsh
  case record => exact fun n q l x s hr hx hsh => execSelfShadowCheck_of_record hr hx hsh
  case abandon => exact fun n q l x s hr hx hsh => execSelfShadowAbandon_of_sampled hr hx hsh
  case gate => exact fun e s hr hg he hidle => execEngineGate_of_idle hr hg he hidle
  case ungate => exact fun e s hr he hw => execEngineUngate_of_wanted hr he hw
  case unwanted => exact fun e s hr h => execEngineUngate_of_unwanted hr h

end Sys2Proof.Machine
end

section
/-! Memory channels: parity retries, spare copies, refresh, the row tracker and its throttles, the end of initialisation and the scrub, and the
statement on them (R326, R328 to R336, R340). -/

namespace Sys2Proof.Machine
open Sys2Proof

theorem exec_caParityError (c k : Nat) (s : State) : exec (.caParityError c k) s = execCaParityError c k s := rfl
theorem exec_rankSpareCopyDone (c : Nat) (s : State) : exec (.rankSpareCopyDone c) s = execRankSpareCopyDone c s := rfl
theorem exec_refreshInterval (c : Nat) (s : State) : exec (.refreshInterval c) s = execRefreshInterval c s := rfl
theorem exec_dimmTempPoll (c : Nat) (hot : Bool) (s : State) : exec (.dimmTempPoll c hot) s = execDimmTempPoll c hot s := rfl
theorem exec_trackerWindowReset (c : Nat) (s : State) : exec (.trackerWindowReset c) s = execTrackerWindowReset c s := rfl
theorem exec_throttleExpiry (c : Nat) (r : ReqId) (s : State) : exec (.throttleExpiry c r) s = execThrottleExpiry c r s := rfl
theorem exec_dramInitDone (s : State) : exec .dramInitDone s = execDramInitDone s := rfl
theorem exec_scrubRead (x : Ecc) (s : State) : exec (.scrubRead x) s = execScrubRead x s := rfl

section
variable {s : State} (hr : Runs s) {c : Nat}
include hr

/-! Parity errors (R326). -/

theorem execCaParityError_of_cleared {k : Nat} (hc : c < 12) (h1 : 1 ≤ k) (h3 : k < 3) :
    execCaParityError c k s = .next (setChan s c (fun x => { x with caRetry := up x.caRetry k })) := by
  have hreal : ¬ (12 ≤ c ∨ k = 0) := by omega
  have hmin : min k 2 = k := by omega
  rw [execCaParityError, live_of_runs _ hr]
  simp only [if_neg hreal, if_neg (Nat.not_le.mpr h3), hmin]

theorem execCaParityError_of_failed {k : Nat} (hc : c < 12) (h3 : 3 ≤ k) :
    execCaParityError c k s = .next (raise (winChan c) 4 0 false (fun s => safeState (winChan c) (setChan s c (fun x => { x with state := 6 })))
      (setChan s c (fun x => { x with caRetry := up x.caRetry 2 }))) := by
  have hreal : ¬ (12 ≤ c ∨ k = 0) := by omega
  have hmin : min k 2 = 2 := by omega
  rw [execCaParityError, live_of_runs _ hr]
  simp only [if_neg hreal, if_pos h3, hmin]

/-! Spare copies, refresh and the row tracker (R330, R331, R333). -/

theorem execRankSpareCopyDone_of_copying {r : Nat} (hcopy : (chanOf s c).copying = some r) :
    execRankSpareCopyDone c s = .next (deviceEvent 0x0E0C (setChan s c (fun x => { x with copying := none, spared := r, state := 3 }))) := by
  rw [execRankSpareCopyDone, live_of_runs _ hr, hcopy]

theorem execRefreshInterval_of_up (hup : chanUp s c = true) :
    execRefreshInterval c s =
      .next (emit (.refresh c (chanOf s c).x2) (setChan s c (fun x => { x with throttled := x.throttled.map (fun e => (e.1, e.2 - 1)) }))) := by
  rw [execRefreshInterval, live_of_runs _ hr, if_pos hup]

theorem execDimmTempPoll_of_up (hot : Bool) (hup : chanUp s c = true) :
    execDimmTempPoll c hot s = .next (setChan s c (fun x => { x with x2 := hot })) := by
  rw [execDimmTempPoll, live_of_runs _ hr, if_pos hup]

theorem execTrackerWindowReset_of_lt (hc : c < 12) : execTrackerWindowReset c s = .next (setChan s c (fun x => { x with acts := [] })) := by
  rw [execTrackerWindowReset, live_of_runs _ hr, if_pos hc]

theorem execThrottleExpiry_of_due {r : ReqId} (hdue : look (chanOf s c).throttled r.toNat = some 0) :
    execThrottleExpiry c r s = .next (setChan s c (fun x => { x with
      throttled := del x.throttled r.toNat,
      lastThr := if fld x.lastThr 31 22 = r.toNat then merge x.lastThr 1 0 else x.lastThr })) := by
  rw [execThrottleExpiry, live_of_runs _ hr, if_pos hdue]

/-! The end of initialisation (R336). -/

/-- With no buffer withdrawn, the free list of each class is one run of all its buffers. -/
theorem execDramInitDone_of_none_gone (hinit : s.memc.initDone = false) (hstage : s.sec.stage = 3 ∨ s.sec.stage = 4) (hgone : s.pool.gone = []) :
    execDramInitDone s = .next { s with
      memc := { s.memc with initDone := true, initGib := capacity s / 2 ^ 30 },
      pool := { s.pool with free := s.pool.count.map (fun e => (e.1, [(0, e.2)])) } } := by
  have hdue : ¬ (s.memc.initDone = true ∨ s.sec.stage < 3 ∨ 4 < s.sec.stage) := by
    simp only [hinit, Bool.false_eq_true, false_or]
    omega
  rw [execDramInitDone, live_of_runs _ hr, if_neg hdue, hgone]
  rfl

/-! The scrub (R340). -/

/-- A scrub read without an error only moves the patrol on, whether or not its line is poisoned. -/
theorem execScrubRead_of_clean (hon : bit s.memc.scrubCfg 0 = true) (hen : s.memc.en = true) (hpwr : s.pwr.state < 3) :
    execScrubRead .clean s = .next (if capacity s ≤ s.memc.scrubPos * 64 + 64
      then { s with memc := { s.memc with scrubPos := 0, passes := up16 s.memc.passes } }
      else { s with memc := { s.memc with scrubPos := s.memc.scrubPos + 1 } }) := by
  have hruns : ¬ (!bit s.memc.scrubCfg 0 || !s.memc.en || decide (3 ≤ s.pwr.state)) = true := by simp [hon, hen, hpwr]
  rw [execScrubRead, live_of_runs _ hr, if_neg hruns]
  simp only [ite_self]

end

/-- Settles O18: each clause is the case of its command that its hypotheses name; a throttle's expiry and a scrub read differ between their two
clauses in one test alone. -/
theorem memoryChannelsAreKept : Obligations.MemoryChannelsAreKept := by
  unfold Obligations.MemoryChannelsAreKept
  simp only [exec_caParityError, exec_rankSpareCopyDone, exec_refreshInterval, exec_dimmTempPoll, exec_trackerWindowReset, exec_throttleExpiry,
    exec_dramInitDone, exec_scrubRead]
  refine ⟨?cleared, ?failed, ?copied, ?refresh, ?poll, ?tracker, ?expiry, ?lastExpiry, ?init, ?scrub, ?pass⟩
  case cleared => exact fun c k s hr hc h1 h3 => execCaParityError_of_cleared hr hc h1 h3
  case failed => exact fun c k s hr hc h3 => execCaParityError_of_failed hr hc h3
  case copied => exact fun c r s hr hcopy => execRankSpareCopyDone_of_copying hr hcopy
  case refresh => exact fun c s hr hup => execRefreshInterval_of_up hr hup
  case poll => exact fun c hot s hr hup => execDimmTempPoll_of_up hr hot hup
  case tracker => exact fun c s hr hc => execTrackerWindowReset_of_lt hr hc
  case expiry =>
    intro c r s hr hdue hlast
    rw [execThrottleExpiry_of_due hr hdue, setChan, if_neg hlast]
  case lastExpiry =>
    intro c r s hr hdue hlast
    rw [execThrottleExpiry_of_due hr hdue, setChan, if_pos hlast]
  case init => exact fun s hr hinit hstage hgone => execDramInitDone_of_none_gone hr hinit hstage hgone
  case scrub =>
    intro s hr hon hen hpwr hmore
    rw [execScrubRead_of_clean hr hon hen hpwr, if_neg (Nat.not_le.mpr hmore)]
  case pass =>
    intro s hr hon hen hpwr hend
    rw [execScrubRead_of_clean hr hon hen hpwr, if_pos hend]

end Sys2Proof.Machine
end

section
/-! The pool manager: what an operation that is new or repeated answers, what ALLOCATE, CLAIM and RELEASE do to their buffer, and the statement on
them (R346 to R349, R353 to R355, R358). -/

namespace Sys2Proof.Machine
open Sys2Proof

theorem exec_allocate (id : PoolId) (w : PoolReq) (n : Nat) (p : Bool) (s : State) : exec (.allocate id w n p) s = execAllocate id w n p s := rfl
theorem exec_claim (id : PoolId) (w : PoolReq) (h : Word) (s : State) : exec (.claim id w h) s = execClaim id w h s := rfl
theorem exec_release (id : PoolId) (w : PoolReq) (h : Word) (k : Nat) (s : State) : exec (.release id w h k) s = execRelease id w h k s := rfl

/-! Operations and their repeats (R358). -/

/-- The kept operation of a requester ID and log mark, of which one that names them again is a repeat; none for a new one (R358). -/
abbrev keptOp (id : PoolId) (s : State) : Option (ReqId × DWord × BitVec 40 × PoolReply) :=
  (keptOps s).find? (fun e => decide (e.1 = id.req) && decide (e.2.1 = id.mark))

/-- The reply to a new operation is sent, and kept for a repeat (R358). -/
def replied (id : PoolId) (r : PoolReply) (s : State) : State :=
  emit (.poolReply id.req id.mark r) { s with pool := { s.pool with applied := keptOps s ++ [(id.req, id.mark, s.bell.num, r)] } }

@[simp] theorem replied_out (id : PoolId) (r : PoolReply) (s : State) : (replied id r s).out = s.out ++ [.poolReply id.req id.mark r] := rfl
@[simp] theorem replied_bufs (id : PoolId) (r : PoolReply) (s : State) : (replied id r s).pool.bufs = s.pool.bufs := rfl
@[simp] theorem replied_free (id : PoolId) (r : PoolReply) (s : State) : (replied id r s).pool.free = s.pool.free := rfl
@[simp] theorem replied_gens (id : PoolId) (r : PoolReply) (s : State) : (replied id r s).pool.gens = s.pool.gens := rfl
@[simp] theorem replied_claimFree (id : PoolId) (r : PoolReply) (s : State) : (replied id r s).pool.claimFree = s.pool.claimFree := rfl

/-- A reply touches the output and the pool alone, so nothing else is touched by an operation that touches the pool alone. -/
theorem replied_frame (id : PoolId) (r : PoolReply) (s : State) (m : Pool) :
    replied id r { s with pool := m } =
      { s with out := (replied id r { s with pool := m }).out, pool := (replied id r { s with pool := m }).pool } := rfl

section
variable {id : PoolId} {op : State → PoolReply × State} {s : State}

theorem pooled_of_new {t : State} {r : PoolReply} (hnew : keptOp id s = none) (hop : op s = (r, t)) : pooled id op s = replied id r t := by
  rw [keptOp] at hnew
  rw [pooled, hnew]
  simp only [hop, replied]

theorem pooled_of_kept {e : ReqId × DWord × BitVec 40 × PoolReply} (hkept : keptOp id s = some e) :
    pooled id op s = emit (.poolReply id.req id.mark e.2.2.2) s := by
  rw [keptOp] at hkept
  rw [pooled, hkept]

end

/-- What the requester is told: what was granted to it, or the code of the refusal (R349, R354). -/
def grantedOr {α : Type} (f : α → PoolReply) : Except Code α → PoolReply
  | .ok a => f a
  | .error c => .refused c

/-! What an allocation does to the buffer that it takes (R346, R348, R349). -/

section
variable {s : State} {w : PoolReq} {n : Nat}

/-- A buffer as its allocation leaves it: held by its requester, with one reference. -/
def takenBuf (s : State) (w : PoolReq) (c i : Nat) : Buf :=
  { gen := lookD s.pool.gens (bufKey c i) 0, owner := w, fn := (chargedFn s w).getD 0, hold := true, refs := 1, recs := [], secret := false,
    charged := true }

theorem takeBuf_of_free {c i : Nat} {l : List (Nat × Nat)} (hen : s.pool.en = true) (hfree : popRun (lookD s.pool.free c []) = some (i, l)) :
    ∃ m : Pool, takeBuf s w c = some (mkHandle c (lookD s.pool.gens (bufKey c i) 0) i, { s with pool := m }) ∧
      m.free = put s.pool.free c l ∧ m.bufs = put s.pool.bufs (bufKey c i) (takenBuf s w c i) := by
  rw [takeBuf, hen, hfree]
  exact ⟨_, rfl, rfl, rfl⟩

theorem allocate_of_taken {p : Bool} {h : Word} {t : State} (h0 : 0 < n) (hmax : n ≤ 8388608) (hquota : quotaCode s w (classFor n) = none)
    (htake : takeBuf s w (classFor n) = some (h, t)) : allocate w n p s = (.ok h, t) := by
  have hsize : ¬ (n = 0 ∨ 8388608 < n) := by omega
  rw [allocate, if_neg hsize]
  simp only [hquota, htake]

/-- A size that no class holds is refused; the statistic of refused allocations counts a session's requests alone (R349, R400). -/
theorem allocate_of_badSize {p : Bool} (hsize : n = 0 ∨ 8388608 < n) (hw : w.kind ≠ 0) : allocate w n p s = (.error 0x0504, s) := by
  rw [allocate, if_pos hsize, allocRefused]
  simp [hw]

end

/-! What a claim and a release do to the buffer that their handle names (R353 to R355). -/

section
variable {s : State} {w : PoolReq} {h : Word}

theorem claimBuf_of_malformed (hwf : wellFormed s h = false) : claimBuf w h s = (.error 0x0505, s) := by
  rw [claimBuf, hwf, Bool.not_false, if_pos rfl]

section
variable {b : Buf} (hwf : wellFormed s h = true) (hb : currentBuf s h = some b)
include hwf hb

theorem claimBuf_of_first {k : Nat} (hrec : recOf b w = none) (hk : freeRec b = some k) (hfree : 0 < s.pool.claimFree) (hrefs : b.refs < 65535) :
    claimBuf w h s = (.ok k, setBuf h { b with refs := b.refs + 1, recs := put b.recs k (w, 1) }
      { s with pool := { s.pool with claimFree := s.pool.claimFree - 1 } }) := by
  simp [claimBuf, hwf, hb, hrec, hk, Nat.ne_of_gt hfree, Nat.not_le.mpr hrefs]

/-- The owner gives up the last reference, and the buffer is freed. -/
theorem releaseBuf_of_lastHold (hown : b.owner = w) (hhold : b.hold = true) (hrefs : b.refs = 1) :
    releaseBuf w h 0 s = (.done, freeBuf (hClass h) (hIndex h) { b with hold := false, refs := 0 } s) := by
  simp [releaseBuf, hwf, hb, hown, hhold, hrefs, settleBuf]

end

/-- A freed buffer that need not be filled and whose page is not withdrawn joins the back of its free list (R353). -/
theorem freeBuf_of_plain {c i : Nat} {b : Buf} (hsecret : b.secret = false) (hgone : has s.pool.gone (bufKey c i) = false)
    (hgen : (b.gen + 1) % 16 ≠ 0) :
    ∃ m : Pool, freeBuf c i b s = { s with pool := m } ∧ m.bufs = del s.pool.bufs (bufKey c i) ∧
      m.gens = put s.pool.gens (bufKey c i) ((b.gen + 1) % 16) ∧ m.free = put s.pool.free c (pushRun (lookD s.pool.free c []) i) := by
  refine ⟨_, rfl, rfl, if_neg hgen, ?_⟩
  simp only [hsecret, hgone, Bool.or_self, Bool.false_eq_true, if_false]

end

/-! The commands. -/

section
variable {s t : State} (hr : Runs s) {id : PoolId} {w : PoolReq}
include hr

section
variable (hnew : keptOp id s = none)
include hnew

theorem execAllocate_of_new {n : Nat} {p : Bool} {r : Except Code Word} (halloc : allocate w n p s = (r, t)) :
    execAllocate id w n p s = .next (replied id (grantedOr .handle r) t) := by
  rw [execAllocate, live_of_runs _ hr, pooled_of_new hnew]
  cases r <;> simp only [halloc, grantedOr]

theorem execClaim_of_new {h : Word} {r : Except Code Nat} (hclaim : claimBuf w h s = (r, t)) :
    execClaim id w h s = .next (replied id (grantedOr .token r) t) := by
  rw [execClaim, live_of_runs _ hr, pooled_of_new hnew]
  cases r <;> simp only [hclaim, grantedOr]

theorem execRelease_of_new {h : Word} {k : Nat} {r : PoolReply} (hrel : releaseBuf w h k s = (r, t)) :
    execRelease id w h k s = .next (replied id r t) := by
  rw [execRelease, live_of_runs _ hr, pooled_of_new hnew hrel]

end

theorem execAllocate_of_kept {n : Nat} {p : Bool} {e : ReqId × DWord × BitVec 40 × PoolReply} (hkept : keptOp id s = some e) :
    execAllocate id w n p s = .next (emit (.poolReply id.req id.mark e.2.2.2) s) := by
  rw [execAllocate, live_of_runs _ hr, pooled_of_kept hkept]

end

/-- Settles O19: each operation is new, and what it answers and leaves is read off the effect on its buffer; a repeat only sends the kept reply. -/
theorem thePoolAllocatesClaimsAndReleases : Obligations.ThePoolAllocatesClaimsAndReleases := by
  unfold Obligations.ThePoolAllocatesClaimsAndReleases Completes
  simp only [exec_allocate, exec_claim, exec_release]
  refine ⟨?taken, ?badSize, ?repeated, ?claimed, ?malformed, ?released⟩
  case taken =>
    intro id w n i p l s hr hnew h0 hmax hquota hen hfree
    obtain ⟨m, htake, hmfree, hmbufs⟩ := takeBuf_of_free (w := w) hen hfree
    refine ⟨_, execAllocate_of_new hr hnew (allocate_of_taken h0 hmax hquota htake), replied_out .., ?_,
      ⟨takenBuf s w (classFor n) i, ?_, rfl, rfl, rfl, rfl, rfl, rfl⟩, ?_, replied_frame id _ s m⟩
    · rw [replied_free, hmfree, lookD_put_self]
    · rw [replied_bufs, hmbufs, look_put_self]
    · intro k hk
      rw [replied_bufs, hmbufs, look_put_ne _ _ hk]
  case badSize =>
    exact fun id w n p s hr hnew hsize hw =>
      ⟨_, execAllocate_of_new hr hnew (allocate_of_badSize hsize hw), replied_out .., replied_bufs .., replied_free ..,
        replied_frame id _ s s.pool⟩
  case repeated => exact fun id w n p e s hr hkept => execAllocate_of_kept hr hkept
  case claimed =>
    intro id w h b k s hr hnew hwf hb hrec hk hfree hrefs
    exact ⟨_, execClaim_of_new hr hnew (claimBuf_of_first hwf hb hrec hk hfree hrefs), replied_out .., look_put_self .., replied_claimFree ..,
      replied_frame id _ s _⟩
  case malformed =>
    exact fun id w h s hr hnew hwf =>
      ⟨_, execClaim_of_new hr hnew (claimBuf_of_malformed hwf), replied_out .., replied_bufs .., replied_claimFree ..,
        replied_frame id _ s s.pool⟩
  case released =>
    intro id w h b s hr hnew hwf hb hown hhold hrefs hsecret hgone hgen
    obtain ⟨m, hfreed, hmbufs, hmgens, hmfree⟩ :=
      freeBuf_of_plain (b := { b with hold := false, refs := 0 }) (c := hClass h) (i := hIndex h) hsecret hgone hgen
    refine ⟨_, execRelease_of_new hr hnew ((releaseBuf_of_lastHold hwf hb hown hhold hrefs).trans (congrArg _ hfreed)), replied_out ..,
      hmbufs, ?_, ?_, replied_frame id _ s m⟩
    · rw [replied_gens, hmgens, lookD_put_self]
    · rw [replied_free, hmfree, lookD_put_self]

end Sys2Proof.Machine
end

section
/-! Internal queues: beats written, stalled, read and reserved, and the statement on them (R359 to R363, R370). -/

namespace Sys2Proof.Machine
open Sys2Proof

theorem exec_queueBeatWrite (q : Nat) (p : PoolReq) (st : Bool) (b : BitVec 256) (s : State) :
    exec (.queueBeatWrite q p st b) s = execQueueBeatWrite q p st b s := rfl
theorem exec_queueStallRelease (q : Nat) (s : State) : exec (.queueStallRelease q) s = execQueueStallRelease q s := rfl
theorem exec_queueRead (q : Nat) (s : State) : exec (.queueRead q) s = execQueueRead q s := rfl
theorem exec_queueReserve (q : Nat) (p : PoolReq) (n : Nat) (s : State) : exec (.queueReserve q p n) s = execQueueReserve q p n s := rfl

theorem queueOf_of_look {s : State} {q : Nat} {x : Queue} (hx : look s.queue.queues q = some x) : queueOf s q = x := by
  rw [queueOf, lookD, hx, Option.getD_some]

theorem queueId_of_internal {q : Nat} (hq : internalQueue q = true) : queueId q = true := by
  simp only [internalQueue, queueId, Bool.and_eq_true, decide_eq_true_eq] at hq ⊢
  omega

/-! A beat that its queue takes (R360). -/

section
variable {p : PoolReq} {b : BitVec 256} {x : Queue} (hpart : partialOf x p = none)

/-- The queue with a new item of one beat, which is visible at once as its newest. -/
def addOneBeat (p : PoolReq) (pr : Nat) (hold : Option (Word × Nat)) (b : BitVec 256) (x : Queue) : Queue :=
  { x with
    items := x.items ++ [{ producer := p, prio := pr, size := 1, hold := hold, beats := [b], written := 1, vis := some x.visSeq, taken := 0,
                           cut := false }]
    visSeq := x.visSeq + 1 }

include hpart

theorem takeBeat_of_oneBeat {pr : Nat} {hold : Option (Word × Nat)} (hhead : parseHeader b = some (pr, 1, hold)) :
    takeBeat p true b x = (addOneBeat p pr hold b x, 0) := by
  simp [takeBeat, hpart, hhead, addOneBeat]

theorem takeBeat_of_malformed (hhead : parseHeader b = none) : takeBeat p true b x = (x, 1) := by
  simp [takeBeat, hpart, hhead]

end

theorem beatsHeld_addOneBeat (p : PoolReq) (pr : Nat) (hold : Option (Word × Nat)) (b : BitVec 256) (x : Queue) :
    beatsHeld (addOneBeat p pr hold b x) = beatsHeld x + 1 := by
  simp only [beatsHeld, addOneBeat, List.map_append, List.map_cons, List.map_nil, List.sum_append, List.sum_singleton, Bool.false_and,
    Bool.false_eq_true, if_false]
  omega

/-- Where the producer has reserved nothing, an accepted beat is no reserved one (R363). -/
theorem acceptBeat_of_unreserved {q : Nat} {p : PoolReq} {st : Bool} {b : BitVec 256} {s : State} {x : Queue} {n : Nat}
    (hres : (queueOf s q).reserved = []) (htake : takeBeat p st b (queueOf s q) = (x, n)) :
    acceptBeat q p st b s = settleQueue q x { s with queue := { s.queue with bad := up s.queue.bad n } } := by
  have hkept : ({ queueOf s q with reserved := [] } : Queue) = queueOf s q := by rw [← hres]
  have hdel : del ([] : NMap Nat) (prodKey p) = [] := rfl
  have hnone : lookD ([] : NMap Nat) (prodKey p) 0 = 0 := rfl
  rw [acceptBeat]
  simp only [hres, hnone, Nat.zero_le, if_true, hdel, hkept, htake]

/-! An internal queue whose beats its slot pair holds (R361). -/

theorem blocksFor_slotPair {n : Nat} (h : n ≤ 32) : blocksFor true n = 0 := by
  rw [blocksFor, if_pos rfl, Nat.sub_eq_zero_of_le h]
  rfl

section
variable {q : Nat} {x : Queue} (hslot : x.slot = true)
include hslot

theorem beatRoom_of_slotPair (s : State) (p : PoolReq) (h : beatsHeld x < 32) : beatRoom s q p x = true := by
  have hcap : 32 ≤ queueCap s q := by
    rw [queueCap]
    split_ifs <;> omega
  rw [beatRoom, hslot, Bool.true_or, blocksFor_slotPair h]
  simp [Nat.lt_of_lt_of_le h hcap]

/-- It needs no spill block and gives none back, so only the queue itself is written. -/
theorem settleQueue_of_slotPair (hq : internalQueue q = true) (s : State) (hblocks : x.blocks = 0) (h : beatsHeld x ≤ 32) :
    settleQueue q x s = { s with queue := { s.queue with queues := put s.queue.queues q x } } := by
  have hx : ({ x with slot := true, blocks := 0 } : Queue) = x := by rw [← hslot, ← hblocks]
  have hfree : ¬ (s.queue.spillFree = 0 ∧ 0 < s.queue.spillFree ∧ s.queue.spillBell ≠ some s.bell.num) := by omega
  simp only [settleQueue, hq, if_true, blocksFor_slotPair h, hblocks, Nat.add_zero, Nat.sub_zero, hx, if_neg hfree]

end

/-! The commands. -/

section
variable {s : State} (hr : Runs s) (hen : s.queue.en = true) {q : Nat} {p : PoolReq}
include hr hen

section
variable (hq : queueId q = true) {st : Bool} {b : BitVec 256} (hwait : (queueOf s q).stalled.any (fun e => decide (e.1 = p)) = false)
include hq hwait

theorem execQueueBeatWrite_of_room (hroom : beatRoom s q p (queueOf s q) = true) :
    execQueueBeatWrite q p st b s = .next (acceptBeat q p st b s) := by
  rw [execQueueBeatWrite, live_of_runs _ hr]
  simp only [hen, hq, hwait, hroom, Bool.not_true, Bool.or_self, Bool.false_eq_true, if_false, if_true]

theorem execQueueBeatWrite_of_full (hfull : beatRoom s q p (queueOf s q) = false) :
    execQueueBeatWrite q p st b s = .next { s with queue := { s.queue with
      bp := up s.queue.bp 1, queues := put s.queue.queues q { queueOf s q with stalled := (queueOf s q).stalled ++ [(p, st, b)] } } } := by
  rw [execQueueBeatWrite, live_of_runs _ hr]
  simp only [hen, hq, hwait, hfull, Bool.not_true, Bool.or_self, Bool.false_eq_true, if_false]

end

theorem execQueueStallRelease_of_room {st : Bool} {b : BitVec 256} {l : List (PoolReq × Bool × BitVec 256)}
    (hwait : (queueOf s q).stalled = (p, st, b) :: l) (hroom : beatRoom s q p (queueOf s q) = true) :
    execQueueStallRelease q s =
      .next (acceptBeat q p st b { s with queue := { s.queue with queues := put s.queue.queues q { queueOf s q with stalled := l } } }) := by
  rw [execQueueStallRelease, live_of_runs _ hr]
  simp only [hwait, hen, hroom, Bool.and_self, if_true]

theorem execQueueRead_of_aborted (habort : (queueOf s q).aborted = true) :
    execQueueRead q s =
      .next (emit (.queueAbort q) { s with queue := { s.queue with queues := put s.queue.queues q { queueOf s q with aborted := false } } }) := by
  rw [execQueueRead, live_of_runs _ hr]
  simp only [hen, habort, Bool.not_true, Bool.false_eq_true, if_false, if_true]

/-- The reader takes the next beat; the item leaves with its last one. -/
theorem execQueueRead_of_item {i : Item} (habort : (queueOf s q).aborted = false) (hnext : nextItem (queueOf s q) = some i) :
    execQueueRead q s = .next (emit (.queueBeats q [i.beats.getD i.taken 0]) (settleQueue q { queueOf s q with
      items := if i.taken + 1 = i.size then (queueOf s q).items.filter (fun j => j != i)
        else (queueOf s q).items.map (fun j => if j = i then { i with taken := i.taken + 1 } else j) } s)) := by
  rw [execQueueRead, live_of_runs _ hr]
  simp only [hen, habort, hnext, Bool.not_true, Bool.false_eq_true, if_false]

section
variable (hq : queueId q = true) {n : Nat}
include hq

theorem execQueueReserve_of_granted {t : State} (h1 : 1 ≤ n) (h64 : n ≤ 64) (hres : reserveBeats q p n s = some t) :
    execQueueReserve q p n s = .next (emit (.reserve q p true) t) := by
  rw [execQueueReserve, live_of_runs _ hr]
  simp only [hen, hq, Bool.not_true, Bool.or_self, Bool.false_eq_true, if_false, if_pos (And.intro h1 h64), hres]

theorem execQueueReserve_of_refused (hres : n = 0 ∨ 64 < n ∨ reserveBeats q p n s = none) :
    execQueueReserve q p n s =
      .next (emit (.reserve q p false) { s with queue := { s.queue with rejCnt := up s.queue.rejCnt 1 } }) := by
  have hnone : (if 1 ≤ n ∧ n ≤ 64 then reserveBeats q p n s else none) = none := by
    rcases hres with h | h | h
    · exact if_neg (by omega)
    · exact if_neg (by omega)
    · rw [h, ite_self]
  rw [execQueueReserve, live_of_runs _ hr]
  simp only [hen, hq, Bool.not_true, Bool.or_self, Bool.false_eq_true, if_false, hnone]

end
end

/-- Settles O20: a written beat is taken by a queue with room, and what settling the queue leaves is read off its slot pair; every other clause is one
case of its command. -/
theorem queuesCarryBeats : Obligations.QueuesCarryBeats := by
  unfold Obligations.QueuesCarryBeats Completes
  simp only [exec_queueBeatWrite, exec_queueStallRelease, exec_queueRead, exec_queueReserve]
  refine ⟨?oneBeat, ?malformed, ?stalled, ?aborted, ?nextBeat, ?lastBeat, ?released, ?granted, ?refused⟩
  case oneBeat =>
    intro q pr hold p b x s hr hen hq hx hslot hblocks hwait hres hpart hhead hroom
    obtain rfl := queueOf_of_look hx
    refine ⟨_, execQueueBeatWrite_of_room hr hen (queueId_of_internal hq) (by rw [hwait]; rfl) (beatRoom_of_slotPair hslot s p hroom), ?_⟩
    rw [acceptBeat_of_unreserved hres (takeBeat_of_oneBeat hpart hhead),
      settleQueue_of_slotPair (x := addOneBeat p pr hold b (queueOf s q)) hslot hq _ hblocks ((beatsHeld_addOneBeat ..).trans_le hroom)]
    exact ⟨_, look_put_self .., rfl, rfl, hblocks, rfl⟩
  case malformed =>
    intro q p b s hr hen hq hwait hroom hpart hhead hres
    rw [execQueueBeatWrite_of_room hr hen hq (by rw [hwait]; rfl) hroom, acceptBeat_of_unreserved hres (takeBeat_of_malformed hpart hhead)]
  case stalled => exact fun q p st b s hr hen hq hwait hfull => execQueueBeatWrite_of_full hr hen hq hwait hfull
  case aborted => exact fun q s hr hen habort => execQueueRead_of_aborted hr hen habort
  case nextBeat =>
    intro q i s hr hen habort hnext hmore
    rw [execQueueRead_of_item hr hen habort hnext, if_neg (Nat.ne_of_lt hmore)]
  case lastBeat =>
    intro q i s hr hen habort hnext hlast
    rw [execQueueRead_of_item hr hen habort hnext, if_pos hlast]
  case released => exact fun q p st b l s hr hen hwait hroom => execQueueStallRelease_of_room hr hen hwait hroom
  case granted => exact fun q n p t s hr hen hq h1 h64 hres => execQueueReserve_of_granted hr hen hq h1 h64 hres
  case refused => exact fun q n p s hr hen hq hres => execQueueReserve_of_refused hr hen hq hres

end Sys2Proof.Machine
end

section
/-! QUEUE_FLUSH, the end of a flush, QUEUE_CTRL and QUEUE_SEL, and the statement on them (R364, R365, R368, R370). -/

namespace Sys2Proof.Machine
open Sys2Proof

theorem exec_queueFlush (v : Word) (s : State) : exec (.queueFlush v) s = execQueueFlush v s := rfl
theorem exec_flushEnd (q : Nat) (s : State) : exec (.flushEnd q) s = execFlushEnd q s := rfl
theorem exec_queueCtrlWrite (v : Word) (s : State) : exec (.queueCtrlWrite v) s = execQueueCtrlWrite v s := rfl
theorem exec_queueSelWrite (v : Word) (s : State) : exec (.queueSelWrite v) s = execQueueSelWrite v s := rfl

@[simp] theorem queueOf_wake (s : State) (q : Nat) : queueOf (wake s) q = queueOf s q := by rw [queueOf, wake_queue, queueOf]

theorem queueRefuse_wake (c : Code) (s : State) : queueRefuse c (wake s) = { wake s with queue := { s.queue with reason := c } } := by
  rw [queueRefuse, wake_queue]

/-! The end of a flush (R364, R365). -/

section
variable {q : Nat} {s : State} (hr : Runs s)
include hr

/-- A flush that held no claim back releases none. -/
theorem execFlushEnd_of_over (hover : flushOver (queueOf s q) = true) (hrel : (queueOf s q).rel = []) :
    execFlushEnd q s =
      .next (settleQueue q { queueOf s q with flushing := none } { s with queue := { s.queue with flushCnt := up s.queue.flushCnt 1 } }) := by
  rw [execFlushEnd, live_of_runs _ hr, endFlush]
  simp only [if_pos hover, hrel, List.foldl_nil]

theorem execFlushEnd_of_unfinished (hover : flushOver (queueOf s q) = false) : execFlushEnd q s = .next s := by
  rw [execFlushEnd, live_of_runs _ hr, endFlush]
  simp only [hover, Bool.false_eq_true, if_false]

end

/-! The registers. -/

section
variable {s : State} (hs : Serves s) {v : Word}
include hs

/-! QUEUE_FLUSH (R364, R370). -/

section
variable (hv : v &&& 0xFFFFFEFC = 0)
include hv

theorem execQueueFlush_of_noGo (hgo : bit v 8 = false) : execQueueFlush v s = .next (wake s) :=
  blockWrite_answers hs hv (by simp only [hgo, Bool.not_false, if_true])

section
variable (hgo : bit v 8 = true)
include hgo

theorem execQueueFlush_of_noMode (hmode : fld v 1 0 = 3) :
    execQueueFlush v s = .next { wake s with queue := { s.queue with reason := 0x0608 } } :=
  blockWrite_answers hs hv (by simp only [hgo, hmode, Bool.not_true, Bool.false_eq_true, if_false, if_true, queueRefuse_wake])

theorem execQueueFlush_of_flushing (hmode : fld v 1 0 ≠ 3) (hbusy : (queueOf s (fld s.queue.sel 16 0)).flushing.isSome = true) :
    execQueueFlush v s = .next { wake s with queue := { s.queue with reason := 0x0602 } } :=
  blockWrite_answers hs hv (by
    simp only [hgo, hmode, wake_queue, queueOf_wake, hbusy, Bool.not_true, Bool.false_eq_true, if_false, if_true, queueRefuse_wake])

/-- A queue that is not flushing is flushed in its own mode for 0, else AT_BOUNDARY for 2 and IMMEDIATE for 1. -/
theorem execQueueFlush_of_idle (hmode : fld v 1 0 ≠ 3) (hidle : (queueOf s (fld s.queue.sel 16 0)).flushing = none) :
    execQueueFlush v s = .next (flushQueue (fld s.queue.sel 16 0) (if fld v 1 0 = 0
      then queueMode (fld s.queue.sel 16 0) (queueOf s (fld s.queue.sel 16 0)) else decide (fld v 1 0 = 2)) (wake s)) :=
  blockWrite_answers hs hv (by
    simp only [hgo, hmode, wake_queue, queueOf_wake, hidle, Option.isSome_none, Bool.not_true, Bool.false_eq_true, if_false])

end
end

/-! QUEUE_CTRL (R368, R370). -/

section
variable (hv : v &&& 0xFFFFFFFE = 0)
include hv

theorem execQueueCtrlWrite_of_set (hon : bit v 0 = true) (hmem : s.memc.en = true) (hplan : s.plan.first = true) :
    execQueueCtrlWrite v s = .next { wake s with queue := { s.queue with en := true } } :=
  blockWrite_answers hs hv (by
    simp only [hon, wake_memc, wake_plan, wake_queue, hmem, hplan, Bool.and_self, Bool.not_true, Bool.and_false, Bool.false_eq_true, if_false])

theorem execQueueCtrlWrite_of_unready (hon : bit v 0 = true) (hready : s.memc.en = false ∨ s.plan.first = false) :
    execQueueCtrlWrite v s = .next { wake s with queue := { s.queue with reason := 0x0607 } } := by
  have hboth : (s.memc.en && s.plan.first) = false := by rcases hready with h | h <;> simp [h]
  exact blockWrite_answers hs hv (by simp only [hon, wake_memc, wake_plan, hboth, Bool.not_false, Bool.and_self, if_true, queueRefuse_wake])

theorem execQueueCtrlWrite_of_clear (hoff : bit v 0 = false) :
    execQueueCtrlWrite v s = .next { wake s with queue := { s.queue with en := false } } :=
  blockWrite_answers hs hv (by simp only [hoff, wake_queue, Bool.false_and, Bool.false_eq_true, if_false])

end

/-! QUEUE_SEL (R359, R370). -/

section
variable (hv : v &&& 0xFFFE0000 = 0)
include hv

theorem execQueueSelWrite_of_queue (hq : fld v 16 0 ≤ 0x11FFF) :
    execQueueSelWrite v s = .next { wake s with queue := { s.queue with sel := v } } :=
  blockWrite_answers hs hv (by rw [queueId, decide_eq_true hq, if_pos rfl, wake_queue])

theorem execQueueSelWrite_of_noQueue (hq : 0x11FFF < fld v 16 0) :
    execQueueSelWrite v s = .next { wake s with queue := { s.queue with reason := 0x0601 } } :=
  blockWrite_answers hs hv (by rw [queueId, decide_eq_false (Nat.not_le.mpr hq), if_neg Bool.false_ne_true, queueRefuse_wake])

end
end

/-- Settles O21: each clause is the case of its register write or of the flush's end that its hypotheses name; the three modes of a flush differ in
the mode field alone. -/
theorem queuesAreFlushedAndConfigured : Obligations.QueuesAreFlushedAndConfigured := by
  unfold Obligations.QueuesAreFlushedAndConfigured
  simp only [exec_queueFlush, exec_flushEnd, exec_queueCtrlWrite, exec_queueSelWrite]
  refine ⟨?noGo, ?noMode, ?flushing, ?ownMode, ?immediate, ?atBoundary, ?finished, ?unfinished, ?set, ?unready, ?clear, ?queue, ?noQueue⟩
  case noGo => exact fun v s hs hv hgo => execQueueFlush_of_noGo hs hv hgo
  case noMode => exact fun v s hs hv hgo hmode => execQueueFlush_of_noMode hs hv hgo hmode
  case flushing => exact fun v s hs hv hgo hmode hbusy => execQueueFlush_of_flushing hs hv hgo hmode hbusy
  case ownMode =>
    intro v s hs hv hgo hmode hidle
    rw [execQueueFlush_of_idle hs hv hgo (by omega) hidle, if_pos hmode]
  case immediate =>
    intro v s hs hv hgo hmode hidle
    rw [execQueueFlush_of_idle hs hv hgo (by omega) hidle, hmode]
    rfl
  case atBoundary =>
    intro v s hs hv hgo hmode hidle
    rw [execQueueFlush_of_idle hs hv hgo (by omega) hidle, hmode]
    rfl
  case finished => exact fun q s hr hover hrel => execFlushEnd_of_over hr hover hrel
  case unfinished => exact fun q s hr hover => execFlushEnd_of_unfinished hr hover
  case set => exact fun v s hs hv hon hmem hplan => execQueueCtrlWrite_of_set hs hv hon hmem hplan
  case unready => exact fun v s hs hv hon hready => execQueueCtrlWrite_of_unready hs hv hon hready
  case clear => exact fun v s hs hv hoff => execQueueCtrlWrite_of_clear hs hv hoff
  case queue => exact fun v s hs hv hq => execQueueSelWrite_of_queue hs hv hq
  case noQueue => exact fun v s hs hv hq => execQueueSelWrite_of_noQueue hs hv hq

end Sys2Proof.Machine
end

section
/-! Bytes stored in DRAM, and the statement on them (12_memory_system.md, R390). -/

namespace Sys2Proof.Machine
open Sys2Proof

/-- What a store leaves in DRAM: the bytes, written from its address up. -/
@[simp] theorem storeMem_mem (a : Nat) (bs : List Byte) (s : State) : (storeMem a bs s).mem = wrCells memDefault s.mem a bs := rfl

/-- Settles O59: a store writes its run of cells, which keeps the list canonical and changes no cell outside the run. -/
theorem dramReadsBackWhatWasStored : Obligations.DramReadsBackWhatWasStored := by
  unfold Obligations.DramReadsBackWhatWasStored
  intro a bs s hw
  simp only [readMem, storeMem_mem]
  refine ⟨wrCells_wf hw, ?stored, fun _ hx => rdCell_wrCells_ne hx, rfl⟩
  case stored =>
    intro k b hb
    obtain ⟨hk, rfl⟩ := List.getElem?_eq_some_iff.mp hb
    exact rdCell_wrCells hw hk

end Sys2Proof.Machine
end

section
/-! Writes in the window of a function, and what waking leaves of the rings and channels that they look at (R375, R376, R525). -/

namespace Sys2Proof.Machine
open Sys2Proof

@[simp] theorem fnOn_wake (s : State) (f : Nat) : fnOn (wake s) f = fnOn s f := by rw [fnOn, wake_vfCount, fnOn]
@[simp] theorem fnOf_wake (s : State) (f : Nat) : fnOf (wake s) f = fnOf s f := by rw [fnOf, wake_fns, fnOf]
@[simp] theorem cmdOf_wake (s : State) (f r : Nat) : cmdOf (wake s) f r = cmdOf s f r := by rw [cmdOf, fnOf_wake, cmdOf]
@[simp] theorem cqOf_wake (s : State) (f r : Nat) : cqOf (wake s) f r = cqOf s f r := by rw [cqOf, fnOf_wake, cqOf]
@[simp] theorem cqUsed_wake (s : State) (f r : Nat) : cqUsed (wake s) f r = cqUsed s f r := by
  rw [cqUsed, fnOf_wake, wake_sessions, cqUsed]
@[simp] theorem dmaOf_wake (s : State) (c : Nat) : dmaOf (wake s) c = dmaOf s c := by rw [dmaOf, wake_dma, dmaOf]
@[simp] theorem ownedBy_wake (s : State) (f : Nat) : ownedBy (wake s) f = ownedBy s f := by simp only [ownedBy, dmaOf_wake]

/-- What a write in the window of a function that is on does, once it is accepted, to the state that its request has woken (R376, R525, R562). -/
theorem fnWrite_answers {fn : Nat} {resv v : Word} {f : State → State} {s t : State} (hs : Serves s) (hv : v &&& resv = 0)
    (hon : fnOn s fn = true) (hf : f (wake s) = t) : fnWrite fn resv v s f = .next t :=
  blockWrite_answers hs hv (by rw [fnOn_wake, if_pos hon, hf])

end Sys2Proof.Machine
end

section
/-! VF Enable and the controls of the rings, and the statement on them (R372, R375, R377, R378). -/

namespace Sys2Proof.Machine
open Sys2Proof

theorem exec_vfEnable (n : Nat) (s : State) : exec (.vfEnable n) s = execVfEnable n s := rfl
theorem exec_vfDisable (s : State) : exec .vfDisable s = execVfDisable s := rfl
theorem exec_cmdqCtrlWrite (f r : Nat) (v : Word) (s : State) : exec (.cmdqCtrlWrite f r v) s = execCmdqCtrlWrite f r v s := rfl
theorem exec_cqCtrlWrite (f r : Nat) (v : Word) (s : State) : exec (.cqCtrlWrite f r v) s = execCqCtrlWrite f r v s := rfl

/-! The windows of the virtual functions (R375). -/

theorem look_freshVfs (l : NMap Fn) (f : Nat) :
    look (freshVfs l) f = (look l f).map (fun x => if f = 0 then x else { Fn.reset with seq := x.seq }) := by
  induction l with
  | nil => rfl
  | cons e l ih =>
    obtain ⟨i, x⟩ := e
    rw [freshVfs, List.map_cons, ← freshVfs]
    by_cases hi : i = f
    · subst hi
      by_cases h0 : i = 0 <;> simp [look, h0]
    · by_cases h0 : i = 0 <;> simp_all [look]

section
variable {s : State}

theorem fnOf_freshVfs_pf {t : State} (ht : t.fns = freshVfs s.fns) : fnOf t 0 = fnOf s 0 := by
  rw [fnOf, ht, lookD, look_freshVfs]
  simp [fnOf, lookD]

/-- The window of a VF starts at reset, but for its SNAPSHOT SEQ. -/
theorem fnOf_freshVfs_vf {t : State} (ht : t.fns = freshVfs s.fns) {f : Nat} (hf : f ≠ 0) : fnOf t f = { Fn.reset with seq := (fnOf s f).seq } := by
  rw [fnOf, ht, lookD, look_freshVfs, fnOf, lookD]
  cases look s.fns f with
  | none => rfl
  | some x => simp [hf]

end

/-! VF_ENABLE and VF_DISABLE (R375). -/

section
variable {s : State} (hr : Runs s)
include hr

theorem execVfEnable_of_none {n : Nat} (h1 : 1 ≤ n) (h255 : n ≤ 255) (hoff : s.vfCount = 0) :
    ∃ i q, execVfEnable n s = .next { s with vfCount := n, fns := freshVfs s.fns, irq := i, sess := q } := by
  have hok : ¬ (n = 0 ∨ 255 < n ∨ s.vfCount ≠ 0) := by omega
  rw [execVfEnable, live_of_runs _ hr, if_neg hok]
  exact ⟨_, _, rfl⟩

theorem execVfEnable_of_ignored {n : Nat} (h : n = 0 ∨ 255 < n ∨ s.vfCount ≠ 0) : execVfEnable n s = .next s := by
  rw [execVfEnable, live_of_runs _ hr, if_pos h]

theorem execVfDisable_of_runs : ∃ u : State, execVfDisable s = .next { u with vfCount := 0, fns := freshVfs u.fns } := by
  rw [execVfDisable, live_of_runs _ hr]
  exact ⟨_, rfl⟩

end

/-! CMDQ_CTRL and CQ_CTRL (R378). -/

section
variable {s : State} {f r : Nat} {v : Word} (hs : Serves s) (hv : v &&& 0xFFFFFFFE = 0) (hon : fnOn s f = true) (hring : r < 8)
include hs hv hon hring

theorem execCmdqCtrlWrite_of_clear (hbit : bit v 0 = false) (hen : (cmdOf s f r).en = true) :
    execCmdqCtrlWrite f r v s = .next (setCmd (wake s) f r (fun q => { q with en := false, waiting := false })) :=
  fnWrite_answers hs hv hon (by simp [hring, cmdqEnable, hbit, hen])

theorem execCqCtrlWrite_of_clear (hbit : bit v 0 = false) (hen : (cqOf s f r).en = true) :
    execCqCtrlWrite f r v s = .next (if cqUsed s f r then setCq (wake s) f r (fun q => { q with reason := 0x0406 })
      else setCq (wake s) f r (fun q => { q with en := false })) :=
  fnWrite_answers hs hv hon (by simp [hring, cqEnable, hbit, hen])

section
variable (hbit : bit v 0 = true)
include hbit

section
variable (hen : (cmdOf s f r).en = false)
include hen

theorem execCmdqCtrlWrite_of_badConfig (hcfg : ringCfgOk (cmdOf s f r).base (cmdOf s f r).cfg = false) :
    execCmdqCtrlWrite f r v s = .next (setCmd (wake s) f r (fun q => { q with reason := 0x0404 })) :=
  fnWrite_answers hs hv hon (by simp [hring, cmdqEnable, hbit, hen, hcfg])

section
variable (hcfg : ringCfgOk (cmdOf s f r).base (cmdOf s f r).cfg = true)
include hcfg

theorem execCmdqCtrlWrite_of_noCq (hcq : (cqOf s f (fld (cmdOf s f r).cfg 10 8)).en = false) :
    execCmdqCtrlWrite f r v s = .next (setCmd (wake s) f r (fun q => { q with reason := 0x0405 })) :=
  fnWrite_answers hs hv hon (by simp [hring, cmdqEnable, hbit, hen, hcfg, hcq])

section
variable (hcq : (cqOf s f (fld (cmdOf s f r).cfg 10 8)).en = true)
include hcq

theorem execCmdqCtrlWrite_of_outstanding (hout : (cmdOf s f r).outstanding ≠ 0) :
    execCmdqCtrlWrite f r v s = .next (setCmd (wake s) f r (fun q => { q with reason := 0x0406 })) :=
  fnWrite_answers hs hv hon (by simp [hring, cmdqEnable, hbit, hen, hcfg, hcq, hout])

theorem execCmdqCtrlWrite_of_set (hout : (cmdOf s f r).outstanding = 0) :
    execCmdqCtrlWrite f r v s = .next (setCmd (wake s) f r (fun q => { q with en := true, head := 0, tail := 0 })) :=
  fnWrite_answers hs hv hon (by simp [hring, cmdqEnable, hbit, hen, hcfg, hcq, hout])

end
end
end

section
variable (hen : (cqOf s f r).en = false)
include hen

theorem execCqCtrlWrite_of_badConfig (hcfg : ringCfgOk (cqOf s f r).base (cqOf s f r).cfg = false) :
    execCqCtrlWrite f r v s = .next (setCq (wake s) f r (fun q => { q with reason := 0x0404 })) :=
  fnWrite_answers hs hv hon (by simp [hring, cqEnable, hbit, hen, hcfg])

/-- An empty ring has nothing for the host, so its level source is false (R462). -/
theorem execCqCtrlWrite_of_set (hcfg : ringCfgOk (cqOf s f r).base (cqOf s f r).cfg = true) :
    execCqCtrlWrite f r v s = .next (setLevel (fnSource f r) false
      (setCq (wake s) f r (fun q => { q with en := true, head := 0, tail := 0, fault := false, unread := [] }))) :=
  fnWrite_answers hs hv hon (by simp [hring, cqEnable, hbit, hen, hcfg, cqLevel, cqOf_setCq])

end
end
end

/-- Settles O22: each clause is the case of its command that its hypotheses name; the windows of the VFs are read through `look_freshVfs`. -/
theorem functionsAndRingsAreEnabledAndDisabled : Obligations.FunctionsAndRingsAreEnabledAndDisabled := by
  unfold Obligations.FunctionsAndRingsAreEnabledAndDisabled Completes
  simp only [exec_vfEnable, exec_vfDisable, exec_cmdqCtrlWrite, exec_cqCtrlWrite]
  refine ⟨?vfOn, ?vfIgnored, ?vfOff, ?cmdSet, ?cmdConfig, ?cmdNoCq, ?cmdOutstanding, ?cmdClear, ?cqSet, ?cqConfig, ?cqUsed, ?cqClear⟩
  case vfOn =>
    intro n s hr h1 h255 hoff
    obtain ⟨i, q, he⟩ := execVfEnable_of_none hr h1 h255 hoff
    exact ⟨_, he, rfl, fun f hf => fnOf_freshVfs_vf rfl hf, fnOf_freshVfs_pf rfl, rfl⟩
  case vfIgnored => exact fun n s hr h => execVfEnable_of_ignored hr h
  case vfOff =>
    intro s hr
    obtain ⟨u, he⟩ := execVfDisable_of_runs hr
    exact ⟨_, he, rfl, fun f hf => ⟨_, fnOf_freshVfs_vf (s := u) rfl hf⟩⟩
  case cmdSet => exact fun f r v s hs hv hon hring hbit hen hcfg hcq hout => execCmdqCtrlWrite_of_set hs hv hon hring hbit hen hcfg hcq hout
  case cmdConfig => exact fun f r v s hs hv hon hring hbit hen hcfg => execCmdqCtrlWrite_of_badConfig hs hv hon hring hbit hen hcfg
  case cmdNoCq => exact fun f r v s hs hv hon hring hbit hen hcfg hcq => execCmdqCtrlWrite_of_noCq hs hv hon hring hbit hen hcfg hcq
  case cmdOutstanding =>
    exact fun f r v s hs hv hon hring hbit hen hcfg hcq hout => execCmdqCtrlWrite_of_outstanding hs hv hon hring hbit hen hcfg hcq hout
  case cmdClear => exact fun f r v s hs hv hon hring hbit hen => execCmdqCtrlWrite_of_clear hs hv hon hring hbit hen
  case cqSet => exact fun f r v s hs hv hon hring hbit hen hcfg => execCqCtrlWrite_of_set hs hv hon hring hbit hen hcfg
  case cqConfig => exact fun f r v s hs hv hon hring hbit hen hcfg => execCqCtrlWrite_of_badConfig hs hv hon hring hbit hen hcfg
  case cqUsed =>
    intro f r v s hs hv hon hring hbit hen hused
    rw [execCqCtrlWrite_of_clear hs hv hon hring hbit hen, if_pos hused]
  case cqClear =>
    intro f r v s hs hv hon hring hbit hen hfree
    rw [execCqCtrlWrite_of_clear hs hv hon hring hbit hen, hfree, if_neg Bool.false_ne_true]

end Sys2Proof.Machine
end

section
/-! Doorbells, fetches and posts of the rings, and the statement on them (R379, R380, R382 to R385). -/

namespace Sys2Proof.Machine
open Sys2Proof

theorem exec_cmdqTailDb (f r : Nat) (v : Word) (s : State) : exec (.cmdqTailDb f r v) s = execCmdqTailDb f r v s := rfl
theorem exec_cqHeadDb (f r : Nat) (v : Word) (s : State) : exec (.cqHeadDb f r v) s = execCqHeadDb f r v s := rfl
theorem exec_commandFetch (f r n : Nat) (fence : Bool) (s : State) : exec (.commandFetch f r n fence) s = execCommandFetch f r n fence s := rfl
theorem exec_completionPost (f r : Nat) (ok : Bool) (s : State) : exec (.completionPost f r ok) s = execCompletionPost f r ok s := rfl

/-! The doorbells (R379, R384). -/

/-- Two changes that agree on the ring as it stands change it alike. -/
theorem setCq_congr {s : State} {f r : Nat} {g h : CqRing → CqRing} (e : g (cqOf s f r) = h (cqOf s f r)) : setCq s f r g = setCq s f r h := by
  simp only [setCq, setFn]
  exact congrArg (fun q => { s with fns := put s.fns f { fnOf s f with cq := put (fnOf s f).cq r q } }) e

section
variable {s : State} {f r : Nat} {v : Word} (hs : Serves s) (hv : v &&& 0 = 0) (hon : fnOn s f = true) (hring : r < 8)
include hs hv hon hring

theorem execCmdqTailDb_of_inside (hlo : ((cmdOf s f r).tail - (cmdOf s f r).head).toNat ≤ (v - (cmdOf s f r).head).toNat)
    (hhi : (v - (cmdOf s f r).head).toNat ≤ ringSize (cmdOf s f r).cfg) :
    execCmdqTailDb f r v s = .next (setCmd (wake s) f r (fun q => { q with tail := v })) :=
  fnWrite_answers hs hv hon (by simp only [cmdOf_wake, if_neg (Nat.not_le.mpr hring), if_pos (And.intro hlo hhi)])

theorem execCmdqTailDb_of_outside (h : (v - (cmdOf s f r).head).toNat < ((cmdOf s f r).tail - (cmdOf s f r).head).toNat ∨
      ringSize (cmdOf s f r).cfg < (v - (cmdOf s f r).head).toNat) :
    execCmdqTailDb f r v s = .next (setCmd (wake s) f r (fun q => { q with reason := 0x0605 })) := by
  have hout : ¬ (((cmdOf s f r).tail - (cmdOf s f r).head).toNat ≤ (v - (cmdOf s f r).head).toNat ∧
      (v - (cmdOf s f r).head).toNat ≤ ringSize (cmdOf s f r).cfg) := by omega
  exact fnWrite_answers hs hv hon (by simp only [cmdOf_wake, if_neg (Nat.not_le.mpr hring), if_neg hout])

/-- Where no BAND_DONE waits to be passed, the head moves and no session's bytes are consumed (R387). -/
theorem execCqHeadDb_of_inside (hin : (v - (cqOf s f r).head).toNat ≤ ((cqOf s f r).tail - (cqOf s f r).head).toNat)
    (hunread : (cqOf s f r).unread = []) :
    execCqHeadDb f r v s = .next (setLevel (fnSource f r) (decide ((cqOf s f r).tail ≠ v)) (setCq (wake s) f r (fun q => { q with head := v }))) := by
  have hmove : ∀ p : CqRing → Word × Nat × Nat → Bool, setCq (wake s) f r (fun q => { q with head := v, unread := q.unread.filter (p q) })
      = setCq (wake s) f r (fun q => { q with head := v }) := fun p => setCq_congr (by rw [cqOf_wake, hunread, List.filter_nil, ← hunread])
  refine fnWrite_answers hs hv hon ?_
  simp only [cqOf_wake, if_neg (Nat.not_le.mpr hring), if_pos hin, hunread, List.filter_nil, List.foldl_nil]
  rw [hmove (fun q u => !decide ((u.1 - q.head).toNat < (v - q.head).toNat)), cqLevel, cqOf_setCq, cqOf_wake]

theorem execCqHeadDb_of_outside (hout : ((cqOf s f r).tail - (cqOf s f r).head).toNat < (v - (cqOf s f r).head).toNat) :
    execCqHeadDb f r v s = .next (setCq (wake s) f r (fun q => { q with reason := 0x0605 })) :=
  fnWrite_answers hs hv hon (by simp only [cqOf_wake, if_neg (Nat.not_le.mpr hring), if_neg (Nat.not_le.mpr hout)])

end

/-! COMMAND_FETCH (R380). -/

section
variable {s : State} {f r n : Nat} (hr : Runs s) (hring : r < 8) (hon : fnOn s f = true) (hen : (cmdOf s f r).en = true) (h0 : 0 < n) (h8 : n ≤ 8)
  (hrung : n ≤ ((cmdOf s f r).tail - (cmdOf s f r).head).toNat) (hroom : cqFull (cqOf s f (fld (cmdOf s f r).cfg 10 8)) = false)
include hr hring hon hen h0 h8 hrung hroom

/-- Entries that the doorbell has announced are read, unless the first of them is a FENCE and commands of the ring are outstanding. -/
theorem execCommandFetch_of_ready (fence : Bool) :
    execCommandFetch f r n fence s = .next (if fence = true ∧ (cmdOf s f r).outstanding ≠ 0 then setCmd s f r (fun q => { q with waiting := true })
      else setCmd s f r (fun q => { q with head := q.head + BitVec.ofNat 32 n, outstanding := q.outstanding + n, waiting := false })) := by
  have hready : ¬ (8 ≤ r ∨ fnOn s f = false ∨ (cmdOf s f r).en = false ∨ n = 0 ∨ 8 < n ∨
      ((cmdOf s f r).tail - (cmdOf s f r).head).toNat < n ∨ cqFull (cqOf s f (fld (cmdOf s f r).cfg 10 8)) = true) := by
    rw [hon, hen, hroom]
    simp only [Bool.true_eq_false, Bool.false_eq_true, false_or, or_false]
    omega
  rw [execCommandFetch, live_of_runs _ hr, if_neg hready]

end

/-! COMPLETION_POST (R382 to R385). -/

/-- A completion ring after its oldest waiting entry is written; a BAND_DONE stays unread until the host passes it (R387). -/
def entryWritten (e : Cqe) (rest : List Cqe) (q : CqRing) : CqRing :=
  { q with
    front := rest, tail := q.tail + 1,
    unread := match e.bytes with | none => q.unread | some (h, n) => q.unread ++ [(q.tail, h, n)] }

/-- The rings of a function after that: a command that the entry completes is outstanding no more (R380). -/
def ringsPosted (f r : Nat) (e : Cqe) (rest : List Cqe) (s : State) : State :=
  if e.counts then setCmd (setCq s f r (entryWritten e rest)) f e.cmdRing (fun c => { c with outstanding := c.outstanding - 1 })
  else setCq s f r (entryWritten e rest)

section
variable (f r : Nat) (e : Cqe) (rest : List Cqe) (s : State)

theorem ringsPosted_of_counts (hc : e.counts = true) : ringsPosted f r e rest s =
    setCmd (setCq s f r (entryWritten e rest)) f e.cmdRing (fun c => { c with outstanding := c.outstanding - 1 }) := if_pos hc

theorem ringsPosted_of_notice (hc : e.counts = false) : ringsPosted f r e rest s = setCq s f r (entryWritten e rest) := by
  rw [ringsPosted, hc, if_neg Bool.false_ne_true]

theorem ringsPosted_frame : ∃ m, ringsPosted f r e rest s = { s with fns := m } := by
  cases hc : e.counts with
  | true => rw [ringsPosted_of_counts _ _ _ _ _ hc]; exact ⟨_, rfl⟩
  | false => rw [ringsPosted_of_notice _ _ _ _ _ hc]; exact ⟨_, rfl⟩

theorem cqOf_ringsPosted : cqOf (ringsPosted f r e rest s) f r = entryWritten e rest (cqOf s f r) := by
  cases hc : e.counts with
  | true => rw [ringsPosted_of_counts _ _ _ _ _ hc, cqOf_setCmd, cqOf_setCq]
  | false => rw [ringsPosted_of_notice _ _ _ _ _ hc, cqOf_setCq]

theorem outstanding_ringsPosted (hc : e.counts = true) :
    (cmdOf (ringsPosted f r e rest s) f e.cmdRing).outstanding = (cmdOf s f e.cmdRing).outstanding - 1 := by
  rw [ringsPosted_of_counts _ _ _ _ _ hc, cmdOf_setCmd, cmdOf_setCq]

theorem head_ringsPosted : (cmdOf (ringsPosted f r e rest s) f e.cmdRing).head = (cmdOf s f e.cmdRing).head := by
  cases hc : e.counts with
  | true => rw [ringsPosted_of_counts _ _ _ _ _ hc, cmdOf_setCmd, cmdOf_setCq]
  | false => rw [ringsPosted_of_notice _ _ _ _ _ hc, cmdOf_setCq]

theorem fnOf_ringsPosted_ne {g : Nat} (hg : g ≠ f) : fnOf (ringsPosted f r e rest s) g = fnOf s g := by
  cases hc : e.counts with
  | true => rw [ringsPosted_of_counts _ _ _ _ _ hc, fnOf_setCmd_ne _ _ _ _ _ hg, fnOf_setCq_ne _ _ _ _ _ hg]
  | false => rw [ringsPosted_of_notice _ _ _ _ _ hc, fnOf_setCq_ne _ _ _ _ _ hg]

end

section
variable {s : State} {f r : Nat} {e : Cqe} {rest : List Cqe} (hr : Runs s) (hsafe : s.dev.safe = false) (hfront : (cqOf s f r).front = e :: rest)
  (hroom : cqRoom (cqOf s f r) = true)
include hr hsafe hfront hroom

/-- A write that fails faults the ring (R383). -/
theorem execCompletionPost_of_failed : execCompletionPost f r false s = .next (post f 0 0x0412 0 [0, 0, 0, 0]
    { setCq s f r (fun q => { q with fault := true }) with dma := { s.dma with hostFail := up s.dma.hostFail 1 } }) := by
  rw [execCompletionPost, live_of_runs _ hr]
  simp only [hfront, hsafe, hroom, Bool.not_true, Bool.or_self, Bool.not_false, Bool.false_eq_true, if_false, if_true]

/-- An entry that has its mark already is written as it stands. -/
theorem execCompletionPost_of_marked {m : Mark} (hm : e.mark = some m) : execCompletionPost f r true s = .next (cqLevel f r (emit
    (.completion f r (cqOf s f r).tail (phaseOf (cqOf s f r).tail (ringSize (cqOf s f r).cfg)) (cmdOf s f e.cmdRing).head e)
    (ringsPosted f r e rest s))) := by
  have hself : { e with mark := some m } = e := by rw [← hm]
  rw [← head_ringsPosted f r e rest s, execCompletionPost, live_of_runs _ hr]
  simp only [hfront, hsafe, hroom, hm, hself, Bool.not_true, Bool.or_self, Bool.false_eq_true, if_false, if_true, Option.isSome_some,
    Option.getD_some]
  rfl

end

/-- Settles O23: each clause is the case of its doorbell, fetch or post that its hypotheses name; what a post changes is read off `ringsPosted`, and
the level source that follows it touches no ring. -/
theorem ringsCarryCommandsAndCompletions : Obligations.RingsCarryCommandsAndCompletions := by
  unfold Obligations.RingsCarryCommandsAndCompletions Completes
  simp only [exec_cmdqTailDb, exec_cqHeadDb, exec_commandFetch, exec_completionPost]
  refine ⟨?tailTaken, ?tailBeyond, ?fetched, ?fenced, ?posted, ?failed, ?headTaken, ?headBeyond⟩
  case tailTaken => exact fun f r v s hs hv hon hring hlo hhi => execCmdqTailDb_of_inside hs hv hon hring hlo hhi
  case tailBeyond => exact fun f r v s hs hv hon hring h => execCmdqTailDb_of_outside hs hv hon hring h
  case fetched =>
    intro f r n fence s hr hring hon hen h0 h8 hrung hroom hfence
    have hgo : ¬ (fence = true ∧ (cmdOf s f r).outstanding ≠ 0) := by
      rintro ⟨hset, hout⟩
      exact hfence.elim (fun h => by rw [hset] at h; cases h) hout
    rw [execCommandFetch_of_ready hr hring hon hen h0 h8 hrung hroom, if_neg hgo]
  case fenced =>
    intro f r n s hr hring hon hen h0 h8 hrung hroom hout
    rw [execCommandFetch_of_ready hr hring hon hen h0 h8 hrung hroom, if_pos ⟨rfl, hout⟩]
  case posted =>
    intro f r e l m s hr hsafe hfront hroom hm
    obtain ⟨fns, hposted⟩ := ringsPosted_frame f r e l s
    obtain ⟨i, p, hlevel⟩ := cqLevel_frame f r (emit (.completion f r (cqOf s f r).tail
      (phaseOf (cqOf s f r).tail (ringSize (cqOf s f r).cfg)) (cmdOf s f e.cmdRing).head e) (ringsPosted f r e l s))
    have hcq := cqOf_ringsPosted f r e l s
    refine ⟨_, (execCompletionPost_of_marked hr hsafe hfront hroom hm).trans (congrArg _ hlevel), ⟨_, ?_, rfl, congrArg CqRing.front hcq⟩,
      congrArg CqRing.tail hcq, fun hc => outstanding_ringsPosted f r e l s hc, fun g hg => fnOf_ringsPosted_ne f r e l s hg, ?_⟩
    · rw [hposted]; rfl
    · rw [hposted]; rfl
  case failed => exact fun f r e l s hr hsafe hfront hroom => execCompletionPost_of_failed hr hsafe hfront hroom
  case headTaken => exact fun f r v s hs hv hon hring hin hunread => execCqHeadDb_of_inside hs hv hon hring hin hunread
  case headBeyond => exact fun f r v s hs hv hon hring hout => execCqHeadDb_of_outside hs hv hon hring hout

end Sys2Proof.Machine
end

section
/-! DMA_CH_CTRL, DMA_CH_DB and DMA_CH_OWNER, and the statement on them (R388, R391, R392, R395, R403). -/

namespace Sys2Proof.Machine
open Sys2Proof

theorem exec_dmaChEnable (c : Nat) (s : State) : exec (.dmaChEnable c) s = execDmaChEnable c s := rfl
theorem exec_dmaChDisable (c : Nat) (s : State) : exec (.dmaChDisable c) s = execDmaChDisable c s := rfl
theorem exec_dmaChDb (c : Nat) (s : State) : exec (.dmaChDb c) s = execDmaChDb c s := rfl
theorem exec_dmaChOwnerWrite (f c : Nat) (v : Word) (s : State) : exec (.dmaChOwnerWrite f c v) s = execDmaChOwnerWrite f c v s := rfl

/-- A disabled channel reads IDLE and has no descriptor; what R395 leaves open of it takes four free values (log entry 4). -/
theorem dmaDisable_of_enabled {c : Nat} {s : State} (hen : (dmaOf s c).en = true) : ∃ g : DmaCh → DmaCh,
    dmaDisable c s = setDma { s with freeCtr := s.freeCtr + 4 } c g ∧
    ∀ x, (g x).en = false ∧ (g x).state = 0 ∧ (g x).busy = false ∧ (g x).desc = none := by
  rw [dmaDisable, if_pos hen]
  exact ⟨_, rfl, fun x => ⟨rfl, rfl, rfl, rfl⟩⟩

section
variable {s : State} {c : Nat} (hs : Serves s) (hc : c < 64)
include hs hc

/-! DMA_CH_CTRL.ENABLE (R391, R395). -/

theorem execDmaChDisable_of_lt : execDmaChDisable c s = .next (dmaDisable c (wake s)) := by
  rw [execDmaChDisable, blockWrite_of_serves _ hs, if_pos hc]

section
variable (hen : (dmaOf s c).en = false)
include hen

theorem execDmaChEnable_of_badChain (hchain : (dmaOf s c).chain = 0 ∨ (dmaOf s c).chain.toNat % 32 ≠ 0) :
    execDmaChEnable c s = .next (setDma (wake s) c (fun x => { x with reason := 0x0408 })) := by
  rw [execDmaChEnable, blockWrite_of_serves _ hs, if_pos hc]
  simp only [dmaEnable, dmaOf_wake, hen, Bool.false_eq_true, if_false, if_pos hchain, dmaRefuse]

section
variable (hset : (dmaOf s c).chain ≠ 0) (halign : (dmaOf s c).chain.toNat % 32 = 0)
include hset halign

/-- A chain address that is good leaves the checks of the owner and of the channel (R391). -/
theorem execDmaChEnable_of_chain : execDmaChEnable c s = .next (
    if tenant c = true ∧ ¬ (bit (dmaOf s c).owner 8 = true ∧ fnOn s (fld (dmaOf s c).owner 7 0) = true) then
      setDma (wake s) c (fun x => { x with reason := 0x0407 })
    else if 56 ≤ c then setDma (wake s) c (fun x => { x with reason := 0x0409 })
    else setDma (wake s) c (fun x => { x with
      en := true, state := 1, done := 0, retries := 0, cmpOff := 0, cur := x.chain, busy := true, db := false, refetch := false, desc := none,
      errPend := none, tries := 0 })) := by
  have hgood : ¬ ((dmaOf s c).chain = 0 ∨ (dmaOf s c).chain.toNat % 32 ≠ 0) := not_or.mpr ⟨hset, not_not_intro halign⟩
  rw [execDmaChEnable, blockWrite_of_serves _ hs, if_pos hc]
  simp only [dmaEnable, dmaOf_wake, fnOn_wake, hen, Bool.false_eq_true, if_false, if_neg hgood, dmaRefuse]

theorem execDmaChEnable_of_noOwner (htenant : c < 48) (howner : bit (dmaOf s c).owner 8 = false ∨ fnOn s (fld (dmaOf s c).owner 7 0) = false) :
    execDmaChEnable c s = .next (setDma (wake s) c (fun x => { x with reason := 0x0407 })) := by
  have hnone : ¬ (bit (dmaOf s c).owner 8 = true ∧ fnOn s (fld (dmaOf s c).owner 7 0) = true) := by
    rintro ⟨h8, hon⟩
    rcases howner with h | h
    · rw [h8] at h; cases h
    · rw [hon] at h; cases h
  rw [execDmaChEnable_of_chain hs hc hen hset halign, if_pos ⟨decide_eq_true htenant, hnone⟩]

theorem execDmaChEnable_of_noChannel (hhi : 56 ≤ c) : execDmaChEnable c s = .next (setDma (wake s) c (fun x => { x with reason := 0x0409 })) := by
  have hservice : tenant c = false := decide_eq_false (by omega)
  rw [execDmaChEnable_of_chain hs hc hen hset halign, if_neg (by simp [hservice]), if_pos hhi]

theorem execDmaChEnable_of_good (hlo : c < 56) (howner : 48 ≤ c ∨ (bit (dmaOf s c).owner 8 = true ∧ fnOn s (fld (dmaOf s c).owner 7 0) = true)) :
    execDmaChEnable c s = .next (setDma (wake s) c (fun x => { x with
      en := true, state := 1, done := 0, retries := 0, cmpOff := 0, cur := x.chain, busy := true, db := false, refetch := false, desc := none,
      errPend := none, tries := 0 })) := by
  have howned : ¬ (tenant c = true ∧ ¬ (bit (dmaOf s c).owner 8 = true ∧ fnOn s (fld (dmaOf s c).owner 7 0) = true)) := by
    rintro ⟨htenant, hnone⟩
    exact howner.elim (Nat.not_le.mpr (of_decide_eq_true htenant)) hnone
  rw [execDmaChEnable_of_chain hs hc hen hset halign, if_neg howned, if_neg (Nat.not_le.mpr hlo)]

end
end

/-! DMA_CH_DB (R392). -/

theorem execDmaChDb_of_running (hst : (dmaOf s c).state = 1) :
    execDmaChDb c s = .next (setDma (wake s) c (fun x => { x with dbCount := up x.dbCount 1, db := true })) := by
  rw [execDmaChDb, blockWrite_of_serves _ hs, if_neg (Nat.not_le.mpr hc)]
  simp only [dmaOf_wake, hst, setDma_setDma]

theorem execDmaChDb_of_waiting (hst : (dmaOf s c).state = 2) : execDmaChDb c s =
    .next (setDma (wake s) c (fun x => { x with dbCount := up x.dbCount 1, state := 1, busy := true, refetch := true, db := false })) := by
  rw [execDmaChDb, blockWrite_of_serves _ hs, if_neg (Nat.not_le.mpr hc)]
  simp only [dmaOf_wake, hst, setDma_setDma]

theorem execDmaChDb_of_other (h1 : (dmaOf s c).state ≠ 1) (h2 : (dmaOf s c).state ≠ 2) :
    execDmaChDb c s = .next (setDma (wake s) c (fun x => { x with dbCount := up x.dbCount 1 })) := by
  rw [execDmaChDb, blockWrite_of_serves _ hs, if_neg (Nat.not_le.mpr hc)]
  simp only [dmaOf_wake]

end

/-! DMA_CH_OWNER in the DMA block (R403). -/

section
variable {s : State} {c : Nat} {v : Word} (hs : Serves s) (hv : v &&& 0xFFFFFE00 = 0)
include hs hv

theorem execDmaChOwnerWrite_of_enabled (hc : c < 64) (hen : (dmaOf s c).en = true) :
    execDmaChOwnerWrite 0 c v s = .next (setDma (wake s) c (fun x => { x with reason := 0x040F })) :=
  fnWrite_answers hs hv rfl (by simp only [ne_eq, not_true, if_false, if_neg (Nat.not_le.mpr hc), dmaOf_wake, if_pos hen, dmaRefuse])

/-- A TENANT channel goes to a function that has fewer than 8 others, or to none. -/
theorem execDmaChOwnerWrite_of_tenant (hc : c < 48) (hen : (dmaOf s c).en = false) : execDmaChOwnerWrite 0 c v s = .next (
    if (bit v 8 && decide (8 ≤ ((ownedBy s (fld v 7 0)).filter (fun k => k != c)).length)) = true then
      setDma (wake s) c (fun x => { x with reason := 0x0416 })
    else setDma (wake s) c (fun x => { x with owner := v })) := by
  have htenant : tenant c = true := decide_eq_true hc
  have hlo : ¬ 64 ≤ c := by omega
  exact fnWrite_answers hs hv rfl (by
    simp only [ne_eq, not_true, if_false, if_neg hlo, dmaOf_wake, ownedBy_wake, hen, htenant, Bool.not_true, Bool.false_eq_true, dmaRefuse])

end

/-- Settles O24: each clause is the case of its register write that its hypotheses name; a disabled channel is read off `dmaDisable_of_enabled`. -/
theorem dmaChannelsAreControlled : Obligations.DmaChannelsAreControlled := by
  unfold Obligations.DmaChannelsAreControlled Completes
  simp only [exec_dmaChEnable, exec_dmaChDisable, exec_dmaChDb, exec_dmaChOwnerWrite]
  refine ⟨?enabled, ?badChain, ?noOwner, ?noChannel, ?disabled, ?running, ?waiting, ?other, ?ownerBusy, ?ownerFull, ?ownerTaken⟩
  case enabled => exact fun c s hs hc hen hset halign hlo howner => execDmaChEnable_of_good hs hc hen hset halign hlo howner
  case badChain => exact fun c s hs hc hen hchain => execDmaChEnable_of_badChain hs hc hen hchain
  case noOwner => exact fun c s hs hc hen hset halign htenant howner => execDmaChEnable_of_noOwner hs hc hen hset halign htenant howner
  case noChannel => exact fun c s hs hc hen hset halign hhi => execDmaChEnable_of_noChannel hs hc hen hset halign hhi
  case disabled =>
    intro c s hs hc hen
    obtain ⟨g, hg, hoff⟩ := dmaDisable_of_enabled (c := c) (s := wake s) (by rw [dmaOf_wake, hen])
    refine ⟨_, (execDmaChDisable_of_lt hs hc).trans (congrArg _ hg), ?_⟩
    simp only [dmaOf_setDma]
    obtain ⟨hen', hst, hbusy, hdesc⟩ := hoff (dmaOf { wake s with freeCtr := (wake s).freeCtr + 4 } c)
    refine ⟨hen', hst, hbusy, hdesc, fun k hk => (dmaOf_setDma_ne _ g hk).trans (dmaOf_wake s k), ?_⟩
    rw [setDma, wake_dma, wake_freeCtr]
  case running => exact fun c s hs hc hst => execDmaChDb_of_running hs hc hst
  case waiting => exact fun c s hs hc hst => execDmaChDb_of_waiting hs hc hst
  case other => exact fun c s hs hc h1 h2 => execDmaChDb_of_other hs hc h1 h2
  case ownerBusy => exact fun c v s hs hv hc hen => execDmaChOwnerWrite_of_enabled hs hv hc hen
  case ownerFull =>
    intro c v s hs hv hc hen hvalid hfull
    rw [execDmaChOwnerWrite_of_tenant hs hv hc hen, if_pos (by rw [hvalid, decide_eq_true hfull]; rfl)]
  case ownerTaken =>
    intro c v s hs hv hc hen hroom
    have hok : ¬ (bit v 8 && decide (8 ≤ ((ownedBy s (fld v 7 0)).filter (fun k => k != c)).length)) = true := by
      rcases hroom with h | h
      · simp [h]
      · simp [Nat.not_le.mpr h]
    rw [execDmaChOwnerWrite_of_tenant hs hv hc hen, if_neg hok]

end Sys2Proof.Machine
end

section
/-! Descriptors fetched, run, retried and halted, and the statement on them (R389, R390, R392 to R394). -/

namespace Sys2Proof.Machine
open Sys2Proof

theorem exec_descriptorFetched (c : Nat) (d : Desc) (s : State) : exec (.descriptorFetched c d) s = execDescriptorFetched c d s := rfl
theorem exec_descriptorComplete (c : Nat) (bs : List Byte) (k : Option Nat) (s : State) :
    exec (.descriptorComplete c bs k) s = execDescriptorComplete c bs k s := rfl
theorem exec_dmaBusError (c : Nat) (e : BusErr) (s : State) : exec (.dmaBusError c e) s = execDmaBusError c e s := rfl
theorem exec_dmaRetry (c : Nat) (s : State) : exec (.dmaRetry c) s = execDmaRetry c s := rfl

/-! The next fetch of a channel (R391, R392). -/

section
variable {d : Desc} (c : Nat) (s : State)

theorem dmaFollow_of_link (hend : descEndBit d = false) : dmaFollow c d s =
    setDma s c (fun x => { x with cur := descLink d, refetch := false, db := false, desc := none, busy := true, tries := 0 }) := by
  rw [dmaFollow, hend, if_neg Bool.false_ne_true]

theorem dmaFollow_of_end (hend : descEndBit d = true) (hdb : (dmaOf s c).db = false) : dmaFollow c d s =
    setDma s c (fun x => { x with state := 2, refetch := false, desc := none, busy := false, tries := 0 }) := by
  rw [dmaFollow, if_pos hend, hdb, if_neg Bool.false_ne_true]

/-- A descriptor that is neither the last nor to interrupt is counted, and its link is fetched (R393). -/
theorem descDone_of_link (hirq : descIrq d = false) (hend : descEndBit d = false) : descDone c d s = setDma s c (fun x => { x with
    done := x.done + 1, cur := descLink d, refetch := false, db := false, desc := none, busy := true, tries := 0 }) := by
  rw [descDone, hirq, dmaFollow_of_link c _ hend, setDma_setDma]
  rfl

end

/-! DESCRIPTOR_FETCHED (R390 to R392). -/

section
variable {s : State} {c : Nat} {d : Desc} (hr : Runs s) (hst : (dmaOf s c).state = 1) (hnoerr : (dmaOf s c).errPend = none)
  (hidle : (dmaOf s c).desc = none)
include hr hst hnoerr hidle

theorem execDescriptorFetched_of_reread (hre : (dmaOf s c).refetch = true) : execDescriptorFetched c d s = .next (dmaFollow c d s) := by
  rw [execDescriptorFetched, live_of_runs _ hr]
  simp [hst, hnoerr, hidle, hre]

section
variable (hfirst : (dmaOf s c).refetch = false)
include hfirst

theorem execDescriptorFetched_of_code {k : Code} (hk : descCode s c d = some k) : execDescriptorFetched c d s = .next (dmaHalt c k s) := by
  rw [execDescriptorFetched, live_of_runs _ hr]
  simp [hst, hnoerr, hidle, hfirst, hk]

theorem execDescriptorFetched_of_ok (hok : descCode s c d = none) :
    execDescriptorFetched c d s = .next (setDma s c (fun x => { x with desc := some d, tries := 0 })) := by
  rw [execDescriptorFetched, live_of_runs _ hr]
  simp [hst, hnoerr, hidle, hfirst, hok]

end
end

/-! DESCRIPTOR_COMPLETE (R393). -/

section
variable {s : State} {c : Nat} {d : Desc} (hr : Runs s) (hst : (dmaOf s c).state = 1) (hdesc : (dmaOf s c).desc = some d)
  (hnoerr : (dmaOf s c).errPend = none)
include hr hst hdesc hnoerr

/-- The bytes of the host range go to device memory. -/
theorem execDescriptorComplete_of_hostSource {bs : List Byte} (hlen : bs.length = d.len) (hsrc : descSrcDev d = false) (hdst : descDstDev d = true)
    (hfill : descFill d = false) (hcmp : descCompare d = false) : execDescriptorComplete c bs none s =
      .next (descDone c d (storeMem ((dmaAddr s c d.dst d.len).getD 0) (swapBytes (descSwap d) bs) s)) := by
  rw [execDescriptorComplete, live_of_runs _ hr]
  simp [hst, hdesc, hnoerr, hlen, hsrc, hdst, hfill, hcmp, descData]

/-- Bytes of device memory go to the host range, and its last word is read back. -/
theorem execDescriptorComplete_of_devSource (hsrc : descSrcDev d = true) (hclean : meetsPoison s ((dmaAddr s c d.src d.len).getD 0) d.len = false)
    (hdst : descDstDev d = false) (hfill : descFill d = false) (hcmp : descCompare d = false) : execDescriptorComplete c [] none s =
      .next (descDone c d (emit (.hostFlush (dmaFn s c) (d.dst + BitVec.ofNat 64 (d.len - 1) &&& ~~~3#64)) (emit (.hostBytes (dmaFn s c) d.dst
        (swapBytes (descSwap d) (rdCells memDefault s.mem ((dmaAddr s c d.src d.len).getD 0) d.len))) s))) := by
  rw [execDescriptorComplete, live_of_runs _ hr]
  simp [hst, hdesc, hnoerr, hsrc, hclean, hdst, hfill, hcmp, descData]

/-- A difference that a COMPARE of two host ranges finds halts the channel at its offset. -/
theorem execDescriptorComplete_of_diff {k : Nat} (hsrc : descSrcDev d = false) (hcmp : descCompare d = true) :
    execDescriptorComplete c [] (some k) s = .next (setDma (dmaHalt c 0x040E s) c (fun x => { x with cmpOff := k })) := by
  rw [execDescriptorComplete, live_of_runs _ hr]
  simp [hst, hdesc, hnoerr, hsrc, hcmp, descDiff]

end

/-! DMA_BUS_ERROR and DMA_RETRY (R394). -/

section
variable {s : State} {c : Nat} (hr : Runs s)
include hr

theorem execDmaRetry_of_pending {k : Nat} (herr : (dmaOf s c).errPend = some k) :
    execDmaRetry c s = .next (setDma s c (fun x => { x with errPend := none })) := by
  rw [execDmaRetry, live_of_runs _ hr, herr]
  rfl

/-- A bus error of a transfer is retried until as many retries as DMA_RETRY_LIMIT says have failed. -/
theorem execDmaBusError_of_running (e : BusErr) (hst : (dmaOf s c).state = 1) (hnoerr : (dmaOf s c).errPend = none) : execDmaBusError c e s = .next (
    if fld s.dma.retryLimit 2 0 ≤ (dmaOf s c).tries then setDma (dmaHalt c 0x040D s) c (fun x => { x with errKind := errKindOf e })
    else setDma s c (fun x => { x with errPend := some (errKindOf e), tries := x.tries + 1, retries := up x.retries 1 })) := by
  rw [execDmaBusError, live_of_runs _ hr]
  simp [hst, hnoerr]

end

/-- Settles O25: each clause is the case of its event that its hypotheses name; a transfer that completes goes on as `descDone_of_link` says. -/
theorem dmaDescriptorsRun : Obligations.DmaDescriptorsRun := by
  unfold Obligations.DmaDescriptorsRun
  simp only [exec_descriptorFetched, exec_descriptorComplete, exec_dmaBusError, exec_dmaRetry]
  refine ⟨?kept, ?halted, ?linked, ?ended, ?toDevice, ?toHost, ?differs, ?reissued, ?retried, ?failed⟩
  case kept => exact fun c d s hr hst hnoerr hidle hfirst hok => execDescriptorFetched_of_ok hr hst hnoerr hidle hfirst hok
  case halted => exact fun c d k s hr hst hnoerr hidle hfirst hk => execDescriptorFetched_of_code hr hst hnoerr hidle hfirst hk
  case linked =>
    intro c d s hr hst hnoerr hidle hre hend
    rw [execDescriptorFetched_of_reread hr hst hnoerr hidle hre, dmaFollow_of_link c s hend]
  case ended =>
    intro c d s hr hst hnoerr hidle hre hend hdb
    rw [execDescriptorFetched_of_reread hr hst hnoerr hidle hre, dmaFollow_of_end c s hend hdb]
  case toDevice =>
    intro c d bs s hr hst hdesc hnoerr hlen hsrc hdst hfill hcmp hirq hend
    rw [execDescriptorComplete_of_hostSource hr hst hdesc hnoerr hlen hsrc hdst hfill hcmp, descDone_of_link c _ hirq hend]
  case toHost =>
    intro c d s hr hst hdesc hnoerr hsrc hclean hdst hfill hcmp hirq hend
    rw [execDescriptorComplete_of_devSource hr hst hdesc hnoerr hsrc hclean hdst hfill hcmp, descDone_of_link c _ hirq hend]
    simp only [emit, List.append_assoc, List.cons_append, List.nil_append]
  case differs =>
    intro c k d s hr hst hdesc hnoerr hsrc _ _ hcmp
    rw [execDescriptorComplete_of_diff hr hst hdesc hnoerr hsrc hcmp, dmaHalt, setDma_setDma]
  case reissued => exact fun c k s hr herr => execDmaRetry_of_pending hr herr
  case retried =>
    intro c e s hr hst hnoerr hmore
    rw [execDmaBusError_of_running hr e hst hnoerr, if_neg (Nat.not_le.mpr hmore)]
  case failed =>
    intro c e s hr hst hnoerr hmax
    rw [execDmaBusError_of_running hr e hst hnoerr, if_pos hmax, dmaHalt, setDma_setDma]

end Sys2Proof.Machine
end

section
/-! Keys loaded and erased, snapshots and command entries that fail their checks, and the statement on them (R381, R399, R549 to R552). -/

namespace Sys2Proof.Machine
open Sys2Proof

theorem exec_keyLoad (h : Hdr) (o : KeyOps) (s : State) : exec (.keyLoad h o) s = execKeyLoad h o s := rfl
theorem exec_keyErase (h : Hdr) (o : KeyOps) (s : State) : exec (.keyErase h o) s = execKeyErase h o s := rfl
theorem exec_snapshotSession (h : Hdr) (a : DWord) (pad : Nat) (s : State) : exec (.snapshotSession h a pad) s = execSnapshotSession h a pad s := rfl
theorem exec_snapshotFunction (h : Hdr) (a : DWord) (pad : Nat) (s : State) :
    exec (.snapshotFunction h a pad) s = execSnapshotFunction h a pad s := rfl
theorem exec_commandEntryInvalid (e : RawEntry) (s : State) : exec (.commandEntryInvalid e) s = execCommandEntryInvalid e s := rfl

/-! The blob of a KEY_LOAD (R551): what the agreement and the unwrapping make of it. -/

section
variable {h : Hdr} {o : KeyOps}

theorem blobOk_of_malformed (hbad : o.blob.length ≠ 176 ∨ slice o.blob 0 4 ≠ [0x57, 0x4B, 0x45, 0x59] ∨ le o.blob 4 1 ≠ o.kind ∨
      keyLenOk o.kind (le o.blob 5 1) = false ∨ 64 < le o.blob 0x68 2) : blobOk o = false := by
  rcases hbad with hbad | hbad | hbad | hbad | hbad
  · simp only [blobOk, decide_eq_false hbad, Bool.false_and]
  · simp only [blobOk, decide_eq_false hbad, Bool.and_false, Bool.false_and]
  · simp only [blobOk, decide_eq_false hbad, Bool.and_false, Bool.false_and]
  · simp only [blobOk, hbad, Bool.and_false, Bool.false_and]
  · simp only [blobOk, decide_eq_false (Nat.not_le.mpr hbad), Bool.and_false, Bool.false_and]

theorem unwrapBlob_of_malformed (hb : blobOk o = false) : unwrapBlob h o = .error 0x090D := by
  simp only [unwrapBlob, hb, Bool.not_false, if_true]

section
variable (hb : blobOk o = true)
include hb

theorem unwrapBlob_of_noPoint (hp : Config.ecdhX agreementKey (slice o.blob 8 96) = none) : unwrapBlob h o = .error 0x090D := by
  simp only [unwrapBlob, hb, hp, Bool.not_true, Bool.false_eq_true, if_false]

section
variable {p : List Byte} (hp : Config.ecdhX agreementKey (slice o.blob 8 96) = some p)
include hp

theorem unwrapBlob_of_noKey (hm : Config.keyUnwrap (kekOf h o p) (slice o.blob 0x70 (le o.blob 0x68 2)) = none) :
    unwrapBlob h o = .error 0x090C := by
  simp only [unwrapBlob, hb, hp, hm, Bool.not_true, Bool.false_eq_true, if_false]

/-- What unwraps is the key and, of a flow key, its salt, when it is as long as both (R551). -/
theorem unwrapBlob_of_unwrapped {m : List Byte} (hm : Config.keyUnwrap (kekOf h o p) (slice o.blob 0x70 (le o.blob 0x68 2)) = some m) :
    unwrapBlob h o = if m.length = le o.blob 5 1 + (if o.kind = 1 then 12 else 0) then
      .ok (le o.blob 5 1, BitVec.ofNat 256 (leNat (m.take (le o.blob 5 1))), BitVec.ofNat 96 (leNat (m.drop (le o.blob 5 1))))
    else .error 0x090C := by
  simp only [unwrapBlob, hb, hp, hm, Bool.not_true, Bool.false_eq_true, if_false]

end
end
end

section
variable {h : Hdr} {o : KeyOps} {n : Nat} {x : Session} {k : Nat} {s : State}

theorem applyKey_of_error {c : Code} (hu : unwrapBlob h o = .error c) : applyKey k n h o s = refuse h 9 c s := by
  rw [applyKey, hu]

theorem applyKey_of_ok {len : Nat} {material : BitVec 256} {salt : BitVec 96} (hu : unwrapBlob h o = .ok (len, material, salt)) :
    applyKey k n h o s = complete h 9 0 [BitVec.ofNat 32 k] (putKey k o.kind o.ownerFn n len material salt s) := by
  rw [applyKey, hu]

theorem loadKey_of_error {c : Code} (hu : unwrapBlob h o = .error c) : loadKey n x h o s = refuse h 9 c s := by
  rw [loadKey, hu]

/-- The blob of a session that is not mirrored goes into the lowest free slot at once (R437, R550). -/
theorem loadKey_of_unpaired (hrole : x.tan.role = 0) (hfree : freeSlot s = some k) : loadKey n x h o s = applyKey k n h o s := by
  cases hu : unwrapBlob h o with
  | error c => rw [loadKey_of_error hu, applyKey_of_error hu]
  | ok key =>
    simp only [loadKey, hu, hfree]
    exact forwardOr_of_unpaired _ _ _ _ hrole

end

/-! KEY_LOAD and KEY_ERASE (R550, R552). -/

section
variable {h : Hdr} {o : KeyOps} {s : State} (ht : Takes s h)
include ht

theorem execKeyLoad_of_session {n : Nat} {x : Session} (hc : keyCode h o = none) (hsess : keySession s h o = some (n, x)) (hrole : x.tan.role ≠ 2) :
    execKeyLoad h o s = .next (loadKey n x h o s) := by
  rw [execKeyLoad, sessionCmd_of_takes _ _ _ ht]
  simp only [hc, hsess, if_neg hrole]

/-- An ERASE whose operands are good and whose session is its owner's looks at the slot (R552). -/
theorem execKeyErase_of_slot {k : Key} {p : Nat × Session} (hkind : o.kind = 0) (hown : o.ownerFn = h.fn) (hfn : o.ownerFn ≤ 255) (hpad : o.pad = 0)
    (haddr : o.addr = 0) (hsess : keySession s h o = some p) (hk : look s.sec.keys o.slot = some k) : execKeyErase h o s = .next (
      if k.ownerFn ≠ o.ownerFn then refuse h 9 0x090E s
      else if keyInUse s o.slot then refuse h 9 0x090F s
      else complete h 9 0 [BitVec.ofNat 32 o.slot] { s with sec := { s.sec with keys := del s.sec.keys o.slot } }) := by
  have hauth : ¬ (h.fn ≠ 0 ∧ (o.kind ≠ 0 ∨ o.ownerFn ≠ h.fn)) := fun hbad => hbad.2.elim (fun e => e hkind) (fun e => e hown)
  have hops : ¬ (1 < o.kind ∨ 255 < o.ownerFn ∨ o.pad ≠ 0 ∨ o.addr ≠ 0) := by
    rintro (hbad | hbad | hbad | hbad)
    · omega
    · omega
    · exact hbad hpad
    · exact hbad haddr
  rw [execKeyErase, sessionCmd_of_takes _ _ _ ht]
  simp only [if_neg hauth, if_neg hops, hsess, Option.isNone_some, Bool.false_eq_true, if_false, hk]

end

/-! Snapshots (R399). -/

section
variable {h : Hdr} {a : DWord} {s : State}

theorem execSnapshotSession_of_token {n : Nat} {x : Session} (ht : Takes s h) (htok : tokenSession s h.fn h.token = some (n, x)) (pad : Nat) :
    execSnapshotSession h a pad s =
      .next (if pad ≠ 0 ∨ a.toNat % 64 ≠ 0 then refuse h 0x0D 0x0410 s else snapshot h a 0 h.token x.stats s) :=
  sessionCmd_onToken ht htok _ _ _

theorem execSnapshotFunction_of_aligned (hh : Hears s h) (htok : h.token = 0) (ha : a.toNat % 64 = 0) :
    execSnapshotFunction h a 0 s = .next (snapshot h a 1 0 (fnOf s h.fn).stats s) := by
  rw [execSnapshotFunction, plainCmd_of_hears _ hh, if_neg]
  simp [htok, ha]

end

/-! COMMAND_ENTRY_INVALID (R74, R381). -/

section
variable {e : RawEntry} {s : State} (hr : Runs s) (hon : fnOn s e.fn = true)
include hr hon

theorem execCommandEntryInvalid_of_guard (hsess : sessionEntry e = true) (hw : s.bell.window = .guard) :
    execCommandEntryInvalid e s = .next { s with deferred := s.deferred ++ [.commandEntryInvalid e] } := by
  rw [execCommandEntryInvalid, plainCmd_of_hears _ ⟨hr, hon⟩]
  simp only [hsess, hw, decide_true, Bool.and_self, if_true]

section
variable (hnow : sessionEntry e = false ∨ s.bell.window ≠ .guard)
include hnow

theorem execCommandEntryInvalid_of_code {c : Code} (hc : entryCode e = some c) :
    execCommandEntryInvalid e s = .next (refuse { fn := e.fn, ring := e.ring, cid := e.cid, token := e.token } e.opcode c s) := by
  have hgo : (sessionEntry e && decide (s.bell.window = .guard)) = false := by rcases hnow with h | h <;> simp [h]
  rw [execCommandEntryInvalid, plainCmd_of_hears _ ⟨hr, hon⟩]
  simp only [hgo, Bool.false_eq_true, if_false, hc]

theorem execCommandEntryInvalid_of_selector {n : Nat} {c : Code} (hc : entryCode e = none) (hsel : selectorCode e.opcode = some (n, c))
    (hbig : n < e.sel) :
    execCommandEntryInvalid e s = .next (refuseSelector { fn := e.fn, ring := e.ring, cid := e.cid, token := e.token } e.opcode c s) := by
  have hgo : (sessionEntry e && decide (s.bell.window = .guard)) = false := by rcases hnow with h | h <;> simp [h]
  rw [execCommandEntryInvalid, plainCmd_of_hears _ ⟨hr, hon⟩]
  simp only [hgo, Bool.false_eq_true, if_false, hc, hsel, if_pos hbig]

end
end

/-- Settles O11: each clause is the case of its command that its hypotheses name; the key of a well-formed blob follows the three outcomes of the
agreement and the unwrapping. -/
theorem keysSnapshotsAndInvalidEntries : Obligations.KeysSnapshotsAndInvalidEntries := by
  unfold Obligations.KeysSnapshotsAndInvalidEntries
  simp only [exec_keyLoad, exec_keyErase, exec_snapshotSession, exec_snapshotFunction, exec_commandEntryInvalid]
  refine ⟨?loaded, ?malformed, ?erased, ?foreign, ?session, ?unaligned, ?function, ?refused, ?selector, ?deferred⟩
  case loaded =>
    intro h o n k x s ht hc hsess hrole hb hfree
    rw [execKeyLoad_of_session ht hc hsess (by rw [hrole]; decide), loadKey_of_unpaired hrole hfree]
    cases hp : Config.ecdhX agreementKey (slice o.blob 8 96) with
    | none => rw [applyKey_of_error (unwrapBlob_of_noPoint hb hp)]
    | some p =>
      cases hm : Config.keyUnwrap (kekOf h o p) (slice o.blob 0x70 (le o.blob 0x68 2)) with
      | none => simp only [applyKey_of_error (unwrapBlob_of_noKey hb hp hm), hm]
      | some m =>
        have hu := unwrapBlob_of_unwrapped (h := h) hb hp hm
        by_cases hlen : m.length = le o.blob 5 1 + (if o.kind = 1 then 12 else 0)
        · rw [if_pos hlen] at hu
          simp only [applyKey_of_ok hu, hm, if_pos hlen]
          rfl
        · rw [if_neg hlen] at hu
          simp only [applyKey_of_error hu, hm, if_neg hlen]
  case malformed =>
    intro h o n x s ht hc hsess hrole hbad
    rw [execKeyLoad_of_session ht hc hsess hrole, loadKey_of_error (unwrapBlob_of_malformed (blobOk_of_malformed hbad))]
  case erased =>
    intro h o k p s ht hkind hown hfn hpad haddr hsess hk howner hfree
    rw [execKeyErase_of_slot ht hkind hown hfn hpad haddr hsess hk, if_neg (not_not_intro howner), hfree, if_neg Bool.false_ne_true]
  case foreign =>
    intro h o k p s ht hkind hown hfn hpad haddr hsess hk howner
    rw [execKeyErase_of_slot ht hkind hown hfn hpad haddr hsess hk, if_pos howner]
  case session =>
    intro h n x a s ht htok ha
    rw [execSnapshotSession_of_token ht htok, if_neg (by simp [ha])]
  case unaligned =>
    intro h n x a pad s ht htok hbad
    rw [execSnapshotSession_of_token ht htok, if_pos hbad]
  case function => exact fun h a s hh htok ha => execSnapshotFunction_of_aligned hh htok ha
  case refused => exact fun e c s hr hon hnow hc => execCommandEntryInvalid_of_code hr hon hnow hc
  case selector => exact fun e n c s hr hon hnow hc hsel hbig => execCommandEntryInvalid_of_selector hr hon hnow hc hsel hbig
  case deferred => exact fun e s hr hon hsess hw => execCommandEntryInvalid_of_guard hr hon hsess hw

end Sys2Proof.Machine
end

section
/-! What every step does to the cells and the fuses: DRAM and the flash stay canonical, and no fuse goes back, a reset that cuts a burn short
among the steps (12_memory_system.md, R534, R537, R554, R555, R557, R578). -/

namespace Sys2Proof.Machine
open Sys2Proof

/-- No SVN counter falls and no owner bit is lost from one state to another. -/
structure FusesRise (s t : State) : Prop where
  svn : ∀ c, svnOf s c ≤ svnOf t c
  owner : s.sec.ownerBits &&& t.sec.ownerBits = s.sec.ownerBits

/-- What a step does to cells and fuses: it keeps the cells canonical, and the fuses rise where the burn under way raises its counter, as that of the
next state does. -/
structure Advances (s t : State) : Prop where
  cells : Inv s → Inv t
  burns : BurnRises s → BurnRises t
  fuses : BurnRises s → FusesRise s t

theorem FusesRise.of_eq {s t : State} (hsvn : t.sec.svn = s.sec.svn) (howner : t.sec.ownerBits = s.sec.ownerBits) : FusesRise s t :=
  ⟨fun c => by simp [svnOf, hsvn], by simp [howner]⟩

theorem FusesRise.trans {s t u : State} (h : FusesRise s t) (g : FusesRise t u) : FusesRise s u where
  svn c := (h.svn c).trans (g.svn c)
  owner := by rw [← h.owner, BitVec.and_assoc, g.owner]

theorem Advances.trans {s t u : State} (h : Advances s t) (g : Advances t u) : Advances s u where
  cells hs := g.cells (h.cells hs)
  burns hs := g.burns (h.burns hs)
  fuses hs := (h.fuses hs).trans (g.fuses (h.burns hs))

/-- Where the security block keeps flash and fuses, the cells of DRAM decide. -/
theorem Advances.of_sec {s t : State} (hmem : Memory.wf s.mem = true → Memory.wf t.mem = true) (hsec : coreSec t.sec = coreSec s.sec) :
    Advances s t := by
  simp only [coreSec_eq, Prod.mk.injEq] at hsec
  obtain ⟨hflash, hsvn, howner, -, hburn⟩ := hsec
  refine ⟨fun hs => ⟨hmem hs.1, by rw [hflash]; exact hs.2⟩, fun hs c v hb => ?_, fun _ => .of_eq hsvn howner⟩
  rw [svnOf, hsvn]
  exact hs c v (hburn ▸ hb)

theorem Advances.of_core {s t : State} (h : coreOf t = coreOf s) : Advances s t := by
  refine .of_sec (fun hs => ?_) (congrArg Core.sec h)
  rwa [show t.mem = s.mem from congrArg Core.mem h]

theorem Advances.of_kept {s t : State} (h : kept t = kept s) : Advances s t := .of_core (congrArg Kept.core h)

theorem Advances.refl (s : State) : Advances s s := .of_core rfl

/-! Every next state of an outcome. -/

/-- Every next state advances from `s`. -/
def AllAdvance (o : Res) (s : State) : Prop := ∀ t, o = .next t → Advances s t

theorem AllAdvance.of_keepsCore {o : Res} {s : State} (h : KeepsCore o s) : AllAdvance o s := fun t ht => .of_core (h t ht)

theorem AllAdvance.of_keeps {o : Res} {s : State} (h : Keeps o s) : AllAdvance o s := .of_keepsCore h.core

theorem AllAdvance.next {s t : State} (h : Advances s t) : AllAdvance (.next t) s := by
  rintro _ ⟨⟩
  exact h

theorem AllAdvance.after {o : Res} {s s' : State} (hk : kept s' = kept s) (h : AllAdvance o s') : AllAdvance o s :=
  fun t ht => (Advances.of_kept hk).trans (h t ht)

theorem AllAdvance.live {s : State} {f : State → State} (h : Advances s (f s)) : AllAdvance (live s f) s := by
  unfold Machine.live
  split
  · exact .next (.refl s)
  · exact .next h

theorem AllAdvance.regWrite {r v : Word} {s : State} {f : State → State} (h : Advances s (f s)) : AllAdvance (regWrite r v s f) s := by
  unfold Machine.regWrite
  split
  · exact .next (.refl s)
  split
  · rintro _ ⟨⟩
  · exact .next h

theorem AllAdvance.devWrite {r v : Word} {s : State} {f : State → State} (h : ∀ x, Advances x (f x)) : AllAdvance (devWrite r v s f) s :=
  .regWrite ((Advances.of_kept (wake_kept s)).trans (h _))

theorem AllAdvance.onAccess {a : Access} {s : State} {f : State → Res} (h : AllAdvance (f s) s) : AllAdvance (onAccess a s f) s := by
  unfold Machine.onAccess
  split
  · exact .next (.refl s)
  split
  · exact .next (.of_kept (by simp))
  · exact h

/-! The fuses. -/

theorem and_or_absorb (x y : BitVec 8) : x &&& (x ||| y) = x := by
  ext i
  simpa using Or.inl

/-- A burn that raises its counter raises the fuses (R557). -/
theorem burnt_rises {s t : State} {b : Burn} (hb : s.sec.burning = some b) (hs : BurnRises s) (hsvn : t.sec.svn = (burnt b s.sec).svn)
    (howner : t.sec.ownerBits = (burnt b s.sec).ownerBits) : FusesRise s t := by
  cases b with
  | svn c v =>
    refine ⟨fun i => ?_, by rw [howner]; exact BitVec.and_self ..⟩
    have hput : svnOf t i = if i = c then v else svnOf s i := by rw [svnOf, hsvn]; exact lookD_put ..
    rw [hput]
    split
    next h => exact h ▸ (hs c v hb).le
    next => exact le_rfl
  | program k hash => exact ⟨fun i => by rw [svnOf, svnOf, hsvn]; exact le_rfl, by rw [howner]; exact and_or_absorb ..⟩
  | revoke k => exact ⟨fun i => by rw [svnOf, svnOf, hsvn]; exact le_rfl, by rw [howner]; exact and_or_absorb ..⟩

theorem burnt_flash (b : Burn) (x : Sec) : (burnt b x).flash = x.flash := by
  cases b <;> rfl

/-- The end of a burn (R537). -/
theorem fuseBurnDone_advances (s : State) : AllAdvance (execFuseBurnDone s) s := by
  refine .live ?_
  dsimp only
  split
  · exact .refl s
  next b hb =>
    refine ⟨fun hs => ⟨hs.1, ?_⟩, fun _ _ _ h => ?_, fun hs => burnt_rises hb hs rfl rfl⟩
    on_goal 2 => cases h
    exact (congrArg (cellsWf flashDefault) (burnt_flash b s.sec)).trans hs.2

/-- A burn that starts, while none is under way, changes neither cells nor fuses. -/
theorem Advances.of_burnStart {s : State} (g : Sec → Sec) (hflash : (g s.sec).flash = s.sec.flash) (hsvn : (g s.sec).svn = s.sec.svn)
    (howner : (g s.sec).ownerBits = s.sec.ownerBits) (hrise : ∀ c v, (g s.sec).burning = some (.svn c v) → svnOf s c < v) :
    Advances s (setSec s g) := by
  refine ⟨fun hs => ⟨hs.1, (congrArg (cellsWf flashDefault) hflash).trans hs.2⟩, fun _ c v hb => ?_, fun _ => .of_eq hsvn howner⟩
  rw [svnOf, show (setSec s g).sec.svn = s.sec.svn from hsvn]
  exact hrise c v hb

theorem fuseSvn_advances (v : Word) (s : State) : Advances s (fuseSvn v s) := by
  unfold fuseSvn
  dsimp only
  split
  · exact .of_kept (secRefuse_kept ..)
  next h =>
    refine .of_burnStart _ rfl rfl rfl fun c w hb => ?_
    cases hb
    omega

theorem ownerProgram_advances (k : Nat) (s : State) : Advances s (ownerProgram k s) := by
  unfold ownerProgram
  split
  · exact .of_kept (secRefuse_kept ..)
  · exact .of_burnStart _ rfl rfl rfl fun c w hb => nomatch hb

theorem ownerRevoke_advances (k : Nat) (s : State) : Advances s (ownerRevoke k s) := by
  unfold ownerRevoke
  split
  · exact .of_kept (secRefuse_kept ..)
  · exact .of_burnStart _ rfl rfl rfl fun c w hb => nomatch hb

theorem fuseOwner_advances (v : Word) (s : State) : Advances s (fuseOwner v s) := by
  unfold fuseOwner
  split
  · exact ownerProgram_advances ..
  · exact ownerRevoke_advances ..
  · exact .of_kept (secRefuse_kept ..)

/-! The flash. -/

/-- Bytes written to the flash leave the fuses and keep it canonical. -/
theorem flashWrite_advances (a : Nat) (bs : List Byte) (s : State) :
    Advances s (setSec s (fun x => { x with flash := wrCells flashDefault x.flash a bs })) where
  cells hs := ⟨hs.1, wrCells_wf hs.2⟩
  burns hs := hs
  fuses _ := .of_eq rfl rfl

theorem spoil_advances (a n : Nat) (s : State) : Advances s (spoil a n s) :=
  have hdraw : Advances s { s with freeCtr := s.freeCtr + 1 } := .of_kept rfl
  hdraw.trans (flashWrite_advances a ((List.range n).map fun i => Config.freeByte s.freeCtr (a + i)) _)

/-- The end of an erase or a program (R555), or its failure, whose sectors hold free values. -/
theorem flashOpDone_advances (ok : Bool) (s : State) : AllAdvance (execFlashOpDone ok s) s := by
  unfold execFlashOpDone
  generalize List.replicate 65536 flashDefault = erased
  refine .live ?_
  dsimp only
  split
  · exact .refl s
  next o _ =>
    have hend : Advances s (setSec s fun x => { x with flashOp := none }) := .of_kept rfl
    split
    · cases o with
      | erase k => exact hend.trans (flashWrite_advances (k * 65536) erased _)
      | program a bs => exact hend.trans (flashWrite_advances a bs _)
    · exact (Advances.of_kept (by simp)).trans (spoil_advances ..)

/-! The resets (R554): what is cut short changes the flash and the fuses, and the reset state has no burn under way. -/

/-- The flash after a reset cut off what ran on it (R578). -/
def cutFlash (s : State) : State :=
  match s.sec.flashOp with
  | none => s
  | some o => spoil (opRange o).1 (opRange o).2 s

theorem cutFlash_advances (s : State) : Advances s (cutFlash s) := by
  unfold cutFlash
  split
  · exact .refl s
  · exact spoil_advances ..

/-- A burn cut off by a reset may have taken the value. -/
theorem cutShort_sec (s : State) :
    (cutShort s).sec = (cutFlash s).sec ∨ ∃ b, (cutFlash s).sec.burning = some b ∧ (cutShort s).sec = burnt b (cutFlash s).sec := by
  rw [show cutShort s = match (cutFlash s).sec.burning with
    | none => cutFlash s
    | some b => if bit (takeFree (cutFlash s)).1 0 then setSec (takeFree (cutFlash s)).2 (burnt b) else (takeFree (cutFlash s)).2 from rfl]
  split
  · exact .inl rfl
  next b hb =>
    split
    · exact .inr ⟨b, hb, rfl⟩
    · exact .inl rfl

/-- What a reset cuts short leaves canonical cells and fuses that have not gone back (R578). -/
theorem cutShort_rises (s : State) : (Inv s → cellsWf flashDefault (cutShort s).sec.flash = true) ∧ (BurnRises s → FusesRise s (cutShort s)) := by
  have h := cutFlash_advances s
  obtain hsec | ⟨b, hb, hsec⟩ := cutShort_sec s
  · refine ⟨fun hs => by rw [hsec]; exact (h.cells hs).2, fun hs => (h.fuses hs).trans (.of_eq (by rw [hsec]) (by rw [hsec]))⟩
  · refine ⟨fun hs => by rw [hsec, burnt_flash]; exact (h.cells hs).2, fun hs => (h.fuses hs).trans ?_⟩
    exact burnt_rises hb (h.burns hs) (by rw [hsec]) (by rw [hsec])

theorem fullReset_advances (cause : Nat) (s : State) : Advances s (fullReset cause s) where
  cells hs := ⟨rfl, (cutShort_rises s).1 hs⟩
  burns _ _ _ h := nomatch h
  fuses hs := ((cutShort_rises s).2 hs).trans (.of_eq rfl rfl)

theorem noticedReset_advances (cause : Nat) (s : State) : Advances s (fullReset cause (noticeReset s)) :=
  (Advances.of_kept (noticeReset_kept s)).trans (fullReset_advances ..)

/-- The pins have no part in cells and fuses. -/
theorem Advances.withDev {s t : State} (h : Advances s t) (d : Dev) : Advances s { t with dev := d } :=
  h.trans (.of_sec id rfl)

theorem perstFall_advances (s : State) : AllAdvance (execPerstFall s) s := by
  refine .next ?_
  dsimp only
  split
  · exact .refl s
  split
  · exact (Advances.refl s).withDev _
  · exact (noticedReset_advances 0 s).withDev _

theorem powerCycle_advances (n : Nat) (s : State) : AllAdvance (execPowerCycle n s) s :=
  .next ((fullReset_advances 0 s).withDev _)

theorem i3cResetGo_advances (nonce : DWord) (s : State) : AllAdvance (execI3cResetGo nonce s) s := by
  refine .live ?_
  split
  · exact .of_kept (emit_kept ..)
  split
  · exact noticedReset_advances ..
  · exact .of_kept (emit_kept ..)

/-! The register writes, the guarded ones among them (R567). -/

theorem devReset_advances (v : Word) (s : State) : Advances s (when (bit v 0) (fun x => fullReset 1 (noticeReset x)) s) := by
  unfold when
  split
  · exact noticedReset_advances ..
  · exact .refl s

theorem guardApply_advances (req off : Nat) (v : Word) (s : State) : AllAdvance (guardApply req off v s) s := by
  have hcount : kept (guardCounted s) = kept s := guardCounted_kept s
  unfold guardApply
  dsimp only
  split
  · split
    · exact .of_keeps (Keeps.blockWrite fun x => guardReject_kept ..)
    · exact .after hcount (.of_keeps (execWatchInject_kept _ _ _))
  · refine .after hcount ?_
    split
    · exact .devWrite (devReset_advances v)
    · exact .of_keeps (Keeps.blockWrite fun x => when_kept _ _ x planApply_kept)
    · exact .of_keeps (execTandemRoleWrite_kept _ _)
    · exact .of_keeps (execMemcMapWrite_kept _ _)
    · exact .devWrite (fuseSvn_advances v)
    · exact .devWrite (fuseOwner_advances v)
    · exact .of_keeps (Keeps.blockWrite (rezoneWrite_kept _ v))

theorem guardSecond_advances (req off : Nat) (v : Word) (s : State) : AllAdvance (guardSecond req off v s) s := by
  have hdrop : kept { s with regif := { s.regif with pending := del s.regif.pending req } } = kept s := rfl
  unfold guardSecond
  split
  · exact .next (.of_kept (guardReject_kept ..))
  dsimp only
  split
  · exact .next (.of_kept ((guardReject_kept ..).trans hdrop))
  split
  · exact .next (.of_kept ((guardReject_kept ..).trans hdrop))
  · exact .after hdrop (guardApply_advances _ _ _ _)

theorem writePf_advances (req off : Nat) (v : Word) (s : State) : AllAdvance (writePf req off v s) s := by
  unfold writePf
  split
  · exact .next (.of_kept (by simp))
  split
  · exact .of_keepsCore (writeBlock_kept _ _ _ _)
  split
  · exact .of_keeps (writeEngine_kept _ _ _)
  split
  · exact .after (wakeBy_kept ..) (guardSecond_advances _ _ _ _)
  · exact .of_keeps (writeFn_kept _ _ _ _)

theorem writeSpace_advances (a : Access) (s : State) : AllAdvance (writeSpace a s) s := by
  unfold writeSpace
  split
  · exact writePf_advances _ _ _ _
  next c _ =>
    intro t ht
    unfold chain at ht
    split at ht
    next x hx =>
      cases ht
      exact (writePf_advances _ _ _ _ x hx).trans (.of_kept (helmQuiet_kept ..))
    · cases ht
    · cases ht
  · exact .of_keeps (writeFn_kept _ _ _ _)

theorem registerWrite_advances (a : Access) (s : State) : AllAdvance (execRegisterWrite a s) s := by
  refine .onAccess ?_
  split
  · exact .next (.of_kept (by simp))
  split
  · exact .next (.of_kept (by simp))
  split
  · exact writeSpace_advances _ _
  · exact .next (.of_kept (by simp))

theorem guardWindowWrite_advances (req off : Nat) (v : Word) (s : State) : AllAdvance (execGuardWindowWrite req off v s) s := by
  unfold execGuardWindowWrite
  refine .onAccess ?_
  dsimp only
  split
  · exact .after (wakeBy_kept ..) (guardSecond_advances _ _ _ _)
  · exact .next (.refl s)

/-! Every command. -/

/-- A way of the core other than the start or end of a burn and the end of a flash operation keeps flash and fuses, and DRAM canonical. -/
theorem CoreStep.of_plain {i : Instr} {c c' : Core} (h : CoreStep i c c') (hburn : startsBurn i = false) (hdone : i ≠ .fuseBurnDone)
    (hflash : ∀ ok, i ≠ .flashOpDone ok) : (Memory.wf c.mem = true → Memory.wf c'.mem = true) ∧ c'.sec = c.sec := by
  cases h with
  | dram _ _ _ _ hm => exact ⟨hm, rfl⟩
  | bell _ _ _ hm => exact ⟨hm, rfl⟩
  | burnStarts _ _ _ hi => rw [hi] at hburn; cases hburn
  | burnt => exact absurd rfl hdone
  | flashed ok => exact absurd rfl (hflash ok)
  | _ => exact ⟨id, rfl⟩

theorem exec_advances_of_plain (i : Instr) (s : State) (hreset : mayReset i = false) (hburn : startsBurn i = false) (hdone : i ≠ .fuseBurnDone)
    (hflash : ∀ ok, i ≠ .flashOpDone ok) : AllAdvance (exec i s) s := fun t ht =>
  have ⟨hmem, hsec⟩ := (exec_coreSteps i s hreset t ht).of_plain hburn hdone hflash
  .of_sec hmem hsec

theorem exec_advances (i : Instr) (s : State) : AllAdvance (exec i s) s := by
  cases i with
  | perstFall => exact perstFall_advances s
  | powerCycle n => exact powerCycle_advances n s
  | devReset => exact AllAdvance.devWrite (noticedReset_advances 1)
  | i3cResetGo nonce => exact i3cResetGo_advances nonce s
  | guardWindowWrite req off v => exact guardWindowWrite_advances req off v s
  | registerWrite a => exact registerWrite_advances a s
  | secFuseSvn v => exact AllAdvance.devWrite (fuseSvn_advances v)
  | fuseOwnerProgram k => exact AllAdvance.devWrite (ownerProgram_advances k)
  | fuseOwnerRevoke k => exact AllAdvance.devWrite (ownerRevoke_advances k)
  | fuseBurnDone => exact fuseBurnDone_advances s
  | flashOpDone ok => exact flashOpDone_advances ok s
  | _ => exact exec_advances_of_plain _ s rfl rfl (fun h => nomatch h) (fun _ h => nomatch h)

theorem idle_kept_core (s : State) : coreOf (idle s) = coreOf s := by
  unfold idle
  (repeat' split) <;> rfl

/-- A step idles or runs the front command on the state with the rest of the queue. -/
theorem step_advances (s : State) : AllAdvance (step s) s := by
  unfold step
  split
  · exact .next (.of_core (idle_kept_core s))
  next i rest _ => exact .after (s' := { s with pending := rest }) rfl (exec_advances i _)

/-- Settles O52: every step advances, and what advances keeps the cells canonical. -/
theorem everyStepKeepsTheCellsCanonical : Obligations.EveryStepKeepsTheCellsCanonical :=
  fun s t hs ht => (step_advances s t ht).cells hs

/-- Settles O53: every step advances, and what advances loses no fuse. -/
theorem fusesNeverGoBack : Obligations.FusesNeverGoBack := by
  intro s t hs ht
  have h := step_advances s t ht
  obtain ⟨hsvn, howner⟩ := h.fuses hs
  exact ⟨h.burns hs, hsvn, howner⟩

end Sys2Proof.Machine
end

section
/-! The forms of the commands: what the clocks carry, writes of a register, accesses through a window and the pins; the statements on stopped
devices and on faults (R531, R541, R554, R558, R562). -/

namespace Sys2Proof.Machine
open Sys2Proof

/-- No answer is a refusal of the model. -/
structure Unrefused (o : Res) : Prop where
  ne : ∀ r, o ≠ .refused r

/-! No access is refused by the model: its answers are register writes, the work of a running part, or states. -/

theorem Unrefused.next (t : State) : Unrefused (.next t) := ⟨fun _ h => nomatch h⟩

theorem Unrefused.ite {c : Prop} [Decidable c] {a b : Res} (ha : Unrefused a) (hb : Unrefused b) : Unrefused (if c then a else b) := by
  split
  · exact ha
  · exact hb

theorem Unrefused.live (f : State → State) (s : State) : Unrefused (live s f) := .ite (.next _) (.next _)

theorem Unrefused.regWrite (r v : Word) (f : State → State) (s : State) : Unrefused (regWrite r v s f) :=
  .ite (.next _) (.ite ⟨fun _ h => nomatch h⟩ (.next _))

theorem Unrefused.devWrite (r v : Word) (f : State → State) (s : State) : Unrefused (devWrite r v s f) := .regWrite ..

theorem Unrefused.chain {o : Res} {f : State → Res} (h : Unrefused o) (hf : ∀ t, Unrefused (f t)) : Unrefused (chain o f) := by
  cases o with
  | next t => exact hf t
  | fault e => exact ⟨fun _ h => nomatch h⟩
  | refused r => exact absurd rfl (h.ne r)

theorem writeDev_unrefused (o : Nat) (v : Word) (s : State) : Unrefused (writeDev o v s) := by
  unfold writeDev
  split
  case h_2 => exact .regWrite ..
  all_goals exact .devWrite ..

theorem writeSched_unrefused (o : Nat) (v : Word) (s : State) : Unrefused (writeSched o v s) := by
  unfold writeSched
  (repeat' split) <;> exact .regWrite ..

theorem writeSess_unrefused (o : Nat) (v : Word) (s : State) : Unrefused (writeSess o v s) := by
  unfold writeSess
  (repeat' split) <;> exact .regWrite ..

theorem writeIngest_unrefused (o : Nat) (v : Word) (s : State) : Unrefused (writeIngest o v s) := by
  unfold writeIngest
  (repeat' split) <;> exact .regWrite ..

theorem writeRc_unrefused (o : Nat) (v : Word) (s : State) : Unrefused (writeRc o v s) := by
  unfold writeRc
  (repeat' split) <;> exact .regWrite ..

theorem writeDec_unrefused (o : Nat) (v : Word) (s : State) : Unrefused (writeDec o v s) := by
  unfold writeDec
  (repeat' split) <;> exact .regWrite ..

theorem writePool_unrefused (o : Nat) (v : Word) (s : State) : Unrefused (writePool o v s) := by
  unfold writePool
  (repeat' split) <;> exact .regWrite ..

theorem writeQueue_unrefused (o : Nat) (v : Word) (s : State) : Unrefused (writeQueue o v s) := by
  unfold writeQueue
  (repeat' split) <;> exact .regWrite ..

theorem writeTandem_unrefused (o : Nat) (v : Word) (s : State) : Unrefused (writeTandem o v s) := by
  unfold writeTandem
  (repeat' split) <;> exact .regWrite ..

theorem writeHelm_unrefused (o : Nat) (v : Word) (s : State) : Unrefused (writeHelm o v s) := by
  unfold writeHelm
  (repeat' split) <;> exact .regWrite ..

theorem writeBist_unrefused (o : Nat) (v : Word) (s : State) : Unrefused (writeBist o v s) := by
  unfold writeBist
  (repeat' split) <;> exact .regWrite ..

theorem writeSext_unrefused (o : Nat) (v : Word) (s : State) : Unrefused (writeSext o v s) := by
  unfold writeSext
  (repeat' split) <;> exact .regWrite ..

theorem writePwr_unrefused (o : Nat) (v : Word) (s : State) : Unrefused (writePwr o v s) := by
  unfold writePwr
  (repeat' split) <;> exact .regWrite ..

theorem writeSec_unrefused (o : Nat) (v : Word) (s : State) : Unrefused (writeSec o v s) := by
  unfold writeSec
  (repeat' split) <;> exact .regWrite ..

theorem writeMemc_unrefused (o : Nat) (v : Word) (s : State) : Unrefused (writeMemc o v s) := by
  unfold writeMemc
  (repeat' split) <;> exact .regWrite ..

theorem writeChannel_unrefused (c o : Nat) (v : Word) (s : State) : Unrefused (writeChannel c o v s) := by
  unfold writeChannel
  split
  · refine .chain (.regWrite ..) fun t => ?_
    split <;> exact .regWrite ..
  all_goals exact .regWrite ..

theorem writeDma_unrefused (o : Nat) (v : Word) (s : State) : Unrefused (writeDma o v s) := by
  unfold writeDma
  split
  · exact .regWrite ..
  · exact .regWrite ..
  · exact writeChannel_unrefused ..

theorem writePort_unrefused (p o : Nat) (v : Word) (s : State) : Unrefused (writePort p o v s) := by
  unfold writePort
  (repeat' split) <;> exact .regWrite ..

theorem writeNet_unrefused (o : Nat) (v : Word) (s : State) : Unrefused (writeNet o v s) := by
  unfold writeNet
  split
  case h_8 => exact .ite (writePort_unrefused ..) (.regWrite ..)
  all_goals exact .regWrite ..

theorem writeIrq_unrefused (o : Nat) (v : Word) (s : State) : Unrefused (writeIrq o v s) := by
  unfold writeIrq
  (repeat' split) <;> exact .regWrite ..

theorem writePlan_unrefused (o : Nat) (v : Word) (s : State) : Unrefused (writePlan o v s) := by
  unfold writePlan
  dsimp only
  split
  case h_4 =>
    exact .chain (.chain (.regWrite ..) fun t => .ite (.regWrite ..) (.next _)) fun t => .ite (.regWrite ..) (.next _)
  all_goals exact .regWrite ..

theorem writeQtr_unrefused (q o : Nat) (v : Word) (s : State) : Unrefused (writeQtr q o v s) := by
  unfold writeQtr
  split
  · exact .chain (.regWrite ..) fun t => .ite (.next _) (.ite (.regWrite ..) (.regWrite ..))
  all_goals exact .regWrite ..

theorem writeWatch_unrefused (w o : Nat) (v : Word) (s : State) : Unrefused (writeWatch w o v s) := by
  unfold writeWatch
  split <;> exact .regWrite ..

theorem writeCmdRing_unrefused (f r o : Nat) (v : Word) (s : State) : Unrefused (writeCmdRing f r o v s) := by
  unfold writeCmdRing
  dsimp only
  split <;> exact .regWrite ..

theorem writeCqRing_unrefused (f r o : Nat) (v : Word) (s : State) : Unrefused (writeCqRing f r o v s) := by
  unfold writeCqRing
  dsimp only
  split <;> exact .regWrite ..

theorem writeEvq_unrefused (f o : Nat) (v : Word) (s : State) : Unrefused (writeEvq f o v s) := by
  unfold writeEvq
  dsimp only
  (repeat' split) <;> exact .regWrite ..

theorem writeMsix_unrefused (f vec k : Nat) (v : Word) (s : State) : Unrefused (writeMsix f vec k v s) := by
  unfold writeMsix
  dsimp only
  split
  case h_4 => exact .chain (.regWrite ..) fun t => .live ..
  all_goals exact .regWrite ..

theorem writeFn_unrefused (f o : Nat) (v : Word) (s : State) : Unrefused (writeFn f o v s) := by
  unfold writeFn
  refine .ite (writeCmdRing_unrefused ..) (.ite (writeCqRing_unrefused ..) (.ite ?channel (.ite (.live ..) (.ite (writeEvq_unrefused ..)
    (.ite (writeMsix_unrefused ..) (.regWrite ..))))))
  dsimp only
  split
  · exact .next _
  · exact .ite (.regWrite ..) (writeChannel_unrefused ..)

theorem writeBlock_unrefused (w o : Nat) (v : Word) (s : State) : Unrefused (writeBlock w o v s) := by
  unfold writeBlock
  refine .ite (writeWatch_unrefused ..) (.ite (writeQtr_unrefused ..) (.ite (.regWrite ..) ?_))
  split
  · exact writeDev_unrefused ..
  · exact .regWrite ..
  · exact writePlan_unrefused ..
  · exact writeSched_unrefused ..
  · exact writeSess_unrefused ..
  · exact writeIngest_unrefused ..
  · exact writeRc_unrefused ..
  · exact writeDec_unrefused ..
  · exact writePool_unrefused ..
  · exact writeQueue_unrefused ..
  · exact writeDma_unrefused ..
  · exact writeNet_unrefused ..
  · exact writeTandem_unrefused ..
  · exact writeIrq_unrefused ..
  · exact writeHelm_unrefused ..
  · exact writeBist_unrefused ..
  · exact writeSext_unrefused ..
  · exact writePwr_unrefused ..
  · exact writeSec_unrefused ..
  · exact writeMemc_unrefused ..

theorem guardApply_unrefused (req off : Nat) (v : Word) (s : State) : Unrefused (guardApply req off v s) := by
  unfold guardApply
  refine .ite (.ite (.regWrite ..) (.regWrite ..)) ?_
  split
  case h_5 => exact .devWrite ..
  all_goals exact .regWrite ..

theorem guardSecond_unrefused (req off : Nat) (v : Word) (s : State) : Unrefused (guardSecond req off v s) := by
  unfold guardSecond
  split
  · exact .next _
  · exact .ite (.next _) (.ite (.next _) (guardApply_unrefused ..))

theorem writePf_unrefused (req off : Nat) (v : Word) (s : State) : Unrefused (writePf req off v s) :=
  .ite (.next _) (.ite (writeBlock_unrefused ..) (.ite (.regWrite ..) (.ite (guardSecond_unrefused ..) (writeFn_unrefused ..))))

theorem writeSpace_unrefused (a : Access) (s : State) : Unrefused (writeSpace a s) := by
  unfold writeSpace
  split
  · exact writePf_unrefused ..
  · exact .chain (writePf_unrefused ..) fun t => .next _
  · exact writeFn_unrefused ..

theorem next_of_ite (c : Prop) [Decidable c] (t u : State) : ∃ x, (if c then .next t else .next u : Res) = .next x := by
  split
  · exact ⟨t, rfl⟩
  · exact ⟨u, rfl⟩

/-- The commands of pins and board, which act whatever the clocks do (R531, R540, R554). -/
def ofPins : Instr → Bool
  | .thermtrip _ => true | .perstFall => true | .perstRise _ => true | .powerCycle _ => true
  | _ => false

/-- The forms of answer: the work of a running part, a write of a register, an access through a window, and what a pin does. -/
inductive Form (i : Instr) (s : State) : Res → Prop
  | live {f : State → State} (hi : writesRegister i = false) : Form i s (live s f)
  | regWrite {r v : Word} {f : State → State} (hi : writesRegister i = true) : Form i s (regWrite r v s f)
  | access {a : Access} {f : State → Res} (hf : Unrefused (f s)) (hi : writesRegister i = true ∨ ∃ t, f s = .next t) : Form i s (onAccess a s f)
  | pin {t : State} (hi : writesRegister i = false) (hp : ofPins i = true) : Form i s (.next t)

section
variable {i : Instr} {s : State} {f : State → State}

theorem Form.plainCmd {h : Hdr} (hi : writesRegister i = false) : Form i s (plainCmd h s f) := .live hi
theorem Form.sessionCmd {j : Instr} {h : Hdr} {op : Nat} (hi : writesRegister i = false) : Form i s (sessionCmd j h op s f) := .live hi
theorem Form.onSession {n : Nat} {g : Session → State → State} (hi : writesRegister i = false) : Form i s (onSession n s g) := .live hi
theorem Form.tanMessage {n : Nat} {m : LinkMeta} (hi : writesRegister i = false) : Form i s (tanMessage n m s f) := .live hi
theorem Form.spdmAnswer {via : Spdm} {r n : Nat} {b : State → SpdmBody} (hi : writesRegister i = false) : Form i s (spdmAnswer via r n b s f) :=
  .live hi
theorem Form.blockWrite {r v : Word} (hi : writesRegister i = true) : Form i s (blockWrite r v s f) := .regWrite hi
theorem Form.devWrite {r v : Word} (hi : writesRegister i = true) : Form i s (devWrite r v s f) := .regWrite hi
theorem Form.fnWrite {n : Nat} {r v : Word} (hi : writesRegister i = true) : Form i s (fnWrite n r v s f) := .regWrite hi

end

theorem exec_form (i : Instr) (s : State) : Form i s (exec i s) := by
  cases i with
  | bellStart | fenceCut | guardOpen | retrainPause | pagingBurst | heartbeatSend | sextantApply | bellInEdge | bellEdgeMissing
  | helmHeartbeatTimeout | boulevardRequest | requestRetryTimeout | detourReissue | drainedReplySink | planCopyDone | planCheckDone
  | planApplyTakeEffect | applyStepAdvance | quarterClosingEdge | quarterDrained | quarterEnterTarget | quarterLoadDone | quarterBistDone
  | sessCtxCopyDone | apertureWrite | apertureRead | rowFence | frameTruncate | protectedFillDone | microwordIssue | markWordComplete
  | markWatchdog | selfShadowCheck | selfShadowAbandon | caParityError | rankSpareCopyDone | refreshInterval | dimmTempPoll | trackerWindowReset
  | throttleExpiry | dramInitDone | scrubRead | allocate | claim | release | poolRelayout | queueBeatWrite | queueRead | queueStallRelease
  | queueReserve | flushEnd | vfEnable | vfDisable | commandFetch | completionPost | descriptorFetched | descriptorComplete | dmaRetry
  | linkStateChange | rxFrame | shaperRefill | policerRefill | portTxSelect | senderReportTimer | rxqRaiseHoldoff | detachComplete | ppsInEdge
  | ppsOutSecond | tandemHello | tandemAuth | authRetry | linkRetransmit | heartbeatMissed | tandemNotice | takeover | syncDone | irqMessage
  | irqClaim | fnIrqClaim | msixMaskWrite | eventRecordPost | watchEvent | errPulseEnd | bistTargetDone | sextantMeasure | engineGate
  | engineUngate | hoveToEnter | powerExitDone | bootRomDone | bootLoadDone | bootTrainDone | bootInitDone | i3cTelemetry | i3cResetArm
  | i3cResetGo | fuseBurnDone | flashOpDone | guardTimeout | tandemLinkTrainsAgain | dmaBusError => rw [exec]; exact .live rfl
  | planLoad | rezoneGo | rezoneRetire | attachIngress | bindRxQueue | detachReceiver | unbindRxQueue | snapshotFunction | commandEntryInvalid => rw [exec]; exact .plainCmd rfl
  | openSession | configureStream | configureRate | configureResilience | configureHostTransport | submitFrameAperture | submitFrameHost | park
  | parkCold | resume | close | setRateBounds | feedbackAck | feedbackLoss | feedbackKeyRequest | feedbackRateReport | keyLoad | keyErase
  | attachReceiver | decodeBind | decodeData | decodeRelease | decodeFlush | snapshotSession => rw [exec]; exact .sessionCmd rfl
  | parkComplete | closeComplete | resumeComplete | idleLimitReached | effortLower | effortRaise | bucketBoundary | workUnitStart
  | tileRowEntropyStart | tileRowCoded | bandCheck | fallbackBandCommit | packetizeBand | bandDone | frameDone | hostRowsRead | auReorderTimeout
  | dataCopyDone | decodeOutput | shadowDecodeDone | shadowRecheckDone | ackTimeout | shadowSync | handover => rw [exec]; exact .onSession rfl
  | mirror | tandemAck | tandemConfig | tandemConfigReply | tandemNak | heartbeat => rw [exec]; exact .tanMessage rfl
  | getVersion | getCapabilities | negotiateAlgorithms | getDigests | getCertificate | challenge | getMeasurements => rw [exec]; exact .spdmAnswer rfl
  | schedBellCfgWrite | planStage | planDiscard | planApply | qtrEnable | qtrDisable | qtrRezoneGo | qtrRezoneRetire | sessCtrlWrite
  | sessDepotWmWrite | sessCtxSelWrite | ingestCtrlWrite | rcCtrlWrite | rcDefaultsWrite | decCtrlWrite | memcMapWrite | memcCtrlWrite
  | queueFlush | poolCtrlWrite | poolFnQuotaWrite | queueCtrlWrite | queueSelWrite | dmaChEnable | dmaChDisable | dmaChDb | netCtrlWrite
  | netPortCfgWrite | netPtpLatch | tandemCtrlWrite | tandemRoleWrite | irqComplete | irqPendSet | irqSrcCfgWrite | watchStatusWrite
  | watchCfgWrite | watchInject | sextCoefGainWrite | sextCoefOffsetWrite | sextCtrlWrite | bistCtrlWrite => rw [exec]; exact .blockWrite rfl
  | cmdqCtrlWrite | cqCtrlWrite | cmdqTailDb | cqHeadDb | dmaChOwnerWrite | fnIrqComplete | fnIrqPendSet | fnIrqSrcCfgWrite | fnIrqDmaCfgWrite
  | evqCtrlWrite | evqHeadDb => rw [exec]; exact .fnWrite rfl
  | devErrPinWrite | devReset | secFuseSvn | fuseOwnerProgram | fuseOwnerRevoke | flashErase | flashProgram => rw [exec]; exact .devWrite rfl
  | devLatencyTolWrite => rw [exec]; exact .regWrite rfl
  | thermtrip | perstFall | perstRise | powerCycle => rw [exec]; exact .pin rfl rfl
  | accessSizeError a =>
    rw [exec, execAccessSizeError]
    exact .access (.next _) (.inr ⟨_, rfl⟩)
  | unimplementedAccess a =>
    rw [exec, execUnimplementedAccess]
    refine .access ?_ (.inr ?_)
    · exact .ite (.next _) (.next _)
    · exact next_of_ite ..
  | guardedFirstWrite req off v =>
    rw [exec, execGuardedFirstWrite]
    refine .access ?_ (.inr ?_)
    · exact .ite (.next _) (.next _)
    · exact next_of_ite ..
  | guardWindowWrite req off v =>
    rw [exec, execGuardWindowWrite]
    refine .access ?_ (.inl rfl)
    exact .ite (guardSecond_unrefused ..) (.next _)
  | registerWrite a =>
    rw [exec, execRegisterWrite]
    refine .access ?_ (.inl rfl)
    refine .ite (.next _) ?_
    split
    · exact .next _
    · exact .ite (writeSpace_unrefused ..) (.next _)

/-- A part that is stopped or held in reset acts on nothing but its pins (R531, R554; log entry 1). -/
theorem Form.eq_of_halted {i : Instr} {s : State} {o : Res} (h : Form i s o) (hp : ofPins i = false)
    (hs : (s.dev.stopped || !s.dev.perstN) = true) : o = .next s := by
  cases h with
  | live => rw [Machine.live, if_pos hs]
  | regWrite => rw [Machine.regWrite, if_pos hs]
  | access => rw [onAccess, hs, Bool.true_or, if_pos rfl]
  | pin _ hpin => rw [hp] at hpin; cases hpin

/-- A command that writes no register is answered with a state. -/
theorem Form.next_of_writesNot {i : Instr} {s : State} {o : Res} (h : Form i s o) (hi : writesRegister i = false) : ∃ t, o = .next t := by
  cases h with
  | live => exact next_of_ite ..
  | regWrite hw => rw [hi] at hw; cases hw
  | pin => exact ⟨_, rfl⟩
  | access _ hw =>
    obtain hw | ⟨t, ht⟩ := hw
    · rw [hi] at hw; cases hw
    · unfold onAccess
      rw [ht]
      split
      · exact ⟨_, rfl⟩
      · exact next_of_ite ..

theorem Form.unrefused {i : Instr} {s : State} {o : Res} (h : Form i s o) : Unrefused o := by
  cases h with
  | live => exact .live ..
  | regWrite => exact .regWrite ..
  | access hf => exact .ite (.next _) (.ite (.next _) hf)
  | pin => exact .next _

theorem ofPins_eq_false {i : Instr} (hcycle : ∀ n, i ≠ .powerCycle n) (hfall : i ≠ .perstFall) (hrise : ∀ n, i ≠ .perstRise n)
    (htrip : ∀ n, i ≠ .thermtrip n) : ofPins i = false := by
  cases i with
  | powerCycle n => exact absurd rfl (hcycle n)
  | perstFall => exact absurd rfl hfall
  | perstRise n => exact absurd rfl (hrise n)
  | thermtrip n => exact absurd rfl (htrip n)
  | _ => rfl

theorem exec_of_halted {i : Instr} {s : State} (hp : ofPins i = false) (hs : (s.dev.stopped || !s.dev.perstN) = true) : exec i s = .next s :=
  (exec_form i s).eq_of_halted hp hs

theorem exec_thermtrip_of_stopped (n : Nat) {s : State} (hs : s.dev.stopped = true) : exec (.thermtrip n) s = .next s := by
  rw [exec, execThermtrip, always, if_pos (.inl hs)]

theorem exec_perstFall_of_low {s : State} (hs : s.dev.perstN = false) : exec .perstFall s = .next s := by
  simp [exec, execPerstFall, always, hs]

/-- The edges of PERST_N leave a stopped part stopped. -/
theorem stopped_of_perstFall {s t : State} (hs : s.dev.stopped = true) (ht : exec .perstFall s = .next t) : t.dev.stopped = true := by
  rw [exec, execPerstFall, always, if_pos hs] at ht
  split at ht <;> cases ht <;> exact hs

theorem stopped_of_perstRise (n : Nat) {s t : State} (hs : s.dev.stopped = true) (ht : exec (.perstRise n) s = .next t) : t.dev.stopped = true := by
  rw [exec, execPerstRise, always] at ht
  split at ht <;> cases ht <;> exact hs

/-- Settles O55: the forms of the commands say which act in a halted part, and the pins that do keep the stop. -/
theorem aStoppedDeviceDoesNothing : Obligations.AStoppedDeviceDoesNothing := by
  have hstopped : ∀ (i : Instr) (s : State), s.dev.stopped = true → (∀ n, i ≠ .powerCycle n) → i ≠ .perstFall → (∀ n, i ≠ .perstRise n) →
      exec i s = .next s := by
    intro i s hs hcycle hfall hrise
    by_cases htrip : ∃ n, i = .thermtrip n
    · obtain ⟨n, rfl⟩ := htrip
      exact exec_thermtrip_of_stopped n hs
    · exact exec_of_halted (ofPins_eq_false hcycle hfall hrise fun n h => htrip ⟨n, h⟩) (by rw [hs, Bool.true_or])
  refine ⟨hstopped, fun i s hs hcycle hrise htrip => ?low, fun i s t hs hcycle ht => ?stays, fun n s => ⟨_, rfl, rfl, rfl⟩⟩
  case low =>
    by_cases hfall : i = .perstFall
    · exact hfall ▸ exec_perstFall_of_low hs
    · exact exec_of_halted (ofPins_eq_false hcycle hfall hrise htrip) (by rw [hs]; exact Bool.or_true _)
  case stays =>
    by_cases hfall : i = .perstFall
    · subst hfall
      exact stopped_of_perstFall hs ht
    by_cases hrise : ∃ n, i = .perstRise n
    · obtain ⟨n, rfl⟩ := hrise
      exact stopped_of_perstRise n hs ht
    · rw [hstopped i s hs hcycle hfall fun n h => hrise ⟨n, h⟩] at ht
      cases ht
      exact hs

/-- What ends in a fault acts on a running part. -/
theorem runs_of_fault {i : Instr} {s : State} {f : Fault} (hf : exec i s = .fault f) : Runs s := by
  by_contra hruns
  have hs : (s.dev.stopped || !s.dev.perstN) = true := by
    by_contra hlive
    exact hruns (by simpa using hlive)
  cases hp : ofPins i with
  | false => rw [exec_of_halted hp hs] at hf; cases hf
  | true =>
    cases i with
    | thermtrip | perstFall | perstRise | powerCycle => cases hf
    | _ => cases hp

/-- Settles O56: of the forms only a register's write and an access of a running part can end in other than a state, and none is refused. -/
theorem onlyRegisterWritesFault : Obligations.OnlyRegisterWritesFault := by
  refine ⟨fun i s hi => (exec_form i s).next_of_writesNot hi, fun i s f hf => ⟨?writes, ?runs⟩, fun i s r => (exec_form i s).unrefused.ne r⟩
  case writes =>
    by_contra hw
    obtain ⟨t, ht⟩ := (exec_form i s).next_of_writesNot (Bool.eq_false_of_not_eq_true hw)
    rw [ht] at hf
    cases hf
  case runs => exact runs_of_fault hf

end Sys2Proof.Machine
end

section
/-! The guarded registers, what the interface logs, how a step takes its command, and the silence of the device safe state (R489, R564, R566;
98_reader.md). -/

namespace Sys2Proof.Machine
open Sys2Proof

/-! The guarded registers lie at six fixed offsets and at one offset of every block window and of every Quarter's. -/

/-- Settles O57: the offsets in a window are read off the division by its size. -/
theorem theGuardedRegisters : Obligations.TheGuardedRegisters := by
  intro o
  have hblocks : (o < 0x300000 ∧ o % 0x10000 = 0xF020) ↔ ∃ w, w < 48 ∧ o = w * 0x10000 + 0xF020 :=
    ⟨fun h => ⟨o / 0x10000, by omega, by omega⟩, fun ⟨w, hw, ho⟩ => by omega⟩
  have hquarters : (o < 0x300000 ∧ 0x200000 ≤ o ∧ o % 0x10000 = 0xC) ↔ ∃ q, q < 16 ∧ o = (32 + q) * 0x10000 + 0xC :=
    ⟨fun h => ⟨o / 0x10000 - 32, by omega, by omega⟩, fun ⟨q, hq, ho⟩ => by omega⟩
  rw [← hblocks, ← hquarters]
  simp only [guarded, has, List.contains_cons, List.contains_nil, Bool.or_eq_true, Bool.and_eq_true, decide_eq_true_eq, beq_iff_eq]
  simp
  tauto

/-! The log of the interface (R564). -/

@[simp] theorem wakeBy_regif (sp : Space) (s : State) : (wakeBy sp s).regif = s.regif := by
  cases sp <;> simp [wakeBy]

theorem readsAs_regif (a : Access) (w : Word) (s : State) : (readsAs a w s).regif = s.regif := by
  unfold readsAs
  split <;> simp

theorem loggedAnswer_regif (code : Code) (a : Access) (s : State) :
    (readsAs a 0 (logAccess code a (wakeBy a.space s))).regif = (logAccess code a s).regif := by
  rw [readsAs_regif, logAccess, wakeBy_regif, logAccess]

/-- Settles O49: a refused access is logged before it is answered. -/
theorem accessesAreLogged : Obligations.AccessesAreLogged :=
  ⟨fun a s hr hon hv => ⟨_, execAccessSizeError_of_visible hr hon hv, loggedAnswer_regif 0x0B03 a s⟩,
    fun a s hr hon hv hreg => ⟨_, execUnimplementedAccess_of_unimplemented hr hon hv hreg, loggedAnswer_regif 0x0B02 a s⟩⟩

/-! A step. -/

/-- Settles O51: a step runs the front command or idles. -/
theorem stepRunsTheFrontCommand : Obligations.StepRunsTheFrontCommand := by
  refine ⟨fun i rest s h => by rw [step, h], fun s h hr hcut hw => ?dispatch, fun s h hn => ?still⟩
  case dispatch =>
    obtain ⟨hstop, hperst⟩ := hr
    simp [step, h, idle, hstop, hperst, hcut, hw, setBell]
  case still =>
    rw [step, h]
    obtain hn | hcut | hw := hn
    · have hhalt : (s.dev.stopped || !s.dev.perstN) = true := by
        by_contra hlive
        exact hn (by simpa using hlive)
      rw [idle, if_pos hhalt]
    · simp [idle, hcut]
    · simp [idle, hw]

/-! The safe state (R489). -/

theorem enqueueCqe_of_safe (f r : Nat) (e : Cqe) {s : State} (h : s.dev.safe = true) : enqueueCqe f r e s = s := if_pos h

theorem postRec_of_safe (f : Nat) (r : EvRec) {s : State} (h : s.dev.safe = true) : postRec f r s = s := if_pos h

theorem post_of_safe (f typ : Nat) (c : Code) (tok : Word) (pay : List Word) {s : State} (h : s.dev.safe = true) : post f typ c tok pay s = stamp s :=
  postRec_of_safe _ _ h

/-- Settles O60: rings and event queues take nothing in the safe state. -/
theorem theSafeStatePostsNothing : Obligations.TheSafeStatePostsNothing := by
  intro s h
  refine ⟨fun d op c r => ⟨enqueueCqe_of_safe _ _ _ h, enqueueCqe_of_safe _ _ _ h⟩, fun f typ c tok pay => ?post, fun n c => ?notice⟩
  case post => exact ⟨post_of_safe _ _ _ _ _ h, by rw [post_of_safe _ _ _ _ _ h]; rfl⟩
  case notice =>
    unfold notice
    split
    · rfl
    · rw [post_of_safe _ _ _ _ _ h]; rfl

end Sys2Proof.Machine
end

section
/-! Fuses, flash, attestation and the resets: what each write of the security block, each end of its work and each request answers, and the
statements on them (R534 to R538, R540, R545 to R547, R553 to R555, R557, R578). -/

namespace Sys2Proof.Machine
open Sys2Proof

theorem exec_secFuseSvn (v : Word) (s : State) : exec (.secFuseSvn v) s = execSecFuseSvn v s := rfl
theorem exec_fuseOwnerProgram (k : Nat) (s : State) : exec (.fuseOwnerProgram k) s = execFuseOwnerProgram k s := rfl
theorem exec_fuseOwnerRevoke (k : Nat) (s : State) : exec (.fuseOwnerRevoke k) s = execFuseOwnerRevoke k s := rfl
theorem exec_fuseBurnDone (s : State) : exec .fuseBurnDone s = execFuseBurnDone s := rfl
theorem exec_flashErase (s : State) : exec .flashErase s = execFlashErase s := rfl
theorem exec_flashProgram (d : Option (List Byte)) (s : State) : exec (.flashProgram d) s = execFlashProgram d s := rfl
theorem exec_flashOpDone (ok : Bool) (s : State) : exec (.flashOpDone ok) s = execFlashOpDone ok s := rfl
theorem exec_thermtrip (k : Nat) (s : State) : exec (.thermtrip k) s = execThermtrip k s := rfl
theorem exec_perstFall (s : State) : exec .perstFall s = execPerstFall s := rfl
theorem exec_perstRise (k : Nat) (s : State) : exec (.perstRise k) s = execPerstRise k s := rfl
theorem exec_devReset (s : State) : exec .devReset s = execDevReset s := rfl
theorem exec_i3cResetGo (n : DWord) (s : State) : exec (.i3cResetGo n) s = execI3cResetGo n s := rfl
theorem exec_powerCycle (k : Nat) (s : State) : exec (.powerCycle k) s = execPowerCycle k s := rfl
theorem exec_getVersion (v : Spdm) (s : State) : exec (.getVersion v) s = execGetVersion v s := rfl
theorem exec_getCapabilities (v : Spdm) (s : State) : exec (.getCapabilities v) s = execGetCapabilities v s := rfl
theorem exec_negotiateAlgorithms (v : Spdm) (s : State) : exec (.negotiateAlgorithms v) s = execNegotiateAlgorithms v s := rfl
theorem exec_getDigests (v : Spdm) (s : State) : exec (.getDigests v) s = execGetDigests v s := rfl
theorem exec_getCertificate (v : Spdm) (s : State) : exec (.getCertificate v) s = execGetCertificate v s := rfl
theorem exec_challenge (v : Spdm) (s : State) : exec (.challenge v) s = execChallenge v s := rfl
theorem exec_getMeasurements (v : Spdm) (s : State) : exec (.getMeasurements v) s = execGetMeasurements v s := rfl
theorem exec_i3cTelemetry (s : State) : exec .i3cTelemetry s = execI3cTelemetry s := rfl
theorem exec_i3cResetArm (s : State) : exec .i3cResetArm s = execI3cResetArm s := rfl

/-- A write of the DEV or SEC block that changes no reserved bit wakes the device and acts (R525, R562). -/
theorem devWrite_of_accepted {resv v : Word} {s : State} (f : State → State) (hr : Runs s) (hv : v &&& resv = 0) :
    devWrite resv v s f = .next (f (wake s)) := by
  obtain ⟨hstop, hperst⟩ := hr
  simp [devWrite, regWrite, hstop, hperst, hv]

theorem setSec_wake (g : Sec → Sec) (s : State) : setSec (wake s) g = { wake s with sec := g s.sec } := by
  rw [setSec, wake_sec]

theorem secRefuse_wake (code : Code) (s : State) : secRefuse code (wake s) = { wake s with sec := { s.sec with reason := code } } := by
  rw [secRefuse, setSec_wake]

/-! The fuses. -/

theorem execSecFuseSvn_eq {v : Word} {s : State} (hr : Runs s) (hv : v &&& 0xFFF0FF80 = 0) :
    execSecFuseSvn v s = .next (if s.sec.burning.isSome ∨ 8 < fld v 19 16 ∨ fld v 6 0 ≤ svnOf s (fld v 19 16) ∨ 64 < fld v 6 0 ∨
        aboveRunning s (fld v 19 16) (fld v 6 0) = true then { wake s with sec := { s.sec with reason := 0x0910 } }
      else { wake s with sec := { s.sec with burning := some (.svn (fld v 19 16) (fld v 6 0)), fuseSvnReg := v } }) := by
  have hcounter : svnOf (wake s) = svnOf s := by funext c; rw [svnOf, wake_sec, svnOf]
  have habove : aboveRunning (wake s) = aboveRunning s := by funext c w; simp only [aboveRunning, mcInForce, wake_sec, wake_plan]
  rw [execSecFuseSvn, devWrite_of_accepted _ hr hv, fuseSvn]
  simp only [hcounter, habove, wake_sec, secRefuse_wake, setSec_wake]

theorem execFuseOwnerProgram_eq (k : Nat) {s : State} (hr : Runs s) :
    execFuseOwnerProgram k s = .next (if s.sec.burning.isSome ∨ 3 < k ∨ ownerProg s k = true then
        { wake s with sec := { s.sec with reason := 0x0910 } }
      else { wake s with sec := { s.sec with burning := some (.program k (heldHash s)), ownerReg := ownerWord 1 k } }) := by
  have hprog : ownerProg (wake s) k = ownerProg s k := by rw [ownerProg, wake_sec, ownerProg]
  have hhash : heldHash (wake s) = heldHash s := by rw [heldHash, wake_sec, heldHash]
  rw [execFuseOwnerProgram, devWrite_of_accepted _ hr (by decide), ownerProgram]
  simp only [hprog, hhash, wake_sec, secRefuse_wake, setSec_wake]

theorem execFuseOwnerRevoke_eq (k : Nat) {s : State} (hr : Runs s) :
    execFuseOwnerRevoke k s = .next (if s.sec.burning.isSome ∨ 3 < k then { wake s with sec := { s.sec with reason := 0x0910 } }
      else { wake s with sec := { s.sec with
        burning := some (.revoke k), ownerReg := ownerWord 2 k, accepted := remS s.sec.accepted k,
        ownerKeys := s.sec.ownerKeys.filter (fun e => decide (e.1 ≠ k)) } }) := by
  rw [execFuseOwnerRevoke, devWrite_of_accepted _ hr (by decide), ownerRevoke]
  simp only [wake_sec, secRefuse_wake, setSec_wake]

theorem execFuseBurnDone_of_burning {b : Burn} {s : State} (hr : Runs s) (hb : s.sec.burning = some b) :
    execFuseBurnDone s = .next { s with sec := { burnt b s.sec with burning := none } } := by
  rw [execFuseBurnDone, live_of_runs _ hr, hb]
  rfl

/-- Settles O43: a write of the fuses is the burn that starts or its refusal, and the end of a burn sets its fuse. -/
theorem fusesAreBurnt : Obligations.FusesAreBurnt := by
  unfold Obligations.FusesAreBurnt
  simp only [exec_secFuseSvn, exec_fuseOwnerProgram, exec_fuseOwnerRevoke, exec_fuseBurnDone]
  refine ⟨?counter, ?counterRefused, ?program, ?programRefused, ?revoke, ?revokeRefused, ?raised, ?programmed, ?revoked⟩
  case counter =>
    intro v s hs hv hb hc hlt hle hrun
    rw [execSecFuseSvn_eq hs.1 hv, if_neg]
    simp only [hb, hrun, Option.isSome_none, Bool.false_eq_true, or_false, false_or]
    omega
  case counterRefused => exact fun v s hs hv h => by rw [execSecFuseSvn_eq hs.1 hv, if_pos h]
  case program =>
    intro k s hs hb hk hprog
    rw [execFuseOwnerProgram_eq k hs.1, if_neg]
    simp only [hb, hprog, Option.isSome_none, Bool.false_eq_true, or_false, false_or]
    omega
  case programRefused => exact fun k s hs h => by rw [execFuseOwnerProgram_eq k hs.1, if_pos h]
  case revoke =>
    intro k s hs hb hk
    rw [execFuseOwnerRevoke_eq k hs.1, if_neg]
    simp only [hb, Option.isSome_none, Bool.false_eq_true, false_or]
    omega
  case revokeRefused => exact fun k s hs h => by rw [execFuseOwnerRevoke_eq k hs.1, if_pos h]
  case raised => exact fun c v s hr hb => execFuseBurnDone_of_burning hr hb
  case programmed => exact fun k h s hr hb => execFuseBurnDone_of_burning hr hb
  case revoked => exact fun k s hr hb => execFuseBurnDone_of_burning hr hb

/-! The flash. -/

theorem flashOk_wake (s : State) : flashOk (wake s) = flashOk s := by
  funext a n l
  simp only [flashOk, flashLocked, bootHalt, wake_sec, wake_dev]

theorem execFlashErase_eq {s : State} (hr : Runs s) :
    execFlashErase s = .next (if flashOk s s.sec.flashAddr.toNat 65536 (decide (s.sec.flashAddr.toNat % 65536 = 0)) then
        { wake s with sec := { s.sec with flashOp := some (.erase (s.sec.flashAddr.toNat / 65536)), flashErr := false } }
      else { wake s with sec := { s.sec with reason := 0x0911 } }) := by
  rw [execFlashErase, devWrite_of_accepted _ hr (by decide), startErase]
  simp only [flashOk_wake, wake_sec, secRefuse_wake, setSec_wake]

section
variable {s : State} (hr : Runs s)
include hr

theorem execFlashProgram_of_locked (d : Option (List Byte)) (h : flashOk s s.sec.flashAddr.toNat s.sec.flashLen.toNat true = false) :
    execFlashProgram d s = .next { wake s with sec := { s.sec with reason := 0x0911 } } := by
  rw [execFlashProgram, devWrite_of_accepted _ hr (by decide)]
  simp only [startProgram, flashOk_wake, wake_sec, secRefuse_wake, h, Bool.not_false, if_true]

theorem execFlashProgram_of_failedRead (h : flashOk s s.sec.flashAddr.toNat s.sec.flashLen.toNat true = true) :
    execFlashProgram none s = .next { wake s with sec := { s.sec with flashErr := true, reason := 0x0912 } } := by
  rw [execFlashProgram, devWrite_of_accepted _ hr (by decide)]
  simp only [startProgram, flashOk_wake, wake_sec, setSec_wake, h, Bool.not_true, Bool.false_eq_true, if_false]

theorem execFlashProgram_of_read {bs : List Byte} (h : flashOk s s.sec.flashAddr.toNat s.sec.flashLen.toNat true = true)
    (hlen : bs.length = s.sec.flashLen.toNat) :
    execFlashProgram (some bs) s
      = .next { wake s with sec := { s.sec with flashOp := some (.program s.sec.flashAddr.toNat bs), flashErr := false } } := by
  rw [execFlashProgram, devWrite_of_accepted _ hr (by decide)]
  simp only [startProgram, flashOk_wake, wake_sec, setSec_wake, h, hlen, Bool.not_true, Bool.false_eq_true, if_false, if_true]

theorem execFlashOpDone_of_erase {k : Nat} (ho : s.sec.flashOp = some (.erase k)) :
    execFlashOpDone true s
      = .next { s with sec := { s.sec with flashOp := none, flash := wrCells flashDefault s.sec.flash (k * 65536) (List.replicate 65536 flashDefault) } } := by
  unfold execFlashOpDone
  generalize List.replicate 65536 flashDefault = erased
  rw [live_of_runs _ hr, ho]
  rfl

theorem execFlashOpDone_of_program {a : Nat} {bs : List Byte} (ho : s.sec.flashOp = some (.program a bs)) :
    execFlashOpDone true s = .next { s with sec := { s.sec with flashOp := none, flash := wrCells flashDefault s.sec.flash a bs } } := by
  unfold execFlashOpDone
  generalize List.replicate 65536 flashDefault = erased
  rw [live_of_runs _ hr, ho]
  rfl

theorem execFlashOpDone_of_failed {o : FlashOp} (ho : s.sec.flashOp = some o) :
    execFlashOpDone false s
      = .next (spoil (opRange o).1 (opRange o).2 (setSec s fun x => { x with flashOp := none, flashErr := true, reason := 0x0912 })) := by
  unfold execFlashOpDone
  generalize List.replicate 65536 flashDefault = erased
  rw [live_of_runs _ hr, ho]
  rfl

end

theorem flashOk_of_unaligned (s : State) (a n : Nat) : flashOk s a n false = false := by
  simp [flashOk]

/-- Settles O44: an operation starts or is refused as its checks say, and its end writes the flash or fails. -/
theorem flashIsWritten : Obligations.FlashIsWritten := by
  unfold Obligations.FlashIsWritten
  simp only [exec_flashErase, exec_flashProgram]
  refine ⟨?erase, ?unaligned, ?program, ?readFailed, ?locked, ?erased, ?programmed, ?failed⟩
  case erase =>
    intro s hs hok hal
    rw [execFlashErase_eq hs.1, hal, decide_eq_true rfl, if_pos hok]
  case unaligned =>
    intro s hs hal
    rw [execFlashErase_eq hs.1, decide_eq_false hal, flashOk_of_unaligned, if_neg Bool.false_ne_true]
  case program => exact fun bs s hs hok hlen => execFlashProgram_of_read hs.1 hok hlen
  case readFailed => exact fun s hs hok => execFlashProgram_of_failedRead hs.1 hok
  case locked => exact fun d s hs hok => execFlashProgram_of_locked hs.1 d hok
  case erased => exact fun k s hr ho => execFlashOpDone_of_erase hr ho
  case programmed => exact fun a bs s hr ho => execFlashOpDone_of_program hr ho
  case failed => exact fun o s hr ho => ⟨_, execFlashOpDone_of_failed hr ho, rfl, rfl, rfl, rfl⟩

/-! Attestation: a transport answers what its connection state has reached (R547; log entry 17). -/

theorem spdmState_eq (v : Spdm) (s : State) : spdmState s v = if v = .doe then s.sec.spdmDoe else s.sec.spdmI3c := by
  cases v <;> rfl

theorem setSpdm_eq (v : Spdm) (n : Nat) (s : State) :
    setSpdm v n s = { s with sec := if v = .doe then { s.sec with spdmDoe := n } else { s.sec with spdmI3c := n } } := by
  cases v <;> rfl

theorem spdmAnswer_of_reached {s : State} {v : Spdm} {r n : Nat} {body : State → SpdmBody} {f : State → State} (hr : Runs s)
    (h : n ≤ if v = .doe then s.sec.spdmDoe else s.sec.spdmI3c) : spdmAnswer v r n body s f = .next (f (emit (.spdm v r (body s)) s)) := by
  rw [← spdmState_eq] at h
  rw [spdmAnswer, live_of_runs _ hr, if_pos h]

theorem spdmAnswer_of_early {s : State} {v : Spdm} {r n : Nat} {body : State → SpdmBody} {f : State → State} (hr : Runs s)
    (h : (if v = .doe then s.sec.spdmDoe else s.sec.spdmI3c) < n) :
    spdmAnswer v r n body s f = .next { s with out := s.out ++ [.spdm v r .error] } := by
  rw [← spdmState_eq] at h
  rw [spdmAnswer, live_of_runs _ hr, if_neg (Nat.not_le.mpr h), emit]

/-- Settles O42: each request is answered in the connection state that it needs, and answered with an error before. -/
theorem attestationIsAnswered : Obligations.AttestationIsAnswered := by
  unfold Obligations.AttestationIsAnswered
  simp only [exec_getVersion, exec_getCapabilities, exec_negotiateAlgorithms, exec_getDigests, exec_getCertificate, exec_challenge,
    exec_getMeasurements, exec_i3cTelemetry, exec_i3cResetArm]
  refine ⟨?version, ?caps, ?capsEarly, ?algs, ?algsEarly, ?digests, ?digestsEarly, ?certs, ?certsEarly, ?challenge, ?challengeEarly, ?meas, ?measEarly,
    ?telemetry, ?arm⟩
  case version =>
    intro v s hr
    rw [execGetVersion, spdmAnswer_of_reached hr (Nat.zero_le _), setSpdm_eq]
    rfl
  case caps =>
    intro v s hr h
    rw [execGetCapabilities, spdmAnswer_of_reached hr h, setSpdm_eq, spdmState_eq]
    rfl
  case algs =>
    intro v s hr h
    rw [execNegotiateAlgorithms, spdmAnswer_of_reached hr h, setSpdm_eq]
    rfl
  case digests => exact fun v s hr h => spdmAnswer_of_reached hr h
  case certs => exact fun v s hr h => spdmAnswer_of_reached hr h
  case challenge => exact fun v s hr h => spdmAnswer_of_reached hr h
  case meas => exact fun v s hr h => spdmAnswer_of_reached hr h
  case capsEarly => exact fun v s hr h => spdmAnswer_of_early hr h
  case algsEarly => exact fun v s hr h => spdmAnswer_of_early hr h
  case digestsEarly => exact fun v s hr h => spdmAnswer_of_early hr h
  case certsEarly => exact fun v s hr h => spdmAnswer_of_early hr h
  case challengeEarly => exact fun v s hr h => spdmAnswer_of_early hr h
  case measEarly => exact fun v s hr h => spdmAnswer_of_early hr h
  case telemetry => exact fun s hr => live_of_runs _ hr
  case arm => exact fun s hr => live_of_runs _ hr

/-! The resets. -/

theorem cutShort_of_idle {s : State} (hb : s.sec.burning = none) (ho : s.sec.flashOp = none) : cutShort s = s := by
  simp only [cutShort, ho, hb]

/-- A reset that cuts nothing short (R554). -/
theorem fullReset_of_idle (cause : Nat) {s : State} (hb : s.sec.burning = none) (ho : s.sec.flashOp = none) :
    fullReset cause s = { State.reset with
      pending := s.pending, out := s.out, freeCtr := s.freeCtr,
      dev := { Dev.reset with straps := s.dev.straps, perstN := s.dev.perstN, stopped := s.dev.stopped },
      sec := { Sec.reset with
        svn := s.sec.svn, ownerBits := s.sec.ownerBits, ownerHash := s.sec.ownerHash, flash := s.sec.flash, cause := cause } } := by
  rw [fullReset, cutShort_of_idle hb ho]

theorem noticeReset_of_unpaired {s : State} (h : s.tandem.state ≠ 3) : noticeReset s = s := if_neg h

theorem noticeReset_of_paired {s : State} (h : s.tandem.state = 3) :
    noticeReset s = emit (.altLink .resetNotice) (emit (.link .resetNotice) { s with tandem := { s.tandem with stopped := true } }) := if_pos h

theorem fullReset_wake (cause : Nat) {s : State} (hb : s.sec.burning = none) (ho : s.sec.flashOp = none) :
    fullReset cause (wake s) = fullReset cause s := by
  rw [fullReset_of_idle cause (by rwa [wake_sec]) (by rwa [wake_sec]), fullReset_of_idle cause hb ho]
  simp only [wake_pending, wake_out, wake_freeCtr, wake_dev, wake_sec]

section
variable {s : State}

theorem execPerstFall_of_runs (hr : Runs s) :
    execPerstFall s = .next { fullReset 0 (noticeReset s) with dev := { (fullReset 0 (noticeReset s)).dev with perstN := false } } := by
  obtain ⟨hstop, hperst⟩ := hr
  simp [execPerstFall, always, hstop, hperst]

theorem execDevReset_of_runs (hr : Runs s) : execDevReset s = .next (fullReset 1 (noticeReset (wake s))) := by
  rw [execDevReset, devWrite_of_accepted _ hr (by decide)]

theorem execI3cResetGo_of_fresh {n : DWord} {b : BitVec 40} (hr : Runs s) (hn : s.sec.nonce = some (n, b))
    (ht : bellsFrom b s.bell.num < bellRate s) : execI3cResetGo n s = .next (fullReset 2 (noticeReset s)) := by
  rw [execI3cResetGo, live_of_runs _ hr]
  simp only [hn, ht, and_self, if_true]

theorem execI3cResetGo_of_stale {n m : DWord} {b : BitVec 40} (hr : Runs s) (hn : s.sec.nonce = some (m, b))
    (ht : m ≠ n ∨ bellRate s ≤ bellsFrom b s.bell.num) : execI3cResetGo n s = .next { s with out := s.out ++ [.i3cRefused] } := by
  have hno : ¬ (m = n ∧ bellsFrom b s.bell.num < bellRate s) := fun ⟨hm, hb⟩ => ht.elim (· hm) (Nat.not_le.mpr hb)
  rw [execI3cResetGo, live_of_runs _ hr]
  simp only [hn, hno, if_false]
  rfl

theorem execI3cResetGo_of_unarmed (n : DWord) (hr : Runs s) (hn : s.sec.nonce = none) :
    execI3cResetGo n s = .next { s with out := s.out ++ [.i3cRefused] } := by
  rw [execI3cResetGo, live_of_runs _ hr]
  simp only [hn]
  rfl

end

/-- Settles O40: each edge, reset and trip is its meaning where nothing is cut short. -/
theorem resetsLeaveFusesAndFlash : Obligations.ResetsLeaveFusesAndFlash := by
  unfold Obligations.ResetsLeaveFusesAndFlash
  simp only [exec_thermtrip, exec_perstFall, exec_perstRise, exec_devReset, exec_i3cResetGo, exec_powerCycle]
  refine ⟨?trip, ?fall, ?fallStopped, ?rise, ?reset, ?resetPaired, ?i3c, ?i3cStale, ?i3cUnarmed, ?cycle⟩
  case trip =>
    intro k s hs hk
    rw [execThermtrip, always, if_neg (by simp [hs, hk])]
    rfl
  case fall =>
    intro s hr hb ho hp
    rw [execPerstFall_of_runs hr, noticeReset_of_unpaired hp, fullReset_of_idle 0 hb ho, hr.1]
  case fallStopped => exact fun s hperst hs => by simp [execPerstFall, always, hperst, hs]
  case rise => exact fun k s hperst => by simp [execPerstRise, always, hperst]
  case reset =>
    intro s hs hb ho hp
    rw [execDevReset_of_runs hs.1, noticeReset_of_unpaired (by rwa [wake_tandem]), fullReset_wake 1 hb ho, fullReset_of_idle 1 hb ho]
  case resetPaired =>
    intro s hs hb ho hp
    rw [execDevReset_of_runs hs.1, noticeReset_of_paired (by rwa [wake_tandem]), fullReset_of_idle 1]
    · simp
    · simpa using hb
    · simpa using ho
  case i3c =>
    intro n b s hr hn ht hb ho hp
    rw [execI3cResetGo_of_fresh hr hn ht, noticeReset_of_unpaired hp, fullReset_of_idle 2 hb ho]
  case i3cStale => exact fun n m b s hr hn ht => execI3cResetGo_of_stale hr hn ht
  case i3cUnarmed => exact fun n s hr hn => execI3cResetGo_of_unarmed n hr hn
  case cycle =>
    intro k s hb ho
    rw [execPowerCycle, always, fullReset_of_idle 0 hb ho]

end Sys2Proof.Machine
end

section
/-! Guarded writes and the power states: what the first and the second write answer, how a state is entered and left, and the statements on them
(R522 to R527, R564 to R568). -/

namespace Sys2Proof.Machine
open Sys2Proof

theorem exec_guardedFirstWrite (q o : Nat) (v : Word) (s : State) : exec (.guardedFirstWrite q o v) s = execGuardedFirstWrite q o v s := rfl
theorem exec_guardWindowWrite (q o : Nat) (v : Word) (s : State) : exec (.guardWindowWrite q o v) s = execGuardWindowWrite q o v s := rfl
theorem exec_guardTimeout (q : Nat) (s : State) : exec (.guardTimeout q) s = execGuardTimeout q s := rfl
theorem exec_hoveToEnter (b : Bool) (s : State) : exec (.hoveToEnter b) s = execHoveToEnter b s := rfl
theorem exec_powerExitDone (s : State) : exec .powerExitDone s = execPowerExitDone s := rfl
theorem exec_devLatencyTolWrite (v : Word) (s : State) : exec (.devLatencyTolWrite v) s = execDevLatencyTolWrite v s := rfl

/-! Guarded writes: the five requesters are the PF and the Helm cores (R567). -/

theorem spaceOn_reqSpace {q : Nat} (s : State) (hq : q ≤ 4) : spaceOn s (reqSpace q) = true := by
  unfold reqSpace
  split
  · rfl
  · exact decide_eq_true (by omega)

section
variable {s : State} {q o : Nat} {v : Word}

theorem execGuardedFirstWrite_of_guarded (hr : Runs s) (hq : q ≤ 4) (ha : answers s = true) (hg : guarded o = true) :
    execGuardedFirstWrite q o v s = .next (guardFirst q o v (wakeBy (reqSpace q) s)) := by
  rw [execGuardedFirstWrite, onAccess_of_visible _ hr (spaceOn_reqSpace s hq) (visible_of_answers _ ha), if_pos hg]

theorem execGuardWindowWrite_of_window (hr : Runs s) (hq : q ≤ 4) (ha : answers s = true) (ho : o < 0x400000) :
    execGuardWindowWrite q o v s = guardSecond q o v (wakeBy (reqSpace q) s) := by
  rw [execGuardWindowWrite, onAccess_of_visible _ hr (spaceOn_reqSpace s hq) (visible_of_answers _ ha), if_pos ho]

theorem guardFirst_of_none (h : look s.regif.pending q = none) :
    guardFirst q o v s = { s with regif := { s.regif with pending := put s.regif.pending q (o, v) } } := by
  simp only [guardFirst, h]

theorem guardFirst_of_held {x : Nat × Word} (h : look s.regif.pending q = some x) :
    guardFirst q o v s = { s with regif := { s.regif with
      reason := 0x0B01, guardRej := up s.regif.guardRej 1, guardLast := fldW 28 4 5 ||| fldW 24 4 q ||| fldW 0 22 x.1,
      pending := put s.regif.pending q (o, v) } } := by
  simp only [guardFirst, h, guardReject]

theorem guardSecond_of_none (h : look s.regif.pending q = none) : guardSecond q o v s = .next (guardReject 4 q o 1 s) := by
  simp only [guardSecond, h]

theorem guardSecond_of_other {p : Nat} {w : Word} (h : look s.regif.pending q = some (p, w)) (hp : o ≠ p) :
    guardSecond q o v s = .next (guardReject 3 q p 2 { s with regif := { s.regif with pending := del s.regif.pending q } }) := by
  simp only [guardSecond, h, if_pos hp]

theorem guardSecond_of_uncomplemented {w : Word} (h : look s.regif.pending q = some (o, w)) (hv : v ≠ ~~~w) :
    guardSecond q o v s = .next (guardReject 1 q o 2 { s with regif := { s.regif with pending := del s.regif.pending q } }) := by
  simp only [guardSecond, h, ne_eq, not_true_eq_false, if_false, hv, not_false_eq_true, if_true]

theorem guardSecond_of_confirmed {w : Word} (h : look s.regif.pending q = some (o, w)) :
    guardSecond q o (~~~w) s = guardApply q o w { s with regif := { s.regif with pending := del s.regif.pending q } } := by
  simp only [guardSecond, h, ne_eq, not_true_eq_false, if_false]

end

/-- The guarded write of TANDEM_ROLE is counted and acts as the register's write (R431, R568). -/
theorem guardApply_tandemRole (req : Nat) (w : Word) (s : State) : guardApply req 0xC0008 w s = execTandemRoleWrite w (guardCounted s) := by
  have hwatch : ¬ 0xC0008 % 0x10000 = 0xF020 := by decide
  rw [guardApply, if_neg hwatch]

theorem answers_wake (s : State) : answers (wake s) = answers s := by
  rw [answers, wake_sec, answers]

theorem execTandemRoleWrite_of_disabled {w : Word} {s : State} (hs : Serves s) (hw : w &&& 0xFFFFFFFE = 0) (hen : bit s.tandem.ctrl 0 = false) :
    execTandemRoleWrite w s = .next (setTan (wake s) fun t => { t with side := fld w 0 0 }) := by
  rw [execTandemRoleWrite, blockWrite_of_accepted _ hs hw, wake_tandem, hen, if_neg Bool.false_ne_true]

/-- The pending write of requester 0 is taken and counted (R568). -/
def roleConfirmed (s : State) : State := guardCounted { s with regif := { s.regif with pending := del s.regif.pending 0 } }

/-- The accepted write of TANDEM_ROLE through the Guard window. -/
theorem guardWindowWrite_tandemRole {w : Word} {s : State} (hs : Serves s) (hp : look s.regif.pending 0 = some (0xC0008, w))
    (hw : w &&& 0xFFFFFFFE = 0) (hen : bit s.tandem.ctrl 0 = false) :
    Completes (.guardWindowWrite 0 0xC0008 (~~~w)) s (fun t => t.tandem = { s.tandem with side := fld w 0 0 } ∧
      t.regif = { s.regif with pending := del s.regif.pending 0, guardCount := up s.regif.guardCount 1 } ∧
      t = { s with regif := t.regif, tandem := t.tandem, pwr := t.pwr }) := by
  obtain ⟨p, hwake⟩ := wake_frame s
  have hu : Serves (roleConfirmed { s with pwr := p }) := hs
  obtain ⟨p', hwake'⟩ := wake_frame (roleConfirmed { s with pwr := p })
  refine ⟨setTan (wake (roleConfirmed { s with pwr := p })) (fun t => { t with side := fld w 0 0 }), ?_, ?_⟩
  on_goal 2 => rw [hwake']; exact ⟨rfl, rfl, rfl⟩
  rw [exec_guardWindowWrite, execGuardWindowWrite_of_window hs.1 (Nat.zero_le _) hs.2 (by decide)]
  rw [show wakeBy (reqSpace 0) s = wake s from rfl, hwake, guardSecond_of_confirmed (s := { s with pwr := p }) hp, guardApply_tandemRole]
  exact execTandemRoleWrite_of_disabled hu hw hen

/-- Settles O46: the two writes meet as the requester's pending write says. -/
theorem guardedWritesNeedTwo : Obligations.GuardedWritesNeedTwo := by
  unfold Obligations.GuardedWritesNeedTwo
  simp only [exec_guardedFirstWrite, exec_guardTimeout]
  refine ⟨?first, ?again, ?alone, ?other, ?uncomplemented, fun w s => guardWindowWrite_tandemRole, ?waited, ?none⟩
  case first =>
    intro q o v s hr hq ha hg hn
    rw [execGuardedFirstWrite_of_guarded hr hq ha hg, guardFirst_of_none (by rwa [wakeBy_regif]), wakeBy_regif]
  case again =>
    intro q o v x s hr hq ha hg hx
    rw [execGuardedFirstWrite_of_guarded hr hq ha hg, guardFirst_of_held (by rwa [wakeBy_regif]), wakeBy_regif]
  case alone =>
    intro q o v s hr hq ha ho hn
    rw [exec_guardWindowWrite, execGuardWindowWrite_of_window hr hq ha ho, guardSecond_of_none (by rwa [wakeBy_regif])]
  case other =>
    intro q o p v w s hr hq ha ho hp hne
    rw [exec_guardWindowWrite, execGuardWindowWrite_of_window hr hq ha ho, guardSecond_of_other (by rwa [wakeBy_regif]) hne, wakeBy_regif]
  case uncomplemented =>
    intro q o v w s hr hq ha ho hp hne
    rw [exec_guardWindowWrite, execGuardWindowWrite_of_window hr hq ha ho, guardSecond_of_uncomplemented (by rwa [wakeBy_regif]) hne, wakeBy_regif]
  case waited =>
    intro q x s hr hx
    rw [execGuardTimeout, live_of_runs _ hr, hx]
  case none =>
    intro q s hr hn
    rw [execGuardTimeout, live_of_runs _ hr, hn]

/-! Power states (R522 to R526). -/

/-- What the channels measure when self-refresh ends changes the channels alone (R337, R339). -/
theorem recentreAll_frame (l : List Nat) (s : State) :
    ∃ n m, l.foldl (fun s c => recentre c s) s = { s with freeCtr := n, memc := { s.memc with chans := m } } := by
  apply foldl_frame _ (fun t => ∃ n m, t = { s with freeCtr := n, memc := { s.memc with chans := m } })
  · exact ⟨_, _, rfl⟩
  · rintro t c ⟨n, m, rfl⟩
    obtain ⟨n', m', h⟩ := recentre_frame c { s with freeCtr := n, memc := { s.memc with chans := m } }
    exact ⟨n', m', h⟩

section
variable {s : State} (hr : Runs s)
include hr

theorem execPowerExitDone_of_resting (h : s.pwr.exiting = false) : execPowerExitDone s = .next s := by
  rw [execPowerExitDone, live_of_runs _ hr, h]
  rfl

/-- An exit from a state without self-refresh, with no frame waiting. -/
theorem execPowerExitDone_of_shallow (hex : s.pwr.exiting = true) (hfrom : s.pwr.state < 3) (hto : s.pwr.exitTo < 4) (hnone : s.net.waiting = []) :
    execPowerExitDone s = .next { s with pwr := { s.pwr with
      state := s.pwr.exitTo, exiting := false, entries := bump s.pwr.entries s.pwr.exitTo 1 } } := by
  have hno : ¬ (3 ≤ s.pwr.state ∧ s.pwr.exitTo < 3) := by omega
  rw [execPowerExitDone, live_of_runs _ hr]
  simp only [hex, Bool.not_true, Bool.false_eq_true, if_false, if_neg hno, enterPower, if_pos hto, hnone, List.foldl_nil]
  rw [← hnone]

/-- An exit from self-refresh (R339), with no frame waiting. -/
theorem execPowerExitDone_of_deep (hex : s.pwr.exiting = true) (hfrom : 3 ≤ s.pwr.state) (hto : s.pwr.exitTo < 3) (hnone : s.net.waiting = []) :
    ∃ n m, execPowerExitDone s = .next { s with
      pwr := { s.pwr with state := s.pwr.exitTo, exiting := false, entries := bump s.pwr.entries s.pwr.exitTo 1 },
      freeCtr := n, memc := { s.memc with chans := m } } := by
  obtain ⟨n, m, h⟩ := recentreAll_frame (List.range 12) (enterPower s.pwr.exitTo { s with pwr := { s.pwr with exiting := false } })
  have hlt : s.pwr.exitTo < 4 := by omega
  dsimp only [enterPower] at h
  refine ⟨n, m, ?_⟩
  rw [execPowerExitDone, live_of_runs _ hr]
  simp only [hex, Bool.not_true, Bool.false_eq_true, if_false, if_pos (And.intro hfrom hto), h, enterPower, if_pos hlt, hnone, List.foldl_nil]
  rw [← hnone]

/-- The write of the latency tolerance has no reserved bit (R533). -/
theorem execDevLatencyTolWrite_of_fits {v : Word} (h : exitLatency s.pwr.state ≤ v.toNat) :
    execDevLatencyTolWrite v s = .next (wake { s with dev := { s.dev with latencyTol := v } }) := by
  obtain ⟨hstop, hperst⟩ := hr
  simp [execDevLatencyTolWrite, regWrite, hstop, hperst, Nat.not_lt.mpr h]

theorem execDevLatencyTolWrite_of_below {v : Word} (h : v.toNat < exitLatency s.pwr.state) (hex : s.pwr.exiting = false) :
    execDevLatencyTolWrite v s = .next { s with
      dev := { s.dev with latencyTol := v },
      pwr := { s.pwr with exiting := true, exitTo := deepestFit v.toNat s.pwr.state, wakeCount := up s.pwr.wakeCount 1 } } := by
  obtain ⟨hstop, hperst⟩ := hr
  simp [execDevLatencyTolWrite, regWrite, hstop, hperst, h, hex]

theorem execHoveToEnter_of_idle (hst : s.pwr.state = 0) (hex : s.pwr.exiting = false) (hbusy : taskBusy s = false) (hal : allowed s 1 = true) :
    execHoveToEnter true s = .next { s with pwr := { s.pwr with state := 1, entries := bump s.pwr.entries 1 1 } } := by
  have hok : hoveOk s = true := by rw [hoveOk, hbusy]; rfl
  rw [execHoveToEnter, live_of_runs _ hr, if_pos rfl, if_pos ⟨hst, hex, hok, hal⟩, enterPower]

theorem execHoveToEnter_of_leaving (hst : s.pwr.state = 1) :
    execHoveToEnter false s = .next { s with pwr := { s.pwr with state := 0, exiting := false, entries := bump s.pwr.entries 0 1 } } := by
  rw [execHoveToEnter, live_of_runs _ hr, if_neg Bool.false_ne_true, if_pos hst, enterPower]

end

/-- Settles O39: each clause is the branch of its command. -/
theorem powerStatesChange : Obligations.PowerStatesChange := by
  unfold Obligations.PowerStatesChange
  simp only [exec_hoveToEnter, exec_devLatencyTolWrite]
  refine ⟨fun s => execHoveToEnter_of_idle, fun s => execHoveToEnter_of_leaving, fun s => execPowerExitDone_of_shallow, ?deep,
    fun s => execPowerExitDone_of_resting, fun v s hs => execDevLatencyTolWrite_of_fits hs.1, fun v s hs => execDevLatencyTolWrite_of_below hs.1⟩
  case deep =>
    intro s hr hex hfrom hto hnone
    obtain ⟨n, m, h⟩ := execPowerExitDone_of_deep hr hex hfrom hto hnone
    exact ⟨_, h, rfl⟩

end Sys2Proof.Machine
end

section
/-! Self test and calibration: how a target of BIST is judged, how Sextant measures an entry and takes a coefficient, and the statements on them
(R500 to R517). -/

namespace Sys2Proof.Machine
open Sys2Proof

theorem exec_bistTargetDone (r : BistRes) (s : State) : exec (.bistTargetDone r) s = execBistTargetDone r s := rfl
theorem exec_bistCtrlWrite (v : Word) (s : State) : exec (.bistCtrlWrite v) s = execBistCtrlWrite v s := rfl
theorem exec_sextantMeasure (m : SextMeas) (s : State) : exec (.sextantMeasure m) s = execSextantMeasure m s := rfl
theorem exec_sextCoefGainWrite (v : Word) (s : State) : exec (.sextCoefGainWrite v) s = execSextCoefGainWrite v s := rfl
theorem exec_sextCoefOffsetWrite (v : Word) (s : State) : exec (.sextCoefOffsetWrite v) s = execSextCoefOffsetWrite v s := rfl
theorem exec_sextCtrlWrite (v : Word) (s : State) : exec (.sextCtrlWrite v) s = execSextCtrlWrite v s := rfl

/-! The targets of the analogue stream (R500 to R504). -/

section
variable {s : State} {r : BistRes}

theorem anaDue_head (hkept : s.bist.kept = []) (hhead : r.target = s.bist.head) : anaDue s r.target = true := by
  simp [anaDue, hkept, hhead]

theorem anaPaused_of_notDdr (h : 0x100 ≤ r.target) : anaPaused s r.target = false := by
  rw [anaPaused, decide_eq_false (by omega), Bool.false_and]

theorem anaAdvance_head {n t : Nat} (hkept : s.bist.kept = []) (hn : nextAna t = some n) :
    anaAdvance t s = { s with bist := { s.bist with head := n } } := by
  have hno : has s.bist.kept t = false := by rw [hkept]; rfl
  rw [anaAdvance, hno, if_neg Bool.false_ne_true, hn]

theorem anaDone_of_skipped {lim : BitVec 64} {n : Nat} (ht : 0x100 ≤ r.target) (hkept : s.bist.kept = []) (hhead : r.target = s.bist.head)
    (hskip : r.skipped = true) (hn : nextAna r.target = some n) :
    anaDone r lim s = { s with bist := { s.bist with head := n, cnt := bump s.bist.cnt 0x28 1 } } := by
  rw [anaDone]
  simp only [anaDue_head hkept hhead, anaPaused_of_notDdr ht, hskip, Bool.not_true, Bool.false_eq_true, if_false, Bool.true_or, if_true]
  exact anaAdvance_head hkept hn

theorem anaDone_of_ok {lim : BitVec 64} {n : Nat} (ht : 0x220 ≤ r.target) (hkept : s.bist.kept = []) (hhead : r.target = s.bist.head)
    (hrun : r.skipped = false) (hnoskip : anaSkips s r.target = false) (hused : s.bist.used + anaTime r.target ≤ 40)
    (hok : measuredOk r.result lim = true) (hn : nextAna r.target = some n) :
    anaDone r lim s
      = { s with bist := { s.bist with head := n, cnt := bump s.bist.cnt 0x20 1, used := s.bist.used + anaTime r.target } } := by
  have hsensor : ¬ (0x200 ≤ r.target ∧ r.target < 0x220) := by omega
  rw [anaDone]
  simp only [anaDue_head hkept hhead, anaPaused_of_notDdr (r := r) (by omega), hrun, hnoskip, Bool.not_true, Bool.false_eq_true, if_false,
    Bool.or_self, if_neg (Nat.not_lt.mpr hused), anaAdvance_head hkept hn, hok, if_true, if_neg hsensor, bistCount]

end

/-! The engine targets (R501, R506, R508). -/

section
variable {s : State} {r : BistRes} {e : Nat}

theorem engDone_of_failed {v : BitVec 64} (hv : v ≠ r.result) :
    engDone r e e (some v) s = bistFail (winQtr (e / 32)) 3 r.target r.variant 0
      { s with bist := { s.bist with cnt := bump s.bist.cnt 0x20 1, failed := addS s.bist.failed e } } := by
  simp [engDone, hv, bistCount]

theorem engDone_of_passed (hfirst : has s.bist.scanOk (512 + e) = false) :
    engDone r e e (some r.result) s
      = { s with bist := { s.bist with cnt := bump s.bist.cnt 0x20 1, scanOk := addS s.bist.scanOk e } } := by
  simp [engDone, bistCount, has_addS, hfirst]

end

/-! What the end of a target answers. -/

section
variable {s : State} {r : BistRes} (hr : Runs s)
include hr

theorem execBistTargetDone_of_noSlice (h : s.bist.slice = false) : execBistTargetDone r s = .next s := by
  rw [execBistTargetDone, live_of_runs _ hr, h]
  rfl

theorem execBistTargetDone_of_analogue {lim : BitVec 64} (h : s.bist.slice = true) (ht : r.target ≤ 0x312) (hlim : r.limit = some lim)
    (hen : bit s.bist.cfg 8 = true) : execBistTargetDone r s = .next (anaDone r lim s) := by
  rw [execBistTargetDone, live_of_runs _ hr]
  simp only [h, Bool.not_true, Bool.false_eq_true, if_false, if_pos ht, hlim, hen, if_true]

theorem execBistTargetDone_of_engine {k : Nat} {v : BitVec 64} (h : s.bist.slice = true) (ht : r.target = 0x400 + (32 * r.quarter + k))
    (hin : look s.bist.standIn r.quarter = some k) (hen : bit s.bist.cfg 9 = true) (hout : has s.bist.out (32 * r.quarter + k) = true)
    (hlim : r.limit = some v) : execBistTargetDone r s = .next (engDone r (32 * r.quarter + k) (32 * r.quarter + k) (some v) s) := by
  have hdigital : ¬ r.target ≤ 0x312 := by omega
  rw [execBistTargetDone, live_of_runs _ hr]
  simp only [h, Bool.not_true, Bool.false_eq_true, if_false, if_neg hdigital, hin, hen, hout, Bool.or_self, if_pos ht, hlim]

end

theorem execBistCtrlWrite_eq {v : Word} {s : State} (hs : Serves s) (hv : v &&& 0xFFFFFFFE = 0) :
    execBistCtrlWrite v s = .next (if bit v 0 && !s.plan.first then { wake s with bist := { s.bist with reason := 0x0B30 } }
      else { wake s with bist := { s.bist with en := bit v 0 } }) := by
  rw [execBistCtrlWrite, blockWrite_of_accepted _ hs hv]
  simp only [wake_plan, wake_bist]

/-- Settles O37: a target is judged as its class and its comparison say. -/
theorem selfTestsAreJudged : Obligations.SelfTestsAreJudged := by
  unfold Obligations.SelfTestsAreJudged
  simp only [exec_bistTargetDone, exec_bistCtrlWrite]
  refine ⟨?measured, ?skipped, ?failed, ?passed, fun r s => execBistTargetDone_of_noSlice, ?refused, ?set⟩
  case measured =>
    intro r lim n s hr hsl hle hge hlim hen hkept hhead hrun hnoskip hused hok hn
    rw [execBistTargetDone_of_analogue hr hsl hle hlim hen, anaDone_of_ok hge hkept hhead hrun hnoskip hused hok hn]
  case skipped =>
    intro r lim n s hr hsl hle hge hlim hen hkept hhead hskip hn
    rw [execBistTargetDone_of_analogue hr hsl hle hlim hen, anaDone_of_skipped hge hkept hhead hskip hn]
  case failed =>
    intro r k v s hr hsl ht hin hen hout hlim hv
    rw [execBistTargetDone_of_engine hr hsl ht hin hen hout hlim, engDone_of_failed hv]
  case passed =>
    intro r k s hr hsl ht hin hen hout hlim hfirst hk
    rw [execBistTargetDone_of_engine hr hsl ht hin hen hout hlim, engDone_of_passed hfirst]
  case refused =>
    intro v s hs hv hen hplan
    rw [execBistCtrlWrite_eq hs hv, hen, hplan]
    rfl
  case set =>
    intro v s hs hv h
    rw [execBistCtrlWrite_eq hs hv, if_neg (by simpa [imp_iff_not_or] using h)]

/-! Sextant: an entry is measured at its Bell (R511, R514). -/

section
variable {s : State} {m : SextMeas}

theorem execSextantMeasure_of_off (hr : Runs s)
    (h : bit s.sext.ctrl 0 = false ∨ s.bell.num.toNat % max 1 (fld s.sext.cfg 7 0) ≠ 0 ∨ s.sext.result.isSome = true ∨ 3 ≤ s.pwr.state) :
    execSextantMeasure m s = .next s := by
  rw [execSextantMeasure, live_of_runs _ hr, if_pos]
  simpa [or_assoc] using h

theorem execSextantMeasure_of_due (hr : Runs s) (hen : bit s.sext.ctrl 0 = true) (hbell : s.bell.num.toNat % max 1 (fld s.sext.cfg 7 0) = 0)
    (hres : s.sext.result = none) (hpwr : s.pwr.state < 3) :
    execSextantMeasure m s = .next (if (s.sext.next < 80 ∧ m.voltOk = false) ∨ (80 ≤ s.sext.next ∧ s.sext.next < 84 ∧ m.clkOk = false) then
        sextNext (sextRefs m s) else sextJudge s.sext.next m (sextNext (sextRefs m s))) := by
  rw [execSextantMeasure, live_of_runs _ hr, if_neg]
  simp [hen, hbell, hres, hpwr]

/-- References that do not turn bad raise nothing (R512). -/
theorem sextRefs_of_steady (hclk : m.clkOk = true) (hvolt : m.voltOk = true ∨ s.sext.voltOk = false) :
    sextRefs m s = { s with sext := { s.sext with clkOk := m.clkOk, voltOk := m.voltOk } } := by
  have hquiet : (s.sext.voltOk && !m.voltOk) = false := by
    obtain h | h := hvolt <;> simp [h]
  simp [sextRefs, hclk, hquiet]

theorem sextNext_of_lt (h : s.sext.next < 95) : sextNext s = { s with sext := { s.sext with next := s.sext.next + 1 } } := if_neg (by omega)

theorem sextNext_sextRefs (hclk : m.clkOk = true) (hvolt : m.voltOk = true ∨ s.sext.voltOk = false) (hnext : s.sext.next < 95) :
    sextNext (sextRefs m s) = { s with sext := { s.sext with clkOk := m.clkOk, voltOk := m.voltOk, next := s.sext.next + 1 } } := by
  rw [sextRefs_of_steady hclk hvolt]
  exact sextNext_of_lt hnext

theorem sextJudge_of_accepted {i k : Nat} (hmode : bit s.sext.ctrl 1 = true) (hset : nearSet m.temp = some k) (habs : sextAbs i m.gain m.offset = true)
    (hrel : sextRel i (sextPair s i k) (m.gain, m.offset) = true) :
    sextJudge i m s = { s with sext := { s.sext with
      raw := put s.sext.raw i m.raw, temps := put s.sext.temps i m.temp, result := some (4 * i + k, m.gain, m.offset),
      stale := remS s.sext.stale i, accept := up s.sext.accept 1 } } := by
  simp only [sextJudge, hmode, if_true, hset, habs, hrel, Bool.and_self]

end

/-! The coefficients that software writes (R513), and SEXT_CTRL (R514). -/

theorem sextKey_wake (s : State) : sextKey (wake s) = sextKey s := by
  rw [sextKey, wake_sext, sextKey]

section
variable {s : State} {v : Word} (hs : Serves s)
include hs

theorem execSextCoefGainWrite_of_accepted (hv : v &&& 0xFFFF0000 = 0) :
    execSextCoefGainWrite v s = .next { wake s with sext := { s.sext with held := some (sextKey s, v.truncate 16) } } := by
  rw [execSextCoefGainWrite, blockWrite_of_accepted _ hs hv, sextKey_wake, wake_sext]

/-- The offset half with the gain half of the same entry held is judged against the absolute limits (R510). -/
theorem execSextCoefOffsetWrite_of_held {g : BitVec 16} (hv : v &&& 0xFFFF0000 = 0) (hheld : s.sext.held = some (sextKey s, g)) :
    execSextCoefOffsetWrite v s = .next (if sextAbs (sextKey s / 4) g (v.truncate 16) then
        { wake s with sext := { s.sext with held := none, staged := put s.sext.staged (sextKey s) (g, v.truncate 16) } }
      else { wake s with sext := { s.sext with held := none, reason := 0x0B32 } }) := by
  rw [execSextCoefOffsetWrite, blockWrite_of_accepted _ hs hv]
  simp only [wake_sext, hheld, sextKey_wake, ne_eq, not_true_eq_false, if_false]

theorem execSextCtrlWrite_eq (hv : v &&& 0xFFFFFFFC = 0) :
    execSextCtrlWrite v s = .next (if bit s.sext.ctrl 0 && (bit v 1 != bit s.sext.ctrl 1) then
        { wake s with sext := { s.sext with reason := 0x0B31 } }
      else { wake s with sext := { s.sext with ctrl := v } }) := by
  rw [execSextCtrlWrite, blockWrite_of_accepted _ hs hv]
  simp only [wake_sext]

end

/-- Settles O38: a measurement and each write meet as the checks of Sextant say. -/
theorem sextantCalibrates : Obligations.SextantCalibrates := by
  unfold Obligations.SextantCalibrates
  simp only [exec_sextantMeasure, exec_sextCoefGainWrite, exec_sextCoefOffsetWrite, exec_sextCtrlWrite]
  refine ⟨?accepted, ?skipped, fun m s hr h => execSextantMeasure_of_off hr h, fun v s hs hv => execSextCoefGainWrite_of_accepted hs hv, ?staged,
    ?outside, ?modeRefused, ?ctrl⟩
  case accepted =>
    intro m k s hr hen hmode hbell hres hpwr hclk hvolt hnext hset habs hrel
    have hgood : ¬ ((s.sext.next < 80 ∧ m.voltOk = false) ∨ (80 ≤ s.sext.next ∧ s.sext.next < 84 ∧ m.clkOk = false)) := by simp [hclk, hvolt]
    rw [execSextantMeasure_of_due hr hen hbell hres hpwr, if_neg hgood, sextNext_sextRefs hclk (.inl hvolt) hnext, hclk, hvolt]
    exact congrArg _ (sextJudge_of_accepted hmode hset habs hrel)
  case skipped =>
    intro m s hr hen hbell hres hpwr hclk hvolt hold hnext
    rw [execSextantMeasure_of_due hr hen hbell hres hpwr, if_pos (.inl ⟨hnext, hvolt⟩), sextNext_sextRefs hclk (.inr hold) (by omega), hclk, hvolt]
  case staged =>
    intro v g s hs hv hheld habs
    rw [execSextCoefOffsetWrite_of_held hs hv hheld, if_pos habs]
  case outside =>
    intro v g s hs hv hheld habs
    rw [execSextCoefOffsetWrite_of_held hs hv hheld, habs, if_neg Bool.false_ne_true]
  case modeRefused =>
    intro v s hs hv hen hmode
    rw [execSextCtrlWrite_eq hs hv, if_pos (by simp [hen, hmode])]
  case ctrl =>
    intro v s hs hv h
    rw [execSextCtrlWrite_eq hs hv, if_neg]
    obtain h | h := h <;> simp [h]

end Sys2Proof.Machine
end

section
/-! Fault watches: what an event, a write of a watch's registers and a silent Helm core answer, and the statement on them (R10, R484 to R488, R493 to
R498). -/

namespace Sys2Proof.Machine
open Sys2Proof

theorem exec_watchEvent (w k : Nat) (c : Code) (i : Bool) (p : Nat) (s : State) : exec (.watchEvent w k c i p) s = execWatchEvent w k c i p s := rfl
theorem exec_errPulseEnd (s : State) : exec .errPulseEnd s = execErrPulseEnd s := rfl
theorem exec_watchStatusWrite (w : Nat) (v : Word) (s : State) : exec (.watchStatusWrite w v) s = execWatchStatusWrite w v s := rfl
theorem exec_watchCfgWrite (w : Nat) (v : Word) (s : State) : exec (.watchCfgWrite w v) s = execWatchCfgWrite w v s := rfl
theorem exec_watchInject (w : Nat) (v : Word) (s : State) : exec (.watchInject w v) s = execWatchInject w v s := rfl
theorem exec_devErrPinWrite (v : Word) (s : State) : exec (.devErrPinWrite v) s = execDevErrPinWrite v s := rfl
theorem exec_helmHeartbeatTimeout (c : Nat) (s : State) : exec (.helmHeartbeatTimeout c) s = execHelmHeartbeatTimeout c s := rfl

@[simp] theorem watchOf_wake (s : State) (w : Nat) : watchOf (wake s) w = watchOf s w := by rw [watchOf, watchOf, wake_watches]

theorem setWatch_wake (s : State) (w : Nat) (g : Watch → Watch) :
    setWatch (wake s) w g = { wake s with watches := put s.watches w (g (watchOf s w)) } := by
  rw [setWatch, watchOf_wake, wake_watches]

section
variable {s : State} {w k p : Nat} {c : Code}

/-! Events (R484, R497). -/

theorem execWatchEvent_of_absent (i : Bool) (hr : Runs s) (h : 48 ≤ w ∨ kindExists w k = false) : execWatchEvent w k c i p s = .next s := by
  rw [execWatchEvent, live_of_runs _ hr, if_pos (by simpa using h)]

theorem execWatchEvent_of_kind (hr : Runs s) (hw : w < 48) (hk : kindExists w k = true) :
    execWatchEvent w k c false p s = .next (raise w k c false (reaction w k p) s) := by
  have hhas : ¬ (48 ≤ w ∨ (!kindExists w k) = true) := by simp [hw, hk]
  rw [execWatchEvent, live_of_runs _ hr, if_neg hhas, if_neg Bool.false_ne_true]

theorem execWatchEvent_of_injected (hr : Runs s) (hw : w < 48) (hk : kindExists w k = true) (harm : bit (watchOf s w).inject 31 = true)
    (hfed : injectedKind w (watchOf s w).inject = k) :
    execWatchEvent w k c true p s = .next (raise w k c true (reaction w k p)
      { s with watches := put s.watches w { watchOf s w with inject := spendInject (watchOf s w).inject } }) := by
  have hhas : ¬ (48 ≤ w ∨ (!kindExists w k) = true) := by simp [hw, hk]
  rw [execWatchEvent, live_of_runs _ hr, if_neg hhas, if_pos rfl, if_pos ⟨harm, hfed⟩, setWatch]

/-! The registers of a watch (R485, R492, R496 to R498). -/

theorem execWatchStatusWrite_of_watch (v : Word) (hs : Serves s) (hw : w < 48) :
    execWatchStatusWrite w v s = .next (watchLevel w { wake s with watches := put s.watches w { watchOf s w with
      severe := (watchOf s w).severe &&& ~~~((v >>> 16).truncate 16), seen := (watchOf s w).seen &&& ~~~(v.truncate 16),
      kinds := clearCounts ((watchOf s w).severe &&& (v >>> 16).truncate 16) (watchOf s w).kinds } }) := by
  rw [execWatchStatusWrite, blockWrite_of_accepted _ hs (by simp), if_neg (by omega)]
  dsimp only
  rw [setWatch_wake]

theorem execWatchCfgWrite_of_watch {v : Word} (hs : Serves s) (hw : w < 48) (hv : v &&& 0x0000FF00 = 0) :
    execWatchCfgWrite w v s = .next { wake s with watches := put s.watches w { watchOf s w with cfg := windowLimit (watchOf s w).cfg v } } := by
  rw [execWatchCfgWrite, blockWrite_of_accepted _ hs hv, if_neg (by omega), setWatch_wake]

theorem execWatchInject_of_watch {v : Word} (hs : Serves s) (hw : w < 48) (hv : v &&& 0x70FEFF00 = 0) :
    execWatchInject w v s = .next (if injectBad w v then guardReject 6 0 (w * 0x10000 + 0xF020) 1 (wake s)
      else { wake s with watches := put s.watches w { watchOf s w with inject := v } }) := by
  rw [execWatchInject, blockWrite_of_accepted _ hs hv, if_neg (by omega), setWatch_wake]

/-! A Helm core that stops (R10). -/

/-- The reaction of the Helm watch holds the core. -/
theorem reaction_helm (core : Nat) : reaction winHelm 0 core = fun s => { s with stalled := addS s.stalled core } := rfl

theorem execHelmHeartbeatTimeout_of_core {core : Nat} (hr : Runs s) (hc : core < 4) :
    execHelmHeartbeatTimeout core s = .next (raise winHelm 0 0 false (fun s => { s with stalled := addS s.stalled core }) s) := by
  rw [execHelmHeartbeatTimeout, live_of_runs _ hr, if_neg (by omega), reaction_helm]

theorem execHelmHeartbeatTimeout_of_none {core : Nat} (hr : Runs s) (hc : 4 ≤ core) : execHelmHeartbeatTimeout core s = .next s := by
  rw [execHelmHeartbeatTimeout, live_of_runs _ hr, if_pos hc]

end

/-- Settles O36: each clause is the branch of its command. -/
theorem watchesCountFaults : Obligations.WatchesCountFaults := by
  unfold Obligations.WatchesCountFaults
  simp only [exec_watchEvent, exec_errPulseEnd, exec_watchStatusWrite, exec_watchCfgWrite, exec_watchInject, exec_devErrPinWrite,
    exec_helmHeartbeatTimeout]
  refine ⟨fun w k p c s => execWatchEvent_of_kind, fun w k p c s => execWatchEvent_of_injected, fun w k p c i s => execWatchEvent_of_absent i,
    ?pulse, fun w v s => execWatchStatusWrite_of_watch v, fun w v s => execWatchCfgWrite_of_watch, ?inject, ?injectBad, ?pin,
    fun c s => execHelmHeartbeatTimeout_of_core, fun c s => execHelmHeartbeatTimeout_of_none⟩
  case pulse => exact fun s hr => live_of_runs _ hr
  case inject =>
    intro w v s hs hw hv hgood
    rw [execWatchInject_of_watch hs hw hv, hgood, if_neg Bool.false_ne_true]
  case injectBad =>
    intro w v s hs hw hv hbad
    rw [execWatchInject_of_watch hs hw hv, if_pos hbad]
  case pin =>
    intro v s hs hv
    rw [execDevErrPinWrite, devWrite_of_accepted _ hs.1 hv, wake_dev]

end Sys2Proof.Machine
end

section
/-! Interrupts and event queues: messages, claims, completions, routes and masks, the post of an event record, and the statements on them (R462 to
R482). -/

namespace Sys2Proof.Machine
open Sys2Proof

theorem exec_irqMessage (t : Nat) (s : State) : exec (.irqMessage t) s = execIrqMessage t s := rfl
theorem exec_irqClaim (t : Nat) (s : State) : exec (.irqClaim t) s = execIrqClaim t s := rfl
theorem exec_irqComplete (t : Nat) (v : Word) (s : State) : exec (.irqComplete t v) s = execIrqComplete t v s := rfl
theorem exec_irqPendSet (v : Word) (s : State) : exec (.irqPendSet v) s = execIrqPendSet v s := rfl
theorem exec_irqSrcCfgWrite (i : Nat) (v : Word) (s : State) : exec (.irqSrcCfgWrite i v) s = execIrqSrcCfgWrite i v s := rfl
theorem exec_fnIrqClaim (f v : Nat) (s : State) : exec (.fnIrqClaim f v) s = execFnIrqClaim f v s := rfl
theorem exec_fnIrqComplete (f v : Nat) (w : Word) (s : State) : exec (.fnIrqComplete f v w) s = execFnIrqComplete f v w s := rfl
theorem exec_fnIrqPendSet (f : Nat) (v : Word) (s : State) : exec (.fnIrqPendSet f v) s = execFnIrqPendSet f v s := rfl
theorem exec_fnIrqSrcCfgWrite (f k : Nat) (v : Word) (s : State) : exec (.fnIrqSrcCfgWrite f k v) s = execFnIrqSrcCfgWrite f k v s := rfl
theorem exec_fnIrqDmaCfgWrite (f k : Nat) (v : Word) (s : State) : exec (.fnIrqDmaCfgWrite f k v) s = execFnIrqDmaCfgWrite f k v s := rfl
theorem exec_msixMaskWrite (f v : Nat) (m : Bool) (s : State) : exec (.msixMaskWrite f v m) s = execMsixMaskWrite f v m s := rfl
theorem exec_evqCtrlWrite (f : Nat) (v : Word) (s : State) : exec (.evqCtrlWrite f v) s = execEvqCtrlWrite f v s := rfl
theorem exec_evqHeadDb (f : Nat) (v : Word) (s : State) : exec (.evqHeadDb f v) s = execEvqHeadDb f v s := rfl
theorem exec_eventRecordPost (f : Nat) (ok : Bool) (s : State) : exec (.eventRecordPost f ok) s = execEventRecordPost f ok s := rfl

/-! What waking leaves of the sources and routes. -/

@[simp] theorem routeOf_wake (s : State) (i : Nat) : routeOf (wake s) i = routeOf s i := by simp only [routeOf, wake_irq, wake_vfCount]
@[simp] theorem claimable_wake (s : State) (t i : Nat) : claimable (wake s) t i = claimable s t i := by simp only [claimable, wake_irq, routeOf_wake]
@[simp] theorem bestSource_wake (s : State) (t : Nat) : bestSource (wake s) t = bestSource s t := by
  simp only [bestSource, wake_irq, claimable_wake, routeOf_wake]
@[simp] theorem msixOf_wake (s : State) (t : Nat) : msixOf (wake s) t = msixOf s t := by rw [msixOf, wake_irq, msixOf]
@[simp] theorem sourceVf_wake (s : State) (i : Nat) : sourceVf (wake s) i = sourceVf s i := by simp only [sourceVf, wake_dma]
@[simp] theorem routeOk_wake (s : State) (i t : Nat) : routeOk (wake s) i t = routeOk s i t := by simp only [routeOk, sourceVf_wake]
@[simp] theorem slotChannel_wake (s : State) (f k : Nat) : slotChannel (wake s) f k = slotChannel s f k := by simp only [slotChannel, wake_dma]

/-! Messages (R467, R473, R474). -/

section
variable {s : State} {t i : Nat}

theorem message_of_helm (h : 0x800 ≤ t ∧ t ≤ 0x803) : message t s = emit (.helmIrq (t - 0x800)) s := if_pos h

theorem message_of_vector (h : t < 0x800 ∨ 0x803 < t) : message t s = emit (.msi t) s := if_neg (by omega)

/-- What a message leaves at its target: it is disarmed, and the levels that it stood for are noted (R467, R469). -/
def messaged (t : Nat) (s : State) : Irq :=
  { s.irq with
    disarmed := addS s.irq.disarmed t
    msgLevel := put s.irq.msgLevel t (s.irq.pend.filter (fun k => claimable s t k && decide (srcKind k = .level)))
    withdrawn := remS s.irq.withdrawn t }

theorem issueMessage_of_quiet (h : has s.irq.disarmed t = true ∨ bestSource s t = none ∨ s.pwr.exiting = true) : issueMessage t s = s := by
  rw [issueMessage, if_pos]
  obtain h | h | h := h <;> simp [h]

theorem issueMessage_of_due (harm : has s.irq.disarmed t = false) (hsrc : bestSource s t = some i) (hex : s.pwr.exiting = false) :
    issueMessage t s = if !(decide (0x800 ≤ t) && decide (t ≤ 0x803)) && (msixOf s t).mask then
        { s with irq := { messaged t s with pba := addS s.irq.pba t } }
      else message t { s with irq := messaged t s } := by
  simp only [issueMessage, harm, hsrc, hex, Option.isNone_some, Bool.or_self, Bool.false_eq_true, if_false]
  rfl

end

/-! Claims (R467 to R469). -/

/-- What every claim leaves at its target: it is armed again, and no level is noted for it (R467, R469). -/
def rearmed (t : Nat) (s : State) : Irq :=
  { s.irq with disarmed := remS s.irq.disarmed t, msgLevel := del s.irq.msgLevel t, withdrawn := remS s.irq.withdrawn t }

section
variable {s : State} {t i : Nat}

theorem readClaim_of_source (h : bestSource s t = some i) : readClaim t s =
    { s with out := s.out ++ [.readData (BitVec.ofNat 32 i)]
             irq := { rearmed t s with pend := remS s.irq.pend i, forced := remS s.irq.forced i, insvc := put s.irq.insvc i t } } := by
  rw [readClaim, claimAt, h]
  rfl

theorem readClaim_of_withdrawn (h : bestSource s t = none) (hw : has s.irq.withdrawn t = true) : readClaim t s =
    { s with out := s.out ++ [.readData 0xFFE], irq := { rearmed t s with spurious := up s.irq.spurious 1 } } := by
  simp only [readClaim, claimAt, h, hw, if_true]
  rfl

theorem readClaim_of_none (h : bestSource s t = none) (hw : has s.irq.withdrawn t = false) : readClaim t s =
    { s with out := s.out ++ [.readData 0xFFF], irq := rearmed t s } := by
  simp only [readClaim, claimAt, h, hw, Bool.false_eq_true, if_false]
  rfl

theorem rearmed_wake : rearmed t (wake s) = rearmed t s := by simp only [rearmed, wake_irq]

theorem execIrqClaim_of_serves (hs : Serves s) (ht : t ≤ 0x803) : execIrqClaim t s = .next (readClaim t (wake s)) := by
  rw [execIrqClaim, live_of_runs _ hs.1, if_pos ⟨ht, hs.2⟩]

theorem execFnIrqClaim_of_serves {f v : Nat} (hs : Serves s) (hf : 1 ≤ f) (hon : fnOn s f = true) (hv : v < 64) :
    execFnIrqClaim f v s = .next (readClaim (vectorTarget f v) (wake s)) := by
  rw [execFnIrqClaim, live_of_runs _ hs.1, if_pos ⟨hf, hon, hv, hs.2⟩]

end

/-! Masks (R473). -/

section
variable {s : State} {t : Nat}

/-- The interrupts of a device of which a vector's mask has been written. -/
def remasked (t : Nat) (m : Bool) (s : State) : Irq := { s.irq with msix := put s.irq.msix t { msixOf s t with mask := m } }

theorem setMask_of_quiet {m : Bool} (h : m = true ∨ has s.irq.pba t = false) : setMask t m s = { s with irq := remasked t m s } := by
  rw [setMask, if_neg]
  · rfl
  · obtain h | h := h <;> simp [h]

theorem setMask_of_due (h : has s.irq.pba t = true) :
    setMask t false s = message t { s with irq := { remasked t false s with pba := remS s.irq.pba t } } := by
  rw [setMask, if_pos (by simp [h])]
  rfl

theorem remasked_wake {m : Bool} : remasked t m (wake s) = remasked t m s := by simp only [remasked, wake_irq, msixOf_wake]

theorem execMsixMaskWrite_of_serves {f v : Nat} {m : Bool} (hs : Serves s) (hon : fnOn s f = true) (hv : v < if f = 0 then 2048 else 64) :
    execMsixMaskWrite f v m s = .next (setMask (vectorTarget f v) m (wake s)) := by
  rw [execMsixMaskWrite, live_of_runs _ hs.1, if_pos (by simp only [hon, hv, hs.2, decide_true, Bool.and_self])]

end

/-- Settles O33: a message by what stands at its target, a claim by what it answers, a mask by whether a message is due. -/
theorem interruptMessages : Obligations.InterruptMessages := by
  unfold Obligations.InterruptMessages
  simp only [exec_irqMessage, exec_irqClaim, exec_fnIrqClaim, exec_msixMaskWrite]
  refine ⟨?msi, ?masked, ?helm, ?quiet, ?claim, ?spurious, ?none, ?fnClaim, ?fnSpurious, ?fnNone, ?mask, ?unmask, ?unmaskDue⟩
  case msi =>
    intro t i s hr harm hsrc hex ht hm
    rw [execIrqMessage, live_of_runs _ hr, issueMessage_of_due harm hsrc hex, hm, Bool.and_false, if_neg Bool.false_ne_true, message_of_vector ht]
    rfl
  case masked =>
    intro t i s hr harm hsrc hex ht hm
    rw [execIrqMessage, live_of_runs _ hr, issueMessage_of_due harm hsrc hex, if_pos]
    · rfl
    · simp [hm]; omega
  case helm =>
    intro t i s hr harm hsrc hex hlo hhi
    rw [execIrqMessage, live_of_runs _ hr, issueMessage_of_due harm hsrc hex, if_neg (by simp [hlo, hhi]), message_of_helm ⟨hlo, hhi⟩]
    rfl
  case quiet =>
    intro t s hr h
    rw [execIrqMessage, live_of_runs _ hr, issueMessage_of_quiet h]
  case claim =>
    intro t i s hs ht hsrc
    rw [execIrqClaim_of_serves hs ht, readClaim_of_source (by rwa [bestSource_wake])]
    simp only [rearmed_wake, wake_irq, wake_out]
    rfl
  case spurious =>
    intro t s hs ht hsrc hw
    rw [execIrqClaim_of_serves hs ht, readClaim_of_withdrawn (by rwa [bestSource_wake]) (by rwa [wake_irq])]
    simp only [rearmed_wake, wake_irq, wake_out]
    rfl
  case none =>
    intro t s hs ht hsrc hw
    rw [execIrqClaim_of_serves hs ht, readClaim_of_none (by rwa [bestSource_wake]) (by rwa [wake_irq])]
    simp only [rearmed_wake, wake_out]
    rfl
  case fnClaim =>
    intro f v i s hs hf hon hv hsrc
    rw [execFnIrqClaim_of_serves hs hf hon hv, readClaim_of_source (by rwa [bestSource_wake])]
    simp only [rearmed_wake, wake_irq, wake_out]
    rfl
  case fnSpurious =>
    intro f v s hs hf hon hv hsrc hw
    rw [execFnIrqClaim_of_serves hs hf hon hv, readClaim_of_withdrawn (by rwa [bestSource_wake]) (by rwa [wake_irq])]
    simp only [rearmed_wake, wake_irq, wake_out]
    rfl
  case fnNone =>
    intro f v s hs hf hon hv hsrc hw
    rw [execFnIrqClaim_of_serves hs hf hon hv, readClaim_of_none (by rwa [bestSource_wake]) (by rwa [wake_irq])]
    simp only [rearmed_wake, wake_out]
    rfl
  case mask =>
    intro f v s hs hon hv
    rw [execMsixMaskWrite_of_serves hs hon hv, setMask_of_quiet (.inl rfl), remasked_wake]
    rfl
  case unmask =>
    intro f v s hs hon hv hp
    rw [execMsixMaskWrite_of_serves hs hon hv, setMask_of_quiet (.inr (by rwa [wake_irq])), remasked_wake]
    rfl
  case unmaskDue =>
    intro v s hs hv hp
    rw [execMsixMaskWrite_of_serves hs rfl (by simpa using hv), show vectorTarget 0 v = v from rfl, setMask_of_due (by rwa [wake_irq]),
      message_of_vector (.inl hv), if_neg (by omega), remasked_wake, emit]
    simp only [wake_irq, wake_out]
    rfl

/-! Completions, forced pending and routes (R464 to R466, R470 to R472, R482). -/

section
variable {s : State} {t i : Nat}

theorem completeAt_of_done (h : look s.irq.insvc i = some t) (hc : has s.irq.cond i = false) :
    completeAt t i s = { s with irq := { s.irq with insvc := del s.irq.insvc i } } := by
  simp only [completeAt, h, hc, if_true, Bool.false_eq_true, if_false]

theorem completeAt_of_standing (h : look s.irq.insvc i = some t) (hc : has s.irq.cond i = true) :
    completeAt t i s = setPend i { s with irq := { s.irq with insvc := del s.irq.insvc i } } := by
  simp only [completeAt, h, hc, if_true]

theorem completeAt_of_other (h : look s.irq.insvc i ≠ some t) :
    completeAt t i s = { s with irq := { s.irq with badComplete := up s.irq.badComplete 1 } } := if_neg h

theorem forcePend_of_pulse (h : srcKind i = .pulse) : forcePend i s = setPend i s := by
  rw [forcePend, h, if_neg (by decide)]

theorem forcePend_of_level (h : srcKind i = .level) :
    forcePend i s = setPend i { s with irq := { s.irq with forced := addS s.irq.forced i } } := by
  rw [forcePend, h, if_pos rfl]

theorem fnRouteWrite_of_own {f : Nat} {w : Word} (hf : 1 ≤ f) (h : targetVf (routeOf s i).target = some f) :
    fnRouteWrite f i w s = setRoute i (routeOfWord w (vectorTarget f (fld w 5 0))) s := by
  rw [fnRouteWrite, if_neg (by omega), if_pos h]

theorem fnRouteWrite_of_foreign {f : Nat} {w : Word} (hf : 1 ≤ f) (h : targetVf (routeOf s i).target ≠ some f) :
    fnRouteWrite f i w s = evqRefuse f 0x0414 s := by
  rw [fnRouteWrite, if_neg (by omega), if_neg h]

theorem execIrqComplete_of_serves {w : Word} (hs : Serves s) (hw : w &&& 0xFFFFF000 = 0) (ht : t ≤ 0x803) :
    execIrqComplete t w s = .next (completeAt t (fld w 11 0) (wake s)) := blockWrite_answers hs hw (if_pos ht)

theorem execFnIrqComplete_of_serves {f v : Nat} {w : Word} (hs : Serves s) (hw : w &&& 0xFFFFF000 = 0) (hon : fnOn s f = true) (hf : 1 ≤ f)
    (hv : v < 64) : execFnIrqComplete f v w s = .next (completeAt (vectorTarget f v) (fld w 11 0) (wake s)) :=
  fnWrite_answers hs hw hon (if_pos ⟨hf, hv⟩)

/-- A write through a VF's window of the route of a source of its own (R482). -/
theorem execFnIrqSrcCfgWrite_of_vf {f k : Nat} {w : Word} (hs : Serves s) (hw : w &&& 0x01FE0000 = 0) (hf : 1 ≤ f) (hon : fnOn s f = true)
    (hk : k ≤ 12) : execFnIrqSrcCfgWrite f k w s = .next (fnRouteWrite f (fnSource f k) w (wake s)) := by
  rw [execFnIrqSrcCfgWrite, if_neg (by omega : f ≠ 0)]
  exact fnWrite_answers hs hw hon (if_neg (by omega))

/-- A write through a VF's window of the route of a DMA slot that holds a channel (R482). -/
theorem execFnIrqDmaCfgWrite_of_channel {f k c : Nat} {w : Word} (hs : Serves s) (hw : w &&& 0x01FE0000 = 0) (hf : 1 ≤ f) (hon : fnOn s f = true)
    (hk : k < 8) (hc : slotChannel s f k = some c) : execFnIrqDmaCfgWrite f k w s = .next (fnRouteWrite f c w (wake s)) := by
  rw [execFnIrqDmaCfgWrite, if_neg (by omega : f ≠ 0)]
  exact fnWrite_answers hs hw hon (by rw [if_pos hk, slotChannel_wake, hc])

/-- The same for a slot that holds none. -/
theorem execFnIrqDmaCfgWrite_of_noChannel {f k : Nat} {w : Word} (hs : Serves s) (hw : w &&& 0x01FE0000 = 0) (hf : 1 ≤ f) (hon : fnOn s f = true)
    (hk : 8 ≤ k ∨ slotChannel s f k = none) : execFnIrqDmaCfgWrite f k w s = .next (wake s) := by
  have hnone : (if k < 8 then slotChannel (wake s) f k else none) = none := by
    rw [slotChannel_wake]
    obtain hk | hk := hk
    · exact if_neg (by omega)
    · rw [hk, ite_self]
  rw [execFnIrqDmaCfgWrite, if_neg (by omega : f ≠ 0)]
  exact fnWrite_answers hs hw hon (by rw [hnone])

end

/-- Settles O34: a completion by what is in service and still stands, a forced pending by the kind of its source, a route by who may set it. -/
theorem interruptsComplete : Obligations.InterruptsComplete := by
  unfold Obligations.InterruptsComplete
  simp only [exec_irqComplete, exec_fnIrqComplete, exec_irqPendSet, exec_irqSrcCfgWrite, exec_fnIrqPendSet, exec_fnIrqSrcCfgWrite,
    exec_fnIrqDmaCfgWrite]
  refine ⟨?done, ?standing, ?other, ?fnDone, ?fnStanding, ?fnOther, ?forceReserved, ?forcePulse, ?forceLevel, ?route, ?routeReserved, ?routeBad,
    ?fnForce, ?fnForceBad, ?fnRoute, ?fnRouteBad, ?dmaRoute, ?dmaNone⟩
  case done =>
    intro t w s hs hw ht hin hc
    rw [execIrqComplete_of_serves hs hw ht, completeAt_of_done (by rwa [wake_irq]) (by rwa [wake_irq]), wake_irq]
  case standing =>
    intro t w s hs hw ht hin hc
    rw [execIrqComplete_of_serves hs hw ht, completeAt_of_standing (by rwa [wake_irq]) (by rwa [wake_irq]), wake_irq]
  case other =>
    intro t w s hs hw ht hin
    rw [execIrqComplete_of_serves hs hw ht, completeAt_of_other (by rwa [wake_irq]), wake_irq]
  case fnDone =>
    intro f v w s hs hw hon hf hv hin hc
    rw [execFnIrqComplete_of_serves hs hw hon hf hv, completeAt_of_done (by rwa [wake_irq]) (by rwa [wake_irq]), wake_irq]
  case fnStanding =>
    intro f v w s hs hw hon hf hv hin hc
    rw [execFnIrqComplete_of_serves hs hw hon hf hv, completeAt_of_standing (by rwa [wake_irq]) (by rwa [wake_irq]), wake_irq]
  case fnOther =>
    intro f v w s hs hw hon hf hv hin
    rw [execFnIrqComplete_of_serves hs hw hon hf hv, completeAt_of_other (by rwa [wake_irq]), wake_irq]
  case forceReserved =>
    intro w s hs hw hk
    exact blockWrite_answers hs hw (by rw [if_pos hk, wake_irq])
  case forcePulse =>
    intro w s hs hw hk
    exact blockWrite_answers hs hw (by rw [if_neg (by rw [hk]; decide), forcePend_of_pulse hk])
  case forceLevel =>
    intro w s hs hw hk
    exact blockWrite_answers hs hw (by rw [if_neg (by rw [hk]; decide), forcePend_of_level hk, wake_irq])
  case route =>
    intro i w s hs hw hk hok
    refine blockWrite_answers hs hw ?_
    rw [if_neg hk, routeOk_wake, hok, if_neg (by decide), setRoute, routeOfWord, wake_irq]
  case routeReserved =>
    intro i w s hs hw hk
    exact blockWrite_answers hs hw (by rw [if_pos hk, wake_irq])
  case routeBad =>
    intro i w s hs hw hk hok
    exact blockWrite_answers hs hw (by rw [if_neg hk, routeOk_wake, hok, if_pos (by decide), wake_irq])
  case fnForce =>
    intro f w s hs hw hon _ hle hk
    exact fnWrite_answers hs hw hon (by rw [if_neg (by omega), forcePend_of_pulse hk])
  case fnForceBad =>
    intro f w s hs hw hon hlt
    exact fnWrite_answers hs hw hon (by rw [if_pos hlt, evqRefuse])
  case fnRoute =>
    intro f k w s hs hw hf hon hk hown
    rw [execFnIrqSrcCfgWrite_of_vf hs hw hf hon hk, fnRouteWrite_of_own hf (by rwa [routeOf_wake]), setRoute, routeOfWord, wake_irq]
  case fnRouteBad =>
    intro f k w s hs hw hf hon hk hown
    rw [execFnIrqSrcCfgWrite_of_vf hs hw hf hon hk, fnRouteWrite_of_foreign hf (by rwa [routeOf_wake]), evqRefuse]
  case dmaRoute =>
    intro f k c w s hs hw hf hon hk hc hown
    rw [execFnIrqDmaCfgWrite_of_channel hs hw hf hon hk hc, fnRouteWrite_of_own hf (by rwa [routeOf_wake]), setRoute, routeOfWord, wake_irq]
  case dmaNone =>
    intro f k w s hs hw hf hon hk
    exact execFnIrqDmaCfgWrite_of_noChannel hs hw hf hon hk

/-! Event queues (R475 to R480). -/

section
variable {s : State} {f : Nat}

/-- The level source of an event queue of which the window has just been changed. -/
theorem evqLevel_setFn (g : Fn → Fn) : evqLevel f (setFn s f g) =
    setLevel (fnSource f 8) (decide ((g (fnOf s f)).ev.tail ≠ (g (fnOf s f)).ev.head)) (setFn s f g) := by
  rw [evqLevel, fnOf_setFn]

/-- The same, where a record has left the device since. -/
theorem evqLevel_emit_setFn (o : Out) (g : Fn → Fn) : evqLevel f (emit o (setFn s f g)) =
    setLevel (fnSource f 8) (decide ((g (fnOf s f)).ev.tail ≠ (g (fnOf s f)).ev.head)) (emit o (setFn s f g)) := by
  rw [evqLevel, show fnOf (emit o (setFn s f g)) f = fnOf (setFn s f g) f from rfl, fnOf_setFn]

theorem evqEnable_of_size (he : (fnOf s f).ev.en = false ∨ (fnOf s f).ev.fault = true)
    (hlo : 4 ≤ fld (fnOf s f).ev.cfg 4 0) (hhi : fld (fnOf s f).ev.cfg 4 0 ≤ 16) : evqEnable f true s =
    setLevel (fnSource f 8) false (setFn s f (fun x => { x with ev := { x.ev with en := true, fault := false, head := 0, tail := 0 } })) := by
  have hoff : ¬ ((fnOf s f).ev.en = true ∧ (fnOf s f).ev.fault = false) := by
    obtain h | h := he <;> simp [h]
  simp only [evqEnable, if_true]
  rw [if_neg hoff, if_pos ⟨hlo, hhi⟩, evqLevel_setFn]
  rfl

theorem evqEnable_of_badSize (he : (fnOf s f).ev.en = false ∨ (fnOf s f).ev.fault = true)
    (hsize : fld (fnOf s f).ev.cfg 4 0 < 4 ∨ 16 < fld (fnOf s f).ev.cfg 4 0) : evqEnable f true s = evqRefuse f 0x0404 s := by
  have hoff : ¬ ((fnOf s f).ev.en = true ∧ (fnOf s f).ev.fault = false) := by
    obtain h | h := he <;> simp [h]
  simp only [evqEnable, if_true]
  rw [if_neg hoff, if_neg (by omega)]

end

/-- Settles O35: ENABLE by what stands and the ring's size, a doorbell by where it points, a post by what waits. -/
theorem eventQueuesCarryRecords : Obligations.EventQueuesCarryRecords := by
  unfold Obligations.EventQueuesCarryRecords
  simp only [exec_evqCtrlWrite, exec_evqHeadDb, exec_eventRecordPost]
  refine ⟨?enable, ?badSize, ?disable, ?head, ?headBad, ?post, ?postFails, ?overflow, ?quiet⟩
  case enable =>
    intro f v s hs hv hon hb he hlo hhi
    refine fnWrite_answers hs hv hon ?_
    rw [hb, evqEnable_of_size] <;> simpa only [fnOf_wake]
  case badSize =>
    intro f v s hs hv hon hb he hsize
    refine fnWrite_answers hs hv hon ?_
    rw [hb, evqEnable_of_badSize, evqRefuse] <;> simpa only [fnOf_wake]
  case disable =>
    intro f v s hs hv hon hb he
    refine fnWrite_answers hs hv hon ?_
    simp only [evqEnable, hb, fnOf_wake, he, Bool.false_eq_true, if_false, if_true]
  case head =>
    intro f v s hs hon hin
    refine fnWrite_answers hs (BitVec.and_zero) hon ?_
    simp only [fnOf_wake]
    rw [if_pos hin, evqLevel_setFn, fnOf_wake]
  case headBad =>
    intro f v s hs hon hout
    refine fnWrite_answers hs (BitVec.and_zero) hon ?_
    simp only [fnOf_wake]
    rw [if_neg (by omega), evqRefuse]
  case post =>
    intro f r l s hr hsafe hroom hfront
    rw [execEventRecordPost, live_of_runs _ hr]
    simp only [hsafe, hroom, hfront, Bool.not_true, Bool.or_self, Bool.false_eq_true, if_false]
    rw [evqLevel_emit_setFn]
    rfl
  case postFails =>
    intro f r l s hr hsafe hroom hfront
    rw [execEventRecordPost, live_of_runs _ hr]
    simp only [hsafe, hroom, Bool.not_true, Bool.not_false, Bool.or_self, Bool.false_eq_true, if_false, if_true]
    split
    · rename_i hnil _
      exact absurd (hnil.symm.trans hfront) (List.cons_ne_nil r l).symm
    · rfl
  case overflow =>
    intro f s hr hsafe hroom hfront hdrop
    rw [execEventRecordPost, live_of_runs _ hr]
    simp only [hsafe, hroom, hfront, hdrop, Bool.not_true, Bool.or_self, Bool.false_eq_true, if_false]
    rw [evqLevel_emit_setFn]
    rfl
  case quiet =>
    intro f b s hr h
    rw [execEventRecordPost, live_of_runs _ hr]
    dsimp only
    rw [if_pos]
    obtain h | h := h <;> simp [h]

end Sys2Proof.Machine
end

section
/-! The network: the NET registers, the ports and their clocks, what leaves and what arrives, the receivers, and the statements on them (R404 to
R429, R587). -/

namespace Sys2Proof.Machine
open Sys2Proof

theorem exec_netCtrlWrite (v : Word) (s : State) : exec (.netCtrlWrite v) s = execNetCtrlWrite v s := rfl
theorem exec_netPortCfgWrite (p : Nat) (v : Word) (s : State) : exec (.netPortCfgWrite p v) s = execNetPortCfgWrite p v s := rfl
theorem exec_netPtpLatch (v : Word) (s : State) : exec (.netPtpLatch v) s = execNetPtpLatch v s := rfl
theorem exec_ppsInEdge (p : Nat) (s : State) : exec (.ppsInEdge p) s = execPpsInEdge p s := rfl
theorem exec_ppsOutSecond (p : Nat) (s : State) : exec (.ppsOutSecond p) s = execPpsOutSecond p s := rfl
theorem exec_shaperRefill (s : State) : exec .shaperRefill s = execShaperRefill s := rfl
theorem exec_policerRefill (s : State) : exec .policerRefill s = execPolicerRefill s := rfl
theorem exec_portTxSelect (p : Nat) (s : State) : exec (.portTxSelect p) s = execPortTxSelect p s := rfl
theorem exec_senderReportTimer (s : State) : exec .senderReportTimer s = execSenderReportTimer s := rfl
theorem exec_rxqRaiseHoldoff (f q : Nat) (s : State) : exec (.rxqRaiseHoldoff f q) s = execRxqRaiseHoldoff f q s := rfl
theorem exec_linkStateChange (p : Nat) (u : Bool) (s : State) : exec (.linkStateChange p u) s = execLinkStateChange p u s := rfl
theorem exec_rxFrame (f : RxFrame) (s : State) : exec (.rxFrame f) s = execRxFrame f s := rfl
theorem exec_attachReceiver (h : Hdr) (o : AttachOps) (s : State) : exec (.attachReceiver h o) s = execAttachReceiver h o s := rfl
theorem exec_attachIngress (h : Hdr) (o : IngressOps) (s : State) : exec (.attachIngress h o) s = execAttachIngress h o s := rfl
theorem exec_bindRxQueue (h : Hdr) (o : RxqOps) (s : State) : exec (.bindRxQueue h o) s = execBindRxQueue h o s := rfl
theorem exec_unbindRxQueue (h : Hdr) (q p : Nat) (s : State) : exec (.unbindRxQueue h q p) s = execUnbindRxQueue h q p s := rfl
theorem exec_detachReceiver (h : Hdr) (i p : Nat) (s : State) : exec (.detachReceiver h i p) s = execDetachReceiver h i p s := rfl
theorem exec_detachComplete (i : Nat) (s : State) : exec (.detachComplete i) s = execDetachComplete i s := rfl

/-! Ports, and what waking leaves of them. -/

@[simp] theorem portOf_setPort_self (s : State) (p : Nat) (g : NetPort → NetPort) : portOf (setPort s p g) p = g (portOf s p) :=
  lookD_put_self ..
theorem portOf_setPort_ne (s : State) {p q : Nat} (g : NetPort → NetPort) (h : q ≠ p) : portOf (setPort s p g) q = portOf s q :=
  lookD_put_ne _ _ _ h
@[simp] theorem portOf_wake (s : State) (p : Nat) : portOf (wake s) p = portOf s p := by simp only [portOf, wake_net]
@[simp] theorem portMode_wake (s : State) (p : Nat) : portMode (wake s) p = portMode s p := by simp only [portMode, portOf_wake]
@[simp] theorem portUsed_wake (s : State) (p : Nat) : portUsed (wake s) p = portUsed s p := by simp only [portUsed, wake_net]
@[simp] theorem overhead_wake (s : State) (p : Nat) : overhead (wake s) p = overhead s p := by simp only [overhead, portOf_wake]

theorem netRefuse_wake (c : Code) (s : State) : netRefuse c (wake s) = { wake s with net := { s.net with reason := c } } := by
  rw [netRefuse, wake_net]

/-! The port clocks (R429, R587). -/

/-- A port whose latch registers have taken a clock reading of t ns: 48 bits of seconds and 30 of nanoseconds. -/
def latched (t : Nat) (x : NetPort) : NetPort :=
  { x with secLo := BitVec.ofNat 32 (t / 10 ^ 9), secHi := fldW 0 16 (t / 10 ^ 9 / 2 ^ 32), ns := fldW 0 30 (t % 10 ^ 9) }

theorem latchClocks_eq (s : State) : latchClocks s =
    { setPort (setPort s 0 (latched (Config.ptpClock 0 s.freeCtr))) 1 (latched (Config.ptpClock 1 (s.freeCtr + 1))) with
      freeCtr := s.freeCtr + 2 } := rfl

theorem portOf_latchClocks (s : State) {p : Nat} (hp : p < 2) :
    portOf (latchClocks s) p = latched (Config.ptpClock p (s.freeCtr + p)) (portOf s p) := by
  rw [latchClocks_eq]
  obtain rfl | rfl : p = 0 ∨ p = 1 := by omega
  · exact (portOf_setPort_ne _ _ Nat.zero_ne_one).trans (portOf_setPort_self ..)
  · exact (portOf_setPort_self ..).trans (congrArg _ (portOf_setPort_ne _ _ Nat.one_ne_zero))

theorem latchClocks_frame (s : State) :
    latchClocks s = { s with net := { s.net with ports := (latchClocks s).net.ports }, freeCtr := s.freeCtr + 2 } := rfl

/-! The NET registers (R405, R429). -/

section
variable {s : State} {v : Word} {p : Nat}

/-- The ports that a mode puts to use. -/
def portsOn (s : State) : List Nat := [0, 1].filter (fun p => decide (portMode s p ≠ 0))

/-- Has a port in use no address of its own? -/
def portUnnamed (s : State) : Bool := (portsOn s).any (fun p => decide ((portOf s p).macLo = 0) && decide ((portOf s p).macHi = 0))

theorem execNetCtrlWrite_of_serves (hs : Serves s) (hv : v &&& 0xFFFF00FC = 0) : execNetCtrlWrite v s = .next
    (if bit v 0 && !bit s.net.ctrl 0 && ((portsOn s).isEmpty || portUnnamed s) then { wake s with net := { s.net with reason := 0x070D } }
    else if !bit v 0 && bit s.net.ctrl 0 && !s.net.flows.isEmpty then { wake s with net := { s.net with reason := 0x070C } }
    else { wake s with net := { s.net with ctrl := v } }) := by
  refine blockWrite_answers hs hv ?_
  simp only [portMode_wake, portOf_wake, netRefuse_wake, wake_net]
  rfl

theorem portCfg_of_used (hm : fld v 1 0 ≠ 3) (hne : fld v 1 0 ≠ fld (portOf s p).cfg 1 0) (hu : portUsed s p = true) :
    portCfg p v s = netRefuse 0x0709 s := by
  simp only [portCfg, hm, if_false]
  exact if_pos ⟨hne, hu⟩

theorem portCfg_of_sameMode (hm : fld v 1 0 ≠ 3) (ht : fld v 23 22 ≠ 3) (heq : fld v 1 0 = fld (portOf s p).cfg 1 0) :
    portCfg p v s = setPort s p (fun x => { x with
      cfg := merge v 3 (fldW 0 2 (fld v 1 0))
      v := if fld (portOf s p).cfg 1 0 = 0 ∧ fld v 1 0 ≠ 0 then [] else x.v }) := by
  simp only [portCfg, hm, ht, if_false]
  rw [if_neg (fun h => h.1 heq)]
  simp only [if_pos heq]

end

/-- Settles O28: NET_CTRL by its checks, NET_PORT_CFG by what uses the port, the latch registers by the clocks' readings. -/
theorem netRegistersAndClocks : Obligations.NetRegistersAndClocks := by
  unfold Obligations.NetRegistersAndClocks
  simp only [exec_netCtrlWrite, exec_netPortCfgWrite, Completes, exec_netPtpLatch, exec_ppsInEdge, exec_ppsOutSecond]
  refine ⟨?enable, ?enableBad, ?disableBad, ?keep, ?modeBad, ?cfg, ?latch, ?latchNone, ?pps, ?ppsOut, ?ppsOther⟩
  case enable =>
    intro v s hs hv hon hoff hports hmac
    rw [execNetCtrlWrite_of_serves hs hv, if_neg, if_neg]
    · simp [hon]
    · rw [show portUnnamed s = false from hmac, show (portsOn s).isEmpty = false from hports]
      simp
  case enableBad =>
    intro v s hs hv hon hoff hbad
    rw [execNetCtrlWrite_of_serves hs hv, if_pos]
    rw [hon, hoff]
    exact (Bool.or_eq_true ..).mpr hbad
  case disableBad =>
    intro v s hs hv hoff hon hflows
    rw [execNetCtrlWrite_of_serves hs hv, if_neg (by simp [hoff]), if_pos (by simp [hoff, hon, hflows])]
  case keep =>
    intro v s hs hv hkeep
    rw [execNetCtrlWrite_of_serves hs hv, if_neg, if_neg]
    · obtain h | ⟨hoff, hflows⟩ := hkeep
      · simp [h]
      · simp [hflows]
    · obtain h | ⟨hoff, hflows⟩ := hkeep
      · simp [h]
      · simp [hoff]
  case modeBad =>
    intro p v s hs hv hp hm hne hu
    refine blockWrite_answers hs hv ?_
    rw [if_pos hp, portCfg_of_used hm (by rwa [portOf_wake]) (by rwa [portUsed_wake]), netRefuse_wake]
  case cfg =>
    intro p v s hs hv hp hm ht heq
    refine blockWrite_answers hs hv ?_
    rw [if_pos hp, portCfg_of_sameMode hm ht (by rwa [portOf_wake]), setPort]
    simp only [portOf_wake, wake_net]
  case latch =>
    intro v s hs hv hb
    refine ⟨latchClocks (wake s), blockWrite_answers hs hv (if_pos hb), fun p hp => ?_, ?_⟩
    · rw [portOf_latchClocks _ hp, portOf_wake, wake_freeCtr, latched]
    · conv_lhs => rw [latchClocks_frame]
      simp only [wake_net, wake_freeCtr]
  case latchNone =>
    intro v s hs hv hb
    exact blockWrite_answers hs hv (by rw [hb, if_neg Bool.false_ne_true])
  case pps =>
    intro q s hr hq
    refine ⟨latchClocks s, ?_, fun p hp => portOf_latchClocks s hp, latchClocks_frame s⟩
    rw [execPpsInEdge, live_of_runs _ hr, if_pos hq]
  case ppsOut =>
    intro p s hr hp
    rw [execPpsOutSecond, live_of_runs _ hr, if_pos hp, emit]
  case ppsOther =>
    intro p s hr hp
    rw [execPpsOutSecond, live_of_runs _ hr, if_neg hp]

/-! Shaping, policing, the scheduler and the reports (R415 to R425). -/

theorem mem_of_look {α : Type} {m : NMap α} {k : Nat} {a : α} (h : look m k = some a) : (k, a) ∈ m := by
  induction m with
  | nil => simp [look] at h
  | cons e t ih =>
    obtain ⟨i, b⟩ := e
    by_cases hk : i = k
    · simp only [look, hk, if_true, Option.some.injEq] at h
      simp [hk, h]
    · exact List.mem_cons_of_mem _ (ih (by simpa only [look, hk, if_false] using h))

/-- A flow without packets has no head to tag. -/
theorem tagHead_of_empty {s : State} (h : ∀ e ∈ s.net.flows, e.2.pkts = []) (i : Nat) : tagHead i s = s := by
  cases hl : look s.net.flows i with
  | none => simp [tagHead, hl]
  | some f =>
    have hf : f.pkts = [] := h _ (mem_of_look hl)
    simp [tagHead, hl, hf]

theorem foldl_tagHead_of_empty {s : State} (h : ∀ e ∈ s.net.flows, e.2.pkts = []) (l : List (Nat × Flow)) :
    l.foldl (fun s e => tagHead e.1 s) s = s := by
  induction l with
  | nil => rfl
  | cons e t ih => rw [List.foldl_cons, tagHead_of_empty h, ih]

/-- A flow after 8 µs of its pacer (R416, R417). -/
def refilled (f : Flow) : Flow :=
  { f with rate := f.rateNext.getD f.rate, rateNext := none
           credit := min (f.credit + f.rateNext.getD f.rate * 1024 / 1000000) (f.burst * 1024 * 1024) }

/-- A sender report of a flow whose session mirrors nothing (R415). -/
theorem reportFlow_of_quiet {s : State} {i h : Nat} {f : Flow} {x : Session} (hf : look s.net.flows i = some f) (hh : f.session = some h)
    (hx : look s.sessions h = some x) (hlive : x.tan.live = false) :
    reportFlow i s = pushCtl f.port (.report i f.srtcp) (setFlow s i (fun f => { f with srtcp := f.srtcp + 1 })) := by
  simp [reportFlow, hf, hh, hx, hlive]

/-- Settles O27: a refill by the map of the flows, the scheduler by what stands at the port, a receive queue's holdoff by what it owes. -/
theorem packetsLeave : Obligations.PacketsLeave := by
  unfold Obligations.PacketsLeave
  simp only [exec_shaperRefill, exec_policerRefill, exec_portTxSelect, exec_senderReportTimer, exec_rxqRaiseHoldoff]
  refine ⟨?shaper, ?policer, ?ctl, ?packet, ?portQuiet, ?report, ?reportOff, ?holdEnds, ?holdRaises⟩
  case shaper =>
    intro s hr hempty
    rw [execShaperRefill, live_of_runs _ hr]
    refine congrArg _ (foldl_tagHead_of_empty (fun e he => ?_) _)
    obtain ⟨e', he', rfl⟩ := List.mem_map.mp he
    split
    · exact hempty e' he'
    · exact hempty e' he'
  case policer =>
    intro s hr
    rw [execPolicerRefill, live_of_runs _ hr]
  case ctl =>
    intro p c l s hr hp hlink hpwr hctl
    simp only [execPortTxSelect, live_of_runs _ hr, hctl]
    rw [if_neg (by omega)]
  case packet =>
    intro p i f t s hr hp hlink hpwr hctl hnext
    simp only [execPortTxSelect, live_of_runs _ hr, hctl, hnext]
    rw [if_neg (by omega)]
  case portQuiet =>
    intro p s hr h
    rw [execPortTxSelect, live_of_runs _ hr, if_pos h]
  case report =>
    intro i h f x s hr hon hflows hkind hdet hsess hsent hx hlive
    have hlook : look s.net.flows i = some f := by simp [hflows, look]
    have hdue : f.kind = 0 ∧ f.detach.isNone = true ∧ decide (h ∈ [h]) = true := ⟨hkind, by rw [hdet]; rfl, by simp⟩
    simp only [execSenderReportTimer, live_of_runs _ hr, hflows, List.filter_cons, hsent, if_true, List.filter_nil, List.filterMap_cons, hsess,
      List.filterMap_nil, List.foldl_cons, List.foldl_nil]
    rw [if_neg hon, if_pos hdue, reportFlow_of_quiet hlook hsess hx hlive]
    simp only [pushCtl, setPort, setFlow, hflows, alter, if_true, List.map_cons, List.map_nil, hsess]
    rfl
  case reportOff =>
    intro s hr hoff
    rw [execSenderReportTimer, live_of_runs _ hr, if_pos hoff]
  case holdEnds =>
    intro n q r s hr hq hl hheld hmore
    simp only [execRxqRaiseHoldoff, live_of_runs _ hr, hl, hheld, hmore]
    rw [if_neg (by simp; omega), if_neg Bool.false_ne_true]
  case holdRaises =>
    intro n q r s hr hq hl hheld hmore
    simp only [execRxqRaiseHoldoff, live_of_runs _ hr, hl, hheld, hmore]
    rw [if_neg (by simp; omega), if_pos trivial]

/-! Received frames (R404, R422 to R428). -/

@[simp] theorem findFlow_wake (s : State) (p v l : Nat) (ip : BitVec 128) (r : Nat) : findFlow (wake s) p v l ip r = findFlow s p v l ip r := by
  simp only [findFlow, wake_net]

section
variable {s : State} {f : RxFrame}

/-- A frame that the port takes and that is sound: it is classified, awake where it wakes (R422, R525). -/
theorem execRxFrame_of_good (hr : Runs s) (hp : f.port < 2) (hlink : (portOf s f.port).link ≠ 0) (hon : bit s.net.ctrl 0 = true)
    (hfcs : f.fcsOk = true) (hlo : 64 ≤ f.len) (hhi : f.len ≤ 9022) (hpwr : s.pwr.state ≠ 4) :
    execRxFrame f s = .next (classify f (if rxWakes f s then wake s else s)) := by
  rw [execRxFrame, live_of_runs _ hr, if_neg (by simp [hlink, hon]; omega), if_neg (by simp [hfcs]; omega), if_neg hpwr]

theorem rxWakes_of_flow {vid lp rp ix : Nat} {ip : BitVec 128} {a : Bool} {b : RxBody} {e : Nat × Flow} (hk : f.kind = .udp vid lp ip rp a ix b)
    (hf : findFlow s f.port vid lp ip rp = some e) : rxWakes f s = true := by
  simp [rxWakes, hk, hf]

theorem classify_of_noCredit {i vid lp rp ix : Nat} {ip : BitVec 128} {a : Bool} {b : RxBody} {g : Flow} (hk : f.kind = .udp vid lp ip rp a ix b)
    (hf : findFlow s f.port vid lp ip rp = some (i, g)) (hpol : g.polCredit < (f.len + overhead s f.port) * 1000000) :
    classify f s = dropRx 0x34 i (netCount 0x28 1 s) := by
  have hf' : findFlow (netCount 0x28 1 s) f.port vid lp ip rp = some (i, g) := hf
  simp only [classify, hk, hf']
  exact if_pos hpol

end

/-- Settles O26: a frame by what the port, its length, the power state and its kind make of it. -/
theorem framesArrive : Obligations.FramesArrive := by
  unfold Obligations.FramesArrive
  simp only [exec_linkStateChange, exec_rxFrame]
  refine ⟨?link, ?closed, ?broken, ?waits, ?arp, ?control, ?noCredit, fun f s hr hp hl hon hfcs hlo hhi hpwr =>
    execRxFrame_of_good hr hp hl hon hfcs hlo hhi hpwr⟩
  case link =>
    intro p u s hr hp
    rw [execLinkStateChange, live_of_runs _ hr, if_pos hp, setPort]
  case closed =>
    intro f s hr h
    rw [execRxFrame, live_of_runs _ hr, if_pos h]
  case broken =>
    intro f s hr hp hlink hon hbad
    rw [execRxFrame, live_of_runs _ hr, if_neg (by simp [hlink, hon]; omega), if_pos (by simpa [or_assoc] using hbad), netCount]
  case waits =>
    intro f s hr hp hlink hon hfcs hlo hhi hpwr hsleep hroom
    rw [execRxFrame, live_of_runs _ hr, if_neg (by simp [hlink, hon]; omega), if_neg (by simp [hfcs]; omega), if_pos hpwr, hsleep,
      if_neg Bool.false_ne_true]
    exact congrArg _ (if_pos hroom)
  case arp =>
    intro f s hr hp hlink hon hfcs hlo hhi hpwr hk
    rw [execRxFrame_of_good hr hp hlink hon hfcs hlo hhi hpwr]
    simp only [rxWakes, classify, hk]
    rfl
  case control =>
    intro f s hr hp hlink hon hfcs hlo hhi hpwr hk
    rw [execRxFrame_of_good hr hp hlink hon hfcs hlo hhi hpwr]
    simp only [rxWakes, classify, hk]
    rfl
  case noCredit =>
    intro f i vid lp rp ix ip a b g s hr hp hlink hon hfcs hlo hhi hpwr hk hf hg hpol
    rw [execRxFrame_of_good hr hp hlink hon hfcs hlo hhi hpwr, rxWakes_of_flow hk hf, if_pos rfl,
      classify_of_noCredit hk (by rwa [findFlow_wake]) (by rwa [overhead_wake]), dropRx, setFlow, netCount, netCount]
    simp only [wake_net]

/-! Receivers and receive queues (R405 to R408, R425). -/

section
variable {s : State} {h : Hdr} {n i : Nat} {x : Session} {o : AttachOps}

/-- The flow that joins a session: it is paced at once (R418). -/
def pacedFlow (fn : Nat) (o : AttachOps) (n : Nat) (x : Session) (s : State) : Flow :=
  { newFlow fn o n x.frameNum with rate := paceRate s x.rate.rate (newFlow fn o n x.frameNum) }

theorem joinFlow_of_look {fn : Nat} (hx : look s.sessions n = some x) : joinFlow i n fn o s =
    setSess { s with net := { s.net with flows := put s.net.flows i (pacedFlow fn o n x s) } } n
      (fun x => { x with flows := x.flows ++ [i] }) := by
  simp only [joinFlow, hx]
  rfl

theorem attachAt_of_look (hx : look s.sessions n = some x) : attachAt i n h o s =
    complete h 0x0A 0 [BitVec.ofNat 32 i, x.rtp.ssrc, BitVec.ofNat 32 (x.flows ++ [i]).length] (joinFlow i n h.fn o s) := by
  have hy : look (joinFlow i n h.fn o s).sessions n = some { x with flows := x.flows ++ [i] } := by
    rw [joinFlow_of_look hx, look_setSess]
    exact congrArg (Option.map _) hx
  simp only [attachAt, hy]

theorem execAttachReceiver_of_code {c : Code} (ht : Takes s h) (htok : tokenSession s h.fn h.token = some (n, x)) (hrole : x.tan.role ≠ 2)
    (hc : attachCode s h.fn x o = some c) : execAttachReceiver h o s = .next (refuse h 0x0A c s) := by
  rw [execAttachReceiver, sessionCmd_of_takes _ _ _ ht, onPrimary_of_primary _ _ htok hrole, hc]

/-- A receiver of a session that is not mirrored is attached at once (R407, R437). -/
theorem execAttachReceiver_of_unpaired (ht : Takes s h) (htok : tokenSession s h.fn h.token = some (n, x)) (hrole : x.tan.role = 0)
    (hc : attachCode s h.fn x o = none) (hi : freeFlow s = some i) : execAttachReceiver h o s = .next (attachAt i n h o s) := by
  rw [execAttachReceiver, sessionCmd_of_takes _ _ _ ht, onPrimary_of_unpaired _ _ htok hrole, hc, hi]
  dsimp only
  rw [forwardOr_of_unpaired _ _ _ _ hrole]

/-- The flow that a KIND 1 attach makes (R406). -/
def ingressFlow (fn : Nat) (o : IngressOps) : Flow :=
  { kind := 1, fn := fn, session := none, port := o.port, ipv6 := o.flags.testBit 0, vlanEn := o.flags.testBit 1, rateSrc := false,
    resSrc := false, adapt := false, srtp := o.flags.testBit 5, cls := 0, rxq := o.rxq, rxqEn := o.rxqEn, vlan := o.vlan,
    localPort := o.localPort, remoteIp := o.remoteIp, remotePort := o.remotePort, nextHop := 0, keySlot := o.keySlot, suite := o.suite,
    pt := 0, mtu := 0, weight := 0, deadline := 0, paceMax := 0, paceMin := 0, burst := 0, pct := 0, polRate := o.policeRate,
    polBurst := o.policeBurst, rate := 0, rateNext := none, credit := 0, polCredit := 0, start := none, fin := 0, pkts := [], joined := 0,
    hist := [], srtcp := 0, sent := false, eRate := none, top := 0, seen := [], tx := 0, drops := 0, detach := none, flushed := false }

theorem execAttachIngress_of_free {o : IngressOps} (hh : Hears s h) (hc : ingressCode s h.fn h.token o = none) (hi : freeFlow s = some i) :
    execAttachIngress h o s = .next (complete h 0x0A 0 [BitVec.ofNat 32 i]
      { s with net := { s.net with flows := put s.net.flows i (ingressFlow h.fn o) } }) := by
  rw [execAttachIngress, plainCmd_of_hears _ hh, hc, hi]
  rfl

/-- A detach that passes its checks flushes its flow at once, unless the flow is an EGRESS flow of a mirrored session (R408, R437). -/
theorem execDetachReceiver_of_alone {f : Flow} (hh : Hears s h) (hon : bit s.net.ctrl 0 = true) (htok : h.token = 0)
    (hf : look s.net.flows i = some f) (hfn : f.fn = h.fn ∨ h.fn = 0) (hdet : f.detach = none)
    (halone : f.kind ≠ 0 ∨ ∀ n, f.session = some n → ∀ x, look s.sessions n = some x → x.tan.role = 0) :
    execDetachReceiver h i 0 s = .next (startDetach i (some h) s) := by
  have hopen : ¬ ((f.fn ≠ h.fn ∧ h.fn ≠ 0) ∨ f.detach.isSome = true) := by
    rw [hdet]
    obtain h | h := hfn <;> simp [h]
  rw [execDetachReceiver, plainCmd_of_hears _ hh]
  simp only [hon, htok, hf, Bool.not_true, Bool.false_eq_true, if_false, ne_eq, not_true_eq_false, or_self]
  rw [if_neg hopen]
  cases hs : f.session with
  | none => rfl
  | some n =>
    cases hx : look s.sessions n with
    | none => simp [hx]
    | some x =>
      obtain hk | hall := halone
      · simp [hx, hk]
      · have hrole := hall n hs x hx
        simp [hx, hrole, forwardOr_of_unpaired _ _ _ _ hrole]

end

/-- Settles O12: an attach by its checks and the lowest free index, a binding and its end, a detach by whom its flow serves. -/
theorem receiversAndReceiveQueues : Obligations.ReceiversAndReceiveQueues := by
  unfold Obligations.ReceiversAndReceiveQueues
  simp only [Completes, exec_attachReceiver, exec_attachIngress, exec_bindRxQueue, exec_detachReceiver, exec_unbindRxQueue, exec_detachComplete]
  refine ⟨?attach, ?attachBad, ?ingress, ?bind, ?detach, ?detachEgress, ?unbind, ?unbindOff, ?detached⟩
  case attach =>
    intro h n i x o s ht htok hrole hx hc hi
    refine ⟨_, execAttachReceiver_of_unpaired ht htok hrole hc hi, ?_⟩
    rw [attachAt_of_look hx, joinFlow_of_look hx]
    obtain ⟨fns, hcomp⟩ := complete_frame h 0x0A 0 [BitVec.ofNat 32 i, x.rtp.ssrc, BitVec.ofNat 32 (x.flows ++ [i]).length]
      (setSess { s with net := { s.net with flows := put s.net.flows i (pacedFlow h.fn o n x s) } } n (fun x => { x with flows := x.flows ++ [i] }))
    rw [hcomp]
    refine ⟨⟨_, look_put_self .., rfl, rfl, rfl, rfl, rfl, rfl, rfl, rfl, rfl, rfl⟩, fun j hj => look_put_ne _ _ hj, ?_,
      fun m hm => look_alter_ne _ _ hm⟩
    rw [setSess, look_alter_self, hx]
    rfl
  case attachBad =>
    intro h n x o c s ht htok hrole hc
    exact execAttachReceiver_of_code ht htok hrole hc
  case ingress =>
    intro h i o s hh hc hi
    refine ⟨_, execAttachIngress_of_free hh hc hi, ?_⟩
    obtain ⟨fns, hcomp⟩ := complete_frame h 0x0A 0 [BitVec.ofNat 32 i] { s with net := { s.net with flows := put s.net.flows i (ingressFlow h.fn o) } }
    rw [hcomp]
    exact ⟨⟨_, look_put_self .., rfl, rfl, rfl, rfl, rfl, rfl, rfl, rfl, rfl⟩, fun j hj => look_put_ne _ _ hj, rfl⟩
  case bind =>
    intro h o s hh hon htok hpad hq he hn ha
    rw [execBindRxQueue, plainCmd_of_hears _ hh, if_neg (by simp [hon]), if_neg (by simp [htok, hpad]), if_pos ⟨hq, he, hn, ha⟩, bindRxq]
  case detach =>
    intro h i f s hh hon htok hf hfn hdet halone
    refine execDetachReceiver_of_alone hh hon htok hf hfn hdet ?_
    obtain hnone | hk := halone
    · exact .inr (by simp [hnone])
    · exact .inl hk
  case detachEgress =>
    intro h i n f x s hh hon htok hf hfn hdet hs hx hrole
    refine execDetachReceiver_of_alone hh hon htok hf hfn hdet (.inr fun m hm y hy => ?_)
    obtain rfl : n = m := Option.some.inj (hs.symm.trans hm)
    obtain rfl : x = y := Option.some.inj (hx.symm.trans hy)
    exact hrole
  case unbind =>
    intro h q r s hh hon htok hq hl
    rw [execUnbindRxQueue, plainCmd_of_hears _ hh, if_neg (by simp [hon]), if_neg (by simp [htok]), if_neg (by simp [hl]; omega)]
  case unbindOff =>
    intro h q p s hh hoff
    rw [execUnbindRxQueue, plainCmd_of_hears _ hh, if_pos (by simp [hoff])]
  case detached =>
    intro i f h s hr hw hf hdet hfl
    simp only [execDetachComplete, live_of_runs _ hr, hf, hdet, hfl, hw, decide_true, Bool.and_self, if_true]

end Sys2Proof.Machine
end

section
/-! The Tandem pair: forwarded commands, pairing, and what is heard of the partner, and the statements on them (R430 to R437, R446 to R449, R456,
R461). -/

namespace Sys2Proof.Machine
open Sys2Proof

theorem exec_tandemCtrlWrite (v : Word) (s : State) : exec (.tandemCtrlWrite v) s = execTandemCtrlWrite v s := rfl
theorem exec_tandemRoleWrite (v : Word) (s : State) : exec (.tandemRoleWrite v) s = execTandemRoleWrite v s := rfl
theorem exec_tandemHello (n : Nat) (s : State) : exec (.tandemHello n) s = execTandemHello n s := rfl
theorem exec_tandemAuth (ok : Bool) (b : BitVec 40) (s : State) : exec (.tandemAuth ok b) s = execTandemAuth ok b s := rfl
theorem exec_authRetry (s : State) : exec .authRetry s = execAuthRetry s := rfl
theorem exec_tandemLinkTrainsAgain (s : State) : exec .tandemLinkTrainsAgain s = execTandemLinkTrainsAgain s := rfl
theorem exec_linkRetransmit (q : Word) (s : State) : exec (.linkRetransmit q) s = execLinkRetransmit q s := rfl
theorem exec_heartbeat (m : HbMsg) (s : State) : exec (.heartbeat m) s = execHeartbeat m s := rfl
theorem exec_heartbeatMissed (s : State) : exec .heartbeatMissed s = execHeartbeatMissed s := rfl
theorem exec_tandemNotice (k : NoticeKind) (s : State) : exec (.tandemNotice k) s = execTandemNotice k s := rfl
theorem exec_tandemNak (l : LinkMeta) (c : Code) (s : State) : exec (.tandemNak l c) s = execTandemNak l c s := rfl

/-! Forwarded commands (R436, R437). -/

/-- The device whose command waits for the partner, which has been sent it (R433, R437). -/
def forwarded (n k : Nat) (cmd : FwdCmd) (i : Instr) (s : State) : State :=
  { s with
    out := s.out ++ [.link (.config n cmd)]
    tandem := { s.tandem with
      waiting := s.tandem.waiting ++ [{ handle := n, cmd := i, index := k }]
      seqOut := s.tandem.seqOut + 1
      sent := s.tandem.sent ++ [(s.tandem.seqOut, 0)] } }

section
variable {s : State} {h : Hdr} {n : Nat} {x : Session}

theorem forward_of_linkUp (k : Nat) (cmd : FwdCmd) (i : Instr) (hl : linkUp s = true) : forward n k cmd i s = forwarded n k cmd i s :=
  if_pos hl

theorem linkUp_of_shadowed (hsh : shadowed s x = true) : linkUp s = true := by
  simp only [shadowed, Bool.and_eq_true] at hsh
  exact hsh.1.2

theorem forwardOr_of_shadowed (k : Nat) (cmd : FwdCmd) (i : Instr) (g : State → State) (hsh : shadowed s x = true) :
    forwardOr n x k cmd i g s = forwarded n k cmd i s := by
  rw [forwardOr, if_pos hsh, forward_of_linkUp _ _ _ (linkUp_of_shadowed hsh)]

theorem ne_shadow_of_role (hrole : x.tan.role = 1) : x.tan.role ≠ 2 := by omega

/-- A session command that is taken runs on the primary of its session (R70, R74, R437). -/
theorem sessionCmd_onPrimary_of_role {op : Nat} {f : Nat → Session → State → State} {i : Instr} (ht : Takes s h)
    (htok : tokenSession s h.fn h.token = some (n, x)) (hrole : x.tan.role = 1) :
    sessionCmd i h op s (fun s => onPrimary h op s f) = .next (f n x s) := by
  rw [sessionCmd_of_takes _ _ _ ht, onPrimary_of_primary _ _ htok (ne_shadow_of_role hrole)]

/-- The same for the commands that the PF may issue for any session (R72). -/
theorem sessionCmd_onPrimaryPf_of_role {op : Nat} {f : Nat → Session → State → State} {i : Instr} (ht : Takes s h)
    (htok : tokenSessionPf s h.fn h.token = some (n, x)) (hrole : x.tan.role = 1) :
    sessionCmd i h op s (fun s => onPrimaryPf h op s f) = .next (f n x s) := by
  rw [sessionCmd_of_takes _ _ _ ht, onPrimaryPf, htok]
  exact congrArg _ (if_neg (ne_shadow_of_role hrole))

/-- A detach that passes its checks goes through the session of its EGRESS flow (R408, R437). -/
theorem execDetachReceiver_of_egress {i : Nat} {f : Flow} (hh : Hears s h) (hon : bit s.net.ctrl 0 = true) (htok : h.token = 0)
    (hf : look s.net.flows i = some f) (hfn : f.fn = h.fn ∨ h.fn = 0) (hdet : f.detach = none) (hk : f.kind = 0) (hs : f.session = some n)
    (hx : look s.sessions n = some x) (hrole : x.tan.role ≠ 2) : execDetachReceiver h i 0 s =
    .next (forwardOr n x 0 (.detach i) (.detachReceiver h i 0) (startDetach i (some h)) s) := by
  have hopen : ¬ ((f.fn ≠ h.fn ∧ h.fn ≠ 0) ∨ f.detach.isSome = true) := by
    rw [hdet]
    obtain h | h := hfn <;> simp [h]
  rw [execDetachReceiver, plainCmd_of_hears _ hh]
  simp only [hon, htok, hf, Bool.not_true, Bool.false_eq_true, if_false, ne_eq, not_true_eq_false, or_self]
  rw [if_neg hopen]
  simp [hs, hx, hk, hrole]

end

/-- Settles O47: each command passes its checks, finds its session shadowed and is forwarded. -/
theorem pairedCommandsAreForwarded : Obligations.PairedCommandsAreForwarded := by
  unfold Obligations.PairedCommandsAreForwarded
  simp only [exec_openSession, exec_configureStream, exec_configureRate, exec_configureResilience, exec_configureHostTransport, exec_setRateBounds,
    exec_park, exec_parkCold, exec_resume, exec_close, exec_attachReceiver, exec_detachReceiver]
  refine ⟨?opens, ?stream, ?rate, ?resilience, ?host, ?bounds, ?park, ?parkCold, ?resume, ?close, ?attach, ?detach⟩
  case opens =>
    intro h o n s ht hc hn hpaired hl
    rw [execOpenSession, sessionCmd_of_takes _ _ _ ht, hc, hn]
    dsimp only
    rw [if_pos hpaired]
    exact congrArg _ (forward_of_linkUp _ _ _ hl)
  case stream =>
    intro h n x o s ht htok hrole hsh hc
    rw [execConfigureStream, sessionCmd_onPrimary_of_role ht htok hrole, hc]
    exact congrArg _ (forwardOr_of_shadowed _ _ _ _ hsh)
  case rate =>
    intro h n x o s ht htok hrole hsh hc
    rw [execConfigureRate, sessionCmd_onPrimary_of_role ht htok hrole, hc]
    exact congrArg _ (forwardOr_of_shadowed _ _ _ _ hsh)
  case resilience =>
    intro h n x o s ht htok hrole hsh hc
    rw [execConfigureResilience, sessionCmd_onPrimary_of_role ht htok hrole, if_pos hc]
    exact congrArg _ (forwardOr_of_shadowed _ _ _ _ hsh)
  case host =>
    intro h n x o s ht htok hrole hsh hc
    rw [execConfigureHostTransport, sessionCmd_onPrimary_of_role ht htok hrole, hc]
    exact congrArg _ (forwardOr_of_shadowed _ _ _ _ hsh)
  case bounds =>
    intro h n x o s ht htok hrole hsh hc
    rw [execSetRateBounds, sessionCmd_onPrimary_of_role ht htok hrole, hc]
    exact congrArg _ (forwardOr_of_shadowed _ _ _ _ hsh)
  case park =>
    intro h n x s ht htok hrole hsh hc
    rw [execPark, sessionCmd_onPrimaryPf_of_role ht htok hrole, hc]
    exact congrArg _ (forwardOr_of_shadowed _ _ _ _ hsh)
  case parkCold =>
    intro h n x s ht htok hrole hsh hc
    rw [execParkCold, sessionCmd_onPrimaryPf_of_role ht htok hrole, hc]
    exact congrArg _ (forwardOr_of_shadowed _ _ _ _ hsh)
  case resume =>
    intro h n x s ht htok hrole hsh hc
    rw [execResume, sessionCmd_onPrimaryPf_of_role ht htok hrole, hc]
    exact congrArg _ (forwardOr_of_shadowed _ _ _ _ hsh)
  case close =>
    intro h n x s ht htok hrole hsh hc
    rw [execClose, sessionCmd_onPrimaryPf_of_role ht htok hrole, hc]
    exact congrArg _ (forwardOr_of_shadowed _ _ _ _ hsh)
  case attach =>
    intro h n x i o s ht htok hrole hsh hc hi
    rw [execAttachReceiver, sessionCmd_onPrimary_of_role ht htok hrole, hc, hi]
    exact congrArg _ (forwardOr_of_shadowed _ _ _ _ hsh)
  case detach =>
    intro h i n f x s hh hon htok hf hfn hdet hk hs hx hrole hsh
    rw [execDetachReceiver_of_egress hh hon htok hf hfn hdet hk hs hx (ne_shadow_of_role hrole)]
    exact congrArg _ (forwardOr_of_shadowed _ _ _ _ hsh)

/-! Pairing (R430 to R434, R461). -/

section
variable {s : State} {st : Nat}

/-- A change of the pair state raises source 0x072 (R432, R462). -/
theorem pairState_of_change (h : s.tandem.state ≠ st) :
    pairState st s = pulse 0x072 { s with tandem := { s.tandem with state := st } } := if_neg h

@[simp] theorem ratePend_wake : ratePend (wake s) = ratePend s := by simp only [ratePend, wake_bell]
@[simp] theorem portHas_wake {p : Nat} {v : Bool} : portHas (wake s) p v = portHas s p v := by simp only [portHas, portOf_wake]
@[simp] theorem tanEnableCode_wake : tanEnableCode (wake s) = tanEnableCode s := by
  simp only [tanEnableCode, wake_tandem, wake_dev, wake_bell, ratePend_wake, portMode_wake, portHas_wake]

end

/-- Settles O29: ENABLE by its checks, the side by ENABLE, the handshake by the pair state, a flit by how often it went. -/
theorem devicesPair : Obligations.DevicesPair := by
  unfold Obligations.DevicesPair
  simp only [exec_tandemCtrlWrite, exec_tandemRoleWrite, exec_tandemHello, exec_tandemAuth, exec_authRetry, exec_linkRetransmit,
    exec_tandemLinkTrainsAgain]
  refine ⟨?enable, ?enableBad, ?disableBad, ?disable, ?keep, ?role, ?roleBad, ?hello, ?helloNot, ?auth, ?authBad, ?retry, ?retryNone, ?again,
    ?lost, ?trains⟩
  case enable =>
    intro v s hs hv hon hoff hc hst
    refine blockWrite_answers hs hv ?_
    simp only [tanEnableCode_wake, wake_tandem, wake_sessions, hon, hoff, hc, Bool.not_false, Bool.and_self, if_true]
    rw [pairState_of_change (by simp [setTan, freshLink, hst]), setTan]
    simp only [wake_tandem, wake_sessions]
  case enableBad =>
    intro v c s hs hv hon hoff hc
    refine blockWrite_answers hs hv ?_
    simp only [tanEnableCode_wake, wake_tandem, hon, hoff, hc, Bool.not_false, Bool.and_self, if_true]
    rw [tanRefuse, setTan, wake_tandem]
  case disableBad =>
    intro v s hs hv hoff hon hpaired
    refine blockWrite_answers hs hv ?_
    simp only [wake_tandem, wake_sessions, hon, hoff, hpaired, Bool.not_true, Bool.not_false, Bool.and_self, Bool.false_eq_true, if_false, if_true]
    rw [tanRefuse, setTan, wake_tandem, wake_sessions]
  case disable =>
    intro v s hs hv hoff hon halone hst
    refine blockWrite_answers hs hv ?_
    simp only [wake_tandem, wake_sessions, hon, hoff, halone, Bool.not_true, Bool.not_false, Bool.and_self, Bool.false_eq_true, if_false, if_true]
    rw [pairState_of_change (by simpa [setTan, freshLink] using hst), setTan]
    simp only [wake_tandem, wake_sessions]
  case keep =>
    intro v s hs hv heq
    refine blockWrite_answers hs hv ?_
    rw [wake_tandem, heq, if_neg (by simp), if_neg (by simp), setTan, wake_tandem]
  case role =>
    intro v s hs hv hoff
    exact blockWrite_answers hs hv (by rw [wake_tandem, hoff, if_neg Bool.false_ne_true, setTan, wake_tandem])
  case roleBad =>
    intro v s hs hv hon
    exact blockWrite_answers hs hv (by rw [wake_tandem, hon, if_pos rfl, tanRefuse, setTan, wake_tandem])
  case hello =>
    intro n s hr hst hretry hlo hhi
    rw [execTandemHello, live_of_runs _ hr, if_pos ⟨hst, hretry, hlo, hhi⟩, pairState_of_change (by simp [emit, setTan, hst])]
    rfl
  case helloNot =>
    intro n s hr hnot
    rw [execTandemHello, live_of_runs _ hr, if_neg (by rintro ⟨hst, hretry, hlo, hhi⟩; simp [hst, hretry] at hnot; omega)]
  case auth =>
    intro b s hr hst
    simp only [execTandemAuth, live_of_runs _ hr, if_neg (not_not.mpr hst), if_true]
    rw [pairState_of_change (by simp [emit, setTan, freshLink, hst])]
    rfl
  case authBad =>
    intro b s hr hst
    simp only [execTandemAuth, live_of_runs _ hr, if_neg (not_not.mpr hst), Bool.false_eq_true, if_false]
    rw [pairState_of_change (by simp [emit, setTan, hst])]
    rfl
  case retry =>
    intro b s hr hretry hst hdue
    simp only [execAuthRetry, live_of_runs _ hr, hretry]
    rw [if_pos ⟨hst, hdue⟩, pairState_of_change (by simp [emit, setTan, hst])]
    rfl
  case retryNone =>
    intro s hr hretry
    simp only [execAuthRetry, live_of_runs _ hr, hretry]
  case again =>
    intro q k s hr hfind hdead hk
    simp only [execLinkRetransmit, live_of_runs _ hr, hfind, if_neg (ne_true_of_eq_false hdead), if_pos hk]
    rfl
  case lost =>
    intro q s hr hfind hdead
    simp only [execLinkRetransmit, live_of_runs _ hr, hfind, if_neg (ne_true_of_eq_false hdead), if_neg (Nat.lt_irrefl 4)]
    rfl
  case trains =>
    intro s hr hst
    rw [execTandemLinkTrainsAgain, live_of_runs _ hr, if_pos hst, pairState_of_change (by simp [setTan, freshLink, hst])]
    rfl

/-! What is heard of the partner (R434, R446 to R449, R456). -/

section
variable {typ : Nat} {m : LinkMeta} {s : State} {f : State → State}

/-- A message that is well formed, authentic and in sequence has its effect in the pair state PAIRED, on a device that it has woken. -/
theorem tanMessage_of_good (hr : Runs s) (hdead : s.tandem.dead = false) (hst : s.tandem.state = 3) (hwf : m.wellForm = true)
    (hauth : m.authOk = true) (hseq : m.seqOk = true) : tanMessage typ m s f = .next (f (wake s)) := by
  simp [tanMessage, live_of_runs _ hr, hdead, hst, hwf, hauth, hseq]

theorem tanMessage_of_unauthentic (hr : Runs s) (hdead : s.tandem.dead = false) (hst : s.tandem.state ≠ 0) (hwf : m.wellForm = true)
    (hauth : m.authOk = false) : tanMessage typ m s f = .next (violate typ 0x0821 m.seq (wake s)) := by
  simp [tanMessage, live_of_runs _ hr, hdead, hst, hwf, hauth]

@[simp] theorem pairBell_wake : pairBell (wake s) = pairBell s := by simp only [pairBell, wake_bell, wake_tandem]

theorem execTandemNotice_of_paired {k : NoticeKind} (hr : Runs s) (hst : s.tandem.state = 3) : execTandemNotice k s = .next (setTan (wake s)
    (fun t => match k with
      | .fault => { t with takeover := some (t.takeover.getD 1) }
      | .reset => { t with takeover := some (t.takeover.getD 2) }
      | .unsound => { t with dead := true })) := by
  rw [execTandemNotice, live_of_runs _ hr, if_neg (not_not.mpr hst)]
  cases k <;> rfl

end

/-- Settles O30: a message by its checks, a missed heartbeat by the paths that it was missed on, a notice by its kind. -/
theorem partnersAreHeard : Obligations.PartnersAreHeard := by
  unfold Obligations.PartnersAreHeard
  simp only [exec_heartbeat, exec_heartbeatMissed, exec_tandemNotice, exec_tandemNak]
  refine ⟨?heard, ?unheard, ?missLink, ?missOnce, ?missTwice, fun s hr hst => execTandemNotice_of_paired hr hst,
    fun s hr hst => execTandemNotice_of_paired hr hst, fun s hr hst => execTandemNotice_of_paired hr hst, ?noticeNot, ?nak, ?nakBad⟩
  case heard =>
    intro m s hr hdead hst hwf hauth hseq hbell hskew
    rw [execHeartbeat, tanMessage_of_good hr hdead hst hwf hauth hseq, if_pos (by simp [heartbeatOk, hbell, hskew]), setTan]
  case unheard =>
    intro m s hr hdead hst hwf hauth hseq hbad
    rw [execHeartbeat, tanMessage_of_good hr hdead hst hwf hauth hseq, if_neg]
    simp only [heartbeatOk, pairBell_wake, Bool.and_eq_true, decide_eq_true_eq]
    rintro ⟨hbell, hskew⟩
    obtain h | h := hbad
    · exact h hbell
    · omega
  case missLink =>
    intro s hr hst hdue hlink hstart halt hmiss
    simp only [execHeartbeatMissed, live_of_runs _ hr, hst, hdue, hlink, hstart, halt, hmiss, setTan]
    rfl
  case missOnce =>
    intro s hr hst hdue hlink hstart halt hmiss
    simp only [execHeartbeatMissed, live_of_runs _ hr, hst, hdue, hlink, hstart, halt, hmiss, tanCount, setTan]
    rfl
  case missTwice =>
    intro s hr hst hdue hlink hstart halt hmiss
    simp only [execHeartbeatMissed, live_of_runs _ hr, hst, hdue, hlink, hstart, halt, hmiss, tanCount, setTan]
    rfl
  case noticeNot =>
    intro k s hr hst
    rw [execTandemNotice, live_of_runs _ hr, if_pos hst]
  case nak =>
    intro l c s hr hdead hst hwf hauth hseq
    rw [execTandemNak, tanMessage_of_good hr hdead hst hwf hauth hseq, tanCount, setTan]
  case nakBad =>
    intro l c s hr hdead hst hwf hauth
    rw [execTandemNak, tanMessage_of_unauthentic hr hdead hst hwf hauth]

end Sys2Proof.Machine
end

section
/-! What the pool, the queues and the records leave of the Tandem pair: how the link stands, the Tandem part of every session, and what has left the
device. A session that is freed, taken over or handed over passes through these operations (R444, R451, R458). -/

namespace Sys2Proof.Machine
open Sys2Proof

/-- The pair state, whether the link is given up, the takeover that is due, and the commands that wait for the partner (R432, R437, R447, R456). -/
def linkView (s : State) : Nat × Bool × Option Nat × Bool × List FwdWait :=
  (s.tandem.state, s.tandem.dead, s.tandem.takeover, s.tandem.takeGo, s.tandem.waiting)

/-- The part of a session that goes over with it (R451). -/
def tanFace (x : Session) : Nat × Nat × TanSess := (x.state, x.frameNum, x.tan)

/-- The Tandem part of all sessions. -/
def tanFaces (s : State) : NMap (Nat × Nat × TanSess) := s.sessions.map (fun e => (e.1, tanFace e.2))

/-- From s to t the Tandem pair stands as it stood, and what has left the device only grows. -/
structure Quiet (s t : State) : Prop where
  link : linkView t = linkView s
  faces : tanFaces t = tanFaces s
  out : s.out <+: t.out

theorem Quiet.refl (s : State) : Quiet s s := ⟨rfl, rfl, List.prefix_rfl⟩

theorem Quiet.trans {s t u : State} (h : Quiet s t) (k : Quiet t u) : Quiet s u :=
  ⟨k.link.trans h.link, k.faces.trans h.faces, h.out.trans k.out⟩

theorem Quiet.after {s t u : State} (k : Quiet t u) (h : Quiet s t) : Quiet s u := h.trans k

theorem Quiet.ite {c : Prop} [Decidable c] {s t u : State} (ht : Quiet s t) (hu : Quiet s u) : Quiet s (if c then t else u) := by
  split
  · exact ht
  · exact hu

/-- What touches neither the Tandem port nor a session nor the outputs. -/
theorem Quiet.of_same {s t : State} (htan : t.tandem = s.tandem) (hsess : t.sessions = s.sessions) (hout : t.out = s.out) : Quiet s t := by
  refine ⟨?_, ?_, hout ▸ List.prefix_rfl⟩
  · rw [linkView, htan, linkView]
  · rw [tanFaces, hsess, tanFaces]

theorem Quiet.foldl {α : Type} {f : State → α → State} {l : List α} {s t : State} (h : Quiet s t) (hf : ∀ t a, Quiet t (f t a)) :
    Quiet s (l.foldl f t) :=
  foldl_frame f (Quiet s) l t h (fun t a ht => ht.trans (hf t a))

theorem linkUp_of_quiet {s t : State} (h : Quiet s t) : linkUp t = linkUp s := by
  have hlink := h.link
  simp only [linkView, Prod.mk.injEq] at hlink
  obtain ⟨hstate, hdead, -⟩ := hlink
  rw [linkUp, hstate, hdead, linkUp]

theorem keys_of_quiet {s t : State} (h : Quiet s t) : t.sessions.map (fun e => e.1) = s.sessions.map (fun e => e.1) := by
  have hkeys := congrArg (fun m : NMap _ => m.map (fun e => e.1)) h.faces
  simpa only [tanFaces, List.map_map, Function.comp_def] using hkeys

theorem tanFace_of_quiet {s t : State} {n : Nat} (h : Quiet s t) : (look t.sessions n).map tanFace = (look s.sessions n).map tanFace := by
  have hlook := congrArg (fun m => look m n) h.faces
  simpa only [tanFaces, look_map] using hlook

theorem look_of_quiet {s t : State} {n : Nat} {x : Session} (h : Quiet s t) (hx : look s.sessions n = some x) :
    ∃ y, look t.sessions n = some y ∧ y.state = x.state ∧ y.frameNum = x.frameNum ∧ y.tan = x.tan := by
  have hface := tanFace_of_quiet h (n := n)
  rw [hx] at hface
  obtain ⟨y, hy, hyx⟩ := Option.map_eq_some_iff.mp hface
  simp only [tanFace, Prod.mk.injEq] at hyx
  exact ⟨y, hy, hyx⟩

/-! Sessions, records and watches. -/

theorem setSess_quiet (n : Nat) {g : Session → Session} (s : State) (hg : ∀ x, tanFace (g x) = tanFace x) : Quiet s (setSess s n g) :=
  ⟨rfl, map_alter_of_same tanFace _ _ _ hg, List.prefix_rfl⟩

theorem stat_quiet (h i n : Nat) (s : State) : Quiet s (stat h i n s) := by
  unfold stat
  split
  · exact .refl s
  · refine (setSess_quiet h s ?_).trans (.of_same rfl rfl rfl)
    exact fun _ => rfl

theorem emit_quiet (o : Out) (s : State) : Quiet s (emit o s) := ⟨rfl, rfl, List.prefix_append ..⟩

theorem post_quiet (f typ : Nat) (c : Code) (k : Word) (p : List Word) (s : State) : Quiet s (post f typ c k p s) := by
  obtain ⟨m, hm⟩ := post_frame (f := f) (typ := typ) (code := c) (token := k) (pay := p) (s := s)
  rw [hm]
  exact .of_same rfl rfl rfl

theorem notice_quiet (h : Nat) (c : Code) (s : State) : Quiet s (notice h c s) := by
  obtain ⟨f, b, hn⟩ := notice_frame h c s
  rw [hn]
  exact .of_same rfl rfl rfl

theorem tanCount_quiet (o k : Nat) (s : State) : Quiet s (tanCount o k s) := ⟨rfl, rfl, List.prefix_rfl⟩

theorem linkSend_quiet (m : LinkOut) (s : State) : Quiet s (linkSend m s) := by
  unfold linkSend
  split
  · exact ⟨rfl, rfl, List.prefix_append ..⟩
  · exact .refl s

theorem safeState_quiet (w : Nat) (s : State) : Quiet s (safeState w s) := by
  unfold safeState
  split
  · exact .refl s
  · dsimp only
    split
    · refine ⟨rfl, rfl, ?_⟩
      exact (List.prefix_append ..).trans (List.prefix_append ..)
    · exact .of_same rfl rfl rfl

theorem raise_quiet (w k : Nat) (c : Code) (i : Bool) {f : State → State} (s : State) (hf : ∀ t, Quiet t (f t)) :
    Quiet s (raise w k c i f s) := by
  obtain ⟨x, n, q, p, h, -⟩ := recordEvent_frame w k c i s
  have hrec : Quiet s (recordEvent w k c i s).2 := by
    rw [h]
    exact .of_same rfl rfl rfl
  unfold raise
  generalize recordEvent w k c i s = r at hrec
  obtain ⟨⟨start, sev⟩, t⟩ := r
  dsimp only at hrec ⊢
  have hnote : Quiet t (if t.dev.safe = true then t else emit (.helmNotice w k c) t) := .ite (.refl t) (emit_quiet ..)
  have hsev : Quiet s (if sev = true then
      (if pairedPin (if t.dev.safe = true then t else emit (.helmNotice w k c) t) = true then
        { (if t.dev.safe = true then t else emit (.helmNotice w k c) t) with
          dev := { (if t.dev.safe = true then t else emit (.helmNotice w k c) t).dev with errPulse := true } }
      else (if t.dev.safe = true then t else emit (.helmNotice w k c) t)) else t) :=
    .ite (hrec.trans (.ite (hnote.trans (.of_same rfl rfl rfl)) hnote)) hrec
  exact .ite ((hf _).after hsev) hsev

/-! The pool. -/

theorem misuse_quiet (w : PoolReq) (c : Code) (h : Word) (s : State) : Quiet s (misuse w c h s) := by
  unfold misuse
  dsimp only
  split
  · exact .of_same rfl rfl rfl
  · split
    · exact (stat_quiet ..).after (.of_same rfl rfl rfl)
    · split
      · exact .of_same rfl rfl rfl
      · exact (raise_quiet _ _ _ _ _ (safeState_quiet winPool)).after (.of_same rfl rfl rfl)

theorem settleBuf_quiet (h : Word) (b : Buf) (s : State) : Quiet s (settleBuf h b s) := by
  unfold settleBuf
  split <;> exact .of_same rfl rfl rfl

theorem releaseBuf_quiet (w : PoolReq) (h : Word) (k : Nat) (s : State) : Quiet s (releaseBuf w h k s).2 := by
  have hmisuse : ∀ c, Quiet s (misuse w c h s) := fun c => misuse_quiet w c h s
  unfold releaseBuf
  dsimp only
  split
  · exact hmisuse 0x0505
  · split
    · exact hmisuse 0x050A
    · split
      · split
        · exact settleBuf_quiet _ _ s
        · exact hmisuse 0x050A
      · split
        · exact hmisuse 0x0509
        · split
          · exact (settleBuf_quiet ..).after (.ite (.of_same rfl rfl rfl) (.refl s))
          · exact hmisuse 0x0509

theorem drop_quiet (w : PoolReq) (h : Word) (k : Nat) (s : State) : Quiet s (drop w h k s) := releaseBuf_quiet ..

theorem dropAll_quiet (w : PoolReq) (l : List Word) (s : State) : Quiet s (dropAll w l s) :=
  (Quiet.refl s).foldl (fun t h => drop_quiet w h 0 t)

theorem allocRefused_quiet (w : PoolReq) (c : Code) (s : State) : Quiet s (allocRefused w c s) := by
  have hcount : Quiet s (if c = 0x0501 then { s with pool := { s.pool with emptyCnt := up s.pool.emptyCnt 1 } }
      else if c = 0x0502 ∨ c = 0x0503 then { s with pool := { s.pool with quotaCnt := up s.pool.quotaCnt 1 } } else s) :=
    .ite (.of_same rfl rfl rfl) (.ite (.of_same rfl rfl rfl) (.refl s))
  exact .ite ((stat_quiet ..).after hcount) hcount

theorem takeBuf_quiet {s t : State} {w : PoolReq} {c : Nat} {h : Word} (e : takeBuf s w c = some (h, t)) : Quiet s t := by
  unfold takeBuf at e
  dsimp only at e
  split at e
  · cases e
  · split at e
    · cases e
    · cases e
      exact .of_same rfl rfl rfl

theorem allocate_quiet (w : PoolReq) (n : Nat) (p : Bool) (s : State) : Quiet s (allocate w n p s).2 := by
  unfold allocate
  dsimp only
  split
  · exact allocRefused_quiet ..
  · split
    · exact allocRefused_quiet ..
    · split
      · next e => exact takeBuf_quiet e
      · split
        · split
          · next e => exact (takeBuf_quiet e).trans (.of_same rfl rfl rfl)
          · exact allocRefused_quiet ..
        · exact allocRefused_quiet ..

theorem allocMany_quiet (w : PoolReq) (b k : Nat) (s : State) : Quiet s (allocMany w b k s).2 := by
  induction k generalizing s with
  | zero => exact .refl s
  | succ k ih =>
    unfold allocMany
    have halloc := allocate_quiet w b false s
    split
    · next e =>
      rw [e] at halloc
      exact halloc
    · next u e =>
      rw [e] at halloc
      have hrest := halloc.trans (ih u)
      split <;> (next e2 => rw [e2] at hrest; exact hrest)

theorem mapSet_quiet (n : Nat) (o : SubmitOps) (s : State) : Quiet s (mapSet n o s).2 := by
  unfold mapSet
  dsimp only
  split
  · exact .refl s
  · have halloc := allocMany_quiet (sessReq n) (2 ^ 20) (setPages o) s
    split
    · next e _ _ => exact allocRefused_quiet (sessReq n) e s
    · next e =>
      rw [e] at halloc
      exact halloc.trans (.of_same rfl rfl rfl)

theorem mapSets_quiet (n : Nat) (o : SubmitOps) (k : Nat) (s : State) : Quiet s (mapSets n o k s).2 := by
  induction k generalizing s with
  | zero => exact .refl s
  | succ k ih =>
    unfold mapSets
    have hset := mapSet_quiet n o s
    split
    · next e =>
      rw [e] at hset
      exact hset
    · next u e =>
      rw [e] at hset
      have hrest := hset.trans (ih u)
      split
      · dsimp only
        split
        · exact .refl s
        · exact allocRefused_quiet ..
      · next e2 =>
        rw [e2] at hrest
        exact hrest

theorem rebind_quiet (n : Nat) (s : State) : Quiet s (rebind n s) := by
  unfold rebind
  split
  · exact .refl s
  · split
    · exact .refl s
    · next b _ =>
      have hmap := mapSets_quiet n b.ops b.ops.surfaces s
      dsimp only
      split <;>
        (next e =>
          rw [e] at hmap
          refine hmap.trans (Quiet.trans (setSess_quiet n _ ?_) (post_quiet ..))
          exact fun _ => rfl)

/-! Surface sets, references, frames and flows. -/

theorem unmapSets_quiet (h : Nat) (l : List (Nat × List Word)) (s : State) : Quiet s (unmapSets h l s) :=
  (Quiet.refl s).foldl (fun _ _ => (dropAll_quiet ..).after (.of_same rfl rfl rfl))

theorem unbind_quiet (n : Nat) (s : State) : Quiet s (unbind n s) := by
  unfold unbind
  split
  · exact .refl s
  · dsimp only
    refine (setSess_quiet n _ ?_).after (Quiet.foldl (Quiet.foldl (.refl s) (fun _ _ => unmapSets_quiet ..)) (fun _ _ => dropAll_quiet ..))
    exact fun _ => rfl

theorem freeRefs_quiet (n : Nat) (s : State) : Quiet s (freeRefs n s) := by
  unfold freeRefs
  split
  · exact .refl s
  · refine Quiet.foldl (setSess_quiet n s ?_) (fun t e => dropAll_quiet _ e.2.extents t)
    exact fun _ => rfl

theorem sweepPics_quiet (n : Nat) (s : State) : Quiet s (sweepPics n s) := by
  unfold sweepPics
  split
  · exact .refl s
  · refine Quiet.foldl (setSess_quiet n s ?_) (fun t e => dropAll_quiet _ e.2.extents t)
    exact fun _ => rfl

theorem freeSource_quiet (n : Nat) (x : Session) (f : Frame) (s : State) : Quiet s (freeSource n x f s) := by
  have hcomp : Quiet s (f.comp.foldl (fun s c => drop (sessReq n) c.1 c.2 s) s) := (Quiet.refl s).foldl (fun _ _ => drop_quiet ..)
  refine hcomp.trans (Quiet.trans (dropAll_quiet ..) (Quiet.trans (dropAll_quiet ..) (setSess_quiet n _ ?_)))
  exact fun _ => rfl

theorem freeBinds_quiet (n : Nat) (s : State) : Quiet s (freeBinds n s) := by
  unfold freeBinds
  split
  · exact .refl s
  · dsimp only
    refine Quiet.foldl (setSess_quiet n s ?_) (fun t b => unmapSets_quiet n b.sets t)
    exact fun _ => rfl

theorem dropFrame_quiet (n num : Nat) (s : State) : Quiet s (dropFrame n num s) := by
  unfold dropFrame
  split
  · exact .refl s
  · refine (freeSource_quiet ..).trans (Quiet.trans (setSess_quiet n _ ?_) ((freeBinds_quiet ..).trans (sweepPics_quiet ..)))
    exact fun _ => rfl

theorem freeFence_quiet (n : Nat) (s : State) : Quiet s (freeFence n s) := by
  unfold freeFence
  split
  · exact .refl s
  · split
    · exact .refl s
    · refine Quiet.trans (setSess_quiet n s ?_) (.of_same rfl rfl rfl)
      exact fun _ => rfl

theorem pendEvent_quiet (c : Bool) (p : UnitRef → Bool) (s : State) : Quiet s (pendEvent c p s) := .of_same rfl rfl rfl

theorem settleQueue_quiet (q : Nat) (x : Queue) (s : State) : Quiet s (settleQueue q x s) := by
  unfold settleQueue
  dsimp only
  exact .ite ((raise_quiet _ _ _ _ _ .refl).after (.of_same rfl rfl rfl)) (.of_same rfl rfl rfl)

theorem dropPackets_quiet (q : Nat) (s : State) : Quiet s (dropPackets q s) := by
  unfold dropPackets
  split
  · exact .refl s
  · exact Quiet.foldl ((settleQueue_quiet ..).after (.of_same rfl rfl rfl)) (fun _ _ => drop_quiet ..)

theorem removeFlow_quiet (i : Nat) (s : State) : Quiet s (removeFlow i s) := by
  unfold removeFlow
  split
  · exact .refl s
  · split
    · exact .of_same rfl rfl rfl
    · refine Quiet.trans (.of_same rfl rfl rfl) (Quiet.trans (setSess_quiet _ _ ?_) (.of_same rfl rfl rfl))
      exact fun _ => rfl

theorem closeFlows_quiet (n : Nat) (s : State) : Quiet s (closeFlows n s) := by
  unfold closeFlows
  split
  · exact .refl s
  · exact (Quiet.refl s).foldl (fun _ _ => (dropPackets_quiet ..).trans (removeFlow_quiet ..))

theorem dropHeld_quiet (n : Nat) (s : State) : Quiet s (dropHeld n s) := by
  unfold dropHeld
  split
  · exact .refl s
  · exact (Quiet.refl s).foldl (fun _ _ => drop_quiet ..)

theorem releaseAll_quiet (n : Nat) (s : State) : Quiet s (releaseAll n s) := by
  unfold releaseAll
  split
  · exact .refl s
  · next x _ =>
    have hsources : Quiet s (x.frames.foldl (fun s f => freeSource n x f s) (freeWork (fun t => decide (t.handle = n)) s)) :=
      Quiet.foldl (.of_same rfl rfl rfl) (fun _ _ => freeSource_quiet ..)
    have hrecs := hsources.foldl (l := x.recs) (f := fun s r => match r.payload with | none => s | some w => drop (sessReq n) w 0 s) (by
      intro t r
      split
      · exact .refl t
      · exact drop_quiet ..)
    dsimp only
    refine Quiet.trans ?_ (Quiet.trans (unbind_quiet ..) (Quiet.trans (freeRefs_quiet ..) (.of_same rfl rfl rfl)))
    refine Quiet.foldl (Quiet.foldl (Quiet.trans (Quiet.foldl ?_ (fun _ _ => drop_quiet ..)) (dropAll_quiet ..)) (fun _ _ => dropAll_quiet ..))
      (fun _ _ => dropAll_quiet ..)
    split
    · exact hrecs
    · refine hrecs.foldl (fun t p => ?_)
      split
      · exact .refl t
      · exact drop_quiet ..

end Sys2Proof.Machine
end

section
/-! Shadows: what the partner mirrors and decodes, and the statement on it (R439 to R445, R456). -/

namespace Sys2Proof.Machine
open Sys2Proof

theorem exec_mirror (m : MirrorMsg) (s : State) : exec (.mirror m) s = execMirror m s := rfl
theorem exec_shadowDecodeDone (n : Nat) (v : Verdict) (s : State) : exec (.shadowDecodeDone n v) s = execShadowDecodeDone n v s := rfl
theorem exec_shadowRecheckDone (n : Nat) (v : Second) (s : State) : exec (.shadowRecheckDone n v) s = execShadowRecheckDone n v s := rfl
theorem exec_syncDone (s : State) : exec .syncDone s = execSyncDone s := rfl

/-! A message on the link (R433). -/

theorem linkSend_of_up {s : State} (m : LinkOut) (hl : linkUp s = true) : linkSend m s = { s with
    out := s.out ++ [.link m]
    tandem := { s.tandem with seqOut := s.tandem.seqOut + 1, sent := s.tandem.sent ++ [(s.tandem.seqOut, 0)] } } := if_pos hl

theorem linkSend_out (m : LinkOut) (s : State) : (linkSend m s).out = s.out ++ (if linkUp s then [.link m] else []) := by
  unfold linkSend
  split
  · rfl
  · exact (List.append_nil _).symm

@[simp] theorem linkUp_wake (s : State) : linkUp (wake s) = linkUp s := by simp only [linkUp, wake_tandem]

/-! A shadow is freed (R71, R444). -/

theorem look_del_ne {α : Type} (m : NMap α) {k j : Nat} (h : j ≠ k) : look (del m k) j = look m j := by
  induction m with
  | nil => rfl
  | cons e t ih =>
    obtain ⟨i, a⟩ := e
    by_cases hik : i = k
    · simp [del, look, hik, Ne.symm h]
    · simp only [del, look, hik, if_false, ih]

/-- The end of a shadow: its handle is free with a risen generation, no other session changes its Tandem part, and the link stands as it did. -/
theorem freeShadow_reads {s : State} {n : Nat} {x : Session} (hx : look s.sessions n = some x) :
    (freeShadow n s).sessions.map (fun e => e.1) = (del s.sessions n).map (fun e => e.1) ∧
    ((x.gen + 1) % 16384 ≠ 0 → lookD (freeShadow n s).sess.gens n 0 = (x.gen + 1) % 16384) ∧
    (∀ m, m ≠ n → (look (freeShadow n s).sessions m).map tanFace = (look s.sessions m).map tanFace) ∧
    s.out <+: (freeShadow n s).out ∧ linkUp (freeShadow n s) = linkUp s := by
  have hq : Quiet s (releaseAll n (closeFlows n (pendEvent true (fun u => decide (u.handle = n)) s))) :=
    (pendEvent_quiet ..).trans ((closeFlows_quiet ..).trans (releaseAll_quiet ..))
  unfold freeShadow
  rw [hx]
  dsimp only
  generalize releaseAll n (closeFlows n (pendEvent true (fun u => decide (u.handle = n)) s)) = r at hq
  have hlink := linkUp_of_quiet hq
  refine ⟨keys_del _ _ _ (keys_of_quiet hq), fun hg => ?_, fun m hm => ?_, hq.out, hlink⟩
  · simp [sweepKeys, hg]
  · exact (congrArg (Option.map tanFace) (look_del_ne _ hm)).trans (tanFace_of_quiet hq)

/-! MIRROR (R440, R456). -/

section
variable {m : MirrorMsg} {x : Session} {s : State} (hr : Runs s) (hdead : s.tandem.dead = false) (hst : s.tandem.state = 3)
  (hwf : m.link.wellForm = true) (hauth : m.link.authOk = true) (hseq : m.link.seqOk = true)
include hr hdead hst hwf hauth hseq

theorem execMirror_of_unknown (hx : look s.sessions m.handle = none) : execMirror m s = .next (violate 4 0x0823 m.link.seq (wake s)) := by
  rw [execMirror, tanMessage_of_good hr hdead hst hwf hauth hseq, wake_sessions, hx]

theorem execMirror_of_primary (hx : look s.sessions m.handle = some x) (hrole : x.tan.role = 1) :
    execMirror m s = .next (violate 4 0x0824 m.link.seq (wake s)) := by
  rw [execMirror, tanMessage_of_good hr hdead hst hwf hauth hseq, wake_sessions, hx]
  exact congrArg _ (if_pos hrole)

theorem execMirror_of_disorder (hx : look s.sessions m.handle = some x) (hrole : x.tan.role = 2) (ho : mirrorOrder x.tan m = false) :
    execMirror m s = .next (violate 4 0x0827 m.link.seq (wake s)) := by
  rw [execMirror, tanMessage_of_good hr hdead hst hwf hauth hseq, wake_sessions, hx]
  dsimp only
  rw [if_neg (by omega), if_neg (by omega), ho, if_pos (by decide)]

end

/-- A shadow that has taken on what a MIRROR carries (R440, R442): z is the Bell of its frame's slot 0. -/
def mirrored (m : MirrorMsg) (z : BitVec 40) (s : State) (x : Session) : Session :=
  { x with
    frameNum := (m.frame + 1) % 2 ^ 32, frameMark := some (nowMark s), rate := m.rate, ltr := shadowLtr x m, rtp := m.rtp, pics := shadowPics x m
    tan := { x.tan with
      shFrame := m.frame, shBands := m.band, shLast := m.last, slot0 := if m.band = 1 then some z else x.tan.slot0
      shDesc := m.desc, shMain := m.main, shSlot := m.slot, due := x.tan.due ++ [(m.frame, m.band, eligBell s x)] } }

/-- The first band of a frame of which the shadow holds no picture. -/
theorem execMirror_of_first {m : MirrorMsg} {x : Session} {s : State} (hr : Runs s) (hdead : s.tandem.dead = false) (hst : s.tandem.state = 3)
    (hwf : m.link.wellForm = true) (hauth : m.link.authOk = true) (hseq : m.link.seqOk = true) (hx : look s.sessions m.handle = some x)
    (hrole : x.tan.role = 2) (hbands : x.tan.shBands = 0) (hband : m.band = 1) (hlast : m.last = false) (hdesc : m.desc < 16)
    (hpic : look x.pics m.desc = none) : execMirror m s = .next (setSess (wake s) m.handle
      (mirrored m (lastSlotZero (sessBell (wake s) x) (x.phase.getD 0) (framesF (wake s) x.stream.fps)) (wake s))) := by
  have hclear : clearDesc m x (wake s) = wake s := by simp [clearDesc, hband, hdesc, hpic]
  have horder : mirrorOrder x.tan m = true := by simp [mirrorOrder, hbands, hband]
  have hsweep : (m.last || decide (16 ≤ m.desc)) = false := by simp [hlast, hdesc]
  rw [execMirror, tanMessage_of_good hr hdead hst hwf hauth hseq, wake_sessions, hx]
  dsimp only
  rw [if_neg (by omega), if_neg (by omega), horder, if_neg (by decide), hsweep, hclear]
  rfl

/-! The shadow's decode (R439, R442 to R445). -/

section
variable {s : State} {n num f k : Nat} {b : DecBand} {e : BitVec 40} {r : List (Nat × DecBand)} {l : List (Nat × Nat × BitVec 40)} {x : Session}
  (hr : Runs s) (hx : look s.sessions n = some x) (hrun : x.tan.run = (num, b) :: r) (hdue : x.tan.due = (f, k, e) :: l)
  (hrole : x.tan.role = 2) (hcheck : x.tan.recheck = none)
include hr hx hrun hdue hrole hcheck

theorem execShadowDecodeDone_of_agree (hready : shadowReady x num b = true) : execShadowDecodeDone n .agree s =
    .next (shadowGood n f k (setTs s n (fun y => { y with due := l, run := r }))) := by
  rw [execShadowDecodeDone, onSession_of_look _ hr hx]
  simp only [hrun, hdue]
  rw [if_neg (by simp [hrole, hcheck]), if_pos hready]

theorem execShadowDecodeDone_of_lost : execShadowDecodeDone n .lost s = .next (shadowLost n f k s) := by
  rw [execShadowDecodeDone, onSession_of_look _ hr hx]
  simp only [hrun, hdue]
  rw [if_neg (by simp [hrole, hcheck])]

theorem execShadowDecodeDone_of_differ (hready : shadowReady x num b = true) : execShadowDecodeDone n .differ s =
    .next (setTs s n (fun y => { y with recheck := some b.quarter, run := r })) := by
  rw [execShadowDecodeDone, onSession_of_look _ hr hx]
  simp only [hrun, hdue]
  rw [if_neg (by simp [hrole, hcheck]), if_pos hready]

end

/-- A shadow without pictures has no extents to fill: its band is acknowledged at once (R443). -/
theorem shadowGood_of_noPics {s : State} {n f k : Nat} {x : Session} (hx : look s.sessions n = some x) (hpics : x.pics = []) :
    shadowGood n f k s = sendAck n f k .good s := by
  simp [shadowGood, shadowFinal, hx, hpics]

/-- A lost shadow decode is acknowledged so, and its shadow ends (R444). -/
theorem shadowLost_reads {s : State} {n f k : Nat} {x : Session} (hx : look s.sessions n = some x) (hl : linkUp s = true) :
    (shadowLost n f k s).sessions.map (fun e => e.1) = (del s.sessions n).map (fun e => e.1) ∧
    (∃ o, (shadowLost n f k s).out = s.out ++ [.link (.ack n f k .lost)] ++ o) ∧
    (∀ m, m ≠ n → (look (shadowLost n f k s).sessions m).map (fun y => y.state) = (look s.sessions m).map (fun y => y.state)) := by
  have hsess : (sendAck n f k .lost s).sessions = s.sessions := linkSend_sessions ..
  have hout : (sendAck n f k .lost s).out = s.out ++ [.link (.ack n f k .lost)] := by
    rw [sendAck, linkSend_out, hl, if_pos rfl]
  obtain ⟨hkeys, -, hfaces, ⟨o, ho⟩, -⟩ := freeShadow_reads (s := sendAck n f k .lost s) (by rwa [hsess])
  rw [hsess] at hkeys hfaces
  rw [hout] at ho
  refine ⟨hkeys, ⟨o, ho.symm⟩, fun m hm => ?_⟩
  have hstate := congrArg (Option.map Prod.fst) (hfaces m hm)
  rw [Option.map_map, Option.map_map] at hstate
  exact hstate

theorem execShadowRecheckDone_of_due {s : State} {n f k q : Nat} {b : BitVec 40} {l : List (Nat × Nat × BitVec 40)} {x : Session} (hr : Runs s)
    (hx : look s.sessions n = some x) (hcheck : x.tan.recheck = some q) (hdue : x.tan.due = (f, k, b) :: l) :
    execShadowRecheckDone n .firstShadow s = .next (setTan (sendAck n f k .mismatch
      (tanCount 0x54 1 (notice n 0x080F (setTs s n (fun y => { y with recheck := none, due := l }))))) (fun t => { t with mismatch := addS t.mismatch n })) ∧
    execShadowRecheckDone n .record s = .next (retireShadows q
      (tanCount 0x54 1 (notice n 0x080F (setTs s n (fun y => { y with recheck := none, due := l }))))) ∧
    execShadowRecheckDone n .neither s = .next (retireShadows q (sendAck n f k .mismatch
      (tanCount 0x54 1 (notice n 0x080F (setTs s n (fun y => { y with recheck := none, due := l })))))) := by
  simp only [execShadowRecheckDone, onSession_of_look _ hr hx, hcheck, hdue, and_self]

/-- Settles O31: a MIRROR by the session it names and its order, a decode by its verdict, the second decode by whom it blames. -/
theorem shadowsFollow : Obligations.ShadowsFollow := by
  unfold Obligations.ShadowsFollow
  simp only [exec_mirror, exec_shadowDecodeDone, exec_shadowRecheckDone, exec_syncDone, Completes]
  refine ⟨?first, ?disorder, ?primary, ?unknown, ?agree, ?agreeBare, ?lost, ?differ, ?recheck, ?synced⟩
  case first =>
    intro m x s hr hdead hst hwf hauth hseq hx hrole hbands hband hlast hdesc hpic
    refine ⟨_, execMirror_of_first hr hdead hst hwf hauth hseq hx hrole hbands hband hlast hdesc hpic,
      ⟨_, look_setSess_sv _ (x := x) (by rwa [wake_sessions]), ?_⟩, fun k hk => look_setSess_ne _ _ hk, rfl⟩
    simp only [mirrored, hband, Nat.reducePow, and_self]
  case disorder =>
    intro m x s hr hdead hst hwf hauth hseq hx hrole hbands hlast hbad
    refine execMirror_of_disorder hr hdead hst hwf hauth hseq hx hrole ?_
    simp only [mirrorOrder, hbands, hlast, if_false, Bool.false_eq_true, Bool.and_eq_false_iff, decide_eq_false_iff_not]
    exact hbad
  case primary =>
    intro m x s hr hdead hst hwf hauth hseq hx hrole
    exact execMirror_of_primary hr hdead hst hwf hauth hseq hx hrole
  case unknown =>
    intro m s hr hdead hst hwf hauth hseq hx
    exact execMirror_of_unknown hr hdead hst hwf hauth hseq hx
  case agree =>
    intro h f k num b e r l x s hr hx hrun hdue hrole hcheck hready hl
    exact execShadowDecodeDone_of_agree hr hx hrun hdue hrole hcheck hready
  case agreeBare =>
    intro h f k num b e r l x s hr hx hrun hdue hrole hcheck hready hl hpics
    rw [execShadowDecodeDone_of_agree hr hx hrun hdue hrole hcheck hready, setTs,
      shadowGood_of_noPics (look_setSess_sv _ hx) (by exact hpics)]
    exact congrArg _ (linkSend_of_up _ hl)
  case lost =>
    intro h f k num b e r l x s hr hx hrun hdue hrole hcheck hl
    exact ⟨_, execShadowDecodeDone_of_lost hr hx hrun hdue hrole hcheck, shadowLost_reads hx hl⟩
  case differ =>
    intro h f k num b e r l x s hr hx hrun hdue hrole hcheck hready
    exact execShadowDecodeDone_of_differ hr hx hrun hdue hrole hcheck hready
  case recheck =>
    intro h f k q b l x v s hr hx hcheck hdue
    obtain ⟨hfirst, hrecord, hneither⟩ := execShadowRecheckDone_of_due hr hx hcheck hdue
    cases v with
    | firstShadow => exact hfirst
    | record => exact hrecord
    | neither => exact hneither
  case synced =>
    intro s hr hst
    rw [execSyncDone, live_of_runs _ hr, if_neg (not_not.mpr hst)]

end Sys2Proof.Machine
end

section
/-! Primaries: acknowledgements, CONFIG messages and their replies, synchronisation, takeover and handover, and the statement on them (R437, R440,
R443, R444, R451, R456 to R458). -/

namespace Sys2Proof.Machine
open Sys2Proof

theorem exec_tandemAck (l : LinkMeta) (n f : Nat) (k : AckKind) (s : State) : exec (.tandemAck l n f k) s = execTandemAck l n f k s := rfl
theorem exec_ackTimeout (n : Nat) (s : State) : exec (.ackTimeout n) s = execAckTimeout n s := rfl
theorem exec_tandemConfig (l : LinkMeta) (n : Nat) (c : FwdCmd) (s : State) : exec (.tandemConfig l n c) s = execTandemConfig l n c s := rfl
theorem exec_tandemConfigReply (l : LinkMeta) (n : Nat) (c : Code) (s : State) :
    exec (.tandemConfigReply l n c) s = execTandemConfigReply l n c s := rfl
theorem exec_takeover (s : State) : exec .takeover s = execTakeover s := rfl
theorem exec_shadowSync (n : Nat) (s : State) : exec (.shadowSync n) s = execShadowSync n s := rfl
theorem exec_handover (n : Nat) (s : State) : exec (.handover n) s = execHandover n s := rfl

/-! Acknowledgements (R443, R456). -/

theorem alter_congr {α : Type} {m : NMap α} {k : Nat} {a : α} {f g : α → α} (ha : look m k = some a) (h : f a = g a) : alter m k f = alter m k g := by
  induction m with
  | nil => rfl
  | cons e t ih =>
    obtain ⟨i, b⟩ := e
    by_cases hi : i = k
    · simp only [look, hi, if_true, Option.some.injEq] at ha
      simp only [alter, hi, if_true, ha, h]
    · simp only [look, hi, if_false] at ha
      simp only [alter, hi, if_false, ih ha]

section
variable {l : LinkMeta} {n f : Nat} {k : AckKind} {x : Session} {s : State} (hr : Runs s) (hdead : s.tandem.dead = false) (hst : s.tandem.state = 3)
  (hwf : l.wellForm = true) (hauth : l.authOk = true) (hseq : l.seqOk = true)
include hr hdead hst hwf hauth hseq

theorem execTandemAck_of_unknown (hx : look s.sessions n = none) : execTandemAck l n f k s = .next (violate 5 0x0823 l.seq (wake s)) := by
  rw [execTandemAck, tanMessage_of_good hr hdead hst hwf hauth hseq, wake_sessions, hx]

theorem execTandemAck_of_other (hx : look s.sessions n = some x) (hrole : x.tan.role ≠ 1) :
    execTandemAck l n f k s = .next (violate 5 0x0823 l.seq (wake s)) := by
  rw [execTandemAck, tanMessage_of_good hr hdead hst hwf hauth hseq, wake_sessions, hx]
  exact congrArg _ (if_pos hrole)

/-- A GOOD band that is not the last of its frame, and for which TANDEM holds nothing, is counted and waits for no ACK any more. -/
theorem execTandemAck_of_good {b : Nat} {c : BitVec 40} (hx : look s.sessions n = some x) (hrole : x.tan.role = 1)
    (hband : ackedBand x.tan f = some (f, b, c)) (hheld : x.tan.held = []) (hmore : b ≠ bandsOf x.stream.height) :
    execTandemAck l n f .good s = .next (stat n 28 1 (tanCount 0x44 1 (setSess (wake s) n
      (fun x => { x with tan := { x.tan with acks := x.tan.acks.erase (f, b, c) } })))) := by
  have hacked : setTs (wake s) n (fun t => { t with
        acks := t.acks.erase (f, b, c), held := t.held.filter (fun e => !decide (e ∈ ([] : List (Nat × Nat × Word × Nat)))) }) =
      setSess (wake s) n (fun x => { x with tan := { x.tan with acks := x.tan.acks.erase (f, b, c) } }) := by
    refine congrArg (fun m => { wake s with sessions := m }) (alter_congr (m := (wake s).sessions) (k := n) (a := x) (by rwa [wake_sessions]) ?_)
    simp only [hheld, List.filter_nil]
  rw [execTandemAck, tanMessage_of_good hr hdead hst hwf hauth hseq, wake_sessions, hx]
  dsimp only
  rw [if_neg (not_not.mpr hrole), hband]
  simp only [hheld, List.filter_nil, List.foldl_nil, hmore, decide_false, Bool.false_and, Bool.false_eq_true, if_false]
  rw [hacked]

end

/-! A shadow is lost (R443, R444). -/

/-- A session's Tandem state once its shadow is lost: what the shadow had reached stays known. -/
def unshadowed (t : TanSess) : TanSess :=
  { TanSess.reset t.role with
    shFrame := t.shFrame, shBands := t.shBands, shLast := t.shLast, slot0 := t.slot0, shDesc := t.shDesc, shMain := t.shMain, shSlot := t.shSlot }

theorem applyWaiting_of_none {s : State} {n : Nat} (h : s.tandem.waiting.all (fun w => decide (w.handle ≠ n)) = true) :
    applyWaiting n s = setTan s (fun t => { t with waiting := t.waiting.filter (fun w => decide (w.handle ≠ n)) }) := by
  have hmine : s.tandem.waiting.filter (fun w => decide (w.handle = n)) = [] := by
    simpa [List.filter_eq_nil_iff] using h
  rw [applyWaiting, hmine, List.foldl_nil]

/-- The state in which a session has lost its shadow, before the commands that wait apply. -/
def shadowGone (n : Nat) (s : State) : State := tanCount 0x50 1 (notice n 0x080A (setTs (dropHeld n s) n unshadowed))

theorem shadowGone_kept (n : Nat) (s : State) : kept (shadowGone n s) = kept s := by simp [shadowGone]

theorem shadowGone_reads {s : State} {n : Nat} {x : Session} (hx : look s.sessions n = some x) :
    (∃ y, look (shadowGone n s).sessions n = some y ∧ y.tan = unshadowed x.tan ∧ y.state = x.state) ∧ s.out <+: (shadowGone n s).out := by
  have hdrop := dropHeld_quiet n s
  obtain ⟨z, hz, hzstate, -, hztan⟩ := look_of_quiet hdrop hx
  have hrest : Quiet (setTs (dropHeld n s) n unshadowed) (shadowGone n s) := (notice_quiet ..).trans (tanCount_quiet ..)
  obtain ⟨y, hy, hystate, -, hytan⟩ := look_of_quiet hrest (look_setSess_sv _ hz)
  refine ⟨⟨y, hy, ?_, hystate.trans hzstate⟩, hdrop.out.trans hrest.out⟩
  rw [hytan, ← hztan]

theorem shadowGone_link (n : Nat) (s : State) : linkView (shadowGone n s) = linkView s :=
  ((notice_quiet ..).trans (tanCount_quiet ..)).link.trans (dropHeld_quiet n s).link

theorem execAckTimeout_of_late {s : State} {n : Nat} {x : Session} (hr : Runs s) (hx : look s.sessions n = some x) (hrole : x.tan.role = 1)
    (hlive : x.tan.live = true) (hlate : x.tan.acks.any (fun a => decide (2 ≤ bellsFrom a.2.2 s.bell.num)) = true)
    (hnone : s.tandem.waiting.all (fun w => decide (w.handle ≠ n)) = true) : execAckTimeout n s =
    .next (setTan (shadowGone n (linkSend (.config n .close) s)) (fun t => { t with waiting := t.waiting.filter (fun w => decide (w.handle ≠ n)) })) := by
  have hview := (shadowGone_link n (linkSend (.config n .close) s)).trans (linkSend_quiet _ s).link
  simp only [linkView, Prod.mk.injEq] at hview
  obtain ⟨-, -, -, -, hwait⟩ := hview
  rw [execAckTimeout, onSession_of_look _ hr hx, if_pos ⟨hrole, hlive, hlate⟩, ← applyWaiting_of_none (by rwa [hwait])]
  rfl

/-! CONFIG at the partner (R436, R437, R456). -/

section
variable {l : LinkMeta} {n : Nat} {c : FwdCmd} {x : Session} {s : State} (hr : Runs s) (hdead : s.tandem.dead = false) (hst : s.tandem.state = 3)
  (hwf : l.wellForm = true) (hauth : l.authOk = true) (hseq : l.seqOk = true)
include hr hdead hst hwf hauth hseq

theorem execTandemConfig_of_primary (hx : look s.sessions n = some x) (hrole : x.tan.role = 1) :
    execTandemConfig l n c s = .next (violate 6 0x0824 l.seq (wake s)) := by
  rw [execTandemConfig, tanMessage_of_good hr hdead hst hwf hauth hseq]
  simp only [wake_sessions, hx, hrole, if_true]

theorem execTandemConfig_of_shadow (hx : look s.sessions n = some x) (hrole : x.tan.role = 2) : execTandemConfig l n c s =
    .next (linkSend (.reply n (shadowApply n x c (wake s)).1) (shadowApply n x c (wake s)).2) := by
  rw [execTandemConfig, tanMessage_of_good hr hdead hst hwf hauth hseq]
  simp only [wake_sessions, hx, hrole]
  rfl

theorem execTandemConfig_of_open {fn : Nat} {token tag : Word} {o : StreamOps} (hx : look s.sessions n = none) :
    execTandemConfig l n (.openShadow fn token o tag) s =
    .next (linkSend (.reply n (openShadow n fn token o tag (wake s)).1) (openShadow n fn token o tag (wake s)).2) := by
  rw [execTandemConfig, tanMessage_of_good hr hdead hst hwf hauth hseq]
  simp only [wake_sessions, hx]

/-- A reply for a command that waits (R437). -/
theorem execTandemConfigReply_of_waiting {d : FwdWait} {code : Code} (hd : s.tandem.waiting.find? (fun w => decide (w.handle = n)) = some d) :
    execTandemConfigReply l n code s = .next (
      if code = 0 then applyForwarded n d.index d.cmd (setTan (wake s) (fun t => { t with waiting := t.waiting.erase d }))
      else if noRoom d.cmd code then
        applyForwarded n d.index d.cmd (loseShadow false n (setTan (wake s) (fun t => { t with waiting := t.waiting.erase d })))
      else refuseForwarded n d.cmd code (setTan (wake s) (fun t => { t with waiting := t.waiting.erase d }))) := by
  rw [execTandemConfigReply, tanMessage_of_good hr hdead hst hwf hauth hseq]
  simp only [wake_tandem, hd]

end

/-- An OPENED shadow's session is listed under the primary's handle and generation (R436). -/
theorem openShadow_reads {s : State} {n fn : Nat} {token tag : Word} {o : StreamOps} (hx : look s.sessions n = none) (hon : fnOn s fn = true) :
    (openShadow n fn token o tag s).1 = 0 ∧
    (∃ y, look (openShadow n fn token o tag s).2.sessions n = some y ∧ y.state = 1 ∧ y.kind = 0 ∧ y.fn = fn ∧ y.stream = o ∧ y.userTag = tag ∧
      y.tan.role = 2 ∧ y.gen = fld token 31 18) ∧
    (∀ m, m ≠ n → look (openShadow n fn token o tag s).2.sessions m = look s.sessions m) ∧
    linkUp (openShadow n fn token o tag s).2 = linkUp s := by
  have hfree : freeShadow n s = s := by rw [freeShadow, hx]
  simp only [openShadow, hon, hfree, Bool.not_true, Bool.false_eq_true, if_false, true_and]
  generalize hu : ({ s with sess := _ } : State) = u
  generalize hy : ({ newSession u n _ 0 0 o tag 2 0xFFFF none with gen := _, effort := _ } : Session) = y
  obtain ⟨q, hadd⟩ := addSession_eq n y u
  obtain ⟨m, hm, -⟩ := writeRecord_frame n (listSession n { y with quarter := q } u)
  rw [hadd, hm]
  subst hy
  subst hu
  exact ⟨⟨_, look_put_self .., rfl, rfl, rfl, rfl, rfl, rfl, rfl⟩, fun k hk => look_put_ne _ _ hk, rfl⟩

theorem parkFrames_state (x : Session) : (parkFrames x).state = x.state := by
  unfold parkFrames
  split
  · rfl
  · dsimp only
    split <;> rfl

/-! Takeover and handover (R451, R453, R458). -/

theorem takeoverRecord_quiet (n cause frame fence first flags : Nat) (s : State) : Quiet s (takeoverRecord n cause frame fence first flags s) := by
  unfold takeoverRecord
  split
  · exact .refl s
  · exact post_quiet ..

/-- The RTP state with which a shadow goes on: after a gap it is drawn anew (R451). -/
def takenRtp (x : Session) (s : State) : Rtp × State :=
  if x.tan.gap then
    ({ x.rtp with ssrc := Config.draw s.freeCtr, roc := 0, seq := (Config.draw (s.freeCtr + 1)).truncate 16, tsNext := Config.draw (s.freeCtr + 2),
                  tsLast := Config.draw (s.freeCtr + 2) }, { s with freeCtr := s.freeCtr + 3 })
  else (x.rtp, s)

theorem takenRtp_quiet (x : Session) (s : State) : Quiet s (takenRtp x s).2 := by
  unfold takenRtp
  split <;> exact .of_same rfl rfl rfl

/-- The frame with which a shadow goes on (R453). -/
def takenFrame (x : Session) : Nat :=
  if x.tan.shBands = 0 then x.frameNum else if x.tan.shLast then (x.tan.shFrame + 1) % 2 ^ 32 else x.tan.shFrame

/-- A shadow that has become primary in Bell b: old is the shadow (R451, R453). -/
def takenOver (old : Session) (rtp : Rtp) (b : BitVec 40) (x : Session) : Session :=
  { x with
    frameNum := takenFrame old, rtp := rtp, ltr := if old.tan.gap then { x.ltr with key := true } else x.ltr
    woken := if decide (old.state = 2) then some b else none, tan := unshadowed { old.tan with role := 1 } }

/-- What a takeover does after the shadow has become primary leaves the Tandem pair alone. -/
theorem takeSession_quiet {s : State} {n : Nat} {x : Session} (c : Nat) (hx : look s.sessions n = some x) :
    Quiet (setSess (pendEvent true (fun u => decide (u.handle = n)) (takenRtp x s).2) n (takenOver x (takenRtp x s).1 s.bell.num))
      (takeSession c n s) := by
  have hfence : ∀ (u : State) (b : Bool), Quiet u (match (if b then takeFence u x.fn x.oldFence else none) with
      | none => u
      | some (i, l) => setFences x.fn l (setSess u n (fun x => { x with fence := some i }))) := by
    intro u b
    split
    · exact .refl u
    · refine (setSess_quiet n u ?_).trans (.of_same rfl rfl rfl)
      exact fun _ => rfl
  rw [takeSession, hx]
  change Quiet _ (tanCount _ _ (takeoverRecord _ _ _ _ _ _ (ite _ (rebind _ _) _)))
  exact (tanCount_quiet ..).after ((takeoverRecord_quiet ..).after (.ite ((rebind_quiet ..).after (hfence ..)) (hfence ..)))

theorem takeSession_reads {s : State} {n : Nat} {x : Session} (c : Nat) (hx : look s.sessions n = some x) :
    linkView (takeSession c n s) = linkView s ∧ ∃ y, look (takeSession c n s).sessions n = some y ∧ y.state = x.state ∧
      y.tan = unshadowed { x.tan with role := 1 } ∧ y.frameNum = takenFrame x := by
  have hend := (takenRtp_quiet x s).trans (pendEvent_quiet true (fun u => decide (u.handle = n)) _)
  obtain ⟨z, hz, hzstate, -⟩ := look_of_quiet hend hx
  have htake := takeSession_quiet c hx
  obtain ⟨y, hy, hystate, hyframe, hytan⟩ := look_of_quiet htake (look_setSess_sv _ hz)
  exact ⟨htake.link.trans hend.link, y, hy, hystate.trans hzstate, hytan, hyframe⟩

theorem freeFence_reads {s : State} {n : Nat} {x : Session} (hx : look s.sessions n = some x) :
    ∃ y, look (freeFence n s).sessions n = some y ∧ y.fence = none := by
  unfold freeFence
  rw [hx]
  dsimp only
  split
  · next hf => exact ⟨x, hx, hf⟩
  · exact ⟨_, look_setSess_sv _ hx, rfl⟩

/-- An old primary as it becomes the shadow, before its bindings and its fence index go (R458). -/
def turnedShadow (x : Session) : Session :=
  { x with tan := { TanSess.reset 2 with landed := decide (x.state = 4) }, doneWait := [], recs := [] }

theorem becomeShadow_eq {s : State} {n : Nat} {x : Session} (hx : look s.sessions n = some x) :
    ∃ r, Quiet s r ∧ becomeShadow n s = freeFence n (unbind n (setSess r n turnedShadow)) := by
  refine ⟨x.frames.foldl (fun s f => dropFrame n f.num s) (pendEvent true (fun u => decide (u.handle = n)) (dropHeld n s)),
    Quiet.foldl ((pendEvent_quiet ..).after (dropHeld_quiet ..)) (fun _ _ => dropFrame_quiet ..), ?_⟩
  rw [becomeShadow, hx]
  rfl

theorem becomeShadow_reads {s : State} {n : Nat} {x : Session} (hx : look s.sessions n = some x) (hst : x.state = 4) :
    ∃ y, look (becomeShadow n s).sessions n = some y ∧ y.tan = { TanSess.reset 2 with landed := true } ∧ y.state = 4 ∧ y.fence = none ∧
      y.doneWait = [] ∧ y.recs = [] := by
  obtain ⟨r, hframes, hturn⟩ := becomeShadow_eq hx
  rw [hturn]
  obtain ⟨z, hz, hzstate, -⟩ := look_of_quiet hframes hx
  have hturned := look_setSess_sv turnedShadow hz
  generalize setSess r n turnedShadow = u at hturned
  obtain ⟨v, hv, -⟩ := look_of_quiet (unbind_quiet n u) hturned
  obtain ⟨y, hy, hfence⟩ := freeFence_reads hv
  obtain ⟨y', hy', hstate, -, htan⟩ := look_of_quiet ((unbind_quiet n u).trans (freeFence_quiet n _)) hturned
  obtain rfl : y = y' := Option.some.inj (hy.symm.trans hy')
  obtain ⟨y'', hy'', hkept⟩ := sv_look ((freeFence_sv n (unbind n u)).trans (unbind_sv n u)) hturned
  obtain rfl : y = y'' := Option.some.inj (hy.symm.trans hy'')
  simp only [svp, turnedShadow, SV.mk.injEq] at hkept
  obtain ⟨-, -, -, -, -, -, -, hrecs, -, hwait, -⟩ := hkept
  refine ⟨y, hy, ?_, hstate.trans (hzstate.trans hst), hfence, hwait, hrecs⟩
  rw [htan, turnedShadow, hzstate, hst]
  rfl

/-- Settles O32: an ACK by the session it names and what it says, a CONFIG by its command, a reply by the command that waits, a takeover and a
handover by the role of each session. -/
theorem primariesTellAndTakeOver : Obligations.PrimariesTellAndTakeOver := by
  unfold Obligations.PrimariesTellAndTakeOver
  simp only [exec_tandemAck, exec_ackTimeout, exec_tandemConfig, exec_tandemConfigReply, exec_takeover, exec_shadowSync, exec_handover, Completes]
  refine ⟨?ack, ?ackOther, ?ackUnknown, ?late, ?onTime, ?rate, ?close, ?opens, ?openOff, ?primary, ?applied, ?parked, ?refused, ?takeNone, ?take,
    ?sync, ?handIn, ?handOut⟩
  case ack =>
    intro l h f k b x s hr hdead hst hwf hauth hseq hx hrole hband hheld hmore
    exact execTandemAck_of_good hr hdead hst hwf hauth hseq hx hrole hband hheld hmore
  case ackOther =>
    intro l h f k x s hr hdead hst hwf hauth hseq hx hrole
    exact execTandemAck_of_other hr hdead hst hwf hauth hseq hx hrole
  case ackUnknown =>
    intro l h f k s hr hdead hst hwf hauth hseq hx
    exact execTandemAck_of_unknown hr hdead hst hwf hauth hseq hx
  case late =>
    intro h x s hr hx hrole hlive hlate hnone
    have hx' : look (linkSend (.config h .close) s).sessions h = some x := by rwa [linkSend_sessions]
    obtain ⟨⟨y, hy, htan, hstate⟩, ⟨o, ho⟩⟩ := shadowGone_reads hx'
    refine ⟨_, execAckTimeout_of_late hr hx hrole hlive hlate hnone, ⟨y, hy, ?_, hstate⟩, ⟨o, ?_⟩, ?_⟩
    · rw [htan, unshadowed, hrole]
    · rw [← linkSend_out, ho]
      rfl
    · have hmem := congrArg (fun k => k.core.mem) (shadowGone_kept h (linkSend (.config h .close) s))
      exact hmem.trans (congrArg (fun k => k.core.mem) (linkSend_kept _ s))
  case onTime =>
    intro h x s hr hx hlate
    rw [execAckTimeout, onSession_of_look _ hr hx, if_neg (by simp [hlate])]
  case rate =>
    intro l h o x s hr hdead hst hwf hauth hseq hx hrole hl
    rw [execTandemConfig_of_shadow hr hdead hst hwf hauth hseq hx hrole]
    refine congrArg _ (linkSend_of_up _ ?_)
    rw [← linkUp_wake] at hl
    exact hl
  case close =>
    intro l h x s hr hdead hst hwf hauth hseq hx hrole hl
    obtain ⟨hkeys, hgens, -, -, hlink⟩ := freeShadow_reads (s := wake s) (n := h) (x := x) (by rwa [wake_sessions])
    refine ⟨_, execTandemConfig_of_shadow hr hdead hst hwf hauth hseq hx hrole, ?_, fun hg => ?_, ?_⟩
    · rw [linkSend_sessions]
      exact hkeys
    · rw [sv_gens (linkSend_sv ..)]
      exact hgens hg
    · rw [linkSend_out, show linkUp (shadowApply h x .close (wake s)).2 = true from hlink.trans ((linkUp_wake s).trans hl)]
      exact ⟨_, rfl⟩
  case opens =>
    intro l h fn token tag o s hr hdead hst hwf hauth hseq hx hl hon
    rw [execTandemConfig_of_open hr hdead hst hwf hauth hseq hx]
    obtain ⟨hcode, hnew, hrest, hlink⟩ := openShadow_reads (s := wake s) (n := h) (fn := fn) (token := token) (tag := tag) (o := o)
      (by rwa [wake_sessions]) (by rwa [fnOn_wake])
    refine ⟨_, rfl, ?_, ?_, ?_⟩
    · rw [linkSend_sessions]
      exact hnew
    · rw [linkSend_sessions]
      exact hrest
    · rw [linkSend_out, hlink, linkUp_wake, hl, hcode]
      exact ⟨_, rfl⟩
  case openOff =>
    intro l h fn token tag o s hr hdead hst hwf hauth hseq hx hl hoff
    have hopen : openShadow h fn token o tag (wake s) = (0x0806, wake s) := by
      rw [openShadow, fnOn_wake, hoff, if_pos (by decide)]
    rw [execTandemConfig_of_open hr hdead hst hwf hauth hseq hx, hopen, linkSend_of_up _ (by rwa [linkUp_wake])]
  case primary =>
    intro l h c x s hr hdead hst hwf hauth hseq hx hrole
    exact execTandemConfig_of_primary hr hdead hst hwf hauth hseq hx hrole
  case applied =>
    intro l h k o d s hr hdead hst hwf hauth hseq hd hcmd
    rw [execTandemConfigReply_of_waiting hr hdead hst hwf hauth hseq hd, if_pos rfl, hcmd]
    rfl
  case parked =>
    intro l h p k d x s hr hdead hst hwf hauth hseq hd hcmd hx
    rw [execTandemConfigReply_of_waiting hr hdead hst hwf hauth hseq hd, if_pos rfl, hcmd]
    refine ⟨_, rfl, ⟨_, look_setSess_sv _ (x := x) ?_, parkFrames_state x, rfl⟩, rfl⟩
    exact (congrArg (look · h) (wake_sessions s)).trans hx
  case refused =>
    intro l h k o c d s hr hdead hst hwf hauth hseq hd hcmd hc
    rw [execTandemConfigReply_of_waiting hr hdead hst hwf hauth hseq hd, if_neg hc, hcmd, if_neg (by simp [noRoom])]
    rfl
  case takeNone =>
    intro c s hr hgo hstart hc hnone hst
    rw [execTakeover, live_of_runs _ hr, if_neg (by simp [hgo, hstart])]
    have hall : ∀ p, List.filter p s.sessions = [] := by simp [hnone]
    simp only [hc, hall, List.map_nil, List.foldl_nil]
    rw [pairState_of_change (by simp [setTan, hst])]
    rfl
  case take =>
    intro c h x s hr hgo hstart hc hs hrole hst
    have hnext : execTakeover s = .next (takeSession c h (pulse 0x072
        { s with tandem := { s.tandem with takeover := none, takeGo := false, mismatch := [], state := 4 } })) := by
      rw [execTakeover, live_of_runs _ hr, if_neg (by simp [hgo, hstart])]
      simp [hc, hs, hrole, pairState_of_change, setTan, hst]
    obtain ⟨i, p, hpulse⟩ := pulse_frame 0x072 { s with tandem := { s.tandem with takeover := none, takeGo := false, mismatch := [], state := 4 } }
    rw [hpulse] at hnext
    obtain ⟨hlink, y, hy, hstate, htan, hframe⟩ := takeSession_reads (n := h) (x := x) (s := { s with
      tandem := { s.tandem with takeover := none, takeGo := false, mismatch := [], state := 4 }, irq := i, pwr := p }) c (by simp [hs, look])
    simp only [linkView, Prod.mk.injEq] at hlink
    obtain ⟨hstate4, -, hover, hgone, -⟩ := hlink
    exact ⟨_, hnext, hstate4, hover, hgone, y, hy, hstate, htan, hframe⟩
  case sync =>
    intro h f x s hr hx hf hrole hl hlive hsync hnext
    rw [execShadowSync, onSession_of_look _ hr hx, hf]
    exact congrArg _ (if_pos ⟨hrole, hl, hlive, hsync, hnext⟩)
  case handIn =>
    intro h x s hr hx hstart hl hst hpend hrole hlanded
    have hnext : execHandover h s = .next (takeoverRecord h 3 0xFFFFFFFF 0xFFFF 1 0 (setTs s h (fun _ => { TanSess.reset 1 with live := true }))) := by
      rw [execHandover, onSession_of_look _ hr hx, if_neg (by simp [hstart, hl, hst, hpend]), if_neg (by simp [hrole]), if_pos ⟨hrole, hlanded⟩]
    obtain ⟨y, hy, hstate, -, htan⟩ := look_of_quiet (takeoverRecord_quiet h 3 0xFFFFFFFF 0xFFFF 1 0
      (setTs s h (fun _ => { TanSess.reset 1 with live := true }))) (look_setSess_sv _ hx)
    refine ⟨_, hnext, ⟨y, hy, htan, hstate.trans hst⟩, ?_⟩
    exact congrArg (fun k => k.core.mem) (takeoverRecord_kept h 3 0xFFFFFFFF 0xFFFF 1 0 (setTs s h (fun _ => { TanSess.reset 1 with live := true })))
  case handOut =>
    intro h x s hr hx hstart hl hst hpend hrole hctrl hlive
    refine ⟨_, ?_, becomeShadow_reads (s := linkSend (.handover h) s) (by rwa [linkSend_sessions]) hst⟩
    rw [execHandover, onSession_of_look _ hr hx, if_neg (by simp [hstart, hl, hst, hpend]), if_pos ⟨hrole, hctrl, hlive⟩]

end Sys2Proof.Machine
end
